-- ==== Sys2Proof/Word.lean ====
section
/-!
DEFINITION. The word types of the controller and the shape of its sparse tables.
-/
namespace Sys2Proof

/-- A register word: registers are 32 bits wide (R15). -/
abbrev W := BitVec 32

/-- A byte. -/
abbrev Byte := BitVec 8

/-- A 64-bit word: sequence numbers, link time, Tick and Epoch, memory words (R85, R466, R467). -/
abbrev D := BitVec 64

/-- Sparse data by number: entries in strictly rising key order, none equal to what an unlisted key
reads as. `Machine.tget` and `Machine.tset` read and write it. -/
abbrev Tbl (α : Type) := List (Nat × α)

end Sys2Proof
end

