-- ==== Sys2Proof/Syntax.lean ====
section
/-!
DEFINITION. The commands of the controller: one constructor of `Instr` for each row of the table of operations and
events, with the operands each carries.
-/
namespace Sys2Proof

/-- Who makes a register access: an application core, a management core, the management port, the
debug port, or the hardware itself (R25, R539, R540). -/
inductive Requester where
  | cpu (core : Fin 8)
  | mgtCore (core : Fin 2)
  | mgtPort
  | dbg
deriving DecidableEq, Repr

/-- What the SRAM code of R331 finds in a word read: no error, a corrected bit, an uncorrectable
syndrome, or a syndrome equal to an address column. The check matrix is not given by the spec, so the
finding arrives with the access. -/
inductive EccFind where
  | clean
  | corrected
  | uncorrectable
  | addressMismatch
deriving DecidableEq, Repr

/-- A record as its producer submits it to the Almanac (R529): the fields ALM fills are carried too,
because R529 drops a record whose producer set one of them. -/
structure AlmSub where
  sync : BitVec 16 := 0xA1A5
  code : BitVec 16
  length : BitVec 16
  flags : BitVec 16 := 0
  epoch : D := 0
  crc : W := 0
  payload : List Byte
deriving DecidableEq, Repr

/-- A quality record (Table 4.5). -/
structure SectorRec where
  status : Nat
  source : Nat := 0
  anchor : Nat := 0
  syncOffset : BitVec 8 := 0x80
  syncDist : Nat := 0
  iterations : Nat := 0
  readers : Nat := 0
  initUnsat : Nat := 0
  defectBits : Nat := 0
  meanLlr : Nat := 0
  class_ : Nat := 0
  slot : Nat
  profile : Nat := 0
  ltime : BitVec 32 := 0
  gateId : Nat := 0
deriving DecidableEq, Repr

/-- An access of BUF to a fabric address (R327, R340): bytes still to do, the write bytes if it writes, and what has been
read so far; what the SRAM code finds in the first Lantern word it reads, and what the LPDDR6 code finds, at which symbol,
in the first data unit it reads. -/
structure BufAcc where
  addr : Nat
  len : Nat
  data : Option (List Byte) := none
  got : List Byte := []
  status : Nat := 0
  lnt : EccFind := .clean
  mem : EccFind := .clean
  symbol : Nat := 0
  /-- The consumer's place in the drain order of Table 12.5, 1 to 6; 7 for an access that serves no queue (R360). -/
  order : Nat := 7
deriving DecidableEq, Repr

/-- A request to the parity engine (R346): the buffer addresses of the data slots, of P and of Q where P = 2, and for a
rebuild the slots that are missing (R301). -/
structure ParReq where
  tag : Nat
  rebuild : Bool
  two : Bool
  slots : List Nat
  missing : List Nat := []
  /-- Data slots beyond the zone's last LBA: they enter parity as zero (R55). -/
  fill : List Nat := []
  /-- Metadata bits 79 to 0 that each slot is to carry, by slot; none where the request writes user bytes alone (R50, R56). -/
  metas : List Nat := []
deriving DecidableEq, Repr

/-- What a personality table says of the identity; an empty string or a 0 stands for the default of Table 13.4. -/
structure Ident where
  vid : Nat := 0
  ssvid : Nat := 0
  oui : Nat := 0
  sn : List Byte := []
  mn : List Byte := []
  nqn : List Byte := []
  /-- Maximum power of PS0 to PS4 (R386). -/
  maxPower : List Nat := []
deriving DecidableEq, Repr

/-- A host command with its parameters (Table 13.3). Data is carried by LBA, 4,096 bytes each. -/
inductive HostOp where
  /-- Fabrics Connect: queue 0 is the admin queue; KATO in ms; the host's identifier; a discovery controller; over RDMA. -/
  | connect (qid size kato host : Nat) (discovery rdma : Bool)
  | disconnect
  | propertyGet (ofst : Nat)
  | propertySet (ofst : Nat) (value : D)
  | identify (cns : Nat)
  | getLogPage (lid : Nat)
  /-- Identifier, Command Dword 11, and for Autonomous Power State Transition the idle times in ms that its table gives for
  PS1 to PS4, 0 for none. -/
  | setFeatures (fid : Nat) (cdw11 : W) (apst : List Nat)
  /-- Select: 0 current, 1 default, 2 saved, 3 capabilities. -/
  | getFeatures (fid sel : Nat)
  | abort (sqid cid : Nat)
  | asyncEvent
  | keepAlive
  | format (ses : Nat)
  | fwDownload (offset : Nat) (data : List Byte)
  | fwCommit (slot action : Nat)
  | read (lba n : Nat) (limited : Bool)
  | write (lba : Nat) (data : List (List Byte))
  | flush
  | writeZeroes (lba n : Nat)
  | compare (lba : Nat) (data : List (List Byte))
  | zoneAppend (lba : Nat) (data : List (List Byte))
  /-- Zone Management Send: 1 Close, 2 Finish, 3 Open, 4 Reset; on every zone with Select All. -/
  | zoneSend (lba action : Nat) (all : Bool)
  | reportZones (lba : Nat)
  | kvStore (key value : List Byte) (mustExist mustNot : Bool)
  | kvRetrieve (key : List Byte)
  | kvDelete (key : List Byte)
  | kvExist (key : List Byte)
  | kvList (key : List Byte)
  /-- Register: 0 register, 1 unregister, 2 replace; CPTPL: 0 no change, 2 clear, 3 set. -/
  | rsvRegister (action cur new cptpl : Nat) (ignoreKey : Bool)
  | rsvReport
  /-- Acquire: 0 acquire, 1 preempt, 2 preempt and abort. -/
  | rsvAcquire (action type_ cur preempt : Nat)
  /-- Release: 0 release, 1 clear. -/
  | rsvRelease (action type_ cur : Nat)
  | unsupported (opcode : Nat)
deriving DecidableEq, Repr

/-- A command capsule: submission queue, command identifier, namespace, command. -/
structure HostCmd where
  sqid : Nat
  cid : Nat
  nsid : Nat := 0
  op : HostOp
deriving DecidableEq, Repr

/-- A completion entry: NVMe status code type and code, Dwords 0 and 1, and the Brodvon code that the Error Information log takes
(R401, Table 14.3). -/
structure Cpl where
  sct : Nat := 0
  sc : Nat := 0
  dw0 : Nat := 0
  dw1 : Nat := 0
  code : Nat := 0
deriving DecidableEq, Repr

/-- What an Ethernet frame carries (R374 to R378, R388). -/
inductive EthPay where
  /-- A wake frame's payload; whether its padding is all 0. -/
  | wake (sig version flags target : Nat) (code : W) (padZero : Bool)
  /-- A command capsule of TCP connection `conn`. -/
  | tcp (conn : Nat) (cmd : HostCmd)
  /-- A malformed PDU on TCP connection `conn`. -/
  | badPdu (conn : Nat)
  /-- A RoCEv2 SEND on queue pair `qp`, and whether its ICRC is good. -/
  | roce (qp : Nat) (icrcOk : Bool) (cmd : HostCmd)
  /-- A connection request for a reliable-connected queue pair. -/
  | roceConnect (qp : Nat)
  /-- Anything else: the transports and the address protocols deal with it. -/
  | other
deriving DecidableEq, Repr

/-- An Ethernet frame as received (R374, R378): destination, bytes, 802.1Q tags, FCS, FEC codewords corrected and
uncorrectable, and whether the destination is a multicast address that the port's IP configuration requires. -/
structure EthFrame where
  dest : Nat
  bytes : Nat
  tags : Nat := 0
  fcsOk : Bool := true
  fecCorr : Nat := 0
  fecUncorr : Nat := 0
  multicast : Bool := false
  pay : EthPay
deriving DecidableEq, Repr

/-- What a command returns besides its completion entry. The byte layout of each structure is that of the NVMe
specifications; the fields the spec fixes are named. -/
inductive HostReply where
  | data (lba : Nat) (bytes : List Byte)
  | property (value : D)
  /-- Identify, by CNS, its own values and its strings (R387, R397). -/
  | identify (cns : Nat) (values : List Nat) (strings : List (List Byte))
  /-- A log page, by identifier and entries. -/
  | logPage (lid : Nat) (entries : List (List Nat))
  /-- Zone number within the namespace, state, "finished by controller", write pointer. -/
  | zones (l : List (Nat × Nat × Bool × Nat))
  | value (bytes : List Byte)
  | keys (l : List (List Byte))
  /-- Generation, type, holder, registrants with their keys. -/
  | reservation (gen type_ : Nat) (holder : Option Nat) (keys : List (Nat × Nat))
deriving DecidableEq, Repr

/-- An entry of a migration plan (R426, Table 15.3). -/
structure PlanEnt where
  src : Nat
  dst : Nat
  first : Nat
  count : Nat
  kind : Nat
deriving DecidableEq, Repr

/-- The body of HELLO (Table 15.3). -/
structure JubHello where
  session : W
  version : Nat := 1
  role : Nat
  width : Nat
  serial : List Byte := []
  /-- RESUME; 0xFFFF_FFFF for none. -/
  resume : W := 0xFFFFFFFF
  window : Nat
  credit : Nat
deriving DecidableEq, Repr

/-- A stripe that the successor receives: its sectors, slot 0 first, each 4,112 bytes, and SFLAGS (Table 15.3). -/
structure JubStripe where
  plan : Nat
  stripe : Nat
  tail : Bool := false
  resend : Bool := false
  sectors : List (List Byte)
deriving DecidableEq, Repr

/-- The body of ZONE_BEGIN, with its plan index (Table 15.3). -/
structure JubBegin where
  idx : Nat
  srcZone : Nat
  gen : Nat
  g : Nat
  p : Nat
  lbas : Nat
  stripes : Nat
  full : Bool := false
  byCtrl : Bool := false
deriving DecidableEq, Repr

/-- The header of a Brodvon packet, as far as its fields are checked (R545, R546): whether LENGTH fits the opcode's parameters, and
whether every reserved byte is 0. -/
structure MgtHdr where
  iana : Nat := 0x0001B7C3
  version : Nat := 1
  tag : Nat := 0
  lengthOk : Bool := true
  reservedOk : Bool := true
deriving DecidableEq, Repr

/-- An MCTP packet as the port receives it (R541 to R543): link check, header fields, payload bytes and the message type that its
first packet names. -/
structure MctpPkt where
  linkOk : Bool := true
  version : Nat := 1
  dest : Nat := 0
  src : Nat := 0
  som : Bool := true
  eom : Bool := true
  seq : Nat := 0
  tag : Nat := 0
  bytes : Nat := 1
  type : Nat := 0
deriving DecidableEq, Repr

/-- The parameters of NET_SET but for the port (Table 19.6). -/
structure NetCfg where
  flags : Nat
  ipv4 : W
  prefix4 : Nat
  gateway : W
  ipv6 : List Byte
  prefix6 : Nat
  vlan : Nat
  pfc : Nat
deriving DecidableEq, Repr

/-- A tunnelled Admin command (R543): those of Table 13.3 that it lists. -/
inductive MiAdmin where
  | identify (nsid cns : Nat)
  | logPage (nsid lid : Nat)
  | getFeatures (fid sel : Nat)
  | setFeatures (fid : Nat) (v : W)
  | download (offset : Nat) (data : List Byte)
  | commit (slot action : Nat) (verifies : Bool)
deriving DecidableEq, Repr


/-- What hardware answers to an action that a register write may request: the outcome of a training, of a health test or integrity
check, and the bits that a margin read found failing; and what hardware does to the register in the same cycle. -/
structure RegEnv where
  up : Bool := true
  ok : Bool := true
  bits : Nat := 0
  /-- Fields that hardware updates in the cycle of the write: low bit, width, and the new value (R18, R587). -/
  hw : List (Nat × Nat × Nat) := []
deriving DecidableEq, Repr

/-- What a step of the boot ROM finds (Table 17.2): whether it succeeds, the bank words 128 on that the personality partition
gives (R465), an uncorrectable word of the save memory (R456), the blocks whose erase fails (R494), and whether the body of
each of slots A and B passes its hash and its signature (R501). -/
structure BootOut where
  ok : Bool := true
  bank : List (Nat × W) := []
  badWord : Bool := false
  eraseFail : List Nat := []
  bodyA : Bool := true
  bodyB : Bool := true
deriving DecidableEq, Repr

/-- What firmware's format map says of the board (R39, R44, R59): a mask of the populated heads of each actuator, the user zones its
media hold beside the internal regions, the data-slot bytes of its internal media, and whether A0 with A2 and A1 with A3 are
wired so that heads of one number serve one surface. -/
structure Board where
  heads : List Nat
  zones : List Nat
  internal : List Nat
  wired : List Bool := [true, true]
deriving DecidableEq, Repr

/-- A namespace of the personality table: NSID, kind (0 conventional, 1 zoned, 2 Key Value), zone groups, ANA group. -/
structure SpaceDesc where
  nsid : Nat
  kind : Nat
  groups : List Nat
  ana : Nat := 1
deriving DecidableEq, Repr

/-- The personality table (R58, R293, R382, R413, R505, R531, R549, R552): descriptors as the words of their tables, ring size
in GiB and close time in µs, spare pool share in half percents, pairs of ANA group and port that are Non-optimized, registers
of ALM that the map and the classes are loaded into, MGT_LOCK, network settings by port, identity. -/
structure Persona where
  board : Board
  groups : List (List W)
  spaces : List SpaceDesc
  recovery : List (List W) := []
  harvest : Option (List W) := none
  keys : List (List W) := []
  ringGib : Nat := 32
  closeUs : Nat := 100
  poolHalves : Nat := 2
  anaNon : List (Nat × Nat) := []
  alm : List (Nat × W) := []
  lock : W := 0
  net : List (Nat × List Byte) := []
  ident : Ident := {}
deriving DecidableEq, Repr

/-- The body of a partition (R482): store words of each engine with servo memory words, the personality table, or the
calibration set as register addresses and values. -/
inductive PartBody where
  | ordo (store : List (Nat × Nat × W)) (servo : List (Nat × W))
  | personality (t : Persona)
  | calibration (l : List (Nat × W))
deriving DecidableEq, Repr

/-- The content of a cell-pool packet (Table 12.2). -/
inductive Body where
  | bytes (l : List Byte)
  | alm (r : AlmSub)
  | event (code : Nat) (args : List Nat)
  /-- A sector packet: its information bytes, none for a failure, and its quality record (R150). -/
  | sector (info : List Byte) (rec : SectorRec)
  /-- A sector packet relinked to BUF, with the MOP's TAG, the stripe index and the gang position (R279). -/
  | bufSector (tag stripe gpos : Nat) (info : List Byte) (rec : SectorRec)
  /-- A command capsule (queues 32 to 35) without its data, and its count at the port (R33). -/
  | capsule (cmd : HostCmd) (n : Nat)
  /-- A completion on its way to QMG (queues 4 and 5) or to a port (queues 0 to 3), with its context. -/
  | cpl (ctx : Nat) (entry : Cpl)
  /-- Data for the host (queues 40 to 43), with the context it answers. -/
  | reply (ctx : Nat) (r : HostReply)
  /-- Read data of an LBA as BUF holds it (queues 40 to 43): SEC's key slot for an encrypted namespace, the number the host
  knows it by, its LBA and how many of its bytes the host gets (R33). -/
  | readData (ctx : Nat) (key : Option Nat) (at_ lba len : Nat) (bytes : List Byte)
deriving DecidableEq, Repr

/-- The commands, one for each row of the table of operations and events. -/
inductive Instr where
  /-- A register write through the register access network, by a requester (R18, R25). -/
  | registerWrite (by_ : Requester) (addr v : BitVec 32) (env : RegEnv)
  /-- The Vigil supply rises for the first time (R472). -/
  | vigilPowerOnReset
  /-- The main rails rise; the straps are sampled (R472, R563). -/
  | powerOnReset (testEn mgtMode : Bool)
  /-- SYS_RST_N has been low for 10 µs; the straps are sampled. -/
  | pinReset (testEn mgtMode : Bool)
  /-- A main rail leaves its range for 1 µs or more (R568). -/
  | mainRailLoss
  /-- The Vigil domain now runs from VBAT_VIGIL, or from VDD_IO (R459). -/
  | vigilSupplySwitch (vbat : Bool)
  /-- CLK_RESET.CTRL_RST is written (R476). -/
  | ctrlRst (by_ : Requester)
  /-- Every Ordo engine is Halted in a control reset. -/
  | controlResetHalted
  /-- CLK_RESET.WARM_RST is written (R477). -/
  | warmRst (by_ : Requester)
  /-- Every actuator has parked or reached RETRACT_MAX. -/
  | resetRetractDone
  /-- CLK_RESET.CPU_RST is written. -/
  | cpuRst (by_ : Requester)
  /-- A bit of CLK_BLKRST0-1 is written, by block index (R475). -/
  | blockReset (by_ : Requester) (b : Fin 64)
  /-- The TAP resets. -/
  | testLogicReset
  /-- CLK_IDES_KICK is written (R478). -/
  | idesKick (by_ : Requester) (v : BitVec 32)
  /-- CLK_IDES_CFG is written with ENABLE (R479). -/
  | idesEnable (v : BitVec 32)
  /-- Half of TIMEOUT has passed; `pc` is the program counter sampled from the core that last kicked. -/
  | idesWarn (pc : BitVec 64)
  /-- TIMEOUT has passed. -/
  | idesExpiry
  /-- CLK_BOOT_OK is written. -/
  | bootOk (by_ : Requester) (v : BitVec 32)
  /-- A boot ROM step ends with what it found (R480). -/
  | bootStep (o : BootOut)
  /-- Firmware loads a partition: the outcome of hash and signature, what it holds, and the health test of a key that may have to
  be generated (R482). -/
  | partitionLoad (bodyOk : Bool) (body : PartBody) (entropyOk : Bool)
  /-- A PLL loses lock in service (R508). -/
  | pllUnlock (net : Bool)

  -- The flash and the keys (chapter 17).
  /-- FLS_CMD is written with OP PROGRAM and GO (R489, R492). -/
  | flsProgram (by_ : Requester) (block : Fin 256) (page : Fin 512)
  /-- The program under way ends; `margin` bits failed the last margin read (R492). -/
  | flsProgramDone (ok : Bool) (margin : BitVec 13)
  /-- FLS_CMD is written with OP ERASE and GO (R489, R493). -/
  | flsErase (by_ : Requester) (block : Fin 256)
  /-- The erase under way ends, verified or not (R493). -/
  | flsEraseDone (ok : Bool) (margin : BitVec 13)
  /-- FLS_CMD is written with OP SUSPEND and GO (R496). -/
  | flsSuspend
  /-- 2 ms have passed since the last RESUME (R496). -/
  | flsSuspendDeferred
  /-- FLS_CMD is written with OP RESUME and GO (R496). -/
  | flsResume (by_ : Requester)
  /-- FLS_CMD is written with OP MARGIN_READ and GO; `bits` fail the tightened thresholds (R495). -/
  | flsMarginRead (by_ : Requester) (block : Fin 256) (page : Fin 512) (bits : BitVec 13)
  /-- FLS_CMD is written with OP OTP_PROGRAM and GO (R502). -/
  | flsOtpProgram (by_ : Requester)
  /-- The page table has been rebuilt; `bits` is the outcome of a MARGIN_READ that was held meanwhile (R491, R509). -/
  | flsInitDone (bits : BitVec 13)
  /-- A page is read, or an instruction fetched from it; the BCH check finds no error (0), corrects it (1) or cannot (2) (R486, R487). -/
  | flashRead (by_ : Requester) (block : Fin 256) (page : Fin 512) (find : Fin 3) (fetch : Bool)
  /-- SEC_CMD is written with OP GENERATE and GO; whether the entropy source passes its health test (R504). -/
  | secGenerate (slot : Fin 64) (entropyOk : Bool)
  /-- SEC_CMD is written with OP UNWRAP and GO; whether the wrapped key passes its integrity check (R504, R505). -/
  | secUnwrap (slot : Fin 64) (psk : Bool) (ok : Bool)
  /-- SEC_CMD is written with OP CLEAR and GO (R504). -/
  | secClear (slot : Fin 64) (psk : Bool)
  /-- The SEC command under way ends. -/
  | secCmdDone

  -- Uslen head link (chapter 3).
  /-- ULK_CTRL.PORT_EN of port n is written (R104). -/
  | ulkPortEn (n : Fin 4) (on : Bool)
  /-- The training step in progress ends; `lanes` are those that passed it (R104, Table 3.11). -/
  | trainingStepDone (n : Fin 4) (lanes : BitVec 26)
  /-- The attempt has not completed within 1 ms (R104). -/
  | trainingAttemptTimeout (n : Fin 4)
  /-- ECHO_REPLY arrives (R104, step 6). -/
  | timeEchoReply (n : Fin 4)
  /-- ULK_CTRL.RATE_REQ is written (R106). -/
  | rateReq (n : Fin 4)
  /-- Link time reaches the switch instant (R106). -/
  | rateSwitchInstant (n : Fin 4)
  /-- 2.5 µs after the switch: the lanes that are flit-locked (R106). -/
  | rateSwitchLockCheck (n : Fin 4) (locked : BitVec 26)
  /-- ULK_CTRL.RETRAIN is written (R104, R105). -/
  | ulkRetrain (n : Fin 4)
  /-- A retrain attempt of a lane ends (R105). -/
  | laneRetrainDone (n : Fin 4) (l : Fin 26) (ok : Bool)
  /-- ULK_CTRL.SLEEP_REQ is written (R107). -/
  | sleepReq (n : Fin 4)
  /-- LINK SLEEP_ACK is received on a lane (R107). -/
  | sleepAck (n : Fin 4) (l : Fin 26)
  /-- 10 µs have passed since SLEEP was sent (R107). -/
  | sleepAckTimeout (n : Fin 4)
  /-- ULK_CTRL.WAKE_REQ is written (R108). -/
  | wakeReq (n : Fin 4)
  /-- The energy detector of S0 recognises a wake pattern (R108, R109). -/
  | wakePatternRx (n : Fin 4)
  /-- A flit of 64 bytes is received on a lane (R95). What an accepted flit's content does is the row of its type. -/
  | flitReceived (n : Fin 4) (l : Fin 26) (flit : List Byte)
  /-- LINK ACK is received on a lane (R96). -/
  | linkAck (n : Fin 4) (l : Fin 26) (seq : BitVec 8)
  /-- LINK NAK is received on a lane (R96). -/
  | linkNak (n : Fin 4) (l : Fin 26) (seq : BitVec 8)
  /-- A NAK has been unanswered for 2 RTT + 100 ns (R97). -/
  | nakTimeout (n : Fin 4) (l : Fin 26)
  /-- SAMPLE flit `k` of head h's burst is accepted, with its samples (R93). -/
  | sample (n : Fin 4) (h : Fin 24) (k : Nat) (samples : List Byte)
  /-- A SAMPLE_MARK of head h is accepted (Table 3.5): a start mark, or an end mark with GAP and SHOCK_CUT, FLITS and COUNT. -/
  | sampleMark (n : Fin 4) (h : Fin 24) (gateId : BitVec 16) (isEnd gap shockCut : Bool) (readers : BitVec 3)
      (lt : BitVec 32) (phase : BitVec 16) (flits : BitVec 32) (count : BitVec 8)
  /-- A SERVO_FIELD fragment is accepted on a servo lane (R99, R100); LTIME, THERMAL and CONTACT come with fragment 0. -/
  | servoField (n : Fin 4) (h : Fin 24) (frag : Nat) (last : Bool) (wedge : Nat) (lt : BitVec 32) (thermal contact : BitVec 16)
  /-- LTIME + SVWIN + SVDELAY of head h's field has come; `pos` is the position that the demodulator makes of the
  field, none when the track number fails its check, and `err` the timing error it measures (R101, R183, R193). -/
  | servoFieldHandoff (n : Fin 4) (h : Fin 24) (pos : Option Int) (err : Int)
  /-- A TELEMETRY flit is taken (Table 3.5, R111 to R113). -/
  | telemetry (n : Fin 4) (shock supplyFault overtemp : Bool) (underrun lateCmd headFault : BitVec 24) (dieTemp : BitVec 16)
      (lt : BitVec 32)
  /-- A HEAD_REPLY is accepted (R89). -/
  | headReply (n : Fin 4) (h : Fin 24) (addr : BitVec 16) (data : BitVec 32) (status : BitVec 8)
  /-- The first instant at which head h has no gate open after a ULK_HEADMAPh write (R116). -/
  | headmapApply (n : Fin 4) (h : Fin 24)
  /-- The instant at which ULK sends the placed gate with this GATE_ID, 2 µs or more before its START (R91). -/
  | gateSend (n : Fin 4) (gateId : Nat)


  -- Read channel (chapter 4).
  /-- ARM_Pk is strobed to slot h (Table 4.2). -/
  | armP (n : Fin 4) (h : Fin 24) (k : Fin 8)
  /-- DISARM is strobed. -/
  | disarm (n : Fin 4) (h : Fin 24)
  /-- HOLD_ON is strobed. -/
  | holdOn (n : Fin 4) (h : Fin 24)
  /-- HOLD_OFF is strobed. -/
  | holdOff (n : Fin 4) (h : Fin 24)
  /-- REPLAY_1 is strobed. -/
  | replay1 (n : Fin 4) (h : Fin 24)
  /-- REPLAY_2 is strobed. -/
  | replay2 (n : Fin 4) (h : Fin 24)
  /-- REPLAY_3 is strobed. -/
  | replay3 (n : Fin 4) (h : Fin 24)
  /-- REPLAY_4 is strobed. -/
  | replay4 (n : Fin 4) (h : Fin 24)
  /-- REPLAY_5 is strobed. -/
  | replay5 (n : Fin 4) (h : Fin 24)
  /-- RELEASE is strobed. -/
  | release (n : Fin 4) (h : Fin 24)
  /-- A strobe with this code reaches CHN or, with `wpa`, WPA; a listed code does what its own row does. -/
  | unlistedStrobeCode (n : Fin 4) (wpa : Bool) (h : Fin 24) (code : BitVec 8)
  /-- CHN_CTRL.SOFT_RESET is written. -/
  | chnSoftReset (n : Fin 4)
  /-- CHN_SLOTh_CFG is written. -/
  | chnSlotCfgWrite (n : Fin 4) (h : Fin 24) (v : BitVec 32)
  /-- The armed slot is at a sector boundary (R153). -/
  | chnSettingsApply (n : Fin 4) (h : Fin 24)
  /-- The front end of slot h has run over its oldest arriving sector (R118 to R137); what the SRAM code found (R149). -/
  | frontEndDone (n : Fin 4) (h : Fin 24) (find : EccFind)
  /-- The replay front end of slot h runs the relaxed and backup searches (R127, R128); what the SRAM code found (R149). -/
  | relaxedSearchStart (n : Fin 4) (h : Fin 24) (find : EccFind)
  /-- A free decoder core takes the waiting decode of highest priority (R133). -/
  | decodeStart (n : Fin 4) (core : Fin 12)
  /-- A core ends its load or an iteration (R133). -/
  | decodeIterationBoundary (n : Fin 4) (core : Fin 12)
  /-- A core's decode ends (R134). -/
  | decodeEnd (n : Fin 4) (core : Fin 12)
  /-- The replay front end of slot h takes the oldest queued operation (R146). -/
  | replayOperationStart (n : Fin 4) (h : Fin 24)
  /-- A front-end pass of the running operation ends; what the SRAM code found (R147, R149). -/
  | replayFrontEndDone (n : Fin 4) (h : Fin 24) (find : EccFind)


  -- Write path (chapter 5).
  /-- WARM_Pk is strobed to head h (Table 5.2). -/
  | warmP (n : Fin 4) (h : Fin 24) (k : Fin 4)
  /-- WARM_Pk_B is strobed. -/
  | warmPB (n : Fin 4) (h : Fin 24) (k : Fin 4)
  /-- WDISARM is strobed. -/
  | wdisarm (n : Fin 4) (h : Fin 24)
  /-- FH_DOWN1 is strobed. -/
  | fhDown1 (n : Fin 4) (h : Fin 24)
  /-- FH_RESTORE is strobed. -/
  | fhRestore (n : Fin 4) (h : Fin 24)
  /-- The write section takes the next write packet for head h's next gate (R157). -/
  | writeGateData (n : Fin 4) (h : Fin 24)
  /-- A wedge boundary of WPAn (R171, R180). -/
  | wpaWedgeBoundary (n : Fin 4)
  /-- An inhibit cause reaches WPA: 0 ASSIST_SAT, 1 HEAD_FAULT, 2 SHOCK, 3 THERM_RANGE, 4 FIRMWARE (Table 5.4, R163). -/
  | inhibitCause (n : Fin 4) (h : Fin 24) (cause : Fin 5)
  /-- WPA_INHIBIT is written. -/
  | wpaInhibitClear (n : Fin 4) (heads : BitVec 24)
  /-- WPA_INHIBIT_SET is written. -/
  | wpaInhibitSet (n : Fin 4) (heads : BitVec 24)
  /-- WPA_CTRL is written. -/
  | wpaCtrlWrite (n : Fin 4) (v : BitVec 32)
  /-- The verify checker takes the head packet of its verify queue; `find` is what the cell code found (R168). -/
  | verifyEvent (n : Fin 4) (find : EccFind)
  /-- The gates of a failed pass have ended (R173). -/
  | rewindGatesEnded (n : Fin 4)
  /-- INHIBIT_WAIT has passed (R173, R177). -/
  | inhibitWaitTimeout (n : Fin 4)
  /-- Three revolutions have passed without a verify event (R176). -/
  | verifyStallTimeout (n : Fin 4)


  -- Servo control engine (chapter 6).
  /-- The arrival instant of loop i (R187); `find` is what the code of the servo memory found (R200). -/
  | loopUpdate (k : Fin 296) (find : EccFind)
  /-- A + L of loop i (R188). -/
  | outputLatch (k : Fin 296)
  /-- SVO_COMMIT is written. -/
  | svoCommit (v : BitVec 32)
  /-- The word at an offset of SVO_WIN is written (R194, R195). -/
  | svoWinWrite (word : Fin 8192) (v : BitVec 32)
  /-- SVO_CTRL is written. -/
  | svoCtrlWrite (v : BitVec 32)
  /-- The zeroing of the servo memory ends (R194). -/
  | svoMemoryZeroDone
  /-- SVO_CAP_CTRL.ARM is written. -/
  | capArm
  /-- SVO_CAP_CTRL.FORCE is written. -/
  | capForce
  /-- SVO_CAP_CTRL.STOP is written. -/
  | capStop


  -- Actuators (chapter 7).
  /-- ACT_Aa_CTRL.LOAD is written. -/
  | load (a : Fin 4)
  /-- RETRACT_MAX has passed in Loading (Table 7.1). -/
  | loadTimeout (a : Fin 4)
  /-- ACT_Aa_CTRL.DISABLE is written. -/
  | actDisable (a : Fin 4)
  /-- ACT_Aa_CTRL.REENABLE is written. -/
  | reenable (a : Fin 4)
  /-- A retract cause of Table 7.3 arrives: servo lost, or another. -/
  | actRetract (a : Fin 4) (servoLost : Bool)
  /-- RETRACT_MAX has passed since the RETRACT frame (R228). -/
  | retractTimeout (a : Fin 4)
  /-- SETTLE_MAX wedges have passed in Settling (R210). -/
  | settleTimeout (a : Fin 4)
  /-- ACT_CTRL.LINK_EN is written. -/
  | actLinkEn (mask : BitVec 4)
  /-- P − 256 ns of actuator a (R233). -/
  | outputFrameSend (a : Fin 4)
  /-- An up frame arrives on STS of actuator a: a STATUS frame, or any other (R235). -/
  | ampStatusFrame (a : Fin 4) (frame : BitVec 96)
  /-- No good STATUS has arrived for LINK_TIMEOUT (R235). -/
  | linkTimeout (a : Fin 4)
  /-- ACT_Aa_AMPCMD.GO is written. -/
  | ampcmdGo (a : Fin 4)
  /-- A REG_REPLY frame arrives on STS of actuator a (R238). -/
  | ampRegReply (a : Fin 4) (frame : BitVec 96)
  /-- 10 µs have passed without a REG_REPLY (R238). -/
  | ampcmdTimeout (a : Fin 4)
  /-- ACT_GOV_BUDGET is written. -/
  | govBudgetWrite (v : BitVec 32)
  /-- ACT_Aa_HEADDIS is written. -/
  | actHeaddisWrite (a : Fin 4) (v : BitVec 32)


  -- Spindle motor (chapter 8).
  /-- TARGET Slow or Nominal is written with ENABLE 1 (R244). -/
  | motStartRequest (nominal : Bool)
  /-- TARGET Stop is written with ENABLE 1 (R258). -/
  | motStopRequest
  /-- ENABLE 0 is written (R244). -/
  | motDisable
  /-- TARGET is changed to Slow or Nominal (R245). -/
  | motTargetChange (nominal : Bool)
  /-- CLR_FAULT is written (R262). -/
  | motClrFault
  /-- A PWM period: the codes of the two shunt samples, of the VM sample and of the three phase terminals at counter 0 (R239, R247 to
  R249, R254, R259). -/
  | pwmPeriod (shunt1 shunt2 vm vsu vsv vsw : BitVec 12)
  /-- 1 ms has passed (R250). -/
  | speedLoopUpdate
  /-- The 50 ms of Observe end (R254). -/
  | observeEnd
  /-- A peek in Brake ends (R256). -/
  | brakePeek
  /-- ALIGN_T has passed (R257). -/
  | alignEnd
  /-- START_MAX has passed without handover (R257). -/
  | startTimeout
  /-- The 2 s coast after a failed start ends (R257). -/
  | startRetry
  /-- MOT_PFAIL_N has been low for 200 ns (R263). -/
  | pfailInput


  -- Ordo media sequencers (chapter 9). A microword command is the step in which engine n fetches that microword from
  -- its store and executes it; `find` is what the code of the store found in the fetched word.
  /-- ORD_SUBMIT3 is written (R272). -/
  | mopSubmit (n : Fin 4) (w3 : BitVec 32)
  /-- The engine admits the head of its queue (R275). -/
  | mopAdmission (n : Fin 4) (find : EccFind)
  /-- ORD_CPL_POP is written (R272). -/
  | ordCplPop (n : Fin 4)
  /-- ORD_CTRL.RUN is written (R276). -/
  | ordRun (n : Fin 4) (run : Bool)
  /-- ORD_CTRL.CANCEL is written (R282). -/
  | ordCancel (n : Fin 4)
  /-- ORD_CTRL.RETURN_QUEUED is written (R274). -/
  | returnQueued (n : Fin 4)
  /-- The word at an offset of ORD_WIN is written (R267, R268, R270). -/
  | ordWinWrite (n : Fin 4) (word : Fin 8192) (v : BitVec 32)
  /-- The NOP microword. -/
  | nop (n : Fin 4) (find : EccFind)
  /-- The LDI microword. -/
  | ldi (n : Fin 4) (find : EccFind)
  /-- The LUI microword. -/
  | lui (n : Fin 4) (find : EccFind)
  /-- The ADD microword. -/
  | add (n : Fin 4) (find : EccFind)
  /-- The SUB microword. -/
  | sub (n : Fin 4) (find : EccFind)
  /-- The AND microword. -/
  | and (n : Fin 4) (find : EccFind)
  /-- The OR microword. -/
  | or (n : Fin 4) (find : EccFind)
  /-- The XOR microword. -/
  | xor (n : Fin 4) (find : EccFind)
  /-- The ADDI microword. -/
  | addi (n : Fin 4) (find : EccFind)
  /-- The ANDI microword. -/
  | andi (n : Fin 4) (find : EccFind)
  /-- The SHLI microword. -/
  | shli (n : Fin 4) (find : EccFind)
  /-- The SHRI microword. -/
  | shri (n : Fin 4) (find : EccFind)
  /-- The CMP microword. -/
  | cmp (n : Fin 4) (find : EccFind)
  /-- The CMPI microword. -/
  | cmpi (n : Fin 4) (find : EccFind)
  /-- The LDD microword. -/
  | ldd (n : Fin 4) (find : EccFind)
  /-- The LDP microword. -/
  | ldp (n : Fin 4) (find : EccFind)
  /-- The LDS microword. -/
  | lds (n : Fin 4) (find : EccFind)
  /-- The BR microword. -/
  | br (n : Fin 4) (find : EccFind)
  /-- The CALL microword. -/
  | call (n : Fin 4) (find : EccFind)
  /-- The RET microword. -/
  | ret (n : Fin 4) (find : EccFind)
  /-- The POLL microword. -/
  | poll (n : Fin 4) (find : EccFind)
  /-- The WAIT microword. -/
  | wait (n : Fin 4) (find : EccFind)
  /-- A suspended WAIT returns (Table 9.9). -/
  | waitReturn (n : Fin 4)
  /-- The SEEK microword. -/
  | seek (n : Fin 4) (find : EccFind)
  /-- The GANG microword. -/
  | gang (n : Fin 4) (find : EccFind)
  /-- The STROBE microword. -/
  | strobe (n : Fin 4) (find : EccFind)
  /-- The GATE microword. -/
  | gate (n : Fin 4) (find : EccFind)
  /-- The LDBAND microword. -/
  | ldband (n : Fin 4) (find : EccFind)
  /-- The FIN microword. -/
  | fin (n : Fin 4) (find : EccFind)
  /-- A microword with a reserved opcode (R285). -/
  | reservedMicroword (n : Fin 4) (find : EccFind)
  /-- The wedge boundary of the actuator's VCM loop (R280). -/
  | wedgeTick (n : Fin 4)
  /-- SVO_TW_MIN + 1 µs without a boundary (R280). -/
  | syntheticTick (n : Fin 4)
  /-- The poll budget is spent (R284). -/
  | pollOverrun (n : Fin 4)
  /-- The end sequence's wait ends (R277). -/
  | endSequenceDrain (n : Fin 4)
  /-- The dispatcher takes the head packet of the sector queue; `find` is what the cell code found (R279). -/
  | sectorPacketDispatch (n : Fin 4) (find : EccFind)

  -- Host commands as firmware runs them: the context of each (chapters 10 and 14).
  /-- Read; `find` is what the code finds in the buffer, for an LBA that the buffer holds (R398, R400). -/
  | read (ctx : Fin 4096) (find : EccFind)
  /-- Write (R402); `find` as for the data buffered (R400). -/
  | write (ctx : Fin 4096) (find : EccFind)
  /-- Flush (R403). -/
  | flush (ctx : Fin 4096)
  /-- Write Zeroes. -/
  | writeZeroes (ctx : Fin 4096)
  /-- Compare. -/
  | compare (ctx : Fin 4096) (find : EccFind)
  /-- Zone Append (R395). -/
  | zoneAppend (ctx : Fin 4096) (find : EccFind)
  /-- An actuator's oldest staged sector has waited the ring close time (R74). -/
  | ringCloseTimeout (a : Fin 4)
  /-- Firmware records V of each open band (R322). -/
  | vRecordTimer
  /-- Zone Open (R396). -/
  | zoneOpen (ctx : Fin 4096)
  /-- Zone Close (R396). -/
  | zoneClose (ctx : Fin 4096)
  /-- Zone Finish (R396). -/
  | zoneFinish (ctx : Fin 4096)
  /-- Zone Reset (R314). -/
  | zoneReset (ctx : Fin 4096)
  /-- Zone Management Receive (R396). -/
  | reportZones (ctx : Fin 4096)
  /-- Firmware reads and pops the oldest completion of engine n (R272). -/
  | firmwareMopCompletion (n : Fin 4)


  -- Buffer memory, Lantern and memory protection (chapter 11).
  /-- A BUF access arrives (R327, R338, R340). -/
  | bufferAccess (acc : BufAcc)
  /-- MEM acknowledges the write-back of an eviction buffer entry, given by its line (R345). -/
  | evictionWritebackAck (line : Nat)
  /-- The reset invalidation ends (R339). -/
  | lntInitDone
  /-- LNT_CTRL is written with another SPAD_WAYS (R340, R344). -/
  | lntSpadChange (n : Fin 16)
  /-- The scratchpad change completes (R340). -/
  | lntSpadDone
  /-- LNT_CTRL is written with ENABLE 0 (R343). -/
  | lntDisable
  /-- The disable walk ends (R343). -/
  | lntDisableDone
  /-- LNT_CTRL is written with ENABLE 1 (R343). -/
  | lntEnable
  /-- LNT_RM_CMD is written with GO 1 (R342). -/
  | lntRmGo (op : Fin 4) (all : Bool)
  /-- The range request under way completes (R341, R342). -/
  | lntRmDone
  /-- BUF_REMAPg_e is written (R335). -/
  | bufRemapWrite (g : Fin 32) (e : Fin 8) (v : BitVec 32)
  /-- MEM_REMAPc_e is written (R335). -/
  | memRemapWrite (c : Fin 4) (e : Fin 16) (v : BitVec 32)
  /-- The copy of an entry ends: MEM's, or BUF's (R335). -/
  | remapCopyDone (mem : Bool) (g : Fin 32) (e : Fin 16)
  /-- The patrol reads the next data unit (R336). -/
  | memScrubPatrol (find : EccFind) (symbol : Nat)
  /-- BUF_ECC_TEST.ARM is written (R337). -/
  | bufEccTestArm
  /-- MEM_ECC_TCTRL.ARM is written (R337). -/
  | memEccTestArm
  /-- MEM_CTRL.INIT is written (R324, R349). -/
  | memInit
  /-- Training ends with these channels trained (R324). -/
  | memTrainingDone (channels : BitVec 4)
  /-- A request reaches the parity engine (R346). -/
  | parityRequest (req : ParReq)
  /-- The engine finishes its request; `find` is what the code of the first word read found (R346). -/
  | parityDone (find : EccFind)

  -- Cell pool (chapter 12).
  /-- A producer completes a packet of these bytes in a queue (R355). -/
  | packetWrite (q : Fin 1024) (body : List Byte)
  /-- The consumer takes the head packet; `find` is what the cell code found, in a header word or not (R351, R364). -/
  | packetTake (q : Fin 1024) (find : EccFind) (inHeader : Bool)
  /-- Relink the head packet of `src` to the tail of `dst` (R352). -/
  | packetRelink (src dst : Fin 1024)
  /-- Ask for a reservation of `cells` cells in a queue (R357). -/
  | reservationRequest (q : Fin 1024) (cells : Nat)
  /-- The first waiting reservation of a queue now fits (R357). -/
  | reservationGrant (q : Fin 1024)
  /-- A write of CPL_Qq_SHARE (R356). -/
  | cplShareWrite (q : Fin 1024) (v : BitVec 32)
  /-- A write of 1 to CPL_Qq_CFG.RESET (R363). -/
  | cplQueueReset (q : Fin 1024)
  /-- A write of 1 to CPL_CTRL.POOL_RESET (R363). -/
  | cplPoolReset
  /-- The pool's initialisation ends (R363). -/
  | cplInitDone
  /-- An item of these bytes enters the fall-back chain of a critical class (R366). -/
  | chainItemEnter (q : Fin 32) (body : List Byte)
  /-- The consumer of a critical class reads an item or a LOST notice from its chain (R366). -/
  | chainItemTake (q : Fin 32)

  -- Host ports (chapter 13).
  /-- HIF_CTRL.PORT_EN of port p is written (R370, R409). -/
  | hifPortEn (p : Fin 4) (on : Bool)
  /-- HIF_CTRL.RESTART_AN is written (Table 13.8). -/
  | hifRestartAn (p : Fin 4)
  /-- HIF_MODE or, with `lane`, HIF_LANE is written (R373). -/
  | hifModeWrite (p : Fin 4) (lane : Bool) (v : BitVec 32)
  /-- HIF_QLIMIT is written (R380). -/
  | hifQlimitWrite (p : Fin 4) (v : BitVec 32)
  /-- HIF_LATTOL is written (R391). -/
  | hifLattolWrite (p : Fin 4) (v : BitVec 32)
  /-- Negotiation and training end: the mode resolved, none for a failure (R372). -/
  | anAttemptDone (p : Fin 4) (mode : Option (Fin 16))
  /-- 500 ms have passed since the failed attempt (R372). -/
  | anRetryTimer (p : Fin 4)
  /-- The link drops (R373). -/
  | hifLinkDown (p : Fin 4)
  /-- A frame is received (R374, R378, R388). -/
  | ethFrameRx (p : Fin 4) (f : EthFrame)
  /-- A TCP connection is opened: whether it starts TLS, and whether that handshake succeeds with a configured PSK (R376). -/
  | tcpConnectionOpen (p : Fin 4) (conn : Nat) (tls tlsOk : Bool)
  /-- The Keep Alive Timer of port p's controller expires (R381). -/
  | keepAliveExpiry (p : Fin 4)

  -- The NVMe profile (chapters 13 and 14): firmware begins the command in context c.
  /-- Connect (R379). -/
  | connect (c : Fin 4096)
  /-- Disconnect. -/
  | disconnect (c : Fin 4096)
  /-- Property Get. -/
  | propertyGet (c : Fin 4096)
  /-- Property Set. -/
  | propertySet (c : Fin 4096)
  /-- CC.EN of port p's controller goes from 1 to 0 (R407). -/
  | controllerReset (p : Fin 4)
  /-- Firmware carries a normal shutdown of port p's controller forward (R407). -/
  | controllerShutdown (p : Fin 4)
  /-- Identify. -/
  | identify (c : Fin 4096)
  /-- Get Log Page. -/
  | getLogPage (c : Fin 4096)
  /-- Set Features. -/
  | setFeatures (c : Fin 4096)
  /-- Get Features. -/
  | getFeatures (c : Fin 4096)
  /-- Abort (R404). -/
  | abort (c : Fin 4096)
  /-- Asynchronous Event Request (R406). -/
  | asynchronousEventRequest (c : Fin 4096)
  /-- Keep Alive (R406). -/
  | keepAlive (c : Fin 4096)
  /-- Format NVM; whether the entropy source passes its health test (R409, R506). -/
  | formatNvm (c : Fin 4096) (entropyOk : Bool)
  /-- Firmware Image Download (R548). -/
  | firmwareImageDownload (c : Fin 4096)
  /-- Firmware Commit; whether hash and signature of the image verify (R498, R501). -/
  | firmwareCommit (c : Fin 4096) (verifies : Bool)
  /-- QMG is IDLE during an activation (R408). -/
  | activationIdle
  /-- 10 s have passed since the activation began (R408). -/
  | activationTimeout
  /-- Key Value Store; what the buffer's code finds in the value (R394, R400). -/
  | store (c : Fin 4096) (find : EccFind)
  /-- Key Value Retrieve. -/
  | retrieve (c : Fin 4096) (find : EccFind)
  /-- Key Value Delete. -/
  | delete (c : Fin 4096)
  /-- Key Value Exist. -/
  | exist (c : Fin 4096)
  /-- Key Value List. -/
  | list (c : Fin 4096)
  /-- Reservation Register. -/
  | reservationRegister (c : Fin 4096)
  /-- Reservation Report. -/
  | reservationReport (c : Fin 4096)
  /-- Reservation Acquire. -/
  | reservationAcquire (c : Fin 4096)
  /-- Reservation Release. -/
  | reservationRelease (c : Fin 4096)
  /-- A command outside the profile (R383). -/
  | unsupportedCommand (c : Fin 4096)

  -- Contexts (chapter 14).
  /-- QMG takes the head capsule of a port's capsule queue (R392, R393). -/
  | capsuleTake (p : Fin 4)
  /-- The next waiting command's reservations are granted (R394). -/
  | commandAdmission
  /-- QMG takes a completion from firmware (queue 4) or from BUF (queue 5) (R399). -/
  | completionCommit (fromBuf : Bool)
  /-- HIF reports that a port's next completion has been sent (R399). -/
  | completionSent (p : Fin 4)
  /-- A write of QMG_CTRL.HOLD_ADMIT (R412). -/
  | qmgHoldAdmit (v : Bool)

  -- Harvest, refresh and Jubilee (chapter 15).
  /-- Firmware looks whether Harvest is due on an actuator, and issues a read (R415). -/
  | harvestReadIssue (a : Fin 4)
  /-- PERIOD has passed since the pass began (R414). -/
  | harvestPassOverdue (a : Fin 4)
  /-- The step of the refresh under way on an actuator has ended (R420). -/
  | refreshStepDone (a : Fin 4)
  /-- JUB_Lk_CTRL.START is written (R426). -/
  | jubStart (k : Fin 2)
  /-- JUB_Lk_CTRL.ABORT is written (R434). -/
  | jubAbort (k : Fin 2)
  /-- JUB_Lk_CTRL.RETRAIN is written; whether all lanes come up (R425). -/
  | jubRetrain (k : Fin 2) (up : Bool)
  /-- JUB_Lk_CTRL.PAUSE is written (Table 15.7). -/
  | jubPause (k : Fin 2) (on : Bool)
  /-- An energy detector of the link first sees signal; whether the training brings all lanes up (R424). -/
  | jubEnergyDetect (k : Fin 2) (up : Bool)
  /-- A flit of 64 bytes is received on a lane of the link (R424). What a whole message does is the row of its type. -/
  | jubFlitReceived (k : Fin 2) (l : Fin 8) (flit : List Byte)
  /-- A lane of the link goes down (R425). -/
  | jubLinkDown (k : Fin 2)
  /-- 1 s has passed since the last training; whether all lanes come up now (R425). -/
  | jubLinkRetry (k : Fin 2) (up : Bool)
  /-- The link has been down for LINK_HOLD (R425). -/
  | jubLinkHoldExpiry (k : Fin 2)
  /-- HELLO: received, or with none sent by this end (R429, R434). -/
  | hello (k : Fin 2) (m : Option JubHello)
  /-- PLAN is received, with its count of zones (R429). -/
  | plan (k : Fin 2) (entries : List PlanEnt) (zones : Nat)
  /-- PLAN_REPLY is received (R429). -/
  | planReply (k : Fin 2) (status : Nat)
  /-- ZONE_BEGIN: received, or with none sent by this end for its next zone (R429, R430). -/
  | zoneBegin (k : Fin 2) (m : Option JubBegin)
  /-- The source has a zone's next stripe read, or sends one that is ready (R429, R430). -/
  | jubStripeSend (k : Fin 2) (idx : Nat)
  /-- STRIPE is received (R431). -/
  | stripe (k : Fin 2) (m : JubStripe)
  /-- ZONE_END of a plan index: received with its final LBAS, stripes sent and CHAIN, or with none sent (R430, R431). -/
  | zoneEnd (k : Fin 2) (idx : Nat) (m : Option (Nat × Nat × BitVec 32))
  /-- STRIPE_NAK is received (R432). -/
  | stripeNak (k : Fin 2) (idx stripe reason mask : Nat)
  /-- CREDIT: received by the source, or sent by the successor, with its GRANT (R429). -/
  | credit (k : Fin 2) (grant : Nat)
  /-- The successor looks whether a zone is committed (R433). -/
  | jubZoneCommit (k : Fin 2) (idx : Nat)
  /-- ZONE_ACK: received by the source with its DONE, or sent by the successor (R433). -/
  | zoneAck (k : Fin 2) (done : Nat)
  /-- ZONE_FAIL of a plan index: received with its status, or with none sent by this end (R430, R432). -/
  | zoneFail (k : Fin 2) (idx : Nat) (status : Option Nat)
  /-- CLOSE: received with its status, or with none sent by the source after the last acknowledgement (R429). -/
  | close (k : Fin 2) (status : Option Nat)

  -- Power, Vigil and time (chapter 16).
  /-- The controller has been idle for PWR_IDLEn, `n` 1 to 4 (R444). -/
  | idleTimerExpiry (n : Fin 5)
  /-- The running step of an entry ends, or shows that it still waits (R448). -/
  | powerEntryStep
  /-- The running step of an exit ends (R448). `badWord`: a word of the save memory is uncorrectable (R455). -/
  | powerExitStep (badWord : Bool)
  /-- PWR_CTRL.PL5_REQ is written (R447). -/
  | pl5Req (by_ : Requester)
  /-- PWR_CTRL.HOLD_REQ is written (R458). -/
  | holdReq (by_ : Requester)
  /-- PWR_CTRL.WAKE is written (R451). -/
  | pwrWake (by_ : Requester)
  /-- A wake source of Table 16.5, by its bit (R451). -/
  | wakeSource (k : Fin 9)
  /-- VGL_WAKE_N has been low for 1 ms (R451). -/
  | vglWakeNInput
  /-- Epoch has reached alarm k (R464). -/
  | vigilAlarm (k : Fin 4)
  /-- VBAT_VIGIL is measured, in mV (R459). -/
  | vbatMeasure (mv : BitVec 12)
  /-- An edge of VGL_SLOW (R466 to R468). -/
  | epochTick
  /-- VGL_EPOCH_LOAD_HI is written (R466). -/
  | epochLoad (hi : BitVec 32)
  /-- VGL_EPOCH_LO is read (R466). -/
  | vglEpochLoRead
  /-- PWR_TICK_LO is read (Table 16.9). -/
  | pwrTickLoRead
  /-- ULK_LTIME_LO of port n is read (R115). -/
  | ulkLtimeLoRead (n : Fin 4)
  /-- ALM_SEQ_LO is read (R554). -/
  | almSeqLoRead
  /-- The supply monitor records a fall of the Vigil supply below 1.40 V (R461, R466). -/
  | vigilSupplyMonitorFall
  /-- A host lane with ENERGY_EN of a port that does not listen has seen no signal for 10 ms in PL4 (R389). -/
  | hostLaneEnergyDetectorArm (p : Fin 4) (lane : Fin 8)

  -- Calibration and the package (chapters 18 and 20).
  /-- CAL_CTRL.RUN_REQ of actuator a is written (R512). -/
  | calRunReq (a : Fin 4)
  /-- CAL_CTRL.HOLD is written (R520). -/
  | calHold (on : Bool)
  /-- Firmware looks whether a run on actuator a may start (R514). -/
  | calRunStart (a : Fin 4)
  /-- The run on actuator a has completed (R516). -/
  | calRunEnd (a : Fin 4)
  /-- A word of a shadow bank is written: bank, entry, and its address word or its value word (R517). -/
  | calShadowWrite (bank : Fin 2) (entry : Fin 1024) (value : Bool) (v : BitVec 32)
  /-- CAL_BATCH is written with COMMIT (R518). -/
  | calBatchCommit (bank : Fin 2) (count : Fin 2048)
  /-- CAL writes the next entry of a bank that applies (R518, R519). -/
  | calEntryApply (bank : Fin 2)
  /-- The first instant at which head h of port n, with offsets pending, has no gate open or sent (R511). -/
  | calAdcoffSend (n : Fin 4) (h : Fin 24)
  /-- The die temperature sensor is read, in 1/16 °C (R577). -/
  | dieTempUpdate (t : BitVec 16)
  /-- The controller trips (R578). -/
  | thermalTrip

  -- Almanac (chapter 19).
  /-- ALM takes the head record of append queue `16 + g` (R529). -/
  | almanacSubmit (g : Fin 8)
  /-- ALM_APP_GO is written by this requester (R529). -/
  | almAppGo (by_ : Requester)
  /-- ALM_CTRL.FLUSH is written (R534). -/
  | almFlush
  /-- FLUSH_MS has passed since the first entry entered the open page (R534). -/
  | almFlushTimer
  /-- The power-loss window closes (R535). -/
  | plossWindowClose
  /-- The boot scan of the flash ends; `bad` are the pages found bad, and `top` the highest sequence
  number found in the flash or a mirror, if any (R535). -/
  | almBootScan (bad : List Nat) (top : Option (BitVec 64))
  /-- Firmware writes a mirror stripe of actuator `a` with the entries up to SEQ `upTo` (R536, R537). -/
  | mirrorWriteTimer (a : Fin 4) (upTo : BitVec 64)

  -- The management port (chapter 19).
  /-- An MCTP packet is received (R542, R543). -/
  | mctpPacketRx (p : MctpPkt)
  /-- Set Endpoint ID (R542). -/
  | setEndpointId (tag : Fin 8) (eid : Fin 256)
  /-- Get Endpoint ID. -/
  | getEndpointId (tag : Fin 8)
  /-- Get Endpoint UUID. -/
  | getEndpointUuid (tag : Fin 8)
  /-- Get MCTP Version Support. -/
  | getMctpVersionSupport (tag : Fin 8)
  /-- Get Message Type Support. -/
  | getMessageTypeSupport (tag : Fin 8)
  /-- Get Vendor Defined Message Support. -/
  | getVendorDefinedMessageSupport (tag : Fin 8)
  /-- Any other control command. -/
  | unsupportedMctpControl (tag : Fin 8)
  /-- Read NVMe-MI Data Structure: its type, port and controller (R543). -/
  | readNvmeMiDataStructure (tag : Fin 8) (dtyp port ctrl : Nat)
  /-- NVM Subsystem Health Status Poll. -/
  | nvmSubsystemHealthStatusPoll (tag : Fin 8)
  /-- Controller Health Status Poll. -/
  | controllerHealthStatusPoll (tag : Fin 8)
  /-- Configuration Get: its identifier. -/
  | configurationGet (tag : Fin 8) (id : Nat)
  /-- Configuration Set: its identifier and value. -/
  | configurationSet (tag : Fin 8) (id value : Nat)
  /-- VPD Read. -/
  | vpdRead (tag : Fin 8) (offset len : Nat)
  /-- A tunnelled Admin command to the controller of port p. -/
  | miTunnelledAdmin (tag : Fin 8) (p : Fin 4) (cmd : MiAdmin)
  /-- The Abort control primitive: the tag it names. -/
  | miAbort (tag : Fin 8)
  /-- The Get State control primitive. -/
  | miGetState (tag : Fin 8)
  /-- A Brodvon packet with an opcode not in Table 19.6. -/
  | mgtUnlistedOpcode (h : MgtHdr)
  /-- GET_INFO. -/
  | getInfo (h : MgtHdr)
  /-- REG_READ. -/
  | regRead (h : MgtHdr) (addr count : Nat)
  /-- REG_WRITE. -/
  | regWrite (h : MgtHdr) (addr : Nat) (words : List W) (env : RegEnv)
  /-- REG_MODIFY. -/
  | regModify (h : MgtHdr) (addr : Nat) (mask value : BitVec 32) (env : RegEnv)
  /-- ALM_INFO. -/
  | almInfo (h : MgtHdr)
  /-- ALM_READ. -/
  | almRead (h : MgtHdr) (seq : BitVec 64) (max_ : Nat)
  /-- ALM_APPEND. -/
  | almAppend (h : MgtHdr) (code : BitVec 16) (payload : List Byte)
  /-- IMAGE_WRITE. -/
  | imageWrite (h : MgtHdr) (target offset : Nat) (data : List Byte)
  /-- IMAGE_COMMIT, and whether hash and signature of what it verifies are good (R501). -/
  | imageCommit (h : MgtHdr) (target action : Nat) (verifies : Bool)
  /-- 60 s have passed with no data for the staging area (R548). -/
  | stagingTimeout
  /-- NET_SET. -/
  | netSet (h : MgtHdr) (port : Nat) (c : NetCfg)
  /-- NET_GET, with the addresses that DHCPv4 and SLAAC have brought. -/
  | netGet (h : MgtHdr) (port : Nat) (ipv4 : W) (ipv6 : List Byte)
  /-- PSK_SET; whether the entropy source passes its health test (R504). -/
  | pskSet (h : MgtHdr) (index hash : Nat) (identity key : List Byte) (entropyOk : Bool)
  /-- PSK_CLEAR. -/
  | pskClear (h : MgtHdr) (index : Nat)
  /-- JUB_PLAN. -/
  | jubPlan (h : MgtHdr) (link : Nat) (entries : List PlanEnt)
  /-- OTP_PROGRAM. -/
  | otpProgram (h : MgtHdr) (word : Nat) (value : BitVec 32)
  /-- OTP_READ. -/
  | otpRead (h : MgtHdr) (word count : Nat)
  /-- POWER_REQ. -/
  | powerReq (h : MgtHdr) (level : Nat)
  /-- The I3C controller assigns a dynamic address (R541). -/
  | dynamicAddressAssignment (addr : Fin 128)
  /-- The port is ready (R544). -/
  | managementPortReady
  -- Debug (chapter 20).
  /-- Update-DR of DBG_ACCESS (R572). -/
  | dbgAccess (addr data : BitVec 32) (write : Bool) (env : RegEnv)
  /-- EXTEST. -/
  | extest
  /-- SAMPLE/PRELOAD with the cells that are shifted in. -/
  | samplePreload (cells : List Bool)
  /-- IDCODE. -/
  | idcode
  /-- EXTEST_PULSE. -/
  | extestPulse
  /-- EXTEST_TRAIN. -/
  | extestTrain
  /-- HIGHZ. -/
  | highz
  /-- CLAMP. -/
  | clamp
  /-- SCAN. -/
  | scan
  /-- BYPASS, or a code that is not listed. -/
  | bypass
  /-- DBG_CTRL.HALT is written by DBG_ACCESS (R582). -/
  | dbgHalt (on : Bool)
  /-- DBG_CTRL.LOCK is written by an application core (R582). -/
  | dbgLock
deriving DecidableEq, Repr

end Sys2Proof
end

