-- ==== Sys2Proof/Config.lean ====
section
/-!
DEFINITION. The values the spec leaves open: constants without a body, so that nothing proved depends on them.
-/
namespace Sys2Proof.Config

/-- Whether a mean of `n` positions summing to `sum` that is no whole number is rounded up (R183 states no rounding). -/
opaque meanUp (sum : Int) (n : Nat) : Bool

/-- Which bit of the PRBS-15 stands for −AMP (R201 states no polarity). -/
opaque prbsMinus : Bool

/-- The motor's arithmetic (R249 to R257), whose number format the spec does not state: whether a quotient that is no whole number, or a
root that is none, is rounded up in the last place; and what a quotient by zero gives. -/
opaque quoUp (n d : Int) : Bool
opaque rootUp (n : Nat) : Bool
opaque quoZero (n : Int) : Int

/-- KOBS, KI_PLL and KP_PLL (R249 names them and gives no values), in 2⁻³². -/
opaque kObs : Int
opaque kiPll : Int
opaque kpPll : Int

/-- VM codes that one code of shunt current drops across 10 mΩ, in 2⁻³²: the board's shunt and divider set it. -/
opaque codeDrop : Int

/-- The voltage that is added to all three phases when the current loop's voltages become compares, in 2⁻³² of a VM code (R246 and R250
leave it open). -/
opaque zeroSeq (volts : List Int) : Int

/-- The column that the syndrome of an SRAM word stored wrong is equal to, if it is equal to one, and whether that syndrome is zero: the
word is given by its data and check masks and whether its address bit 0 was inverted (R331 gives no check matrix). -/
opaque sramColumn (dmask cmask : Nat) (flip : Bool) : Option Nat
opaque sramZero (dmask cmask : Nat) (flip : Bool) : Bool

/-- AES-256-XTS over one LBA of a namespace under a media key, named by its wrapped form (R33, R503). The spec names the
cipher and does not define it. -/
opaque xtsEncrypt (key : List W) (lba : Nat) (l : List Byte) : List Byte
opaque xtsDecrypt (key : List W) (lba : Nat) (l : List Byte) : List Byte

/-- The UUID that the controller generates at its first boot (Table 13.4). -/
opaque uuid : List Byte

/-- SHA-384 (R499, R501). The spec names the function and does not define it. -/
opaque sha384 (l : List Byte) : List Byte

/-- A word that the entropy source gives (R503), by the model's own count of values drawn. -/
opaque freeWord (n : Nat) : W

/-- The entry of Get MCTP Version Support, four bytes; the spec names DSP0236 and gives no version (R542). -/
opaque mctpVersion : List Byte

/-- The value that timing recovery interpolates from a stream at a position, in 2⁻³² of a sample instant, and the timing error
that its detector forms from the interpolated values, newest first, in 2⁻¹⁶ of a sample instant: R124 gives the loop, not these. -/
opaque interpolate (y : List Int) (pos : Int) : Int
opaque timingError (x : List Int) : Int

/-- The error by which a reader's gain (0), offset (1) or asymmetry (2) loop moves at an update, in register steps, from the combined
stream of the update's channel bits: R136 gives the step sizes, not the error. -/
opaque loopError (reader loop_ : Nat) (y : List Int) : Int

/-- The 16-state soft-output Viterbi detector of Table 4.1 on 5 target taps: a hard decision and an LLR for each value. -/
opaque detector (target x : List Int) : List (Bool × Int)

/-- The envelope of a stream over 16 channel bits, and the reference amplitude (R135). -/
opaque envelope (y : List Int) : Nat
opaque refAmplitude : Nat

/-- The hard decisions of the layered belief propagation after a number of iterations (R132). -/
opaque bpHard (llrs : List Int) (iter : Nat) : List Bool

/-- The Cysel register that takes a head's ADC offsets: R511 names the REG_WRITE, the Cysel datasheet the address. -/
opaque adcOffAddr (head : Nat) : Nat

/-- Sectors per track at the radius of a zone or of a unit of an internal region: S of firmware's format map (R61). -/
opaque sectorsPerTrack (zone : Nat) : Nat

/-- The page, by 512 × block + page, that a part ships with in a block that R5 fills, and the page after the highest one that manufacture
programmed there: R5 names the contents and gives no bytes. -/
opaque shippedPage (n : Nat) : List Byte
opaque shippedTop (block : Nat) : Nat

/-- Vital product data, by byte (R543). -/
opaque vpd (i : Nat) : Byte

end Sys2Proof.Config
end

