-- ==== Sys2Proof/Machine/Bits.lean ====
section
/-!
DEFINITION. Sparse tables, bit fields of a register word, and the byte order of records.
-/
namespace Sys2Proof.Machine

/-- Entry `k` of a table whose unlisted key `k` reads `d k`. -/
def tget {α : Type} (d : Nat → α) : Tbl α → Nat → α
  | [], k => d k
  | (k', v) :: t, k => if k = k' then v else tget d t k

/-- Write entry `k`, keeping the keys strictly rising and listing no default. What is written reads back from any table, in its
canonical form or not. -/
def tset {α : Type} [DecidableEq α] (d : Nat → α) : Tbl α → Nat → α → Tbl α
  | [], k, v => if v = d k then [] else [(k, v)]
  | (k', v') :: t, k, v =>
    if k < k' then (if v = d k then (k', v') :: t.filter (fun e => e.1 != k) else (k, v) :: (k', v') :: t)
    else if k = k' then (if v = d k then t.filter (fun e => e.1 != k) else (k, v) :: t)
    else (k', v') :: tset d t k v

/-- The canonical form of a table: every key at least `lo`, keys strictly rising, no entry equal to
what an unlisted key reads as. -/
def twfFrom {α : Type} [DecidableEq α] (d : Nat → α) : Nat → Tbl α → Bool
  | _, [] => true
  | lo, (k, v) :: t => decide (lo ≤ k) && decide (v ≠ d k) && twfFrom d (k + 1) t

/-- The canonical form of a table. -/
def twf {α : Type} [DecidableEq α] (d : Nat → α) (t : Tbl α) : Bool := twfFrom d 0 t

/-- The table with every key of `[lo, hi)` back at what an unlisted key reads as. -/
def tdrop {α : Type} (t : Tbl α) (lo hi : Nat) : Tbl α :=
  t.filter fun e => !(decide (lo ≤ e.1) && decide (e.1 < hi))

/-- Field `[lo + len - 1 : lo]` of a word. -/
def fld (w : W) (lo len : Nat) : Nat := (w.toNat >>> lo) % 2 ^ len

/-- A word with field `[lo + len - 1 : lo]` replaced by the low `len` bits of `v`. -/
def setFld (w : W) (lo len v : Nat) : W :=
  (w &&& ~~~ (BitVec.ofNat 32 ((2 ^ len - 1) <<< lo))) ||| BitVec.ofNat 32 ((v % 2 ^ len) <<< lo)

/-- Bit `i` of a word. -/
def bitAt (w : W) (i : Nat) : Bool := w.getLsbD i

/-- A word with bit `i` set to `b`. -/
def putBit (w : W) (i : Nat) (b : Bool) : W :=
  if b then w ||| (1#32 <<< i) else w &&& ~~~ (1#32 <<< i)

/-- `n` bytes of `v`, least significant first. -/
def leBytes : Nat → Nat → List Byte
  | 0, _ => []
  | n + 1, v => BitVec.ofNat 8 v :: leBytes n (v / 256)

/-- The value of little-endian bytes. -/
def leNat : List Byte → Nat
  | [] => 0
  | b :: l => b.toNat + 256 * leNat l

/-- `n` bytes of `v`, most significant first. -/
def beBytes (n v : Nat) : List Byte := (leBytes n v).reverse

/-- The value of big-endian bytes. -/
def beNat (l : List Byte) : Nat := leNat l.reverse

/-- Two's complement reading of the low `n` bits of `v`. -/
def sext (n v : Nat) : Int :=
  let u := v % 2 ^ n
  if u < 2 ^ (n - 1) then (u : Int) else (u : Int) - (2 ^ n : Nat)

/-- The `n`-bit two's complement form of `i`. -/
def unsext (n : Nat) (i : Int) : Nat := (i % ((2 ^ n : Nat) : Int)).toNat

/-- `i` clamped to `[lo, hi]`. -/
def clampI (lo hi i : Int) : Int := if i < lo then lo else if hi < i then hi else i

/-- The quotient rounded up. -/
def ceilDiv (a b : Nat) : Nat := (a + b - 1) / b

/-- Element `i` of a list, or `d`. -/
def lget {α : Type} (d : α) : List α → Nat → α
  | [], _ => d
  | a :: _, 0 => a
  | _ :: l, i + 1 => lget d l i

/-- The list with element `i` replaced. -/
def lset {α : Type} : List α → Nat → α → List α
  | [], _, _ => []
  | _ :: l, 0, v => v :: l
  | a :: l, i + 1, v => a :: lset l i v

/-- The numbers below `n`, rising. -/
def upto : Nat → List Nat
  | 0 => []
  | n + 1 => upto n ++ [n]

/-- The positions of the 1 bits of a `n`-bit mask, rising. -/
def maskBits (n m : Nat) : List Nat := (upto n).filter fun i => m.testBit i

/-- The number of 1 bits among the low `k` bits. -/
def popCount : Nat → Nat → Nat
  | 0, _ => 0
  | k + 1, m => m % 2 + popCount k (m / 2)

/-- The bits of a number, most significant first. -/
def bitsMsb (n v : Nat) : List Bool := (upto n).reverse.map fun i => v.testBit i

/-- The bits of bytes, each most significant first. -/
def wireBits (l : List Byte) : List Bool := (l.map fun b => bitsMsb 8 b.toNat).flatten

/-- The number that bits spell, most significant first. -/
def msbNat (l : List Bool) : Nat := l.foldl (fun a b => 2 * a + (if b then 1 else 0)) 0

/-- `n` bytes of bits, each most significant first; bits that are not there are 0. -/
def packBits : Nat → List Bool → List Byte
  | 0, _ => []
  | n + 1, l => BitVec.ofNat 8 (msbNat ((l ++ List.replicate 8 false).take 8)) :: packBits n (l.drop 8)

/-- A list in `n` pieces of `k`. -/
def pieces {α : Type} (k : Nat) : Nat → List α → List (List α)
  | 0, _ => []
  | n + 1, l => l.take k :: pieces k n (l.drop k)

/-- Remove the first element that satisfies a test. -/
def removeFirst {α : Type} (p : α → Bool) : List α → List α
  | [] => []
  | a :: l => if p a then l else a :: removeFirst p l

/-- The first element that satisfies a test, changed. -/
def updFirst {α : Type} (p : α → Bool) (f : α → α) : List α → List α
  | [] => []
  | a :: l => if p a then f a :: l else a :: updFirst p f l

/-- The scale of the sine arithmetic: 2⁹⁶. -/
def sineScale : Int := 2 ^ 96

/-- Terms of the series of sin (odd k) or cos (even k) of an angle x / 2⁹⁶, from term k on: each is the last times
−x²/((k + 1)(k + 2)). -/
def sineSeries (x2 : Int) : Nat → Int → Nat → Int
  | 0, _, _ => 0
  | f + 1, term, k => term + sineSeries x2 f (-(term * x2 / (2 ^ 96 : Int)) / (((k + 1) * (k + 2) : Nat) : Int)) (k + 2)

/-- π/2 · 2⁹⁶, rounded. -/
def halfPi : Int := 124451306656115542615260972311

/-- sin(2πφ/2³²) · 2⁹⁶, to within the last digits of the series. -/
def sineFix (phi : Nat) : Int :=
  let q := phi % 2 ^ 32 / 2 ^ 30
  let x : Int := halfPi * ((phi % 2 ^ 30 : Nat) : Int) / (2 ^ 30 : Int)
  let x2 := x * x / (2 ^ 96 : Int)
  let sn := sineSeries x2 20 x 1
  let cs := sineSeries x2 20 (2 ^ 96 : Int) 0
  if q = 0 then sn else if q = 1 then cs else if q = 2 then -sn else -cs

end Sys2Proof.Machine
end

