-- ==== Sys2Proof/Machine/RegMap.lean ====
section
/-!
DEFINITION. The register map (Table 21.1 and the register summaries of the chapters): for every register
its offset, its index dimensions, its reset value and which of its bits a write sets, clears or requests.
-/
namespace Sys2Proof.Machine

/-- One register or one indexed run of registers: offset, dimensions as (count, stride) with the
largest stride first, reset value, and the masks of its RW, W1C and W1S bits. Bits in none of the masks
are RO, WO or reserved: a write leaves them as they are (R17, R18). -/
structure RegRow where
  off : Nat
  dims : List (Nat × Nat)
  rst : Nat
  rw : Nat
  w1c : Nat
  w1s : Nat
deriving DecidableEq, Repr

/-- Whether a distance from a run's offset is one of its registers. -/
def dimsHit : List (Nat × Nat) → Nat → Bool
  | [], d => d == 0
  | (n, st) :: ds, d => decide (d / st < n) && dimsHit ds (d % st)

/-- The row of a block's map that holds an offset. -/
def rowAt : List RegRow → Nat → Option RegRow
  | [], _ => none
  | r :: rs, o => if decide (r.off ≤ o) && dimsHit r.dims (o - r.off) then some r else rowAt rs o

/-- ULKn (Tables 3.13 to 3.16). -/
def ulkRows : List RegRow := [
  ⟨0x0000, [], 0x00200072, 0xFF007F, 0, 0xF00⟩, ⟨0x0004, [], 0, 0, 0, 0⟩, ⟨0x0008, [], 0, 0, 0, 0⟩, ⟨0x000C, [], 0, 0, 0xFFF, 0⟩,
  ⟨0x0010, [], 0, 0xFFF, 0, 0⟩, ⟨0x0014, [], 0, 0, 0, 0⟩, ⟨0x0018, [], 0, 0, 0, 0⟩, ⟨0x001C, [], 0, 0, 0, 0⟩,
  ⟨0x0020, [], 0x02880600, 0x0FFF07FF, 0, 0⟩, ⟨0x0024, [], 0, 0, 0, 0⟩, ⟨0x0100, [(24, 4)], 0x380, 0xFFF, 0, 0⟩,
  ⟨0x0200, [(26, 4)], 0, 0, 0, 0⟩, ⟨0x0300, [(26, 4)], 0, 0, 0, 0⟩, ⟨0x0400, [(5, 4)], 0, 0, 0, 0⟩, ⟨0x0480, [], 0, 0, 0, 0⟩,
  ⟨0x0484, [], 0, 0, 0, 0⟩]

/-- CHNn (Tables 4.8 to 4.11). -/
def chnRows : List RegRow := [
  ⟨0x0000, [], 0, 1, 0, 2⟩, ⟨0x0004, [], 0, 0, 0, 0⟩, ⟨0x0008, [], 0, 0, 0x3F, 0⟩, ⟨0x000C, [], 0, 0x3F, 0, 0⟩,
  ⟨0x0010, [], 0x110, 0x11F, 0, 0⟩, ⟨0x0014, [], 0x00030804, 0x30F0F, 0, 0⟩, ⟨0x0018, [], 0x1008E080, 0x1F1FFFFF, 0, 0⟩,
  ⟨0x001C, [], 0x5CCA, 0xFFFF, 0, 0⟩, ⟨0x0020, [], 0x60, 0, 0, 0⟩, ⟨0x0040, [(10, 4)], 0, 0, 0, 0⟩,
  ⟨0x0100, [(8, 16)], 0xC, 0x77FFF, 0, 0⟩, ⟨0x0104, [(8, 16)], 0x0FA00040, 0x0FFFFFFF, 0, 0⟩,
  ⟨0x1000, [(24, 64)], 0x00070007, 0xF07FF, 0, 0⟩, ⟨0x1004, [(24, 64)], 0, 0, 0, 0⟩,
  ⟨0x1008, [(24, 64), (3, 4)], 0x100, 0xFFFFFFFF, 0, 0⟩, ⟨0x1014, [(24, 64), (3, 4)], 0x100, 0, 0, 0⟩,
  ⟨0x1020, [(24, 64)], 0xC6, 0xFF, 0, 0⟩, ⟨0x4000, [(24, 256), (2, 128), (30, 4)], 0, 0xFFFFFFFF, 0, 0⟩,
  ⟨0x4078, [(24, 256), (2, 128)], 0, 0xFFFF, 0, 0⟩, ⟨0x407C, [(24, 256), (2, 128)], 0, 0, 0, 0⟩]

/-- WPAn (Tables 5.7 to 5.9). -/
def wpaRows : List RegRow := [
  ⟨0x0000, [], 0, 1, 0, 0⟩, ⟨0x0004, [], 0x41E2, 0xFFF3, 0, 0⟩, ⟨0x0008, [], 0x01010008, 0x1FFFF3F, 0, 0⟩,
  ⟨0x000C, [], 0, 0, 0xFF, 0⟩, ⟨0x0010, [], 0, 0xFF, 0, 0⟩, ⟨0x0014, [], 0, 0, 0xFFFFFF, 0⟩, ⟨0x0018, [], 0, 0, 0, 0⟩,
  ⟨0x0020, [(4, 4)], 0, 0, 0, 0⟩, ⟨0x0030, [], 0, 0, 0, 0⟩, ⟨0x0040, [(7, 4)], 0, 0, 0, 0⟩,
  ⟨0x1000, [(24, 64)], 0x2800, 0xFFF1, 0, 0⟩, ⟨0x1004, [(24, 64)], 0, 0xFFFFFFFF, 0, 0⟩, ⟨0x1008, [(24, 64)], 0, 0xFFF, 0, 0⟩,
  ⟨0x100C, [(24, 64)], 0xFFFF0000, 0xFFFFFFFF, 0, 0⟩, ⟨0x1010, [(24, 64)], 0, 0, 0, 0⟩,
  ⟨0x1020, [(24, 64), (4, 4)], 0, 0xFFFFFF, 0, 0⟩, ⟨0x2000, [(24, 64), (16, 4)], 0, 0xFFFFFFFF, 0, 0⟩]

/-- SVO (Tables 6.8 and 6.10). -/
def svoRows : List RegRow := [
  ⟨0x0000, [], 0, 1, 0, 0⟩, ⟨0x0004, [], 0, 0, 0, 0⟩, ⟨0x0008, [], 0, 0, 0x7F, 0⟩, ⟨0x000C, [], 0, 0x7F, 0, 0⟩,
  ⟨0x0010, [], 0x1E0, 0x3FF, 0, 0⟩, ⟨0x0014, [], 0, 0, 0, 0⟩, ⟨0x0018, [], 0x43D1, 0, 0, 0⟩, ⟨0x001C, [], 0, 0xF, 0, 0⟩,
  ⟨0x0020, [], 0, 0, 0, 0⟩, ⟨0x0024, [], 0, 0, 0, 0⟩, ⟨0x0030, [(4, 4)], 0, 0xFFFFFF, 0, 0⟩, ⟨0x0040, [(4, 4)], 0xF, 0xFF, 0, 0⟩,
  ⟨0x0080, [(4, 16)], 0, 0x3FFF, 0, 0⟩, ⟨0x0084, [(4, 16)], 0, 0xFFFFFFFF, 0, 0⟩, ⟨0x0088, [(4, 16)], 0, 0xFFFFFFFF, 0, 0⟩,
  ⟨0x00C0, [], 0, 0xFFFF30, 0, 7⟩, ⟨0x00C4, [], 0, 0, 0, 0⟩, ⟨0x00C8, [], 0, 0x03FF01FF, 0, 0⟩, ⟨0x00CC, [], 0, 0, 0, 0⟩,
  ⟨0x00D0, [(4, 4)], 0, 0x1FFF, 0, 0⟩, ⟨0x0100, [(5, 4)], 0, 0, 0, 0⟩]

/-- ACT (Tables 7.8 and 7.9). -/
def actRows : List RegRow := [
  ⟨0x0000, [], 0, 0xF, 0, 0⟩, ⟨0x0004, [], 0, 0, 0, 0⟩, ⟨0x0008, [], 0, 0, 0xFF, 0⟩, ⟨0x000C, [], 0, 0xFF, 0, 0⟩,
  ⟨0x0010, [], 0x960, 0xFFFF, 0, 0⟩, ⟨0x0014, [], 0, 0, 0, 0⟩, ⟨0x0018, [], 0x283C0019, 0xFF00FFFF, 0, 0⟩,
  ⟨0x0100, [(4, 64)], 0, 0, 0, 0xF⟩, ⟨0x0104, [(4, 64)], 0, 0, 0, 0⟩, ⟨0x0108, [(4, 64)], 0x00C80140, 0xFFFFFFFF, 0, 0⟩,
  ⟨0x010C, [(4, 64)], 0x0F060D1A, 0xFF0FFFFF, 0, 0⟩, ⟨0x0110, [(4, 64)], 0, 0xFFFFFFFF, 0, 0⟩,
  ⟨0x0114, [(4, 64)], 0, 0xFFFFFFFF, 0, 0⟩, ⟨0x0118, [(4, 64)], 0, 0xFFFFFF, 0, 0⟩, ⟨0x011C, [(4, 64)], 0, 0, 0, 0⟩,
  ⟨0x0120, [(4, 64)], 0x00C8F014, 0xFFFFFF, 0, 0⟩, ⟨0x0124, [(4, 64)], 0, 0x2FFFF, 0, 0x10000⟩,
  ⟨0x0128, [(4, 64)], 0, 0xFFFFFFFF, 0, 0⟩, ⟨0x012C, [(4, 64), (5, 4)], 0, 0, 0, 0⟩,
  ⟨0x1000, [(4, 256), (24, 4)], 0, 0xFFFFFFFF, 0, 0⟩]


/-- MOT (Table 8.7). -/
def motRows : List RegRow := [
  ⟨0x0000, [], 0, 7, 0, 0x10⟩, ⟨0x0004, [], 0, 0, 0, 0⟩, ⟨0x0008, [], 0, 0, 0xFF, 0⟩, ⟨0x000C, [], 0, 0xFF, 0, 0⟩,
  ⟨0x0010, [], 0x00141388, 0xFF1FFF, 0, 0⟩, ⟨0x0014, [], 0x080000C8, 0x0FFF03FF, 0, 0⟩, ⟨0x0018, [], 0x0E101C20, 0x3FFF3FFF, 0, 0⟩,
  ⟨0x001C, [], 0x24502828, 0xFFFFFFFF, 0, 0⟩, ⟨0x0020, [], 0x01E32190, 0x0FFFFFFF, 0, 0⟩, ⟨0x0024, [], 0, 0xFFFFFFFF, 0, 0⟩,
  ⟨0x0028, [], 0x0FFF9876, 0x0FFFFFFF, 0, 0⟩, ⟨0x002C, [], 0x708, 0xFFF, 0, 0⟩, ⟨0x0030, [], 0x0AC00B00, 0x0FFF0FFF, 0, 0⟩,
  ⟨0x0034, [], 0x08800C00, 0x0FFF0FFF, 0, 0⟩, ⟨0x0038, [], 0x056B0500, 0x0FFF0FFF, 0, 0⟩, ⟨0x003C, [], 0x64093C32, 0xFFFFFFFF, 0, 0⟩,
  ⟨0x0040, [], 0, 0, 0, 0⟩, ⟨0x0044, [], 0, 0, 0, 0⟩, ⟨0x0048, [(5, 4)], 0, 0, 0, 0⟩]

/-- ORDn (Tables 9.13 and 9.14). ORD_STATUS, ORD_CPL and ORD_PBLK_HELD are formed from the queue on a read. -/
def ordRows : List RegRow := [
  ⟨0x0000, [], 0, 1, 0, 6⟩, ⟨0x0004, [], 0, 0, 0, 0⟩, ⟨0x0008, [], 0, 0, 0x7F, 0⟩, ⟨0x000C, [], 0, 0x7F, 0, 0⟩,
  ⟨0x0010, [], 6, 0x3F, 0, 0⟩, ⟨0x0014, [], 0, 1, 0, 0⟩, ⟨0x0018, [], 0, 0, 0, 0⟩, ⟨0x001C, [], 0, 0, 0, 0⟩,
  ⟨0x0020, [(4, 4)], 0, 0, 0, 0⟩, ⟨0x0030, [(4, 4)], 0, 0, 0, 0⟩, ⟨0x0040, [], 0, 0, 0, 1⟩, ⟨0x0044, [], 0, 0, 0, 0⟩,
  ⟨0x0048, [], 0, 0, 0, 0⟩, ⟨0x0060, [(5, 4)], 0, 0, 0, 0⟩]


/-- BUF (Table 11.6). -/
def bufRows : List RegRow := [
  ⟨0x0000, [], 0, 1, 0, 0⟩, ⟨0x0004, [], 0, 0, 0, 0⟩, ⟨0x0008, [], 0, 0, 0x7F, 0⟩, ⟨0x000C, [], 0, 0x7F, 0, 0⟩,
  ⟨0x0010, [], 0x100, 0xFFFF, 0, 0⟩, ⟨0x0014, [], 0, 0xFF5F, 0, 0x20⟩, ⟨0x0018, [], 0, 0xFFFFF, 0, 0⟩,
  ⟨0x001C, [(2, 4)], 0, 0xFFFFFFFF, 0, 0⟩, ⟨0x0024, [], 0, 0, 0, 0⟩, ⟨0x0040, [(4, 4)], 0, 0, 0, 0⟩, ⟨0x0100, [(32, 4)], 0, 0, 0, 0⟩,
  ⟨0x0180, [(32, 4)], 0, 0, 0, 0⟩, ⟨0x0200, [(2, 4)], 0, 0, 0, 0⟩, ⟨0x0400, [(32, 32), (8, 4)], 0, 0x3FFF1, 0, 0⟩]

/-- LNT (Tables 11.6 and 11.7). -/
def lntRows : List RegRow := [
  ⟨0x0000, [], 1, 0x3F, 0, 0⟩, ⟨0x0004, [], 1, 0, 0, 0⟩, ⟨0x0008, [], 0, 0, 0xFF, 0⟩, ⟨0x000C, [], 0, 0xFF, 0, 0⟩,
  ⟨0x0010, [(2, 4)], 0, 0x1FFFFFFF, 0, 0⟩, ⟨0x0018, [], 0, 7, 0, 0x10⟩, ⟨0x0020, [(5, 4)], 0, 0, 0, 0⟩]

/-- MEM (Tables 11.6 and 11.7). -/
def memRows : List RegRow := [
  ⟨0x0000, [], 0, 1, 0, 2⟩, ⟨0x0004, [], 0, 0, 0, 0⟩, ⟨0x0008, [], 0, 0, 0xFF, 0⟩, ⟨0x000C, [], 0, 0xFF, 0, 0⟩,
  ⟨0x0010, [], 2, 7, 0, 0⟩, ⟨0x0014, [], 0x18, 0xFFFF, 0, 0⟩, ⟨0x0018, [], 0x100, 0xFFFF, 0, 0⟩, ⟨0x001C, [(2, 4)], 0, 0, 0, 0⟩,
  ⟨0x0024, [], 0, 0x3FFFFFFF, 0, 0⟩, ⟨0x0028, [], 0, 0xFF7FFF7F, 0, 0⟩, ⟨0x002C, [], 0, 2, 0, 1⟩, ⟨0x0040, [(10, 4)], 0, 0, 0, 0⟩,
  ⟨0x0100, [(4, 64), (16, 4)], 0, 0x0FFFFFF1, 0, 0⟩]

/-- CPL (Table 12.7). -/
def cplRows : List RegRow := [
  ⟨0x0000, [], 0, 0x1, 0, 0x2⟩, ⟨0x0004, [], 1, 0, 0, 0⟩, ⟨0x0008, [], 0, 0, 0x7F, 0⟩, ⟨0x000C, [], 0, 0x7F, 0, 0⟩,
  ⟨0x0010, [], 0x8000, 0, 0, 0⟩, ⟨0x0014, [], 0, 0, 0, 0⟩, ⟨0x0018, [], 0, 0, 0, 0⟩, ⟨0x0020, [], 0, 0xFFFFFF, 0, 0⟩,
  ⟨0x0024, [], 0, 0, 0, 0⟩, ⟨0x0028, [], 0, 0, 0, 0⟩, ⟨0x002C, [], 0, 0, 0, 0⟩, ⟨0x0030, [(5, 4)], 0xFFFFFF, 0xFFFFFF, 0, 0⟩,
  ⟨0x0060, [(6, 4)], 0, 0, 0, 0⟩,
  ⟨0x4000, [(32, 16)], 4, 1, 0, 2⟩, ⟨0x4200, [(992, 16)], 0, 1, 0, 2⟩, ⟨0x4004, [(1024, 16)], 0, 0xFFFFFFFF, 0, 0⟩,
  ⟨0x4008, [(1024, 16)], 0, 0, 0, 0⟩, ⟨0x400C, [(1024, 16)], 0, 0, 0, 0⟩]


/-- HIFp (Tables 13.7 and 13.8). HIF_LATTOL, HIF_WAKE_CTRL and HIF_WAKE_CODE lie in the Vigil bank (Table 21.2); the MAC
registers are formed from the OTP row on a read. -/
def hifRows : List RegRow := [
  ⟨0x0000, [], 0x1A, 0x3B, 0, 4⟩, ⟨0x0004, [], 0, 0, 0, 0⟩, ⟨0x0008, [], 0, 0, 0x1FF, 0⟩, ⟨0x000C, [], 0, 0x1FF, 0, 0⟩,
  ⟨0x0010, [], 0, 0x1F, 0, 0⟩, ⟨0x0014, [], 0, 0xFF, 0, 0⟩, ⟨0x0018, [(2, 4)], 0, 0, 0, 0⟩, ⟨0x0020, [], 0x100, 0x7FF, 0, 0⟩,
  ⟨0x0024, [(3, 4)], 0, 0, 0, 0⟩, ⟨0x0040, [(8, 4)], 0, 0, 0, 0⟩]

/-- QMG (Tables 14.6 and 14.7). QMG_VWC lies in the Vigil bank; QMG_STATUS and QMG_PORTp_CTX_USED are formed from the contexts
on a read. -/
def qmgRows : List RegRow := [
  ⟨0x0000, [], 0, 3, 0, 0⟩, ⟨0x0004, [], 0x2000, 0, 0, 0⟩, ⟨0x0008, [], 0, 0, 0x1F, 0⟩, ⟨0x000C, [], 0, 0x1F, 0, 0⟩,
  ⟨0x0010, [], 0, 0, 0, 0⟩, ⟨0x0020, [(4, 4)], 0x400, 0x1FFF, 0, 0⟩, ⟨0x0030, [(4, 4)], 0, 0, 0, 0⟩, ⟨0x0060, [(8, 4)], 0, 0, 0, 0⟩]


/-- JUB (Tables 15.6 and 15.7). -/
def jubRows : List RegRow := [
  ⟨0x0000, [], 0, 0xF, 0, 0⟩, ⟨0x0004, [], 0, 0, 0, 0⟩, ⟨0x0008, [], 0, 0, 0xFF, 0⟩, ⟨0x000C, [], 0, 0xFF, 0, 0⟩,
  ⟨0x0010, [], 0x03C10034, 0x1FFFFFFF, 0, 0⟩, ⟨0x0100, [(2, 64)], 0, 3, 0, 0x1C⟩, ⟨0x0104, [(2, 64)], 0, 0, 0, 0⟩,
  ⟨0x0108, [(2, 64)], 0, 0, 0, 0⟩, ⟨0x010C, [(2, 64)], 0, 0, 0, 0⟩, ⟨0x0110, [(2, 64)], 0xFFFFFFFF, 0, 0, 0⟩,
  ⟨0x0114, [(2, 64)], 0, 0, 0, 0⟩, ⟨0x0120, [(2, 64), (8, 4)], 0, 0, 0, 0⟩]


/-- VGL (Table 16.9) and the Vigil bank (Table 21.2): word 0 the signature, words 1 to 29 the RV registers of every block, words
128 to 1,023 free for firmware. The RV registers' own addresses name the same words. -/
def vglRows : List RegRow := [
  ⟨0x0000, [], 0, 0, 0, 0⟩, ⟨0x0004, [], 0, 0, 0x7F, 0⟩, ⟨0x0008, [], 0, 0, 0, 0⟩, ⟨0x000C, [], 0, 0, 0, 0⟩, ⟨0x0010, [], 0, 0, 0, 0⟩,
  ⟨0x0014, [(4, 4)], 0, 0, 0, 0⟩, ⟨0x0024, [(2, 4)], 0, 0, 0, 0⟩, ⟨0x0030, [(4, 4)], 0, 0, 0, 0⟩, ⟨0x0040, [(3, 4)], 0, 0, 0, 0⟩,
  ⟨0x0050, [(8, 4)], 0, 0, 0, 0⟩, ⟨0x0070, [], 0, 1, 0, 0⟩, ⟨0x1000, [], 0x42414E4B, 0, 0, 0⟩, ⟨0x1004, [], 0, 0x7F, 0, 0⟩,
  ⟨0x1008, [], 0x60E, 0xFFF, 0, 0⟩, ⟨0x100C, [], 0, 0xFFFFFFFF, 0, 0⟩, ⟨0x1010, [], 1, 1, 0, 0⟩, ⟨0x1014, [], 0x64, 0x64, 0, 0⟩,
  ⟨0x1018, [], 0, 0xF, 0, 0⟩, ⟨0x101C, [(8, 4)], 0, 0xFFFFFFFF, 0, 0⟩, ⟨0x103C, [], 0, 0x1F, 0, 0⟩, ⟨0x1040, [], 0x1D, 0x7F, 0, 0⟩,
  ⟨0x1044, [(4, 12)], 0x32, 0xFFFFF, 0, 0⟩, ⟨0x1048, [(4, 12)], 5, 7, 0, 0⟩, ⟨0x104C, [(4, 12)], 0, 0xFFFFFFFF, 0, 0⟩,
  ⟨0x1074, [], 0, 1, 0, 0⟩, ⟨0x1200, [(896, 4)], 0, 0xFFFFFFFF, 0, 0⟩]

/-- PWR (Table 16.9). -/
def pwrRows : List RegRow := [
  ⟨0x0000, [], 8, 0x1F, 0, 0xE0⟩, ⟨0x0004, [], 0, 0, 0, 0⟩, ⟨0x0008, [], 0, 0, 0x3F, 0⟩, ⟨0x000C, [], 0, 0x3F, 0, 0⟩,
  ⟨0x0010, [], 0xA, 0xFFFFFF, 0, 0⟩, ⟨0x0014, [], 0x2710, 0xFFFFFF, 0, 0⟩, ⟨0x0018, [], 0x493E0, 0xFFFFFF, 0, 0⟩,
  ⟨0x001C, [], 0x1B7740, 0xFFFFFF, 0, 0⟩, ⟨0x0020, [], 0x4FFFFF, 0, 0, 0⟩, ⟨0x0024, [], 0xFF, 0xFF, 0, 0⟩,
  ⟨0x0028, [], 0, 0x7FFF, 0, 0⟩, ⟨0x0030, [(2, 4)], 0, 0, 0, 0⟩, ⟨0x0040, [(5, 4)], 0, 0, 0, 0⟩]


/-- FLS (Table 17.10). FLS_OTP_DATA and FLS_OTP_LOCK are formed from the OTP row on a read. -/
def flsRows : List RegRow := [
  ⟨0x0000, [], 0, 1, 0, 0⟩, ⟨0x0004, [], 3, 0, 0, 0⟩, ⟨0x0008, [], 0, 0, 0x3F, 0⟩, ⟨0x000C, [], 0, 0x3F, 0, 0⟩,
  ⟨0x0010, [], 0, 0x1FFFF7, 0, 8⟩, ⟨0x0014, [], 0, 0x7FF, 0, 0⟩, ⟨0x0018, [(2, 4)], 0, 0, 0, 0⟩, ⟨0x0020, [], 0, 0x3FF, 0, 0⟩,
  ⟨0x0024, [], 0, 0xFFFFFFFF, 0, 0⟩, ⟨0x0028, [], 0, 0, 0, 0⟩, ⟨0x0040, [(6, 4)], 0, 0, 0, 0⟩, ⟨0x0400, [(128, 4)], 0, 0xFFFFFFFF, 0, 0⟩]

/-- CLK (Table 17.10). CLK_BOOT lies in the Vigil bank. -/
def clkRows : List RegRow := [
  ⟨0x0000, [], 0, 0, 0, 7⟩, ⟨0x0004, [], 0, 0xFF, 0, 0⟩, ⟨0x0008, [], 0, 0, 7, 0⟩, ⟨0x000C, [], 0, 7, 0, 0⟩, ⟨0x0010, [], 0, 0, 0, 0⟩,
  ⟨0x0020, [], 0x7D0, 0x3FFFF, 0, 0⟩, ⟨0x0024, [(2, 4)], 0, 0, 0, 0⟩, ⟨0x002C, [], 0, 3, 0, 0⟩, ⟨0x0030, [(2, 4)], 0, 0, 0, 0⟩,
  ⟨0x0040, [(2, 4)], 0, 0, 0, 0xFFFFFFFF⟩, ⟨0x0050, [(2, 4)], 0xFFFFFFFF, 0xFFFFFFFF, 0, 0⟩]

/-- SEC (Table 17.10). -/
def secRows : List RegRow := [
  ⟨0x0000, [], 0, 1, 0, 0⟩, ⟨0x0004, [], 0, 0, 0, 0⟩, ⟨0x0008, [], 0, 0, 0xF, 0⟩, ⟨0x000C, [], 0, 0xF, 0, 0⟩,
  ⟨0x0010, [], 0, 0x3FB, 0, 4⟩, ⟨0x0020, [(18, 4)], 0, 0xFFFFFFFF, 0, 0⟩, ⟨0x0080, [(2, 4)], 0, 0, 0, 0⟩, ⟨0x00C0, [(2, 4)], 0, 0, 0, 0⟩]

/-- DBG (Tables 20.15 and 20.16). -/
def dbgRows : List RegRow := [
  ⟨0x0000, [], 0, 3, 0, 0⟩, ⟨0x0004, [], 0, 0, 0, 0⟩, ⟨0x0008, [], 0x0B896A4F, 0, 0, 0⟩]

/-- CAL (Table 18.5). -/
def calRows : List RegRow := [
  ⟨0x0000, [], 0, 3, 0, 0x3C⟩, ⟨0x0004, [], 0, 0, 0, 0⟩, ⟨0x0008, [], 0, 0, 0x3F, 0⟩, ⟨0x000C, [], 0, 0x3F, 0, 0⟩,
  ⟨0x0010, [], 0x003C0040, 0x0FFF0FFF, 0, 0⟩, ⟨0x0020, [(4, 4)], 0, 0, 0, 0⟩, ⟨0x0030, [(4, 4)], 0x8000, 0xFFFF, 0, 0⟩,
  ⟨0x0040, [(9, 4)], 0x0460FFB0, 0xFFFFFFFF, 0, 0⟩, ⟨0x0070, [], 0, 0, 0, 0⟩, ⟨0x0080, [], 0, 0x1FFD, 0, 2⟩,
  ⟨0x0084, [], 0, 0, 0, 0⟩, ⟨0x0090, [(4, 4)], 0, 0, 0, 0⟩, ⟨0x2000, [(4, 512), (4, 128), (26, 4)], 0, 0xFFFFFFFF, 0, 0⟩,
  ⟨0x2800, [(4, 64), (8, 4)], 0, 0xFFFFFFFF, 0, 0⟩, ⟨0x3000, [(4, 128), (24, 4)], 0, 0xFFFFFF, 0, 0⟩,
  ⟨0x4000, [(4096, 4)], 0, 0xFFFFFFFF, 0, 0⟩]

/-- ALM (Table 19.8). -/
def almRows : List RegRow := [
  ⟨0x0000, [], 0, 0, 0, 1⟩, ⟨0x0004, [], 0, 0, 0, 0⟩, ⟨0x0008, [], 0, 0, 0x7F, 0⟩, ⟨0x000C, [], 0, 0x7F, 0, 0⟩,
  ⟨0x0010, [], 0x3E8, 0xFFF, 0, 0⟩, ⟨0x0014, [], 0, 0, 0, 0⟩, ⟨0x0018, [], 0, 0, 0, 0⟩, ⟨0x001C, [], 0, 0, 0, 0⟩,
  ⟨0x0030, [(4, 4)], 0, 0, 0, 0⟩, ⟨0x0040, [(5, 4)], 0, 0, 0, 0⟩, ⟨0x0100, [(7, 4)], 0x3C08, 0xFFFFFF, 0, 0⟩,
  ⟨0x1000, [(224, 4)], 0, 0x77777777, 0, 0⟩, ⟨0x2000, [(129, 4)], 0, 0, 0, 0⟩, ⟨0x2204, [], 0, 0, 0, 1⟩]

/-- MGT (Table 19.8). MGT_ADDR lies in the Vigil bank (Table 21.2). -/
def mgtRows : List RegRow := [
  ⟨0x0000, [], 0, 1, 0, 0⟩, ⟨0x0004, [], 0, 0, 0, 0⟩, ⟨0x0008, [], 0, 0, 0x1F, 0⟩, ⟨0x000C, [], 0, 0x1F, 0, 0⟩,
  ⟨0x0010, [], 0x1D, 0x7F, 0, 0⟩, ⟨0x0014, [], 0, 0x1F, 0, 0⟩, ⟨0x0040, [(4, 4)], 0, 0, 0, 0⟩,
  ⟨0x0100, [(10, 4)], 0, 0, 0, 0⟩, ⟨0x0180, [], 0, 0, 0, 0⟩]

/-- The map of the block with an index (Table 1.1). -/
def blockRows (i : Nat) : List RegRow :=
  if i == 0x00 then vglRows else if i == 0x01 then pwrRows else if i == 0x02 then clkRows else if i == 0x03 then flsRows
  else if i == 0x04 then almRows else if i == 0x05 then mgtRows else if i == 0x06 then calRows
  else if 0x08 ≤ i ∧ i ≤ 0x0B then hifRows else if i == 0x0C then jubRows else if i == 0x0D then qmgRows
  else if i == 0x0E then bufRows else if i == 0x0F then lntRows else if i == 0x10 then memRows else if i == 0x11 then cplRows else if i == 0x12 then secRows else if 0x14 ≤ i ∧ i ≤ 0x17 then ulkRows else if 0x18 ≤ i ∧ i ≤ 0x1B then chnRows
  else if 0x1C ≤ i ∧ i ≤ 0x1F then wpaRows else if i == 0x20 then svoRows else if i == 0x21 then motRows else if 0x22 ≤ i ∧ i ≤ 0x25 then ordRows
  else if i == 0x26 then actRows else if i == 0x2F then dbgRows else []

/-- The byte address of an offset in a block's window (R14); an offset counts modulo the window's 64 KiB. -/
def regAddr (blk off : Nat) : Nat := 0x10000000 + blk * 0x10000 + off % 0x10000

/-- The block index and the offset of an address. -/
def addrBlk (a : Nat) : Nat := (a - 0x10000000) / 0x10000
def addrOff (a : Nat) : Nat := (a - 0x10000000) % 0x10000

/-- The row of the register at a byte address, if the address holds one (R14, R16). -/
def regRow (a : Nat) : Option RegRow :=
  if a < 0x10000000 then none
  else rowAt (blockRows ((a - 0x10000000) / 0x10000)) ((a - 0x10000000) % 0x10000)

/-- What a register holds after reset (Table 21.1). -/
def regReset (a : Nat) : W :=
  match regRow a with
  | some r => BitVec.ofNat 32 r.rst
  | none => 0

end Sys2Proof.Machine
end

