-- ==== Sys2Proof/Machine/State.lean ====
section
/-!
DEFINITION. The state of the controller: plain data, holding every piece of state the spec names, and the
queue of waiting commands. Registers have one home, `State.regs`, keyed by byte address (R14); what an
unlisted register reads as is `Machine.regReset`. Every other table names, in the accessor of its
family file, what an unlisted entry reads as.
-/
namespace Sys2Proof.Machine

/-- A zone group descriptor (Table 2.4), and whether its zones have entered the read-only state (R222, R224, R225). -/
structure Group where
  id : Nat
  home : Nat
  shingled : Bool
  backup : Bool
  width : Nat
  two : Bool
  window : Nat
  first : Nat
  count : Nat
  gangMap : Nat
  alt : Bool
  readOnly : Bool := false
deriving DecidableEq, Repr

/-- Receive side of one lane (R95, R97). -/
structure RxLane where
  /-- SEQ expected next. -/
  exp : BitVec 8 := 0
  /-- A NAK for `exp` is unanswered. -/
  nakOut : Bool := false
  /-- Link time the last NAK was sent. -/
  tNak : D := 0
  /-- NAKs sent for `exp`. -/
  naks : Nat := 0
  /-- Sequenced flits accepted since the last ACK. -/
  sinceAck : Nat := 0
deriving DecidableEq, Repr

/-- Transmit side of one lane (R96, R97). -/
structure TxLane where
  /-- SEQ of the next sequenced flit. -/
  next : BitVec 8 := 0
  /-- Unacknowledged flits, oldest first. -/
  held : List (BitVec 8 × List Byte) := []
deriving DecidableEq, Repr

/-- A read burst in progress (R93, R94). -/
structure Burst where
  gateId : Nat
  /-- Its head uses two lanes. -/
  two : Bool := false
  /-- Flits that have arrived ahead of a missing position: position and samples. -/
  early : List (Nat × List Byte) := []
  /-- Every position below this one has arrived. -/
  below : Nat := 0
  /-- SAMPLE flits that have come on the head's first lane and on its second. -/
  even : Nat := 0
  odd : Nat := 0
  readers : Nat
  ltime : W
  phase : Nat
  ended : Bool := false
  /-- FLITS and COUNT of the end mark. -/
  flits : Nat := 0
  count : Nat := 0
  gap : Bool := false
  shockCut : Bool := false
deriving DecidableEq, Repr

/-- A head's servo field of the current wedge, as far as it has arrived, and its misses (R100, R101). -/
structure FieldRx where
  wedge : Nat := 0
  ltime : W := 0
  thermal : Nat := 0
  contact : Nat := 0
  frags : List Nat := []
  /-- The last fragment number is known from SUB[0]. -/
  last : Option Nat := none
  misses : Nat := 0
  /-- SVMISS_LIMIT misses in a row have been reported, and no good field has come since (Table 3.12). -/
  lost : Bool := false
  /-- A field of this head has come, so that `wedge` says which one. -/
  known : Bool := false
  /-- The field has been handed off or missed: later fragments are discarded. -/
  closed : Bool := true
deriving DecidableEq, Repr

/-- Hidden state of Uslen port n (chapter 3). -/
structure UlkPort where
  /-- Training step of Table 3.11 in progress, 0 when none. -/
  step : Nat := 0
  /-- Lanes that have passed every step of the attempt in progress so far (R104). -/
  cand : Nat := 0
  /-- The training in progress follows a wake and repeats steps 2 to 8 only (R108). -/
  waking : Bool := false
  /-- Rates whose presets step 7 has stored since PORT_EN rose (R106). -/
  presets : List Nat := []
  /-- The link time chosen for a rate switch (R106). -/
  switchAt : Option D := none
  /-- A sleep handshake: lanes that have answered, and whether SLEEP has been resent (R107). -/
  sleep : Option (Nat × Bool) := none
  /-- Lanes retraining, with the attempts that have failed (R105). -/
  retrain : Tbl Nat := []
  rx : Tbl RxLane := []
  tx : Tbl TxLane := []
  /-- ULK_HEADMAPh in force; the register shows the value last written (R116). -/
  mapInForce : Tbl W := []
  /-- A head's bursts whose samples are not all in the ring, oldest first (R93). -/
  bursts : Tbl (List Burst) := []
  /-- SAMPLE flits of a head's second lane that have come before the start mark of their burst (R93). -/
  ahead : Tbl (List (List Byte)) := []
  fields : Tbl FieldRx := []
  /-- Heads with a Cysel REG_READ outstanding (R114). -/
  regRead : Tbl Bool := []
  /-- The last SHOCK flag and underrun, late-command and head-fault bits (Table 3.5). -/
  underrun : Nat := 0
  lateCmd : Nat := 0
  headFault : Nat := 0
  supplyFault : Bool := false
  overtemp : Bool := false
  dieTemp : BitVec 16 := 0
  /-- SVO has been told that the port has no position: both servo lanes are down, or the port has failed (Table 3.12). -/
  servoLost : Bool := false
  /-- The switch chosen applies presets at the port's current rate (R511). -/
  presetSwitch : Bool := false
  /-- Upper word of link time latched by a read of ULK_LTIME_LO (Table 3.13). -/
  ltimeLatch : W := 0
  /-- SERVO_OUT flits that wait for other entries with the same APPLY: APPLY, and HEAD, KIND and VALUE of each entry (R189). -/
  servoQ : List (Nat × List (Nat × Nat × Nat)) := []
  /-- APPLY of every SERVO_OUT entry sent that is still to come (R106). -/
  applies : List Nat := []
  /-- Link time at which the ECHO_REQ of step 6 was sent (Table 3.11). -/
  echoAt : D := 0
  /-- A rate switch has been requested and is not done: Ordo issues no gate (R106). -/
  rateReq : Bool := false
  /-- LTIMEs of the TELEMETRY flits taken whose second copy has not come (R99). -/
  telSeen : List W := []
deriving DecidableEq, Repr

/-- What becomes of a sector in a slot ring (R141). -/
inductive SecState where
  | arriving
  | awaiting
  | decoding
  | held
  | executing
deriving DecidableEq, Repr

/-- A sector whose samples a slot stores (R139, R141), with what its quality record will say (Table 4.5). -/
structure Sector where
  gateId : Nat
  ltime : W
  st : SecState := .arriving
  /-- The samples stored, in the order of Table 3.5, and the ring position of the first, counted without wrapping (R141). -/
  samples : List Byte := []
  start : Nat := 0
  /-- Bytes before candidate E − W − 96 that are still to be discarded (R141). -/
  skip : Nat := 0
  /-- Bursts still to come: more than one where a servo field splits the sector (R125). -/
  left : Nat := 1
  /-- Loop values at the first sample, in units of 2⁻¹⁵ of a register step: the seeds of every replay (R139). -/
  seeds : List Int := []
  /-- Raw defect flags of the channel bits before the sector and behind it (R135). -/
  carry : List Bool := []
  ahead : List Bool := []
  /-- Sample instants since the last update of the loops at its first sample (R136). -/
  phase : Nat := 0
  /-- It began to arrive before the slot's last ARM, whose seeds are not for it. -/
  old : Bool := false
  /-- CHN_SLOTh_TR and the words of both equaliser sets that it is processed with (R153). -/
  sets : List W := []
  /-- The codeword's hard decisions and LLRs (R132). -/
  word : List (Bool × Int) := []
  /-- c − E of the anchor in use. -/
  anchor : Option Int := none
  anchorKind : Nat := 0
  /-- The first-pass anchor. -/
  first : Option Int := none
  dist : Nat := 0
  source : Nat := 0
  unsat : Nat := 0
  meanLlr : Nat := 0
  defect : Nat := 0
  /-- A relaxed or backup search waits for the replay front end (R127). -/
  search : Bool := false
  prof : Nat := 0
  profCfg : W := 0
  profTime : W := 0x0FA00040
  readers : Nat := 0
  /-- What R52 expects of its metadata: zone tag, stripe index, global head number, write generation. -/
  expect : Option (Nat × Nat × Nat × Nat) := none
deriving DecidableEq, Repr

/-- A replay operation running on the slot's executing sector (R146). -/
structure ReplayOp where
  rung : Nat
  /-- Rung 2: candidates c − E still to try; rung 4: readers still to drop; otherwise nothing. -/
  trials : List Int := []
  /-- The candidate or the reader of the trial under way. -/
  trial : Int := 0
  /-- The front-end pass of the trial runs; else its decode waits or runs. -/
  fe : Bool := true
  /-- Rung 2 has built its list, in its first front-end pass (R147). -/
  listed : Bool := false
  /-- Of the trial under way (Table 4.5). -/
  dist : Nat := 0
  unsat : Nat := 0
  meanLlr : Nat := 0
  defect : Nat := 0
  word : List (Bool × Int) := []
  /-- RELEASE arrived while it ran (R145). -/
  release : Bool := false
deriving DecidableEq, Repr

/-- A head slot of the read channel (R119 to R153). -/
structure ChnSlot where
  armed : Bool := false
  prof : Nat := 0
  profCfg : W := 0x0000000C
  profTime : W := 0x0FA00040
  /-- The replay window is open (HOLD_ON). -/
  hold : Bool := false
  /-- DISARM takes effect after the current sector. -/
  disarming : Bool := false
  /-- An ARM to an armed slot acts at the next sector boundary: the profile it names. -/
  rearm : Option Nat := none
  /-- Every sector of the gate fails with this status (R119, R140). -/
  refused : Nat := 0
  /-- Granules in force (R140). -/
  granules : Nat := 0
  loaned : Nat := 0
  sectors : List Sector := []
  /-- The ring's write position, counted without wrapping (R141). -/
  wr : Nat := 0
  /-- The gate whose sector failed while it arrived: its later bursts open no sector (R94, R150). -/
  lost : Option Nat := none
  /-- Gain, offset and asymmetry of readers 0 to 2 as the loops run, in units of 2⁻¹⁵ of a register step (R136). -/
  acc : List Int := []
  /-- Raw defect flags at the end of the last sector (R135). -/
  carry : List Bool := []
  /-- Sample instants since the last update of the loops (R136). -/
  phase : Nat := 0
  /-- The three of them for the sectors that were arriving at the last ARM. -/
  before : List Int × List Bool × Nat := ([], [], 0)
  /-- Queued replay operations, by rung (R146). -/
  ops : List Nat := []
  op : Option ReplayOp := none
  /-- Registers written while armed, with the value still in force until the sector boundary (R153). -/
  inForce : Tbl (Option W) := []
deriving DecidableEq, Repr

/-- A decoder core at work: slot, whether a replay decode, iterations done (R133). -/
structure Core where
  slot : Nat
  replay : Bool
  iter : Nat := 0
  loaded : Bool := false
  /-- The replay decode must yield at its next boundary. -/
  yield : Bool := false
deriving DecidableEq, Repr

/-- Hidden state of read channel n. -/
structure Chn where
  slots : Tbl ChnSlot := []
  cores : Tbl (Option Core) := []
  /-- First-pass decodes waiting for a core, by slot, in order of arrival (R133). -/
  firstWait : List Nat := []
  /-- Replay decodes waiting for a core, by slot (R133). -/
  replayWait : List Nat := []
deriving DecidableEq, Repr

/-- Hidden state of one head of a write path (chapter 5). -/
structure WpaHead where
  /-- Link time of the WARM that took the head to Armed (R156). -/
  warmAt : D := 0
  /-- WDISARM takes effect when the head's open gate ends: the GATE_ID of that gate (Table 5.2). -/
  wdisarm : Option Nat := none
  fhDown : Bool := false
  /-- Current profile values last sent to the head (R160). -/
  wcpSent : Option W := none
  /-- Consecutive wedges with THERMAL out of range (R162). -/
  thermOut : Nat := 0
  /-- WPA_HEADh_THERM and WPA_HEADh_FH in force (R180). -/
  therm : W := 0xFFFF0000
  fh : W := 0
deriving DecidableEq, Repr

/-- Hidden state of write path n. S, V, W, M, the attempts, the pass and the rewind state stand in
WPA_POS_S, WPA_POS_V, WPA_POS_W, WPA_POS_M and WPA_REWIND (R170, R179). -/
structure Wpa where
  heads : Tbl WpaHead := []
  /-- Verified gang positions of each pending stripe in the current pass (R68). -/
  verified : Tbl Nat := []
  /-- Stripes below V that have failed their latest verification (R174). -/
  failedBelow : List Nat := []
  /-- Rewrites of conventional stripes (R177). -/
  rewrites : Tbl Nat := []
  /-- Conventional stripes waiting to be rewritten in place. -/
  rewriteWait : List Nat := []
  /-- New gates are withheld while a rewind waits (R173). -/
  stopGates : Bool := false
  /-- The gates of the failed pass have ended and the inhibit wait runs (R173). -/
  inhibitWait : Bool := false
  /-- Wedges without a verify event of the current pass (R176). -/
  quiet : Nat := 0
  /-- Head and status of the FAIL that may seal the band (R175). -/
  failHead : Nat := 0
  failStatus : Nat := 0
  /-- STATUS of the quality record that came with it (R168). -/
  failRec : Nat := 0
  /-- Status of the seal, special 9 (Table 9.11). -/
  sealStatus : Nat := 0
  /-- The gang that GANG set for the MOP, its heads as they were then (R277, R287). -/
  gang : Nat := 0
  /-- Heads dropped and not re-admitted (R216). -/
  dropped : Nat := 0
  /-- WPA_RAWCFG in force (R180). -/
  rawcfg : W := 0x01010008
  /-- The band's zone tag, for the seal record. -/
  zoneTag : Nat := 0
deriving DecidableEq, Repr

/-- The descriptor copy a loop runs on (Table 6.9, R196). -/
structure LoopDesc where
  enable : Bool := false
  sections : Nat := 0
  stateClr : Bool := false
  set : Nat := 0
  phase : Nat := 0
  fhSlot : Nat := 0
  limHi : Int := 0
  limLo : Int := 0
  satLimit : Nat := 0
  bias : Int := 0
deriving DecidableEq, Repr

/-- Hidden state of a servo loop. -/
structure Loop where
  desc : LoopDesc := {}
  /-- A commit has marked the loop for a descriptor copy (R196). -/
  commit : Bool := false
  /-- Arrival of the last update (R187), as link time. -/
  arrival : D := 0
  /-- The update's signals: r, y, e, v, u and the injected sum, as captured by TAP 0 to 5 (R202). -/
  taps : List Int := []
  /-- A result waits for A + L (R188). -/
  pending : Bool := false
  /-- Released from reset: the next update finds the section states zero (R161). -/
  fresh : Bool := false
  /-- A drive of 0 is sent at the next P (Table 6.6). -/
  zeroOut : Bool := false
  /-- Heater step the loop last ran with (R165). -/
  step : Nat := 0
  /-- A VCM or milli output waits for its OUTPUT frame (R233). -/
  ready : Bool := false
deriving DecidableEq, Repr

/-- A generator (R201). -/
structure Gen where
  started : Bool := false
  n : Nat := 0
  lfsr : BitVec 15 := 0x7FFF
  hold : Nat := 0
deriving DecidableEq, Repr

/-- Hidden state of SVO (chapter 6). -/
structure Svo where
  /-- The coefficient and state memory, 65,536 words (R194). -/
  mem : Tbl W := []
  /-- The zeroing after a block reset is under way (R194). -/
  zeroing : Bool := true
  loops : Tbl Loop := []
  gens : Tbl Gen := []
  /-- The capture buffer, 65,536 words (R202). -/
  cap : Tbl W := []
  /-- Samples taken into each share, counted without wrapping, since ARM. -/
  capTaken : Tbl Nat := []
  /-- Samples each share still records after the trigger. -/
  capLeft : Tbl Nat := []
  /-- WEDGE number of actuator a's last boundary. -/
  wedge : Tbl Nat := []
  /-- Position of head 24a + h in its last field, none if that was missed (R183, R191). -/
  headPos : Tbl (Option Int) := []
  /-- Arrival of actuator a's last boundary with WEDGE 0, plus 1, while no such boundary has been missed since (SVO_TW). -/
  revAt : Tbl Nat := []
  /-- Arrival and WEDGE of actuator a's last boundary. -/
  lastAt : Tbl (Nat × Nat) := []
  /-- Link time at which head 24a + h's last servo field ended, and its WEDGE (R288). -/
  fieldEnd : Tbl (Nat × Nat) := []
  /-- Window time of head 24a + h, and the one last sent to it (R193). -/
  window : Tbl Nat := []
  windowSent : Tbl Nat := []
  /-- Micro error of head 24a + h at its last update, none if missed (R210). -/
  microErr : Tbl (Option Int) := []
  /-- SVO_STACKa written since the last wedge boundary: address and the value still in force (R206). -/
  held : Tbl (Option W) := []
deriving DecidableEq, Repr

/-- A MOP waiting at the governor (R218). -/
structure GovWait where
  act : Nat
  run : Nat
  seek : Nat
deriving DecidableEq, Repr

/-- Hidden state of actuator a (chapter 7). -/
structure Act where
  /-- Stack reference, in 2⁻¹⁶ track (R208). -/
  ref : Int := 0
  target : Int := 0
  v : Nat := 0
  /-- +1 or −1: the direction in which v moves the reference. -/
  dir : Int := 1
  /-- A SEEK held while Parked or Loading (R208). -/
  heldSeek : Option Int := none
  /-- The seek under way has taken its first step (R209). -/
  stepped : Bool := false
  /-- Consecutive good wedges, and wedges, of Settling (R210). -/
  settleRun : Nat := 0
  settleWedges : Nat := 0
  /-- Settle has been reported since the last SEEK (Table 9.10). -/
  settled : Bool := false
  /-- Offsets in force by head (R213). -/
  offs : Tbl W := []
  /-- ACC and VMAX in force for the seek under way (R238). -/
  acc : Nat := 320
  vmax : Nat := 200
  /-- SETTLE and TIMEOUT in force (R238). -/
  settleCfg : W := 0x0F060D1A
  timeoutCfg : W := 0x00C8F014
  /-- Good and bad frames in a row on STS (R232). -/
  goodRun : Nat := 0
  badRun : Nat := 0
  locked : Bool := false
  /-- SEQ of the next down frame (R232). -/
  txSeq : BitVec 4 := 0
  /-- An AMPCMD is outstanding (R235). -/
  ampOut : Bool := false
  /-- The link stops when the retract has ended (R231). -/
  stopLink : Bool := false
  /-- A DISABLE waits for the rewind or the stripe in flight (R222, R223). -/
  disableWait : Bool := false
  /-- Firmware loads the heads again once the retract has ended (R319). -/
  reload : Bool := false
  /-- Charges of the MOP in flight: run part and SEEK part (R217). -/
  chargeRun : Nat := 0
  chargeSeek : Nat := 0
  /-- Heads that have delivered a field since LOAD (Table 7.1). -/
  loadSeen : Nat := 0
deriving DecidableEq, Repr

/-- The observer of R249: current model ih, back-EMF eh, angle th and speed w, in 2⁻³² of a code, of a turn and of a turn per second. -/
structure Rotor where
  ih : Int × Int := (0, 0)
  eh : Int × Int := (0, 0)
  th : Int := 0
  w : Int := 0
deriving DecidableEq, Repr

/-- Hidden state of MOT (chapter 8). STATE, AT_SPEED, CHOP_ON, CHOP_FAULT, PLOSS, RETRACT_HOLD and LAST_CODE stand in
MOT_STATUS. -/
structure Mot where
  /-- Gates: 0 all low, 1 short brake (low sides on), 2 PWM (Table 8.2). -/
  gates : Nat := 0
  /-- Why MOT brakes: 0 a start, 1 a stop, 2 a chopper fault (R256). -/
  brake : Nat := 0
  /-- Failed attempts of the start request (R257). -/
  fails : Nat := 0
  /-- The 2 s coast after a failed attempt runs (R257). -/
  retry : Bool := false
  /-- A stop request ramps the spindle down (R258). -/
  stopping : Bool := false
  /-- The speed reference, 0.01 rpm (R253). -/
  ref : Nat := 0
  /-- A rise is under way, and it started below SLOW (R253). -/
  rising : Bool := false
  slowRise : Bool := true
  /-- Consecutive updates within AT_TOL (R252). -/
  inTol : Nat := 0
  /-- MOT_START as read at the last Align, MOT_BRAKE as at the last VM sample, MOT_MOTOR and MOT_LOOPS as at the last loop update (R266). -/
  startCfg : W := 0
  brakeCfg : W := 0x64093C32
  motorCfg : W := 0
  loopCfg : W := 0x0FFF9876
  /-- A peek's window is open, and when the last one was due: the entry to Brake before the first (R256). VM below FLOOR has opened the
  gates of a chopper-fault brake (R261). -/
  peek : Bool := false
  peekAt : Nat := 0
  floorOpen : Bool := false
  /-- MOT_CLK cycles of PWM periods since reset, at the entry to open loop, and in agreement (R257). -/
  clk : Nat := 0
  openAt : Nat := 0
  agree : Nat := 0
  /-- The last 40 VM samples, newest first (R259). -/
  vm : List Nat := []
  /-- The chopper's engagement: its time and v_on (R259). -/
  tOn : Nat := 0
  vOn : Nat := 0
  /-- The last shunt sample tripped (R251). -/
  tripped : Bool := false
  /-- The observer (R249). -/
  obs : Rotor := {}
  /-- The integrators of the current loop (d, q), of the speed loop, and the q reference, in 2⁻³² of a code (R250). -/
  curInt : Int × Int := (0, 0)
  qInt : Int := 0
  qRef : Int := 0
  /-- Compare values of phases U, V and W that the current loop asks for (R246). -/
  cmp : List Nat := []
  /-- The compares of the last PWM period, stretched where R248 asks: x′ in the rising half and x″ in the falling half. -/
  rise : List Nat := []
  fall : List Nat := []
  /-- x″ of the period before, whose end DEADTIME may reach past (R241). -/
  fallOld : List Nat := []
  /-- The currents of phases U, V and W from the last driven period's samples, in 2⁻³² of a code (R247). -/
  cur : List Int := []
  /-- MOT_VSU, MOT_VSV and MOT_VSW at counter 0 of the periods of an observation or a peek, newest first (R254, R256). -/
  vs : List (Nat × Nat × Nat) := []
deriving DecidableEq, Repr

/-- What a gate does (R288). -/
inductive GateKind where
  | read
  | write
  | spare
  | raw
deriving DecidableEq, Repr

/-- A gate that the placer holds until its packet or verify event has come (R288). -/
structure Gate where
  id : Nat
  head : Nat
  kind : GateKind
  /-- Gang position. -/
  gpos : Nat
  stripe : Nat
  /-- Position along the track. -/
  spos : Nat
  /-- START and end of the last bit, link time in ns. -/
  start : Nat
  stop : Nat
  /-- Pass of the band at placement (R173). -/
  pass : Nat := 0
  sent : Bool := false
  opened : Bool := false
  /-- The write data has been sent (R157). -/
  data : Bool := false
  /-- The status with which its sector has already failed (R150, R169), 0 for none. -/
  fail : Nat := 0
  /-- START and channel bits of each part, where a servo field splits the sector (R125, R288). -/
  parts : List (Nat × Nat) := []
  /-- Withheld by the shingle guard (R171). -/
  guard : Bool := false
  /-- Start marks that have come under its GATE_ID (R92). -/
  bursts : Nat := 0
  /-- A WRITE_ABORT has ended it before its last bit. -/
  cut : Bool := false
deriving DecidableEq, Repr

/-- A slot of the MOP queue (R272): the descriptor and the status it is refused with. -/
structure Mop where
  w0 : W
  w1 : W
  w2 : W
  w3 : W
  refused : Nat := 0
deriving DecidableEq, Repr

/-- A completion entry (Table 9.5). -/
structure MopCpl where
  c0 : W
  c1 : W
  c2 : W
  c3 : W
  /-- The parameter block released at the pop (R270). -/
  pblk : Nat
deriving DecidableEq, Repr

/-- Where an engine stands (R275 to R277). -/
inductive OrdPhase where
  | idle
  /-- Admission waits at the governor or for cells. -/
  | admitting
  | running
  /-- A WAIT is suspended with its condition and operand. -/
  | waiting (cond : Nat) (xa : W)
  /-- The end sequence waits for the gates that opened. -/
  | draining (status : Nat) (ticks : Nat)
deriving DecidableEq, Repr

/-- State of Ordo engine n (chapter 9). -/
structure Ord where
  /-- The store, 16,384 words (R267). -/
  store : Tbl W := []
  submit : Tbl W := []
  queue : List Mop := []
  cpls : List MopCpl := []
  phase : OrdPhase := .idle
  /-- The MOP admitted: descriptor and parameter block copies (R275). -/
  mop : Option Mop := none
  pblk : Tbl W := []
  x : Tbl W := []
  z : Bool := false
  n : Bool := false
  c : Bool := false
  stack : List Nat := []
  pc : Nat := 0
  /-- Microwords and ticks since the last POLL (R284). -/
  budgetWords : Nat := 0
  budgetTicks : Nat := 0
  /-- WEDGE of the last tick (Table 9.11). -/
  tickWedge : Nat := 0
  gates : List Gate := []
  nextGate : Nat := 0
  /-- Tallies of Table 9.5. -/
  stripesOk : Nat := 0
  sectorsFailed : Nat := 0
  point : Nat := 0xFFFFFFFF
  failPos : Nat := 0
  reloc : Option Nat := none
  /-- Gates for the spare write of R174 have been placed. -/
  spareSent : Bool := false
  spareFailed : Bool := false
  sealed : Nat := 0
  disabled : Bool := false
  startV : Nat := 0
  /-- Packets passed of each stripe in flight, twice, plus 1 once one of them has failed (R279). -/
  passed : Tbl Nat := []
  /-- A tick has come since WAIT suspended the routine. -/
  ticked : Bool := false
  /-- Cells that the last GATE could not reserve, in the sector queue and in the write queue (R359). -/
  want : Nat × Nat := (0, 0)
  /-- GATE is refused for new stripes, and for writes (R281). -/
  refuseNew : Bool := false
  refuseWrite : Bool := false
  /-- Status of the first latched fatal event (R282), 0 for none. -/
  fatal : Nat := 0
  /-- LDBAND has loaded band positions for this MOP (R289). -/
  band : Bool := false
  /-- The slots of replay operations strobed whose packets have not been dispatched (Table 9.10, DELIVERED). -/
  replays : List Nat := []
deriving DecidableEq, Repr

/-- A line of Lantern (R338), or 128 bytes of a scratchpad way (R340). -/
structure LLine where
  valid : Bool := false
  dirty : Bool := false
  poison : Bool := false
  tag : Nat := 0
  data : List Byte := []
deriving DecidableEq, Repr

/-- An entry of the eviction buffer (R345). -/
structure Evict where
  line : Nat
  data : List Byte
  poison : Bool := false
  /-- MEM has taken the write-back into its write queue. -/
  left : Bool := false
deriving DecidableEq, Repr

/-- A range maintenance request (R341). -/
structure RmReq where
  op : Nat
  start : Nat
  len : Nat
  all : Bool
deriving DecidableEq, Repr

/-- Lantern (R338 to R345). -/
structure Lnt where
  /-- Lines by 16 × set + way. -/
  lines : Tbl LLine := []
  /-- The pseudo-LRU tree of each set: node i leads to its upper half when bit i is 1. -/
  plru : Tbl Nat := []
  evb : List Evict := []
  /-- Accesses that wait, in order of arrival. -/
  waiting : List BufAcc := []
  rm : Option RmReq := none
  rmq : Option RmReq := none
  /-- A disable walk runs (R343). -/
  disabling : Bool := false
  /-- A scratchpad change runs (R340). -/
  changing : Bool := false
deriving DecidableEq, Repr

/-- A data unit of LPDDR6 as it is stored: its 64 bytes and its 4 check bytes (R326, R330). -/
structure MemUnit where
  data : List Byte
  check : List Byte
deriving DecidableEq, Repr

/-- MEM (R324 to R330). -/
structure Mem where
  /-- Stored data units, by 2³² × channel + 16 × check block + unit. -/
  units : Tbl MemUnit := []
  /-- The next unit that the patrol reads, by its place in the channels' order of check blocks (R336). -/
  patrol : Nat := 0
  /-- MEM_CFG in force (R349). -/
  density : Nat := 2
deriving DecidableEq, Repr

/-- What a word of an original row holds, and how it is stored where the test mode stored it wrong (R335). -/
structure RowWord where
  data : Nat
  mark : Option (Nat × Nat × Bool) := none
deriving DecidableEq, Repr

/-- BUF's own state (R335, R337, R346). -/
structure Buf where
  par : Option ParReq := none
  parq : List ParReq := []
  /-- Words stored wrong by the checker test mode (R337), by 2²⁰ × group + word: data mask, check mask, address flip. -/
  sramBad : Tbl (Option (Nat × Nat × Bool)) := []
  /-- What the original row of a remap entry holds, by 8 × group + entry: its 64 words (R335). -/
  oldRows : Tbl (List RowWord) := []
deriving DecidableEq, Repr

/-- A packet of the cell pool (R350): its content, its payload bytes, and the POISON bit of its first cell. -/
structure Pkt where
  body : Body
  bytes : Nat
  poison : Bool := false
deriving DecidableEq, Repr

/-- One queue of the cell pool (R351 to R366). -/
structure CellQ where
  /-- Whole packets, head first (R351). -/
  pkts : List Pkt := []
  /-- Cells reserved and not yet written (R357). -/
  resv : Nat := 0
  /-- Waiting reservation requests, oldest first (R357). -/
  waitResv : List Nat := []
  /-- Packets whose producer waits for room, oldest first. -/
  waitPkts : List Pkt := []
  /-- Items on the fall-back chain, oldest first (R366). -/
  chain : List Pkt := []
  /-- Items lost since the last LOST notice (R365, R366). -/
  lost : Nat := 0
  /-- Packets completed, a free-running 16-bit count of the producer (R355). -/
  pktCount : BitVec 16 := 0
  /-- Cells freed or relinked, a free-running 16-bit count of the consumer (R355). -/
  freedCount : BitVec 16 := 0
deriving DecidableEq, Repr

/-- The I/O controller of a port (R379 to R383). -/
structure Ctrl where
  /-- Controller Configuration and Controller Status as Property Get returns them. -/
  cc : W := 0
  csts : W := 0
  /-- Keep Alive Timeout in ms, and the time of the last restart in ns. -/
  kato : Nat := 0
  kaAt : Nat := 0
  /-- Queue pairs: identifier and size. -/
  queues : List (Nat × Nat) := []
  /-- I/O queue pairs granted by Number of Queues. -/
  granted : Nat := 0
  /-- The host that connected. -/
  host : Nat := 0
  /-- Features set, by identifier (Table 13.3). -/
  feats : Tbl W := []
  /-- Error Information log: entries, newest first. -/
  errors : List (List Nat) := []
  /-- Idle times that the APST table gives for PS1 to PS4, 0 for none (R446). -/
  apst : List Nat := []
  /-- A normal shutdown is under way. -/
  stopping : Bool := false
deriving DecidableEq, Repr

/-- A transport connection of a port (R375, R376). -/
structure Conn where
  id : Nat
  rdma : Bool := false
  tls : Bool := false
  /-- The controller has terminated it. -/
  ended : Bool := false
deriving DecidableEq, Repr

/-- Host port p (chapter 13). -/
structure HifPort where
  /-- 0 down, 1 negotiating or training, 2 up, 3 failed and waiting for the retry (R372). -/
  link : Nat := 0
  conns : List Conn := []
  /-- Discovery associations: their count (R379). -/
  discovery : Nat := 0
  /-- The I/O controller's association. -/
  ctrl : Option Ctrl := none
  /-- A back-pressure episode is in progress (R377). -/
  bp : Bool := false
  /-- QMG takes no capsules of the port: a reset, a disable or an expiry drains it (R407, R409). -/
  draining : Bool := false
  /-- The drain is that of a controller reset. -/
  resetting : Bool := false
  /-- Lanes whose energy detector is armed (R389). -/
  energy : Nat := 0
  /-- The network settings in force since the port's last enable (R549). -/
  net : List Byte := []
  /-- Capsules that wait outside a full capsule queue, oldest first (R377). -/
  wait : List HostCmd := []
  /-- Capsules that have entered the queue, and the commands of those in it that carry data, by that count: the data stays with the port
  until SEC enciphers it (R33). -/
  arrivals : Nat := 0
  data : List (Nat × HostOp) := []
deriving DecidableEq, Repr

/-- Where a command context stands (Table 14.1); a context not listed is Free. -/
inductive CtxSt where
  | arrived
  | held
  | waiting
  | running
  | committed
deriving DecidableEq, Repr

/-- A command context (R392). -/
structure Ctx where
  st : CtxSt := .arrived
  port : Nat
  cmd : HostCmd
  /-- Order in which QMG took the capsules (R362, R393). -/
  order : Nat
  /-- The LBA a Zone Append was assigned (R395). -/
  lba : Nat := 0
  /-- Firmware has begun the command. -/
  begun : Bool := false
  abort : Bool := false
  /-- The Brodvon code to end with once the MOPs that carry the command have ended, 0 for none (R405, R407, R409). -/
  endWith : Nat := 0
  /-- The completion is to be discarded unsent (R409). -/
  discard : Bool := false
  /-- An entry of its queue pair's completion ring is reserved for it (R394). -/
  ring : Bool := false
  /-- The volatile write cache was enabled when it was admitted (R402, R412). -/
  cached : Bool := false
  /-- LBAs not yet transferred (a read) or not yet in a verified stripe (a write, or what a Flush waits for), by 65,536 × zone + offset. -/
  need : List Nat := []
  /-- The first code that a part of the command failed with. -/
  code : Nat := 0
  /-- Sector buffers reserved and not yet tied to stripes (Table 12.3). -/
  bufs : Nat := 0
  /-- The reservations of Table 12.3 are held. -/
  granted : Bool := false
  /-- Its completion has been handed to QMG. -/
  ended : Bool := false
  entry : Option Cpl := none
deriving DecidableEq, Repr

/-- A namespace's recovery descriptor (Table 10.1) or that of Harvest (Table 15.1). -/
structure RecPol where
  realloc : Bool := false
  rungEn : Nat := 0x1FF
  reallocRung : Nat := 6
  win : Bool := true
  /-- TIME_LIMIT in ms, 0 for none. -/
  limit : Nat := 2000
  shifts : Nat := 0xF
  tries : Nat := 3
deriving DecidableEq, Repr

/-- A namespace (R60, R382). -/
structure Nspace where
  nsid : Nat
  /-- 0 conventional, 1 zoned, 2 Key Value. -/
  kind : Nat
  /-- Its zone groups, by GROUP_ID. -/
  groups : List Nat
  pol : RecPol := {}
  /-- Its key slot, where it is encrypted (R505). -/
  key : Option Nat := none
  ana : Nat := 1
  /-- A Format of it is being done (R409). -/
  formatting : Bool := false
deriving DecidableEq, Repr

/-- Zone states (Table 14.2); Read Only is the group's mark (R225). -/
inductive ZSt where
  | empty
  | implOpen
  | explOpen
  | closed
  | full
deriving DecidableEq, Repr

/-- What the zone table in the system area holds of a zone (Table 2.7). -/
structure ZoneRec where
  st : ZSt := .empty
  byCtrl : Bool := false
  gen : Nat := 0
  v : Nat := 0
  w : Nat := 0
deriving DecidableEq, Repr

/-- A zone as firmware keeps it (R396), and its entry of the zone table. -/
structure Zone where
  st : ZSt := .empty
  byCtrl : Bool := false
  gen : Nat := 0
  /-- Accept pointer A, an offset (R395). -/
  accept : Nat := 0
  /-- V and W (R67), and the entry as last written, the same in both copies of the zone table (R78, R322). -/
  v : Nat := 0
  w : Nat := 0
  saved : ZoneRec := {}
  /-- Next main stripe to be given to a MOP. -/
  placed : Nat := 0
  /-- Write pointer held at a seal (Table 10.6). -/
  wpHeld : Option Nat := none
  /-- The band's remap list: its effective 8-byte entries, oldest first (R63, R64). -/
  remaps : List D := []
  /-- Spares from this one on are unused (R63); and the one below it that the band's MOPs name and that is unused too. -/
  spares : Nat := 0
  spareHeld : Option Nat := none
  /-- A Zone Finish is under way: its context. -/
  finishing : Option Nat := none
  /-- VERIFY_STALL endings in a row (R319). -/
  stalls : Nat := 0
  /-- From plan acceptance to CLOSE only a Jubilee session writes it (R435). -/
  receiving : Bool := false
  /-- A Jubilee source has had its ZONE_ACK, on this link (R435). -/
  migrated : Option Nat := none
  /-- The write stream is stopped at an aborted command, whose first LBA has this offset (R320). -/
  stopping : Bool := false
  stopAt : Nat := 0
  /-- V is being re-established after power-up (R322). -/
  finding : Bool := false
  /-- A refresh runs: step, whether stopped by a reset; the pinned copy of an abandoned one (R420, R421). -/
  refresh : Nat := 0
  deferred : Bool := false
  copyFrom : Option Nat := none
  /-- The first stripe of its copy, within the actuator's firmware working area (R420). -/
  copyAt : Nat := 0
deriving DecidableEq, Repr

/-- A buffered LBA that is not yet on verified media: its bytes and version. -/
structure Dirty where
  bytes : List Byte
  ver : Nat
deriving DecidableEq, Repr

/-- A stripe of a staging ring (R73): position, sequence number, and the slots that are neither destaged nor
superseded: LBA, version, bytes. -/
structure RingStripe where
  pos : Nat
  seq : Nat
  slots : List (Nat × Nat × List Byte)
  verified : Bool := false
  /-- The user bytes of its index sector (R73). -/
  index : List Byte := []
  /-- The LBA that each of its slots from 1 on was written with, and the bytes. -/
  keys : List Nat := []
  rows : List (List Byte) := []
  /-- Its write could not be completed anywhere: nothing reads it (R313). -/
  broken : Bool := false
deriving DecidableEq, Repr

/-- An actuator's staging ring (R72 to R77). -/
structure Ring where
  /-- L, in ring stripes; 0 for an actuator without a ring. -/
  len : Nat := 0
  h : Nat := 0
  q : Nat := 0
  seq : Nat := 0
  /-- D of the actuator's internal format, 0 for an actuator without one. -/
  d : Nat := 0
  /-- Stripes from Q to H, oldest first. -/
  stripes : List RingStripe := []
  /-- Staged LBAs that wait for a ring stripe: LBA and version. -/
  stage : List (Nat × Nat) := []
  /-- Ring copies that could not be relocated at a seal: the usable length is that much shorter (R318). -/
  pinned : List RingStripe := []
  /-- Q as recorded in the system area (R77). -/
  qRec : Nat := 0
  /-- The close time of the staged sectors passed while the ring was full: they are written as soon as Q advances (R74, R75). -/
  due : Bool := false
deriving DecidableEq, Repr

/-- What a MOP issued by firmware is for. -/
inductive JobKind where
  | read
  /-- A rung of the ladder of its stripe. -/
  | rung (k : Nat)
  | release
  | band
  | conv
  | ring
  /-- A relocation into spare `k` of the band, or into pool stripe `k`. -/
  | spare (k : Nat)
  | pool (k : Nat)
  | merge
  | harvest
  /-- The rewrite in place of an internal stripe (R422). -/
  | rewrite
  /-- A stripe of the Almanac mirror, with the entries below a sequence number (R537). -/
  | mirror (next : Nat)
  | refreshRead
  | refreshCopy
  | refreshWrite
  /-- The foreground read of stripe 0 that captures a zone's reference table (R525). -/
  | capture
  /-- A Jubilee source read for link `k`. -/
  | jub (k : Nat)
  /-- A read that re-establishes the V of a band at power-up (R322). -/
  | refind
deriving DecidableEq, Repr

/-- Where the sectors of a stripe lie: the ZONE_TAG and the STRIPE_INDEX that they carry, the area, the track and the position
within the band or the region, and the stripes they take there (R61, R79, R311). -/
structure Site where
  tag : Nat := 0
  index : Nat := 0
  area : Nat := 0
  track : Nat := 0
  pos : Nat := 0
  stripes : Nat := 1
deriving DecidableEq, Repr

/-- A write packet that BUF holds for a stripe given to a MOP: its engine, the ZONE_TAG and the STRIPE_INDEX of its sector, the head
that writes it and its 4,112 bytes (R158, R172). -/
structure WritePkt where
  eng : Nat
  tag : Nat
  stripe : Nat
  head : Nat
  bytes : List Byte
deriving DecidableEq, Repr

/-- A MOP that firmware issues: TAG, engine, and what its descriptor is to say (Table 9.3). -/
structure Job where
  tag : Nat
  eng : Nat
  kind : JobKind
  /-- MOP opcode (Table 9.7). -/
  op : Nat
  /-- Zone number, or the ZONE_TAG of an internal region. -/
  zone : Nat
  stripe : Nat
  count : Nat := 1
  gen : Nat := 0
  area : Nat := 0
  alt : Bool := false
  fhDown : Bool := false
  shift : Nat := 0
  rung : Nat := 0
  mask : Nat := 0
  win : Bool := false
  /-- The class of the profile it names is background, and the profile's ITER (R138, R303, Tables 4.3 and 4.11). -/
  background : Bool := false
  iter : Nat := 0
  /-- LBAs and versions that a write carries. -/
  keys : List (Nat × Nat) := []
  /-- Data slots that a write carries where no newer copy stands: of a merge, of a relocation, of a rewrite in place of an internal stripe,
  of a stripe of a mirror (R76, R308, R422, R533). -/
  data : List (Nat × List Byte) := []
  /-- The spare that a band's MOP names (Table 9.4). -/
  spare : Nat := 0
  /-- Where its first stripe lies. -/
  site : Site := {}
deriving DecidableEq, Repr

/-- A sector that BUF has taken from queue 60 + n (R279). -/
structure RxSec where
  eng : Nat
  tag : Nat
  stripe : Nat
  gpos : Nat
  info : List Byte
  q : SectorRec
  /-- 0, or the status of a poisoned packet (R364). -/
  bad : Nat := 0
deriving DecidableEq, Repr

/-- A ladder on a stripe (R298 to R307). Its slots are those of the place that the stripe is read from, row by row. -/
structure Ladder where
  zone : Nat
  stripe : Nat
  site : Site
  /-- The write generation that its sectors carry there. -/
  gen : Nat
  eng : Nat
  alt : Bool := false
  /-- The actuator of the first pass is not `eng`: rung 8 reads on the other of the pair (R303, R304). -/
  away : Bool := false
  /-- Every slot that failed and is not yet good, and those of them whose samples are held. -/
  failed : List Nat
  held : List Nat
  /-- First-pass statuses of the failed slots. -/
  first : List (Nat × Nat)
  /-- Good sectors: slot and information bytes. -/
  good : List (Nat × List Byte)
  /-- The data slots that the ladder must recover (R295). -/
  want : List Nat
  /-- The stages still to come, in the order of R298. -/
  rest : List Nat
  lastRung : Nat := 0
  /-- The last rung that was run (R306). -/
  tried : Nat := 0
  /-- The engine whose held sectors it acts on, which no other ladder does meanwhile; it waits for a ladder that does (R299). -/
  lock : Option Nat := none
  waiting : Bool := false
  /-- The class of the first pass (R303). -/
  background : Bool := false
  /-- The stage of the rebuild now under way (R298). -/
  rebuildAt : Nat := 60
  /-- A pass of rungs 7 to 9 has been read, and a rebuild not been tried since. -/
  passed : Bool := false
  /-- Wall time in ns of the first-pass failure (R305). -/
  at_ : Nat
  pol : RecPol
  limited : Bool := false
  harvest : Bool := false
  merge : Bool := false
  /-- It is for the refresh of its band (R420). -/
  fresh : Bool := false
  jub : Option Nat := none
  /-- It re-establishes V (R322). -/
  refind : Bool := false
  /-- The TAG of the MOP or of the rebuild that the ladder waits for. -/
  tag : Option Nat := none
deriving DecidableEq, Repr

/-- A relocation (R308 to R313). -/
structure Reloc where
  zone : Nat
  stripe : Nat
  eng : Nat
  tries : Nat := 0
  max : Nat := 3
  started : Bool := false
  /-- The write that spent its retries: what waited for it waits for the relocation (R313). -/
  job : Option Job := none
  /-- Pool stripes it takes, where its stripes are those of a protective copy (R311, R420); 0 for what its format asks for. -/
  rows : Nat := 0
  /-- It carries the ring copies of a sealed band's stripe V: into a spare, then into the pool (R318). -/
  tail : Bool := false
  toPool : Bool := false
  /-- A write of the stripe waits for its end (R312). -/
  again : Bool := false
  /-- LBAs and versions it carries. -/
  keys : List (Nat × Nat) := []
  /-- The recovered stripe: user bytes by data slot (R308). -/
  data : List (Nat × List Byte) := []
deriving DecidableEq, Repr

/-- It is the relocation of a failed write (R313). -/
def Reloc.write (r : Reloc) : Bool := r.job.isSome

/-- A sector buffer of a host write that is still held: port, LBA, sectors (Table 12.3). -/
structure BufHold where
  port : Nat
  key : Nat
  n : Nat
deriving DecidableEq, Repr

/-- An entry of a conventional spare pool map (Table 10.4). -/
structure PoolEnt where
  zone : Nat
  stripe : Nat
  pool : Nat
  gen : Nat
  count : Nat
deriving DecidableEq, Repr

/-- A zone's margin record (Table 15.2) and its stripe classes. -/
structure Margin where
  zone : Nat
  pass : Nat
  epoch : Nat := 0
  classes : Tbl Nat := []
  refreshed : Bool := false
  deferred : Bool := false
  readOnly : Bool := false
  ladder : Bool := false
deriving DecidableEq, Repr

/-- Harvest on an actuator (R414 to R418). -/
structure Harv where
  pass : Nat := 0
  /-- Epoch second at which the pass began. -/
  start : Nat := 0
  /-- The next stripe to read: zone and stripe. -/
  zone : Nat := 0
  stripe : Nat := 0
  /-- Stripes read in the pass, and how many of each class. -/
  read : Nat := 0
  counts : Tbl Nat := []
  behind : Bool := false
  /-- The band being refreshed. -/
  refresh : Option Nat := none
  /-- Data slots of that band that BUF holds, the next stripe to be read, and the stripes of the copy that have verified (R420). -/
  copy : Tbl (List Byte) := []
  copied : Nat := 0
  saved : Nat := 0
  /-- Stripes deferred to Harvest (R310). -/
  queue : List (Nat × Nat) := []
  /-- Nanoseconds of Harvest MOPs in the running second, that second, and when the MOP under way was issued (R415). -/
  duty : Nat := 0
  dutySec : Nat := 0
  issued : Nat := 0
  margins : List Margin := []
deriving DecidableEq, Repr

/-- The Harvest descriptor in force (Table 15.1). -/
structure HarvCfg where
  period : Nat := 90
  refreshClass : Nat := 6
  noticeClass : Nat := 9
  duty : Nat := 5
  wake : Bool := true
  rungEn : Nat := 0x1FF
  reallocRung : Nat := 6
  refreshCount : Nat := 1
  catchup : Nat := 7
deriving DecidableEq, Repr

/-- A value of a Key Value namespace: key, length, and the LBAs that hold it (R60, R394). -/
structure KvEnt where
  nsid : Nat
  key : List Byte
  len : Nat
  lba : Nat
  n : Nat
deriving DecidableEq, Repr

/-- A namespace's reservation (Table 13.3): generation, type (0 for none), holder and registrants by host. -/
structure Rsv where
  nsid : Nat
  gen : Nat := 0
  type_ : Nat := 0
  holder : Option Nat := none
  keys : List (Nat × Nat) := []
  ptpl : Bool := false
deriving DecidableEq, Repr

/-- What Sintity keeps in its memories and in the system area, as far as the spec gives it. -/
structure Fw where
  spaces : List Nspace := []
  zones : Tbl Zone := []
  dirty : Tbl (Option Dirty) := []
  clean : Tbl (Option (List Byte)) := []
  /-- LBAs of conventional and Key Value namespaces written since the last Format (R398). -/
  written : Tbl Bool := []
  /-- LBAs that read as unrecovered until they are rewritten (R313). -/
  bad : List Nat := []
  rings : Tbl Ring := []
  ver : Nat := 0
  jobs : List Job := []
  nextTag : Nat := 0
  rx : List RxSec := []
  ladders : List Ladder := []
  relocs : List Reloc := []
  pool : Tbl (List PoolEnt) := []
  /-- Pool stripes of each actuator, and those in use. -/
  poolLen : Tbl Nat := []
  poolUsed : Tbl (List Nat) := []
  bufs : List BufHold := []
  /-- The write packets of stripes given to MOPs, which BUF keeps until they are not to be written again (R172, R177). -/
  packets : List WritePkt := []
  /-- Conventional stripes, by 65,536 × zone + stripe, that have been written on media since the last Format. -/
  formed : Tbl Bool := []
  harv : Tbl Harv := []
  /-- Acknowledged zones of a Jubilee source with RELEASE that are still to be reset (R433). -/
  release : List Nat := []
  harvCfg : HarvCfg := {}
  kv : List KvEnt := []
  rsv : List Rsv := []
  /-- ANA states that are Non-optimized, by group and port (R382). -/
  ana : List (Nat × Nat) := []
  /-- The order number of the next capsule (R393). -/
  order : Nat := 0
  /-- Asynchronous events that wait for a request, by port. -/
  events : List (Nat × Nat) := []
  /-- Changed zones and changed namespaces since their logs were last read, by port. -/
  changed : List (Nat × Nat) := []
  /-- The shared staging area: owner, bytes by offset, Tick of the last write (R548). -/
  staged : Tbl (List Byte) := []
  stageOwner : Nat := 0
  stageAt : Nat := 0
  /-- An activation waits: the context of its Firmware Commit plus 1, 0 for a tunnelled one, the slot, its start in ns (R408). -/
  activate : Option (Nat × Nat × Nat) := none
  /-- The slot that the next controller reset activates (commit action 2). -/
  pendingSlot : Option Nat := none
  /-- What the personality table says of the identity (Table 13.4). -/
  ident : Ident := {}
  /-- A personality table, or the stand-alone default, has been taken since firmware last started; partitions refused or absent:
  bit 0 Ordo and servo, bit 1 calibration defaults (R482). -/
  tableHeld : Bool := false
  mediaBad : Nat := 0
  /-- Actuators that firmware of the stand-alone default is still to load, once the spindle is AT_SPEED (R483). -/
  loadAll : List Nat := []
  /-- Masks of the heads populated on each actuator, and the staging ring's close time in µs (R72). -/
  heads : List Nat := []
  closeUs : Nat := 100
  /-- What the Ordo and servo partition gives: engine, word and value of each Ordo store word, and words of the servo memory,
  which firmware loads again after a power level that took them (R268, R457). -/
  ordoImg : List (Nat × Nat × W) := []
  svoImg : List (Nat × W) := []
  /-- Entries of the Reservation Notification log not yet read: port, type, NSID. -/
  rsvLog : List (Nat × Nat × Nat) := []
  /-- Network configuration by port, and the TLS PSK entries that are configured (R374, R376). -/
  net : Tbl (List Byte) := []
deriving DecidableEq, Repr

/-- A zone between its ZONE_BEGIN and its acknowledgement or failure (R429 to R433). -/
structure JubZone where
  /-- Plan index, and the zone of this end. -/
  idx : Nat
  zone : Nat
  srcZone : Nat := 0
  gen : Nat := 0
  g : Nat := 0
  p : Nat := 0
  lbas : Nat := 0
  full : Bool := false
  byCtrl : Bool := false
  /-- Stripes sent (source) or accepted (successor), with the CRC fields of the last accepted copy. -/
  stripes : Tbl (Option (List W)) := []
  /-- The next stripe to send. -/
  next : Nat := 0
  /-- Refusals of each stripe (R432). -/
  naks : Tbl Nat := []
  /-- Stripes that have been read and are to be sent. -/
  again : List Nat := []
  /-- Sectors read and not yet sent (source), or accepted and not yet written (successor), by stripe. -/
  data : Tbl (List (List Byte)) := []
  ended : Bool := false
  failed : Nat := 0
  /-- ZONE_BEGIN has been sent (source). -/
  begun : Bool := false
  /-- The successor has failed it, and has sent ZONE_FAIL. -/
  chainBad : Bool := false
  /-- The next stripe to be written (successor). -/
  wr : Nat := 0
  /-- Stripes to be read and sent again (R430, R432). -/
  redo : List Nat := []
  /-- The write pointer offset that the last TAIL stripe sent covers, 0 for none; stripes whose last copy came with TAIL. -/
  tailAt : Nat := 0
  tails : List Nat := []
  /-- Final LBAS, STRIPES and CHAIN of a ZONE_END that has come. -/
  fin : Option (Nat × Nat × W) := none
deriving DecidableEq, Repr

/-- A link of JUB and its session (R423 to R437). -/
structure JubLink where
  /-- Training step of Table 3.11, 0 for none. -/
  step : Nat := 0
  rx : Tbl RxLane := []
  tx : Tbl TxLane := []
  /-- Order numbers of the next sequenced flit sent and delivered (R424). -/
  txNext : Nat := 0
  rxNext : Nat := 0
  /-- Flits accepted ahead of order, by order number. -/
  early : Tbl (Option (List Byte)) := []
  /-- A message is open: a MSG flit without SUB[0] has come (R427). -/
  msgOpen : Bool := false
  plan : List PlanEnt := []
  planOk : Bool := false
  /-- HELLO has been sent, and has come. -/
  sent : Bool := false
  got : Bool := false
  peerResume : W := 0xFFFFFFFF
  peerSession : W := 0
  /-- The session and done index recorded in the system area for resumption (R434). -/
  recSession : Option W := none
  recPlan : List PlanEnt := []
  recDone : W := 0xFFFFFFFF
  /-- GRANT as received or sent, stripes sent, and stripes received (R429). -/
  grant : Nat := 0
  sentStripes : Nat := 0
  gotStripes : Nat := 0
  zones : List JubZone := []
  /-- Plan indices committed or failed (R433). -/
  done : List Nat := []
  nextIdx : Nat := 0
  /-- JUB_CFG as in force in the session (R440). -/
  cfg : W := 0x03C10034
  /-- The state that a Held session returns to. -/
  heldFrom : Nat := 0
  /-- The link has been brought up since ENABLE rose: its presets are stored. -/
  presets : Bool := false
deriving DecidableEq, Repr

/-- VGL's own state (R463 to R468); its registers and the bank stand in `State.regs`. -/
structure Vgl where
  epoch : D := 0
  /-- Upper word latched by a read of VGL_EPOCH_LO. -/
  epochLatch : W := 0
  /-- VGL_EPOCH_LOAD_LO as written. -/
  loadLo : W := 0
  /-- Tick in eighths of a nanosecond (R467), and the upper word latched by a read of PWR_TICK_LO. -/
  tick8 : Nat := 0
  tickLatch : W := 0
  /-- FAB has been powered since the last Epoch edge: Tick is to be reloaded (R468). -/
  reload : Bool := false
  /-- An anchor has been latched since the Vigil bank was lost (R467, R468). -/
  anchored : Bool := false
  /-- Epoch and Tick at which the running measurement of LEAP began (R467). -/
  leapFrom : Option (Nat × Nat) := none
  /-- The Vigil save memory, 16,384 words (R452). -/
  save : Tbl W := []
  /-- Levels whose last entry saved what it turns off: what their exits restore (R453, R455). -/
  saved : List Nat := []
  /-- The supply monitor has recorded a fall below 1.40 V since the last boot check (R461, R465). -/
  fell : Bool := false
  /-- A Vigil power-on reset has come since the last power-on reset (CLK_CAUSE.VIGIL_POR). -/
  por : Bool := false
  /-- Nanoseconds counted by the Vigil oscillators. -/
  wall : Nat := 0
  /-- VGL_MAIN_EN is driven low (R460). -/
  mainLow : Bool := false
deriving DecidableEq, Repr

/-- PWR's own state (R441 to R458). Domains are numbered 0 MGMT, 1 CPU, 2 FAB, 3 PEER, 4 SPIN, 5 SLICE, 6 RT and 8 + p HOSTp
(Table 16.1). -/
structure Pwr where
  /-- The deepest level whose idle timer has expired since the controller became idle (R444). -/
  idle : Nat := 0
  /-- The level of the latest Power Management request, 0 for none (R446). -/
  psReq : Nat := 0
  /-- An entry under way: the level being entered and the step that comes next (R448). -/
  entry : Option (Nat × Nat) := none
  /-- An exit under way: the level being left and the step that comes next. -/
  exit : Option (Nat × Nat) := none
  /-- Where the entry or exit under way ends. -/
  goal : Nat := 0
  /-- An exit to PL0 follows the entry under way (R449). -/
  wake : Bool := false
  /-- A bit for each domain that is off. -/
  off : Nat := 0
  /-- Uslen ports that were asleep, and so carry a wake pattern, when their domain went off (R107, R108). -/
  asleep : List Nat := []
  /-- The controller has been in PL4 since it was last at PL0: the Keep Alive Timers stand (R450). -/
  kaStop : Bool := false
  /-- PL5-hold, with the level it left (R458). -/
  hold : Option Nat := none
  /-- The main rails are in range. -/
  rails : Bool := true
  /-- T when the entry or exit under way began (Table 16.4). -/
  tAt : Nat := 0
  /-- Engines whose RUN, and actuators whose heads, the entry took down: the exit brings them back. -/
  runs : Nat := 0
  loads : Nat := 0
deriving DecidableEq, Repr

/-- A flash operation that runs (R489 to R497). -/
inductive FlsOp where
  | program (block page : Nat) (data : List Byte)
  /-- ALM's own program of a data page. -/
  | almanac (index : Nat) (data : List Byte)
  | erase (block : Nat)
deriving DecidableEq, Repr

/-- A flash read that waits for its bank (R486): requester, block, page, finding and whether it fetches. -/
structure FlashWait where
  src : Requester
  block : Nat
  page : Nat
  find : Nat
  fetch : Bool
deriving DecidableEq, Repr

/-- Blocks that a part ships programmed: slot A, the Ordo and servo partition, the calibration defaults and the recovery module (R5,
Table 17.4). DESIGN CHOICE (log 18): block 144 too, for a commit record of manufacture (Table 17.6). -/
def shippedBlocks : List Nat := List.range 64 ++ List.range' 128 16 ++ [144] ++ List.range' 160 12

/-- FLS and its flash and OTP row (R485 to R502). -/
structure Fls where
  /-- Blocks that hold what the part shipped with, but for the pages listed. -/
  shipped : List Nat := shippedBlocks
  /-- Programmed pages, by 512 × block + page; one not listed is erased, but in a block of `shipped`. -/
  pages : Tbl (List Byte) := []
  /-- FLS's table of highest programmed pages, plus 1, by block; 0 for an erased block (R491). -/
  top : Tbl Nat := []
  op : Option FlsOp := none
  /-- The erase that SUSPEND has suspended. -/
  suspended : Option Nat := none
  /-- Time of the last RESUME (R496). -/
  resumeAt : Option Nat := none
  /-- GOs that wait for Ready, oldest first: the command and its requester (R18, R509). -/
  held : List (W × Requester) := []
  /-- The bank of the last instruction fetch of each application core, management core and DBG (R490). -/
  fetch : Tbl (Option Nat) := []
  /-- Reads of a bank on which a program or erase runs, oldest first (R486). -/
  reads : List FlashWait := []
  /-- Blocks recorded bad (R494). -/
  bad : List Nat := []
  /-- The OTP row; manufacture has locked sectors 0, 1, 2 and 6 (R3, R502, Table 17.7). -/
  otp : Tbl W := [(896, 0x4C4F434B), (897, 0x4C4F434B), (898, 0x4C4F434B), (902, 0x4C4F434B)]
  /-- FLS_OTP_DATA as written. -/
  otpData : W := 0
deriving DecidableEq, Repr

/-- A reset that has been started and waits (R475 to R477). -/
inductive RstWait where
  | warm
  | escalated
  /-- Block resets of ACT, SVO or MOT. -/
  | blocks (mask : Nat)
deriving DecidableEq, Repr

/-- CLK, the watchdog and the boot ROM (R472 to R484). -/
structure Clk where
  /-- A warm, escalated or block reset waits for the retract (R475, R477). -/
  wait : Option RstWait := none
  /-- A control reset runs and waits for the engines to halt (R476). -/
  control : Bool := false
  /-- The application cluster is in reset. -/
  cpuReset : Bool := false
  /-- Time of the last kick, or of the enable, and the TIMEOUT in force since then, in ms (R478, R479, R509). -/
  kickAt : Nat := 0
  timeout : Nat := 2000
  /-- IDES_WARN has been raised since then. -/
  warned : Bool := false
  /-- The application core that last kicked, none since the cluster left reset (R478). -/
  kicker : Option Nat := none
  /-- The boot ROM step that comes next, 1 to 8; 0 once it has handed over (R480). -/
  boot : Nat := 1
  /-- The boot is of a cluster reset: it began at step 6. -/
  cluster : Bool := false
  /-- The slot that step 6 selected: 0 A, 1 B, 2 recovery. -/
  slot : Nat := 0
  /-- Only the management port is served: an OTP sector failed its CRC (Table 17.2). -/
  mgtOnly : Bool := false
  /-- Block resets that wait for the flush of ALM's open page (R589). -/
  almReset : Bool := false
  /-- FLS is to be reset when its operation ends (R497). -/
  flsHeld : Bool := false
deriving DecidableEq, Repr

/-- SEC's key slots and the TLS key table (R503 to R505): what each holds, as its wrapped form. -/
structure Sec where
  media : Tbl (List W) := []
  psk : Tbl (List W) := []
  /-- The command that runs: operation, slot, PSK. -/
  cmd : Option (Nat × Nat × Bool) := none
  /-- The key set of the key store: namespace and wrapped key; PSK entry and wrapped key (R506). -/
  store : List (Nat × List W) := []
  pskStore : List (Nat × List W) := []
  /-- Hash and identity of each configured PSK entry (R376, Table 19.6). -/
  pskIds : Tbl (List Byte) := []
deriving DecidableEq, Repr

/-- The straps, sampled at power-on and pin reset (R563), and DBG's state (chapter 20). -/
structure Dbg where
  testEn : Bool := false
  mgtMode : Bool := false
  tapActive : Bool := false
  /-- The instruction in the TAP's instruction register: 0xFF is BYPASS. PRESUMED: IEEE 1149.1 selects IDCODE at a TAP reset. -/
  ir : Nat := 0x02
  /-- Boundary-scan cells as loaded, and the 1-bit bypass register. -/
  boundary : List Bool := []
  bypass : Bool := false
  /-- The outputs follow the boundary register, are held, or float. -/
  outputs : Nat := 0
  /-- The reply of the last DBG_ACCESS: data and status. -/
  reply : Nat × Nat := (0, 0)
deriving DecidableEq, Repr

/-- A run record of the calibration history: actuator, full scope, the temperatures at its start and at its end in 1/16 °C, and the
registers of the calibration set as it left them (R516). -/
structure CalRun where
  act : Nat
  full : Bool
  start : Nat
  last : Nat
  values : List (Nat × W)
deriving DecidableEq, Repr

/-- An entry of the reference tables: its header, and four words for each gang position (R524). -/
structure RefEnt where
  zone : Nat
  gen : Nat
  temp : Nat := 0
  epoch : Nat := 0
  words : List W := []
deriving DecidableEq, Repr

/-- Hidden state of CAL (chapter 18). The shadow banks stand in CAL_SHADOW, the rest in CAL's registers. -/
structure Cal where
  /-- A bank that applies: the entry to be written next and the count (R518). -/
  apply : Tbl (Option (Nat × Nat)) := []
  /-- The pending or running calibration of the actuator has the full scope (R515). -/
  full : Tbl Bool := []
  /-- Epoch second at which the actuator's last run began, plus 1; 0 for none (R514). -/
  lastRun : Tbl Nat := []
  /-- Run records of the calibration history (R516). -/
  history : List CalRun := []
  /-- Reference tables captured (R524, R525). -/
  refTables : List RefEnt := []
  /-- Consecutive readings of 118.0 °C or more (R578). -/
  hot : Nat := 0
  /-- THERMTRIP_N is driven low (R578). -/
  tripped : Bool := false
  /-- Registers written whose boundary of R511 has not come: address and the value still in force. -/
  waiting : Tbl (Option W) := []
  /-- The scope of the run under way or last begun: full or not (R515). -/
  runFull : Tbl Bool := []
deriving DecidableEq, Repr

/-- The token bucket of one Almanac code (R532). A bucket not touched since ALM's reset holds the 8
tokens of class 0 (R531, R555). -/
structure Bucket where
  tokens : Nat := 8
  /-- The time the bucket was last refilled to, in Epoch seconds. -/
  last : Nat := 0
  /-- Records suppressed since the last accepted one. -/
  supp : BitVec 32 := 0
deriving DecidableEq, Repr

/-- An accepted Almanac entry (Table 19.1). -/
structure AlmEntry where
  seq : D
  code : BitVec 16
  flags : BitVec 16
  epoch : D
  payload : List Byte
  crc : W
  /-- The Almanac data page that holds its last byte; none for an entry accepted after the flash filled (R533, R536). -/
  page : Option Nat
deriving DecidableEq, Repr

/-- The recorder's own state (R528 to R537, R589). -/
structure Alm where
  /-- Next sequence number (R529). -/
  seq : D := 0
  /-- Upper word latched by a read of ALM_SEQ_LO (R554). -/
  seqLatch : W := 0
  /-- Token buckets by code (R532). -/
  buckets : Tbl Bucket := []
  /-- Epoch seconds of the last reset of ALM: every bucket's starting time. -/
  bucketStart : Nat := 0
  /-- Bytes of the open flash page after its lead (R533, R534). -/
  page : List Byte := []
  /-- Offset of the first entry that begins in the open page, 0xFFFF if none (R533). -/
  pageFirst : Nat := 0xFFFF
  /-- Pages closed and waiting for the flash operation slot (R534). -/
  progQ : List (List Byte) := []
  /-- Every entry accepted and not lost, oldest first: those whose page lies below ALM_FLASH_PAGE are in
  flash, the others in the open or a waiting page, in LPDDR6 and in mirrors (R533, R534, R536). -/
  entries : List AlmEntry := []
  /-- Per actuator, the highest SEQ every entry up to which the mirror holds, plus 1 (R537, Table 19.6). -/
  mirrorSeq : Tbl Nat := []
  /-- The power-loss window of R535 is open. -/
  ploss : Bool := false
  /-- A flush waited for by a reset (R589) has not been programmed yet. -/
  flushWait : Bool := false
  /-- The words of ALM_APP, written and not readable (R554). -/
  app : Tbl W := []
deriving DecidableEq, Repr

/-- The management port (R541 to R551): reassembly, and the requests that wait for an answer. -/
structure MgtPort where
  /-- Messages being reassembled, by source EID × 16 + tag: type, bytes so far, packet sequence expected next. -/
  asm_ : Tbl (Option (Nat × Nat × Nat)) := []
  /-- Requests outstanding, oldest first: tag and message type (R542). -/
  msgs : List (Nat × Nat) := []
  /-- The bus frequency that Configuration Set has chosen: 1 for 100 kHz, 2 for 400 kHz, 3 for 1 MHz (R543). -/
  freq : Nat := 1
  /-- The target of the image or partition that is being staged (R548). -/
  target : Nat := 0
deriving DecidableEq, Repr

/-- What the block has driven out of its interfaces, so that a statement can speak of it. Nothing in
the model reads it back. -/
inductive Out where
  /-- A packet given to the consumer of a queue, with its POISON bit. -/
  | packet (q : Nat) (body : Body) (poison : Bool)
  /-- The status that a producer gets for a packet or a reservation that a queue refuses (Table 12.6). -/
  | poolStatus (q status : Nat)
  /-- A LOST notice given to the consumer of a class (R365). -/
  | lostNotice (q n : Nat)
  /-- A flit sent or resent on a lane of a Uslen port. -/
  | flit (port lane : Nat) (rpl : Bool) (bytes : List Byte)
  /-- A TRAIN flit naming the link time of a rate switch (R106). -/
  | trainSwitch (port : Nat) (at_ : D)
  /-- The wake pattern of R108. -/
  | wakePattern (port : Nat)
  /-- A down frame of an actuator link (Table 7.5). -/
  | ampFrame (act : Nat) (frame : BitVec 96)
  /-- A Cysel register value returned to its requester (Table 3.5). -/
  | headReply (port head addr data status : Nat)
  /-- A BUF access has been answered: the fabric address after its last byte, status, bytes read (R327). -/
  | bufReply (addr status : Nat) (bytes : List Byte)
  /-- The parity engine has finished a request with a status (R346). -/
  | parityResult (tag : Nat) (rebuild : Bool) (status : Nat)
  /-- A Jubilee message: link, MTYPE, PLAN_INDEX, body (Table 15.3). -/
  | jubMsg (link mtype plan : Nat) (body : List Byte)
  /-- A Jubilee flit sent or resent on a lane of a link. -/
  | jubFlit (link lane : Nat) (rpl : Bool) (bytes : List Byte)
  /-- A flash page has been read (R487). -/
  | flashData (block page : Nat) (bytes : List Byte)
  /-- A RoCEv2 SEND has been answered with an RNR NAK carrying a timer of 0.64 ms (R377). -/
  | rnrNak (port qp : Nat)
  /-- A Brodvon or NVMe-MI reply on the management port: TAG or message tag, status, data (R543, R545). -/
  | mgtReply (tag status : Nat) (data : List Byte)
  /-- What a tunnelled Admin command returns (R543). -/
  | miReply (tag : Nat) (r : HostReply)
deriving DecidableEq, Repr

/-- Why a command stops the machine. No command of this model faults: every access the spec describes
has an effect, and an event that cannot occur in the present state changes nothing. -/
inductive Fault where
  /-- Raised by nobody; kept so that the type is inhabited. Safe. -/
  | none
deriving DecidableEq, Repr

/-- Why a command is refused. -/
inductive Refusal where
  /-- Raised by `exec` for a command that has no meaning yet. Safe: the machine stops. -/
  | notModelled (mnemonic : String)
deriving DecidableEq, Repr

/-- The controller's state. -/
structure State where
  /-- Every register (Table 21.1), by byte address. -/
  regs : Tbl W := []
  /-- The zone groups of the format in force (R58). -/
  groups : List Group := []

  /-- Uslen ports 0 to 3. -/
  ulk : Tbl UlkPort := []
  /-- Link time (R85): SVO_CLK cycles of 1 ns. -/
  ltime : D := 0

  /-- Read channels 0 to 3. -/
  chn : Tbl Chn := []

  /-- Write paths 0 to 3. -/
  wpa : Tbl Wpa := []

  /-- The servo control engine. -/
  svo : Svo := {}

  /-- Actuators 0 to 3. -/
  act : Tbl Act := []
  /-- MOPs waiting at the governor, in order of arrival (R218). -/
  gov : List GovWait := []

  /-- The spindle motor. -/
  mot : Mot := {}

  /-- Ordo engines 0 to 3. -/
  ord : Tbl Ord := []

  /-- Lantern, LPDDR6 and the buffer manager. -/
  lnt : Lnt := {}
  mem : Mem := {}
  buf : Buf := {}

  /-- The queues of the cell pool (R353). -/
  cellq : Tbl CellQ := []

  /-- Host ports 0 to 3. -/
  hif : Tbl HifPort := []
  /-- The command contexts 0 to 4,095 (R392). -/
  ctx : Tbl (Option Ctx) := []
  /-- Firmware's own state. -/
  fw : Fw := {}

  /-- The links of JUB. -/
  jub : Tbl JubLink := []

  /-- The Vigil domain and PWR. -/
  vgl : Vgl := {}
  pwr : Pwr := {}

  /-- Clocks and resets, the flash, the keys, and the test port. -/
  clk : Clk := {}
  fls : Fls := {}
  sec : Sec := {}
  dbg : Dbg := {}

  /-- Calibration. -/
  cal : Cal := {}

  /-- The Almanac recorder (R528 to R537). -/
  alm : Alm := {}
  /-- The management port. -/
  mgt : MgtPort := {}
  /-- What has been driven out, newest first. -/
  out : List Out := []
  /-- The model's own counter of free values drawn so far (not state of the spec). -/
  free : Nat := 0
  /-- The commands that are waiting, first in, first out. -/
  pending : List Instr := []
deriving DecidableEq, Repr

/-- The machine right after reset: every register and table at its reset value, the queue empty. -/
def State.reset : State := {}

end Sys2Proof.Machine
end

