-- ==== Sys2Proof/Machine/Flags.lean ====
section
/-!
DEFINITION. Register words, their fields and flags: the one place where registers are read and written by
the hardware, and where interrupt flags are raised.
-/
namespace Sys2Proof.Machine

/-- The hardware's view of a register. -/
def State.reg (s : State) (a : Nat) : W := tget regReset s.regs a

/-- Put a word into a register. -/
def State.setReg (s : State) (a : Nat) (v : W) : State := { s with regs := tset regReset s.regs a v }

/-- A field of a register. -/
def State.rfld (s : State) (a lo len : Nat) : Nat := fld (s.reg a) lo len

/-- Put a value into a field of a register. -/
def State.setRfld (s : State) (a lo len v : Nat) : State := s.setReg a (setFld (s.reg a) lo len v)

/-- A bit of a register. -/
def State.rbit (s : State) (a i : Nat) : Bool := bitAt (s.reg a) i

/-- Put a value into a bit of a register. -/
def State.setRbit (s : State) (a i : Nat) (b : Bool) : State := s.setReg a (putBit (s.reg a) i b)

/-- Set interrupt flag `i` of a W1C register (Table 0.5: hardware sets the bit). -/
def State.raise (s : State) (a i : Nat) : State := s.setRbit a i true

/-- Every register of `[lo, hi)` back at its reset value. -/
def State.dropRegs (s : State) (lo hi : Nat) : State := { s with regs := tdrop s.regs lo hi }

/-- The registers of a block's window take their Reset values (R472); RV words lie in VGL's window. -/
def State.clearWindow (s : State) (blk : Nat) : State := s.dropRegs (regAddr blk 0) (regAddr blk 0 + 0x10000)

/-- Draw a fresh free value number: the model's counter advances. -/
def State.drawn (s : State) : State := { s with free := s.free + 1 }

/-- Record something driven out of an interface. -/
def State.emit (s : State) (o : Out) : State := { s with out := o :: s.out }

/-- Do something only where a condition holds. -/
def State.onlyIf (s : State) (c : Bool) (f : State → State) : State := if c then f s else s

/-- Do something for every element of a list, in order. -/
def State.each {α : Type} (s : State) : List α → (State → α → State) → State
  | [], _ => s
  | x :: xs, f => State.each (f s x) xs f

/-- A register of Table 18.1 as it is in force: the value before a write whose boundary has not come (R511). -/
def State.effReg (s : State) (a : Nat) : W := (tget (fun _ => none) s.cal.waiting a).getD (s.reg a)

/-- A write of such a register: it waits while `busy`. -/
def State.calWait (s : State) (a : Nat) (busy : Bool) (v : W) : State :=
  let old := s.effReg a
  let s := s.onlyIf busy fun s => { s with cal := { s.cal with waiting := tset (fun _ => none) s.cal.waiting a (some old) } }
  s.setReg a v

/-- The boundary of registers has come: what was written to them is in force. -/
def State.calTaken (s : State) (p : Nat → Bool) : State :=
  { s with cal := { s.cal with waiting := s.cal.waiting.filter fun e => !p e.1 } }

/-- Training stores presets; the receivers' values are not the spec's (R104, R511). -/
def State.storePresets (s : State) (addr : Nat → Nat) (lanes : List Nat) : State :=
  s.each lanes fun s l => ((s.setReg (addr l) (Config.freeWord s.free)).drawn).calTaken fun a => a == addr l

end Sys2Proof.Machine
end

