-- ==== Sys2Proof/Machine/Ops.lean ====
section
/-!
DEFINITION. Operations shared by every family: statistics counters (R538), violations (R539), the cell
pool's queues (R350 to R366) and submission to the Almanac (R529).
-/
namespace Sys2Proof.Machine

/-! ## Block indices (Table 1.1); an instance counts modulo 4, so that no number leaves the windows of its blocks -/

def bVGL := 0x00
def bPWR := 0x01
def bCLK := 0x02
def bFLS := 0x03
def bALM := 0x04
def bMGT := 0x05
def bCAL := 0x06
def bHIF (p : Nat) := 0x08 + p % 4
def bJUB := 0x0C
def bQMG := 0x0D
def bBUF := 0x0E
def bLNT := 0x0F
def bMEM := 0x10
def bCPL := 0x11
def bSEC := 0x12
def bULK (n : Nat) := 0x14 + n % 4
def bCHN (n : Nat) := 0x18 + n % 4
def bWPA (n : Nat) := 0x1C + n % 4
def bSVO := 0x20
def bMOT := 0x21
def bORD (n : Nat) := 0x22 + n % 4
def bACT := 0x26
def bDBG := 0x2F

/-! ## The cell pool (chapter 12) -/

def cplCtrl := regAddr bCPL 0x0
def cplStatus := regAddr bCPL 0x4
def cplInt := regAddr bCPL 0x8
def cplQCfg (q : Nat) := regAddr bCPL (0x4000 + 0x10 * q)
def cplQShare (q : Nat) := regAddr bCPL (0x4004 + 0x10 * q)

/-- A queue of the pool. -/
def State.cq (s : State) (q : Nat) : CellQ := tget (fun _ => {}) s.cellq q

/-- Put a queue. -/
def State.setCq (s : State) (q : Nat) (c : CellQ) : State := { s with cellq := tset (fun _ => {}) s.cellq q c }

/-- Cells a packet of `n` payload bytes takes (R350). -/
def cellsOf (n : Nat) : Nat := ceilDiv n 248

/-- Cells charged to a queue (R352). -/
def CellQ.charged (c : CellQ) : Nat := (c.pkts.map fun p => cellsOf p.bytes).sum

/-- Cells charged to a queue or reserved for it (R356). -/
def CellQ.held (c : CellQ) : Nat := c.charged + c.resv

/-- CPL_STATUS.INIT. -/
def State.poolInit (s : State) : Bool := s.rbit cplStatus 0

/-- CPL_STATUS.OUT_OF_SERVICE. -/
def State.poolOos (s : State) : Bool := s.rbit cplStatus 1

/-- The pool carries packets: it neither initialises nor is out of service (R365). -/
def State.poolUp (s : State) : Bool := !s.poolInit && !s.poolOos

/-- CPL_Qq_CFG.ENABLE. -/
def State.qEnabled (s : State) (q : Nat) : Bool := s.rbit (cplQCfg q) 0

/-- CPL_Qq_SHARE.MIN, and what of it is set aside: nothing for a queue that is not enabled (R356). -/
def State.qMin (s : State) (q : Nat) : Nat := s.rfld (cplQShare q) 0 16
def State.qOwn (s : State) (q : Nat) : Nat := if s.qEnabled q then s.qMin q else 0

/-- The packets of a queue that its consumer sees: none of queue 32 or above while the pool is down (R365). -/
def State.heads (s : State) (q : Nat) : List Pkt := if 32 ≤ q ∧ !s.poolUp then [] else (s.cq q).pkts

/-- CPL_Qq_SHARE.MAX. -/
def State.qMax (s : State) (q : Nat) : Nat := s.rfld (cplQShare q) 16 16

/-- The number of the queue whose SHARE register has this address, if any. -/
def shareQueue (a : Nat) : Option Nat :=
  let o := a - cplQShare 0
  if cplQShare 0 ≤ a ∧ o / 16 < 1024 ∧ o % 16 = 0 then some (o / 16) else none

/-- The sum of MIN over all enabled queues (R356); only written SHARE registers can contribute. -/
def State.minSum (s : State) : Nat :=
  (s.regs.map fun e => match shareQueue e.1 with
    | some q => if s.qEnabled q then fld e.2 0 16 else 0
    | none => 0).sum

/-- The shared remainder: 32,768 cells less the sum of MIN over enabled queues (R356). -/
def State.sharedRemainder (s : State) : Nat := 32768 - s.minSum

/-- Cells that queues hold beyond what is set aside for them (R356). -/
def State.sharedUsed (s : State) : Nat :=
  (s.cellq.map fun e => e.2.held - s.qOwn e.1).sum

/-- Whether queue `q` can take `n` more cells: neither its MAX nor the shared remainder is exceeded (R356, R357). -/
def State.qFits (s : State) (q n : Nat) : Bool :=
  let h := (s.cq q).held
  decide (h + n ≤ s.qMax q) &&
  decide (s.sharedUsed - (h - s.qOwn q) + (h + n - s.qOwn q) ≤ s.sharedRemainder)

/-- A class is carried by its fall-back chain: while the pool cannot carry it, and until the chain is
empty again (R365). -/
def State.onChain (s : State) (q : Nat) : Bool := !s.poolUp || !(s.cq q).chain.isEmpty

/-- A statistics counter (R538): its register, its sticky bit, the CNT_SAT interrupt of its block (if it
has one) and its width. -/
structure Ctr where
  addr : Nat
  sat : Nat
  satBit : Nat
  int : Nat
  intBit : Nat
  width : Nat := 32
deriving DecidableEq, Repr

/-- Advance a counter by one; the second part says whether it has now reached its maximum (R538). -/
def State.bump (s : State) (c : Ctr) : State × Bool :=
  let v := (s.reg c.addr).toNat
  let m := 2 ^ c.width - 1
  if v ≥ m then (s, false)
  else if v + 1 = m then
    (((s.setReg c.addr (BitVec.ofNat 32 m)).setRbit c.sat c.satBit true).raise c.int c.intBit, true)
  else (s.setReg c.addr (BitVec.ofNat 32 (v + 1)), false)

/-- Advance a counter by `n`. -/
def State.bumpBy (s : State) (c : Ctr) (n : Nat) : State × Bool :=
  let v := (s.reg c.addr).toNat
  let m := 2 ^ c.width - 1
  if n = 0 ∨ v ≥ m then (s, false)
  else if v + n ≥ m then
    (((s.setReg c.addr (BitVec.ofNat 32 m)).setRbit c.sat c.satBit true).raise c.int c.intBit, true)
  else (s.setReg c.addr (BitVec.ofNat 32 (v + n)), false)

/-- The CPL counter number `i` (Table 12.7). -/
def cplCtr (i : Nat) : Ctr := ⟨regAddr bCPL (0x60 + 4 * i), regAddr bCPL 0x74, i, cplInt, 6, 32⟩

/-- Parts of 64 bytes an item of `n` bytes takes on a chain (R366). -/
def partsOf (n : Nat) : Nat := ceilDiv n 64

/-- Stages of a chain in use. -/
def CellQ.stages (c : CellQ) : Nat := (c.chain.map fun p => partsOf p.bytes).sum

/-- The producers of a critical class that wait at a full chain: QMG, firmware, MGT and, DEDUCED, BUF
and JUB; SVO, ACT, MOT and the hardware Almanac sources do not (R366). -/
def chainWaits (q : Nat) : Bool := decide (q ≤ 6) || decide (q = 16) || decide (24 ≤ q)

/-- A whole packet enters its queue, using up reservations first (R355, R357). -/
def State.enterPkt (s : State) (q : Nat) (p : Pkt) : State :=
  let c := s.cq q
  (s.setCq q { c with pkts := c.pkts ++ [p], resv := c.resv - cellsOf p.bytes, pktCount := c.pktCount + 1 })

/-- An item enters a fall-back chain, waits for room, or is dropped and counted (R366). An item longer
than 16 parts is not carried. -/
def State.enterChain (s : State) (q : Nat) (p : Pkt) : State × Bool :=
  let c := s.cq q
  if 16 < partsOf p.bytes then (s, false)
  else if c.stages + partsOf p.bytes ≤ 16 ∧ c.waitPkts = [] then
    (s.setCq q { c with chain := c.chain ++ [p] }).bump (cplCtr 3)
  else if chainWaits q then (s.setCq q { c with waitPkts := c.waitPkts ++ [p] }, false)
  else
    let r := (s.setCq q { c with lost := c.lost + 1 }).bump (cplCtr 2)
    (r.1.raise cplInt 3, r.2)

/-- Whether a packet of `n` bytes can be written to a queue now: its cells are reserved, or fit (R356, R357). -/
def State.qRoom (s : State) (q n : Nat) : Bool :=
  decide (cellsOf n ≤ (s.cq q).resv) || s.qFits q (cellsOf n - (s.cq q).resv)

/-- A producer puts a packet: on the chain of a critical class that is carried by it, nowhere when the
queue is not enabled (CPL_QUEUE_DISABLED), in the queue when it fits, else it waits (R356, R365, R366). -/
def State.putPkt (s : State) (q : Nat) (p : Pkt) : State × Bool :=
  if q < 32 ∧ s.onChain q then s.enterChain q p
  else if !s.qEnabled q then (s, false)
  else if s.poolUp ∧ (s.cq q).waitPkts = [] ∧ s.qRoom q p.bytes then (s.enterPkt q p).bump (cplCtr 0)
  else (s.setCq q { s.cq q with waitPkts := (s.cq q).waitPkts ++ [p] }, false)

/-! ## Submission to the Almanac (chapter 19) -/

/-- The append queue of a block's source group (Table 12.2). DEDUCED: MEM is counted with the FAB-domain
blocks, and the management-plane blocks with the CPU group. -/
def appendQueue (blk : Nat) : Nat :=
  if 0x14 ≤ blk ∧ blk ≤ 0x1F then 18 + blk % 4
  else if 0x22 ≤ blk ∧ blk ≤ 0x25 then 18 + (blk - 0x22)
  else if blk = bSVO ∨ blk = bMOT ∨ blk = bACT then 22
  else if 0x08 ≤ blk ∧ blk ≤ 0x0C then 23
  else if 0x0D ≤ blk ∧ blk ≤ 0x12 ∨ blk = bCAL then 17
  else 16

/-- A record whose payload opens with block and instance (R530), followed by fields of (bytes, value). -/
def recordOf (code blk inst : Nat) (fields : List (Nat × Nat)) : AlmSub :=
  let pl := leBytes 2 blk ++ leBytes 1 inst ++ [0] ++ (fields.map fun f => leBytes f.1 f.2).flatten
  { code := BitVec.ofNat 16 code, length := BitVec.ofNat 16 pl.length, payload := pl }

/-- Bytes of a submitted record: header, payload, CRC (R528). -/
def subBytes (r : AlmSub) : Nat := 20 + r.payload.length

/-- Submit a record through an append queue; a CPL counter that saturates on the way sends its own
record behind it (R529, R538). -/
def State.submit (s : State) (q : Nat) (r : AlmSub) : State :=
  let p := s.putPkt q ⟨.alm r, subBytes r, false⟩
  if p.2 then
    let t := recordOf 0x8004 bCPL 0 [(4, bCPL), (4, 0x60)]
    (p.1.putPkt 17 ⟨.alm t, subBytes t, false⟩).1
  else p.1

/-- Append an Almanac record of a block's event. -/
def State.almanac (s : State) (code blk inst : Nat) (fields : List (Nat × Nat)) : State :=
  s.submit (appendQueue blk) (recordOf code blk inst fields)

/-- Advance a statistics counter; on saturation ALM receives COUNTER_SATURATED (R538). -/
def State.count (s : State) (c : Ctr) : State :=
  let r := s.bump c
  if r.2 then
    let b := (c.addr - 0x10000000) / 0x10000
    r.1.almanac 0x8004 b 0 [(4, b), (4, (c.addr - 0x10000000) % 0x10000)]
  else r.1

/-- Advance a statistics counter by `n`. -/
def State.countBy (s : State) (c : Ctr) (n : Nat) : State :=
  let r := s.bumpBy c n
  if r.2 then
    let b := (c.addr - 0x10000000) / 0x10000
    r.1.almanac 0x8004 b 0 [(4, b), (4, (c.addr - 0x10000000) % 0x10000)]
  else r.1

/-- A violation: its counter advances and its block's violation interrupt, where it has one, is set; it
has no other effect (R539). -/
def State.violate (s : State) (c : Ctr) (int bit : Nat) : State := (s.count c).raise int bit

/-- The MGT violation counter `v` (Table 19.4). -/
def mgtViol (v : Nat) : Ctr := ⟨regAddr bMGT (0x100 + 4 * v), regAddr bMGT 0x180, v, regAddr bMGT 0x8, 4, 32⟩

/-- A violation counted by MGT under source `v` (Table 19.4). -/
def State.mgtViolate (s : State) (v : Nat) : State := s.violate (mgtViol v) (regAddr bMGT 0x8) 1

/-- Put a packet, with its counter's record if one saturates. -/
def State.put (s : State) (q : Nat) (p : Pkt) : State :=
  let r := s.putPkt q p
  if r.2 then r.1.almanac 0x8004 bCPL 0 [(4, bCPL), (4, 0x60)] else r.1

/-- Post an event to firmware through a critical queue (Table 12.2). -/
def State.event (s : State) (q code : Nat) (args : List Nat) : State :=
  s.put q ⟨.event code args, 4 + 4 * args.length, false⟩

/-! ## The SRAM code (R331 to R333) -/

/-- The error was not corrected. -/
def eccBad (f : EccFind) : Bool := f == .uncorrectable || f == .addressMismatch

/-- The counter of corrections of macro group `g` (Table 11.6). -/
def sramCe (g : Nat) : Ctr := ⟨regAddr bBUF (0x100 + 4 * g), regAddr bBUF 0x200, g, regAddr bBUF 0x8, 6, 32⟩

/-- The counter of uncorrected errors of macro group `g`. -/
def sramUe (g : Nat) : Ctr := ⟨regAddr bBUF (0x180 + 4 * g), regAddr bBUF 0x204, g, regAddr bBUF 0x8, 6, 32⟩

/-- The BUF_LAST_ERR word of an error (Table 11.6). -/
def lastErr (g word : Nat) (uncorr addr : Bool) : W :=
  BitVec.ofNat 32 (g + (if uncorr then 0x20 else 0) + (if addr then 0x40 else 0) + (word % 2 ^ 20) * 0x100)

/-- A remap entry of a group that names the row of a word and is valid. -/
def State.sramRemapped (s : State) (g word : Nat) : Bool :=
  (upto 8).any fun e =>
    let w := s.reg (regAddr bBUF (0x400 + 0x20 * g + 4 * e))
    bitAt w 0 && fld w 4 14 == word / 64

/-- Every remap entry of a group is valid. -/
def State.sramRemapFull (s : State) (g : Nat) : Bool :=
  (upto 8).all fun e => s.rbit (regAddr bBUF (0x400 + 0x20 * g + 4 * e)) 0

/-- The row of a word is being copied to a spare row: accesses to it wait (R335). -/
def State.sramCopying (s : State) (g word : Nat) : Bool :=
  (upto 8).any fun e =>
    let a := regAddr bBUF (0x400 + 0x20 * g + 4 * e)
    s.rbit a 0 && s.rbit a 1 && s.rfld a 4 14 == word / 64

/-- What a read of word `word` of macro group `g` records of its finding (R332, R333, R335): the count,
BUF_LAST_ERR, the interrupts, and for an uncorrected error an Almanac record with the status. -/
def State.sramError (s : State) (g word : Nat) (f : EccFind) : State :=
  match f with
  | .clean => s
  | .corrected =>
    let s := (s.count (sramCe g)).setReg (regAddr bBUF 0x24) (lastErr g word false false)
    let n := (s.reg (sramCe g).addr).toNat
    let thr := s.rfld (regAddr bBUF 0x10) 0 16
    let s := s.onlyIf (thr != 0 && n % thr == 0) (·.raise (regAddr bBUF 0x8) 0)
    s.onlyIf (s.sramRemapFull g && !s.sramRemapped g word) (·.raise (regAddr bBUF 0x8) 3)
  | .uncorrectable =>
    (((s.count (sramUe g)).setReg (regAddr bBUF 0x24) (lastErr g word true false)).raise (regAddr bBUF 0x8) 1).almanac
      0x0010 bBUF g [(4, word)]
  | .addressMismatch =>
    (((s.count (sramUe g)).setReg (regAddr bBUF 0x24) (lastErr g word true true)).raise (regAddr bBUF 0x8) 2).almanac
      0x0011 bBUF g [(4, word)]

/-! ## What an SRAM word holds (Table 11.2) -/

/-- A line of Lantern, or 128 bytes of a scratchpad way, by 16 × set + way. -/
def State.lline (s : State) (k : Nat) : LLine := tget (fun _ => {}) s.lnt.lines k
def State.setLline (s : State) (k : Nat) (l : LLine) : State :=
  { s with lnt := { s.lnt with lines := tset (fun _ => {}) s.lnt.lines k l } }

/-- The 128 bytes of a line. -/
def LLine.bytes (l : LLine) : List Byte := if l.data = [] then List.replicate 128 0 else l.data

/-- What the tag and state arrays hold of a line. DESIGN CHOICE (log 113): the places of the bits, and a line's word by its key. -/
def LLine.tagWord (l : LLine) : Nat :=
  (if l.valid then 1 else 0) + (if l.dirty then 2 else 0) + (if l.poison then 4 else 0) + 8 * l.tag

/-- Word `i`, of 32 bits, of a memory that is written in such words: an Ordo store, the servo memory, the capture buffer, the Vigil save
memory or the Vigil bank. -/
def State.sramHalf (s : State) (g i : Nat) : W :=
  if g ≤ 25 then tget (fun _ => 0) (tget (fun _ => ({} : Ord)) s.ord (g - 22)).store i
  else if g = 26 then tget (fun _ => 0) s.svo.mem i
  else if g = 27 then tget (fun _ => 0) s.svo.cap i
  else if g = 28 then tget (fun _ => 0) s.vgl.save i
  else s.reg (regAddr bVGL (0x1000 + 4 * i))

/-- Word `w`, of 64 bits, of a macro group. Those of the sample replay buffers and of the cell pool are not numbered in the state (log 113). -/
def State.sramWord (s : State) (g w : Nat) : Nat :=
  if g < 16 then leNat (((s.lline (16 * (w / 16) + g)).bytes.drop (8 * (w % 16))).take 8)
  else if g = 16 then (s.lline w).tagWord
  else if 22 ≤ g ∧ g ≤ 29 then (s.sramHalf g (2 * w)).toNat + 2 ^ 32 * (s.sramHalf g (2 * w + 1)).toNat
  else 0

/-- The words of a macro group (Table 11.2). -/
def sramWords (g : Nat) : Nat :=
  if g ≤ 16 then 393216 else if g ≤ 20 then 786432 else if g = 21 then 1048576 else if g ≤ 25 ∨ g = 28 then 8192
  else if g ≤ 27 then 32768 else 512

/-- A finding in a word of group `g` that the state does not number: which word it is, is free. -/
def State.sramSomewhere (s : State) (g : Nat) (f : EccFind) : State :=
  if f = .clean then s else s.drawn.sramError g ((Config.freeWord s.free).toNat % sramWords g) f

/-! ## SRAM words stored wrong by the test mode (R337) -/

/-- Key of a word of a macro group. -/
def wordKey (g w : Nat) : Nat := g * 2 ^ 20 + w

/-- The masks and the address flip that a word is stored with, if any. -/
def State.sramMark (s : State) (g w : Nat) : Option (Nat × Nat × Bool) := tget (fun _ => none) s.buf.sramBad (wordKey g w)
def State.setSramMark (s : State) (g w : Nat) (v : Option (Nat × Nat × Bool)) : State :=
  { s with buf := { s.buf with sramBad := tset (fun _ => none) s.buf.sramBad (wordKey g w) v } }

/-- What the SRAM code makes of a word stored with these masks (R331). One wrong bit gives an odd-weight syndrome and is corrected; an
odd number is corrected wrongly where its syndrome is a column, else detected; an even one is a mismatch where its syndrome is an address
column, and from four bits on, or beside the address bit, may be no error to the code. -/
def sramBadFind (dm cm : Nat) (flip : Bool) : EccFind :=
  let n := popCount 64 dm + popCount 8 cm
  if n = 0 then (if flip then .addressMismatch else .clean)
  else if n = 1 && !flip then .corrected
  else if n % 2 = 1 then (if (Config.sramColumn dm cm flip).isSome then .corrected else .uncorrectable)
  else if (decide (4 ≤ n) || flip) && Config.sramZero dm cm flip then .clean
  else if (Config.sramColumn dm cm flip).isSome then .addressMismatch else .uncorrectable

/-- How the data that the code takes for good differs from what was written. -/
def sramSilent (dm cm : Nat) (flip : Bool) : Nat :=
  let n := popCount 64 dm + popCount 8 cm
  if n = 1 && !flip then 0
  else match sramBadFind dm cm flip with
    | .clean => dm
    | .corrected => dm ^^^ (match Config.sramColumn dm cm flip with
      | some i => if i < 64 then 2 ^ i else 0
      | none => 0)
    | .uncorrectable => 0
    | .addressMismatch => 0

/-- The masks and the flip that an armed corruption of this word stores (R337). -/
def State.sramArmed (s : State) (g w : Nat) : Option (Nat × Nat × Bool) :=
  let t := regAddr bBUF 0x14
  if s.rbit t 5 && s.rfld t 0 5 == g && s.rfld (regAddr bBUF 0x18) 0 20 == w then
    some ((s.reg (regAddr bBUF 0x1C)).toNat + 2 ^ 32 * (s.reg (regAddr bBUF 0x20)).toNat, s.rfld t 8 8, s.rbit t 6)
  else none

/-- The difference that a write of this word now stores unnoticed. -/
def State.sramFlip (s : State) (g w : Nat) : Nat :=
  match s.sramArmed g w with
  | some (dm, cm, flip) => sramSilent dm cm flip
  | none => 0

/-- A difference of a 64-bit word put into a table of its 32-bit halves. -/
def xorPair (t : Tbl W) (w x : Nat) : Tbl W :=
  if x = 0 then t
  else
    let t := tset (fun _ => 0) t (2 * w) (tget (fun _ => 0) t (2 * w) ^^^ BitVec.ofNat 32 x)
    tset (fun _ => 0) t (2 * w + 1) (tget (fun _ => 0) t (2 * w + 1) ^^^ BitVec.ofNat 32 (x / 2 ^ 32))

/-- What the SRAM code finds at a word: what the test mode stored, else what the environment did. -/
def State.sramFind (s : State) (g w : Nat) (find : EccFind) : EccFind :=
  match s.sramMark g w with
  | some (dm, cm, flip) => if sramBadFind dm cm flip = .clean then find else sramBadFind dm cm flip
  | none => find

/-- A word is read: the finding is recorded, and a corrected word is written back (R332, R333). -/
def State.sramTake (s : State) (g w : Nat) (find : EccFind) : State × EccFind :=
  let f := s.sramFind g w find
  let s := s.sramError g w f
  (s.onlyIf (f == .corrected) fun s => s.setSramMark g w none, f)

/-- A copy of a row to its spare row ends: every word has been read with correction, and one that cannot be corrected stays so. What the
original row holds stays there (R335). -/
def State.bufCopyDone (s : State) (g e : Nat) : State :=
  let a := regAddr bBUF (0x400 + 0x20 * g + 4 * e)
  if s.rbit a 1 then
    let row := s.rfld a 4 14
    let s := s.each (upto 64) fun s i => (s.sramTake g (64 * row + i) .clean).1
    let old : List RowWord := (upto 64).map fun i => ⟨s.sramWord g (64 * row + i), s.sramMark g (64 * row + i)⟩
    ({ s with buf := { s.buf with oldRows := tset (fun _ => []) s.buf.oldRows (8 * g + e) old } } : State).setRbit a 1 false
  else s

/-- An access to a row that is being copied comes after the copy (R335, log 113). -/
def State.sramSettle (s : State) (g w : Nat) : State :=
  if s.sramCopying g w then
    s.each (upto 8) fun s e => s.onlyIf (s.rfld (regAddr bBUF (0x400 + 0x20 * g + 4 * e)) 4 14 == w / 64) fun s => s.bufCopyDone g e
  else s

/-- Read an SRAM word. -/
def State.sramRead (s : State) (g w : Nat) (find : EccFind) : State × EccFind := (s.sramSettle g w).sramTake g w find

/-- A write of an SRAM word: corrupted if it is the armed one, else stored well (R337). -/
def State.sramWrote (s : State) (g w : Nat) : State :=
  let s := s.sramSettle g w
  match s.sramArmed g w with
  | some m => (s.setSramMark g w (some m)).setRbit (regAddr bBUF 0x14) 5 false
  | none => s.setSramMark g w none

/-- Hardware writes every word of `[lo, hi)` of a group. -/
def State.sramSwept (s : State) (g lo hi : Nat) : State :=
  let s := { s with buf := { s.buf with sramBad := tdrop s.buf.sramBad (wordKey g lo) (wordKey g hi) } }
  let w := s.rfld (regAddr bBUF 0x18) 0 20
  s.onlyIf ((s.sramArmed g w).isSome && decide (lo ≤ w) && decide (w < hi)) fun s => s.sramWrote g w

/-- Write a register. One of the Vigil bank is a word of its memory, written through VGL_BANKn or through the register that it holds (R463). -/
def State.setBank (s : State) (a : Nat) (v : W) : State :=
  let b := regAddr bVGL 0x1000
  if b ≤ a ∧ a < regAddr bVGL 0x2000 then
    let w := (a - b) / 8
    let x := s.sramFlip 29 w
    let s := s.setReg a v
    let s := s.onlyIf (x != 0) fun s => (s.setReg (b + 8 * w) (s.reg (b + 8 * w) ^^^ BitVec.ofNat 32 x)).setReg (b + 8 * w + 4)
      (s.reg (b + 8 * w + 4) ^^^ BitVec.ofNat 32 (x / 2 ^ 32))
    s.sramWrote 29 w
  else s.setReg a v

/-- Write a bit or a field of such a register. -/
def State.setBankBit (s : State) (a i : Nat) (b : Bool) : State := s.setBank a (putBit (s.reg a) i b)
def State.setBankFld (s : State) (a lo len v : Nat) : State := s.setBank a (setFld (s.reg a) lo len v)

end Sys2Proof.Machine
end

