-- ==== Sys2Proof/Machine/Pool.lean ====
section
/-!
DEFINITION. The cell pool's commands (chapter 12).
-/
namespace Sys2Proof.Machine

/-- The header word of cell `i` of a packet in queue `q`, `next` being the cell behind it (Table 12.1). Which cells of the pool a packet
takes is not the state's: the free list's order is nowhere stated. -/
def Pkt.cellHeader (p : Pkt) (q i next : Nat) : D :=
  let last := i + 1 == cellsOf p.bytes
  BitVec.ofNat 64 (next % 2 ^ 15 + 2 ^ 16 * (min 248 (p.bytes - 248 * i)) + (if i = 0 then 2 ^ 24 else 0) + (if last then 2 ^ 25 else 0) +
    (if i = 0 && p.poison then 2 ^ 26 else 0) + 2 ^ 27 * q)

/-- PACKET_WRITE: a producer completes a packet; a queue that is not enabled refuses it (R355, R356, R365, Table 12.6). -/
def execPacketWrite (q : Fin 1024) (body : List Byte) (s : State) : Host.Outcome State Fault Refusal :=
  .next (if (q.val < 32 ∧ s.onChain q) ∨ s.qEnabled q then s.put q ⟨.bytes body, body.length, false⟩ else s.emit (.poolStatus q 0x21))

/-- Waiting producers enter the queue, in order, as far as they fit; `n` bounds how many. -/
def State.drainWaiters (s : State) (q : Nat) : Nat → State
  | 0 => s
  | n + 1 =>
    let c := s.cq q
    match c.waitPkts with
    | [] => s
    | p :: ps =>
      if q < 32 ∧ s.onChain q then
        if c.stages + partsOf p.bytes ≤ 16 then
          ((s.setCq q { c with waitPkts := ps, chain := c.chain ++ [p] }).count (cplCtr 3)).drainWaiters q n
        else s
      else if s.poolUp ∧ s.qRoom q p.bytes then
        (((s.setCq q { c with waitPkts := ps }).enterPkt q p).count (cplCtr 0)).drainWaiters q n
      else s

/-- Let waiting producers of a queue in. -/
def State.admitQueue (s : State) (q : Nat) : State := s.drainWaiters q (s.cq q).waitPkts.length

/-- Cells of a queue have come free: its own waiting producers go on, then those of other queues, which may have waited for the shared
remainder (R356). DESIGN CHOICE (log 116): in the order of their numbers. -/
def State.admitWaiters (s : State) (q : Nat) : State :=
  (s.admitQueue q).each ((s.cellq.filter fun e => !e.2.waitPkts.isEmpty).map Prod.fst) State.admitQueue

/-- Read data passes through SEC between BUF and HIF: the host gets it deciphered with its namespace's media key (R33, R503). -/
def State.deciphered (s : State) : Body → Body
  | .readData c key at_ lba len b =>
    let plain := match key with
      | some k => Config.xtsDecrypt (tget (fun _ => []) s.sec.media k) lba b
      | none => b
    .reply c (.data at_ (plain.take len))
  | b => b

/-- The consumer takes a packet whose payload read well or badly (R351, R364). -/
def State.takeHead (s : State) (q : Nat) (p : Pkt) (ps : List Pkt) (bad : Bool) : State :=
  let c := s.cq q
  let s := s.setCq q { c with pkts := ps, freedCount := c.freedCount + BitVec.ofNat 16 (cellsOf p.bytes) }
  let s := s.onlyIf bad fun s => (s.count (cplCtr 1)).raise cplInt 2
  (s.emit (.packet q (if 40 ≤ q ∧ q < 44 then s.deciphered p.body else p.body) (p.poison || bad))).admitWaiters q

/-- The pool goes out of service at a broken link of queue `q`: that queue's packets are lost (R364, R365). -/
def State.poolBroken (s : State) (q : Nat) : State :=
  let c := s.cq q
  let n := c.pkts.length
  let s := s.setCq q { c with pkts := [], lost := if q < 32 then c.lost + n else c.lost }
  let s := ((s.setRbit cplStatus 1 true).setRbit cplStatus 2 false).raise cplInt 1
  let s := s.onlyIf (n != 0) fun s => (s.countBy (cplCtr 2) n).raise cplInt 3
  s.almanac 0x0020 bCPL 0 [(4, q)]

/-- BUF takes a sector packet of queue 60 + n into the buffer (R279); a poisoned one carries its status (R364). -/
def State.intake (s : State) (q : Nat) (p : Pkt) (bad : Nat) : State :=
  match p.body with
  | .bufSector tag stripe gpos info r =>
    if 60 ≤ q ∧ q < 64 then
      { s with fw := { s.fw with rx := s.fw.rx ++
        [{ eng := q - 60, tag := tag, stripe := stripe, gpos := gpos, info := info, q := r, bad := bad }] } }
    else s
  | _ => s

/-- PACKET_TAKE (R351, R364): the head packet goes to its consumer; an uncorrectable payload word
poisons it, and an uncorrectable header word takes the pool out of service. -/
def execPacketTake (q : Fin 1024) (find : EccFind) (inHeader : Bool) (s : State) : Host.Outcome State Fault Refusal :=
  .next (match s.heads q with
    | [] => s
    | p :: ps =>
        let s := s.sramSomewhere 21 find
        let was := if p.poison then 0x10 else 0
        match find with
        | .clean => (s.takeHead q p ps false).intake q p was
        | .corrected => (s.takeHead q p ps false).intake q p was
        | .uncorrectable => if inHeader then s.poolBroken q else (s.takeHead q p ps true).intake q p 0x10
        | .addressMismatch => if inHeader then s.poolBroken q else (s.takeHead q p ps true).intake q p 0x11)

/-- PACKET_RELINK (R352): the head packet and its charge move to the destination, whatever its limits. -/
def State.relink (s : State) (src dst : Nat) : State :=
  match s.heads src with
  | [] => s
  | p :: ps =>
    let c := s.cq src
    let s := s.setCq src { c with pkts := ps, freedCount := c.freedCount + BitVec.ofNat 16 (cellsOf p.bytes) }
    let d := s.cq dst
    (s.setCq dst { d with pkts := d.pkts ++ [p], pktCount := d.pktCount + 1 }).admitWaiters src

/-- PACKET_RELINK. -/
def execPacketRelink (src dst : Fin 1024) (s : State) : Host.Outcome State Fault Refusal :=
  .next (s.relink src dst)

/-- The outcome of a reservation request (R357). -/
inductive RsvOutcome where
  | granted
  | waits
  | tooLarge
  | disabled
deriving DecidableEq, Repr

/-- How a request of `n` cells in a queue is answered: refused above MAX, behind the queue's earlier
waiting requests otherwise (R357, Table 12.6). -/
def State.rsvOutcome (s : State) (q n : Nat) : RsvOutcome :=
  if !s.qEnabled q then .disabled
  else if s.qMax q < n then .tooLarge
  else if (s.cq q).waitResv = [] ∧ s.poolUp ∧ s.qFits q n then .granted
  else .waits

/-- Grant a reservation of `n` cells. -/
def State.reserve (s : State) (q n : Nat) : State := s.setCq q { s.cq q with resv := (s.cq q).resv + n }

/-- Release what is left of a reservation of `n` cells (R357). -/
def State.unreserve (s : State) (q n : Nat) : State := (s.setCq q { s.cq q with resv := (s.cq q).resv - n }).admitWaiters q

/-- RESERVATION_REQUEST (R357). -/
def execReservationRequest (q : Fin 1024) (cells : Nat) (s : State) : Host.Outcome State Fault Refusal :=
  .next (match s.rsvOutcome q cells with
    | .granted => s.reserve q cells
    | .waits => ((s.setCq q { s.cq q with waitResv := (s.cq q).waitResv ++ [cells] }).count (cplCtr 4)).raise cplInt 4
    | .tooLarge => s.emit (.poolStatus q 0x22)
    | .disabled => s.emit (.poolStatus q 0x21))

/-- RESERVATION_GRANT: the oldest waiting request of the queue is granted if it now fits (R357). -/
def execReservationGrant (q : Fin 1024) (s : State) : Host.Outcome State Fault Refusal :=
  .next (match (s.cq q).waitResv with
    | [] => s
    | n :: ns =>
      if s.poolUp ∧ s.qFits q n then (s.setCq q { s.cq q with waitResv := ns }).reserve q n else s)

/-- Whether a write of CPL_Qq_SHARE is applied (R356). -/
def State.shareOk (s : State) (q : Nat) (v : W) : Bool :=
  let mn := fld v 0 16
  let mx := fld v 16 16
  decide (mn ≤ mx) && decide (mx ≤ 32768) &&
  (!s.qEnabled q || decide (s.minSum - s.qMin q + mn ≤ 32768))

/-- A write of CPL_Qq_SHARE: applied, or ignored with SHARE_ERR (R356). -/
def State.shareWrite (s : State) (q : Nat) (v : W) : State :=
  if s.shareOk q v then (s.setReg (cplQShare q) v).admitWaiters q else s.raise cplInt 5

/-- CPL_SHARE_WRITE. -/
def execCplShareWrite (q : Fin 1024) (v : BitVec 32) (s : State) : Host.Outcome State Fault Refusal :=
  .next (s.shareWrite q v)

/-- A write of CPL_Qq_CFG.RESET: ignored while ENABLE is 1, else the queue's cells, reservations and
counts go (R363). The bit reads back 0: the action is taken at once. -/
def State.queueReset (s : State) (q : Nat) : State :=
  if s.qEnabled q then s
  else (s.setCq q { s.cq q with pkts := [], resv := 0, waitResv := [], waitPkts := [], pktCount := 0, freedCount := 0 }).admitWaiters q

/-- CPL_QUEUE_RESET. -/
def execCplQueueReset (q : Fin 1024) (s : State) : Host.Outcome State Fault Refusal :=
  .next (s.queueReset q)

/-- Every queue of a table emptied; a critical class keeps its chain and its LOST count, and what its
pool queue held is added to that count (R363, R365). Producers and requests that wait go on waiting: they have written nothing (log 116). -/
def emptyQueues : Tbl CellQ → Tbl CellQ
  | [] => []
  | (q, c) :: t =>
    tset (fun _ => {}) (emptyQueues t) q (
      if q < 32 then { chain := c.chain, lost := c.lost + c.pkts.length, waitPkts := c.waitPkts, waitResv := c.waitResv }
      else { waitPkts := c.waitPkts, waitResv := c.waitResv })

/-- Packets that a pool reset loses. -/
def lostPackets (t : Tbl CellQ) : Nat := (t.map fun e => e.2.pkts.length).sum

/-- POOL_RESET: every queue is emptied, what it held is counted as lost, and the pool initialises
(R363, R365). -/
def State.poolReset (s : State) : State :=
  let n := lostPackets s.cellq
  let s := { s with cellq := emptyQueues s.cellq }
  let s := ((s.setRbit cplStatus 0 true).setRbit cplStatus 1 false).setRbit cplStatus 2 false
  s.onlyIf (n != 0) fun s => (s.countBy (cplCtr 2) n).raise cplInt 3

/-- CPL_POOL_RESET. -/
def execCplPoolReset (s : State) : Host.Outcome State Fault Refusal := .next s.poolReset

/-- CPL_INIT_DONE: initialisation ends (R363). -/
def execCplInitDone (s : State) : Host.Outcome State Fault Refusal :=
  .next (if s.poolInit then (((s.setRbit cplStatus 0 false).setRbit cplStatus 2 true).raise cplInt 0).admitWaiters 0 else s)

/-- CHAIN_ITEM_ENTER: an item enters the class's fall-back chain while the class is carried by it (R366). -/
def execChainItemEnter (q : Fin 32) (body : List Byte) (s : State) : Host.Outcome State Fault Refusal :=
  .next (if s.onChain q then s.put q ⟨.bytes body, body.length, false⟩ else s)

/-- The consumer of a class reads its chain: a LOST notice first, else the front item, once its pool
queue has nothing left that can be read (R365, R366). The second part is the item read. -/
def State.chainTake (s : State) (q : Nat) : State × Option Pkt :=
  let c := s.cq q
  if c.lost ≠ 0 then ((s.setCq q { c with lost := 0 }).emit (.lostNotice q c.lost), none)
  else if c.pkts ≠ [] then (s, none)
  else match c.chain with
    | [] => (s, none)
    | p :: ps => ((s.setCq q { c with chain := ps }).admitWaiters q, some p)

end Sys2Proof.Machine
end

