-- ==== Sys2Proof/Machine/Codec.lean ====
section
/-!
DEFINITION. The code of a sector: its CRC, whitening, the LDPC code with its parity and its syndrome, and the framing of its
channel bits (R46 to R52, R131).
-/
namespace Sys2Proof.Machine

/-! ## The sector CRC and the metadata (R50, R51) -/

/-- CRC-32C, reflected, over bytes: polynomial 0x1EDC6F41, initial value and final XOR all ones (R51). -/
def crcBits : Nat → W → W
  | 0, c => c
  | k + 1, c => crcBits k (if c.getLsbD 0 then (c >>> 1) ^^^ 0x82F63B78 else c >>> 1)
def crc32cStep (c : W) (b : Byte) : W := crcBits 8 (c ^^^ b.setWidth 32)
def crc32c (l : List Byte) : W := l.foldl crc32cStep 0xFFFFFFFF ^^^ 0xFFFFFFFF

/-- The metadata of a sector as one little-endian number (R50). -/
def metaOf (info : List Byte) : Nat := leNat ((info.drop 4096).take 16)

/-- The CRC field of the metadata agrees with the CRC over user bytes and metadata bytes 0 to 9 (R51). -/
def sectorCrcOk (info : List Byte) : Bool :=
  crc32c (info.take 4106) == BitVec.ofNat 32 (metaOf info >>> 80)

/-! ## Encoding a sector (R46 to R51, R131, R157) -/

/-- The 4,112 information bytes of a write packet with the sector CRC in metadata bytes 10 to 13 (R51). -/
def withSectorCrc (b : List Byte) : List Byte :=
  let b := (b ++ List.replicate 4112 0).take 4112
  b.take 4106 ++ leBytes 4 (crc32c (b.take 4106)).toNat ++ b.drop 4110

/-- User bytes with their metadata behind them: bits 79 to 0 as given, and the CRC over both (R50, R51). -/
def withMeta (m : Nat) (b : List Byte) : List Byte :=
  let low := leBytes 10 m
  b ++ low ++ leBytes 4 (crc32c (b ++ low)).toNat ++ [0, 0]

/-- A sector: its user bytes and the metadata of R50 with its CRC. -/
def mkSector (tag stripe head gen : Nat) (b : List Byte) : List Byte :=
  withMeta (tag + stripe * 2 ^ 22 + head * 2 ^ 54 + gen * 2 ^ 61) b

/-- XOR with the PRBS-31 sequence x³¹ + x²⁸ + 1 from the given state; the sequence is taken from the last stage (R49). -/
def whiten : BitVec 31 → List Bool → List Bool
  | _, [] => []
  | r, b :: bs =>
    let o := r.getLsbD 30
    (b.xor o) :: whiten ((r <<< 1) ||| (if o.xor (r.getLsbD 27) then 1 else 0)) bs

/-- 128 bits as a block of the code: element `a` is bit `a` (R131). -/
def blockOf : List Bool → Nat → BitVec 128
  | [], _ => 0
  | b :: bs, a => (if b then 1#128 <<< a else 0) ||| blockOf bs (a + 1)

/-- Cut a list into pieces of 128. -/
def blocks : Nat → List Bool → List (BitVec 128)
  | 0, _ => []
  | k + 1, l => blockOf (l.take 128) 0 :: blocks k (l.drop 128)

/-- The share of information block `j`, with value `x`, in block row `r` (R131). -/
def rowShare (r j : Nat) (x : BitVec 128) : BitVec 128 :=
  (upto 4).foldl (fun a k => if (j + 8 * k) % 32 = r then a ^^^ x.rotateRight ((29 * j * (k + 1) + 7 * k) % 128) else a) 0

/-- The sum of the information blocks in block row `r`, counting blocks from `j`. -/
def rowSum (r : Nat) : Nat → List (BitVec 128) → BitVec 128
  | _, [] => 0
  | j, x :: xs => rowShare r j x ^^^ rowSum r (j + 1) xs

/-- Parity blocks by forward substitution from block row `r`, the parity of the row before being `p` (R131). -/
def parityFrom (xs : List (BitVec 128)) : Nat → Nat → BitVec 128 → List (BitVec 128)
  | 0, _, _ => []
  | k + 1, r, p => let q := rowSum r 0 xs ^^^ p; q :: parityFrom xs k (r + 1) q

/-- The bits of a block, element 0 first. -/
def blockBits (x : BitVec 128) : List Bool := (upto 128).map fun a => x.getLsbD a

/-- The systematic codeword of 32,896 whitened bits (R48, R131). -/
def codeword (bits : List Bool) : List Bool :=
  bits ++ ((parityFrom (blocks 257 bits) 32 0 0).map blockBits).flatten

/-- 0b1100 repeated `k` times (Table 2.1). -/
def preamble : Nat → List Bool
  | 0 => []
  | k + 1 => true :: true :: false :: false :: preamble k

/-- The 37,200 channel bits of a sector (Table 2.1). -/
def frameSector (cw : List Bool) (backup : Bool) : List Bool :=
  preamble 24 ++ bitsMsb 32 0x4B2ED1C7 ++ cw.take 16384 ++
    (if backup then bitsMsb 32 0x7A19C6E5 else preamble 8) ++ cw.drop 16384 ++ preamble 12

/-- The channel bits of a write packet (R157). -/
def sectorBits (b : List Byte) (backup : Bool) : List Bool :=
  frameSector (codeword (whiten (BitVec.allOnes 31) (wireBits (withSectorCrc b)))) backup

/-- The information bytes that 32,896 decoded bits spell (R48, R49). -/
def infoOf (bits : List Bool) : List Byte := packBits 4112 (whiten (BitVec.allOnes 31) (bits.take 32896))

/-- The syndrome block of row `r`: the information blocks' share, and the parity blocks of that row and the row before (R131). -/
def syndromeRow (xs ps : List (BitVec 128)) (r : Nat) : BitVec 128 :=
  rowSum r 0 xs ^^^ lget 0 ps r ^^^ (if r = 0 then 0 else lget 0 ps (r - 1))

/-- The checks that a word of 36,992 bits does not satisfy: the weight of H × c (R131). -/
def unsatisfied (bits : List Bool) : Nat :=
  let xs := blocks 257 bits
  let ps := blocks 32 (bits.drop 32896)
  ((upto 32).map fun r => popCount 128 (syndromeRow xs ps r).toNat).sum

end Sys2Proof.Machine
end

