-- ==== Sys2Proof/Machine/Signal.lean ====
section
/-!
DEFINITION. The signal path of a read channel slot, from stored samples to LLRs and from LLRs to a codeword: reader correction,
combiner, adaptation, timing recovery, equaliser, sync distances, defect detector and decoder (R118 to R139, R147, R148). What the
spec does not compute (interpolation, error detectors, envelope, Viterbi metric, belief propagation) is a constant of Config
without a body (log 78).
-/
namespace Sys2Proof.Machine

/-- What one front-end pass works with: the readers whose samples are stored, those that the combiner sums, the 64 coefficients of the equaliser set, CHN_SLOTh_TR, CHN_DEFECT,
CHN_ADAPT, whether the loops hold (R137), the scale of the taps over 2 (R148), the raw defect flags before the first sample and behind the last, and the instants since the last update of the loops. -/
structure FeCfg where
  readers : Nat
  use : Nat
  eq : List Int
  tr : W
  defect : W
  adapt : W
  background : Bool
  scale : Int := 2
  carry : List Bool := []
  ahead : List Bool := []
  phase : Nat := 0
deriving DecidableEq, Repr

/-- What it gives: the combined stream, each reader's corrected stream, the loops' values and the instants since their last update, raw defect flags per channel bit, the position
of each channel bit in 2⁻³² sample instants, and a hard decision and an LLR for each. -/
structure FeOut where
  comb : List Int := []
  corr : List (List Int) := []
  acc : List Int := []
  phase : Nat := 0
  raw : List Bool := []
  pos : List Int := []
  soft : List (Bool × Int) := []
deriving DecidableEq, Repr

/-! ## Reader correction and combiner (R122, R123) -/

/-- Signed coefficient `k` of an equaliser set, from its 32 words (R122); coefficients 61 to 63 are 0. -/
def eqCoef (word : Nat → W) (k : Nat) : Int := if k < 61 then sext 16 (fld (word (k / 2)) (16 * (k % 2)) 16) else 0

/-- The samples of one instant, by reader; a reader that is not enabled has none (Table 3.5). -/
def instant (readers : Nat) (l : List Byte) : List Int :=
  (upto 3).map fun r => if readers.testBit r then (lget 0 l (popCount r readers)).toInt else 0

/-- The sample instants of a stored stream. -/
def instants (readers : Nat) (l : List Byte) : List (List Int) :=
  let k := max 1 (popCount 3 readers)
  (pieces k (l.length / k) l).map (instant readers)

/-- The register form of a reader's loop values: GAIN unsigned, OFFSET and ASYM signed (Table 4.11). -/
def loopWord (g o a : Int) : W :=
  BitVec.ofNat 32 ((clampI 0 4095 (g / 32768)).toNat + 2 ^ 12 * unsext 10 (clampI (-512) 511 (o / 32768)) +
    2 ^ 22 * unsext 10 (clampI (-512) 511 (a / 32768)))

/-- The loops' values for a register word, in 2⁻¹⁵ of a step. -/
def loopSeed (w : W) : List Int := [32768 * (fld w 0 12 : Int), 32768 * sext 10 (fld w 12 10), 32768 * sext 10 (fld w 22 10)]

/-- The register form of reader `r`'s values among nine. -/
def liveWord (acc : List Int) (r : Nat) : W := loopWord (lget 0 acc (3 * r)) (lget 0 acc (3 * r + 1)) (lget 0 acc (3 * r + 2))

/-- u = g (x − o) + a (x − o)² / 128, in units of 2⁻²⁰, for a raw sample and the loop word in force (R123). -/
def correct (w : W) (x : Int) : Int :=
  let d := 4 * x - sext 10 (fld w 12 10)
  1024 * (fld w 0 12 : Int) * d + sext 10 (fld w 22 10) * d * d

/-- The sum over taps of coefficient times value, newest value first. -/
def tapSum : List Int → List Int → Int
  | c :: cs, x :: xs => c * x + tapSum cs xs
  | _, _ => 0

/-- The combiner's output for the newest corrected values of each reader, newest first (R123); the scale of R148 applies to every tap. -/
def combine (c : FeCfg) (hist : List (List Int)) : Int :=
  ((maskBits 3 c.use).map fun r => c.scale * tapSum ((c.eq.drop (8 * r)).take 8) (lget [] hist r)).sum

/-- Correct and combine a run of instants under one set of loop values; the histories are newest first. -/
def combineRun (c : FeCfg) (acc : List Int) : List (List Int) → List (List Int) → List (List Int) × List Int
  | hist, [] => (hist, [])
  | hist, x :: xs =>
    let hist := (upto 3).map fun r => correct (liveWord acc r) (lget 0 x r) :: lget [] hist r
    let y := combine c hist
    let t := combineRun c acc hist xs
    (t.1, y :: t.2)

/-! ## Defect flags (R135) -/

/-- The raw flag of each channel bit of a stream: the envelope of its 20 sample instants lies below DROP_THR or above TA_THR. -/
def rawFlags (defect : W) (y : List Int) : List Bool :=
  (upto (4 * y.length / 5)).map fun i =>
    let e := Config.envelope ((y.take (5 * i / 4 + 1)).drop (5 * i / 4 + 1 - 20))
    decide (256 * e < fld defect 0 8 * Config.refAmplitude) || decide (fld defect 8 8 * Config.refAmplitude < 128 * e)

/-- Whether bit `i` of a list is set. -/
def flagAt (l : List Bool) (i : Nat) : Bool := lget false l i

/-- Bit `i` lies in a run of at least `k` set bits. -/
def inRun (k : Nat) (l : List Bool) (i : Nat) : Bool :=
  flagAt l i && (upto k).any fun a => decide (a ≤ i) && (upto k).all fun b => flagAt l (i - a + b)

/-- Flags of a stream given the raw ones before and behind it: runs of at least MIN_RUN, extended by EXTEND on both sides. A MIN_RUN of 0
acts as 1: log 94. -/
def defectFlags (defect : W) (carry raw ahead : List Bool) : List Bool :=
  let l := carry ++ raw ++ ahead
  let k := max 1 (fld defect 16 5)
  let e := fld defect 24 5
  let core := (upto l.length).map fun i => inRun k l i
  (((upto l.length).map fun i => (upto (2 * e + 1)).any fun j => decide (e ≤ i + j) && flagAt core (i + j - e)).drop carry.length).take raw.length

/-- Maximal stretches of set flags. -/
def runCount : Bool → List Bool → Nat
  | _, [] => 0
  | b, x :: xs => (if x && !b then 1 else 0) + runCount x xs

/-- The last 62 raw flags, which the next sector's runs and extensions can begin in. -/
def carryOf (carry raw : List Bool) : List Bool := (carry ++ raw).drop ((carry ++ raw).length - 62)

/-! ## Adaptation (R136, R137) -/

/-- Sample instants between two updates of the loops: 2^UPDATE channel bits of 1.25 instants. -/
def updateInstants (adapt : W) : Nat := 5 * 2 ^ (fld adapt 12 4 - 2)

/-- One update of the nine loop values: the error of each enabled reader's loop times its step size. -/
def adaptStep (c : FeCfg) (acc y : List Int) : List Int :=
  (upto 9).map fun i =>
    let v := lget 0 acc i
    if c.readers.testBit (i / 3) then v + Config.loopError (i / 3) (i % 3) y * 2 ^ (15 - fld c.adapt (4 * (i % 3)) 4) else v

/-- The stream block by block: each is combined under the values in force, and then the loops move, unless they hold for the class or
for a defect flag in the block, or the block is not at its end (`n` instants, of the first those still to come). -/
def adaptRun (c : FeCfg) (n : Nat) : Nat → List (List (List Int)) → List (List Int) → List Int → List Int → List Int × List (List Int) × List Int
  | _, [], hist, acc, y => (y, hist, acc)
  | k, b :: bs, hist, acc, y =>
    let t := combineRun c acc hist b
    let y' := y ++ t.2
    let flags := (defectFlags c.defect c.carry (rawFlags c.defect y') []).drop (4 * y.length / 5)
    let acc := if c.background || flags.any (· == true) || decide (b.length < k) then acc else adaptStep c acc t.2
    adaptRun c n n bs t.1 acc y'

/-! ## Timing recovery, equaliser, detector (R124, Table 4.1) -/

/-- The loop over a stream from a position: a value and a position for each channel bit. The gains are 2 places larger for the first
64 bits; the nominal step is 1.25 instants. -/
def timing (tr : W) (y : List Int) : Nat → Nat → Int → Int → List Int → List (Int × Int)
  | 0, _, _, _, _ => []
  | fuel + 1, k, pos, freq, prev =>
    if pos < 0 ∨ (y.length : Int) * 2 ^ 32 ≤ pos then []
    else
      let v := Config.interpolate y pos
      let a := if k < 64 then 18 else 16
      let e := Config.timingError (v :: prev)
      let freq := freq + e * 2 ^ a / 2 ^ fld tr 4 4
      (v, pos) :: timing tr y fuel (k + 1) (pos + 5 * 2 ^ 30 + freq + e * 2 ^ a / 2 ^ fld tr 0 4) freq (v :: prev)

/-- The FIR equaliser of 32 taps over a stream, whose earlier values are given newest first. -/
def fir (c : FeCfg) : List Int → List Int → List Int
  | _, [] => []
  | hist, x :: xs => tapSum ((c.eq.drop 24).take 32) (x :: hist) :: fir c (x :: hist) xs

/-- Equaliser and detector: a hard decision and a 6-bit LLR for each channel bit. -/
def detect (c : FeCfg) (x : List Int) : List (Bool × Int) :=
  (Config.detector ((c.eq.drop 56).take 5) (fir c [] x)).map fun d => (d.1, clampI (-32) 31 d.2)

/-- A front-end pass over a sector's stored samples from given loop values (R118, R139). -/
def frontEnd (c : FeCfg) (samples : List Byte) (seeds : List Int) : FeOut :=
  let x := instants c.readers samples
  let n := updateInstants c.adapt
  let k := n - c.phase % n
  let t := adaptRun c n k (x.take k :: pieces n (ceilDiv (x.length - k) n) (x.drop k)) [[], [], []] seeds []
  let b := timing c.tr t.1 x.length 0 0 0 []
  { comb := t.1, corr := t.2.1.map List.reverse, acc := t.2.2, phase := (c.phase + x.length) % n, raw := rawFlags c.defect t.1
    pos := b.map fun e => e.2, soft := detect c (b.map fun e => e.1) }

/-- The backward pass from channel bit `i`: the loop runs over the samples before it in reverse time order, and what it gives is
equalised and detected in time order (R124, R128). -/
def backward (c : FeCfg) (f : FeOut) (i : Nat) : List (Bool × Int) :=
  let y := (f.comb.take (lget 0 f.pos i / 2 ^ 32).toNat).reverse
  detect c ((timing c.tr y y.length 0 0 0 []).map fun e => e.1).reverse

/-! ## Positions and sync distances (R125, R126, R128) -/

/-- LEAD of a profile's time word. -/
def leadOf (profTime : W) : Nat := fld profTime 0 16

/-- The window W of a profile (Table 4.11). -/
def winOf (profCfg : W) : Nat := fld profCfg 0 6

/-- Bytes of samples before candidate E − W − 96, which take no space (R141); E − 96 is LEAD. -/
def skipBytes (profCfg profTime : W) (readers : Nat) : Nat := (leadOf profTime - winOf profCfg) * 5 / 4 * readers

/-- Where channel bit E + `off` stands among the bits of the stored samples, which begin at bit LEAD − W of the burst (R125, R141). -/
def bitIndex (profCfg profTime : W) (off : Int) : Int :=
  (leadOf profTime + 96 : Nat) - ((leadOf profTime - winOf profCfg : Nat) : Int) + off

/-- The Hamming distance of 32 hard decisions from a mark; a bit before the first or after the last differs. -/
def markDist (soft : List (Bool × Int)) (mark : Nat) (i : Int) : Nat :=
  ((upto 32).map fun (k : Nat) =>
    match (if i + k < 0 then none else soft[(i + k).toNat]?) with
    | some b => if b.1 == mark.testBit (31 - k) then 0 else 1
    | none => 1).sum

/-- The distances of the 2W + 1 candidates of a window about E + `off`, rising (R125). -/
def distances (profCfg profTime : W) (soft : List (Bool × Int)) (mark off : Nat) : List Nat :=
  let w := winOf profCfg
  (upto (2 * w + 1)).map fun (k : Nat) => markDist soft mark (bitIndex profCfg profTime ((off : Int) - w + k))

/-- The marks and their distance (R126, R128). -/
def primaryMark : Nat := 0x4B2ED1C7
def backupMark : Nat := 0x7A19C6E5
def backupOff : Nat := 16416

/-- `n` bits of a stream from a place on; a bit that is not there is 0 with LLR 0. -/
def softFrom (soft : List (Bool × Int)) (i : Int) (n : Nat) : List (Bool × Int) :=
  (upto n).map fun (k : Nat) => if i + k < 0 then (false, 0) else lget (false, 0) soft (i + k).toNat

/-- The LLRs of flagged bits set to 0 (R135). -/
def eraseFlagged (flags : List Bool) (soft : List (Bool × Int)) : List (Bool × Int) :=
  (upto soft.length).map fun i => let b := lget (false, 0) soft i; if flagAt flags i then (b.1, 0) else b

/-- The codeword that an anchor at E + `c` gives: segment 1 behind the primary mark, segment 2 behind the backup mark's place. An anchor
on the backup mark (kind 2) has segment 1 from the backward pass that begins there (R128). -/
def wordAt (c : FeCfg) (profCfg profTime : W) (f : FeOut) (erase : Bool) (off : Int) (kind : Nat) : List (Bool × Int) :=
  let i := bitIndex profCfg profTime off
  let flags := defectFlags c.defect c.carry f.raw c.ahead
  let soft := if erase then eraseFlagged flags f.soft else f.soft
  let seg2 := softFrom soft (i + backupOff + 32) 20608
  if kind = 2 then
    let b := backward c f (i + backupOff).toNat
    let b := if erase then eraseFlagged (flags.drop ((i + backupOff).toNat - b.length)) b else b
    softFrom b ((b.length : Int) - 16384) 16384 ++ seg2
  else softFrom soft (i + 32) 16384 ++ seg2

/-! ## Quality and decoding (R132 to R134, Table 4.5) -/

/-- Mean |LLR| × 8, before saturation; whether a mean that is no whole number is rounded up is open. -/
def llrMean (word : List (Bool × Int)) : Nat :=
  let t := 8 * (word.map fun b => b.2.natAbs).sum
  t / 36992 + (if t % 36992 ≠ 0 ∧ Config.meanUp t 36992 then 1 else 0)

/-- Flags within the sector: the stored stream begins up to W channel bits before it (R135). -/
def sectorFlags (profCfg profTime : W) (flags : List Bool) : List Bool :=
  (flags.drop (min (leadOf profTime) (winOf profCfg))).take 37200

/-- Flagged channel bits of one reader's corrected stream (R148). -/
def readerDefects (c : FeCfg) (profCfg profTime : W) (f : FeOut) (r : Nat) : Nat :=
  ((sectorFlags profCfg profTime (defectFlags c.defect [] (rawFlags c.defect (lget [] f.corr r)) [])).filter (· == true)).length

/-- The first iteration of at most `lim` after which the syndrome is zero, with the decisions it gives (R134). -/
def decodeFrom (llrs : List Int) : Nat → Nat → Option (Nat × List Bool)
  | 0, _ => none
  | k + 1, i =>
    let b := Config.bpHard llrs i
    if unsatisfied b = 0 then some (i, b) else decodeFrom llrs k (i + 1)

/-- A decode of at most `lim` iterations. -/
def decodeWord (word : List (Bool × Int)) (lim : Nat) : Option (Nat × List Bool) := decodeFrom (word.map fun b => b.2) lim 1

end Sys2Proof.Machine
end

