-- ==== Sys2Proof/Machine/Slice.lean ====
section
/-!
DEFINITION. The parts of an actuator slice: where their hidden state and their registers stand, sector
packets, and the strobes by which Ordo arms CHN slots and WPA heads (chapters 3, 4, 5, 9).
-/
namespace Sys2Proof.Machine

/-! ## Homes -/

def State.ulkP (s : State) (n : Nat) : UlkPort := tget (fun _ => {}) s.ulk n
def State.setUlk (s : State) (n : Nat) (p : UlkPort) : State := { s with ulk := tset (fun _ => {}) s.ulk n p }
def State.chnP (s : State) (n : Nat) : Chn := tget (fun _ => {}) s.chn n
def State.setChn (s : State) (n : Nat) (p : Chn) : State := { s with chn := tset (fun _ => {}) s.chn n p }
def State.slot (s : State) (n h : Nat) : ChnSlot := tget (fun _ => {}) (s.chnP n).slots h
def State.setSlot (s : State) (n h : Nat) (x : ChnSlot) : State :=
  s.setChn n { s.chnP n with slots := tset (fun _ => {}) (s.chnP n).slots h x }
def State.wpaP (s : State) (n : Nat) : Wpa := tget (fun _ => {}) s.wpa n
def State.setWpa (s : State) (n : Nat) (p : Wpa) : State := { s with wpa := tset (fun _ => {}) s.wpa n p }
def State.wpaH (s : State) (n h : Nat) : WpaHead := tget (fun _ => {}) (s.wpaP n).heads h
def State.setWpaH (s : State) (n h : Nat) (x : WpaHead) : State :=
  s.setWpa n { s.wpaP n with heads := tset (fun _ => {}) (s.wpaP n).heads h x }
def State.loop (s : State) (i : Nat) : Loop := tget (fun _ => {}) s.svo.loops i
def State.setLoop (s : State) (i : Nat) (x : Loop) : State :=
  { s with svo := { s.svo with loops := tset (fun _ => {}) s.svo.loops i x } }
def State.actP (s : State) (a : Nat) : Act := tget (fun _ => {}) s.act a
def State.setAct (s : State) (a : Nat) (x : Act) : State := { s with act := tset (fun _ => {}) s.act a x }
def State.ordP (s : State) (n : Nat) : Ord := tget (fun _ => {}) s.ord n
def State.setOrd (s : State) (n : Nat) (x : Ord) : State := { s with ord := tset (fun _ => {}) s.ord n x }
def State.modOrd (s : State) (n : Nat) (f : Ord → Ord) : State := s.setOrd n (f (s.ordP n))

/-- Link time as a number of nanoseconds (R85). -/
def State.now (s : State) : Nat := s.ltime.toNat

def ulkCtrl (n : Nat) := regAddr (bULK n) 0x0
def ulkStatus (n : Nat) := regAddr (bULK n) 0x4
def ulkLaneUp (n : Nat) := regAddr (bULK n) 0x8
def ulkInt (n : Nat) := regAddr (bULK n) 0xC
def ulkRtt (n : Nat) := regAddr (bULK n) 0x1C
def ulkSvcfg (n : Nat) := regAddr (bULK n) 0x20
def ulkHeadmap (n h : Nat) := regAddr (bULK n) (0x100 + 4 * h)
def chnCtrl (n : Nat) := regAddr (bCHN n) 0x0
def chnInt (n : Nat) := regAddr (bCHN n) 0x8
def chnDec (n : Nat) := regAddr (bCHN n) 0x10
def chnSync (n : Nat) := regAddr (bCHN n) 0x14
def chnProfCfg (n p : Nat) := regAddr (bCHN n) (0x100 + 0x10 * p)
def chnProfTime (n p : Nat) := regAddr (bCHN n) (0x104 + 0x10 * p)
def chnSlotCfg (n h : Nat) := regAddr (bCHN n) (0x1000 + 0x40 * h)
def chnRef (n h r : Nat) := regAddr (bCHN n) (0x1008 + 0x40 * h + 4 * r)
def chnLive (n h r : Nat) := regAddr (bCHN n) (0x1014 + 0x40 * h + 4 * r)
def chnTr (n h : Nat) := regAddr (bCHN n) (0x1020 + 0x40 * h)
def wpaCtrl (n : Nat) := regAddr (bWPA n) 0x0
def wpaCfg (n : Nat) := regAddr (bWPA n) 0x4
def wpaRawcfg (n : Nat) := regAddr (bWPA n) 0x8
def wpaInt (n : Nat) := regAddr (bWPA n) 0xC
def wpaInhibit (n : Nat) := regAddr (bWPA n) 0x14
def wpaPosS (n : Nat) := regAddr (bWPA n) 0x20
def wpaPosV (n : Nat) := regAddr (bWPA n) 0x24
def wpaPosW (n : Nat) := regAddr (bWPA n) 0x28
def wpaPosM (n : Nat) := regAddr (bWPA n) 0x2C
def wpaRewind (n : Nat) := regAddr (bWPA n) 0x30
def wpaHeadCfg (n h : Nat) := regAddr (bWPA n) (0x1000 + 0x40 * h)
def wpaAssist (n h : Nat) := regAddr (bWPA n) (0x1004 + 0x40 * h)
def wpaFh (n h : Nat) := regAddr (bWPA n) (0x1008 + 0x40 * h)
def wpaTherm (n h : Nat) := regAddr (bWPA n) (0x100C + 0x40 * h)
def wpaHeadStatus (n h : Nat) := regAddr (bWPA n) (0x1010 + 0x40 * h)
def wpaWcp (n h k : Nat) := regAddr (bWPA n) (0x1020 + 0x40 * h + 4 * k)
def wpaHtr (n h k : Nat) := regAddr (bWPA n) (0x2000 + 0x40 * h + 4 * k)
def svoInt := regAddr bSVO 0x8
def svoStatus := regAddr bSVO 0x4
def actInt := regAddr bACT 0x8
def actStatusAll := regAddr bACT 0x4
def actReg (a o : Nat) := regAddr bACT (0x100 + 0x40 * a + o)
def actStatus (a : Nat) := actReg a 0x4
def actGang (a : Nat) := actReg a 0x1C
def actHeaddis (a : Nat) := actReg a 0x18
def ordCtrl (n : Nat) := regAddr (bORD n) 0x0
def ordStatus (n : Nat) := regAddr (bORD n) 0x4
def ordInt (n : Nat) := regAddr (bORD n) 0x8
def ordCfg (n : Nat) := regAddr (bORD n) 0x10
def ordEvtPend (n : Nat) := regAddr (bORD n) 0x44
def ordPblkHeld (n : Nat) := regAddr (bORD n) 0x48

def chnCtr (n i : Nat) : Ctr := ⟨regAddr (bCHN n) (0x40 + 4 * i), regAddr (bCHN n) 0x64, i, chnInt n, 5, 32⟩
def wpaCtr (n i : Nat) : Ctr := ⟨regAddr (bWPA n) (0x40 + 4 * i), regAddr (bWPA n) 0x58, i, wpaInt n, 7, 32⟩
def svoCtr (i : Nat) : Ctr := ⟨regAddr bSVO (0x100 + 4 * i), regAddr bSVO 0x110, i, svoInt, 6, 32⟩
def actCtr (a i : Nat) : Ctr := ⟨actReg a (0x2C + 4 * i), actReg a 0x3C, i, actInt, 7, 32⟩
def ordCtr (n i : Nat) : Ctr := ⟨regAddr (bORD n) (0x60 + 4 * i), regAddr (bORD n) 0x70, i, ordInt n, 6, 32⟩

def svoStack (a : Nat) := regAddr bSVO (0x30 + 4 * a)
def svoOutlead (a : Nat) := regAddr bSVO (0x40 + 4 * a)

/-- A register whose write takes effect at the next wedge boundary, as it is in force (R206). -/
def State.svoEff (s : State) (a : Nat) : W := (tget (fun _ => none) s.svo.held a).getD (s.reg a)

/-- Heads of actuator a in the stack position (R183). -/
def State.stackMask (s : State) (a : Nat) : Nat := fld (s.svoEff (svoStack a)) 0 24

/-- ACT_Aa_STATUS.STATE (Table 7.1): 0 Parked, 1 Loading, 2 Tracking, 3 Seeking, 4 Settling,
5 Retracting, 6 Disabled. -/
def State.actSt (s : State) (a : Nat) : Nat := s.rfld (actStatus a) 0 3
def State.setActSt (s : State) (a v : Nat) : State := s.setRfld (actStatus a) 0 3 v

/-- WPA takes the heads as on the ramp in Parked, Loading, Retracting and Disabled (R207). -/
def State.onRamp (s : State) (a : Nat) : Bool :=
  s.actSt a == 0 || s.actSt a == 1 || s.actSt a == 5 || s.actSt a == 6

/-! ## The servo memory (R194, Tables 6.5 and 6.9) -/

/-- A word of the servo memory. -/
def State.svoWord (s : State) (i : Nat) : W := tget (fun _ => 0) s.svo.mem i
def State.putSvoWord (s : State) (i : Nat) (v : W) : State :=
  { s with svo := { s.svo with mem := xorPair (tset (fun _ => 0) s.svo.mem i v) (i / 2) (s.sramFlip 26 (i / 2)) } }

/-- Write a word of the servo memory. -/
def State.setSvoWord (s : State) (i : Nat) (v : W) : State := (s.putSvoWord i v).sramWrote 26 (i / 2)

/-- The first word of the coefficient set k, of the state and of the descriptor of loop i. -/
def setWord (k : Nat) : Nat := 96 * k
def stateWord (i : Nat) : Nat := 0x2B200 / 4 + 64 * i
def descWord (i : Nat) : Nat := 0x3DA00 / 4 + 8 * i

/-- The states of a loop are zeroed. -/
def State.zeroState (s : State) (i : Nat) : State :=
  ({ s with svo := { s.svo with mem := tdrop s.svo.mem (stateWord i) (stateWord i + 64) } } : State).sramSwept 26 (stateWord i / 2)
    (stateWord i / 2 + 32)

/-- SAT_COUNT of a loop (Table 6.9). -/
def State.satCount (s : State) (i : Nat) : Nat := fld (s.svoWord (descWord i + 7)) 0 16
def State.setSatCount (s : State) (i n : Nat) : State :=
  s.setSvoWord (descWord i + 7) (setFld (s.svoWord (descWord i + 7)) 0 16 n)

/-! ## Notices and fatal events to an engine (R281, R282) -/

/-- Latch notice `bit` of Table 9.6. -/
def State.notice (s : State) (n bit : Nat) : State := s.setRbit (ordEvtPend n) bit true

/-- A MOP is admitted, waiting or running on the engine. -/
def State.mopInFlight (s : State) (n : Nat) : Bool :=
  match (s.ordP n).phase with
  | .running => true
  | .waiting _ _ => true
  | _ => false

/-- Latch fatal event `i` of R282, counted from 0 in its order, with the status the MOP will end with;
between cycles the first latched wins. -/
def State.fatalEvent (s : State) (n i status : Nat) : State :=
  let s := s.setRbit (ordEvtPend n) (16 + i) true
  s.modOrd n fun o => { o with fatal := if o.fatal = 0 then status else o.fatal }

/-! ## Sector packets (R150) -/

/-- Put a sector packet into the actuator's sector queue, 17 cells when good, one when failed. -/
def State.sectorPacket (s : State) (n : Nat) (info : List Byte) (r : SectorRec) : State :=
  s.put (48 + n) ⟨.sector info r, if r.status = 0 then 4144 else 32, false⟩

/-- The quality record of a sector's first pass (Table 4.5). -/
def Sector.record (q : Sector) (h status iters : Nat) : SectorRec := {
  status := status, source := q.source, anchor := q.anchorKind
  syncOffset := match q.anchor with
    | some a => BitVec.ofInt 8 a
    | none => 0x80
  syncDist := q.dist, iterations := iters, readers := q.readers, initUnsat := q.unsat, defectBits := min 65535 q.defect
  meanLlr := min 255 q.meanLlr, class_ := fld q.profCfg 7 1, slot := h, profile := q.prof, ltime := q.ltime
  gateId := q.gateId }

/-- The failure packet of a REPLAY strobe that reaches no sector (R150). -/
def State.replayLost (s : State) (n h rung status : Nat) : State :=
  let x := s.slot n h
  s.sectorPacket n [] { status := status, source := 0x10 + rung, slot := h, profile := if x.armed then x.prof else 0 }

/-! ## CHN strobes (Table 4.2) -/

/-- Readers named by a slot's profile copy, or those fitted (Table 4.11). -/
def State.slotReaders (s : State) (n h : Nat) (profCfg : W) : Nat :=
  if fld profCfg 16 3 ≠ 0 then fld profCfg 16 3 else s.rfld (chnSlotCfg n h) 1 3

/-- The least number of granules for a number of readers (R140). -/
def minGranules (readers : Nat) : Nat := ceilDiv (3 * 46500 * readers) 65536

/-- The loops of a slot hold these values: CHN_SLOTh_LIVEr shows them (R136). -/
def State.setLoops (s : State) (n h : Nat) (acc : List Int) : State :=
  (s.setSlot n h { s.slot n h with acc := acc }).each (upto 3) fun s r => s.setReg (chnLive n h r) (liveWord acc r)

/-- Load a slot's loops from its reference values (R136, R137). -/
def State.loadSeeds (s : State) (n h : Nat) : State :=
  s.setLoops n h ((upto 3).map fun r => loopSeed (s.reg (chnRef n h r))).flatten

/-- A slot works only when CHN_CTRL.ENABLE and CHN_SLOTh_CFG.ENABLE are 1 (R119). -/
def State.slotOn (s : State) (n h : Nat) : Bool := s.rbit (chnCtrl n) 0 && s.rbit (chnSlotCfg n h) 0

/-- CHN_PROFk_TIME as an ARM copies it: a LEAD that waits for its boundary is not yet in force, the rate is (R120, R511). -/
def State.profTime (s : State) (n k : Nat) : W :=
  setFld (s.reg (chnProfTime n k)) 0 16 (fld (s.effReg (chnProfTime n k)) 0 16)

/-- The loops of a slot start over at an ARM; sectors that still arrive go on with what was before (R136, R139). -/
def ChnSlot.startOver (x : ChnSlot) : ChnSlot :=
  { x with
    before := (x.acc, x.carry, x.phase), carry := [], phase := 0
    sectors := x.sectors.map fun q => if q.st == .arriving then { q with old := true } else q }

/-- Arm a slot with a copy of profile `k`, or refuse: CHN_SLOT_DISABLED, CHN_REPLAY_SHORT (R119, R120, R140). An armed slot is disarmed
in either case (R121). A slot that `holds no sector' (R140) holds none of any state: log 53. -/
def State.armSlot (s : State) (n h k : Nat) : State :=
  let x := s.slot n h
  let cfg := s.reg (chnProfCfg n k)
  let granules := if x.sectors = [] then s.rfld (chnSlotCfg n h) 4 7 else x.granules
  let short := decide (granules < minGranules (popCount 3 (s.slotReaders n h cfg)))
  let x := { x with armed := false, disarming := false, rearm := none, inForce := [], lost := none }
  if !s.slotOn n h then s.setSlot n h { x with refused := 0x166 }
  else if short then s.setSlot n h { x with granules := granules, refused := 0x163 }
  else
    (s.setSlot n h { x.startOver with
      armed := true, prof := k, profCfg := cfg, profTime := s.profTime n k, refused := 0, granules := granules }).loadSeeds n h

/-- A sector of the slot is being taken from the media. -/
def ChnSlot.midSector (x : ChnSlot) : Bool := x.sectors.any fun q => q.st == .arriving

/-- The slot is disarmed: registers written while it was armed are in force (R121, R153). -/
def ChnSlot.disarmed (x : ChnSlot) : ChnSlot :=
  { x with armed := false, disarming := false, rearm := none, refused := 0, inForce := [] }

/-- A sector boundary of the slot: a waiting ARM or DISARM acts, and registers written meanwhile are in force (R121, R153). -/
def State.sectorBoundary (s : State) (n h : Nat) : State :=
  let x := s.slot n h
  match x.rearm with
  | some k => s.armSlot n h k
  | none => s.setSlot n h (if x.disarming then x.disarmed else { x with inForce := [] })

/-- ARM_Pk: an ARM to an armed slot acts as a DISARM followed by the ARM at the next sector boundary (R121). -/
def State.strobeArm (s : State) (n h k : Nat) : State :=
  let x := s.slot n h
  if x.armed ∧ x.midSector then s.setSlot n h { x with rearm := some k } else s.armSlot n h k

/-- DISARM: the gate processing ends after the current sector (R121). -/
def State.strobeDisarm (s : State) (n h : Nat) : State :=
  let x := s.slot n h
  if x.midSector then s.setSlot n h { x with disarming := true, rearm := none }
  else s.setSlot n h x.disarmed

/-- HOLD_ON and HOLD_OFF (R121). -/
def State.strobeHold (s : State) (n h : Nat) (on : Bool) : State :=
  s.setSlot n h { s.slot n h with hold := on }

/-- The slot holds a sector, executing or not (R146). -/
def ChnSlot.holds (x : ChnSlot) : Bool := x.sectors.any fun q => q.st == .held || q.st == .executing

/-- REPLAY_1 to REPLAY_5: queue a replay operation, or complete it with CHN_REPLAY_LOST when the slot
holds no sector or four are queued (R145, R146). -/
def State.strobeReplay (s : State) (n h rung : Nat) : State :=
  let x := s.slot n h
  if !x.holds || decide (4 ≤ x.ops.length) then s.replayLost n h rung 0x162
  else s.setSlot n h { x with ops := x.ops ++ [rung] }

/-- The slot with its borrowed granules returned when it holds no sector, of any state (R143, log 53). -/
def ChnSlot.settleLoans (x : ChnSlot) : ChnSlot := if x.sectors = [] then { x with loaned := 0 } else x

/-- RELEASE: free the slot's oldest held sector, or let a running operation free it at its end (R145). -/
def State.strobeRelease (s : State) (n h : Nat) : State :=
  let x := s.slot n h
  match x.sectors.find? (fun q => q.st == .held || q.st == .executing), x.op with
  | none, _ => s
  | some q, some o =>
    if q.st == .executing then s.setSlot n h { x with op := some { o with release := true } }
    else s.setSlot n h ({ x with sectors := removeFirst (fun q => q.st == SecState.held) x.sectors } : ChnSlot).settleLoans
  | some _, none =>
    s.setSlot n h ({ x with sectors := removeFirst (fun q => q.st == SecState.held) x.sectors } : ChnSlot).settleLoans

/-! ## WPA strobes (Table 5.2) -/

/-- A head's write state (Table 5.1): 0 Unloaded, 1 Loaded, 2 Armed, 3 Inhibited. -/
def State.wpaSt (s : State) (n h : Nat) : Nat := s.rfld (wpaHeadStatus n h) 0 2

/-- A loop's result does not go out, and a drive of 0 goes in its place at the loop's next P (R161, R163, Table 6.6). -/
def State.zeroDrive (s : State) (i : Nat) : State := s.setLoop i { s.loop i with zeroOut := true, pending := false }

/-- A loop is held reset: its section states, its SAT_COUNT and its OUT are 0 (R161). -/
def State.holdReset (s : State) (i : Nat) : State := ((s.zeroState i).setSatCount i 0).setSvoWord (descWord i + 6) 0

/-- The head takes a write state. Outside Armed the assist loop is held reset: its drive is 0, and an entry to Armed finds its section
states zero (R161, R163). In Unloaded the heater's drive is 0 too (Table 5.1). -/
def State.setWpaSt (s : State) (n h v : Nat) : State :=
  let was := s.wpaSt n h
  let s := s.setRfld (wpaHeadStatus n h) 0 2 v
  let s := s.onlyIf (was == 2 && v != 2) fun s => (s.zeroDrive (104 + 24 * n + h)).holdReset (104 + 24 * n + h)
  let s := s.onlyIf (was != 2 && v == 2) fun s =>
    s.setLoop (104 + 24 * n + h) { s.loop (104 + 24 * n + h) with fresh := true, zeroOut := false }
  s.onlyIf (was != 0 && v == 0) fun s => s.zeroDrive (200 + 24 * n + h)

/-- A field of WPA_HEADh_FH in force: the register's value at the head's last fly-height update (R180). -/
def State.fhFld (s : State) (n h lo len : Nat) : Nat := fld (s.wpaH n h).fh lo len

/-- A step field limited to STEP_MAX (R166). -/
def State.stepCap (s : State) (n h k : Nat) : Nat := min k (s.fhFld n h 8 4)

/-- The heater step in force for the head's write state (Table 5.1, R166). -/
def State.heaterStep (s : State) (n h : Nat) : Nat :=
  if s.wpaSt n h = 2 then s.stepCap n h (s.fhFld n h 4 4)
  else s.stepCap n h (s.fhFld n h 0 4 + (if s.wpaSt n h = 1 ∧ (s.wpaH n h).fhDown then 1 else 0))

/-- Bring WPA_HEADh_STATUS.STEP in line with the write state (R165). -/
def State.wpaSettle (s : State) (n h : Nat) : State := s.setRfld (wpaHeadStatus n h) 8 4 (s.heaterStep n h)

/-- WARM_Pk and WARM_Pk_B: Loaded to Armed; in Armed only the profile and mark for later gates change; dropped
in the other states and while WPA_CTRL.ENABLE is 0 (R155, Table 5.8). -/
def State.strobeWarm (s : State) (n h k : Nat) (backup : Bool) : State :=
  if !s.rbit (wpaCtrl n) 0 then s
  else if s.wpaSt n h = 1 then
    let s := (((s.setWpaSt n h 2).setRfld (wpaHeadStatus n h) 2 2 k).setRbit (wpaHeadStatus n h) 4 backup).setRbit
      (wpaHeadStatus n h) 12 false
    let s := s.setWpaH n h { s.wpaH n h with warmAt := s.ltime, wdisarm := none, fhDown := false, thermOut := 0 }
    s.wpaSettle n h
  else if s.wpaSt n h = 2 then
    s.setRfld (wpaHeadStatus n h) 2 2 k
  else s

/-- The gate is open: sent, started, and neither ended nor aborted. -/
def Gate.isOpen (g : Gate) (now : Nat) : Bool := g.sent && !g.cut && decide (g.start ≤ now) && decide (now < g.stop)

/-- The head's open write gate. -/
def State.openWrite (s : State) (n h : Nat) : Option Gate :=
  (s.ordP n).gates.find? fun g => g.head == h && (g.kind == .write || g.kind == .spare) && g.isOpen s.now

/-- A write gate of the head is open. -/
def State.writeOpen (s : State) (n h : Nat) : Bool := (s.openWrite n h).isSome

/-- WDISARM: Armed to Loaded when the head's open gate ends, at once with none open (Table 5.2). -/
def State.strobeWdisarm (s : State) (n h : Nat) : State :=
  if s.wpaSt n h = 2 then
    match s.openWrite n h with
    | some g => s.setWpaH n h { s.wpaH n h with wdisarm := some g.id }
    | none => (s.setWpaSt n h 1).wpaSettle n h
  else s

/-- FH_DOWN1: in Loaded, heater step READ_STEP + 1, or NO_LOWER when READ_STEP is STEP_MAX (R155, R166). -/
def State.strobeFhDown (s : State) (n h : Nat) : State :=
  if s.wpaSt n h = 1 then
    if s.fhFld n h 8 4 ≤ s.fhFld n h 0 4 then s.setRbit (wpaHeadStatus n h) 12 true
    else (s.setWpaH n h { s.wpaH n h with fhDown := true }).wpaSettle n h
  else s

/-- FH_RESTORE ends what FH_DOWN1 did: in Loaded the heater step is READ_STEP again, and NO_LOWER clears (R155, Table 5.9). -/
def State.strobeFhRestore (s : State) (n h : Nat) : State :=
  let s := (s.setRbit (wpaHeadStatus n h) 12 false).setWpaH n h { s.wpaH n h with fhDown := false }
  if s.wpaSt n h = 1 then s.wpaSettle n h else s

/-! ## Any strobe (R26, R121, R155) -/

/-- The CHN section is running: its block is powered and its clock gate is open. -/
def State.gateOpen (s : State) (blk : Nat) : Bool :=
  s.rbit (regAddr bCLK (0x50 + 4 * (blk / 32))) (blk % 32)

/-- A strobe to CHN slot `h`: an unlisted code is dropped and counted as a violation of the ORD source;
a strobe to a section that is not running is dropped. -/
def State.chnStrobe (s : State) (n h code : Nat) : State :=
  if !s.gateOpen (bCHN n) then s
  else if 0x10 ≤ code ∧ code ≤ 0x17 then s.strobeArm n h (code - 0x10)
  else if code = 0x20 then s.strobeDisarm n h
  else if code = 0x21 then s.strobeHold n h true
  else if code = 0x22 then s.strobeHold n h false
  else if 0x31 ≤ code ∧ code ≤ 0x35 then s.strobeReplay n h (code - 0x30)
  else if code = 0x3F then s.strobeRelease n h
  else s.mgtViolate (4 + n)

/-- A strobe to WPA head `h`. -/
def State.wpaStrobe (s : State) (n h code : Nat) : State :=
  if !s.gateOpen (bWPA n) then s
  else if 0x40 ≤ code ∧ code ≤ 0x43 then s.strobeWarm n h (code - 0x40) false
  else if 0x44 ≤ code ∧ code ≤ 0x47 then s.strobeWarm n h (code - 0x44) true
  else if code = 0x48 then s.strobeWdisarm n h
  else if code = 0x58 then s.strobeFhDown n h
  else if code = 0x59 then s.strobeFhRestore n h
  else s.mgtViolate (4 + n)

end Sys2Proof.Machine
end

