-- ==== Sys2Proof/Machine/Flit.lean ====
section
/-!
DEFINITION. Flits as they are built and sent: their layout and line code, the transmit side of a lane, the lane maps of heads, and
what Uslen sends down (R83, R87 to R90, R93, R96 to R99, R157, R189).
-/
namespace Sys2Proof.Machine

/-! ## The layout of a flit (R87, Table 3.3) -/

/-- CRC-16, polynomial 0x8005, most significant bit first, over bits. -/
def crc16 : BitVec 16 → List Bool → BitVec 16
  | c, [] => c
  | c, b :: bs => crc16 (if (c.getLsbD 15).xor b then (c <<< 1) ^^^ 0x8005 else c <<< 1) bs

/-- The first 62 bytes of a flit with the CRC of R87 behind them, most significant byte first. -/
def withFlitCrc (b : List Byte) : List Byte := b ++ beBytes 2 (crc16 0xFFFF (wireBits b)).toNat

/-- A flit: header, 60 payload bytes, and the CRC; payload bytes that are not given are 0. -/
def mkFlit (type sub : Nat) (seq : BitVec 8) (rpl : Bool) (payload : List Byte) : List Byte :=
  withFlitCrc (leBytes 2 (type + (if rpl then 16 else 0) + 32 * seq.toNat + 8192 * sub) ++ (payload ++ List.replicate 60 0).take 60)

/-- The flit's CRC is good. -/
def flitCrcOk (f : List Byte) : Bool :=
  f.length == 64 && (crc16 0xFFFF (wireBits (f.take 62))).toNat == (lget 0 f 62).toNat * 256 + (lget 0 f 63).toNat

/-- Header fields of a flit. -/
def flitHdr (f : List Byte) : Nat := (lget 0 f 0).toNat + 256 * (lget 0 f 1).toNat
def flitType (f : List Byte) : Nat := flitHdr f % 16
def flitRpl (f : List Byte) : Bool := (flitHdr f).testBit 4
def flitSeq (f : List Byte) : BitVec 8 := BitVec.ofNat 8 (flitHdr f / 32)
def flitSub (f : List Byte) : Nat := flitHdr f / 8192

/-- `n` bytes of a flit from byte `i` on, little-endian (R89). -/
def flitLe (f : List Byte) (i n : Nat) : Nat := leNat ((f.drop i).take n)

/-- The flit as it is resent: RPL 1, and the CRC that goes with it (R96). -/
def asReplay (f : List Byte) : List Byte := withFlitCrc (((lget 0 f 0) ||| 16) :: (f.take 62).drop 1)

/-- The type consumes a SEQ value (Table 3.4). -/
def sequenced (t : Nat) : Bool := decide (4 ≤ t) && decide (t ≤ 11)

/-- PAM4: each symbol carries two bits, and the pairs 00, 01, 11 and 10 stand for the levels from lowest to highest (R87). -/
def pam4 : List Bool → List Nat
  | a :: b :: l => (if a then (if b then 2 else 3) else if b then 1 else 0) :: pam4 l
  | _ => []

/-- The symbols of a flit on a lane at a rate: PAM4 at 112 and 56 Gbit/s, NRZ at 28 (Table 3.2, R87). -/
def flitSymbols (rate : Nat) (f : List Byte) : List Nat :=
  if rate = 2 then (wireBits f).map fun b => if b then 1 else 0 else pam4 (wireBits f)

/-! ## The transmit side of a lane (R96 to R98) -/

/-- A sequenced flit takes the lane's next SEQ. -/
def TxLane.flit (t : TxLane) (type sub : Nat) (payload : List Byte) : List Byte := mkFlit type sub t.next false payload

/-- The lane with a flit sent that is not held for replay (R99). -/
def TxLane.pass (t : TxLane) : TxLane := { t with next := t.next + 1 }

/-- The lane with a flit that is held until it is acknowledged. -/
def TxLane.hold (t : TxLane) (f : List Byte) : TxLane := { next := t.next + 1, held := t.held ++ [(t.next, f)] }

/-- A flit held may go out: fewer than 128 before it are unacknowledged (R97). -/
def TxLane.room (t : TxLane) : Bool := decide (t.held.length < 128)

/-- The flits of a held list from the one with a given SEQ on. -/
def heldFrom (seq : BitVec 8) : List (BitVec 8 × List Byte) → List (BitVec 8 × List Byte)
  | [] => []
  | e :: es => if e.1 = seq then e :: es else heldFrom seq es

/-- The flits that have been sent and not acknowledged. -/
def TxLane.sent (t : TxLane) : List (BitVec 8 × List Byte) := t.held.take 128

/-- A SEQ is that of a flit sent and not acknowledged. -/
def TxLane.knows (t : TxLane) (seq : BitVec 8) : Bool := t.sent.any fun e => e.1 == seq

/-- The lane after an ACK of a SEQ it knows (R96). -/
def TxLane.acked (t : TxLane) (seq : BitVec 8) : TxLane := { t with held := (heldFrom seq t.held).drop 1 }

/-- The flits that such an ACK lets go out: they waited behind 128 others (R97). -/
def TxLane.freed (t : TxLane) (seq : BitVec 8) : List (List Byte) :=
  let rest := (t.acked seq).held
  ((rest.take 128).drop (t.sent.length - (t.held.length - rest.length))).map fun e => e.2

/-- The SEQ of the next flit that goes out for the first time. -/
def TxLane.unsent (t : TxLane) : BitVec 8 := match t.held.drop 128 with
  | [] => t.next
  | e :: _ => e.1

/-- The flits that a NAK asks for, as they are resent (R96). -/
def TxLane.resent (t : TxLane) (seq : BitVec 8) : List (List Byte) := (heldFrom seq t.sent).map fun e => asReplay e.2

/-! ## Head maps (R83, R116) -/

/-- Lanes up (ULK_LANE_UP). -/
def State.lanesUp (s : State) (n : Nat) : Nat := s.rfld (ulkLaneUp n) 0 26
def State.setLanesUp (s : State) (n m : Nat) : State := s.setRfld (ulkLaneUp n) 0 26 m

/-- The lane map of head h in force. -/
def State.headMap (s : State) (n h : Nat) : W := tget (fun _ => 0x380) (s.ulkP n).mapInForce h

/-- The first data lane a map names. -/
def firstLane (m : W) : Nat := fld m 2 5

/-- The data lanes a map names. -/
def mapLanes (m : W) : List Nat := if bitAt m 1 then [firstLane m, firstLane m + 1] else [firstLane m]

/-- An enabled head is in map error: a lane above 23, an odd first lane of two, or a lane another enabled
head names (R83). A two-lane head with an odd first lane names the lane above it too, which may be another head's: log 90. -/
def State.mapErr (s : State) (n h : Nat) : Bool :=
  let m := s.headMap n h
  bitAt m 0 && (decide (23 < firstLane m) || (bitAt m 1 && firstLane m % 2 == 1) ||
    (upto 24).any fun h' => h' != h && bitAt (s.headMap n h') 0 &&
      (mapLanes (s.headMap n h')).any fun l => (mapLanes m).contains l)

/-- Head h is in service on the link. -/
def State.headMapped (s : State) (n h : Nat) : Bool := bitAt (s.headMap n h) 0 && !s.mapErr n h

/-- Recompute MAP_ERR: 1 while any enabled head is in error (R83). -/
def State.updateMapErr (s : State) (n : Nat) : State :=
  s.setRbit (ulkStatus n) 10 ((upto 24).any fun h => s.mapErr n h)

/-- The head in service that has a data lane, and how many lanes into its map the lane lies. -/
def State.laneHead (s : State) (n l : Nat) : Option Nat :=
  (upto 24).find? fun h => s.headMapped n h && (mapLanes (s.headMap n h)).contains l

/-! ## Sending (R88, R96, R97, R99) -/

def State.rxl (s : State) (n l : Nat) : RxLane := tget (fun _ => {}) (s.ulkP n).rx l
def State.setRxl (s : State) (n l : Nat) (r : RxLane) : State :=
  s.setUlk n { s.ulkP n with rx := tset (fun _ => {}) (s.ulkP n).rx l r }
def State.txl (s : State) (n l : Nat) : TxLane := tget (fun _ => {}) (s.ulkP n).tx l
def State.setTxl (s : State) (n l : Nat) (r : TxLane) : State :=
  s.setUlk n { s.ulkP n with tx := tset (fun _ => {}) (s.ulkP n).tx l r }

/-- An unsequenced flit leaves on a lane. -/
def State.sendPlain (s : State) (n l type : Nat) (payload : List Byte) : State :=
  s.emit (.flit n l false (mkFlit type 0 0 false payload))

/-- A LINK flit: 1 ACK, 2 NAK, 3 SLEEP, 4 SLEEP_ACK (Table 3.5). -/
def State.sendLink (s : State) (n l kind : Nat) (lseq : BitVec 8) : State :=
  s.sendPlain n l 1 [BitVec.ofNat 8 kind, lseq]

/-- A TIME flit on S0: 0 ECHO_REQ, 1 ECHO_REPLY, 2 SET (Table 3.5). -/
def State.sendTime (s : State) (n kind : Nat) (v : D) : State :=
  s.sendPlain n 24 3 (BitVec.ofNat 8 kind :: leBytes 8 v.toNat)

/-- ULK_STATUS.STATE: 0 Off, 1 Reset, 2 Training, 3 Active, 4 Rate switch, 5 Sleep, 6 Waking, 7 Failed. -/
def State.ulkSt (s : State) (n : Nat) : Nat := s.rfld (ulkStatus n) 0 4
def State.setUlkSt (s : State) (n v : Nat) : State := s.setRfld (ulkStatus n) 0 4 v

/-- The lane carries sequenced traffic: it is up, and the port has become Active (Table 3.11, step 8). -/
def State.laneReady (s : State) (n l : Nat) : Bool := (s.lanesUp n).testBit l && (s.ulkSt n == 3 || s.ulkSt n == 4)

/-- A sequenced flit on a lane that carries such traffic: on a data lane it is held until it is acknowledged, and goes out at once while
fewer than 128 are; on a servo lane it is neither held nor resent. -/
def State.sendSeq (s : State) (n l type : Nat) (payload : List Byte) : State :=
  if s.laneReady n l then
    let t := s.txl n l
    let f := t.flit type 0 payload
    if l < 24 then (s.setTxl n l (t.hold f)).onlyIf t.room fun s => s.emit (.flit n l false f)
    else (s.setTxl n l t.pass).emit (.flit n l false f)
  else s

/-- Flits that were held and now go out, or go out again. -/
def State.emitFlits (s : State) (n l : Nat) (rpl : Bool) (fs : List (List Byte)) : State :=
  s.each fs fun s f => s.emit (.flit n l rpl f)

/-! ## Head commands and write data (R90, R157, Tables 3.5 and 3.6) -/

/-- The payload of a HEAD_CMD: OPCODE at byte 2, parameters from byte 4. -/
def cmdPayload (op : Nat) (params : List Byte) : List Byte := BitVec.ofNat 8 op :: 0 :: params

/-- READ_GATE: LENGTH in ns, 0 until READ_STOP. -/
def readGateCmd (id start length readers baud : Nat) : List Byte :=
  cmdPayload 1 (leBytes 2 id ++ leBytes 4 start ++ leBytes 4 length ++ leBytes 1 readers ++ leBytes 2 baud)
def readStopCmd (id stop : Nat) : List Byte := cmdPayload 2 (leBytes 2 id ++ leBytes 4 stop)
def writeGateCmd (id start bits baud : Nat) : List Byte :=
  cmdPayload 3 (leBytes 2 id ++ leBytes 4 start ++ leBytes 4 bits ++ [0] ++ leBytes 2 baud)
def writeAbortCmd (id : Nat) : List Byte := cmdPayload 4 (leBytes 2 id)
def writeProfileCmd (base amp dur : Nat) : List Byte := cmdPayload 5 (leBytes 1 base ++ leBytes 1 amp ++ leBytes 1 dur)
def readerBiasCmd (codes : List Byte) : List Byte := cmdPayload 6 (codes.take 3)
def regWriteCmd (addr data : Nat) : List Byte := cmdPayload 7 (leBytes 2 addr ++ leBytes 4 data)
def regReadCmd (addr : Nat) : List Byte := cmdPayload 8 (leBytes 2 addr)

/-- A head command goes on the first lane of a head in service; none goes to any other head (R83, Table 3.4). -/
def State.sendCmd (s : State) (n h : Nat) (payload : List Byte) : State :=
  if s.headMapped n h then s.sendSeq n (firstLane (s.headMap n h)) 9 payload else s

/-- A Cysel register is read: its HEAD_REPLY is outstanding (Table 3.6, R114). -/
def State.sendRegRead (s : State) (n h addr : Nat) : State :=
  (s.setUlk n { s.ulkP n with regRead := tset (fun _ => false) (s.ulkP n).regRead h true }).sendCmd n h (regReadCmd addr)

/-- The channel bits of a sector: 78 WRITE_DATA flits of 480 bits on the first lane of a head in service, the last with 240 (R83,
R157). -/
def State.sendWriteData (s : State) (n h : Nat) (bits : List Bool) : State :=
  s.onlyIf (s.headMapped n h) fun s => s.each (pieces 480 78 bits) fun s b => s.sendSeq n (firstLane (s.headMap n h)) 8 (packBits 60 b)

/-! ## Servo outputs (R89, R99, R189) -/

/-- A SERVO_OUT payload: APPLY, COUNT, and for each entry HEAD, KIND and VALUE. -/
def servoOutPayload (apply : Nat) (es : List (Nat × Nat × Nat)) : List Byte :=
  leBytes 4 apply ++ leBytes 1 es.length ++ (es.map fun e => leBytes 1 e.1 ++ leBytes 1 e.2.1 ++ leBytes 2 e.2.2).flatten

/-- The flits that wait go out, each on both servo lanes. -/
def State.flushServo (s : State) (n : Nat) : State :=
  s.setUlk n { s.ulkP n with servoQ := [] } |>.each (s.ulkP n).servoQ fun s f =>
    (s.sendSeq n 24 11 (servoOutPayload f.1 f.2)).sendSeq n 25 11 (servoOutPayload f.1 f.2)

/-- Entries join the flit that waits with their APPLY, up to 13, or begin another (R189). -/
def joinFlit (apply : Nat) (es : List (Nat × Nat × Nat)) : List (Nat × List (Nat × Nat × Nat)) → List (Nat × List (Nat × Nat × Nat))
  | [] => [(apply, es)]
  | f :: fs => if f.1 = apply ∧ f.2.length + es.length ≤ 13 then (apply, f.2 ++ es) :: fs else f :: joinFlit apply es fs

/-- Entries for one port, with the APPLY at which they take effect, given as link time: those with the same APPLY share a flit (R189). What
waits goes out when a nanosecond passes. -/
def State.servoOut (s : State) (n apply : Nat) (es : List (Nat × Nat × Nat)) : State :=
  let p := s.ulkP n
  let now := s.now
  s.setUlk n { p with servoQ := joinFlit apply es p.servoQ, applies := apply :: p.applies.filter fun a => decide (now ≤ a) }

end Sys2Proof.Machine
end

