-- ==== Sys2Proof/Machine/Band.lean ====
section
/-!
DEFINITION. What several blocks of a slice do together: the governor (R217 to R219), the start and the end
of a MOP (R275 to R278), gates cancelled and aborted, the band positions (R170 to R177), write inhibit
(R163), heads dropped from a gang (R216) and the emergency retract (R227).
-/
namespace Sys2Proof.Machine

/-! ## The zone table, as firmware keeps it (R57, R58) -/

def State.modFw (s : State) (f : Fw → Fw) : State := { s with fw := f s.fw }

def State.ring (s : State) (a : Nat) : Ring := tget (fun _ => {}) s.fw.rings a
def State.setRing (s : State) (a : Nat) (r : Ring) : State := s.modFw fun f => { f with rings := tset (fun _ => {}) f.rings a r }

def State.zone (s : State) (z : Nat) : Zone := tget (fun _ => {}) s.fw.zones z
def State.setZone (s : State) (z : Nat) (x : Zone) : State := s.modFw fun f => { f with zones := tset (fun _ => {}) f.zones z x }
def State.modZone (s : State) (z : Nat) (f : Zone → Zone) : State := s.setZone z (f (s.zone z))

/-- The group of a zone. -/
def State.groupOf (s : State) (z : Nat) : Option Group := s.groups.find? fun g => decide (g.first ≤ z) && decide (z < g.first + g.count)

/-- The head at position p of a group's gang map (Table 2.4). -/
def Group.head (g : Group) (p : Nat) : Nat := (g.gangMap >>> (5 * p)) % 32


/-! ## A MOP's descriptor (Tables 9.2 to 9.4) -/

def Mop.opcode (m : Mop) : Nat := fld m.w0 0 6
def Mop.pblkNo (m : Mop) : Nat := fld m.w0 6 5
def Mop.alt (m : Mop) : Bool := bitAt m.w0 18
def Mop.tag (m : Mop) : Nat := fld m.w1 0 16
def Mop.count (m : Mop) : Nat := fld m.w1 16 16
def Mop.stripe (m : Mop) : Nat := m.w2.toNat
def Mop.zoneTag (m : Mop) : Nat := fld m.w3 0 22
def Mop.area (m : Mop) : Nat := fld m.w3 22 2

/-- A store word (R267). -/
def Ord.word (o : Ord) (i : Nat) : W := tget (fun _ => 0) o.store i
/-- A word of the MOP's parameter block copy (R275). -/
def Ord.pb (o : Ord) (i : Nat) : W := tget (fun _ => 0) o.pblk i
/-- The gang width of the MOP (Table 9.4). -/
def Ord.g (o : Ord) : Nat := fld (o.pb 6) 0 4
/-- Data slots D of the MOP (R53, Table 9.4). -/
def Ord.dSlots (o : Ord) : Nat := o.g - (if bitAt (o.pb 6) 4 then 2 else 1)
/-- Sectors per track (Table 9.4). -/
def Ord.sPerTrack (o : Ord) : Nat := fld (o.pb 1) 16 16
/-- The head at gang position `p` (Table 2.4). -/
def Ord.gangHead (o : Ord) (p : Nat) : Nat := (((o.pb 4).toNat + (o.pb 5).toNat * 2 ^ 32) >>> (5 * p)) % 32
/-- A register of the engine: X0 reads 0 (R286). -/
def Ord.xr (o : Ord) (i : Nat) : W := if i = 0 then 0 else tget (fun _ => 0) o.x i
/-- Write a register: writes to X0 are ignored (R286). -/
def Ord.setX (o : Ord) (i : Nat) (v : W) : Ord := if i = 0 then o else { o with x := tset (fun _ => 0) o.x i v }

/-- A mask of AREA or kind: a write into the band's spare area (R177). -/
def Gate.isWrite (g : Gate) : Bool := g.kind == .write || g.kind == .spare

/-! ## Completions (R272, R277, R278, Table 9.5) -/

/-- Post a completion entry. -/
def State.postCpl (s : State) (n : Nat) (c : MopCpl) : State :=
  (s.modOrd n fun o => { o with cpls := o.cpls ++ [c] }).raise (ordInt n) 0

/-- A MOP completes unstarted with a status (R273, R274). -/
def State.returnMop (s : State) (n : Nat) (m : Mop) (status : Nat) : State :=
  (s.postCpl n {
    c0 := BitVec.ofNat 32 (m.tag + 65536 * status), c1 := 0, c2 := 0xFFFFFFFF, c3 := 0, pblk := m.pblkNo }).count
    (ordCtr n 2)

/-- Every refused descriptor at the head of the queue completes, in queue order (R273). -/
def State.flushRefused (s : State) (n : Nat) : Nat → State
  | 0 => s
  | k + 1 =>
    match (s.ordP n).queue with
    | [] => s
    | m :: ms =>
      if m.refused ≠ 0 then ((s.modOrd n fun o => { o with queue := ms }).returnMop n m m.refused).flushRefused n k
      else s

/-! ## The governor (R217 to R219) -/

def actGovBudget := regAddr bACT 0x10
def actGovUsed := regAddr bACT 0x14
def actGovCost := regAddr bACT 0x18

/-- The charges of a MOP: run part and seek part, in 10 mW (R217, R275). -/
def State.govCost (s : State) (n : Nat) (o : Ord) (m : Mop) : Nat × Nat :=
  let cls := fld (o.word m.opcode) 14 2
  let gc := s.reg actGovCost
  let tgt : Int := (o.pb 0).toNat
  let run := if cls = 1 then o.g * fld gc 0 8 else if cls = 2 then o.g * fld gc 8 8 else 0
  let seek := if cls ≠ 0 ∧ (s.actP n).ref / 65536 ≠ tgt then 10 * fld gc 24 8 else 0
  (run, seek)

/-- The admitted MOP starts: the charge is made, the event state cleared, X1 to X15 zeroed, the routine
entered (R275). -/
def State.startMop (s : State) (n : Nat) (run seek : Nat) : State :=
  let s := s.setRfld actGovUsed 0 16 (s.rfld actGovUsed 0 16 + run + seek)
  let s := s.setAct n { s.actP n with chargeRun := run, chargeSeek := seek }
  let s := s.setReg (ordEvtPend n) 0
  let s := s.modOrd n fun o => { o with
    phase := .running, x := [], z := false, n := false, c := false, stack := [], fatal := 0
    pc := match o.mop with
      | some m => fld (o.word m.opcode) 0 14
      | none => o.pc
    budgetWords := 0, budgetTicks := 0, gates := [], stripesOk := 0, sectorsFailed := 0, point := 0xFFFFFFFF
    failPos := 0, reloc := none, spareFailed := false, spareSent := false, sealed := 0, disabled := false, passed := []
    refuseNew := false, refuseWrite := false, band := false, replays := [], ticked := false, want := (0, 0)
    startV := 0 }
  let s := s.setWpa n { s.wpaP n with sealStatus := 0, rewrites := [], rewriteWait := [], stopGates := false, dropped := 0, gang := 0 }
  s.count (ordCtr n 0)

/-- The MOP at the governor ends unstarted: its cost exceeds the whole budget (R219). -/
def State.govTooSmall (s : State) (n : Nat) : State :=
  match (s.ordP n).mop with
  | none => s
  | some m => (s.modOrd n fun o => { o with mop := none, phase := .idle }).returnMop n m 0x194

/-- A MOP waits ahead of those that wait. -/
def State.govAhead (s : State) (w : GovWait) : State := { s with gov := w :: s.gov }

/-- Behind a MOP that waits: one whose cost exceeds the whole budget ends, one of cost 0 starts as soon as nothing is overdrawn, and
every other waits (R218, R219). -/
def State.govBehind (s : State) : List GovWait → State
  | [] => { s with gov := [] }
  | w :: ws =>
    let c := w.run + w.seek
    let b := s.rfld actGovBudget 0 16
    if b < c then (s.govTooSmall w.act).govBehind ws
    else if c = 0 ∧ s.rfld actGovUsed 0 16 ≤ b then (s.startMop w.act w.run w.seek).govBehind ws
    else (s.govBehind ws).govAhead w

/-- The admission decision over the waiting MOPs, strictly in order of arrival (R218, R219). -/
def State.govDecide (s : State) : List GovWait → State
  | [] => { s with gov := [] }
  | w :: ws =>
    let c := w.run + w.seek
    let b := s.rfld actGovBudget 0 16
    if b < c then (s.govTooSmall w.act).govDecide ws
    else if c + s.rfld actGovUsed 0 16 ≤ b then (s.startMop w.act w.run w.seek).govDecide ws
    else (s.govBehind ws).govAhead w

/-- The waiting MOPs are considered, and WAITING shows those left (R218). -/
def State.govAdmit (s : State) : State :=
  let s := s.govDecide s.gov
  s.setRfld actGovUsed 16 8 s.gov.length

/-- A part of a charge is released and the wait considered (R217). -/
def State.govRelease (s : State) (amount : Nat) : State :=
  (s.setRfld actGovUsed 0 16 (s.rfld actGovUsed 0 16 - amount)).govAdmit

/-! ## The end of a MOP (R277) -/

/-- The bytes of a packet. -/
def pktBytes : Body → List Byte
  | .bytes l => l
  | .sector info _ => info
  | .bufSector _ _ _ info _ => info
  | _ => []

/-- A packet's metadata name the stripe and the head of a gate of engine `n` (R50). -/
def Gate.owns (n : Nat) (g : Gate) (p : Pkt) : Bool :=
  let m := metaOf (pktBytes p.body)
  (m >>> 22) % 2 ^ 32 == g.stripe && (m >>> 54) % 2 ^ 7 == 24 * n + g.head

/-- The packet queued for a write gate that is cancelled, late or withdrawn before its data was taken leaves the queue, so that it is
not the next gate's: log 60. -/
def State.dropPacket (s : State) (n : Nat) (g : Gate) : State :=
  let c := s.cq (52 + n)
  if g.data then s
  else match c.pkts.find? (g.owns n) with
    | none => s
    | some p =>
      (s.setCq (52 + n) { c with
        pkts := removeFirst (g.owns n) c.pkts, freedCount := c.freedCount + BitVec.ofNat 16 (cellsOf p.bytes) }).admitWaiters (52 + n)

/-- The gates that do not satisfy a test leave the placer. -/
def State.withdraw (s : State) (n : Nat) (keep : Gate → Bool) : State :=
  let gone := (s.ordP n).gates.filter fun g => g.isWrite && !keep g
  (s.each gone fun s g => s.dropPacket n g).modOrd n fun o => { o with gates := o.gates.filter keep }

/-- Strobes to every head of a mask. -/
def State.strobeMask (s : State) (mask : Nat) (f : State → Nat → State) : State := s.each (maskBits 24 mask) f

/-- The open and waiting write gates that have been sent and have not ended are aborted: what each has left is not written. -/
def State.abortWrites (s : State) (n : Nat) : State :=
  let gs := (s.ordP n).gates.filter fun g => g.isWrite && g.sent && decide (s.now < g.stop)
  let now := s.now
  (s.each gs fun s g => s.sendCmd n g.head (writeAbortCmd g.id)).modOrd n fun o => { o with
    gates := o.gates.map fun g => if g.isWrite && g.sent && decide (now < g.stop) then { g with cut := true } else g }

/-- Read gates that have been sent and are cancelled before their START are stopped at the Cysel too. -/
def State.stopReads (s : State) (n : Nat) : State :=
  s.each ((s.ordP n).gates.filter fun g => !g.isWrite && g.sent && decide (s.now < g.start)) fun s g => s.sendCmd n g.head (readStopCmd g.id s.now)

/-- The cells that the MOP's gates reserved and no packet used go back (Table 12.3). -/
def State.releaseGateCells (s : State) (n : Nat) : State :=
  let s := s.setCq (48 + n) { s.cq (48 + n) with resv := 0 }
  (s.setCq (52 + n) { s.cq (52 + n) with resv := 0 }).admitWaiters (48 + n)

/-- Steps 1 to 3 of the end sequence: gates not started are cancelled, open writes aborted, the gang's
heads disarmed, the replay window and the fly height restored, the governor charge released. -/
def State.mopEnd (s : State) (n status : Nat) : State :=
  let o := s.ordP n
  match o.mop with
  | none => s
  | some m =>
    let s := (s.abortWrites n).stopReads n
    let now := s.now
    let s := (s.withdraw n fun g => decide (g.start ≤ now) && g.sent).modOrd n fun o => { o with phase := .draining status 0 }
    let gang := (s.wpaP n).gang
    let s := s.strobeMask gang fun s h => (s.chnStrobe n h 0x20).wpaStrobe n h 0x48
    let s := s.onlyIf (bitAt m.w0 17) fun s => s.strobeMask gang fun s h => s.chnStrobe n h 0x22
    let s := s.onlyIf (bitAt m.w0 19) fun s => s.strobeMask gang fun s h => s.wpaStrobe n h 0x59
    let a := s.actP n
    let s := s.setAct n { a with chargeRun := 0, chargeSeek := 0 }
    s.govRelease (a.chargeRun + a.chargeSeek)

/-- A MOP in flight ends at once with a status. -/
def State.mopEndNow (s : State) (n status : Nat) : State := if s.mopInFlight n then s.mopEnd n status else s

/-- The gang position of a head in the MOP's map. -/
def Ord.posOf (o : Ord) (h : Nat) : Nat := ((upto o.g).find? fun p => o.gangHead p == h).getD 0

/-- A failed sector of a read enters the tally: the first stripe with one, and its gang positions (Table 9.5). -/
def Ord.tallyFail (o : Ord) (stripe gpos : Nat) : Ord :=
  let o := { o with sectorsFailed := o.sectorsFailed + 1 }
  if stripe < o.point then { o with point := stripe, failPos := 1 <<< gpos }
  else if stripe = o.point then { o with failPos := o.failPos ||| (1 <<< gpos) }
  else o

/-- The write gate that a read-after-write gate follows. -/
def Ord.writeTwin (o : Ord) (g : Gate) : Option Gate :=
  o.gates.find? fun w => w.isWrite && w.head == g.head && w.stripe == g.stripe && w.pass == g.pass

/-- Sectors written, or to be written, whose verify event has not come: a write gate and its read-after-write gate are one sector. -/
def Ord.unverified (o : Ord) : Nat := (o.gates.filter fun g => g.isWrite || (g.kind == .raw && (o.writeTwin g).isNone)).length

/-- The tally with every sector that is still undelivered counted as failed (R277). -/
def Ord.undelivered (o : Ord) (m : Mop) : Ord :=
  let o' := (o.gates.filter fun g => g.kind == .read).foldl (fun o g => o.tallyFail g.stripe g.gpos) o
  let o' := o.replays.foldl (fun o h => o.tallyFail m.stripe (o.posOf h)) o'
  { o' with sectorsFailed := o'.sectorsFailed + o.unverified }

/-- The completion entry of the MOP that drains (R278, Table 9.5). -/
def State.cplEntry (s : State) (n : Nat) (o : Ord) (m : Mop) (status : Nat) : MopCpl :=
  let o := o.undelivered m
  let st := if o.sealed ≠ 0 then o.sealed else if o.disabled ∧ status = 0 then 0x192 else status
  let v := (s.reg (wpaPosV n)).toNat
  let ok := if o.band then min m.count (v - m.stripe) else o.stripesOk
  let failed := min 65535 o.sectorsFailed
  let point := if o.band then v else o.point
  let w3 := (if o.band then 0 else o.failPos % 4096) + 4096 + (if o.reloc.isSome && o.spareSent then 8192 else 0) +
    (if o.spareFailed then 16384 else 0) + 65536 * (match o.reloc with
      | some r => (v - r) % 65536
      | none => 0)
  { c0 := BitVec.ofNat 32 (m.tag + 65536 * st), c1 := BitVec.ofNat 32 (ok % 65536 + 65536 * failed)
    c2 := BitVec.ofNat 32 point, c3 := BitVec.ofNat 32 w3, pblk := m.pblkNo }

/-- The zone table keeps the V that WPA has for the band of an engine: V never moves down (R29, R174, R322). -/
def State.keepV (s : State) (n : Nat) : State :=
  let z := (s.wpaP n).zoneTag
  match s.groupOf z with
  | some g =>
    if (s.ordP n).band && g.home == n then s.modZone z fun x => { x with v := max x.v (s.reg (wpaPosV n)).toNat } else s
  | none => s

/-- Step 5 of the end sequence: the completion is posted and the engine is free; a disable leaves the band with W at V (R222). -/
def State.mopFinish (s : State) (n status : Nat) : State :=
  let o := s.ordP n
  match o.mop with
  | none => s
  | some m =>
    let s := (s.postCpl n (s.cplEntry n o m status)).keepV n
    let s := s.onlyIf (o.band && o.disabled) fun s => s.setReg (wpaPosW n) (s.reg (wpaPosV n))
    let s := s.modOrd n fun o => { o with mop := none, phase := .idle, gates := [], band := false }
    s.releaseGateCells n

/-! ## Band positions (R67, R68, R170 to R177) -/

/-- WPA_REWIND.STATE: 0 Idle, 1 Writing, 2 Guard hold, 3 Rewind wait, 4 Sealed, 5 Stalled. -/
def State.rewindSt (s : State) (n : Nat) : Nat := s.rfld (wpaRewind n) 4 3
def State.setRewindSt (s : State) (n v : Nat) : State := s.setRfld (wpaRewind n) 4 3 v
/-- Guard hold: the gang holds the stack reference and every offset (R212). -/
def State.guardHolds (s : State) (n : Nat) : Bool := s.rewindSt n == 2
/-- The band's current pass number (R173). -/
def State.bandPass (s : State) (n : Nat) : Nat := s.rfld (wpaRewind n) 8 8
/-- The pass a write gate of a stripe belongs to: the band's (R173), or the number of rewrites in place (R177). -/
def State.gatePass (s : State) (n stripe : Nat) (kind : GateKind) : Nat :=
  if (s.ordP n).band then s.bandPass n
  else if kind == .spare then 0 else tget (fun _ => 0) (s.wpaP n).rewrites stripe

/-- M for given S and V (R67). -/
def rewindMark (sPer v : Nat) : Nat := if sPer = 0 then 0 else sPer * (v / sPer)
/-- The shingle guard bound for given S and M (R67, R171). -/
def guardBound (sPer m : Nat) : Nat := if sPer = 0 then 0 else sPer * (m / sPer + 2)

/-- Gates of a head and stripe leave the placer: the write and its read-after-write twin. -/
def State.dropGates (s : State) (n head stripe pass : Nat) : State :=
  s.withdraw n fun g => !(g.head == head && g.stripe == stripe && g.pass == pass)

/-- V moves past every stripe all of whose `g` sectors have passed, in order (R68); `k` bounds how far. -/
def advanceV (ver : Tbl Nat) (g v : Nat) : Nat → Nat
  | 0 => v
  | k + 1 => if tget (fun _ => 0) ver v = 2 ^ g - 1 then advanceV ver g (v + 1) k else v

/-- The 256 MiB units of the areas of the system area, in the order of Table 2.7: zone table, remap lists, spare pool map, margin
records, Almanac mirror, Jubilee state, calibration history, working area (R78). -/
def sysAreas : List Nat := [4, 4, 4, 64, 64, 4, 16, 96]

/-- The first unit of area `i`: each starts where the one before ends. -/
def sysFirst (i : Nat) : Nat := (sysAreas.take i).sum

/-- The first stripe of the mirror within the system area, whose units each hold ⌈65,536 / D⌉ stripes (Table 2.7; log 68). -/
def mirrorFirst (d : Nat) : Nat := sysFirst 4 * ceilDiv 65536 d

/-- Stripes of a mirror: 16 GiB in 64 units (Table 2.7, R537). -/
def mirrorStripes (d : Nat) : Nat := lget 0 sysAreas 4 * ceilDiv 65536 d

/-- The number of a mirror stripe: its ZONE_TAG names units 76 to 139 of the system area of the actuator, and its STRIPE_INDEX its
place in the region (R50, R533, R537). -/
def mirrorStripe (tag stripe d : Nat) : Option Nat :=
  let unit := tag % 65536
  if tag.testBit 21 ∧ tag / 65536 % 8 = 0 ∧ sysFirst 4 ≤ unit ∧ unit < sysFirst 5 then some (stripe - mirrorFirst d) else none

/-- ALM_MIRROR_MARKa (R537). -/
def almMirrorMark (a : Nat) := regAddr bALM (0x30 + 4 * a)

/-- The mark passes a mirror stripe that has verified (R537). -/
def State.markMirror (s : State) (n tag stripe d : Nat) : State :=
  match mirrorStripe tag stripe d with
  | some k => if k = (s.reg (almMirrorMark n)).toNat then s.setReg (almMirrorMark n) (BitVec.ofNat 32 (k + 1)) else s
  | none => s

/-- BUF lets go of the write packets of the band's stripes below a new M (R172). -/
def State.dropBelow (s : State) (n m : Nat) : State :=
  let tag := (s.wpaP n).zoneTag
  s.modFw fun f => { f with packets := f.packets.filter fun x => !(x.eng == n && x.tag == tag && decide (x.stripe < m)) }

/-- A PASS event of the current pass for a gang position of a stripe (R68, R170, R279). -/
def State.verifyPass (s : State) (n gpos stripe : Nat) : State :=
  let o := s.ordP n
  let w := s.wpaP n
  let m := tget (fun _ => 0) w.verified stripe ||| (1 <<< gpos)
  let ver := tset (fun _ => 0) w.verified stripe m
  let full := m == 2 ^ o.g - 1
  let s := s.setWpa n { w with
    verified := ver, quiet := 0
    failedBelow := if full then w.failedBelow.filter (· != stripe) else w.failedBelow }
  if o.band then
    let v := (s.reg (wpaPosV n)).toNat
    let v' := advanceV ver o.g v ver.length
    let sp := s.rfld (wpaPosS n) 0 16
    let m' := rewindMark sp v'
    let moved := m' != (s.reg (wpaPosM n)).toNat
    let s := (s.setReg (wpaPosV n) (BitVec.ofNat 32 v')).setReg (wpaPosM n) (BitVec.ofNat 32 m')
    s.onlyIf moved fun s => (s.setRfld (wpaRewind n) 0 2 0).dropBelow n m'
  else s.onlyIf full fun s =>
    let s := s.modOrd n fun o => { o with stripesOk := o.stripesOk + 1 }
    match o.mop with
    | some mop => s.markMirror n (fld mop.w3 0 22) stripe o.dSlots
    | none => s

/-- Seal the band (R175): W is set to V, the SEALED notice carries the status, and ALM receives the record
(zone, V, attempts, failing head, failing status). -/
def State.sealBand (s : State) (n status : Nat) : State :=
  let v := s.reg (wpaPosV n)
  let w := s.wpaP n
  let below := w.failedBelow.foldl (fun m x => match m with
    | none => some x
    | some y => some (min x y)) none
  let s := (s.setReg (wpaPosW n) v).setRewindSt n 4
  let s := s.setWpa n { w with sealStatus := status, stopGates := false, inhibitWait := false }
  let s := (s.modOrd n fun o => { o with sealed := status, refuseWrite := true, reloc := below }).notice n 2
  let s := (s.count (wpaCtr n 3)).raise (wpaInt n) 2
  s.almanac status (bWPA n) n
    [(4, w.zoneTag), (4, v.toNat), (4, s.rfld (wpaRewind n) 0 2), (4, w.failHead), (4, w.failStatus)]

/-- A gate that is sent or has started runs on when new gates stop, and so does the read-after-write gate of a
write that runs on (R173). -/
def gateStays (gs : List Gate) (now : Nat) (g : Gate) : Bool :=
  let runs := fun (g : Gate) => g.sent || decide (g.start ≤ now)
  runs g || (g.kind == .raw && gs.any fun w => w.isWrite && runs w && w.head == g.head && w.stripe == g.stripe && w.pass == g.pass)

/-- A head of the gang is Inhibited, or has been dropped and not re-admitted (R216). -/
def State.gangInhibited (s : State) (n : Nat) : Bool :=
  (s.wpaP n).dropped != 0 || (upto 24).any fun h => s.rbit (actGang n) h && s.rfld (wpaHeadStatus n h) 0 2 == 3

/-- What every verification failure counts: the FAIL counter, the interrupt, the MOP's tally, and the head, the status and the
record's STATUS, which a seal record names (R168, R169, R175). -/
def State.verifyCount (s : State) (n head status record : Nat) : State :=
  let s := (s.count (wpaCtr n 1)).raise (wpaInt n) 0
  let s := s.modOrd n fun o => { o with sectorsFailed := o.sectorsFailed + 1 }
  s.setWpa n { s.wpaP n with failHead := head, failStatus := status, failRec := record, quiet := 0 }

/-- A FAIL event (R169, R173, R174, R177): in a band it starts a rewind unless it is stale; a write in
place is rewritten up to three times, the failures of one attempt counting once; a spare write is never rewritten. -/
def State.verifyFail (s : State) (n head stripe pass status record : Nat) (spare : Bool) : State :=
  let o := s.ordP n
  if o.band ∧ !spare ∧ pass ≠ s.bandPass n then s.count (wpaCtr n 4)
  else
    let s := s.verifyCount n head status record
    if spare ∧ o.band then s.modOrd n fun o => { o with spareFailed := true }
    else if spare then s.mopEndNow n 0x170
    else if o.band then
      let now := s.now
      let s := s.setRfld (wpaRewind n) 8 8 (s.bandPass n + 1)
      let below := decide (stripe < (s.reg (wpaPosV n)).toNat)
      let s := s.setWpa n { s.wpaP n with
        stopGates := true, inhibitWait := false, verified := []
        failedBelow := if below then (s.wpaP n).failedBelow ++ [stripe] else (s.wpaP n).failedBelow }
      let s := s.withdraw n (gateStays (s.ordP n).gates now)
      s.setRewindSt n 3
    else
      let k := tget (fun _ => 0) (s.wpaP n).rewrites stripe
      if pass ≠ k then s
      else if 3 ≤ k then s.mopEndNow n 0x177
      else
        let s := s.setWpa n { s.wpaP n with
          rewrites := tset (fun _ => 0) (s.wpaP n).rewrites stripe (k + 1)
          rewriteWait := if (s.wpaP n).rewriteWait.contains stripe then (s.wpaP n).rewriteWait else (s.wpaP n).rewriteWait ++ [stripe]
          verified := tset (fun _ => 0) (s.wpaP n).verified stripe 0
          inhibitWait := s.gangInhibited n }
        (s.count (wpaCtr n 2)).raise (wpaInt n) 1

/-! ## Gates cancelled and aborted -/

/-- A first pass of CHN fails with a status: counted, interrupted, and one failure packet (R150, Table 4.8). -/
def State.firstPassFail (s : State) (n : Nat) (r : SectorRec) : State :=
  (((s.count (chnCtr n 1)).raise (chnInt n) 0)).sectorPacket n [] r

/-- A sector arrives for the gate. -/
def Sector.arrives (g : Nat) (q : Sector) : Bool := q.st == SecState.arriving && q.gateId == g

/-- The sector of a gate fails while it arrives, or before: one packet, with what is known of it; its later bursts open no sector
(R94, R144, R150). A sector that has no sample has LTIME 0. With no sector arriving any more this is a sector boundary (R121, R153). -/
def State.failArriving (s : State) (n h g status : Nat) : State :=
  let x := s.slot n h
  let came := x.sectors.any (Sector.arrives g)
  let r : SectorRec := match x.sectors.find? (Sector.arrives g) with
    | some q => q.record h status 0
    | none => {
        status := status, slot := h, profile := if x.armed then x.prof else 0, gateId := g
        class_ := if x.armed then fld x.profCfg 7 1 else 0
        readers := if x.armed then s.slotReaders n h x.profCfg else 0 }
  let x := { x with sectors := removeFirst (Sector.arrives g) x.sectors, lost := some g }
  let s := (s.setSlot n h x.settleLoans).firstPassFail n r
  s.onlyIf (came && !x.midSector) fun s => s.sectorBoundary n h

/-- Whether a sector of the gate is not yet whole: its bits have not all passed the head, or samples of it are still to come. -/
def State.gateLive (s : State) (n : Nat) (g : Gate) : Bool :=
  decide (s.now < g.stop) || (!g.isWrite && (s.slot n g.head).sectors.any (Sector.arrives g.id))

/-- A read or read-after-write gate is marked with the status its sector has failed with: it stays in the placer until the packet is
dispatched (R288). -/
def State.markFailed (s : State) (n id status : Nat) : State :=
  s.modOrd n fun o => { o with gates := updFirst (fun g => g.id == id) (fun g => { g with fail := status }) o.gates }

/-- One gate ends with a status: a write's sector is a verification failure (R163, R169); the sector of a read or of a
read-after-write gate gives one failure packet, which the verify checker makes a FAIL event of; a gate already sent is stopped at the
Cysel. -/
def State.failGate (s : State) (n : Nat) (g : Gate) (status : Nat) : State :=
  let cut := g.sent && decide (s.now < g.stop)
  if g.isWrite then
    let s := s.onlyIf cut fun s => s.sendCmd n g.head (writeAbortCmd g.id)
    (s.dropGates n g.head g.stripe g.pass).verifyFail n g.head g.stripe g.pass status 0 (g.kind == .spare)
  else if g.fail ≠ 0 then s
  else
    let s := s.onlyIf cut fun s => s.sendCmd n g.head (readStopCmd g.id s.now)
    (s.markFailed n g.id status).failArriving n g.head g.id status

/-- Every gate of the engine that satisfies a test, and is still there when its turn comes, ends with a status: those sent first, so
that what a rewind withdraws is not counted (R173). -/
def State.failGates (s : State) (n : Nat) (p : Gate → Bool) (status : Nat) : State :=
  let gs := (s.ordP n).gates.filter p
  s.each (gs.filter (fun g => g.sent) ++ gs.filter fun g => !g.sent) fun s g =>
    s.onlyIf ((s.ordP n).gates.any fun x => x.id == g.id) fun s => s.failGate n g status

/-! ## Write inhibit (R162, R163) -/

/-- A head's inhibit causes (Table 5.4): 0 ASSIST_SAT, 1 HEAD_FAULT, 2 SHOCK, 3 THERM_RANGE, 4 FIRMWARE. -/
def State.wpaCauses (s : State) (n h : Nat) : Nat := s.rfld (wpaHeadStatus n h) 16 5

/-- A cause reaches WPA: the head becomes Inhibited, its sent gates are aborted and their sectors fail, the
assist drive goes to 0 and the heater to READ_STEP (R163). -/
def State.inhibitHead (s : State) (n h cause : Nat) : State :=
  let s := s.setRbit (wpaHeadStatus n h) (16 + cause) true
  let st := s.wpaSt n h
  if st = 1 ∨ st = 2 then
    let s := (s.setWpaSt n h 3).setRbit (wpaInhibit n) h true
    let s := (s.count (wpaCtr n 5)).raise (wpaInt n) 4
    let s := s.setWpaH n h { s.wpaH n h with wdisarm := none, thermOut := 0 }
    let s := s.wpaSettle n h
    s.failGates n (fun g => g.isWrite && g.head == h && s.gateLive n g) (if cause = 2 then 0x156 else 0x171)
  else s

/-- The wait for the gang's inhibits to clear ends: new gates may be placed again, and in a band the REWIND notice
is posted (R173, R177). -/
def State.rewindResume (s : State) (n : Nat) : State :=
  if (s.wpaP n).inhibitWait ∧ !s.gangInhibited n then
    let s := s.setWpa n { s.wpaP n with inhibitWait := false, stopGates := false }
    s.onlyIf (s.ordP n).band fun s => s.notice n 0
  else s

/-- A cause clears; when the last has cleared an Inhibited head returns to Loaded (R162). -/
def State.uninhibit (s : State) (n h cause : Nat) : State :=
  let s := s.setRbit (wpaHeadStatus n h) (16 + cause) false
  if s.wpaSt n h = 3 ∧ s.wpaCauses n h = 0 then
    (((s.setWpaSt n h 1).setRbit (wpaInhibit n) h false).wpaSettle n h).rewindResume n
  else s

/-- The actuator's heads go to the ramp or come off it (R154). -/
def State.wpaRamp (s : State) (n : Nat) (ramp : Bool) : State :=
  s.each (upto 24) fun s h =>
    if ramp then ((s.setWpaSt n h 0).setRbit (wpaInhibit n) h false).wpaSettle n h
    else if s.wpaSt n h = 0 then
      let c := s.wpaCauses n h
      let s := ((s.setWpaSt n h (if c = 0 then 1 else 3)).setRbit (wpaInhibit n) h (c != 0)).wpaSettle n h
      s.onlyIf (c != 0) fun s => (s.count (wpaCtr n 5)).raise (wpaInt n) 4
    else s

/-! ## Heads dropped, loops disabled, retract -/

/-- A loop is disabled by hardware: its ENABLE reads 0 (Table 6.6). -/
def State.disableLoop (s : State) (i : Nat) : State :=
  let x := s.loop i
  let s := s.setLoop i { x with desc := { x.desc with enable := false }, pending := false }
  s.setSvoWord (descWord i) (putBit (s.svoWord (descWord i)) 0 false)

/-- A head leaves the gang (R216): ACT_Aa_GANG, its gates, the DROP notice. -/
def State.dropHead (s : State) (a h : Nat) : State :=
  if s.rbit (actGang a) h then
    let s := s.setRbit (actGang a) h false
    let s := s.setWpa a { s.wpaP a with dropped := (s.wpaP a).dropped ||| (1 <<< h) }
    let s := s.failGates a (fun g => g.head == h && s.gateLive a g) 0x180
    s.notice a 3
  else s

/-- A 96-bit down frame (Table 7.5): SYNC, TYPE, SEQ, PAYLOAD and the CRC-8 of R232 over bits [95:8]. -/
def crc8 : Nat → BitVec 8 → List Bool → BitVec 8
  | 0, c, _ => c
  | _, c, [] => c
  | k + 1, c, b :: bs =>
    let t := (c.getLsbD 7).xor b
    crc8 k (if t then (c <<< 1) ^^^ 0x07 else c <<< 1) bs

/-- A frame of the actuator link. -/
def ampFrame (type seq payload : Nat) : BitVec 96 :=
  let top := 0xB4 * 2 ^ 80 + (type % 16) * 2 ^ 76 + (seq % 16) * 2 ^ 72 + payload % 2 ^ 72
  BitVec.ofNat 96 (top * 256 + (crc8 88 0xFF (bitsMsb 88 top)).toNat)

/-- Send a down frame, advancing SEQ (R232). -/
def State.sendAmp (s : State) (a type payload : Nat) : State :=
  let x := s.actP a
  let s := s.setAct a { x with txSeq := x.txSeq + 1 }
  s.emit (.ampFrame a (ampFrame type x.txSeq.toNat payload))

/-- The engine has a MOP that has started and not completed. -/
def State.mopStarted (s : State) (n : Nat) : Bool :=
  match (s.ordP n).phase with
  | .idle => false
  | .admitting => false
  | _ => true

/-- A band being written is left open with W set to M (R176, R227), or with W set to V (R222); W stays V where a disable has set it. -/
def State.leaveBand (s : State) (n : Nat) (toV : Bool) : State :=
  if (s.ordP n).band && s.mopStarted n then
    if toV then (s.modOrd n fun o => { o with disabled := true }).setReg (wpaPosW n) (s.reg (wpaPosV n))
    else if (s.ordP n).disabled then s
    else s.setReg (wpaPosW n) (s.reg (wpaPosM n))
  else s

def calStatus := regAddr bCAL 0x4
def calInt := regAddr bCAL 0x8

/-- The actuator leaves Tracking other than by a seek, or the controller leaves PL0: a run in progress is
abandoned, its results are discarded and its PENDING bit is set again (R516). -/
def State.calAbandon (s : State) (a : Nat) : State :=
  if s.rbit calStatus a then
    let f := tget (fun _ => false) s.cal.runFull a || tget (fun _ => false) s.cal.full a
    let s := ({ s with cal := { s.cal with full := tset (fun _ => false) s.cal.full a f } } : State).setRbit calStatus a false
    let s := s.onlyIf (s.rfld calStatus 0 4 == 0) fun s => s.setRbit (regAddr bPWR 0x0) 4 false
    ((s.setRbit calStatus (4 + a) true).raise calInt 4).almanac 0x0043 bCAL a []
  else s

/-- Every write gate of an actuator that is not at its end is cancelled or aborted as under R163, but a band is left open with its
attempts as they were, so no rewind begins (R176, R227, R229). -/
def State.cutWrites (s : State) (n : Nat) : State :=
  s.each ((s.ordP n).gates.filter fun g => g.isWrite && s.gateLive n g) fun s g =>
    let s := s.onlyIf g.sent fun s => s.sendCmd n g.head (writeAbortCmd g.id)
    (s.dropGates n g.head g.stripe g.pass).verifyCount n g.head 0x171 0

/-- The same with the reads, which fail with the status the MOP will end with. -/
def State.cutGates (s : State) (n status : Nat) : State :=
  let s := s.cutWrites n
  s.failGates n (fun g => s.gateLive n g) status

/-- An emergency retract cause arrives (R226, R227): ignored in Parked, Retracting and Disabled. The MOP in
flight ends with `status` at its next POLL or WAIT (R282). -/
def State.retract (s : State) (a status : Nat) : State :=
  let st := s.actSt a
  if st = 0 ∨ st = 5 ∨ st = 6 then s
  else
    let s := s.onlyIf (s.mopInFlight a) fun s => s.fatalEvent a 0 status
    let s := s.leaveBand a false
    let s := s.cutGates a status
    let s := s.setReg (actGang a) 0
    let s := (s.disableLoop a).disableLoop (4 + a)
    let s := s.setActSt a 5
    let s := s.wpaRamp a true
    let s := s.each (upto 24) fun s h => s.zeroDrive (8 + 24 * a + h)
    let r := s.reg (actReg a 0x10)
    let s := s.sendAmp a 2 (fld r 0 16 * 2 ^ 56 + fld r 16 16 * 2 ^ 40)
    let x := s.actP a
    let s := s.setAct a { x with v := 0, heldSeek := none, settled := false, settleRun := 0 }
    (s.calAbandon a).count (actCtr a 1)

/-! ## Calibration triggers (R512, R513) -/

def calTrig := regAddr bCAL 0x10
def calTemp (a : Nat) := regAddr bCAL (0x20 + 4 * a)
def calTlast (a : Nat) := regAddr bCAL (0x30 + 4 * a)
def calRange (k : Nat) := regAddr bCAL (0x40 + 4 * k)

/-- A trigger of actuator `a`: PENDING and CAL_INT.TRIGGER; `full` says whether the run is to have the full
scope (R512, R515). -/
def State.calTrigger (s : State) (a : Nat) (full : Bool) : State :=
  let was := s.rbit calStatus (4 + a)
  let f := full || (was && tget (fun _ => false) s.cal.full a)
  let s := { s with cal := { s.cal with full := tset (fun _ => false) s.cal.full a f } }
  (s.setRbit calStatus (4 + a) true).raise calInt 0

/-- Sensor `k` reads `t` (1/16 °C, signed): entering the out-of-range state triggers once (R513). -/
def State.sensorCheck (s : State) (k : Nat) (t : Int) : State :=
  let r := s.reg (calRange k)
  let out := decide (t < sext 16 (fld r 0 16)) || decide (sext 16 (fld r 16 16) < t)
  let was := s.rbit calStatus (14 + k)
  let s := s.setRbit calStatus (14 + k) out
  if out && !was then
    let s := (s.raise calInt 1).almanac 0x0042 bCAL k []
    if k = 0 then s.each (upto 4) fun s a => s.calTrigger a true
    else s.calTrigger ((k - 1) % 4) true
  else s

/-- CAL_TEMPa follows the Cysel's DIE_TEMP; a drift beyond THR, or a lost CAL_TLASTa, triggers (R512). -/
def State.cyselTemp (s : State) (a : Nat) (t : BitVec 16) : State :=
  let s := s.setRfld (calTemp a) 0 16 t.toNat
  let last := s.rfld (calTlast a) 0 16
  let s := s.sensorCheck (1 + a) t.toInt
  if last = 0x8000 then s.onlyIf (!s.rbit calStatus a) fun s => s.calTrigger a true
  else if (s.rfld calTrig 0 12 : Int) < (t.toInt - sext 16 last).natAbs then s.calTrigger a false
  else s

end Sys2Proof.Machine
end

