-- ==== Sys2Proof/Machine/Ulk.lean ====
section
/-!
DEFINITION. Uslen: training, rate switch, sleep and wake, the flit layer, samples, servo fields,
telemetry and gate commands (chapter 3).
-/
namespace Sys2Proof.Machine

/-! ## Faults (R113, Table 3.12) -/

/-- SVO is told that the port's heads have no position: POS_LOST and an emergency retract (R113, R192). -/
def State.servoLost (s : State) (n : Nat) : State :=
  let s := (s.raise (ulkInt n) 2).almanac 0x0155 (bULK n) n []
  let s := (s.setRbit svoStatus (9 + n) true).raise svoInt 4
  s.retract n 0x182

/-- The whole port has no position: both its servo lanes are down, or it has failed; SVO is told once (R113). -/
def State.portLost (s : State) (n : Nat) : State :=
  if (s.ulkP n).servoLost then s else (s.setUlk n { s.ulkP n with servoLost := true }).servoLost n

/-- The heads whose maps name a data lane. -/
def State.headsOf (s : State) (n l : Nat) : List Nat := (upto 24).filter fun h => (mapLanes (s.headMap n h)).contains l

/-- The bursts of some heads are forgotten, with what has come of them. -/
def UlkPort.forgetBursts (p : UlkPort) (hs : List Nat) : UlkPort :=
  { p with
    bursts := hs.foldl (fun t h => tset (fun _ => []) t h []) p.bursts, ahead := hs.foldl (fun t h => tset (fun _ => []) t h []) p.ahead }

/-- A lane goes down in service and begins to retrain alone; what has come of the bursts of a data lane's heads is of no more use
(R105, R113). -/
def State.laneDown (s : State) (n l : Nat) : State :=
  if (s.lanesUp n).testBit l then
    let s := s.setRbit (ulkLaneUp n) l false
    let s := (s.raise (ulkInt n) 0).almanac 0x0150 (bULK n) n []
    let s := s.setUlk n { s.ulkP n with retrain := tset (fun _ => 3) (s.ulkP n).retrain l 0 }
    let s := s.onlyIf (l < 24) fun s =>
      let s := s.failGates n (fun g => (mapLanes (s.headMap n g.head)).contains l && s.gateLive n g) 0x150
      s.setUlk n ((s.ulkP n).forgetBursts (s.headsOf n l))
    s.onlyIf ((s.lanesUp n) >>> 24 == 0) fun s => s.portLost n
  else s

/-! ## Training (R104) -/

/-- The port fails: STATE Failed, TRAIN_FAIL, its gates fail, and it has no position (R104, R113). -/
def State.portFailed (s : State) (n : Nat) : State :=
  let s := ((s.setUlkSt n 7).raise (ulkInt n) 1).almanac 0x0154 (bULK n) n []
  let s := s.setLanesUp n 0
  let s := s.setUlk n { s.ulkP n with step := 0, cand := 0, waking := false, retrain := [], switchAt := none, rateReq := false }
  let s := s.setRbit (ulkStatus n) 8 false
  let s := s.failGates n (s.gateLive n) 0x154
  s.portLost n

/-- TARGET_RATE is reserved, or names a rate that RATES_EN does not enable (R104). -/
def State.rateCfgBad (s : State) (n : Nat) : Bool :=
  let r := s.rfld (ulkCtrl n) 2 2
  r == 3 || !s.rbit (ulkCtrl n) (4 + r)

/-- Training goes on from a step with every lane down; the Cysel's time is to be loaded again in step 6 (Table 3.11). -/
def State.trainFrom (s : State) (n k : Nat) : State :=
  (((s.setUlk n { s.ulkP n with step := k, cand := 0 }).setLanesUp n 0).setRbit (ulkStatus n) 8 false).setUlkSt n
    (if k = 1 then 1 else if (s.ulkP n).waking then 6 else 2)

/-- Port training starts, or the port fails at once with CFG_ERR and TRAIN_FAIL (R104). -/
def State.startTraining (s : State) (n : Nat) : State :=
  let s := s.setRfld (ulkStatus n) 6 2 0
  if s.rateCfgBad n then (s.portFailed n).raise (ulkInt n) 10
  else
    let s := s.setUlk n { s.ulkP n with
      waking := false, presets := [], retrain := [], sleep := none, switchAt := none, rateReq := false, servoLost := false }
    s.trainFrom n 1

/-- PORT_EN falls: the port stops (Table 3.14). -/
def State.stopPort (s : State) (n : Nat) : State :=
  let s := s.setUlk n { s.ulkP n with step := 0, cand := 0, waking := false, sleep := none, switchAt := none, rateReq := false, retrain := [] }
  (((s.setUlkSt n 0).setLanesUp n 0).setRbit (ulkStatus n) 8 false)

/-- ULK_PORT_EN: a rise starts training, a fall stops the port, and a write of the value held does neither. -/
def State.portEn (s : State) (n : Nat) (on : Bool) : State :=
  let was := s.rbit (ulkCtrl n) 0
  let s := s.setRbit (ulkCtrl n) 0 on
  if on && !was then s.startTraining n else if !on && was then s.stopPort n else s

/-- ULK_PORT_EN. -/
def execUlkPortEn (n : Fin 4) (on : Bool) (s : State) : Host.Outcome State Fault Refusal := .next (s.portEn n on)

/-- A training attempt fails; after the third the port is Failed (R104). An attempt after a wake counts like any other, and begins again
at step 2 (log 55). -/
def State.attemptFailed (s : State) (n : Nat) : State :=
  let t := s.rfld (ulkStatus n) 6 2 + 1
  let s := s.setRfld (ulkStatus n) 6 2 t
  if 3 ≤ t then s.portFailed n
  else s.trainFrom n (if (s.ulkP n).waking then 2 else 1)

/-- CAL_UPREn_r_l. -/
def calUpre (n r l : Nat) := regAddr bCAL (0x2000 + 0x200 * n + 0x80 * r + 4 * l)

/-- Rates that RATES_EN enables. -/
def State.ratesEnabled (s : State) (n : Nat) : List Nat := (upto 3).filter fun r => s.rbit (ulkCtrl n) (4 + r)

/-- The port becomes Active: sequenced traffic starts at SEQ 0 on every lane (Table 3.11, step 8). -/
def State.portActive (s : State) (n : Nat) : State :=
  let s := s.setUlk n { s.ulkP n with
    step := 0, cand := 0, waking := false, rx := [], tx := [], bursts := [], ahead := [], servoLost := false }
  (s.setUlkSt n 3).setRfld (ulkStatus n) 4 2 (s.rfld (ulkCtrl n) 2 2)

/-- ECHO_REQ, with which step 6 measures the round trip (Table 3.11). -/
def State.echoRequest (s : State) (n : Nat) : State :=
  (s.setUlk n { s.ulkP n with echoAt := s.ltime }).sendTime n 0 s.ltime

/-- A training step completes: step 1 needs HLn_RST_N released; a lane that fails a step is left down, and the others are up from flit
lock, step 3, on; S0 and S1 both failed ends the attempt; step 6 needs the Cysel's time loaded; step 7 stores the presets (R104, Table 3.11). -/
def State.trainStep (s : State) (n : Nat) (lanes : Nat) : State :=
  let p := s.ulkP n
  let k := p.step
  if k = 0 then s
  else if k = 1 then (if s.rbit (ulkCtrl n) 1 then s else s.trainFrom n 2)
  else
    let up := if k = 2 then lanes else p.cand &&& lanes
    let p := { p with cand := up }
    let s := (s.setUlk n p).onlyIf (k != 2) fun s => s.setLanesUp n up
    if up >>> 24 = 0 then s.attemptFailed n
    else if k = 6 ∧ !s.rbit (ulkStatus n) 8 then s
    else if k = 7 then
      let s := s.onlyIf (!p.waking) fun s => s.each (s.ratesEnabled n) fun s r => s.storePresets (calUpre n r) (maskBits 26 up)
      s.setUlk n { p with step := 8, presets := if p.waking then p.presets else s.ratesEnabled n }
    else if k = 8 then s.portActive n
    else (s.setUlk n { p with step := k + 1 }).onlyIf (k == 5) fun s => s.echoRequest n

/-- TRAINING_STEP_DONE. -/
def execTrainingStepDone (n : Fin 4) (lanes : BitVec 26) (s : State) : Host.Outcome State Fault Refusal :=
  .next (s.trainStep n lanes.toNat)

/-- TRAINING_ATTEMPT_TIMEOUT: an attempt in progress fails (R104). -/
def execTrainingAttemptTimeout (n : Fin 4) (s : State) : Host.Outcome State Fault Refusal :=
  .next (if (s.ulkP n).step = 0 then s else s.attemptFailed n)

/-- The round trip is measured from the ECHO_REQ, and SET loads link time + RTT/2 (R104, step 6). -/
def State.echoReply (s : State) (n : Nat) : State :=
  if (s.ulkP n).step = 6 then
    let rtt := (s.ltime - (s.ulkP n).echoAt).toNat % 65536
    ((s.setRfld (ulkRtt n) 0 16 rtt).setRbit (ulkStatus n) 8 true).sendTime n 2 (s.ltime + BitVec.ofNat 64 (rtt / 2))
  else s

/-- TIME_ECHO_REPLY. -/
def execTimeEchoReply (n : Fin 4) (s : State) : Host.Outcome State Fault Refusal := .next (s.echoReply n)

/-! ## Rate switch (R106) -/

/-- A gate of head h is open: sent, started, not ended. -/
def State.gateOpenOn (s : State) (n h : Nat) : Bool :=
  (s.ordP n).gates.any fun g => g.head == h && g.sent && decide (g.start ≤ s.now) && decide (s.now < g.stop)

/-- The first servo window of a head that has not ended at link time t, as the times at which it opens and ends: a window opens once in
each wedge period and lasts SVWIN ns (R100, R193). -/
def State.windowAt (s : State) (n h t : Nat) : Nat × Nat :=
  let w := tget (fun _ => 0) s.svo.window (24 * n + h)
  let win := s.rfld (ulkSvcfg n) 0 11
  let tw := s.rfld (regAddr bSVO 0x14) 0 18
  let w := if t ≤ w + win ∨ tw = 0 then w else w + tw * ceilDiv (t - (w + win)) tw
  (w, w + win)

/-- What stands in the way of a switch at link time t, by the time at which it ends: a gate that is open, and a servo window or an APPLY
that falls within t to t + 4 µs (R106). -/
def State.switchBlocks (s : State) (n t : Nat) : List Nat :=
  (((s.ordP n).gates.filter fun g => g.sent && decide (g.start ≤ t) && decide (t < g.stop)).map fun g => g.stop) ++
  ((((upto 24).filter fun h => s.headMapped n h && tget (fun _ => 0) s.svo.window (24 * n + h) != 0).map fun h => s.windowAt n h t).filter
    fun w => decide (t ≤ w.2) && decide (w.1 ≤ t + 4000)).map (fun w => w.2 + 1) ++
  (((s.ulkP n).applies.filter fun a => decide (t ≤ a) && decide (a ≤ t + 4000)).map fun a => a + 1)

/-- No gate is open at link time t, and no servo window and no APPLY falls within t to t + 4 µs (R106). -/
def State.switchFits (s : State) (n t : Nat) : Bool := (s.switchBlocks n t).isEmpty

/-- No lane is training, and every data-lane flit is acknowledged (R106). -/
def State.switchQuiet (s : State) (n : Nat) : Bool :=
  (s.ulkP n).step == 0 && ((upto 26).all fun l => decide (3 ≤ tget (fun _ => 3) (s.ulkP n).retrain l)) &&
    (upto 24).all fun l => (s.txl n l).held.isEmpty

/-- The first time from t on at which the switch fits: what stands in the way of one time stands in the way of every later one until it
ends. With `fuel` spent (windows that never leave room) there is none yet. -/
def State.switchFrom (s : State) (n : Nat) : Nat → Nat → Option Nat
  | 0, _ => none
  | fuel + 1, t => match s.switchBlocks n t with
    | [] => some t
    | e :: es => s.switchFrom n fuel ((e :: es).foldl max t)

/-- The first time from t on at which the switch fits (R106). -/
def State.switchTime (s : State) (n t : Nat) : Option Nat := s.switchFrom n 512 t

/-- A switch that is asked for gets its time as soon as no lane trains and no flit is unacknowledged; a TRAIN flit names it (R106). -/
def State.rateTry (s : State) (n : Nat) : State :=
  if (s.ulkP n).rateReq && (s.ulkP n).switchAt.isNone && s.ulkSt n == 3 && s.switchQuiet n then
    match s.switchTime n (s.now + 2000) with
    | some t => (s.setUlk n { s.ulkP n with switchAt := some (BitVec.ofNat 64 t) }).emit (.trainSwitch n (BitVec.ofNat 64 t))
    | none => s
  else s

/-- A switch is asked for: Ordo issues no gate until it is done (R106). -/
def State.askSwitch (s : State) (n : Nat) (preset : Bool) : State :=
  (s.setUlk n { s.ulkP n with rateReq := true, presetSwitch := preset }).rateTry n

/-- A rate switch that RATE_REQ asked for is not done: the bit reads 1, and another 1 has no effect (Table 0.5). -/
def State.ratePending (s : State) (n : Nat) : Bool := (s.ulkP n).rateReq && !(s.ulkP n).presetSwitch

/-- RATE_REQ: an invalid or untrained rate raises CFG_ERR, the current rate raises RATE_DONE at once, and
otherwise the switch instant is chosen (R106). -/
def State.rateRequest (s : State) (n : Nat) : State :=
  let r := s.rfld (ulkCtrl n) 2 2
  if s.ulkSt n ≠ 3 ∨ s.ratePending n then s
  else if r = 3 ∨ !(s.ulkP n).presets.contains r then s.raise (ulkInt n) 10
  else if r = s.rfld (ulkStatus n) 4 2 then s.raise (ulkInt n) 6
  else s.askSwitch n false

/-- RATE_REQ. -/
def execRateReq (n : Fin 4) (s : State) : Host.Outcome State Fault Refusal := .next (s.rateRequest n)

/-- RATE_SWITCH_INSTANT: both ends switch at T (R106). -/
def State.switchNow (s : State) (n : Nat) : State :=
  match (s.ulkP n).switchAt with
  | none => s
  | some t =>
    if s.now < t.toNat ∨ s.ulkSt n ≠ 3 then s
    else (s.setUlkSt n 4).onlyIf (!(s.ulkP n).presetSwitch) fun s => s.setRfld (ulkStatus n) 4 2 (s.rfld (ulkCtrl n) 2 2)

/-- RATE_SWITCH_INSTANT. -/
def execRateSwitchInstant (n : Fin 4) (s : State) : Host.Outcome State Fault Refusal := .next (s.switchNow n)

/-- A start moved on by whole revolutions to the first that is not before `least`. -/
def laterStart (rev least start : Nat) : Nat := if least ≤ start then start else start + rev * ceilDiv (least - start) (max 1 rev)

/-- A gate moved on by `k` ns, and no longer withheld. -/
def Gate.moved (g : Gate) (k : Nat) : Gate :=
  { g with guard := false, start := g.start + k, stop := g.stop + k, parts := g.parts.map fun p => (p.1 + k, p.2) }

/-- Two gates of one head, stripe and pass: a write gate and the read-after-write gate behind it. -/
def Gate.twin (g x : Gate) : Bool := x.head == g.head && x.stripe == g.stripe && x.pass == g.pass

/-- How far a gate that waited moves on: whole revolutions, so that it comes to its position again under the gang, and a write gate with
its read-after-write gate by as much as the earlier of the two needs. -/
def State.gateDelay (s : State) (gs : List Gate) (lead : Nat) (g : Gate) : Nat :=
  let first := (gs.filter g.twin).foldl (fun m x => min m x.start) g.start
  laterStart (max 1 (s.rfld (regAddr bSVO 0x10) 0 10) * s.rfld (regAddr bSVO 0x14) 0 18) (s.now + lead) first - first

/-- Gates not sent that a rate switch has held back keep their positions and wait for them to come round again: MOPs wait for a switch and
do not fail (R106). -/
def State.switchedGates (s : State) (n : Nat) : State :=
  s.modOrd n fun o => { o with
    gates := o.gates.map fun g => if g.sent || g.guard || g.fail != 0 then g else g.moved (s.gateDelay (o.gates.filter fun x => !x.sent) (1000 * s.rfld (ordCfg n) 0 6) g) }

/-- RATE_SWITCH_LOCK_CHECK: lanes not flit-locked go down and retrain; RATE_DONE (R106). A pending
calibration preset is thereby applied (R511). -/
def State.switchDone (s : State) (n locked : Nat) : State :=
  if s.ulkSt n = 4 then
    let s := ((s.setUlk n { s.ulkP n with switchAt := none, presetSwitch := false, rateReq := false }).setUlkSt n 3).switchedGates n
    let s := s.each (upto 26) fun s l => s.onlyIf (!locked.testBit l) fun s => s.laneDown n l
    ((s.calTaken fun a => decide (calUpre n 0 0 ≤ a) && decide (a < calUpre (n + 1) 0 0)).setRbit calStatus (10 + n) false).raise (ulkInt n) 6
  else s

/-- RATE_SWITCH_LOCK_CHECK. -/
def execRateSwitchLockCheck (n : Fin 4) (locked : BitVec 26) (s : State) : Host.Outcome State Fault Refusal :=
  .next (s.switchDone n locked.toNat)

/-! ## Retrain (R105) -/

/-- RETRAIN: the whole port when it has Failed, every down lane otherwise; no effect when none is down (R105). -/
def State.ulkRetrain (s : State) (n : Nat) : State :=
  if s.ulkSt n = 7 then s.startTraining n
  else if s.ulkSt n = 3 then
    let down := (upto 26).filter fun l => !(s.lanesUp n).testBit l
    s.setUlk n { s.ulkP n with retrain := down.foldl (fun t l => tset (fun _ => 3) t l 0) (s.ulkP n).retrain }
  else s

/-- ULK_RETRAIN. -/
def execUlkRetrain (n : Fin 4) (s : State) : Host.Outcome State Fault Refusal := .next (s.ulkRetrain n)

/-- LANE_RETRAIN_DONE: the lane is back with LANE_RETURN, or one more of its three attempts has failed (R105). Its SEQ starts again at
0 both ways, and what it held for replay is dropped (log 54). -/
def execLaneRetrainDone (n : Fin 4) (l : Fin 26) (ok : Bool) (s : State) : Host.Outcome State Fault Refusal :=
  .next (
    let k := tget (fun _ => 3) (s.ulkP n).retrain l
    if s.ulkSt n ≠ 3 ∨ 3 ≤ k then s
    else if ok then
      let p := s.ulkP n
      let p := { p with
        retrain := tset (fun _ => 3) p.retrain l 3, rx := tset (fun _ => {}) p.rx l {}, tx := tset (fun _ => {}) p.tx l {}
        servoLost := if 24 ≤ l.val then false else p.servoLost }
      ((s.setUlk n p).setRbit (ulkLaneUp n) l true).raise (ulkInt n) 11
    else s.setUlk n { s.ulkP n with retrain := tset (fun _ => 3) (s.ulkP n).retrain l (k + 1) })

/-! ## Sleep and wake (R107 to R109) -/

/-- SLEEP_REQ: ignored unless every head is on the ramp, in Parked or Disabled (Table 7.1), and while a handshake runs; LINK SLEEP on
every lane (R107). -/
def State.sleepReq (s : State) (n : Nat) : State :=
  if s.ulkSt n = 3 ∧ (s.actSt n = 0 ∨ s.actSt n = 6) ∧ (s.ulkP n).sleep = none then
    let s := s.setUlk n { s.ulkP n with sleep := some (0, false) }
    s.each (upto 26) fun s l => s.sendLink n l 3 0
  else s

/-- SLEEP_REQ. -/
def execSleepReq (n : Fin 4) (s : State) : Host.Outcome State Fault Refusal := .next (s.sleepReq n)

/-- Every lane that is up is among those that have answered. -/
def State.allAsleep (s : State) (n m : Nat) : Bool := s.lanesUp n &&& m == s.lanesUp n

/-- The handshake is complete: the port sleeps (R107). -/
def State.sleepNow (s : State) (n : Nat) : State :=
  ((s.setUlk n { s.ulkP n with sleep := none }).setLanesUp n 0).setUlkSt n 5

/-- SLEEP_ACK: that lane sleeps; the port sleeps when every lane that is up has answered (R107). -/
def State.sleepAck (s : State) (n l : Nat) : State :=
  match (s.ulkP n).sleep with
  | none => s
  | some (m, again) =>
    let m := m ||| (1 <<< l)
    if s.allAsleep n m then s.sleepNow n else s.setUlk n { s.ulkP n with sleep := some (m, again) }

/-- SLEEP_ACK. -/
def execSleepAck (n : Fin 4) (l : Fin 26) (s : State) : Host.Outcome State Fault Refusal := .next (s.sleepAck n l)

/-- The handshake is abandoned (R107). -/
def State.sleepFailed (s : State) (n : Nat) : State :=
  let s := (s.raise (ulkInt n) 9).almanac 0x0159 (bULK n) n []
  ((s.setRbit (ulkCtrl n) 1 true).setRbit (ulkCtrl n) 0 false).stopPort n

/-- SLEEP_ACK_TIMEOUT: the port sleeps if the lanes that have not answered have gone down; else SLEEP goes once more on them, and the
second time the handshake is abandoned (R107). -/
def execSleepAckTimeout (n : Fin 4) (s : State) : Host.Outcome State Fault Refusal :=
  .next (match (s.ulkP n).sleep with
    | none => s
    | some (m, again) =>
      if s.allAsleep n m then s.sleepNow n
      else if again then s.sleepFailed n
      else
        let s := s.setUlk n { s.ulkP n with sleep := some (m, true) }
        s.each ((upto 26).filter fun l => (s.lanesUp n).testBit l && !m.testBit l) fun s l => s.sendLink n l 3 0)

/-- WAKE_REQ: the wake pattern on S0, and the port repeats steps 2 to 8 (R108). -/
def State.wakeReq (s : State) (n : Nat) : State :=
  if s.ulkSt n = 5 then
    ((s.setUlk n { s.ulkP n with waking := true }).trainFrom n 2).emit (.wakePattern n)
  else s

/-- WAKE_REQ. -/
def execWakeReq (n : Fin 4) (s : State) : Host.Outcome State Fault Refusal := .next (s.wakeReq n)

/-- The PWR wake source of a Cysel (Table 16.5); see `wakeSource` for what PWR does with it. -/
def State.ulkWakes (s : State) (n : Nat) : State :=
  if s.ulkSt n = 5 ∨ (s.ulkP n).sleep ≠ none then
    let s := s.raise (ulkInt n) 4
    (s.setUlk n { s.ulkP n with sleep := none, waking := true }).trainFrom n 2
  else s

/-! ## The flit layer (R87, R95 to R97, R114) -/

/-- The type may travel up on the lane (Table 3.4): lanes 0 to 23 data, 24 S0, 25 S1. -/
def upTypeOk (t l : Nat) : Bool :=
  if t ≤ 2 then true else if t = 3 then l == 24
  else if t = 4 ∨ t = 5 ∨ t = 10 then decide (l < 24) else if t = 6 ∨ t = 7 then decide (24 ≤ l) else false

/-- The first payload byte after those a type's layout names (Table 3.5); 62 where every byte is named or the
Cysel datasheet gives the layout. -/
def namedEnd (t : Nat) : Nat :=
  if t = 0 then 2 else if t = 1 then 4 else if t = 3 then 11 else if t = 5 then 17 else if t = 7 then 18
  else if t = 10 then 10 else 62

/-- The last fragment number of a servo field (R100). -/
def State.lastFrag (s : State) (n : Nat) : Nat := ceilDiv (s.rfld (ulkSvcfg n) 0 11 - 48) 56

/-- The cause, in the order of R114, by which a flit with a good CRC is a violation. -/
def State.flitViolation (s : State) (n l : Nat) (f : List Byte) : Option Nat :=
  let t := flitType f
  let owner := (s.laneHead n l).isSome
  let first := (upto 24).any fun h => s.headMapped n h && firstLane (s.headMap n h) == l
  if !upTypeOk t l then some 0
  else if (t = 6 ∧ 1 < flitSub f) ∨ (t ≠ 6 ∧ flitSub f ≠ 0) ∨ ((f.take 62).drop (namedEnd t)).any (· != 0) then some 1
  else if (t = 4 ∨ t = 5) ∧ !owner then some 2
  else if (t = 5 ∨ t = 10) ∧ !first then some 0
  else if t = 6 ∧ (!s.headMapped n (lget 0 f 2).toNat ∨ s.lastFrag n < (lget 0 f 3).toNat) then some 3
  else if t = 10 ∧ !((upto 24).any fun h => firstLane (s.headMap n h) == l && tget (fun _ => false) (s.ulkP n).regRead h) then some 4
  else none

def ulkCrcCtr (n l : Nat) : Ctr := ⟨regAddr (bULK n) (0x200 + 4 * l), regAddr (bULK n) 0x480, l, ulkInt n, 31, 32⟩
def ulkReplayCtr (n l : Nat) : Ctr := ⟨regAddr (bULK n) (0x300 + 4 * l), regAddr (bULK n) 0x484, l, ulkInt n, 31, 32⟩
def ulkViolCtr (n c : Nat) : Ctr := ⟨regAddr (bULK n) (0x400 + 4 * c), regAddr (bULK n) 0x480, 26 + c, ulkInt n, 31, 32⟩
def ulkMissCtr (n : Nat) : Ctr := ⟨regAddr (bULK n) 0x24, regAddr (bULK n) 0x480, 31, ulkInt n, 31, 32⟩

/-- Advance a ULK counter: ULK has no CNT_SAT interrupt (Table 3.15). -/
def State.ulkCount (s : State) (n : Nat) (c : Ctr) : State :=
  let b := (s.reg (ulkInt n))
  (s.count c).setRbit (ulkInt n) 31 (bitAt b 31)

/-- nak(exp) of R95: one NAK until the expected flit arrives. -/
def State.sendNak (s : State) (n l : Nat) : State :=
  let r := s.rxl n l
  if r.nakOut then s
  else (s.setRxl n l { r with nakOut := true, tNak := s.ltime, naks := 1 }).sendLink n l 2 r.exp

/-- An ACK frees every flit up to its SEQ, and flits that waited behind 128 go out (R96, R97). -/
def State.linkAck (s : State) (n l : Nat) (seq : BitVec 8) : State :=
  let t := s.txl n l
  if t.knows seq then (s.setTxl n l (t.acked seq)).emitFlits n l false (t.freed seq) else s

/-- LINK_ACK. -/
def execLinkAck (n : Fin 4) (l : Fin 26) (seq : BitVec 8) (s : State) : Host.Outcome State Fault Refusal := .next (s.linkAck n l seq)

/-- A NAK: every unacknowledged flit from its SEQ onward goes again with RPL 1: none, where the flit expected has not been sent yet. A SEQ
no longer held takes the lane down. Servo lanes are not replayed (R96, R99). -/
def State.linkNak (s : State) (n l : Nat) (seq : BitVec 8) : State :=
  if l < 24 then
    let t := s.txl n l
    if t.knows seq then s.emitFlits n l true (t.resent seq) else if seq = t.unsent then s else s.laneDown n l
  else s

/-- LINK_NAK. -/
def execLinkNak (n : Fin 4) (l : Fin 26) (seq : BitVec 8) (s : State) : Host.Outcome State Fault Refusal := .next (s.linkNak n l seq)

/-- An unanswered NAK is repeated when 2 × ULK_RTT + 100 ns have passed; after four for one SEQ the lane goes down (R97). -/
def State.nakAgain (s : State) (n l : Nat) : State :=
  let r := s.rxl n l
  if !r.nakOut ∨ s.now < r.tNak.toNat + 2 * s.rfld (ulkRtt n) 0 16 + 100 then s
  else if 4 ≤ r.naks then s.laneDown n l
  else (s.setRxl n l { r with naks := r.naks + 1, tNak := s.ltime }).sendLink n l 2 r.exp

/-- NAK_TIMEOUT. -/
def execNakTimeout (n : Fin 4) (l : Fin 26) (s : State) : Host.Outcome State Fault Refusal := .next (s.nakAgain n l)

/-! ## Samples (R93, R94, R141 to R144) -/

/-- Bytes of a granule (R140). -/
def granuleBytes : Nat := 65536

/-- The ring position of the oldest byte stored (R141). -/
def ChnSlot.base (x : ChnSlot) : Nat := match x.sectors with
  | [] => x.wr
  | q :: _ => q.start

/-- The slot's ring takes `k` more bytes before the write position reaches the oldest sector. -/
def ChnSlot.room (x : ChnSlot) (k : Nat) : Bool := decide (x.wr + k ≤ x.base + (x.granules + x.loaned) * granuleBytes)

/-- Granules no slot is assigned, less those lent (R143). -/
def State.loanPool (s : State) (n : Nat) : Nat :=
  let assigned := ((upto 24).map fun h => s.rfld (chnSlotCfg n h) 4 7).sum
  let lent := ((upto 24).map fun h => (s.slot n h).loaned).sum
  96 - assigned - lent

/-- Evict a slot's oldest held sector that is not executing (R144): queued operations complete with
CHN_REPLAY_LOST when it was the slot's oldest held sector. -/
def State.evictHeld (s : State) (n h : Nat) : State :=
  let x := s.slot n h
  let oldest := match x.sectors.find? fun q => q.st == .held || q.st == .executing with
    | some q => q.st == .held
    | none => true
  let s := s.setSlot n h ({ x with
    sectors := removeFirst (fun q => q.st == SecState.held) x.sectors
    ops := if oldest then [] else x.ops } : ChnSlot).settleLoans
  let s := s.onlyIf oldest fun s => s.each x.ops fun s r => s.replayLost n h r 0x162
  ((s.count (chnCtr n 6)).raise (chnInt n) 2).almanac 0x0162 (bCHN n) h []

/-- Make room in a slot's ring for `k` bytes: borrow, evict, else fail (R143, R144); `fuel` bounds the evictions. -/
def State.makeRoom (s : State) (n h k : Nat) : Nat → State × Bool
  | 0 => (s, false)
  | fuel + 1 =>
    let x := s.slot n h
    if x.room k then (s, true)
    else if x.loaned < s.rfld (chnSlotCfg n h) 16 4 ∧ 0 < s.loanPool n then
      ((((s.setSlot n h { x with loaned := x.loaned + 1 }).count (chnCtr n 5)).raise (chnInt n) 1)).makeRoom n h k fuel
    else if x.sectors.any (fun q => q.st == .held) then (s.evictHeld n h).makeRoom n h k fuel
    else (s, false)

/-- Samples that would overwrite a sector are discarded and their sector fails with CHN_REPLAY_LOST (R144). -/
def State.discardSamples (s : State) (n h g : Nat) : State :=
  ((((s.count (chnCtr n 6)).raise (chnInt n) 2).almanac 0x0162 (bCHN n) h []).markFailed n g 0x162).failArriving n h g 0x162

/-- The bytes join the gate's sector at the ring's write position, but for those before candidate E − W − 96; a slot with no room for
them borrows, evicts, or discards them (R141 to R144). -/
def State.storeSamples (s : State) (n h g : Nat) (l : List Byte) : State :=
  match (s.slot n h).sectors.find? (Sector.arrives g) with
  | none => s
  | some q =>
    let keep := l.drop q.skip
    let m := s.makeRoom n h keep.length ((s.slot n h).sectors.length + 17)
    if m.2 then
      let x := m.1.slot n h
      m.1.setSlot n h { x with
        wr := x.wr + keep.length
        sectors := updFirst (Sector.arrives g) (fun q => { q with skip := q.skip - l.length, samples := q.samples ++ keep }) x.sectors }
    else m.1.discardSamples n h g

def State.bursts (s : State) (n h : Nat) : List Burst := tget (fun _ => []) (s.ulkP n).bursts h
def State.setBursts (s : State) (n h : Nat) (l : List Burst) : State :=
  s.setUlk n { s.ulkP n with bursts := tset (fun _ => []) (s.ulkP n).bursts h l }

/-- The burst's next flit may be stored: it has come, and that it is the burst's, and whether it is the last, with COUNT instants, is
known. The end mark tells, or a later flit on the head's first lane, on which the marks travel too (R93). -/
def Burst.ready (b : Burst) : Option (List Byte) :=
  match b.early.find? (fun e => e.1 == b.below) with
  | some e => if b.ended || b.early.any (fun e => decide (b.below < e.1) && (!b.two || e.1 % 2 == 0)) then some e.2 else none
  | none => none

/-- The samples of a flit that are valid: the last flit of a burst holds COUNT instants (Table 3.5). -/
def Burst.valid (b : Burst) (readers : Nat) (l : List Byte) : List Byte :=
  if b.ended && b.below + 1 == b.flits then l.take (b.count * readers) else l

/-- Every SAMPLE flit of the burst has been stored. -/
def Burst.done (b : Burst) : Bool := b.ended && decide (b.flits ≤ b.below)

/-- A burst of the gate's sector is all there: fewer are still to come (R125). -/
def State.burstStored (s : State) (n h g : Nat) : State :=
  let x := s.slot n h
  s.setSlot n h { x with sectors := updFirst (Sector.arrives g) (fun q => { q with left := q.left - 1 }) x.sectors }

/-- The oldest burst's flits go to the ring in order of position; a burst that is done makes way for the next (R93). -/
def State.drainBurst (s : State) (n h : Nat) : Nat → State
  | 0 => s
  | fuel + 1 =>
    match s.bursts n h with
    | [] => s
    | b :: bs =>
      if b.done then ((s.setBursts n h bs).burstStored n h b.gateId).drainBurst n h fuel
      else match b.ready with
        | none => s
        | some l =>
          let v := b.valid (popCount 3 b.readers) l
          let b' := { b with below := b.below + 1, early := b.early.filter fun e => e.1 != b.below }
          ((s.setBursts n h (b' :: bs)).storeSamples n h b.gateId v).drainBurst n h fuel

/-- Steps that draining can take. -/
def drainFuel (l : List Burst) : Nat := (l.map fun b => b.early.length + 1).sum

/-- The burst can take the flit at position k. -/
def Burst.takes (k : Nat) (b : Burst) : Bool :=
  decide (b.below ≤ k) && !(b.early.any fun e => e.1 == k) && (!b.ended || decide (k < b.flits))

/-- SAMPLE: the flit takes its position in the oldest burst that lacks it; a sample is usable when every position before it has come
(R93). -/
def State.takeSample (s : State) (n h k : Nat) (l : List Byte) : State :=
  let bs := updFirst (Burst.takes k) (fun b => { b with early := b.early ++ [(k, l)] }) (s.bursts n h)
  (s.setBursts n h bs).drainBurst n h (drainFuel bs)

/-- SAMPLE. -/
def execSample (n : Fin 4) (h : Fin 24) (k : Nat) (samples : List Byte) (s : State) : Host.Outcome State Fault Refusal :=
  .next (if s.headMapped n h then s.takeSample n h k samples else s)

/-- The burst still expects a flit on lane `i` of the head's `k` lanes (R93). -/
def Burst.lacks (k i : Nat) (b : Burst) : Bool := !b.ended || decide (k * (if i = 0 then b.even else b.odd) + i < b.flits)

/-- Flits of a head's second lane that wait for the start mark of their burst. -/
def State.aheadOf (s : State) (n h : Nat) : List (List Byte) := tget (fun _ => []) (s.ulkP n).ahead h
def State.setAhead (s : State) (n h : Nat) (l : List (List Byte)) : State :=
  s.setUlk n { s.ulkP n with ahead := tset (fun _ => []) (s.ulkP n).ahead h l }

/-- The position of a flit that comes on lane `i` of the head's `k` lanes: SAMPLE flit k of a burst travels on lane
FIRST_LANE + (k mod 2). One on the second lane may come before the start mark of its burst, which travels on the first: it waits for
that (R93). -/
def State.sampleOnLane (s : State) (n h k i : Nat) (l : List Byte) : State :=
  match (s.bursts n h).find? (Burst.lacks k i) with
  | none => if i = 0 then s else s.setAhead n h (s.aheadOf n h ++ [l])
  | some b =>
    let bs := updFirst (Burst.lacks k i)
      (fun b => if i = 0 then { b with even := b.even + 1 } else { b with odd := b.odd + 1 }) (s.bursts n h)
    (s.setBursts n h bs).takeSample n h (k * (if i = 0 then b.even else b.odd) + i) l

/-- What R52 expects of the metadata of a gate's sector: the values of the MOP that placed it; an alternate read
expects the partner's head of the same number (R44). -/
def State.expected (s : State) (n h gateId : Nat) : Option (Nat × Nat × Nat × Nat) :=
  let o := s.ordP n
  match o.mop, o.gates.find? (fun g => g.id == gateId) with
  | some m, some g => some (m.zoneTag, g.stripe, 24 * (if m.alt then (n + 2) % 4 else n) + h, fld (o.pb 2) 0 16)
  | _, _ => none

/-- The parts in which a gate's sector comes: more than one where a servo field splits it (R125). -/
def State.partsOf (s : State) (n gateId : Nat) : Nat :=
  match (s.ordP n).gates.find? fun g => g.id == gateId with
  | some g => max 1 g.parts.length
  | none => 1

/-- CHN_EQh_s_k. -/
def chnEq (n h set k : Nat) := regAddr (bCHN n) (0x4000 + 0x100 * h + 0x80 * set + 4 * k)

/-- A REF, TR or equaliser register as the slot uses it: the value in force before a pending write (R153). -/
def State.chnInForce (s : State) (n h a : Nat) : W := (tget (fun _ => none) (s.slot n h).inForce a).getD (s.reg a)

/-- CHN_SLOTh_TR and the words of both equaliser sets in force. -/
def State.chnSets (s : State) (n h : Nat) : List W :=
  s.chnInForce n h (chnTr n h) :: (upto 64).map fun k => s.chnInForce n h (chnEq n h (k / 32) (k % 32))

/-- Link time of a sector's first stored sample: the start mark gives that of the burst's first sample, and those before candidate
E − W − 96 are not stored (R141, R150). A fraction of a nanosecond is dropped: log 93. -/
def firstStored (profCfg profTime lt : W) (phase : Nat) : W :=
  let baud := fld profTime 16 12
  let i := skipBytes profCfg profTime 1
  lt + BitVec.ofNat 32 (if baud = 0 then 0 else (phase * baud + i * 800 * 65536) / (65536 * baud))

/-- The sector of a gate begins to arrive in the slot (R139, R141). -/
def State.openSector (s : State) (n h gateId : Nat) (lt : W) (phase : Nat) : State :=
  let x := s.slot n h
  let readers := s.slotReaders n h x.profCfg
  let q : Sector := {
    gateId := gateId, ltime := firstStored x.profCfg x.profTime lt phase, sets := s.chnSets n h, expect := s.expected n h gateId, prof := x.prof, profCfg := x.profCfg, profTime := x.profTime
    readers := readers, start := x.wr, skip := skipBytes x.profCfg x.profTime (popCount 3 readers), left := s.partsOf n gateId }
  s.setSlot n h { x with sectors := x.sectors ++ [q] }

/-- A start mark opens a burst, which takes the flits that have come ahead of it on its second lane; one more burst of its gate has
begun (R92, R93). -/
def State.newBurst (s : State) (n h gateId readers : Nat) (lt : W) (phase : Nat) : State :=
  let l := s.aheadOf n h
  let b : Burst := {
    gateId := gateId, two := bitAt (s.headMap n h) 1, readers := readers, ltime := lt, phase := phase, odd := l.length
    early := (upto l.length).map fun i => (2 * i + 1, lget [] l i) }
  let s := (s.setBursts n h (s.bursts n h ++ [b])).setAhead n h []
  s.modOrd n fun o => { o with gates := updFirst (fun g => g.id == gateId) (fun g => { g with bursts := g.bursts + 1 }) o.gates }

/-- A gate that has been sent brings its burst to a slot that is off, not armed, or whose ARM was refused meanwhile: its sector fails at
once, if the gate has not failed (R119, R140; log 57). -/
def State.noSlot (s : State) (n h gateId : Nat) : State :=
  let x := s.slot n h
  let st := if s.slotOn n h && x.refused != 0 then x.refused else 0x166
  if (s.ordP n).gates.any fun g => g.id == gateId && g.fail == 0 then (s.markFailed n gateId st).failArriving n h gateId st else s

/-- A start mark opens a burst; the sector of a new GATE_ID begins to arrive in an armed slot that is on, unless it has already failed
(R93, R94, R119, R139, R141). -/
def State.burstStart (s : State) (n h gateId readers : Nat) (lt : W) (phase : Nat) : State :=
  let s := s.newBurst n h gateId readers lt phase
  let x := s.slot n h
  if x.lost == some gateId || x.sectors.any (Sector.arrives gateId) then s
  else
    let s := s.sectorBoundary n h
    if (s.slot n h).armed && s.slotOn n h then s.openSector n h gateId lt phase else s.noSlot n h gateId

/-- The burst with its end mark: flits of the second lane beyond FLITS are the next burst's (R93). -/
def Burst.close (b : Burst) (gap cut : Bool) (flits count : Nat) : Burst :=
  { b with
    ended := true, gap := gap, shockCut := cut, flits := flits, count := count, odd := if b.two then min b.odd (flits / 2) else b.odd
    early := b.early.filter fun e => decide (e.1 < flits) }

/-- The flits of the second lane that its end mark finds to be the next burst's, in order. -/
def Burst.beyond (b : Burst) (flits : Nat) : List (List Byte) :=
  ((b.early.filter fun e => b.two && e.1 % 2 == 1 && decide (flits ≤ e.1))).map fun e => e.2

/-- The end mark of a burst is noted in the last burst that has none; with the flits that go beyond it. -/
def endBurst (gap cut : Bool) (flits count : Nat) : List Burst → List Burst × List (List Byte)
  | [] => ([], [])
  | b :: bs => if bs.any (fun b => !b.ended) || b.ended then
      let t := endBurst gap cut flits count bs
      (b :: t.1, t.2)
    else (b.close gap cut flits count :: bs, b.beyond flits)

/-- An end mark closes the burst; with GAP or SHOCK_CUT the sector it cuts fails (R94, R111). -/
def State.burstEnd (s : State) (n h gateId : Nat) (gap cut : Bool) (flits count : Nat) : State :=
  let t := endBurst gap cut flits count (s.bursts n h)
  let s := ((s.setBursts n h t.1).setAhead n h (s.aheadOf n h ++ t.2)).drainBurst n h (drainFuel t.1)
  if (gap || cut) && (s.slot n h).sectors.any (Sector.arrives gateId) then
    (s.markFailed n gateId (if cut then 0x156 else 0x151)).failArriving n h gateId (if cut then 0x156 else 0x151)
  else s

/-- SAMPLE_MARK: a start or an end mark of a head in service (R93, R114). -/
def State.takeMark (s : State) (n h gateId : Nat) (isEnd gap cut : Bool) (readers : Nat) (lt : W) (phase flits count : Nat) : State :=
  if !s.headMapped n h then s
  else if isEnd then s.burstEnd n h gateId gap cut flits count
  else s.burstStart n h gateId readers lt phase

/-- SAMPLE_MARK. -/
def execSampleMark (n : Fin 4) (h : Fin 24) (gateId : BitVec 16) (isEnd gap shockCut : Bool) (readers : BitVec 3)
    (lt : BitVec 32) (phase : BitVec 16) (flits : BitVec 32) (count : BitVec 8) (s : State) : Host.Outcome State Fault Refusal :=
  .next (s.takeMark n h gateId.toNat isEnd gap shockCut readers.toNat lt phase.toNat flits.toNat count.toNat)

/-! ## Servo fields (R99 to R101, R183, R191 to R193) -/

def State.fieldRx (s : State) (n h : Nat) : FieldRx := tget (fun _ => {}) (s.ulkP n).fields h
def State.setFieldRx (s : State) (n h : Nat) (f : FieldRx) : State :=
  s.setUlk n { s.ulkP n with fields := tset (fun _ => {}) (s.ulkP n).fields h f }

/-- Wedges per revolution (Table 6.8). -/
def State.wedges (s : State) : Nat := max 1 (s.rfld (regAddr bSVO 0x10) 0 10)

/-- Wedge `b` comes after wedge `a`, by the shorter way round. -/
def wedgeAfter (w a b : Nat) : Bool := a % w != b % w && decide (2 * ((b + w - a % w) % w) ≤ w)

/-- A fragment of a head in service opens a new field, joins the present one, is a second copy, or comes too late and is counted
(R99, R101, R114). -/
def State.takeFrag (s : State) (n h frag : Nat) (last : Bool) (wedge : Nat) (lt : W) (thermal contact : Nat) : State :=
  let f := s.fieldRx n h
  let newer := !f.known || wedgeAfter s.wedges f.wedge wedge
  if !s.headMapped n h ∨ s.lastFrag n < frag then s
  else if !newer ∧ f.wedge ≠ wedge then s.ulkCount n (ulkMissCtr n)
  else if !newer ∧ f.frags.contains frag then s
  else if !newer ∧ f.closed then (s.ulkCount n (ulkMissCtr n)).setFieldRx n h { f with frags := f.frags ++ [frag] }
  else
    let f := if newer then { f with wedge := wedge, frags := [], last := none, closed := false, known := true } else f
    s.setFieldRx n h { f with
      frags := f.frags ++ [frag]
      last := if last then some frag else f.last
      ltime := if frag = 0 then lt else f.ltime
      thermal := if frag = 0 then thermal else f.thermal
      contact := if frag = 0 then contact else f.contact }

/-- SERVO_FIELD. -/
def execServoField (n : Fin 4) (h : Fin 24) (frag : Nat) (last : Bool) (wedge : Nat) (lt : BitVec 32)
    (thermal contact : BitVec 16) (s : State) : Host.Outcome State Fault Refusal :=
  .next (s.takeFrag n h frag last wedge lt thermal.toNat contact.toNat)

/-- Every fragment of the field has arrived (R100, R101). -/
def FieldRx.complete (f : FieldRx) : Bool :=
  match f.last with
  | some k => (upto (k + 1)).all fun i => f.frags.contains i
  | none => false

/-- The full link time that a 32-bit LTIME means, within ±2³¹ ns of the receiver's own (R86). -/
def fullTime (now : D) (lt : W) : D :=
  now + ((lt - now.setWidth 32).signExtend 64)

/-- A head delivers its first field of a load: the actuator tracks once every head of SVO_STACKa has (Table 7.1, R154, R192). -/
def State.loadField (s : State) (a h : Nat) : State :=
  if s.actSt a = 1 then
    let seen := (s.actP a).loadSeen ||| (1 <<< h)
    let s := s.setAct a { s.actP a with loadSeen := seen }
    let stack := s.stackMask a
    if stack ≠ 0 ∧ stack &&& seen = stack then
      let s := s.setAct a { s.actP a with settleCfg := s.reg (actReg a 0xC), timeoutCfg := s.reg (actReg a 0x20) }
      (((s.setActSt a 2).setRbit svoStatus (9 + a) false).wpaRamp a false)
    else s
  else s

/-- Link time of a field's first sample. -/
def State.fieldTime (s : State) (f : FieldRx) : Nat := (fullTime s.ltime f.ltime).toNat

/-- The hand-off instant of a field whose first fragment has come: LTIME + SVWIN + SVDELAY (R101). -/
def State.handoffAt (s : State) (n : Nat) (f : FieldRx) : Nat :=
  s.fieldTime f + s.rfld (ulkSvcfg n) 0 11 + 10 * s.rfld (ulkSvcfg n) 20 8

/-- The heads of SVO_STACKa in force or as last written: those whose arrivals make the wedge boundaries of the VCM and milli loops, at which
a written mask comes into force (R187, R206). -/
def State.stackHeads (s : State) (a : Nat) : Nat := s.stackMask a ||| s.rfld (svoStack a) 0 24

/-- The whole field goes to SVO: its position, its end, and the head's next window, one wedge period after the last and corrected by
the timing error (R101, R183, R193). -/
def State.fieldGood (s : State) (n h : Nat) (pos : Option Int) (err : Int) : State :=
  let f := s.fieldRx n h
  let k := 24 * n + h
  let s := s.setFieldRx n h { f with closed := true, misses := 0, lost := false }
  let t := s.fieldTime f
  let v := s.svo
  let w := tget (fun _ => 0) v.window k
  let s := { s with svo := { v with
    headPos := tset (fun _ => none) v.headPos k pos
    microErr := match pos with
      | some _ => v.microErr
      | none => tset (fun _ => none) v.microErr k none
    fieldEnd := tset (fun _ => (0, 0)) v.fieldEnd k (t + s.rfld (ulkSvcfg n) 0 11, f.wedge)
    window := tset (fun _ => 0) v.window k ((((if w = 0 then t else w) + s.rfld (regAddr bSVO 0x14) 0 18 : Nat) : Int) + err).toNat
    wedge := if (s.stackHeads n).testBit h then tset (fun _ => 0) v.wedge n f.wedge else v.wedge } }
  s.onlyIf pos.isSome fun s => s.loadField n h

/-- The field is missed: it is counted, the head has no position for the wedge, its window moves on by a wedge period, and SVMISS_LIMIT
misses in a row lose the servo (R101, R113, R191, R193): once, until a good field of that head has come (log 92). -/
def State.fieldMissed (s : State) (n h : Nat) : State :=
  let f := s.fieldRx n h
  let k := 24 * n + h
  let m := f.misses + 1
  let lose := s.headMapped n h && decide (s.rfld (ulkSvcfg n) 16 4 ≤ m) && !f.lost
  let s := s.ulkCount n (ulkMissCtr n)
  let f := if f.closed then { f with wedge := (f.wedge + 1) % s.wedges, frags := [] } else f
  let s := s.setFieldRx n h { f with closed := true, misses := m, lost := f.lost || lose }
  let w := tget (fun _ => 0) s.svo.window k
  let s := { s with svo := { s.svo with
    microErr := tset (fun _ => none) s.svo.microErr k none, headPos := tset (fun _ => none) s.svo.headPos k none
    window := tset (fun _ => 0) s.svo.window k (if w = 0 then 0 else w + s.rfld (regAddr bSVO 0x14) 0 18) } }
  s.onlyIf lose fun s => s.servoLost n

/-- SERVO_FIELD_HANDOFF: at the instant of R101 the field is handed over or missed; before it nothing happens to a field whose first
fragment has come. -/
def State.handoff (s : State) (n h : Nat) (pos : Option Int) (err : Int) : State :=
  let f := s.fieldRx n h
  if !f.closed ∧ f.frags.contains 0 ∧ s.now < s.handoffAt n f then s
  else if f.complete ∧ !f.closed then s.fieldGood n h pos err
  else s.fieldMissed n h

/-- SERVO_FIELD_HANDOFF. -/
def execServoFieldHandoff (n : Fin 4) (h : Fin 24) (pos : Option Int) (err : Int) (s : State) : Host.Outcome State Fault Refusal :=
  .next (s.handoff n h pos err)

/-! ## Telemetry (R111 to R113, R162, R512) -/

/-- The parts of a gate: START, channel bits and length in ns of each. -/
def Gate.pieces (g : Gate) (baud : Nat) : List (Nat × Nat × Nat) :=
  if g.parts = [] then [(g.start, 37200, g.stop - g.start)] else g.parts.map fun p => (p.1, p.2, ceilDiv (p.2 * 1000) (max 1 baud))

/-- A read or read-after-write gate that has been sent has had fewer bursts than parts that have started: the burst of a part has not
come (R92). -/
def Gate.burstDue (g : Gate) (now : Nat) : Bool :=
  !g.isWrite && g.sent && decide (g.bursts < ((g.pieces 0).filter fun p => decide (p.1 ≤ now)).length)

/-- TELEMETRY: shock inhibits or releases every head, newly set faults raise CYSEL_FAULT with a record and
inhibit the heads named, underruns fail the open writes (which of a head's: log 76), late commands the reads whose burst has not come
(which of a head's: log 91), and the die temperature goes to CAL. -/
def State.newTelemetry (s : State) (n : Nat) (shock supply hot : Bool) (under late fault : Nat) (t : BitVec 16) : State :=
  let p := s.ulkP n
  let was := s.rbit (ulkStatus n) 9
  let s := s.setRbit (ulkStatus n) 9 shock
  let newFault := (supply && !p.supplyFault) || (hot && !p.overtemp) || (fault &&& (0xFFFFFF ^^^ p.headFault)) != 0
  let s := s.setUlk n { p with
    underrun := under, lateCmd := late, headFault := fault, supplyFault := supply, overtemp := hot, dieTemp := t }
  let s := s.onlyIf (shock && !was) fun s => s.raise (ulkInt n) 3
  let s := s.each (upto 24) fun s h => if shock then s.inhibitHead n h 2 else s.uninhibit n h 2
  let flags := (if shock then 1 else 0) + (if supply then 2 else 0) + (if hot then 4 else 0)
  let s := s.onlyIf newFault fun s => (s.raise (ulkInt n) 5).almanac 0x0158 (bULK n) n [(4, flags), (4, fault)]
  let s := s.each (maskBits 24 fault) fun s h => s.inhibitHead n h 1
  let s := s.onlyIf (under != 0) fun s => s.raise (ulkInt n) 8
  let s := s.each (maskBits 24 under) fun s h =>
    s.failGates n (fun g => g.isWrite && g.head == h && g.sent && decide (g.start ≤ s.now)) 0x152
  let s := s.each (maskBits 24 late) fun s h =>
    s.failGates n (fun g => g.head == h && g.burstDue s.now) 0x151
  s.cyselTemp n t

/-- The LTIMEs of which a second copy may still come: those within 2³⁰ ns of link time (R86, R99). -/
def State.telRecent (s : State) (n : Nat) : List W :=
  (s.ulkP n).telSeen.filter fun e => decide ((e - s.ltime.setWidth 32 + 0x40000000).toNat < 0x80000000)

/-- TELEMETRY, of which the first copy counts: a second one carries the same LTIME (R99). -/
def State.takeTelemetry (s : State) (n : Nat) (shock supply hot : Bool) (under late fault : Nat) (t : BitVec 16) (lt : W) : State :=
  let seen := s.telRecent n
  if seen.contains lt then s.setUlk n { s.ulkP n with telSeen := seen.filter (· != lt) }
  else (s.setUlk n { s.ulkP n with telSeen := lt :: seen }).newTelemetry n shock supply hot under late fault t

/-- TELEMETRY. -/
def execTelemetry (n : Fin 4) (shock supplyFault overtemp : Bool) (underrun lateCmd headFault : BitVec 24)
    (dieTemp : BitVec 16) (lt : BitVec 32) (s : State) : Host.Outcome State Fault Refusal :=
  .next (s.takeTelemetry n shock supplyFault overtemp underrun.toNat lateCmd.toNat headFault.toNat dieTemp lt)

/-- HEAD_REPLY: it answers the head's outstanding REG_READ (R89, R114); the value goes to its requester. -/
def State.headReply (s : State) (n h addr data status : Nat) : State :=
  if tget (fun _ => false) (s.ulkP n).regRead h then
    (s.setUlk n { s.ulkP n with regRead := tset (fun _ => false) (s.ulkP n).regRead h false }).emit (.headReply n h addr data status)
  else s

/-- HEAD_REPLY. -/
def execHeadReply (n : Fin 4) (h : Fin 24) (addr : BitVec 16) (data : BitVec 32) (status : BitVec 8) (s : State) :
    Host.Outcome State Fault Refusal := .next (s.headReply n h addr.toNat data.toNat status.toNat)

/-- HEADMAP_APPLY: the map last written takes effect if head h has no gate open (R116). -/
def execHeadmapApply (n : Fin 4) (h : Fin 24) (s : State) : Host.Outcome State Fault Refusal :=
  .next (if s.gateOpenOn n h then s
    else (s.setUlk n { s.ulkP n with
      mapInForce := tset (fun _ => 0x380) (s.ulkP n).mapInForce h (s.reg (ulkHeadmap n h)) }).updateMapErr n)

/-! ## Gate commands (R83, R84, R90, R91, R154 to R160, R171, R537) -/

/-- The sample budget of one lane at a rate, in Gbit/s (Table 3.2). -/
def laneBudget (rate : Nat) : Nat := if rate = 0 then 96 else if rate = 1 then 48 else 24

/-- The readers that a gate's READ_GATE names: a read-after-write gate takes the trailing reader (R167). -/
def State.gateReaders (s : State) (n : Nat) (g : Gate) : Nat :=
  if g.kind = .raw then 2 ^ s.rfld (wpaCfg n) 0 2 else s.slotReaders n g.head (s.slot n g.head).profCfg

/-- A head's sample demand exceeds the budget of its lanes (R84): readers × 8 × 1.25 × MHz against Gbit/s. -/
def State.overBudget (s : State) (n h readers baud : Nat) : Bool :=
  decide (laneBudget (s.rfld (ulkStatus n) 4 2) * 1000 * (mapLanes (s.headMap n h)).length < readers * 10 * baud)

/-- The head cannot fly lower in a MOP that asks it to: FH_DOWN1 found it at STEP_MAX (R166, R303). -/
def State.noLowerStep (s : State) (n h : Nat) : Bool :=
  s.rbit (wpaHeadStatus n h) 12 && match (s.ordP n).mop with
    | some m => bitAt m.w0 19
    | none => false

/-- Why a placed gate is cancelled in place of being sent, if it is (R83, R84, R91, R113, R119, R154, R156, R158, R166, R216, R303). A gate whose
START is less than 2 µs away is not sent: log 56. A slot that was never armed has no ARM to take its profile from: log 57. -/
def State.gateCancel (s : State) (n : Nat) (g : Gate) : Option Nat :=
  let h := g.head
  let baud := fld (s.ordP n |>.pb 7) 0 12
  if s.ulkSt n = 7 then some 0x154
  else if !s.headMapped n h then some 0x157
  else if (mapLanes (s.headMap n h)).any (fun l => !s.laneReady n l) then some 0x150
  else if (s.wpaP n).dropped.testBit h then some 0x180
  else if g.isWrite then
    if !s.rbit (wpaHeadCfg n h) 0 ∨ s.wpaSt n h ≠ 2 then some 0x171
    else if g.start < (s.wpaH n h).warmAt.toNat + s.rfld (wpaCfg n) 4 8 * 10000 then some 0x173
    else if !g.data then some 0x172
    else if g.start < s.now + 2000 then some 0x170
    else none
  else
    let x := s.slot n h
    if s.noLowerStep n h then some 0x179
    else if x.refused ≠ 0 then some x.refused
    else if !x.armed ∨ !s.slotOn n h then some 0x166
    else if s.overBudget n h (popCount 3 (s.gateReaders n g)) baud then some 0x153
    else if g.start < s.now + 2000 then some 0x151
    else none

/-- The gate with a GATE_ID. -/
def State.gateById (s : State) (n id : Nat) : Option Gate := (s.ordP n).gates.find? fun g => g.id == id

/-- WRITE_PROFILE goes first when the values of the profile that the head has selected differ from those last sent (R155, R160). -/
def State.sendProfile (s : State) (n : Nat) (g : Gate) : State :=
  let v := s.reg (wpaWcp n g.head (s.rfld (wpaHeadStatus n g.head) 2 2))
  if (s.wpaH n g.head).wcpSent = some v then s
  else (s.setWpaH n g.head { s.wpaH n g.head with wcpSent := some v }).sendCmd n g.head
    (writeProfileCmd (fld v 0 8) (fld v 8 8) (fld v 16 8))

/-- The gate is marked sent. -/
def State.markSent (s : State) (n id : Nat) : State :=
  s.modOrd n fun o => { o with gates := o.gates.map fun g => if g.id == id then { g with sent := true } else g }

/-- One WRITE_GATE or READ_GATE for each part, under one GATE_ID (R90, R125). -/
def State.sendGate (s : State) (n : Nat) (g : Gate) (baud : Nat) : State :=
  s.each (g.pieces baud) fun s p => s.sendCmd n g.head
    (if g.isWrite then writeGateCmd g.id p.1 p.2.1 baud else readGateCmd g.id p.1 p.2.2 (s.gateReaders n g) baud)

/-- GATE_SEND: the gate command goes to the Cysel, or the gate ends with the status of the check it fails. Nothing is sent while the
guard withholds the gate or a rate switch is due, or for a gate that has failed (R106, R171). -/
def State.gateSend (s : State) (n id : Nat) : State :=
  match s.gateById n id with
  | none => s
  | some g =>
    if g.sent ∨ g.guard ∨ g.fail ≠ 0 ∨ (s.ulkP n).rateReq then s
    else match s.gateCancel n g with
      | some st =>
        let s := s.onlyIf (st == 0x172) fun s => s.raise (wpaInt n) 5
        s.failGate n g st
      | none =>
        let baud := fld (s.ordP n |>.pb 7) 0 12
        ((s.onlyIf g.isWrite fun s => s.sendProfile n g).markSent n id).sendGate n g baud

/-- GATE_SEND. -/
def execGateSend (n : Fin 4) (gateId : Nat) (s : State) : Host.Outcome State Fault Refusal := .next (s.gateSend n gateId)

/-- A read or read-after-write gate whose time has passed, and with it the time in which a start mark lost on the way would be sent
again, with the burst of a part of it missing fails with USLEN_SAMPLE_GAP (R92, R97; log 91). -/
def State.noBurst (s : State) (n : Nat) : State :=
  s.failGates n (fun g => g.burstDue s.now && decide (g.stop + 2 * s.rfld (ulkRtt n) 0 16 + 100 ≤ s.now)) 0x151

/-! ## Flits received (R95, R99, R114, Table 3.5) -/

/-- act(f) of R95: the content of a flit has the effect of its row. -/
def State.actFlit (s : State) (n l : Nat) (f : List Byte) : State :=
  let t := flitType f
  let b := fun i => flitLe f i 1
  let h := (s.laneHead n l).getD 0
  let m := s.headMap n h
  if t = 1 then
    if b 2 = 1 then s.linkAck n l (BitVec.ofNat 8 (b 3)) else if b 2 = 2 then s.linkNak n l (BitVec.ofNat 8 (b 3))
    else if b 2 = 4 then s.sleepAck n l else s
  else if t = 3 then (if b 2 = 1 then s.echoReply n else s)
  else if t = 4 then s.sampleOnLane n h (mapLanes m).length (l - firstLane m) ((f.take 62).drop 2)
  else if t = 5 then
    s.takeMark n h (flitLe f 2 2) ((b 4).testBit 0) ((b 4).testBit 1) ((b 4).testBit 2) (b 5 % 8) (BitVec.ofNat 32 (flitLe f 6 4))
      (flitLe f 10 2) (flitLe f 12 4) (b 16)
  else if t = 6 then
    s.takeFrag n (b 2) (b 3) (flitSub f == 1) (flitLe f 4 2) (BitVec.ofNat 32 (flitLe f 6 4)) (flitLe f 10 2) (flitLe f 12 2)
  else if t = 7 then
    s.takeTelemetry n ((b 2).testBit 0) ((b 2).testBit 1) ((b 2).testBit 2) (flitLe f 3 3) (flitLe f 6 3) (flitLe f 9 3)
      (BitVec.ofNat 16 (flitLe f 12 2)) (BitVec.ofNat 32 (flitLe f 14 4))
  else if t = 10 then s.headReply n h (flitLe f 3 2) (flitLe f 5 4) (b 9)
  else s

/-- What a flit in order does: a violation is counted and its content discarded (R114). -/
def State.takeFlit (s : State) (n l : Nat) (f : List Byte) : State :=
  match s.flitViolation n l f with
  | some c => (s.ulkCount n (ulkViolCtr n c)).raise (ulkInt n) 7
  | none => s.actFlit n l f

/-- on_flit of R95, with the servo lanes of R99, which are neither NAKed nor acknowledged. -/
def State.onFlit (s : State) (n l : Nat) (f : List Byte) : State :=
  if !flitCrcOk f then
    let s := s.ulkCount n (ulkCrcCtr n l)
    s.onlyIf (decide (l < 24)) fun s => s.sendNak n l
  else if !sequenced (flitType f) then s.takeFlit n l f
  else if l < 24 ∧ flitSeq f ≠ (s.rxl n l).exp then s.sendNak n l
  else
    let r := s.rxl n l
    let s := s.onlyIf (flitRpl f) fun s => s.ulkCount n (ulkReplayCtr n l)
    let s := s.setRxl n l { r with exp := flitSeq f + 1, nakOut := false, naks := 0, sinceAck := r.sinceAck + 1 }
    let s := s.takeFlit n l f
    if l < 24 ∧ s.rfld (ulkCtrl n) 16 8 ≤ r.sinceAck + 1 then
      (s.setRxl n l { s.rxl n l with sinceAck := 0 }).sendLink n l 1 (flitSeq f)
    else s

/-- FLIT_RECEIVED. -/
def execFlitReceived (n : Fin 4) (l : Fin 26) (flit : List Byte) (s : State) : Host.Outcome State Fault Refusal :=
  .next (if (s.lanesUp n).testBit l then s.onFlit n l flit else s)

end Sys2Proof.Machine
end

