-- ==== Sys2Proof/Machine/Chn.lean ====
section
/-!
DEFINITION. The read channel: strobes, sync search, decoder pool, replay operations, sector packets (chapter 4).
-/
namespace Sys2Proof.Machine

/-! ## Strobes (Table 4.2) -/

/-- ARM_P. -/
def execArmP (n : Fin 4) (h : Fin 24) (k : Fin 8) (s : State) : Host.Outcome State Fault Refusal :=
  .next (s.chnStrobe n h (0x10 + k))
/-- DISARM. -/
def execDisarm (n : Fin 4) (h : Fin 24) (s : State) : Host.Outcome State Fault Refusal := .next (s.chnStrobe n h 0x20)
/-- HOLD_ON. -/
def execHoldOn (n : Fin 4) (h : Fin 24) (s : State) : Host.Outcome State Fault Refusal := .next (s.chnStrobe n h 0x21)
/-- HOLD_OFF. -/
def execHoldOff (n : Fin 4) (h : Fin 24) (s : State) : Host.Outcome State Fault Refusal := .next (s.chnStrobe n h 0x22)
/-- REPLAY_1. -/
def execReplay1 (n : Fin 4) (h : Fin 24) (s : State) : Host.Outcome State Fault Refusal := .next (s.chnStrobe n h 0x31)
/-- REPLAY_2. -/
def execReplay2 (n : Fin 4) (h : Fin 24) (s : State) : Host.Outcome State Fault Refusal := .next (s.chnStrobe n h 0x32)
/-- REPLAY_3. -/
def execReplay3 (n : Fin 4) (h : Fin 24) (s : State) : Host.Outcome State Fault Refusal := .next (s.chnStrobe n h 0x33)
/-- REPLAY_4. -/
def execReplay4 (n : Fin 4) (h : Fin 24) (s : State) : Host.Outcome State Fault Refusal := .next (s.chnStrobe n h 0x34)
/-- REPLAY_5. -/
def execReplay5 (n : Fin 4) (h : Fin 24) (s : State) : Host.Outcome State Fault Refusal := .next (s.chnStrobe n h 0x35)
/-- RELEASE. -/
def execRelease (n : Fin 4) (h : Fin 24) (s : State) : Host.Outcome State Fault Refusal := .next (s.chnStrobe n h 0x3F)
/-- UNLISTED_STROBE_CODE. -/
def execUnlistedStrobeCode (n : Fin 4) (wpa : Bool) (h : Fin 24) (code : BitVec 8) (s : State) : Host.Outcome State Fault Refusal :=
  .next (if wpa then s.wpaStrobe n h code.toNat else s.chnStrobe n h code.toNat)

/-! ## Sectors of a slot -/

/-- The quality record of a trial of a replay operation (Table 4.5). -/
def ReplayOp.record (o : ReplayOp) (q : Sector) (h status iters : Nat) : SectorRec := {
  q.record h status iters with
  source := 0x10 + o.rung, anchor := if o.rung = 2 then 3 else q.anchorKind
  syncOffset := if o.rung = 2 then BitVec.ofInt 8 o.trial else (q.record h status iters).syncOffset
  syncDist := o.dist, initUnsat := o.unsat, meanLlr := min 255 o.meanLlr, defectBits := min 65535 o.defect
  readers := if o.rung = 4 then q.readers &&& (7 ^^^ (1 <<< o.trial.toNat)) else q.readers }

/-- The statuses with which a failed first pass can be held (R142). -/
def holdable (status : Nat) : Bool := status == 0x160 || status == 0x161 || status == 0x142

/-- Change the first sector of a slot that satisfies a test. -/
def State.modSector (s : State) (n h : Nat) (p : Sector → Bool) (f : Sector → Sector) : State :=
  let x := s.slot n h
  s.setSlot n h { x with sectors := updFirst p f x.sectors }

/-- Remove the first sector of a slot that satisfies a test, returning loans when no sector is held (R143, R145). -/
def State.freeSector (s : State) (n h : Nat) (p : Sector → Bool) : State :=
  let x := s.slot n h
  s.setSlot n h ({ x with sectors := removeFirst p x.sectors } : ChnSlot).settleLoans

/-- The number of held sectors of a slot (R142). -/
def ChnSlot.heldCount (x : ChnSlot) : Nat :=
  (x.sectors.filter fun q => q.st == SecState.held || q.st == SecState.executing).length

/-- The first pass of the slot's first sector that satisfies `p` ends (R142, R145, R150): good, held, or freed. -/
def State.firstPassEnd (s : State) (n h : Nat) (p : Sector → Bool) (q : Sector) (status iters : Nat) (info : List Byte) : State :=
  let r := q.record h status iters
  if status = 0 then ((s.freeSector n h p).count (chnCtr n 0)).sectorPacket n info r
  else if holdable status ∧ (s.slot n h).hold then
    let s := if 7 ≤ (s.slot n h).heldCount then s.evictHeld n h else s
    (s.modSector n h p fun q => { q with st := SecState.held, search := false }).firstPassFail n r
  else (s.freeSector n h p).firstPassFail n r

/-- An uncorrectable error in a sector's samples is counted against the actuator's replay buffer (Table 11.2). -/
def State.replayEcc (s : State) (n : Nat) (find : EccFind) : State := s.sramSomewhere (17 + n) find

/-! ## Decoder pool (R133) -/

/-- The cores of a channel. -/
def State.coreOf (s : State) (n c : Nat) : Option Core := tget (fun _ => none) (s.chnP n).cores c
def State.setCore (s : State) (n c : Nat) (x : Option Core) : State :=
  s.setChn n { s.chnP n with cores := tset (fun _ => none) (s.chnP n).cores c x }

/-- Of two replay decodes, the one that has completed fewer iterations, ties to the lower slot (R133). -/
def fewer (a b : Nat × Core) : Nat × Core :=
  if b.2.iter < a.2.iter ∨ (b.2.iter = a.2.iter ∧ b.2.slot < a.2.slot) then b else a

/-- The replay decode that has completed the fewest iterations, among those not yet told to yield. -/
def State.yielder (s : State) (n : Nat) : Option (Nat × Core) :=
  (upto 12).foldl (fun m c => match s.coreOf n c, m with
    | some x, none => if x.replay && !x.yield then some (c, x) else none
    | some x, some y => if x.replay && !x.yield then some (fewer y (c, x)) else some y
    | none, m => m) none

/-- Free cores, and replay decodes told to yield. -/
def State.freeCores (s : State) (n : Nat) : Nat := ((upto 12).filter fun c => (s.coreOf n c).isNone).length
def State.yielding (s : State) (n : Nat) : Nat :=
  ((upto 12).filter fun c => match s.coreOf n c with
    | some x => x.yield
    | none => false).length

/-- One replay decode is told to yield for each first-pass decode that finds no core free (R133). -/
def State.askYield (s : State) (n : Nat) : Nat → State
  | 0 => s
  | fuel + 1 =>
    if (s.chnP n).firstWait.length ≤ s.freeCores n + s.yielding n then s
    else match s.yielder n with
      | some (c, x) => (s.setCore n c (some { x with yield := true })).askYield n fuel
      | none => s

/-- A first-pass decode waits for a core. -/
def State.queueFirst (s : State) (n h : Nat) : State :=
  (s.setChn n { s.chnP n with firstWait := (s.chnP n).firstWait ++ [h] }).askYield n 12

/-- A first-pass decode's iterations (R134, Table 4.11); ITER above 40, and an ITER_FIRST of 0, are taken as they
stand: log 58. -/
def State.iterFirst (s : State) (n : Nat) (profCfg : W) : Nat :=
  let k := fld profCfg 8 6
  if k ≠ 0 then k else min 30 (s.rfld (chnDec n) 0 5)

/-- Iterations of a trial of a rung (Table 4.4). -/
def State.iterReplay (s : State) (n rung : Nat) : Nat :=
  let k := min 30 (s.rfld (chnDec n) 0 5)
  if rung = 1 then k + 10 else if rung = 5 then 40 else k

/-- DECODE_START: first-pass decodes go before replay decodes (R133). -/
def State.decodeStart (s : State) (n c : Nat) : State :=
  let w := s.chnP n
  if (s.coreOf n c).isSome then s
  else match w.firstWait, w.replayWait with
    | h :: hs, _ =>
      let s := (s.setChn n { w with firstWait := hs }).setCore n c (some { slot := h, replay := false })
      s.modSector n h (fun q => q.st == .awaiting && !q.search) fun q => { q with st := SecState.decoding }
    | [], h :: hs => (s.setChn n { w with replayWait := hs }).setCore n c (some { slot := h, replay := true })
    | [], [] => s

/-- DECODE_START. -/
def execDecodeStart (n : Fin 4) (core : Fin 12) (s : State) : Host.Outcome State Fault Refusal := .next (s.decodeStart n core)

/-- DECODE_ITERATION_BOUNDARY: the end of the load, or one more iteration; a replay decode told to yield gives up
its core while more first passes wait than cores are free (R133). -/
def State.decodeBoundary (s : State) (n c : Nat) : State :=
  match s.coreOf n c with
  | none => s
  | some x =>
    let x := if x.loaded then { x with iter := x.iter + 1 } else { x with loaded := true }
    if x.yield && decide (s.freeCores n < (s.chnP n).firstWait.length) then
      let s := (s.setCore n c none).count (chnCtr n 7)
      s.setChn n { s.chnP n with replayWait := x.slot :: (s.chnP n).replayWait }
    else (s.setCore n c (some { x with yield := false })).askYield n 12

/-- DECODE_ITERATION_BOUNDARY. -/
def execDecodeIterationBoundary (n : Fin 4) (core : Fin 12) (s : State) : Host.Outcome State Fault Refusal :=
  .next (s.decodeBoundary n core)

/-! ## The check after a zero syndrome (R48 to R52) -/

/-- The status of a decode that reached a zero syndrome (R52, R134). -/
def checkSector (info : List Byte) (expect : Option (Nat × Nat × Nat × Nat)) : Nat :=
  if !sectorCrcOk info then 0x142
  else match expect with
    | none => 0
    | some (zt, st, hs, wg) =>
      let m := metaOf info
      if m % 2 ^ 22 ≠ zt ∨ (m >>> 22) % 2 ^ 32 ≠ st ∨ (m >>> 54) % 2 ^ 7 ≠ hs then 0x140
      else if (m >>> 61) % 2 ^ 16 ≠ wg then 0x141
      else 0

/-- The operation of a slot ends: its packet is delivered, and its sector is freed or held again (R145, R146). -/
def State.replayEnd (s : State) (n h : Nat) (o : ReplayOp) (r : SectorRec) (info : List Byte) : State :=
  let exe := fun (q : Sector) => q.st == SecState.executing
  let s := if r.status = 0 ∨ r.status = 0x165 ∨ o.release then s.freeSector n h exe
    else s.modSector n h exe fun q => { q with st := SecState.held }
  let s := s.setSlot n h { s.slot n h with op := none }
  s.sectorPacket n info r

/-- The trial of a replay decode ends: success, the next trial, or failure (R146). -/
def State.trialEnd (s : State) (n h : Nat) (o : ReplayOp) (q : Sector) (status iters : Nat) (info : List Byte) : State :=
  if status = 0 then s.replayEnd n h o (o.record q h 0 iters) info
  else match o.trials with
    | t :: ts => s.setSlot n h { s.slot n h with op := some { o with trial := t, trials := ts, fe := true } }
    | [] => s.replayEnd n h o (o.record q h status iters) []

/-- The status, the iterations and the information bytes of a decode of at most `lim` iterations: at the first zero syndrome the
checks of R52 run; else the iterations are spent (R134). -/
def decodeResult (word : List (Bool × Int)) (lim : Nat) (expect : Option (Nat × Nat × Nat × Nat)) : Nat × Nat × List Byte :=
  match decodeWord word lim with
  | some (i, bits) => (checkSector (infoOf bits) expect, i, infoOf bits)
  | none => (0x161, lim, [])

/-- DECODE_END: the core is free, and the attempt ends good or with its status (R134). -/
def State.decodeEnd (s : State) (n c : Nat) : State :=
  match s.coreOf n c with
  | none => s
  | some x =>
    let h := x.slot
    let s := s.setCore n c none
    if x.replay then
      match (s.slot n h).op, (s.slot n h).sectors.find? (fun q => q.st == .executing) with
      | some o, some q =>
        let r := decodeResult o.word (s.iterReplay n o.rung) q.expect
        s.trialEnd n h o q r.1 r.2.1 r.2.2
      | _, _ => s
    else
      let dec := fun (q : Sector) => q.st == SecState.decoding
      match (s.slot n h).sectors.find? dec with
      | some q =>
        let r := decodeResult q.word (s.iterFirst n q.profCfg) q.expect
        s.firstPassEnd n h dec q r.1 r.2.1 r.2.2
      | none => s

/-- DECODE_END. -/
def execDecodeEnd (n : Fin 4) (core : Fin 12) (s : State) : Host.Outcome State Fault Refusal := .next (s.decodeEnd n core)

/-! ## Sync search (R125 to R130) -/

/-- The first candidate in ascending order whose distance is at most `thr`, as c − E, with its distance (R126);
`c` is that of the list's head. -/
def strictSearch (thr : Nat) : Int → List Nat → Option (Int × Nat)
  | _, [] => none
  | c, d :: ds => if d ≤ thr then some (c, d) else strictSearch thr (c + 1) ds

/-- Of two candidates (c − E, distance) the better of the relaxed rule: smaller distance, then nearer E, then smaller c (R127). -/
def relaxBetter (a b : Int × Nat) : Int × Nat :=
  if b.2 < a.2 ∨ (b.2 = a.2 ∧ (b.1.natAbs < a.1.natAbs ∨ (b.1.natAbs = a.1.natAbs ∧ b.1 < a.1))) then b else a

/-- The best candidate of a window under the relaxed rule. -/
def relaxBest : Int → List Nat → Option (Int × Nat)
  | _, [] => none
  | c, d :: ds => match relaxBest (c + 1) ds with
    | none => some (c, d)
    | some b => some (relaxBetter (c, d) b)

/-- The relaxed search: the best candidate, when its distance is at most `thr` (R127). -/
def relaxedSearch (thr : Nat) (c : Int) (ds : List Nat) : Option (Int × Nat) :=
  match relaxBest c ds with
  | some b => if b.2 ≤ thr then some b else none
  | none => none

def State.strictThr (s : State) (n : Nat) : Nat := s.rfld (chnSync n) 0 4
def State.relaxThr (s : State) (n : Nat) : Nat := s.rfld (chnSync n) 8 4
def State.relaxEn (s : State) (n : Nat) : Bool := s.rbit (chnSync n) 16
def State.backupEn (s : State) (n : Nat) : Bool := s.rbit (chnSync n) 17

/-- The backup search: the strict rule and then, where RELAX_EN is 1, the relaxed rule (R128). -/
def State.backupSearch (s : State) (n w : Nat) (ds : List Nat) : Option (Int × Nat) :=
  match strictSearch (s.strictThr n) (-(w : Int)) ds with
  | some b => some b
  | none => if s.relaxEn n then relaxedSearch (s.relaxThr n) (-(w : Int)) ds else none

/-! ## The front end (R118 to R130, R135 to R139) -/

/-- What a front-end pass over a sector works with: a first pass uses set 0, rung 3 set 1 (R122). -/
def State.feCfg (s : State) (n : Nat) (q : Sector) (set : Nat) : FeCfg := {
  readers := q.readers, use := q.readers
  eq := (upto 64).map (eqCoef fun k => lget 0 q.sets (1 + 32 * set + k))
  tr := lget 0 q.sets 0, defect := s.reg (regAddr (bCHN n) 0x18), adapt := s.reg (regAddr (bCHN n) 0x1C)
  background := bitAt q.profCfg 7, carry := q.carry, ahead := q.ahead, phase := q.phase }

/-- The configuration without one reader: its taps are 0 and the others are scaled by N / (N − 1) (R148). -/
def FeCfg.without (c : FeCfg) (r : Nat) : FeCfg :=
  { c with use := c.readers &&& (7 ^^^ 2 ^ r), scale := if popCount 3 c.readers = 3 then 3 else 4 }

/-- The flags of a sector under a configuration (R135). -/
def Sector.flags (q : Sector) (c : FeCfg) (f : FeOut) : List Bool :=
  sectorFlags q.profCfg q.profTime (defectFlags c.defect c.carry f.raw c.ahead)

/-- The codeword of a sector at an anchor. -/
def Sector.wordFor (q : Sector) (c : FeCfg) (f : FeOut) (erase : Bool) (off : Int) (kind : Nat) : List (Bool × Int) :=
  wordAt c q.profCfg q.profTime f erase off kind

/-- The distances of a window (R125, R128). -/
def Sector.dists (q : Sector) (f : FeOut) (mark off : Nat) : List Nat := distances q.profCfg q.profTime f.soft mark off

/-- An anchor is found: the codeword it gives awaits its decode, with what the quality record says of it (Table 4.5). -/
def Sector.anchored (q : Sector) (c : FeCfg) (f : FeOut) (off : Int) (kind d source : Nat) : Sector :=
  let word := q.wordFor c f (bitAt q.profCfg 14) off kind
  { q with
    st := .awaiting, search := false, anchor := some off, first := some off, anchorKind := kind, dist := d, source := source
    word := word, unsat := unsatisfied (word.map fun b => b.1), meanLlr := llrMean word }

/-- The strict search of a first pass, and what comes of it (R126 to R129). -/
def State.firstSearch (s : State) (n h : Nat) (p : Sector → Bool) (q : Sector) (c : FeCfg) (f : FeOut) : State :=
  match strictSearch (s.strictThr n) (-(winOf q.profCfg : Int)) (q.dists f primaryMark 0) with
  | some (off, d) => (s.modSector n h p fun _ => q.anchored c f off 0 d 0).queueFirst n h
  | none =>
    if s.relaxEn n || (bitAt q.profCfg 6 && s.backupEn n) then
      s.modSector n h p fun _ => { q with st := .awaiting, search := true }
    else (s.count (chnCtr n 4)).firstPassEnd n h p q 0x160 0 []

/-- Raw flags of the next sector that arrives, as far as runs and extensions can reach back from it (R135). -/
def ChnSlot.aheadFlags (x : ChnSlot) (c : FeCfg) (f : FeOut) : List Bool :=
  match (x.sectors.filter fun q => q.st == .arriving).drop 1 with
  | [] => []
  | q :: _ => (frontEnd { c with phase := f.phase, carry := [], ahead := [] } (q.samples.take (78 * popCount 3 q.readers)) f.acc).raw

/-- The loops of a slot, and what else runs on from sector to sector, are at what a front-end pass leaves; those that went before the last
ARM are not shown any more (R135, R136). -/
def State.loopsLeft (s : State) (n h : Nat) (q : Sector) (f : FeOut) : State :=
  let carry := carryOf q.carry f.raw
  let x := s.slot n h
  if q.old then s.setSlot n h { x with before := (f.acc, carry, f.phase) }
  else (s.setSlot n h { x with carry := carry, phase := f.phase }).setLoops n h f.acc

/-- The front end over a sector's samples: the loops run on from their values, which are its seeds, and hold in background class; flags
are counted; then the search (R118, R135 to R139). -/
def State.firstFront (s : State) (n h : Nat) (p : Sector → Bool) (q : Sector) : State :=
  let x := s.slot n h
  let l := if q.old then x.before else (x.acc, x.carry, x.phase)
  let q := { q with seeds := l.1, carry := l.2.1, phase := l.2.2 }
  let f := frontEnd (s.feCfg n q 0) q.samples q.seeds
  let q := { q with ahead := (x.aheadFlags (s.feCfg n q 0) f).take 62 }
  let c := s.feCfg n q 0
  let flags := q.flags c f
  let s := (s.loopsLeft n h q f).countBy (chnCtr n 8) (runCount false flags)
  s.firstSearch n h p { q with defect := (flags.filter (· == true)).length } c f

/-- FRONT_END_DONE: the oldest arriving sector, once its bursts are all there, has its LLRs: it awaits its decode, waits for the relaxed
or backup search, or fails; an uncorrectable error fails it with CHN_REPLAY_ECC (R118, R125, R126, R149). A slot that is off does not
work (R119). -/
def State.frontEndDone (s : State) (n h : Nat) (find : EccFind) : State :=
  let arr := fun (q : Sector) => q.st == SecState.arriving
  match (s.slot n h).sectors.find? arr with
  | none => s
  | some q =>
    if q.left ≠ 0 ∨ !s.slotOn n h then s
    else
      let s := s.replayEcc n find
      let s := if eccBad find then (s.raise (chnInt n) 4).firstPassEnd n h arr q 0x165 0 [] else s.firstFront n h arr q
      if ((s.slot n h).sectors.any arr) then s else s.sectorBoundary n h

/-- FRONT_END_DONE. -/
def execFrontEndDone (n : Fin 4) (h : Fin 24) (find : EccFind) (s : State) : Host.Outcome State Fault Refusal :=
  .next (s.frontEndDone n h find)

/-- The replay front end of a slot is making a pass (R146). -/
def ChnSlot.feBusy (x : ChnSlot) : Bool :=
  match x.op with
  | some o => o.fe
  | none => false

/-- A sector that waits for the relaxed or backup search (R127). -/
def Sector.searches (q : Sector) : Bool := q.st == SecState.awaiting && q.search

/-- The relaxed search, then the backup search, or CHN_SYNC_MISSED (R127 to R129). -/
def State.laterSearch (s : State) (n h : Nat) (q : Sector) : State :=
  let c := s.feCfg n q 0
  let f := frontEnd c q.samples q.seeds
  let w := winOf q.profCfg
  let relaxed := if s.relaxEn n then relaxedSearch (s.relaxThr n) (-(w : Int)) (q.dists f primaryMark 0) else none
  match relaxed with
  | some (off, d) => ((s.modSector n h Sector.searches fun _ => q.anchored c f off 1 d 1).count (chnCtr n 2)).queueFirst n h
  | none =>
    match (if bitAt q.profCfg 6 && s.backupEn n then s.backupSearch n w (q.dists f backupMark backupOff) else none) with
    | some (off, d) => ((s.modSector n h Sector.searches fun _ => q.anchored c f off 2 d 1).count (chnCtr n 3)).queueFirst n h
    | none => (s.count (chnCtr n 4)).firstPassEnd n h Sector.searches { q with source := 1 } 0x160 0 []

/-- RELAXED_SEARCH_START: the search on the stored samples, which an uncorrectable error in them fails (R127 to R129, R149). -/
def State.relaxedSearchStart (s : State) (n h : Nat) (find : EccFind) : State :=
  let x := s.slot n h
  if x.feBusy || !s.slotOn n h then s
  else match x.sectors.find? Sector.searches with
    | none => s
    | some q =>
      let s := s.replayEcc n find
      if eccBad find then (s.raise (chnInt n) 4).firstPassEnd n h Sector.searches { q with source := 1 } 0x165 0 []
      else s.laterSearch n h q

/-- RELAXED_SEARCH_START. -/
def execRelaxedSearchStart (n : Fin 4) (h : Fin 24) (find : EccFind) (s : State) : Host.Outcome State Fault Refusal :=
  .next (s.relaxedSearchStart n h find)

/-! ## Replay operations (R146 to R149) -/

/-- The primary window in order of increasing |c − E|, ties to the smaller c (R147). -/
def byDistance : Nat → List Int
  | 0 => [0]
  | k + 1 => byDistance k ++ [-((k : Int) + 1), (k : Int) + 1]

/-- The candidates of rung 2: the backup mark's first, then the window by distance, without the first-pass anchor (R147). Where the first
pass anchored on the backup mark, at b, that anchor is b − 16,416: log 95. -/
def rung2List (w : Nat) (cb : Option Int) (first : Option Int) : List Int :=
  let cb := match cb with
    | some c => if c.natAbs ≤ w then [c] else []
    | none => []
  ((cb ++ (byDistance w).filter fun c => !cb.contains c)).filter fun c => some c != first

/-- Enabled readers in the order in which rung 4 drops them: the most flagged first, ties and the rest ascending (R148). -/
def rung4List (readers : Nat) (rdef : List Nat) : List Int :=
  let rs := maskBits 3 readers
  let most := rs.foldl (fun m r => max m (lget 0 rdef r)) 0
  match rs.find? fun r => lget 0 rdef r == most with
  | none => []
  | some r => ((r :: rs.filter (· != r)).map Int.ofNat)

/-- The readers in the order in which rung 4 drops them, by the flagged bits of each reader's own corrected stream (R148). -/
def State.rung4Order (s : State) (n : Nat) (q : Sector) : List Int :=
  let c := s.feCfg n q 0
  let f := frontEnd c q.samples q.seeds
  rung4List q.readers ((upto 3).map fun r => readerDefects c q.profCfg q.profTime f r)

/-- REPLAY_OPERATION_START: the oldest queued operation binds to the slot's oldest held sector, or completes at
once (R146, R148). It waits while the front end makes another pass or a search is due (R127). Its trials are processed with the settings
in force when it starts, and the sector's own seeds (R139, R153). -/
def State.replayOpStart (s : State) (n h : Nat) : State :=
  let x := s.slot n h
  if x.op.isSome || x.sectors.any (fun q => q.search) || !s.slotOn n h then s
  else match x.ops with
    | [] => s
    | rung :: ops =>
      let s := s.setSlot n h { x with ops := ops }
      match x.sectors.find? (fun q => q.st == .held) with
      | none => s.replayLost n h rung 0x162
      | some q =>
        let o : ReplayOp := { rung := rung }
        if (rung ≠ 2 ∧ q.first = none) ∨ (rung = 4 ∧ popCount 3 q.readers < 2) then
          s.sectorPacket n [] { q.record h 0x164 0 with source := 0x10 + rung }
        else
          let l := if rung = 4 then s.rung4Order n { q with sets := s.chnSets n h } else []
          let s := s.modSector n h (fun q => q.st == .held) fun q => { q with st := SecState.executing, sets := s.chnSets n h }
          s.setSlot n h { s.slot n h with op := some { o with trials := l.drop 1, trial := l.headD 0 } }

/-- REPLAY_OPERATION_START. -/
def execReplayOperationStart (n : Fin 4) (h : Fin 24) (s : State) : Host.Outcome State Fault Refusal :=
  .next (s.replayOpStart n h)

/-- What a trial's front-end pass works with (Table 4.4, R148). -/
def State.trialCfg (s : State) (n : Nat) (o : ReplayOp) (q : Sector) : FeCfg :=
  let c := s.feCfg n q (if o.rung = 3 then 1 else 0)
  if o.rung = 4 then c.without o.trial.toNat else c

/-- Rung 2's candidates, from the backup mark and the window (R147). -/
def State.rung2Cands (s : State) (n : Nat) (q : Sector) (f : FeOut) : List Int :=
  let w := winOf q.profCfg
  let cb := if bitAt q.profCfg 6 then (s.backupSearch n w (q.dists f backupMark backupOff)).map (·.1) else none
  rung2List w cb q.first

/-- The trial's pass gives its codeword, at rung 2's candidate or at the first-pass anchor, with what the quality record says of it. -/
def ReplayOp.passed (o : ReplayOp) (q : Sector) (c : FeCfg) (f : FeOut) : ReplayOp :=
  let off := if o.rung = 2 then o.trial else q.first.getD 0
  let kind := if o.rung = 2 then 0 else q.anchorKind
  let word := q.wordFor c f (o.rung == 5) off kind
  let i := bitIndex q.profCfg q.profTime off
  { o with
    fe := false, word := word, unsat := unsatisfied (word.map fun b => b.1), meanLlr := llrMean word
    defect := ((q.flags c f).filter (· == true)).length
    dist := if kind = 2 then markDist f.soft backupMark (i + backupOff) else markDist f.soft primaryMark i }

/-- A trial's front-end pass over the executing sector: rung 2 builds its candidate list in its first; the trial's decode is queued. A
rung 2 that has no candidate left to try ends with CHN_DECODE_FAILED: log 59 (R146, R147). -/
def State.trialFront (s : State) (n h : Nat) (o : ReplayOp) (q : Sector) : State :=
  let c := s.trialCfg n o q
  let f := frontEnd c q.samples q.seeds
  let l := s.rung2Cands n q f
  let o := if o.rung = 2 && !o.listed then { o with listed := true, trial := l.headD 0, trials := l.drop 1 } else o
  if o.rung == 2 && l.isEmpty then s.replayEnd n h o (o.record q h 0x161 0) []
  else
    let s := s.setSlot n h { s.slot n h with op := some (o.passed q c f) }
    s.setChn n { s.chnP n with replayWait := (s.chnP n).replayWait ++ [h] }

/-- REPLAY_FRONT_END_DONE: an uncorrectable error ends the operation with CHN_REPLAY_ECC (R146, R149). -/
def State.replayFeDone (s : State) (n h : Nat) (find : EccFind) : State :=
  let x := s.slot n h
  match x.op, x.sectors.find? (fun q => q.st == .executing) with
  | some o, some q =>
    if !o.fe || !s.slotOn n h then s
    else
      let s := s.replayEcc n find
      if eccBad find then (s.raise (chnInt n) 4).replayEnd n h o (o.record q h 0x165 0) []
      else s.trialFront n h o q
  | _, _ => s

/-- REPLAY_FRONT_END_DONE. -/
def execReplayFrontEndDone (n : Fin 4) (h : Fin 24) (find : EccFind) (s : State) : Host.Outcome State Fault Refusal :=
  .next (s.replayFeDone n h find)

/-! ## Registers with an effect (R140, R145, R153) -/

/-- One slot of a soft reset: every first pass not yet ended and every operation completes with CHN_REPLAY_LOST,
and the slot holds nothing (R145). -/
def State.softResetSlot (s : State) (n h : Nat) : State :=
  let x := s.slot n h
  let s := s.each (x.sectors.filter fun q => q.st == .arriving || q.st == .awaiting || q.st == .decoding) fun s q =>
    s.firstPassFail n (q.record h 0x162 0)
  let s := match x.op, x.sectors.find? (fun q => q.st == .executing) with
    | some o, some q => s.sectorPacket n [] (o.record q h 0x162 0)
    | _, _ => s
  let s := s.each x.ops fun s r => s.replayLost n h r 0x162
  s.setSlot n h { x with
    armed := false, disarming := false, rearm := none, refused := 0, sectors := [], ops := [], op := none, loaned := 0
    inForce := [], carry := [], phase := 0 }

/-- CHN_CTRL.SOFT_RESET: the bit reads back 0. -/
def State.chnSoftReset (s : State) (n : Nat) : State :=
  let s := s.each (upto 24) fun s h => s.softResetSlot n h
  s.setChn n { s.chnP n with cores := [], firstWait := [], replayWait := [] }

/-- CHN_SOFT_RESET. -/
def execChnSoftReset (n : Fin 4) (s : State) : Host.Outcome State Fault Refusal := .next (s.chnSoftReset n)

/-- CHN_SLOT_CFG_WRITE: ignored with CFG_ERR when the granules of all slots would exceed 96 (R140). -/
def State.slotCfgWrite (s : State) (n h : Nat) (v : W) : State :=
  let others := ((upto 24).map fun g => if g = h then 0 else s.rfld (chnSlotCfg n g) 4 7).sum
  if 96 < others + fld v 4 7 then s.raise (chnInt n) 3 else s.setReg (chnSlotCfg n h) (v &&& 0x000F07FF)

/-- CHN_SLOT_CFG_WRITE. -/
def execChnSlotCfgWrite (n : Fin 4) (h : Fin 24) (v : BitVec 32) (s : State) : Host.Outcome State Fault Refusal :=
  .next (s.slotCfgWrite n h v)

/-- A write of a REF, TR or equaliser register of slot h: pending while the slot is armed (R153). -/
def State.chnSettingWrite (s : State) (n h a : Nat) (v : W) : State :=
  let x := s.slot n h
  let old := tget (fun _ => none) x.inForce a
  let s := if x.armed && old.isNone then
      s.setSlot n h { x with inForce := tset (fun _ => none) x.inForce a (some (s.reg a)) }
    else s
  s.setReg a v

/-- CHN_SETTINGS_APPLY: at a sector boundary the registers last written are in force (R153). -/
def execChnSettingsApply (n : Fin 4) (h : Fin 24) (s : State) : Host.Outcome State Fault Refusal :=
  .next (if (s.slot n h).midSector then s else s.setSlot n h { s.slot n h with inForce := [] })

end Sys2Proof.Machine
end

