-- ==== Sys2Proof/Machine/Wpa.lean ====
section
/-!
DEFINITION. The write path: strobes, the encoding of a sector, the shingle guard, write inhibit, the verify
checker, rewind and sealing (chapters 2 and 5).
-/
namespace Sys2Proof.Machine

/-! ## Strobes (Table 5.2) -/

/-- WARM_P. -/
def execWarmP (n : Fin 4) (h : Fin 24) (k : Fin 4) (s : State) : Host.Outcome State Fault Refusal :=
  .next (s.wpaStrobe n h (0x40 + k))
/-- WARM_P_B. -/
def execWarmPB (n : Fin 4) (h : Fin 24) (k : Fin 4) (s : State) : Host.Outcome State Fault Refusal :=
  .next (s.wpaStrobe n h (0x44 + k))
/-- WDISARM. -/
def execWdisarm (n : Fin 4) (h : Fin 24) (s : State) : Host.Outcome State Fault Refusal := .next (s.wpaStrobe n h 0x48)
/-- FH_DOWN1. -/
def execFhDown1 (n : Fin 4) (h : Fin 24) (s : State) : Host.Outcome State Fault Refusal := .next (s.wpaStrobe n h 0x58)
/-- FH_RESTORE. -/
def execFhRestore (n : Fin 4) (h : Fin 24) (s : State) : Host.Outcome State Fault Refusal := .next (s.wpaStrobe n h 0x59)

/-! ## Write data (R157 to R159) -/

/-- Head h's next write gate: placed, not sent, without its data. -/
def State.nextWriteGate (s : State) (n h : Nat) : Option Gate :=
  (s.ordP n).gates.find? fun g => g.isWrite && g.head == h && !g.sent && !g.data && !g.guard

/-- A gate of the engine is changed. -/
def State.modGate (s : State) (n id : Nat) (f : Gate → Gate) : State :=
  s.modOrd n fun o => { o with gates := updFirst (fun g => g.id == id) f o.gates }

/-- A packet names a mirror unit at a stripe below the mark (R537). -/
def State.mirrorProtected (s : State) (n m d : Nat) : Bool :=
  match mirrorStripe (m % 2 ^ 22) (m / 2 ^ 22 % 2 ^ 32) d with
  | some k => decide (k < (s.reg (almMirrorMark n)).toNat)
  | none => false

/-! ## The shingle guard (R171) -/

/-- The wedge period in use, ns (R187). -/
def State.wedgePeriod (s : State) : Nat := s.rfld (regAddr bSVO 0x14) 0 18

/-- The shingle guard bound of the band that is being written (R67, R171). -/
def State.bandBound (s : State) (n : Nat) : Nat := guardBound (s.rfld (wpaPosS n) 0 16) (s.reg (wpaPosM n)).toNat

/-- A write of the gate's kind at a stripe is withheld: a main-area write of a band at or beyond the bound. -/
def State.beyondGuard (s : State) (n : Nat) (g : Gate) (stripe : Nat) : Bool :=
  (s.ordP n).band && g.kind == .write && decide (s.bandBound n ≤ stripe)

/-- The guard withholds a gate and its twin; the band enters Guard hold (R171). -/
def State.guardHold (s : State) (n : Nat) (g : Gate) : State :=
  let s := s.modOrd n fun o => { o with gates := o.gates.map fun x => if g.twin x then { x with guard := true } else x }
  if s.rewindSt n = 2 then s else ((s.setRewindSt n 2).raise (wpaInt n) 6).notice n 1

/-- The write section takes the next packet for a gate: it is encoded, with the backup mark if the head is armed by a WARM_Pk_B, and sent,
unless it is for another head or names a mirror stripe that is protected (R157, R159, R537). -/
def State.takeWritePacket (s : State) (n h : Nat) (g : Gate) (p : Pkt) (ps : List Pkt) : State :=
  let b := pktBytes p.body
  let s := s.takeHead (52 + n) p ps false
  if (metaOf b >>> 54) % 2 ^ 7 ≠ 24 * n + h then s.failGate n g 0x174
  else if s.mirrorProtected n (metaOf b) (s.ordP n).dSlots then s.failGate n g 0x308
  else (s.modGate n g.id fun g => { g with data := true }).sendWriteData n h (sectorBits b (s.rbit (wpaHeadStatus n h) 4))

/-- WRITE_GATE_DATA: the next packet is encoded and sent for the gate; a packet that is not there in time, or for
another head, fails the gate's sector, and one at or beyond the guard bound is not released (R157 to R159, R171). -/
def State.writeGateData (s : State) (n h : Nat) : State :=
  match s.nextWriteGate n h with
  | none => s
  | some g =>
    if g.start < s.now + 2000 then (s.raise (wpaInt n) 5).failGate n g 0x172
    else match s.heads (52 + n) with
      | [] => s
      | p :: ps =>
        if s.beyondGuard n g ((metaOf (pktBytes p.body) >>> 22) % 2 ^ 32) then s.guardHold n g
        else s.takeWritePacket n h g p ps

/-- WRITE_GATE_DATA. -/
def execWriteGateData (n : Fin 4) (h : Fin 24) (s : State) : Host.Outcome State Fault Refusal := .next (s.writeGateData n h)

/-- The gates that the guard comes to withhold: those not yet sent that start in the next wedge at or beyond the bound. -/
def State.guarded (s : State) (n : Nat) : List Gate :=
  (s.ordP n).gates.filter fun g =>
    !g.sent && !g.guard && decide (g.start < s.now + s.wedgePeriod) && s.beyondGuard n g g.stripe

/-- Withheld gates whose stripe has come below the bound, M having advanced, are placed again at their positions' next pass under the
gang that the packets can still meet (R158, R171); with none left the band is Writing. -/
def State.guardRelease (s : State) (n : Nat) : State :=
  let b := s.bandBound n
  let s := s.modOrd n fun o => { o with
    gates := o.gates.map fun g =>
      if g.guard && decide (g.stripe < b) then g.moved (s.gateDelay (o.gates.filter fun x => x.guard) s.wedgePeriod g) else g }
  s.onlyIf (s.rewindSt n == 2 && !(s.ordP n).gates.any fun g => g.guard) fun s => s.setRewindSt n 1

/-- WPA_WEDGE_BOUNDARY: pass criteria and thermal ranges come into force, the stall count advances, and the guard
releases and withholds gates (R171, R176, R180). -/
def State.wpaBoundary (s : State) (n : Nat) : State :=
  let s := s.setWpa n { s.wpaP n with rawcfg := s.reg (wpaRawcfg n), quiet := (s.wpaP n).quiet + 1 }
  let s := s.each (upto 24) fun s h => s.setWpaH n h { s.wpaH n h with therm := s.reg (wpaTherm n h) }
  let s := s.guardRelease n
  s.each (s.guarded n) fun s g => s.guardHold n g

/-- WPA_WEDGE_BOUNDARY. -/
def execWpaWedgeBoundary (n : Fin 4) (s : State) : Host.Outcome State Fault Refusal := .next (s.wpaBoundary n)

/-! ## Write inhibit (R162, R163) -/

/-- INHIBIT_CAUSE. -/
def execInhibitCause (n : Fin 4) (h : Fin 24) (cause : Fin 5) (s : State) : Host.Outcome State Fault Refusal :=
  .next (s.inhibitHead n h cause)

/-- WPA_INHIBIT_CLEAR: every cause of the heads named clears, but SHOCK, and FIRMWARE only while ENABLE is 1 (Table 5.4). -/
def State.inhibitClear (s : State) (n heads : Nat) : State :=
  s.each (maskBits 24 heads) fun s h =>
    let s := ((s.uninhibit n h 0).uninhibit n h 1).uninhibit n h 3
    s.onlyIf (s.rbit (wpaCtrl n) 0) fun s => s.uninhibit n h 4

/-- WPA_INHIBIT_CLEAR. -/
def execWpaInhibitClear (n : Fin 4) (heads : BitVec 24) (s : State) : Host.Outcome State Fault Refusal :=
  .next (s.inhibitClear n heads.toNat)

/-- WPA_INHIBIT_SET: the FIRMWARE cause of the heads named. -/
def State.inhibitSet (s : State) (n heads : Nat) : State := s.each (maskBits 24 heads) fun s h => s.inhibitHead n h 4

/-- WPA_INHIBIT_SET. -/
def execWpaInhibitSet (n : Fin 4) (heads : BitVec 24) (s : State) : Host.Outcome State Fault Refusal :=
  .next (s.inhibitSet n heads.toNat)

/-- WPA_CTRL_WRITE: clearing ENABLE sets FIRMWARE on every head (Table 5.8). -/
def State.wpaCtrlWrite (s : State) (n : Nat) (v : W) : State :=
  let was := s.rbit (wpaCtrl n) 0
  let s := s.setReg (wpaCtrl n) (v &&& 1)
  s.onlyIf (was && !bitAt v 0) fun s => s.inhibitSet n 0xFFFFFF

/-- WPA_CTRL_WRITE. -/
def execWpaCtrlWrite (n : Fin 4) (v : BitVec 32) (s : State) : Host.Outcome State Fault Refusal := .next (s.wpaCtrlWrite n v)

/-! ## The verify checker (R168 to R170) -/

/-- The pass test of R168 with the criteria in force. -/
def passes (cfg : W) (r : SectorRec) : Bool :=
  let strict := bitAt cfg 24
  r.status == 0 && (r.source == 0 || (r.source == 1 && !strict)) && (!strict || r.anchor == 0) &&
    decide (r.iterations ≤ fld cfg 0 6) && decide (r.defectBits ≤ fld cfg 8 16)

/-- The gate that a head's WDISARM waited for has ended. -/
def State.wdisarmDue (s : State) (n h : Nat) : Bool :=
  match (s.wpaH n h).wdisarm with
  | none => false
  | some id => !(s.ordP n).gates.any fun g => g.id == id && g.isOpen s.now

/-- Heads whose WDISARM waited for their open gate return to Loaded once it has ended (Table 5.2). -/
def State.wdisarmGo (s : State) (n : Nat) : State :=
  s.each ((upto 24).filter fun h => s.wdisarmDue n h) fun s h =>
    let s := s.setWpaH n h { s.wpaH n h with wdisarm := none }
    if s.wpaSt n h = 2 then (s.setWpaSt n h 1).wpaSettle n h else s

/-- A record for a read-after-write gate gives its PASS event, or FAIL with WPA_RAW_FAILED and the record's STATUS (R168 to R170,
R173). -/
def State.verifyRecord (s : State) (n : Nat) (r : SectorRec) : State :=
  let o := s.ordP n
  match o.gates.find? (fun g => g.id == r.gateId && g.kind == .raw) with
  | none => s
  | some g =>
    let spare := match o.writeTwin g with
      | some w => w.kind == .spare
      | none => false
    let s := s.dropGates n g.head g.stripe g.pass
    if passes (s.wpaP n).rawcfg r then
      if o.band && !spare && g.pass != s.bandPass n then s.count (wpaCtr n 4)
      else if o.band && spare then s.setWpa n { s.wpaP n with quiet := 0 }
      else if !o.band && !spare && g.pass != tget (fun _ => 0) (s.wpaP n).rewrites g.stripe then s
      else s.verifyPass n g.gpos g.stripe
    else s.verifyFail n g.head g.stripe g.pass 0x170 r.status spare

/-- VERIFY_EVENT: the checker takes the verify queue's head packet; a poisoned one fails like a bad record (R168). -/
def State.verifyEvent (s : State) (n : Nat) (find : EccFind) : State :=
  match s.heads (56 + n) with
  | [] => s
  | p :: ps =>
    let s := (s.sramSomewhere 21 find).takeHead (56 + n) p ps (eccBad find)
    match p.body with
    | .sector _ r => s.verifyRecord n (if p.poison || eccBad find then { r with status := 0x170 } else r)
    | _ => s

/-- VERIFY_EVENT. -/
def execVerifyEvent (n : Fin 4) (find : EccFind) (s : State) : Host.Outcome State Fault Refusal := .next (s.verifyEvent n find)

/-! ## Rewind, sealing and stall (R173 to R177) -/

/-- A write gate of an earlier pass is still open. -/
def State.oldGateOpen (s : State) (n : Nat) : Bool :=
  (s.ordP n).gates.any fun g => g.isWrite && g.pass != s.bandPass n && g.sent && decide (s.now < g.stop)

/-- REWIND_GATES_ENDED: the band seals after three attempts, or W moves to M and the rewind waits for the gang's
inhibits (R173). -/
def State.rewindGatesEnded (s : State) (n : Nat) : State :=
  let w := s.wpaP n
  if s.rewindSt n ≠ 3 ∨ !w.stopGates ∨ w.inhibitWait ∨ s.oldGateOpen n then s
  else if s.rfld (wpaRewind n) 0 2 = 3 then s.sealBand n 0x175
  else
    let s := s.setRfld (wpaRewind n) 0 2 (s.rfld (wpaRewind n) 0 2 + 1)
    let s := s.setReg (wpaPosW n) (s.reg (wpaPosM n))
    let s := (s.count (wpaCtr n 2)).raise (wpaInt n) 1
    (s.setWpa n { s.wpaP n with inhibitWait := true }).rewindResume n

/-- REWIND_GATES_ENDED. -/
def execRewindGatesEnded (n : Fin 4) (s : State) : Host.Outcome State Fault Refusal := .next (s.rewindGatesEnded n)

/-- INHIBIT_WAIT_TIMEOUT: the band seals, or a write in place ends its MOP, with WPA_INHIBIT_TIMEOUT (R173, R177). -/
def State.inhibitWaitTimeout (s : State) (n : Nat) : State :=
  if !(s.wpaP n).inhibitWait then s
  else if (s.ordP n).band then s.sealBand n 0x178
  else (s.setWpa n { s.wpaP n with inhibitWait := false }).mopEndNow n 0x178

/-- INHIBIT_WAIT_TIMEOUT. -/
def execInhibitWaitTimeout (n : Fin 4) (s : State) : Host.Outcome State Fault Refusal := .next (s.inhibitWaitTimeout n)

/-- A written sector of the current pass, which outside a band is its stripe's last rewrite, awaits its verify event. -/
def State.verifyPending (s : State) (n : Nat) : Bool :=
  (s.ordP n).gates.any fun g => g.isWrite && g.sent && !g.cut && decide (g.stop ≤ s.now) && g.pass == s.gatePass n g.stripe g.kind

/-- VERIFY_STALL_TIMEOUT: gates not started are cancelled, open ones aborted, the gang's heads return to Loaded, W moves
to M, and the MOP ends with VERIFY_STALL (R176, R282). -/
def State.verifyStall (s : State) (n : Nat) : State :=
  let revs := 3 * s.rfld (regAddr bSVO 0x10) 0 10
  if !s.verifyPending n ∨ (s.wpaP n).quiet < revs then s
  else
    let now := s.now
    let s := (s.abortWrites n).withdraw n fun g => decide (g.start ≤ now) && g.sent
    let s := s.each (maskBits 24 (s.rfld (actGang n) 0 24)) fun s h =>
      if s.wpaSt n h = 2 then (s.setWpaSt n h 1).wpaSettle n h else s
    let s := s.leaveBand n false
    ((s.setRewindSt n 5).raise (wpaInt n) 3).fatalEvent n 1 0x176

/-- VERIFY_STALL_TIMEOUT. -/
def execVerifyStallTimeout (n : Fin 4) (s : State) : Host.Outcome State Fault Refusal := .next (s.verifyStall n)

end Sys2Proof.Machine
end

