-- ==== Sys2Proof/Machine/Svo.lean ====
section
/-!
DEFINITION. The servo control engine: seek generator, cascade, supervision, injection and capture (chapters 6 and 7).
-/
namespace Sys2Proof.Machine

/-! ## Loops and their descriptors (Tables 6.1 and 6.9) -/

/-- The class of a loop: 0 VCM, 1 milli, 2 micro, 3 assist, 4 fly height (Table 6.1). -/
def loopClass (i : Nat) : Nat := if i < 4 then 0 else if i < 8 then 1 else if i < 104 then 2 else if i < 200 then 3 else 4

/-- The actuator a loop serves. -/
def loopAct (i : Nat) : Nat :=
  if i < 4 then i else if i < 8 then i - 4 else if i < 104 then (i - 8) / 24 else if i < 200 then (i - 104) / 24 else (i - 200) / 24

/-- The head a micro, assist or fly-height loop serves. -/
def loopHead (i : Nat) : Nat := if i < 104 then (i - 8) % 24 else if i < 200 then (i - 104) % 24 else (i - 200) % 24

/-- Class latency in SVO_CLK cycles (Table 6.3). -/
def classLatency (c : Nat) : Nat := if c ≤ 1 then 1000 else if c = 2 then 2500 else if c = 3 then 4500 else 6500

def svoTwMin := regAddr bSVO 0x18
def svoEvt := regAddr bSVO 0x24

/-- P − A for a PHASE (R189). -/
def State.phaseDelay (s : State) (phase : Nat) : Nat := phase * s.rfld svoTwMin 0 18 / 256

/-- The descriptor in memory as a copy; `set` is the NEXT_SET it commits (R197). -/
def State.descAt (s : State) (i : Nat) : LoopDesc :=
  let w := fun k => s.svoWord (descWord i + k)
  { enable := bitAt (w 0) 0, sections := fld (w 0) 1 5, stateClr := bitAt (w 0) 6, set := fld (w 0) 16 9
    phase := fld (w 1) 0 8, fhSlot := fld (w 1) 8 3, limHi := (w 2).toInt, limLo := (w 3).toInt
    satLimit := fld (w 4) 0 16, bias := (w 5).toInt }

/-- SVO refuses the copy of a descriptor (R196). The copy is taken at the loop's wedge boundary, where SVO_OUTLEADa as last written is in
force (R206). -/
def State.descRefused (s : State) (i : Nat) (d : LoopDesc) : Bool :=
  let c := loopClass i
  let lead := if c ≤ 1 then 256 else 10 * s.rfld (svoOutlead (loopAct i)) 0 8
  d.sections == 0 || decide (16 < d.sections) || decide (459 < d.set) || decide (459 < fld (s.svoWord (descWord i)) 7 9) ||
    d.phase == 0 || decide (s.phaseDelay d.phase < classLatency c + lead) || decide (d.limHi ≤ d.limLo)

def State.setActed (s : State) (i : Nat) (b : Bool) : State :=
  s.setSvoWord (descWord i + 7) (putBit (s.svoWord (descWord i + 7)) 16 b)

/-- SVO_EVT records an event of a kind (Table 6.8). -/
def State.svoEvent (s : State) (x kind : Nat) : State := s.setReg svoEvt (BitVec.ofNat 32 (x % 512 + 512 * kind))

/-- A committed descriptor is copied at the wedge boundary, or refused; NEXT_SET switches the set; enabling starts
supervision afresh (R196 to R198). -/
def State.copyDesc (s : State) (i : Nat) : State :=
  let x := s.loop i
  if !x.commit then s
  else
    let d := s.descAt i
    let s := s.setLoop i { x with commit := false }
    if s.descRefused i d then (((s.raise svoInt 2).svoEvent i 3).count (svoCtr 3))
    else
      let was := x.desc.enable
      let switch := decide (d.set ≠ fld (s.svoWord (descWord i)) 7 9)
      let s := s.setLoop i { s.loop i with desc := d }
      let s := s.setSvoWord (descWord i) (setFld (s.svoWord (descWord i)) 7 9 d.set)
      let s := s.onlyIf switch fun s => s.count (svoCtr 2)
      let enabled := d.enable && !was
      let s := s.onlyIf (d.stateClr && (switch || enabled)) fun s => s.zeroState i
      s.onlyIf enabled fun s => (s.setSatCount i 0).setActed i false

/-! ## Sections (R184) -/

/-- Saturation to 32 and to 64 bits. -/
def sat32 (x : Int) : Int := clampI (-2147483648) 2147483647 x
def sat64 (x : Int) : Int := clampI (-9223372036854775808) 9223372036854775807 x

/-- One second-order section: coefficients and shift word, state (x1, x2, y1, y2), input; the output and the new state. -/
def biquad (b0 b1 b2 a1 a2 : Int) (sh : W) (x1 x2 y1 y2 x : Int) : Int × (Int × Int × Int × Int) :=
  let p0 := (b0 * x) >>> (fld sh 0 4)
  let p1 := (b1 * x1) >>> (fld sh 4 4)
  let p2 := (b2 * x2) >>> (fld sh 8 4)
  let q1 := (a1 * y1) >>> (fld sh 12 4)
  let q2 := (a2 * y2) >>> (fld sh 16 4)
  let acc := sat64 (sat64 (sat64 (sat64 (p0 + p1) + p2) - q1) - q2)
  let y := sat32 (sat64 (acc + 536870912) >>> 30)
  (y, (x, x1, y, y1))

/-- A word of the servo memory as a signed number. -/
def State.svoInt32 (s : State) (i : Nat) : Int := (s.svoWord i).toInt

/-- Section j of loop i on input v. -/
def State.runSection (s : State) (i k j : Nat) (v : Int) : State × Int :=
  let c := setWord k + 6 * j
  let t := stateWord i + 4 * j
  let r := biquad (s.svoInt32 c) (s.svoInt32 (c + 1)) (s.svoInt32 (c + 2)) (s.svoInt32 (c + 3)) (s.svoInt32 (c + 4))
    (s.svoWord (c + 5)) (s.svoInt32 t) (s.svoInt32 (t + 1)) (s.svoInt32 (t + 2)) (s.svoInt32 (t + 3)) v
  let put := fun (s : State) (o : Nat) (x : Int) => s.setSvoWord (t + o) (BitVec.ofInt 32 x)
  (put (put (put (put s 0 r.2.1) 1 r.2.2.1) 2 r.2.2.2.1) 3 r.2.2.2.2, r.1)

/-- The cascade of sections j to j + n − 1 (R185). -/
def State.cascade (s : State) (i k : Nat) : Nat → Nat → Int → State × Int
  | 0, _, v => (s, v)
  | n + 1, j, v => let r := s.runSection i k j v; r.1.cascade i k n (j + 1) r.2

/-! ## Injection (R201) -/

def genCfg (g : Nat) := regAddr bSVO (0x80 + 0x10 * g)
def genAmp (g : Nat) := regAddr bSVO (0x84 + 0x10 * g)
def genFreq (g : Nat) := regAddr bSVO (0x88 + 0x10 * g)

def State.gen (s : State) (g : Nat) : Gen := tget (fun _ => {}) s.svo.gens g
def State.setGen (s : State) (g : Nat) (x : Gen) : State :=
  { s with svo := { s.svo with gens := tset (fun _ => {}) s.svo.gens g x } }

/-- round(AMP × sin(2πφ/2³²)). -/
def sineValue (amp : Int) (phi : Nat) : Int := (amp * sineFix phi + (2 ^ 95 : Int)) / (2 ^ 96 : Int)

/-- The generator's value at this update, and its state for the next (R201; for the bit of the PRBS register log 11). -/
def State.genStep (s : State) (g : Nat) : Int × Gen :=
  let x := s.gen g
  let amp := (s.reg (genAmp g)).toInt
  let f := s.reg (genFreq g)
  let ty := s.rfld (genCfg g) 11 2
  if !x.started then (0, x)
  else
    let x' := { x with n := x.n + 1 }
    if ty = 1 then (sineValue amp (x.n * f.toNat % 2 ^ 32), x')
    else if ty = 2 then
      let bit := x.lfsr.getLsbD 14
      let v := if bit.xor Config.prbsMinus then amp else -amp
      if x.hold ≥ fld f 0 16 then
        (v, { x' with hold := 0, lfsr := (x.lfsr <<< 1) ||| (if bit.xor (x.lfsr.getLsbD 13) then 1 else 0) })
      else (v, { x' with hold := x.hold + 1 })
    else if ty = 3 then (amp, x')
    else (0, x)

/-- The generators of a loop at a summing point. -/
def State.gensAt (s : State) (i k : Nat) : List Nat :=
  (upto 4).filter fun g => s.rfld (genCfg g) 0 9 == i && s.rfld (genCfg g) 9 2 == k

/-- inj[Sk] of a loop (R185): generators on one point add. -/
def State.inj (s : State) (i k : Nat) : Int := ((s.gensAt i k).map fun g => (s.genStep g).1).sum

/-- Every generator of a loop advances by one update. -/
def State.gensAdvance (s : State) (i : Nat) : State :=
  s.each ((upto 4).filter fun g => s.rfld (genCfg g) 0 9 == i) fun s g => s.setGen g (s.genStep g).2

/-- A generator starts: n from 0, the PRBS from all ones. -/
def State.genStart (s : State) (g : Nat) : State := s.setGen g { started := true }

/-! ## Capture (R202, R203) -/

def capCtrl := regAddr bSVO 0xC0
def capStatus := regAddr bSVO 0xC4
def capTrig := regAddr bSVO 0xC8
def capFirst := regAddr bSVO 0xCC
def capSel (k : Nat) := regAddr bSVO (0xD0 + 4 * k)

/-- SVO_CAP_STATUS.STATE: 0 Idle, 1 Armed, 2 Running, 3 Done. -/
def State.capSt (s : State) : Nat := s.rfld capStatus 0 2

/-- Enabled selectors. -/
def State.capSels (s : State) : List Nat := (upto 4).filter fun k => s.rbit (capSel k) 0

/-- The share Z of each signal (R202). -/
def State.capShare (s : State) : Nat :=
  let n := s.capSels.length
  if n ≤ 1 then 65536 else if n = 2 then 32768 else 16384

/-- PRE, acting as at most Z − 1. -/
def State.capPre (s : State) : Nat := min (s.rfld capCtrl 8 16) (s.capShare - 1)

def State.capTaken (s : State) (k : Nat) : Nat := tget (fun _ => 0) s.svo.capTaken k
def State.capLeft (s : State) (k : Nat) : Nat := tget (fun _ => 0) s.svo.capLeft k

/-- The trigger fires: each share records Z − PRE more samples, and generators with ON_TRIG start. -/
def State.capTrigger (s : State) : State :=
  if s.capSt ≠ 1 then s
  else
    let n := s.capShare - s.capPre
    let s := { s with svo := { s.svo with
      capLeft := s.capSels.foldl (fun t k => tset (fun _ => 0) t k n) [] } }
    let s := (s.setRfld capStatus 0 2 2).setRbit capStatus 2 true
    s.each ((upto 4).filter fun g => s.rbit (genCfg g) 13 && s.rfld (genCfg g) 11 2 != 0) fun s g => s.genStart g

/-- The capture ends: Done, CAP_DONE, and the index of the oldest sample. -/
def State.capEnd (s : State) : State :=
  let z := s.capShare
  let n := s.capTaken (s.capSels.headD 0)
  let s := s.setReg capFirst (BitVec.ofNat 32 (if z ≤ n then n % z else 0))
  (s.setRfld capStatus 0 2 3).raise svoInt 5

/-- The word of the capture buffer that sample n of selector k has; beyond the buffer's end the place wraps: log 61 (R202). -/
def capWord (z k n : Nat) : Nat := (k * z + n % z) % 65536

/-- Write a word of the capture buffer. -/
def State.putCapWord (s : State) (w : Nat) (v : W) : State :=
  ({ s with svo := { s.svo with cap := xorPair (tset (fun _ => 0) s.svo.cap w v) (w / 2) (s.sramFlip 27 (w / 2)) } } : State).sramWrote 27 (w / 2)

/-- A selector takes a sample of its loop's tap at the latch: the low 32 bits of a position (R202; log 101). -/
def State.capSample (s : State) (i k : Nat) : State :=
  let run := s.capSt == 1 || (s.capSt == 2 && s.capLeft k != 0)
  if run && s.rfld (capSel k) 1 9 == i then
    let z := s.capShare
    let n := s.capTaken k
    let v := BitVec.ofInt 32 (lget 0 (s.loop i).taps (s.rfld (capSel k) 10 3))
    let w := capWord z k n
    let s := s.putCapWord w v
    { s with svo := { s.svo with
      capTaken := tset (fun _ => 0) s.svo.capTaken k (n + 1)
      capLeft := if s.capSt = 2 then tset (fun _ => 0) s.svo.capLeft k (s.capLeft k - 1) else s.svo.capLeft } }
  else s

/-- Every enabled selector of the loop takes its sample; the capture ends when every share is full (R203). -/
def State.capLatch (s : State) (i : Nat) : State :=
  if s.capSt = 1 ∨ s.capSt = 2 then
    let s := s.each s.capSels fun s k => s.capSample i k
    let s := s.setRfld capStatus 4 17 (min s.capShare (s.capTaken (s.capSels.headD 0)))
    if s.capSt = 2 ∧ s.capSels.all (fun k => s.capLeft k == 0) then s.capEnd else s
  else s

/-- CAP_ARM: ring recording starts into every share. -/
def State.capArm (s : State) : State :=
  let s := { s with svo := { s.svo with capTaken := [], capLeft := [] } }
  s.setRfld capStatus 0 21 1

/-- CAP_ARM. -/
def execCapArm (s : State) : Host.Outcome State Fault Refusal := .next s.capArm
/-- CAP_FORCE: the software trigger, where TRIG_SRC is 0. -/
def execCapForce (s : State) : Host.Outcome State Fault Refusal :=
  .next (s.onlyIf (s.rfld capCtrl 4 2 == 0) State.capTrigger)
/-- CAP_STOP: a capture in progress ends at once. -/
def execCapStop (s : State) : Host.Outcome State Fault Refusal :=
  .next (if s.capSt = 1 ∨ s.capSt = 2 then s.capEnd else s)

/-! ## The seek generator (R208 to R210) -/

/-- Bits of the largest k with acc·k·(k + 1)/2 ≤ rem, from bit `b` down. -/
def vstopBits (acc rem : Nat) : Nat → Nat → Nat
  | 0, k => k
  | b + 1, k =>
    let k' := k + 2 ^ b
    if acc * (k' * (k' + 1) / 2) ≤ rem then vstopBits acc rem b k' else vstopBits acc rem b k

/-- vstop(rem): the largest multiple k·acc with acc·k·(k + 1)/2 ≤ rem (R208). -/
def vstop (acc rem : Nat) : Nat := if acc = 0 then 0 else acc * vstopBits acc rem 32 0

/-- One generator step (R208): the new reference, speed, direction, and whether the seek has landed.
DEDUCED: a target on the present reference is landed on. -/
def seekStep (ref target : Int) (v : Nat) (dir : Int) (acc vmax : Nat) : Int × Nat × Int × Bool :=
  let d := target - ref
  if 0 < v ∧ d * dir < 0 then
    let v := v - acc
    (ref + dir * v, v, if v = 0 then -dir else dir, false)
  else
    let dir := if d < 0 then -1 else 1
    let rem := d.natAbs
    let v := min (min (v + acc) vmax) (vstop acc rem)
    if v = 0 ∨ rem ≤ v then (target, 0, dir, true) else (ref + dir * v, v, dir, false)

/-- ACT_Aa_SEEK.ACC and VMAX in 2⁻¹⁶ track. -/
def State.seekAcc (s : State) (a : Nat) : Nat := s.rfld (actReg a 8) 0 16
def State.seekVmax (s : State) (a : Nat) : Nat := s.rfld (actReg a 8) 16 16

/-- A SEEK to a target while tracking, seeking or settling (R208). -/
def State.seekTo (s : State) (a : Nat) (target : Int) : State :=
  let x := s.actP a
  let st := s.actSt a
  let x := { x with
    target := target, settled := false, settleRun := 0, settleWedges := 0, heldSeek := none
    acc := s.seekAcc a, vmax := s.seekVmax a
    v := if st = 3 then x.v else 0, stepped := st == 3 && x.stepped }
  let s := (s.setAct a x).count (actCtr a 0)
  s.setActSt a (if x.ref = target ∧ x.v = 0 then 4 else 3)

/-- Settle is reported: Tracking, and the SEEK part of the charge is released (R210, R217). -/
def State.settleReport (s : State) (a : Nat) : State :=
  let x := s.actP a
  let s := s.setAct a { x with settled := true, settleRun := 0, settleWedges := 0, chargeSeek := 0 }
  (s.setActSt a 2).govRelease x.chargeSeek

/-- The micro error of a gang head lies within READ_WIN (R210). -/
def State.inWindow (s : State) (a h win : Nat) : Bool :=
  match tget (fun _ => none) s.svo.microErr (24 * a + h) with
  | some e => decide (e.natAbs ≤ 256 * win)
  | none => false

/-- A wedge of Settling (R210). -/
def State.settleWedge (s : State) (a : Nat) : State :=
  let x := s.actP a
  let ok := (maskBits 24 (s.rfld (actGang a) 0 24)).all fun h => s.inWindow a h (fld x.settleCfg 0 8)
  let run := if ok then x.settleRun + 1 else 0
  let s := s.setAct a { x with settleRun := run, settleWedges := x.settleWedges + 1 }
  if fld x.settleCfg 16 4 ≤ run then s.settleReport a else s

/-- SVO_STACKa as written comes into force (R206). -/
def State.stackInForce (s : State) (a : Nat) : State :=
  { s with svo := { s.svo with held := tset (fun _ => none) s.svo.held (svoStack a) none } }

/-- What the VCM loop's wedge boundary does to the actuator: registers come into force, a held seek starts, the
generator steps, Settling counts (R208, R210, R238). -/
def State.actBoundary (s : State) (a : Nat) : State :=
  let s := s.setAct a { s.actP a with settleCfg := s.reg (actReg a 0xC), timeoutCfg := s.reg (actReg a 0x20) }
  let s := s.stackInForce a
  let s := match (s.actP a).heldSeek with
    | some t => if s.actSt a = 2 ∧ !s.guardHolds a then s.seekTo a t else s
    | none => s
  let st := s.actSt a
  if st = 3 ∧ s.guardHolds a then s
  else if st = 3 then
    let x := s.actP a
    let r := seekStep x.ref x.target x.v x.dir (4096 * x.acc) (65536 * x.vmax)
    let s := s.setAct a { x with ref := r.1, v := r.2.1, dir := r.2.2.1, stepped := true }
    s.onlyIf r.2.2.2 fun s => s.setActSt a 4
  else if st = 4 then s.settleWedge a
  else s

/-! ## A loop update (R182 to R191) -/

/-- A boundary with WEDGE 0 has gone by since an actuator's last one without being seen: the wedge numbers have begun anew, or so much time
has passed that they may have. -/
def State.revMissed (s : State) (a : Nat) : Bool :=
  let l := tget (fun _ => (0, 0)) s.svo.lastAt a
  let w := tget (fun _ => 0) s.svo.wedge a
  (decide (w ≤ l.2) && (w != 0 || l.2 == 0)) || decide (l.1 + s.rfld (regAddr bSVO 0x10) 0 10 * s.rfld svoTwMin 0 18 ≤ s.now)

/-- SVO_TW: the period over the last revolution, measured at a boundary with WEDGE 0 from the one before. -/
def State.measureTw (s : State) (a : Nat) : State :=
  let last := if s.revMissed a then 0 else tget (fun _ => 0) s.svo.revAt a
  let n := s.rfld (regAddr bSVO 0x10) 0 10
  let w := tget (fun _ => 0) s.svo.wedge a
  let s := s.onlyIf (w == 0 && last != 0 && n != 0) fun s => s.setRfld (regAddr bSVO 0x14) 0 18 ((s.now + 1 - last) / n)
  { s with svo := { s.svo with
    revAt := tset (fun _ => 0) s.svo.revAt a (if w = 0 then s.now + 1 else last), lastAt := tset (fun _ => (0, 0)) s.svo.lastAt a (s.now, w) } }

/-- The heads of a mask that have delivered a field in the current wedge, with their positions less their offsets (R183). -/
def State.fieldsOf (s : State) (a mask : Nat) : List Int :=
  (maskBits 24 mask).filterMap fun h =>
    let k := 24 * a + h
    if (tget (fun _ => (0, 0)) s.svo.fieldEnd k).2 = tget (fun _ => 0) s.svo.wedge a then
      (tget (fun _ => none) s.svo.headPos k).map fun p => p - (tget (fun _ => 0) (s.actP a).offs h).toInt
    else none

/-- The heads of SVO_STACKa that have delivered a field in the current wedge, with their positions (R183). -/
def State.stackFields (s : State) (a : Nat) : List Int := s.fieldsOf a (s.stackMask a)

/-- The loop has an arrival in this wedge: ULK has handed over the field of its head, or of a head of its stack (R187, R191). -/
def State.arrived (s : State) (i : Nat) : Bool :=
  let a := loopAct i
  if loopClass i ≤ 1 then !(s.fieldsOf a (s.stackHeads a)).isEmpty
  else (tget (fun _ => none) s.svo.headPos (24 * a + loopHead i)).isSome

/-- The mean of positions; where it is no whole number its rounding is a free value (R183). -/
def meanOf (l : List Int) : Int :=
  let n := l.length
  let t := l.sum
  if n = 0 then 0
  else t / (n : Int) + (if t % (n : Int) ≠ 0 ∧ Config.meanUp t n then 1 else 0)

/-- The loop has an input for this wedge: none means it is skipped (R191). -/
def State.loopInput (s : State) (i : Nat) : Option (Int × Int × Int) :=
  let a := loopAct i
  let h := loopHead i
  let k := 24 * a + h
  let x := s.actP a
  match loopClass i with
  | 0 | 1 => match s.stackFields a with
    | [] => none
    | l => some (x.ref, meanOf l, 0)
  | 2 => (tget (fun _ => none) s.svo.headPos k).map fun p => (x.ref + (tget (fun _ => 0) x.offs h).toInt, p, 0)
  | 3 =>
    let w := s.reg (wpaAssist a h)
    (tget (fun _ => none) s.svo.headPos k).map fun _ =>
      (65536 * (fld w 0 16 : Int), 65536 * ((s.fieldRx a h).thermal : Int), 65536 * (fld w 16 16 : Int))
  | _ =>
    let w := s.reg (wpaHtr a h (s.heaterStep a h))
    (tget (fun _ => none) s.svo.headPos k).map fun _ =>
      (65536 * (fld w 0 16 : Int), 65536 * ((s.fieldRx a h).contact : Int), 65536 * (fld w 16 16 : Int))

/-- The class action of Table 6.6, with its count and record (R198, R200; for the output and the limit of an ECC action log 99). -/
def State.loopAction (s : State) (i : Nat) (u limit : Int) (ecc : Bool) : State :=
  let a := loopAct i
  let h := loopHead i
  let c := loopClass i
  let code := if c ≤ 1 then 0x181 else if c = 3 then 0x183 else 0x180
  let s := ((s.raise svoInt (if ecc then 1 else 0)).svoEvent i (if ecc then 2 else 1)).count (svoCtr 1)
  let s := (s.almanac code bSVO 0 [(4, i), (4, (BitVec.ofInt 32 u).toNat), (4, (BitVec.ofInt 32 limit).toNat)]).setActed i true
  let s := if c ≤ 1 then (s.disableLoop i).retract a 0x181
    else if c = 3 then s.inhibitHead a h 0
    else
      let s := s.disableLoop i
      (s.setLoop i { s.loop i with zeroOut := true }).dropHead a h
  s.onlyIf (!ecc && s.rfld capCtrl 4 2 == 2 && s.rfld capTrig 0 9 == i) State.capTrigger

/-- Supervision after an update (R198, R199). SAT_COUNT reaches SAT_LIMIT where the two are equal, and stops at 65,535: log 98. -/
def State.supervise (s : State) (i : Nat) (d : LoopDesc) (u w : Int) : State :=
  let st := s.actSt (loopAct i)
  if loopClass i ≤ 1 ∧ (st = 3 ∨ st = 4) then s.setSatCount i 0
  else if u = w then s.setSatCount i 0
  else
    let n := min 65535 (s.satCount i + 1)
    let s := s.setSatCount i n
    if d.satLimit ≠ 0 ∧ n = d.satLimit then s.loopAction i u (if u < w then d.limHi else d.limLo) false else s

/-- The update of R185 on given reference, measurement and feedforward; `force0` is R209. A cascade that starts from zero states gives its
first error its first coefficient: log 100. -/
def State.updateLoop (s : State) (i : Nat) (ref meas ff : Int) (force0 : Bool) : State :=
  let x := s.loop i
  let d := x.desc
  let r := ref + s.inj i 0
  let y := meas + s.inj i 3
  let e := if force0 then 0 else sat32 (sat32 (r - y) + s.inj i 1)
  let total := s.inj i 0 + s.inj i 1 + s.inj i 2 + s.inj i 3
  let cas := s.cascade i d.set d.sections 0 e
  let w := cas.2 + s.inj i 2 + d.bias + ff
  let u := clampI d.limLo d.limHi w
  let s := cas.1.gensAdvance i
  let s := s.setLoop i { x with taps := [r, y, e, cas.2, u, total], pending := true, arrival := s.ltime }
  s.supervise i d u w

/-- The micro error is kept for the settle check, and a head with a write gate open or sent that lies beyond WRITE_WIN loses its gates (R210,
R211). -/
def State.microCheck (s : State) (i : Nat) : State :=
  let a := loopAct i
  let h := loopHead i
  let e := lget 0 (s.loop i).taps 2
  let s := { s with svo := { s.svo with microErr := tset (fun _ => none) s.svo.microErr (24 * a + h) (some e) } }
  let off := decide (256 * fld (s.actP a).settleCfg 8 8 < e.natAbs)
  let sent := (s.ordP a).gates.any fun g => g.isWrite && g.head == h && g.sent && s.gateLive a g
  s.onlyIf (off && sent) fun s => s.failGates a (fun g => g.isWrite && g.head == h && s.gateLive a g) 0x191

/-- THERMAL of an Armed head outside LO to HI on two wedges in a row inhibits it (R162). -/
def State.thermCheck (s : State) (a h : Nat) : State :=
  let x := s.wpaH a h
  let t := (s.fieldRx a h).thermal
  if s.wpaSt a h = 2 then
    if t < fld x.therm 0 16 ∨ fld x.therm 16 16 < t then
      let s := s.setWpaH a h { x with thermOut := x.thermOut + 1 }
      if 2 ≤ x.thermOut + 1 then s.inhibitHead a h 3 else s
    else s.setWpaH a h { x with thermOut := 0 }
  else s

/-- A loop whose states are held at zero sends drive 0 (R161). -/
def State.holdLoop (s : State) (i : Nat) : State :=
  let s := (s.zeroState i).setSatCount i 0
  s.setLoop i { s.loop i with taps := [0, 0, 0, 0, 0, 0], pending := true, arrival := s.ltime }

/-- The fly-height loop updates on this wedge (R190). -/
def State.onSlot (s : State) (i : Nat) : Bool := (s.fieldRx (loopAct i) (loopHead i)).wedge % 8 == (s.loop i).desc.fhSlot

/-- An assist loop released from reset starts from zero state (R161). -/
def State.freshLoop (s : State) (i : Nat) : State :=
  s.onlyIf (s.loop i).fresh fun s => ((s.zeroState i).setSatCount i 0).setLoop i { s.loop i with fresh := false }

/-- An enabled loop that was to update in this wedge is skipped, and counted (R191). -/
def State.skipLoop (s : State) (i : Nat) : State :=
  s.onlyIf ((s.loop i).desc.enable && (loopClass i != 4 || s.onSlot i)) fun s => s.count (svoCtr 0)

/-- The update proper of an enabled loop with its input; a stack loop none of whose mask arrived is skipped (R165, R182, R185, R190, R191,
R209). -/
def State.runLoop (s : State) (i : Nat) : State :=
  let a := loopAct i
  let h := loopHead i
  let st := s.actSt a
  match s.loopInput i with
  | none => s.skipLoop i
  | some (r, y, ff) =>
    match loopClass i with
    | 0 | 1 => if 2 ≤ st ∧ st ≤ 4 then s.updateLoop i r y 0 false else s
    | 2 =>
      let force := st == 3 && (s.actP a).stepped && s.rbit (actGang a) h
      (s.updateLoop i r y 0 force).microCheck i
    | 3 => if s.wpaSt a h = 2 then (s.freshLoop i).updateLoop i r y ff false else s.holdLoop i
    | _ =>
      if !s.onSlot i then s
      else if s.wpaSt a h = 0 then
        let s := s.holdLoop i
        s.setLoop i { s.loop i with step := 16 }
      else
        let k := s.heaterStep a h
        let s := s.onlyIf (k != (s.loop i).step) fun s => (s.zeroState i).setLoop i { s.loop i with step := k }
        s.updateLoop i r y ff false

/-- The wedge trigger of an armed capture (R203). -/
def State.capWedge (s : State) (i : Nat) : State :=
  let first := match s.capSels with
    | [] => false
    | k :: _ => s.rfld (capSel k) 1 9 == i
  let w := if loopClass i ≤ 1 then tget (fun _ => 0) s.svo.wedge (loopAct i)
    else (tget (fun _ => (0, 0)) s.svo.fieldEnd (24 * loopAct i + loopHead i)).2
  s.onlyIf (s.rfld capCtrl 4 2 == 1 && first && s.rfld capTrig 16 10 == w) State.capTrigger

/-- The word of the servo memory that an update of loop i reads wrong, if the test mode stored one so, else its descriptor's
first: in 64-bit words, of its descriptor, its states and its set (R200, R337). -/
def State.loopBadWord (s : State) (i : Nat) : Nat :=
  let in_ (lo n w : Nat) : Bool := decide (lo / 2 ≤ w) && decide (w < (lo + n) / 2)
  let mine (k : Nat) : Bool :=
    let w := k - wordKey 26 0
    decide (wordKey 26 0 ≤ k) && decide (k < wordKey 27 0) &&
      (in_ (descWord i) 8 w || in_ (stateWord i) 64 w || in_ (setWord (s.loop i).desc.set) 96 w)
  match s.buf.sramBad.find? fun e => mine e.1 with
  | some e => e.1 - wordKey 26 0
  | none => descWord i / 2

/-- A wedge in which the loop has no arrival: no boundary and no update (R191, R196). A wedge of Settling goes by, whose run is broken
(R210), and the out-of-range wedges of THERMAL are no longer consecutive (R162). -/
def State.loopMissed (s : State) (i : Nat) : State :=
  let a := loopAct i
  let h := loopHead i
  let s := s.skipLoop i
  let s := s.onlyIf (loopClass i == 0 && s.actSt a == 4) fun s =>
    s.setAct a { s.actP a with settleRun := 0, settleWedges := (s.actP a).settleWedges + 1 }
  s.onlyIf (loopClass i == 3) fun s => s.setWpaH a h { s.wpaH a h with thermOut := 0 }

/-- WPA_HEADh_FH as written comes into force at the fly-height loop's arrival on its slot (R180; log 96). -/
def State.takeFh (s : State) (i : Nat) : State :=
  let a := loopAct i
  let h := loopHead i
  s.onlyIf (loopClass i == 4 && s.onSlot i) fun s => (s.setWpaH a h { s.wpaH a h with fh := s.reg (wpaFh a h) }).wpaSettle a h

/-- LOOP_UPDATE on an arrival: the wedge boundary of the loop, then the update of an enabled loop (R185 to R200). -/
def State.loopArrival (s : State) (i : Nat) (find : EccFind) : State :=
    let a := loopAct i
    let h := loopHead i
    let r := s.sramRead 26 (s.loopBadWord i) find
    let find := r.2
    let s := r.1
    let s := if loopClass i = 0 then (s.actBoundary a).measureTw a else if loopClass i = 1 then s.stackInForce a else s
    let s := if loopClass i = 2 ∧ !s.guardHolds a then
        s.setAct a { s.actP a with offs := tset (fun _ => 0) (s.actP a).offs h (s.reg (regAddr bACT (0x1000 + 0x100 * a + 4 * h))) }
      else s
    let s := s.onlyIf (loopClass i == 3) fun s => s.thermCheck a h
    let s := (s.copyDesc i).takeFh i
    let s := s.capWedge i
    let s := s.onlyIf (decide (2 ≤ loopClass i) && s.rbit (actHeaddis a) h) fun s => s.disableLoop i
    if !(s.loop i).desc.enable then s
    else if eccBad find then (s.setLoop i { s.loop i with arrival := s.ltime }).loopAction i 0 0 true
    else s.runLoop i

/-- LOOP_UPDATE: an arrival of the loop, or a wedge without one. -/
def State.loopUpdate (s : State) (i : Nat) (find : EccFind) : State :=
  if !s.rbit (regAddr bSVO 0x0) 0 ∨ s.svo.zeroing then s
  else if s.arrived i then s.loopArrival i find
  else s.loopMissed i

/-- LOOP_UPDATE. -/
def execLoopUpdate (i : Fin 296) (find : EccFind) (s : State) : Host.Outcome State Fault Refusal :=
  .next (s.loopUpdate i find)

/-! ## The output latch (R188, R189, R193) -/

/-- The link time of P for a loop whose arrival is known (R189). -/
def State.phaseAt (s : State) (i : Nat) : Nat := (s.loop i).arrival.toNat + s.phaseDelay (s.loop i).desc.phase

/-- The loop's first phase instant after now (Table 6.6). -/
def State.nextPhase (s : State) (i : Nat) : Nat := laterStart s.wedgePeriod (s.now + 1) (s.phaseAt i)

/-- The head's servo window has not been sent to it yet (R193). -/
def State.windowDue (s : State) (a h : Nat) : Bool :=
  let w := tget (fun _ => 0) s.svo.window (24 * a + h)
  s.headMapped a h && w != 0 && tget (fun _ => 0) s.svo.windowSent (24 * a + h) != w

/-- The drive of a micro, assist or fly-height loop goes out for APPLY p. A micro loop's flit carries the head's next servo window too, as its
distance from APPLY; a head in service gets its window although the loop has no drive to send (R193, Table 3.5). -/
def State.driveOut (s : State) (i p : Nat) (drive : Option Nat) : State :=
  let a := loopAct i
  let h := loopHead i
  let w := tget (fun _ => 0) s.svo.window (24 * a + h)
  let win := loopClass i == 2 && (drive.isSome || s.windowDue a h)
  let es := (match drive with
    | some v => [(h, loopClass i - 1, v)]
    | none => []) ++ (if win then [(h, 4, unsext 16 ((w : Int) - (p : Int)))] else [])
  if es = [] then s
  else
    (({ s with svo := { s.svo with
      windowSent := if win then tset (fun _ => 0) s.svo.windowSent (24 * a + h) w else s.svo.windowSent } } : State)).servoOut a p es

/-- A result is latched: OUT takes u and the selectors sample (R188, R202). -/
def State.latchResult (s : State) (i : Nat) : State :=
  let x := s.loop i
  let s := s.setLoop i { x with pending := false, zeroOut := false, ready := decide (loopClass i ≤ 1) }
  (s.setSvoWord (descWord i + 6) (BitVec.ofInt 32 (lget 0 x.taps 4))).capLatch i

/-- OUTPUT_LATCH: the result that waits is latched and goes to its path, for P. A drive of 0 goes in its place where one is to be sent,
without a result at the loop's next P (R161, R163, R188, R189, R193, R227). -/
def State.outputLatch (s : State) (i : Nat) : State :=
  let x := s.loop i
  let u := if x.zeroOut then 0 else fld (BitVec.ofInt 32 (lget 0 x.taps 4)) 16 16
  if x.pending then
    let s' := s.latchResult i
    if loopClass i ≤ 1 then s' else s'.driveOut i (s.phaseAt i) (some u)
  else if loopClass i ≤ 1 then s
  else (s.setLoop i { x with zeroOut := false }).driveOut i (s.nextPhase i) (if x.zeroOut then some 0 else none)

/-- OUTPUT_LATCH. -/
def execOutputLatch (i : Fin 296) (s : State) : Host.Outcome State Fault Refusal := .next (s.outputLatch i)

/-! ## Registers with an effect (R194 to R196, R205) -/

/-- SVO_COMMIT marks one loop, or all. -/
def State.svoCommit (s : State) (v : W) : State :=
  if bitAt v 31 then s.each (upto 296) fun s i => s.setLoop i { s.loop i with commit := true }
  else if fld v 0 9 < 296 then s.setLoop (fld v 0 9) { s.loop (fld v 0 9) with commit := true }
  else s

/-- SVO_COMMIT. -/
def execSvoCommit (v : BitVec 32) (s : State) : Host.Outcome State Fault Refusal := .next (s.svoCommit v)

/-- A loop that is enabled and runs on a set. -/
def State.setActive (s : State) (k : Nat) : Bool :=
  s.svo.loops.any fun e => e.2.desc.enable && e.2.desc.set == k

/-- The bits of a descriptor word that a write sets (Table 6.9). -/
def descMask (k : Nat) : W :=
  if k = 0 then 0x01FF007F else if k = 1 then 0x7FF else if k = 4 then 0xFFFF else if k ≤ 5 then 0xFFFFFFFF else 0

/-- A write of a memory word: a set in use and the state of an enabled loop are protected (R195). -/
def State.svoMemWrite (s : State) (w : Nat) (v : W) : State :=
  if w < stateWord 0 then
    if s.setActive (w / 96) then (s.raise svoInt 3).svoEvent (w / 96) 4
    else s.setSvoWord w (if w % 6 = 5 then v &&& 0xFFFFF else v)
  else if w < descWord 0 then
    let i := (w - stateWord 0) / 64
    if (s.loop i).desc.enable then (s.raise svoInt 3).svoEvent i 4 else s.setSvoWord w v
  else if w < descWord 296 then
    let m := descMask ((w - descWord 0) % 8)
    s.setSvoWord w ((s.svoWord w &&& ~~~m) ||| (v &&& m))
  else s

/-- A write through SVO_WIN: pages 0 to 7 the memory, 8 to 15 the capture buffer, which is closed while a capture
runs (R194, R203). -/
def State.svoWinWrite (s : State) (word : Nat) (v : W) : State :=
  let p := s.rfld (regAddr bSVO 0x1C) 0 4
  if p < 8 then s.svoMemWrite (0x2000 * p + word) v
  else if s.capSt = 1 ∨ s.capSt = 2 then s
  else s.putCapWord (0x2000 * (p - 8) + word) v

/-- SVO_WIN_WRITE. -/
def execSvoWinWrite (word : Fin 8192) (v : BitVec 32) (s : State) : Host.Outcome State Fault Refusal :=
  .next (s.svoWinWrite word v)

/-- SVO_CTRL_WRITE: ENABLE falls only when every actuator is Parked or Disabled (Table 6.8). -/
def State.svoCtrlWrite (s : State) (v : W) : State :=
  if bitAt v 0 || (upto 4).all (fun a => s.actSt a == 0 || s.actSt a == 6) then s.setReg (regAddr bSVO 0x0) (v &&& 1) else s

/-- SVO_CTRL_WRITE. -/
def execSvoCtrlWrite (v : BitVec 32) (s : State) : Host.Outcome State Fault Refusal := .next (s.svoCtrlWrite v)

/-- SVO_MEMORY_ZERO_DONE: every word has been written, and accesses no longer wait (R194). -/
def execSvoMemoryZeroDone (s : State) : Host.Outcome State Fault Refusal :=
  .next (if s.svo.zeroing then ({ s with svo := { s.svo with zeroing := false } } : State).sramSwept 26 0 32768 else s)

end Sys2Proof.Machine
end

