-- ==== Sys2Proof/Machine/Act.lean ====
section
/-!
DEFINITION. Actuators: load, disable, retract, the actuator command links and the governor's register (chapter 7).
-/
namespace Sys2Proof.Machine

/-! ## Zones made read-only (R222, R224, R225) -/

/-- Every group that satisfies a test enters the read-only state. -/
def State.groupsReadOnly (s : State) (p : Group → Bool) : State :=
  { s with groups := s.groups.map fun g => if p g then { g with readOnly := true } else g }

/-- An actuator may read for its pivot partner: it is in Tracking, Seeking or Settling, or Parked with its link up, so that LOAD is
permitted, and none of the heads is in its HEADDIS (R220, R231; log 84). -/
def State.altReady (s : State) (a : Nat) (heads : List Nat) : Bool :=
  let st := s.actSt a
  (st == 2 || st == 3 || st == 4 || (st == 0 && s.rbit actStatusAll a)) && heads.all fun h => !s.rbit (actHeaddis a) h

/-! ## Disable (R222, R223) -/

/-- DISABLE_PENDING. -/
def State.disPending (s : State) (a : Nat) : Bool := s.rbit (actStatus a) 3

/-- Every queued MOP returns unstarted with a status, in queue order (R222, R274). -/
def State.returnQueued (s : State) (n status : Nat) : State :=
  let q := (s.ordP n).queue
  let s := s.modOrd n fun o => { o with queue := [] }
  s.each q fun s m => s.returnMop n m (if m.refused ≠ 0 then m.refused else status)

/-- A MOP that has not been admitted leaves the governor and the cells reserved for it, and is dealt with by `f`; those behind it at the
governor are considered (R218). -/
def State.leaveGov (s : State) (n : Nat) (f : State → Mop → State) : State :=
  match (s.ordP n).phase, (s.ordP n).mop with
  | .admitting, some m =>
    let s := { s with gov := s.gov.filter fun w => w.act != n }
    let s := s.setRfld actGovUsed 16 8 s.gov.length
    (f ((s.modOrd n fun o => { o with phase := .idle, mop := none }).releaseGateCells n) m).govAdmit
  | _, _ => s

/-- A MOP waiting at the governor returns with the queue. -/
def State.returnAdmitting (s : State) (n status : Nat) : State := s.leaveGov n fun s m => s.returnMop n m status

/-- The actuator enters Disabled: what is queued returns, and the zones it homes become read-only: by R222 after a DISABLE, and by R319 where
it entered Disabled by itself (R222, R228, R274). -/
def State.enterDisabled (s : State) (a : Nat) : State :=
  let s := (s.setActSt a 6).setRbit (actStatus a) 3 false
  ((s.returnAdmitting a 0x192).returnQueued a 0x192).groupsReadOnly fun g => g.home == a

/-- Steps 2 to 4 of a disable, once the MOP in flight has ended (R222). -/
def State.disableGo (s : State) (a : Nat) : State :=
  let s := (s.returnAdmitting a 0x192).returnQueued a 0x192
  let s := s.groupsReadOnly fun g => g.home == a
  if s.actSt a = 0 then s.enterDisabled a
  else if s.actSt a = 5 ∨ s.actSt a = 6 then s
  else s.retract a 0x192

/-- A disable goes on when no MOP is left in flight. -/
def State.disableContinue (s : State) (a : Nat) : State :=
  if s.disPending a ∧ !s.mopStarted a then (s.setAct a { s.actP a with disableWait := false }).disableGo a else s

/-- A rewind is waited for, or its pass is below V (R223). -/
def State.rewindBelow (s : State) (a : Nat) : Bool :=
  (s.ordP a).band && (s.rewindSt a == 3 || decide ((s.reg (wpaPosW a)).toNat < (s.reg (wpaPosV a)).toNat))

/-- The DISABLE notice: no gate of a new stripe is placed, and the MOP will end with ACT_DISABLED; a band is left with
W at V (R222, R281). -/
def State.disableNotice (s : State) (a : Nat) : State :=
  let s := (s.leaveBand a true).notice a 4
  s.modOrd a fun o => { o with refuseNew := true, disabled := true }

/-- Step 1 of a disable in Tracking, Seeking or Settling: a seek stops at once and its MOP ends; otherwise the MOP in flight finishes its
stripe (R222). -/
def State.disableStep (s : State) (a : Nat) : State :=
  let st := s.actSt a
  if st = 3 ∨ st = 4 then
    let x := s.actP a
    let s := ((s.leaveBand a true).setAct a { x with v := 0, target := x.ref, stepped := false }).setActSt a 2
    if s.mopStarted a then s.onlyIf (s.mopInFlight a) fun s => s.fatalEvent a 2 0x192 else s.disableGo a
  else if !s.mopStarted a then s.disableGo a
  else s.disableNotice a

/-- ACT_Aa_CTRL.DISABLE by the actuator's state; a rewind is waited for (R222, R223). -/
def State.actDisable (s : State) (a : Nat) : State :=
  let st := s.actSt a
  if st = 6 then s
  else
    let s := s.setRbit (actStatus a) 3 true
    if st = 5 then s
    else if st = 0 ∨ st = 1 then
      let s := s.onlyIf (s.mopInFlight a) fun s => s.fatalEvent a 2 0x192
      let s := (s.leaveBand a true).setAct a { s.actP a with heldSeek := none }
      s.disableGo a
    else if s.mopStarted a && s.rewindBelow a then s.setAct a { s.actP a with disableWait := true }
    else s.disableStep a

/-- ACT_DISABLE. -/
def execActDisable (a : Fin 4) (s : State) : Host.Outcome State Fault Refusal := .next (s.actDisable a)

/-- A disable that waited for a rewind begins (R223). -/
def State.disableAfterRewind (s : State) (a : Nat) : State :=
  if (s.actP a).disableWait ∧ !s.rewindBelow a ∧ 2 ≤ s.actSt a ∧ s.actSt a ≤ 4 then
    (s.setAct a { s.actP a with disableWait := false }).disableStep a
  else s

/-- REENABLE: Disabled to Parked (Table 7.1, R238). -/
def execReenable (a : Fin 4) (s : State) : Host.Outcome State Fault Refusal :=
  .next (if s.actSt a = 6 then s.setActSt a 0 else s)

/-! ## Load and retract (R207, R226 to R229) -/

/-- LOAD in Parked with the link up: PARK_N is released and the LOAD frame goes (R229, Table 7.6). -/
def State.actLoad (s : State) (a : Nat) : State :=
  if s.actSt a = 0 ∧ s.rbit actStatusAll a then
    let r := s.reg (actReg a 0x14)
    let s := (s.setActSt a 1).setRbit actStatusAll (4 + a) false
    let s := s.setAct a { s.actP a with loadSeen := 0 }
    s.sendAmp a 3 (fld r 0 16 * 2 ^ 56 + fld r 16 16 * 2 ^ 40)
  else s

/-- LOAD. -/
def execLoad (a : Fin 4) (s : State) : Host.Outcome State Fault Refusal := .next (s.actLoad a)

/-- LOAD_TIMEOUT: a load with no servo fields is a retract cause (Tables 7.1 and 7.3). -/
def execLoadTimeout (a : Fin 4) (s : State) : Host.Outcome State Fault Refusal :=
  .next (if s.actSt a = 1 then s.retract a 0x181 else s)

/-- ACT_RETRACT: a retract cause (R226, R227). -/
def execActRetract (a : Fin 4) (servoLost : Bool) (s : State) : Host.Outcome State Fault Refusal :=
  .next (s.retract a (if servoLost then 0x182 else 0x181))

/-- The link of an actuator stops: it sends nothing and LINK_UP reads 0 (R231). -/
def State.stopLink (s : State) (a : Nat) : State :=
  let s := s.setAct a { s.actP a with stopLink := false, locked := false, goodRun := 0, badRun := 0 }
  s.setRbit actStatusAll a false

/-- The retract has ended in Parked or Disabled: a link told to stop stops (R231). -/
def State.retractEnded (s : State) (a : Nat) : State :=
  let s := if s.disPending a then s.enterDisabled a else s.setActSt a 0
  let s := s.raise actInt 0
  if (s.actP a).stopLink then s.stopLink a
  else s.onlyIf (s.actP a).reload fun s => (s.setAct a { s.actP a with reload := false }).actLoad a

/-- RETRACT_TIMEOUT: PARK_N is driven low, a record is appended, the actuator is Disabled (R228). -/
def State.retractTimeout (s : State) (a : Nat) : State :=
  if s.actSt a = 5 then
    let s := ((s.setRbit actStatusAll (4 + a) true).raise actInt 1).almanac 0x0197 bACT a []
    let s := s.enterDisabled a
    if (s.actP a).stopLink then s.stopLink a else s
  else s

/-- RETRACT_TIMEOUT. -/
def execRetractTimeout (a : Fin 4) (s : State) : Host.Outcome State Fault Refusal := .next (s.retractTimeout a)

/-- SETTLE_TIMEOUT: Tracking at the target, and the MOP ends with ACT_SEEK_TIMEOUT (R210, R282). -/
def State.settleTimeout (s : State) (a : Nat) : State :=
  let x := s.actP a
  if s.actSt a = 4 ∧ fld x.timeoutCfg 8 8 ≤ x.settleWedges then
    let s := (s.setActSt a 2).setAct a { x with settleRun := 0, settleWedges := 0 }
    s.onlyIf (s.mopInFlight a) fun s => s.fatalEvent a 3 0x190
  else s

/-- SETTLE_TIMEOUT. -/
def execSettleTimeout (a : Fin 4) (s : State) : Host.Outcome State Fault Refusal := .next (s.settleTimeout a)

/-- Power loss: every PARK_N goes low and every gate of WPA is aborted; no frame is sent (R229). -/
def State.powerLossRetract (s : State) : State :=
  let s := s.raise actInt 5
  s.each (upto 4) fun s a =>
    (s.setRbit actStatusAll (4 + a) true).cutWrites a

/-! ## The command link (R231 to R235) -/

/-- ACT_CTRL.LINK_EN: a rise starts a link; a fall stops it at once in Parked or Disabled, and after a retract otherwise (R231). -/
def State.actLinkEn (s : State) (mask : Nat) : State :=
  s.each (upto 4) fun s a =>
    let was := s.rbit (regAddr bACT 0x0) a
    let on := mask.testBit a
    let s := s.setRbit (regAddr bACT 0x0) a on
    if on && !was then s.setAct a { s.actP a with stopLink := false, goodRun := 0, badRun := 0 }
    else if was && !on then
      if s.actSt a = 0 ∨ s.actSt a = 6 then s.stopLink a
      else (s.setAct a { s.actP a with stopLink := true }).retract a 0x181
    else s

/-- ACT_LINK_EN. -/
def execActLinkEn (mask : BitVec 4) (s : State) : Host.Outcome State Fault Refusal := .next (s.actLinkEn mask.toNat)

/-- The link is running: enabled, or waiting for a retract to end (R231). -/
def State.linkOn (s : State) (a : Nat) : Bool := s.rbit (regAddr bACT 0x0) a || (s.actP a).stopLink

/-- OUTPUT_FRAME_SEND: the VCM and milli outputs of the wedge, VALID where they were updated (R233). -/
def State.outputFrame (s : State) (a : Nat) : State :=
  let st := s.actSt a
  if s.linkOn a && decide (1 ≤ st) && decide (st ≤ 4) then
    let v := s.loop a
    let m := s.loop (4 + a)
    let top := fun (x : Loop) => fld (BitVec.ofInt 32 (lget 0 x.taps 4)) 8 24
    let s := (s.setLoop a { v with ready := false }).setLoop (4 + a) { m with ready := false }
    s.sendAmp a 1 (top v * 2 ^ 48 + top m * 2 ^ 24 + (if v.ready then 2 ^ 23 else 0) + (if m.ready then 2 ^ 22 else 0))
  else s

/-- OUTPUT_FRAME_SEND. -/
def execOutputFrameSend (a : Fin 4) (s : State) : Host.Outcome State Fault Refusal := .next (s.outputFrame a)

/-- A frame's SYNC and CRC (R232). -/
def frameCrcOk (f : BitVec 96) : Bool := (crc8 88 0xFF (bitsMsb 88 (f.toNat / 256))).toNat == f.toNat % 256
def frameSync (f : BitVec 96) : Bool := f.toNat >>> 88 == 0xB4
def frameFld (f : BitVec 96) (lo len : Nat) : Nat := (f.toNat >>> lo) % 2 ^ len

/-- A violation of the link rules (R235). -/
def State.actViolation (s : State) (a : Nat) : State := s.violate (actCtr a 3) actInt 6

/-- A good STATUS frame: flags, faults, PARKED, amplifier temperature (R235, R513). -/
def State.ampStatus (s : State) (a : Nat) (f : BitVec 96) : State :=
  let flags := frameFld f 40 6
  let old := s.rfld (actStatus a) 4 6
  let fault := flags &&& 0x1C &&& (0x3F ^^^ old)
  let s := s.setRfld (actStatus a) 4 6 flags
  let s := s.onlyIf (fault != 0) fun s => s.raise actInt 3
  let s := s.onlyIf (flags.testBit 0 && s.actSt a == 5) fun s => s.retractEnded a
  s.sensorCheck (5 + a) (16 * sext 8 (frameFld f 32 8))

/-- A good REG_REPLY: BUSY clears, AMPDATA takes its data, ERROR its status (R238). -/
def State.ampReply (s : State) (a : Nat) (f : BitVec 96) : State :=
  let c := actReg a 0x24
  let s := s.setAct a { s.actP a with ampOut := false }
  let s := (s.setRbit c 18 false).setRbit c 19 (frameFld f 24 8 == 1)
  s.setReg (actReg a 0x28) (BitVec.ofNat 32 (frameFld f 32 32))

/-- Lock of the receiver: 8 good frames in a row lock it, 4 bad ones in a row unlock it (R232). -/
def State.ampLock (s : State) (a : Nat) (good : Bool) : State :=
  let x := s.actP a
  let x := if good then { x with goodRun := min 8 (x.goodRun + 1), badRun := 0 }
    else { x with badRun := min 4 (x.badRun + 1), goodRun := 0 }
  let lk := if x.goodRun = 8 then true else if x.badRun = 4 then false else x.locked
  (s.setAct a { x with locked := lk }).setRbit actStatusAll a lk

/-- An up frame (R232, R235): a bad one counts; a good one on a locked link is a violation, a STATUS or a REG_REPLY. -/
def State.upFrame (s : State) (a : Nat) (f : BitVec 96) : State :=
  if !s.linkOn a then s
  else
    let crc := frameCrcOk f
    let good := crc && frameSync f
    let s := s.onlyIf (!crc) fun s => s.count (actCtr a 2)
    let s := s.ampLock a good
    if !good || !(s.actP a).locked then s
    else
      let t := frameFld f 84 4
      if t = 8 then
        if frameFld f 8 24 ≠ 0 ∨ frameFld f 46 2 ≠ 0 then s.actViolation a else s.ampStatus a f
      else if t = 9 then
        if !(s.actP a).ampOut || frameFld f 8 16 != 0 then s.actViolation a else s.ampReply a f
      else s.actViolation a

/-- AMP_STATUS_FRAME. -/
def execAmpStatusFrame (a : Fin 4) (frame : BitVec 96) (s : State) : Host.Outcome State Fault Refusal :=
  .next (s.upFrame a frame)

/-- AMP_REG_REPLY. -/
def execAmpRegReply (a : Fin 4) (frame : BitVec 96) (s : State) : Host.Outcome State Fault Refusal :=
  .next (s.upFrame a frame)

/-- LINK_TIMEOUT: the link is lost and the actuator retracts; LINK_EN stays (R231, R235). -/
def State.linkLost (s : State) (a : Nat) : State :=
  if s.linkOn a then
    let s := (s.raise actInt 2).setAct a { s.actP a with locked := false, goodRun := 0, badRun := 0 }
    (s.setRbit actStatusAll a false).retract a 0x181
  else s

/-- LINK_TIMEOUT. -/
def execLinkTimeout (a : Fin 4) (s : State) : Host.Outcome State Fault Refusal := .next (s.linkLost a)

/-- AMPCMD_GO: ignored while BUSY; a REG_WRITE or REG_READ frame (R238, Table 7.6). -/
def State.ampcmdGo (s : State) (a : Nat) : State :=
  let c := actReg a 0x24
  if s.rbit c 18 then s
  else
    let s := (s.setRbit c 18 true).setRbit c 19 false
    let s := s.setAct a { s.actP a with ampOut := true }
    let addr := s.rfld c 0 16 * 2 ^ 56
    if !s.linkOn a then s
    else if s.rbit c 17 then s.sendAmp a 4 (addr + (s.reg (actReg a 0x28)).toNat * 2 ^ 24)
    else s.sendAmp a 5 addr

/-- AMPCMD_GO. -/
def execAmpcmdGo (a : Fin 4) (s : State) : Host.Outcome State Fault Refusal := .next (s.ampcmdGo a)

/-- AMPCMD_TIMEOUT: no reply in 10 µs sets ERROR and ends BUSY (R238). -/
def State.ampcmdTimeout (s : State) (a : Nat) : State :=
  let c := actReg a 0x24
  if s.rbit c 18 then
    ((s.setRbit c 18 false).setRbit c 19 true).setAct a { s.actP a with ampOut := false }
  else s

/-- AMPCMD_TIMEOUT. -/
def execAmpcmdTimeout (a : Fin 4) (s : State) : Host.Outcome State Fault Refusal := .next (s.ampcmdTimeout a)

/-! ## Registers with an effect -/

/-- GOV_BUDGET_WRITE: the write is an admission decision (R218, R219). -/
def execGovBudgetWrite (v : BitVec 32) (s : State) : Host.Outcome State Fault Refusal :=
  .next (s.setReg actGovBudget (v &&& 0xFFFF)).govAdmit

/-- A write of ACT_Aa_HEADDIS: each head newly set is dropped, and the groups that name it on their home actuator become
read-only (R224). -/
def State.headdisWrite (s : State) (a : Nat) (v : W) : State :=
  let old := s.rfld (actHeaddis a) 0 24
  let s := s.setReg (actHeaddis a) (v &&& 0xFFFFFF)
  s.each (maskBits 24 (fld v 0 24 &&& (0xFFFFFF ^^^ old))) fun s h =>
    (s.dropHead a h).groupsReadOnly fun g => g.home == a && (upto g.width).any fun p => g.head p == h

/-- ACT_HEADDIS_WRITE. -/
def execActHeaddisWrite (a : Fin 4) (v : BitVec 32) (s : State) : Host.Outcome State Fault Refusal :=
  .next (s.headdisWrite a v)

end Sys2Proof.Machine
end

