-- ==== Sys2Proof/Machine/Alm.lean ====
section
/-!
DEFINITION. The Almanac recorder (chapter 19): acceptance, the open flash page, flushes, the boot scan and the mirrors.
-/
namespace Sys2Proof.Machine

def almStatus := regAddr bALM 0x4
def almInt := regAddr bALM 0x8
def almFlashPage := regAddr bALM 0x1C

/-- ALM_CNT_RECORDS, SUPPRESSED, DROPPED and VIOL (Table 19.8). -/
def almCtr (i : Nat) : Ctr := ⟨regAddr bALM (0x40 + 4 * i), regAddr bALM 0x50, i, almInt, 6, 32⟩

/-- Almanac data pages: 64 blocks of 511 (Table 19.8). -/
def almPages : Nat := 32704

/-- The flash block and page of data page `i` (R485, R533). -/
def almBlock (i : Nat) : Nat := 192 + i / 511
def almBlockPage (i : Nat) : Nat := 1 + i % 511

/-! ## Acceptance (R528 to R532) -/

/-- CODE is valid (R530). -/
def codeValid (c : Nat) : Bool := (decide (1 ≤ c) && decide (c ≤ 0x5FF)) || (decide (0x8000 ≤ c) && decide (c ≤ 0x80FF))

/-- Codes whose class is Fixed (Table 19.2). -/
def codeFixed (c : Nat) : Bool :=
  [0x8000, 0x8005, 0x8006, 0x8007, 0x0033, 0x040B, 0x030B, 0x0309, 0x030A].contains c

/-- The rate class of a code: its nibble of ALM_CMAP, 7 for a Fixed code (R531, Table 19.8). -/
def State.codeClass (s : State) (c : Nat) : Nat :=
  if codeFixed c then 7
  else
    let i := if c < 0x8000 then c / 8 else 192 + (c - 0x8000) / 8
    s.rfld (regAddr bALM (0x1000 + 4 * i)) (4 * (c % 8)) 3

/-- A submission passes the checks of R529. -/
def AlmSubOk (r : AlmSub) : Bool :=
  r.sync == 0xA1A5 && codeValid r.code.toNat && decide (r.length.toNat ≤ 492) && r.length.toNat == r.payload.length &&
  r.flags == 0 && r.epoch == 0 && r.crc == 0

/-- Epoch in whole seconds (R532). -/
def State.epochSec (s : State) : Nat := s.vgl.epoch.toNat / 32768

/-- A code's bucket after the refill of R532. -/
def State.refilled (s : State) (c : Nat) : Bucket :=
  let k := regAddr bALM (0x100 + 4 * s.codeClass c)
  let burst := s.rfld k 0 8
  let every := s.rfld k 8 16
  let b := tget (fun _ => { last := s.alm.bucketStart }) s.alm.buckets c
  let now := s.epochSec
  let b := if min b.tokens burst = burst then { b with tokens := burst, last := now } else b
  let n := (now - b.last) / every
  { b with tokens := min burst (b.tokens + n), last := b.last + n * every }

/-- An entry's bytes as CRC-32C covers them and as the stream carries them (Table 19.1). -/
def entryCore (code length flags : Nat) (epoch : D) (payload : List Byte) : List Byte :=
  leBytes 2 0xA1A5 ++ leBytes 2 code ++ leBytes 2 length ++ leBytes 2 flags ++ leBytes 8 epoch.toNat ++ payload

/-- The bytes of an entry. -/
def AlmEntry.bytes (e : AlmEntry) : List Byte :=
  leBytes 8 e.seq.toNat ++ entryCore e.code.toNat e.payload.length e.flags.toNat e.epoch e.payload ++ leBytes 4 e.crc.toNat

/-- The index of the open page: behind those programmed and those waiting. -/
def State.openPage (s : State) : Nat := (s.reg almFlashPage).toNat + s.alm.progQ.length

/-- Close the open page: its lead and bytes, what follows them left erased, wait for the flash (R533, R534). -/
def State.closePage (s : State) : State :=
  if s.alm.page.isEmpty then s
  else
    let pg := leBytes 2 s.alm.pageFirst ++ leBytes 2 0 ++ s.alm.page ++ List.replicate (508 - s.alm.page.length) 0xFF
    ({ s with alm := { s.alm with progQ := s.alm.progQ ++ [pg], page := [], pageFirst := 0xFFFF } } : State).setRbit almStatus 2 false

/-- The next page to program takes the flash's operation slot when it is free (R489, R534). -/
def State.almKick (s : State) : State :=
  match s.alm.progQ, s.fls.op with
  | p :: _, none =>
    if s.rfld (regAddr bFLS 0x4) 0 2 = 3 then s
    else
      let i := (s.reg almFlashPage).toNat
      let s := { s with fls := { s.fls with op := some (.almanac i p) } }
      (s.setRfld (regAddr bFLS 0x4) 0 2 1).setRfld (regAddr bFLS 0x4) 2 2 (almBlock i / 64)
  | _, _ => s

/-- Put bytes of an entry into the stream, page by page; `n` bounds the pages, `first` says that the entry begins here. The
answer's second part is the page that holds the last byte. -/
def State.putBytes (s : State) : Nat → Bool → List Byte → State × Option Nat
  | 0, _, _ => (s, none)
  | n + 1, first, bs =>
    if almPages ≤ s.openPage then (s, none)
    else
      let room := 508 - s.alm.page.length
      let off := if first && s.alm.pageFirst = 0xFFFF then 4 + s.alm.page.length else s.alm.pageFirst
      let s := { s with alm := { s.alm with page := s.alm.page ++ bs.take room, pageFirst := off } }
      let s := s.setRbit almStatus 2 true
      let pg := s.openPage
      let s := s.onlyIf (decide (s.alm.page.length = 508)) fun s => s.closePage
      if bs.length ≤ room then (s, some pg) else s.putBytes n false (bs.drop room)

/-- An actuator's mirror records: it has a system area, is not Disabled, and is not full (R537). -/
def State.mirrorTakes (s : State) (a : Nat) : Bool := (s.ring a).d != 0 && s.actSt a != 6 && !s.rbit almStatus (3 + a)

/-- ALM accepts a record that has passed the checks and the rate limit: SEQ, EPOCH, SOURCE and CRC are filled (R529). -/
def State.almTake (s : State) (r : AlmSub) (source : Nat) (supp : Option (BitVec 32)) : State :=
  let payload := match supp with
    | some n => r.payload ++ leBytes 4 n.toNat
    | none => r.payload
  let flags := source + (if supp.isSome then 16 else 0) + (if s.alm.ploss then 32 else 0)
  let core := entryCore r.code.toNat payload.length flags s.vgl.epoch payload
  let e : AlmEntry := {
    seq := s.alm.seq, code := r.code, flags := BitVec.ofNat 16 flags, epoch := s.vgl.epoch, payload := payload
    crc := crc32c core, page := none }
  let s := (s.count (almCtr 0))
  let p := if s.rbit almStatus 1 then (s, none) else s.putBytes 3 true e.bytes
  let s := p.1
  let s := { s with alm := { s.alm with seq := s.alm.seq + 1, entries := s.alm.entries ++ [{ e with page := p.2 }] } }
  let s := s.onlyIf (p.2.isNone && !(upto 4).any fun a => s.mirrorTakes a) fun s => (s.count (almCtr 2)).raise almInt 4
  s.almKick

/-- A submission with its source: dropped as a violation, suppressed, or accepted (R529, R532). -/
def State.almAccept (s : State) (r : AlmSub) (source : Nat) : State :=
  if !AlmSubOk r then s.violate (almCtr 3) almInt 3
  else
    let c := r.code.toNat
    if s.codeClass c = 7 then s.almTake r source none
    else
      let b := s.refilled c
      let put (s : State) (b : Bucket) : State :=
        { s with alm := { s.alm with buckets := tset (fun _ => { last := s.alm.bucketStart }) s.alm.buckets c b } }
      if b.tokens = 0 then
        ((put s { b with supp := if b.supp = 0xFFFFFFFF then b.supp else b.supp + 1 }).count (almCtr 1)).raise almInt 2
      else
        (put s { b with tokens := b.tokens - 1, supp := 0 }).almTake r source (if b.supp = 0 then none else some b.supp)

/-- The head of append queue `16 + g`, taken from its chain where the class is carried by it (R365, R529). -/
def State.appendHead (s : State) (g : Nat) : State × Option Pkt :=
  match (s.cq (16 + g)).pkts with
  | p :: ps =>
    let c := s.cq (16 + g)
    ((s.setCq (16 + g) { c with pkts := ps, freedCount := c.freedCount + BitVec.ofNat 16 (cellsOf p.bytes) }).admitWaiters (16 + g), some p)
  | [] => s.chainTake (16 + g)

/-- The record that a packet of an append queue carries: as it was submitted, or read from its bytes (Table 19.1). -/
def almRecord : Body → Option AlmSub
  | .alm r => some r
  | .bytes l =>
    let f (a n : Nat) : Nat := leNat ((l.drop a).take n)
    some { sync := BitVec.ofNat 16 (f 0 2), code := BitVec.ofNat 16 (f 2 2), length := BitVec.ofNat 16 (f 4 2)
           flags := BitVec.ofNat 16 (f 6 2), epoch := BitVec.ofNat 64 (f 8 8), payload := (l.drop 16).take (l.length - 20)
           crc := BitVec.ofNat 32 (leNat (l.drop (l.length - 4))) }
  | _ => none

/-- ALMANAC_SUBMIT. -/
def execAlmanacSubmit (g : Fin 8) (s : State) : Host.Outcome State Fault Refusal :=
  .next (match s.appendHead g with
    | (s, some p) => match almRecord p.body with
      | some r => s.almAccept r g
      | none => s.violate (almCtr 3) almInt 3
    | (s, none) => s)

/-- SOURCE of a requester (R529). -/
def almSource : Requester → Nat
  | .cpu _ => 0
  | .mgtCore _ => 8
  | .mgtPort => 9
  | .dbg => 10

/-- The record in ALM_APP. -/
def State.almApp (s : State) : AlmSub :=
  let b := ((upto 129).map fun i => leBytes 4 (tget (fun _ => (0 : W)) s.alm.app i).toNat).flatten
  let len := min 496 (leNat ((b.drop 4).take 2))
  { sync := BitVec.ofNat 16 (leNat (b.take 2)), code := BitVec.ofNat 16 (leNat ((b.drop 2).take 2))
    length := BitVec.ofNat 16 (leNat ((b.drop 4).take 2)), flags := BitVec.ofNat 16 (leNat ((b.drop 6).take 2))
    epoch := BitVec.ofNat 64 (leNat ((b.drop 8).take 8)), payload := (b.drop 16).take len
    crc := BitVec.ofNat 32 (leNat ((b.drop (16 + len)).take 4)) }

/-- ALM_APP_GO. -/
def execAlmAppGo (by_ : Requester) (s : State) : Host.Outcome State Fault Refusal := .next (s.almAccept s.almApp (almSource by_))

/-! ## Flushes (R534, R535) -/

/-- The open page is programmed. -/
def State.flush (s : State) : State := s.closePage.almKick

/-- ALM_FLUSH. -/
def execAlmFlush (s : State) : Host.Outcome State Fault Refusal := .next s.flush

/-- ALM_FLUSH_TIMER. -/
def execAlmFlushTimer (s : State) : Host.Outcome State Fault Refusal := .next s.flush

/-- PLOSS_WINDOW_CLOSE. -/
def execPlossWindowClose (s : State) : Host.Outcome State Fault Refusal :=
  .next (if s.alm.ploss then ({ s with alm := { s.alm with ploss := false } } : State).flush else s)

/-- A data page has been programmed: ALM_FLASH_PAGE counts it, and the last one makes the flash full (R536). -/
def State.almPageDone (s : State) : State :=
  let n := (s.reg almFlashPage).toNat + 1
  let s := { s with alm := { s.alm with progQ := s.alm.progQ.drop 1, flushWait := false } }
  let s := s.setReg almFlashPage (BitVec.ofNat 32 n)
  if n = almPages then ((s.setRbit almStatus 1 true).raise almInt 0).almanac 0x0309 bALM 0 [] else s

/-- ALM_BOOT_SCAN: READY rises, each page found bad is recorded, and SEQ goes on above the highest number found (R535, R589). -/
def execAlmBootScan (bad : List Nat) (top : Option (BitVec 64)) (s : State) : Host.Outcome State Fault Refusal :=
  .next (let s := s.setRbit almStatus 0 true
    let seq := match top with
      | some t => if s.alm.seq.toNat ≤ t.toNat then t + 1 else s.alm.seq
      | none => s.alm.seq
    let s := { s with alm := { s.alm with seq := seq } }
    s.each bad fun s p => (s.raise almInt 5).almanac 0x030B bALM 0 [(4, p)])

/-- ALM_SEQ_LO_READ: the upper word of the next SEQ is latched (R554). -/
def execAlmSeqLoRead (s : State) : Host.Outcome State Fault Refusal :=
  .next { s with alm := { s.alm with seqLatch := BitVec.ofNat 32 (s.alm.seq.toNat / 2 ^ 32) } }

end Sys2Proof.Machine
end

