-- ==== Sys2Proof/Machine/Mem.lean ====
section
/-!
DEFINITION. LPDDR6 (chapter 11): where a buffer address lies, the code over a data unit, remap, patrol and training.
-/
namespace Sys2Proof.Machine

def memCtrl := regAddr bMEM 0x0
def memStatus := regAddr bMEM 0x4
def memInt := regAddr bMEM 0x8
def memRemap (c e : Nat) := regAddr bMEM (0x100 + 0x40 * c + 4 * e)

/-- MEM_CEc and MEM_UEc (Table 11.6). -/
def memCe (c : Nat) : Ctr := ⟨regAddr bMEM (0x40 + 4 * c), regAddr bMEM 0x64, c, memInt, 7, 32⟩
def memUe (c : Nat) : Ctr := ⟨regAddr bMEM (0x50 + 4 * c), regAddr bMEM 0x64, 4 + c, memInt, 7, 32⟩
def memCntScrub : Ctr := ⟨regAddr bMEM 0x60, regAddr bMEM 0x64, 8, memInt, 7, 32⟩

/-- Check blocks of a channel: 2 to 16 GiB in blocks of 1 KiB (R324, R326). -/
def State.memBlocks (s : State) : Nat := 2 ^ (21 + s.mem.density)

/-- Buffer addresses run below this limit (R328). -/
def State.bufLimit (s : State) : Nat := (4 * s.memBlocks - 64) * 960

/-- Where a data unit lies: channel, check block and unit of unit address B / 64 (R327). -/
structure UnitLoc where
  chan : Nat
  blk : Nat
  unit : Nat
deriving DecidableEq, Repr

/-- R327 for unit address `a`. -/
def unitLoc (a : Nat) : UnitLoc := { chan := a / 15 % 4, blk := a / 15 / 4, unit := a % 15 }

/-- A remap entry names a check block. -/
def State.memNames (s : State) (c e blk : Nat) : Bool := s.rbit (memRemap c e) 0 && s.rfld (memRemap c e) 4 24 == blk

/-- The check block that an access to a block reaches: the spare page of the entry that names it, once copied (R335). -/
def State.memTarget (s : State) (c blk : Nat) : Nat :=
  match (upto 16).find? fun e => s.memNames c e blk && !s.rbit (memRemap c e) 1 with
  | some e => s.memBlocks - 16 + e
  | none => blk

/-- A unit's block is being copied, so that accesses to it wait (R335). -/
def State.memCopying (s : State) (a : Nat) : Bool :=
  (upto 16).any fun e => s.memNames (unitLoc a).chan e (unitLoc a).blk && s.rbit (memRemap (unitLoc a).chan e) 1

/-- The key of a stored unit. -/
def unitKey (c blk u : Nat) : Nat := c * 2 ^ 32 + blk * 16 + u

/-- The key that unit address `a` reaches. -/
def State.unitAt (s : State) (a : Nat) : Nat :=
  unitKey (unitLoc a).chan (s.memTarget (unitLoc a).chan (unitLoc a).blk) (unitLoc a).unit

/-! ## The code over a data unit (R330) -/

/-- Multiplication by 0x02 in GF(2⁸) with 0x11D. -/
def gfDouble (a : Byte) : Byte := if a.getLsbD 7 then (a <<< 1) ^^^ 0x1D else a <<< 1

/-- g^i · a. -/
def gfPow : Nat → Byte → Byte
  | 0, a => a
  | i + 1, a => gfDouble (gfPow i a)

/-- The product of two elements. -/
def gfMul (a b : Byte) : Byte := (upto 8).foldl (fun r i => if a.getLsbD i then r ^^^ gfPow i b else r) 0

/-- The inverse of an element: its 254th power. -/
def gfInv (a : Byte) : Byte := (upto 253).foldl (fun r _ => gfMul r a) a

/-- Symbols 68 to 71: the unit address, little-endian. -/
def addrSymbols (a : Nat) : List Byte := leBytes 4 a

/-- The value at α^j of the polynomial whose coefficient of xⁱ is symbol i. DESIGN CHOICE (log 114): the order of the symbols. -/
def rsEval (j : Nat) : List Byte → Byte
  | [] => 0
  | x :: l => x ^^^ gfPow j (rsEval j l)

/-- The syndrome of a codeword of 72 symbols: its values at α⁰ to α³. -/
def rsSyn (cw : List Byte) : List Byte := (upto 4).map fun j => rsEval j cw

/-- The check bytes of a data unit with its address: those that make the syndrome zero. The rows are the inverse of the matrix of
α^(j(64 + k)). -/
def rsCheck (data : List Byte) (a : Nat) : List Byte :=
  let s := rsSyn (data ++ List.replicate 4 0 ++ addrSymbols a)
  ([[43, 113, 24, 180], [183, 137, 23, 195], [228, 25, 128, 239], [121, 225, 143, 152]] : List (List Byte)).map fun row =>
    (List.zipWith gfMul row s).foldl (· ^^^ ·) 0

/-- The syndrome that every check byte inverted leaves (R333, R334). -/
def poisonSyn : List Byte := rsSyn (List.replicate 64 0 ++ List.replicate 4 0xFF ++ List.replicate 4 0)

/-- A data unit as it is encoded. -/
def encodeUnit (data : List Byte) (a : Nat) (poison : Bool) : MemUnit :=
  let c := rsCheck data a
  { data := data, check := if poison then c.map (~~~ ·) else c }

/-- The symbol and the difference of a syndrome that one wrong symbol leaves. -/
def rsLocate (s : List Byte) : Option (Nat × Byte) :=
  let e := lget 0 s 0
  if e = 0 then none
  else ((upto 72).find? fun i => s == (upto 4).map fun j => gfPow (j * i) e).map fun i => (i, e)

/-- Symbols with a difference put into one of them. -/
def xorSymbol (u : MemUnit) (i : Nat) (e : Byte) : MemUnit :=
  if i < 64 then { u with data := lset u.data i (lget 0 u.data i ^^^ e) }
  else { u with check := lset u.check (i - 64) (lget 0 u.check (i - 64) ^^^ e) }

/-! ## Stored units -/

/-- The unit address B / 64 of the unit at a place, before any redirection (R327). -/
def unitAddr (k : Nat) : Nat := (4 * (k % 2 ^ 32 / 16) + k / 2 ^ 32) * 15 + k % 16

/-- What an unlisted place holds: zeros, encoded (log 19). -/
def goodUnit (k : Nat) : MemUnit := encodeUnit (List.replicate 64 0) (unitAddr k) false

/-- A stored unit. -/
def State.unit (s : State) (k : Nat) : MemUnit := tget goodUnit s.mem.units k

/-- Put a stored unit. -/
def State.setUnit (s : State) (k : Nat) (u : MemUnit) : State :=
  { s with mem := { s.mem with units := tset goodUnit s.mem.units k u } }

/-- A check block as its 1,024 bytes lie in the channel (Table 11.1). -/
def State.checkBlock (s : State) (c blk : Nat) : List Byte :=
  ((upto 15).map fun u => (s.unit (unitKey c blk u)).data).flatten ++ ((upto 15).map fun u => (s.unit (unitKey c blk u)).check).flatten ++
    List.replicate 4 0

/-- What the decoder makes of a unit (R330): 0, or 0x10, 0x11 or 0x12; the symbol it corrects, with the difference; and the symbol that it
records of a mismatch. -/
structure UnitFind where
  status : Nat := 0
  corrected : Option (Nat × Byte) := none
  symbol : Nat := 0
deriving DecidableEq, Repr

/-- What the decoder makes of a unit read at unit address `a`: of what is stored, or else of what the environment did to it. -/
def MemUnit.decode (u : MemUnit) (a : Nat) (find : EccFind) (symbol : Nat) : UnitFind :=
  let s := rsSyn (u.data ++ u.check ++ addrSymbols a)
  if s = [0, 0, 0, 0] then
    match find with
    | .clean => {}
    | .corrected => { corrected := some (min symbol 67, 0) }
    | .uncorrectable => { status := 0x10 }
    | .addressMismatch => { status := 0x11, symbol := if 68 ≤ symbol ∧ symbol ≤ 71 then symbol else 68 }
  else match rsLocate s with
    | some (i, e) => if i < 68 then { corrected := some (i, e) } else { status := 0x11, symbol := i }
    | none => { status := if s = poisonSyn then 0x12 else 0x10 }

/-- What the decoder records of its finding (R332, R333, R335). -/
def State.memError (s : State) (a : Nat) (f : UnitFind) : State :=
  let l := unitLoc a
  let note (s : State) (sym : Nat) : State :=
    (s.setReg (regAddr bMEM 0x1C) (BitVec.ofNat 32 (a % 2 ^ 30))).setReg (regAddr bMEM 0x20)
      (BitVec.ofNat 32 (l.chan + (if f.status = 0 then 0 else 4) + (if f.status = 0x11 then 8 else 0) + 16 * sym))
  match f.corrected with
  | some (sym, _) =>
    let s := note (s.count (memCe l.chan)) sym
    let n := (s.reg (memCe l.chan).addr).toNat
    let thr := s.rfld (regAddr bMEM 0x18) 0 16
    let s := s.onlyIf (thr != 0 && n % thr == 0) (·.raise memInt 0)
    s.onlyIf (((upto 16).all fun e => s.rbit (memRemap l.chan e) 0) && !((upto 16).any fun e => s.memNames l.chan e l.blk))
      (·.raise memInt 3)
  | none =>
    if f.status = 0 then s
    else
      let s := note (s.count (memUe l.chan)) f.symbol
      (s.raise memInt (if f.status = 0x11 then 2 else 1)).almanac f.status bMEM l.chan [(4, a)]

/-- A finding in the buffer, at a place that the model ties to no buffer address: whether Lantern or LPDDR6 made it, and where, is free
(R332, R333). -/
def State.bufferFound (s : State) (find : EccFind) : State :=
  if find = .clean then s
  else
    let w := (Config.freeWord s.free).toNat
    let s := s.drawn
    if w < 2 ^ 31 then s.sramSomewhere (w % 16) find
    else
      let a := w % (s.bufLimit / 64)
      let i := (Config.freeWord s.free).toNat
      s.drawn.memError a (match find with
        | .clean => {}
        | .corrected => { corrected := some (i % 68, 0) }
        | .uncorrectable => { status := 0x10 }
        | .addressMismatch => { status := 0x11, symbol := 68 + i % 4 })

/-- A symbol number of MEM_ECC_TSYM with its difference: 0 to 67, else none (Table 11.6). -/
def testSym (sym x : Nat) (u : MemUnit) : MemUnit := if sym ≤ 67 then xorSymbol u sym (BitVec.ofNat 8 x) else u

/-- The armed corruption applies to a write of this unit (R337). -/
def State.memTestHits (s : State) (a : Nat) : Bool :=
  s.rbit (regAddr bMEM 0x2C) 0 && s.rfld (regAddr bMEM 0x24) 0 30 == a

/-- Store a whole data unit of unit address `a` at a place (R326, R334, R337). -/
def State.storeUnit (s : State) (k a : Nat) (data : List Byte) (poison : Bool) : State :=
  if s.memTestHits a then
    let t := regAddr bMEM 0x28
    let u := encodeUnit data (if s.rbit (regAddr bMEM 0x2C) 1 then a ^^^ 1 else a) poison
    (s.setUnit k (testSym (s.rfld t 16 7) (s.rfld t 24 8) (testSym (s.rfld t 0 7) (s.rfld t 8 8) u))).setRbit (regAddr bMEM 0x2C) 0 false
  else s.setUnit k (encodeUnit data a poison)

/-- Read the unit at a place as unit address `a`: the finding, and the unit's bytes as the decoder returns them. A corrected unit is written
back corrected (R332). A place that is not listed holds a good unit. -/
def State.takeUnit (s : State) (k a : Nat) (find : EccFind) (symbol : Nat) : State × UnitFind × List Byte :=
  let u := s.unit k
  let f := if find = .clean && a == unitAddr k && !(s.mem.units.any fun e => e.1 == k) then {} else u.decode a find symbol
  let data := (match f.corrected with
    | some (i, e) => xorSymbol u i e
    | none => u).data
  let s := s.memError a f
  (s.onlyIf f.corrected.isSome fun s => s.storeUnit k a data false, f, data)

/-- Read a data unit: the status, and its bytes where that is 0. -/
def State.readUnit (s : State) (a : Nat) (find : EccFind) (symbol : Nat) : State × Nat × List Byte :=
  let r := s.takeUnit (s.unitAt a) a find symbol
  (r.1, r.2.1.status, if r.2.1.status = 0 then r.2.2 else [])

/-- Store a whole data unit. -/
def State.writeUnit (s : State) (a : Nat) (data : List Byte) (poison : Bool) : State := s.storeUnit (s.unitAt a) a data poison

/-- Bytes `[off, off + new.length)` of a list replaced. -/
def splice (old : List Byte) (off : Nat) (new : List Byte) : List Byte :=
  old.take off ++ new ++ old.drop (off + new.length)

/-- Write part of a data unit, all of it, or nothing where it cannot be read (R334). -/
def State.writePart (s : State) (a off : Nat) (data : List Byte) (find : EccFind) (symbol : Nat) : State × Nat :=
  if data.length = 64 then (s.writeUnit a data false, 0)
  else
    let r := s.readUnit a find symbol
    if r.2.1 = 0 then (r.1.writeUnit a (splice r.2.2 off data) false, 0) else (r.1, r.2.1)

/-! ## Commands -/

/-- A write of MEM_REMAPc_e: ignored while it copies, and where another valid entry of the channel names the block (R335). -/
def State.memRemapWrite (s : State) (c e : Nat) (v : W) : State :=
  let a := memRemap c e
  let old := s.reg a
  if bitAt old 1 then s
  else if bitAt v 0 && (upto 16).any fun x => x != e && s.memNames c x (fld v 4 24) then s
  else
    let new := v &&& 0x0FFFFFF1
    let fresh := bitAt v 0 && (!bitAt old 0 || fld old 4 24 != fld v 4 24)
    s.setReg a (putBit new 1 fresh)

/-- MEM_REMAP_WRITE. -/
def execMemRemapWrite (c : Fin 4) (e : Fin 16) (v : BitVec 32) (s : State) : Host.Outcome State Fault Refusal :=
  .next (s.memRemapWrite c e v)

/-- A copy of a check block to its spare page ends: every unit is read with correction and written, poisoned where it
cannot be corrected (R335). -/
def State.memCopyDone (s : State) (c e : Nat) : State :=
  let a := memRemap c e
  if s.rbit a 1 then
    let blk := s.rfld a 4 24
    let s := s.each (upto 15) fun s u =>
      let a := (4 * blk + c) * 15 + u
      let r := s.takeUnit (unitKey c blk u) a .clean 0
      r.1.storeUnit (unitKey c (s.memBlocks - 16 + e) u) a r.2.2 (r.2.1.status != 0)
    (s.setRbit a 1 false).raise memInt 4
  else s

/-- The patrol reads the next unit; none while the patrol is off or MEM is not ready (R336). The last unit ends a pass. -/
def State.scrubPatrol (s : State) (find : EccFind) (symbol : Nat) : State :=
  if s.rfld (regAddr bMEM 0x14) 0 16 = 0 ∨ !s.rbit memStatus 0 ∨ s.rbit memStatus 2 then s
  else
    let a := s.mem.patrol
    let s := (s.readUnit a find symbol).1
    if a + 1 < s.bufLimit / 64 then { s with mem := { s.mem with patrol := a + 1 } }
    else (({ s with mem := { s.mem with patrol := 0 } } : State).count memCntScrub).raise memInt 6

/-- MEM_SCRUB_PATROL. -/
def execMemScrubPatrol (find : EccFind) (symbol : Nat) (s : State) : Host.Outcome State Fault Refusal :=
  .next (s.scrubPatrol find symbol)

/-- MEM_ECC_TEST_ARM (R337). -/
def execMemEccTestArm (s : State) : Host.Outcome State Fault Refusal := .next (s.setRbit (regAddr bMEM 0x2C) 0 true)

/-- A write of MEM_CTRL.INIT: ignored while READY is 1 (R349), and once training has failed, since MEM then never becomes ready until it
is reset (R324); MEM_CFG takes effect. -/
def State.memInit (s : State) : State :=
  if s.rbit memStatus 0 || s.rbit memStatus 3 then s
  else
    let s := { s with mem := { s.mem with density := s.rfld (regAddr bMEM 0x10) 0 2 } }
    (s.setRfld memStatus 4 4 0).setRbit memStatus 1 true

/-- MEM_INIT. -/
def execMemInit (s : State) : Host.Outcome State Fault Refusal := .next s.memInit

end Sys2Proof.Machine
end

