-- ==== Sys2Proof/Machine/Lnt.lean ====
section
/-!
DEFINITION. BUF and Lantern (chapter 11): the cache, its scratchpad, maintenance and disable walk, the eviction buffer, SRAM
remap and test mode, and the stripe parity engine.
-/
namespace Sys2Proof.Machine

def bufInt := regAddr bBUF 0x8
def lntCtrl := regAddr bLNT 0x0
def lntStatus := regAddr bLNT 0x4
def lntInt := regAddr bLNT 0x8
def bufRemap (g e : Nat) := regAddr bBUF (0x400 + 0x20 * g + 4 * e)

/-- LNT_CNT_HIT, MISS, EVB_HIT and EVB_WAIT (Table 11.6). -/
def lntCtr (i : Nat) : Ctr := ⟨regAddr bLNT (0x20 + 4 * i), regAddr bLNT 0x30, i, lntInt, 7, 32⟩

/-- BUF_CNT_PARITY, REBUILD and REBUILD_FAIL. -/
def bufCtr (i : Nat) : Ctr := ⟨regAddr bBUF (0x40 + 4 * i), regAddr bBUF 0x4C, i, bufInt, 6, 32⟩

/-- The status of a finding (Table 11.5). -/
def eccStatus : EccFind → Nat
  | .clean => 0
  | .corrected => 0
  | .uncorrectable => 0x10
  | .addressMismatch => 0x11

/-! ## Lines -/

/-- Set and tag of a line (R338). -/
def lineSet (l : Nat) : Nat := l % 24576
def lineTag (l : Nat) : Nat := l / 24576

/-- A line put into its place: its tag and state words are written where they change (Table 11.2). -/
def State.setTagged (s : State) (k : Nat) (l : LLine) : State :=
  (s.onlyIf ((s.lline k).tagWord != l.tagWord) fun s => s.sramWrote 16 k).setLline k l

/-- Ways now scratchpad, and the number last written (R340). -/
def State.spadActive (s : State) : Nat := s.rfld lntStatus 4 4
def State.spadWays (s : State) : Nat := s.rfld lntCtrl 1 4

/-- Cache ways: those neither scratchpad nor becoming or ceasing to be so. -/
def State.cacheWays (s : State) : Nat := 16 - max s.spadActive s.spadWays

/-- The way that holds a line, by the tag and state arrays. -/
def State.wayOf (s : State) (l : Nat) : Option Nat :=
  (upto s.cacheWays).find? fun w => (s.lline (16 * lineSet l + w)).valid && (s.lline (16 * lineSet l + w)).tag == lineTag l

/-- The tree of a set after a use of way `w`: every node on its path leads away from it. -/
def plruTouch (tree w : Nat) : Nat :=
  let step (t : Nat × Nat) (half : Nat) : Nat × Nat :=
    let high := w / half % 2 == 1
    let bit := 2 ^ t.2
    let cleared := t.1 - (if t.1.testBit t.2 then bit else 0)
    (if high then cleared else cleared + bit, 2 * t.2 + (if high then 2 else 1))
  ([8, 4, 2, 1].foldl step (tree, 0)).1

/-- The way that the tree leads to among ways 0 to `k − 1`. -/
def plruVictim (tree k : Nat) : Nat :=
  let step (t : Nat × Nat) (half : Nat) : Nat × Nat :=
    let high := tree.testBit t.1 && decide (t.2 + half < k)
    (2 * t.1 + (if high then 2 else 1), if high then t.2 + half else t.2)
  ([8, 4, 2, 1].foldl step (0, 0)).2

def State.touch (s : State) (l w : Nat) : State :=
  let t := tget (fun _ => 0) s.lnt.plru (lineSet l)
  { s with lnt := { s.lnt with plru := tset (fun _ => 0) s.lnt.plru (lineSet l) (plruTouch t w) } }

/-- The way to fill: an invalid one first, else the tree's victim (R338). -/
def State.fillWay (s : State) (l : Nat) : Nat :=
  match (upto s.cacheWays).find? fun w => !(s.lline (16 * lineSet l + w)).valid with
  | some w => w
  | none => plruVictim (tget (fun _ => 0) s.lnt.plru (lineSet l)) s.cacheWays

/-- A dirty line leaves way `w`: its 16 words are read, and an error that is not corrected poisons it (R334). -/
def State.readOut (s : State) (k w : Nat) : State × LLine :=
  let l := s.lline k
  let r := (upto 16).foldl (fun (r : State × Bool) i =>
    let f := r.1.sramRead w (16 * (k / 16) + i) .clean
    (f.1, r.2 || eccBad f.2)) (s, l.poison)
  (r.1, { l with poison := r.2 })

/-- Store a line's two data units (R338). -/
def State.storeLine (s : State) (line : Nat) (data : List Byte) (poison : Bool) : State :=
  (s.writeUnit (2 * line) (data.take 64) poison).writeUnit (2 * line + 1) (data.drop 64) poison

/-- Write a line back where dirty (R341). -/
def State.cleanLine (s : State) (k w : Nat) : State :=
  if (s.lline k).valid && (s.lline k).dirty then
    let r := s.readOut k w
    (r.1.storeLine (r.2.tag * 24576 + k / 16) r.2.data r.2.poison).setTagged k { r.2 with dirty := false }
  else s

/-- The bytes of a line of way `w` as a write of its words `is` stores them (R337). -/
def State.stored (s : State) (w set : Nat) (is : List Nat) (data : List Byte) : List Byte :=
  is.foldl (fun d i =>
    let x := s.sramFlip w (16 * set + i)
    if x = 0 then d else splice d (8 * i) (leBytes 8 (leNat ((d.drop (8 * i)).take 8) ^^^ x))) data

/-- Put a line into a way of its set: words are written, and the victim's write-back goes to the eviction buffer. -/
def State.fillLine (s : State) (line w : Nat) (data : List Byte) (dirty : Bool) : State :=
  let k := 16 * lineSet line + w
  let s :=
    if (s.lline k).valid && (s.lline k).dirty then
      let r := s.readOut k w
      let e : Evict := { line := r.2.tag * 24576 + lineSet line, data := r.2.data, poison := r.2.poison }
      { r.1 with lnt := { r.1.lnt with evb := r.1.lnt.evb ++ [e] } }
    else s
  let data := s.stored w (lineSet line) (upto 16) data
  let s := s.each (upto 16) fun s i => s.sramWrote w (16 * lineSet line + i)
  (s.setTagged k { valid := true, dirty := dirty, tag := lineTag line, data := data }).touch line w

/-! ## One access, line by line (R327, R338, R345) -/

/-- What an access does with a piece of it that lies in one line. -/
structure Piece where
  line : Nat
  off : Nat
  data : Option (List Byte)
  len : Nat
deriving DecidableEq, Repr

/-- A remap copy of a row of some cache way of the set, or of a block of the line, is under way (R335). -/
def State.lineCopying (s : State) (line : Nat) : Bool :=
  s.memCopying (2 * line) || s.memCopying (2 * line + 1) ||
  ((upto 17).any fun w => (upto 8).any fun e =>
    s.rbit (bufRemap w e) 1 && s.rfld (bufRemap w e) 4 14 == lineSet line / 4)

/-- LNT_CTRL.MEASURE counts a hit or a miss (R348). -/
def State.measure (s : State) (i : Nat) : State := s.onlyIf (s.rbit lntCtrl 5) fun s => s.count (lntCtr i)

/-- Words of a line that a piece reads: all it touches for a read, those it covers in part for a write. -/
def Piece.reads (p : Piece) : List Nat :=
  (upto 16).filter fun i =>
    decide (p.off < 8 * i + 8) && decide (8 * i < p.off + p.len) &&
    (p.data.isNone || !(decide (p.off ≤ 8 * i) && decide (8 * i + 8 ≤ p.off + p.len)))

/-- Words that a piece touches. -/
def Piece.touches (p : Piece) : List Nat :=
  (upto 16).filter fun i => decide (p.off < 8 * i + 8) && decide (8 * i < p.off + p.len)

/-- Read words of way `w`: the first finding that is no good, as a status. -/
def State.readWords (s : State) (w set : Nat) (is : List Nat) (find : EccFind) : State × Nat :=
  let r := is.foldl (fun (r : State × Nat × EccFind) i =>
    let f := r.1.sramRead w (16 * set + i) r.2.2
    (f.1, if r.2.1 = 0 then eccStatus f.2 else r.2.1, EccFind.clean)) (s, 0, find)
  (r.1, r.2.1)

/-- A piece that meets its line in way `w` (R334, R338): status and bytes read. -/
def State.hitPiece (s : State) (p : Piece) (w : Nat) (find : EccFind) : State × Nat × List Byte :=
  let k := 16 * lineSet p.line + w
  let l := s.lline k
  let s := (s.measure 0).touch p.line w
  match p.data with
  | none =>
    if l.poison then (s, 0x12, [])
    else
      let r := s.readWords w (lineSet p.line) p.reads find
      if r.2 = 0 then (r.1, 0, (l.data.drop p.off).take p.len)
      else (r.1.onlyIf l.dirty fun s => s.setTagged k { l with poison := true }, r.2, [])
  | some d =>
    if l.poison && p.len != 128 then (s, 0x12, [])
    else
      let r := s.readWords w (lineSet p.line) p.reads find
      if r.2 ≠ 0 then (r.1.onlyIf l.dirty fun s => s.setTagged k { l with poison := true }, r.2, [])
      else
        let new := splice l.data p.off d
        let kept := r.1.stored w (lineSet p.line) p.touches new
        let s := r.1.each p.touches fun s i => s.sramWrote w (16 * lineSet p.line + i)
        if s.lnt.disabling then
          ((s.storeLine p.line new false).setTagged k { l with data := kept, dirty := false, poison := false }, 0, [])
        else (s.setTagged k { l with data := kept, dirty := true, poison := false }, 0, [])

/-- The part of a piece that lies in data unit 0 or 1 of its line: offset in the unit and length. -/
def Piece.inUnit (p : Piece) (u : Nat) : Nat × Nat :=
  let lo := max p.off (64 * u)
  let hi := min (p.off + p.len) (64 * u + 64)
  (lo - 64 * u, hi - lo)

/-- A piece served by MEM without Lantern: bypassed, or a miss during the disable walk (R343). -/
def State.memPiece (s : State) (p : Piece) (find : EccFind) (symbol : Nat) : State × Nat × List Byte :=
  [0, 1].foldl (fun (r : State × Nat × List Byte) u =>
    let o := p.inUnit u
    if o.2 = 0 then r
    else
      let f := if r.2.2 = [] && r.2.1 = 0 then find else .clean
      match p.data with
      | none =>
        let x := r.1.readUnit (2 * p.line + u) f symbol
        (x.1, if r.2.1 = 0 then x.2.1 else r.2.1, r.2.2 ++ ((x.2.2.drop o.1).take o.2))
      | some d =>
        let x := r.1.writePart (2 * p.line + u) o.1 ((d.drop (o.1 + 64 * u - p.off)).take o.2) f symbol
        (x.1, if r.2.1 = 0 then x.2 else r.2.1, r.2.2)) (s, 0, [])

/-- A miss: both data units are read, and the line enters Lantern with the write merged; a unit that cannot be read leaves nothing filled,
but where a write covers all of it (R333, R334, R338). -/
def State.missPiece (s : State) (p : Piece) (find : EccFind) (symbol : Nat) : State × Nat × List Byte :=
  let s := s.measure 1
  let r := [0, 1].foldl (fun (r : State × Nat × List Byte × Bool) u =>
    let x := r.1.readUnit (2 * p.line + u) (if r.2.2.2 then .clean else find) symbol
    let all := p.data.isSome && (p.inUnit u).2 == 64
    (x.1, if r.2.1 = 0 && !all then x.2.1 else r.2.1, r.2.2.1 ++ (if x.2.1 = 0 then x.2.2 else List.replicate 64 0), true)) (s, 0, [], false)
  if r.2.1 ≠ 0 then (r.1, r.2.1, [])
  else
    let w := r.1.fillWay p.line
    match p.data with
    | none => (r.1.fillLine p.line w r.2.2.1 false, 0, (r.2.2.1.drop p.off).take p.len)
    | some d => (r.1.fillLine p.line w (splice r.2.2.1 p.off d) true, 0, [])

/-- A piece that meets an entry of the eviction buffer that has not left is served from it (Table 11.3). -/
def State.evbPiece (s : State) (p : Piece) (e : Evict) : State × Nat × List Byte :=
  let s := s.count (lntCtr 2)
  match p.data with
  | none => if e.poison then (s, 0x12, []) else (s, 0, (e.data.drop p.off).take p.len)
  | some d =>
    if e.poison && p.len != 128 then (s, 0x12, [])
    else
      let upd (x : Evict) : Evict := if x.line = p.line then { x with data := splice x.data p.off d, poison := false } else x
      ({ s with lnt := { s.lnt with evb := s.lnt.evb.map upd } }, 0, [])

/-- A fill of this line needs a dirty victim. -/
def State.needsEvb (s : State) (line : Nat) : Bool :=
  (s.lline (16 * lineSet line + s.fillWay line)).valid && (s.lline (16 * lineSet line + s.fillWay line)).dirty

/-- The outcome of a piece: it waits, or its status and bytes. -/
inductive PieceRes where
  | waits (s : State)
  | done (s : State) (status : Nat) (bytes : List Byte)

/-- The tags of a line's set are looked up, in the ways that cache: the first finding that is no good, as a status (R331, R333). -/
def State.readTags (s : State) (line : Nat) : State × Nat :=
  if s.rbit lntStatus 8 then (s, 0)
  else (upto s.cacheWays).foldl (fun (r : State × Nat) w =>
    let f := r.1.sramRead 16 (16 * lineSet line + w) .clean
    (f.1, if r.2 = 0 then eccStatus f.2 else r.2)) (s, 0)

/-- An access to the line waits: MEM is not at hand, or the line or its memory is not (R335, R345). -/
def State.lineWaits (s : State) (line : Nat) : Bool :=
  !s.rbit memStatus 0 || s.rbit memStatus 2 || s.lineCopying line ||
  ((s.wayOf line).isNone && match s.lnt.evb.find? fun e => e.line == line with
    | some e => e.left
    | none => !s.rbit lntStatus 8 && !s.lnt.disabling && decide (32 ≤ s.lnt.evb.length) && s.needsEvb line)

/-- Serve a piece at a buffer address (R327, R328, R338, R339, R343, R345). -/
def State.bufPiece (s : State) (p : Piece) (a : BufAcc) : PieceRes :=
  if s.rbit lntStatus 0 then .waits s
  else if s.bufLimit ≤ 128 * p.line + p.off then
    .done (s.raise bufInt 5) 0x13 (if p.data.isSome then [] else List.replicate p.len 0)
  else if !s.rbit memStatus 0 || s.rbit memStatus 2 || s.lineCopying p.line then .waits s
  else
    let t := s.readTags p.line
    let s := t.1
    if t.2 ≠ 0 then .done s t.2 []
    else match s.wayOf p.line, s.lnt.evb.find? fun e => e.line == p.line with
    | some w, _ =>
      let r := s.hitPiece p w a.lnt
      .done r.1 r.2.1 r.2.2
    | none, some e =>
      if e.left then .waits (s.count (lntCtr 3))
      else
        let r := s.evbPiece p e
        .done r.1 r.2.1 r.2.2
    | none, none =>
      if s.rbit lntStatus 8 then
        let r := s.memPiece p a.mem a.symbol
        .done r.1 r.2.1 r.2.2
      else if s.lnt.disabling then
        let r := (s.measure 1).memPiece p a.mem a.symbol
        .done r.1 r.2.1 r.2.2
      else if 32 ≤ s.lnt.evb.length && s.needsEvb p.line then .waits s
      else
        let r := s.missPiece p a.mem a.symbol
        .done r.1 r.2.1 r.2.2

/-- The fabric address of scratchpad unit 0, and the bytes of a unit (R340). -/
def spadBase : Nat := 0x1000000000
def spadUnit : Nat := 0x300000

/-- Serve a piece at a scratchpad address (R340). -/
def State.spadPiece (s : State) (addr : Nat) (p : Piece) (find : EccFind) : PieceRes :=
  let j := (addr - spadBase) / spadUnit
  let w := 15 - j
  if s.rbit lntStatus 0 then .waits s
  else if min s.spadActive s.spadWays ≤ j then
    if j < s.spadWays then .waits s
    else .done (s.raise lntInt 4) 0x13 (if p.data.isSome then [] else List.replicate p.len 0)
  else
    let set := (addr - spadBase) % spadUnit / 128
    let k := 16 * set + w
    let l := s.lline k
    let old := l.bytes
    let r := s.readWords w set p.reads find
    if s.sramCopying w (16 * set) then .waits s
    else if r.2 ≠ 0 then .done r.1 r.2 []
    else match p.data with
      | none => .done r.1 0 ((old.drop p.off).take p.len)
      | some d =>
        let new := r.1.stored w set p.touches (splice old p.off d)
        let s := r.1.each p.touches fun s i => s.sramWrote w (16 * set + i)
        .done (s.setLline k { l with data := if new = List.replicate 128 0 then [] else new }) 0 []

/-- Serve an access piece by piece until it ends or waits; `n` bounds its pieces. -/
def State.serve (s : State) : Nat → BufAcc → State
  | 0, _ => s
  | n + 1, a =>
    if a.len = 0 then s.emit (.bufReply a.addr a.status a.got)
    else
      let off := a.addr % 128
      let len := min a.len (128 - off)
      let p : Piece := { line := a.addr / 128, off := off, data := a.data.map fun d => d.take len, len := len }
      match (if spadBase ≤ a.addr then s.spadPiece a.addr p a.lnt else s.bufPiece p a) with
      | .waits s => { s with lnt := { s.lnt with waiting := s.lnt.waiting ++ [a] } }
      | .done s st bytes =>
        s.serve n { a with
          addr := a.addr + len, len := a.len - len, data := a.data.map fun d => d.drop len
          got := a.got ++ bytes, status := if a.status = 0 then st else a.status, lnt := .clean, mem := .clean }

/-- The pieces an access can have, and one for its end. -/
def accFuel (a : BufAcc) : Nat := a.len / 128 + 3

/-- An access whose write bytes are as many as its length says. -/
def accOk (a : BufAcc) : Bool :=
  match a.data with
  | some d => d.length == a.len
  | none => true

/-- BUFFER_ACCESS. -/
def execBufferAccess (acc : BufAcc) (s : State) : Host.Outcome State Fault Refusal :=
  .next (s.onlyIf (accOk acc) fun s => s.serve (accFuel acc) acc)

/-- An access takes its place in the drain order, behind those that arrived before it with the same place (R360). -/
def insertAcc (a : BufAcc) : List BufAcc → List BufAcc
  | [] => [a]
  | b :: bs => if a.order ≤ b.order then a :: b :: bs else b :: insertAcc a bs

/-- The accesses that wait are tried again, in the drain order of Table 12.5 (R360) and in order of arrival within it. DEDUCED
(log 69): what an access waits for lies outside the controller or holds back every access alike, so one that comes later and can
be served is. -/
def State.serveWaiting (s : State) : State :=
  let w := s.lnt.waiting.foldr insertAcc []
  ({ s with lnt := { s.lnt with waiting := [] } } : State).each w fun s a => s.serve (accFuel a) a

/-! ## Eviction buffer, reset, scratchpad and disable -/

/-- EVICTION_WRITEBACK_ACK: the entry is stored in MEM and frees, and accesses that waited go on (R345). -/
def execEvictionWritebackAck (line : Nat) (s : State) : Host.Outcome State Fault Refusal :=
  .next (match s.lnt.evb.find? fun e => e.line == line with
    | none => s
    | some e =>
      let s := { s with lnt := { s.lnt with evb := s.lnt.evb.filter fun x => x.line != line } }
      (s.storeLine e.line e.data e.poison).serveWaiting)

/-- MEM takes every waiting write-back into its write queue. -/
def State.evictionsLeave (s : State) : State :=
  if s.lnt.evb.isEmpty then s
  else { s with lnt := { s.lnt with evb := s.lnt.evb.map fun e => { e with left := true } } }

/-- LNT_INIT_DONE (R339). -/
def execLntInitDone (s : State) : Host.Outcome State Fault Refusal :=
  .next (if s.rbit lntStatus 0 then (((s.sramSwept 16 0 393216).setRbit lntStatus 0 false).raise lntInt 0).serveWaiting else s)

/-- Lines of ways `[lo, hi)` written back where dirty, then gone (R340). -/
def State.dropWays (s : State) (lo hi : Nat) : State :=
  let ks := (s.lnt.lines.map Prod.fst).filter fun k => decide (lo ≤ k % 16) && decide (k % 16 < hi)
  s.each ks fun s k => (s.cleanLine k (k % 16)).setTagged k {}

/-- A write of LNT_CTRL (R340, R343, R344). -/
def State.lntCtrlWrite (s : State) (v : W) : State :=
  let s := s.setRbit lntCtrl 5 (bitAt v 5)
  let en := s.rbit lntCtrl 0 && !s.rbit lntStatus 8
  let newEn := bitAt v 0
  let n := fld v 1 4
  let chEn := en != newEn
  let chSp := n != s.spadWays
  if !chEn && !chSp then s
  else if s.rbit lntStatus 0 || s.rbit lntStatus 1 || (chEn && chSp) || decide (12 < n) then s.raise lntInt 6
  else if chSp then
    let old := s.spadWays
    let s := (s.setRfld lntCtrl 1 4 n).setRbit lntStatus 1 true
    let s := { s with lnt := { s.lnt with changing := true } }
    s.onlyIf (decide (old < n)) fun s => s.dropWays (16 - n) (16 - old)
  else if newEn then (s.setRbit lntCtrl 0 true).setRbit lntStatus 8 false
  else ({ s with lnt := { s.lnt with disabling := true } } : State).setRbit lntStatus 1 true

/-- LNT_SPAD_CHANGE. -/
def execLntSpadChange (n : Fin 16) (s : State) : Host.Outcome State Fault Refusal :=
  .next (s.lntCtrlWrite (setFld (s.reg lntCtrl) 1 4 n))

/-- LNT_SPAD_DONE: ways added are zero, ways released join the cache empty (R340). -/
def execLntSpadDone (s : State) : Host.Outcome State Fault Refusal :=
  .next (if s.lnt.changing then
      let lo := 16 - max s.spadActive s.spadWays
      let hi := 16 - min s.spadActive s.spadWays
      let keep (e : Nat × LLine) : Bool := !(decide (lo ≤ e.1 % 16) && decide (e.1 % 16 < hi))
      let s := { s with lnt := { s.lnt with lines := s.lnt.lines.filter keep, changing := false } }
      let s := s.onlyIf (decide (s.spadActive < s.spadWays)) fun s => s.each (upto 16) fun s w =>
        s.onlyIf (decide (lo ≤ w) && decide (w < hi)) fun s => s.sramSwept w 0 393216
      (((s.setRfld lntStatus 4 4 s.spadWays).setRbit lntStatus 1 false).raise lntInt 5).serveWaiting
    else s)

/-- LNT_DISABLE. -/
def execLntDisable (s : State) : Host.Outcome State Fault Refusal := .next (s.lntCtrlWrite (putBit (s.reg lntCtrl) 0 false))

/-- LNT_ENABLE. -/
def execLntEnable (s : State) : Host.Outcome State Fault Refusal := .next (s.lntCtrlWrite (putBit (s.reg lntCtrl) 0 true))

/-- LNT_DISABLE_DONE: no line is left, and the cache is bypassed (R343). -/
def execLntDisableDone (s : State) : Host.Outcome State Fault Refusal :=
  .next (if s.lnt.disabling then
      let s := s.dropWays 0 s.cacheWays
      let s := { s with lnt := { s.lnt with disabling := false } }
      ((((s.setRbit lntCtrl 0 false).setRbit lntStatus 1 false).setRbit lntStatus 8 true).raise lntInt 1)
    else s)

/-! ## Range maintenance (R341, R342) -/

/-- LNT_RM_CMD with GO 1: the request starts, queues, or is dropped; OP 0 is ignored (R342). -/
def State.rmGo (s : State) (op : Nat) (all : Bool) : State :=
  if op = 0 then s
  else
    let r : RmReq := { op := op, start := s.rfld (regAddr bLNT 0x10) 0 29, len := s.rfld (regAddr bLNT 0x14) 0 29, all := all }
    match s.lnt.rm, s.lnt.rmq with
    | none, _ => ({ s with lnt := { s.lnt with rm := some r } } : State).setRbit lntStatus 2 true
    | some _, none => ({ s with lnt := { s.lnt with rmq := some r } } : State).setRbit lntStatus 3 true
    | some _, some _ => s.raise lntInt 3

/-- A write of LNT_RM_CMD keeps OP and ALL; GO acts and reads 0. -/
def State.rmCmdWrite (s : State) (v : W) : State :=
  let s := s.setReg (regAddr bLNT 0x18) (v &&& 7)
  s.onlyIf (bitAt v 4) fun s => s.rmGo (fld v 0 2) (bitAt v 2)

/-- LNT_RM_GO. -/
def execLntRmGo (op : Fin 4) (all : Bool) (s : State) : Host.Outcome State Fault Refusal :=
  .next (s.rmCmdWrite (BitVec.ofNat 32 (op + (if all then 4 else 0) + 16)))

/-- A request covers a line. -/
def RmReq.covers (r : RmReq) (line : Nat) : Bool := r.all || (decide (r.start ≤ line) && decide (line < r.start + r.len))

/-- What a request does to the line in entry `k` of the cache. DESIGN CHOICE (log 113): one whose tag cannot be read stays. -/
def State.rmLine (s : State) (r : RmReq) (k : Nat) : State :=
  let t := s.sramRead 16 k .clean
  let s := t.1
  let l := s.lline k
  if eccBad t.2 then s
  else if l.valid && decide (k % 16 < s.cacheWays) && r.covers (l.tag * 24576 + k / 16) then
    let s := s.onlyIf (r.op != 2) fun s => s.cleanLine k (k % 16)
    s.onlyIf (r.op != 1) fun s => s.setTagged k { s.lline k with valid := false, dirty := false, poison := false }
  else s

/-- What a request does to the eviction buffer (Table 11.3): a clean waits for its write-backs, an invalidate cancels those
that have not left. -/
def State.rmEvb (s : State) (r : RmReq) : State :=
  let hit (e : Evict) : Bool := r.covers e.line && (r.op != 2 || !e.left)
  let out := s.lnt.evb.filter hit
  let s := { s with lnt := { s.lnt with evb := s.lnt.evb.filter fun e => !hit e } }
  s.onlyIf (r.op != 2) fun s => s.each out fun s e => s.storeLine e.line e.data e.poison

/-- LNT_RM_DONE: the request's guarantee holds, and the queued one starts; a disable walk goes first (R341 to R343). -/
def execLntRmDone (s : State) : Host.Outcome State Fault Refusal :=
  .next (match s.lnt.rm with
    | none => s
    | some r =>
      if s.lnt.disabling then s
      else
        let s := s.rmEvb r
        let s := s.each (s.lnt.lines.map Prod.fst) fun s k => s.rmLine r k
        let s := (s.raise lntInt 2).setRbit lntStatus 3 false
        let s := s.setRbit lntStatus 2 s.lnt.rmq.isSome
        ({ s with lnt := { s.lnt with rm := s.lnt.rmq, rmq := none } } : State).serveWaiting)

/-! ## SRAM remap and test mode -/

/-- Put a word of a macro group. -/
def State.setSramWord (s : State) (g w v : Nat) : State :=
  let lo := BitVec.ofNat 32 v
  let hi := BitVec.ofNat 32 (v / 2 ^ 32)
  let pair (t : Tbl W) : Tbl W := tset (fun _ => 0) (tset (fun _ => 0) t (2 * w) lo) (2 * w + 1) hi
  if g < 16 then
    let l := s.lline (16 * (w / 16) + g)
    let d := splice l.bytes (8 * (w % 16)) (leBytes 8 v)
    s.setLline (16 * (w / 16) + g) { l with data := if d = List.replicate 128 0 && !l.valid then [] else d }
  else if g = 16 then
    s.setLline w { s.lline w with valid := v.testBit 0, dirty := v.testBit 1, poison := v.testBit 2, tag := v / 8 }
  else if 22 ≤ g ∧ g ≤ 25 then s.modOrd (g - 22) fun o => { o with store := pair o.store }
  else if g = 26 then { s with svo := { s.svo with mem := pair s.svo.mem } }
  else if g = 27 then { s with svo := { s.svo with cap := pair s.svo.cap } }
  else if g = 28 then { s with vgl := { s.vgl with save := pair s.vgl.save } }
  else if g = 29 then (s.setReg (regAddr bVGL (0x1000 + 8 * w)) lo).setReg (regAddr bVGL (0x1004 + 8 * w)) hi
  else s

/-- A remap entry names a row. -/
def State.bufNames (s : State) (g e row : Nat) : Bool := s.rbit (bufRemap g e) 0 && s.rfld (bufRemap g e) 4 14 == row

/-- The redirection of an entry ends: the original row's contents are used (R335). -/
def State.unmapRow (s : State) (g e : Nat) : State :=
  if s.rbit (bufRemap g e) 0 then
    let row := s.rfld (bufRemap g e) 4 14
    let old := tget (fun _ => []) s.buf.oldRows (8 * g + e)
    let s := s.each (upto old.length) fun s i =>
      (s.setSramWord g (64 * row + i) (lget ⟨0, none⟩ old i).data).setSramMark g (64 * row + i) (lget ⟨0, none⟩ old i).mark
    { s with buf := { s.buf with oldRows := tset (fun _ => []) s.buf.oldRows (8 * g + e) [] } }
  else s

/-- A write of BUF_REMAPg_e (R335). -/
def State.bufRemapWrite (s : State) (g e : Nat) (v : W) : State :=
  let a := bufRemap g e
  let old := s.reg a
  let row := fld v 4 14
  if bitAt old 1 then s
  else if bitAt v 0 && (upto 8).any fun x => x != e && s.bufNames g x row then s
  else if bitAt v 0 && bitAt old 0 && fld old 4 14 == row then s
  else (s.unmapRow g e).setReg a (putBit (v &&& 0x3FFF1) 1 (bitAt v 0))

/-- BUF_REMAP_WRITE. -/
def execBufRemapWrite (g : Fin 32) (e : Fin 8) (v : BitVec 32) (s : State) : Host.Outcome State Fault Refusal :=
  .next (s.bufRemapWrite g e v)

/-- REMAP_COPY_DONE. -/
def execRemapCopyDone (mem : Bool) (g : Fin 32) (e : Fin 16) (s : State) : Host.Outcome State Fault Refusal :=
  .next (if mem then (if g.val < 4 then (s.memCopyDone g e).serveWaiting else s)
    else if e.val < 8 then (s.bufCopyDone g e).serveWaiting else s)

/-- BUF_ECC_TEST_ARM (R337). -/
def execBufEccTestArm (s : State) : Host.Outcome State Fault Refusal := .next (s.setRbit (regAddr bBUF 0x14) 5 true)

/-- MEM_TRAINING_DONE: ready with every channel trained, else TRAIN_FAIL and never ready (R324). -/
def execMemTrainingDone (channels : BitVec 4) (s : State) : Host.Outcome State Fault Refusal :=
  .next (if s.rbit memStatus 1 then
      let s := (s.setRbit memStatus 1 false).setRfld memStatus 4 4 channels.toNat
      if channels = 15 then (s.setRbit memStatus 0 true).serveWaiting
      else (s.setRbit memStatus 3 true).raise memInt 5
    else s)

/-! ## The stripe parity engine (R54, R56, R301, R346) -/

/-- XOR of two rows of bytes. -/
def xorRow : List Byte → List Byte → List Byte
  | a :: as, b :: bs => (a ^^^ b) :: xorRow as bs
  | [], bs => bs
  | as, [] => as

/-- P of data slots, given with their numbers (R54). -/
def parityP (ds : List (Nat × List Byte)) : List Byte := ds.foldl (fun r d => xorRow r d.2) (List.replicate 4096 0)

/-- Q of data slots, given with their numbers (R54). -/
def parityQ (ds : List (Nat × List Byte)) : List Byte :=
  ds.foldl (fun r d => xorRow r (d.2.map (gfPow d.1))) (List.replicate 4096 0)

/-- Data slots of a request. -/
def parSlots (r : ParReq) : Nat := r.slots.length - (if r.two then 2 else 1)

/-- Read sectors by slot: the first status that is not 0, and the bytes of each slot that read well. A fill slot is zero and is not
read (R55). -/
def State.readSlots (s : State) (r : ParReq) (slots : List Nat) (find : EccFind) : State × Nat × List (Nat × List Byte) :=
  slots.foldl (fun (x : State × Nat × List (Nat × List Byte)) i =>
    if r.fill.contains i then (x.1, x.2.1, x.2.2 ++ [(i, List.replicate 4096 0)])
    else
    let addr := lget 0 r.slots i
    let y := (upto 32).foldl (fun (y : State × Nat × List Byte) j =>
      let p : Piece := { line := addr / 128 + j, off := 0, data := none, len := 128 }
      let a : BufAcc := { addr := addr + 128 * j, len := 128, lnt := if i = 0 && j = 0 then find else .clean }
      match y.1.bufPiece p a with
      | .waits s => (s, y.2.1, y.2.2 ++ List.replicate 128 0)
      | .done s st b => (s, if y.2.1 = 0 then st else y.2.1, y.2.2 ++ b)) (x.1, 0, [])
    (y.1, if x.2.1 = 0 then y.2.1 else x.2.1, if y.2.1 = 0 then x.2.2 ++ [(i, y.2.2)] else x.2.2)) (s, 0, [])

/-- What goes into a slot: its user bytes and, where the request gives them, its own metadata with a CRC computed now (R54, R56). -/
def parSector (r : ParReq) (i : Nat) (b : List Byte) : List Byte :=
  match (r.metas.drop i).head? with
  | some m => withMeta m b
  | none => b

/-- Write a slot. -/
def State.writeSlot (s : State) (r : ParReq) (i : Nat) (bytes : List Byte) : State :=
  s.serve 40 { addr := lget 0 r.slots i, len := (parSector r i bytes).length, data := some (parSector r i bytes) }

/-- The missing data slots from the others, and whether a parity not used agrees (R54, R56, R301). -/
def parSolve (r : ParReq) (have_ : List (Nat × List Byte)) : Option (List (Nat × List Byte) × Bool) :=
  let d := (parSlots r)
  let row (i : Nat) : List Byte := match have_.find? fun x => x.1 == i with
    | some x => x.2
    | none => []
  let ds := have_.filter fun x => decide (x.1 < d)
  let lost := r.missing.filter fun i => decide (i < d)
  let hasP := !r.missing.contains d
  let hasQ := r.two && !r.missing.contains (d + 1)
  match lost with
  | [] => some ([], true)
  | [i] =>
    if hasP then
      let x := xorRow (row d) (parityP ds)
      some ([(i, x)], !hasQ || parityQ (ds ++ [(i, x)]) == row (d + 1))
    else if hasQ then
      some ([(i, (xorRow (row (d + 1)) (parityQ ds)).map (gfMul (gfInv (gfPow i 1))))], true)
    else none
  | [i, j] =>
    if hasP && hasQ then
      let a := xorRow (row d) (parityP ds)
      let b := xorRow (row (d + 1)) (parityQ ds)
      let inv := gfInv (gfPow i 1 ^^^ gfPow j 1)
      let x := (xorRow b (a.map (gfPow j))).map (gfMul inv)
      some ([(i, x), (j, xorRow a x)], true)
    else none
  | _ => none

/-- PAR_BUSY and PAR_QUEUED (Table 11.6). -/
def State.parStatus (s : State) : State :=
  s.setReg (regAddr bBUF 0x4) (BitVec.ofNat 32 ((if s.buf.par.isSome then 1 else 0) + 2 * s.buf.parq.length))

/-- PARITY_REQUEST: queued behind its like, a rebuild ahead of parity work, up to 32 of them (R346). -/
def execParityRequest (req : ParReq) (s : State) : Host.Outcome State Fault Refusal :=
  .next (match s.buf.par with
    | none => ({ s with buf := { s.buf with par := some req } } : State).parStatus
    | some cur =>
      if 32 ≤ s.buf.parq.length then s
      else if req.rebuild && !cur.rebuild then
        ({ s with buf := { s.buf with par := some req, parq := cur :: s.buf.parq } } : State).parStatus
      else if req.rebuild then
        let (rs, ps) := s.buf.parq.partition fun r => r.rebuild
        ({ s with buf := { s.buf with parq := rs ++ [req] ++ ps } } : State).parStatus
      else ({ s with buf := { s.buf with parq := s.buf.parq ++ [req] } } : State).parStatus)

/-- The slots that a request reads. -/
def parSources (r : ParReq) : List Nat :=
  if r.rebuild then (upto r.slots.length).filter fun i => !r.missing.contains i else upto (parSlots r)

/-- The slots of a request whose data cannot be read: in a rebuild they count as failed (R346). -/
def State.unreadable (s : State) (r : ParReq) (find : EccFind) : List Nat :=
  let x := s.readSlots r (parSources r) find
  (parSources r).filter fun i => !x.2.2.any fun e => e.1 == i

/-- A read of the request waits: Lantern initialises, or the line or its memory is not at hand (R335, R339, R345). -/
def State.parWaits (s : State) (r : ParReq) : Bool :=
  s.rbit lntStatus 0 || ((parSources r).filter fun i => !r.fill.contains i).any fun i => (upto 32).any fun j =>
    decide (128 * (lget 0 r.slots i / 128 + j) < s.bufLimit) && s.lineWaits (lget 0 r.slots i / 128 + j)

/-- What a request does when the engine finishes it: P and Q written and fill slots made zero, or the missing slots rebuilt and
checked; a source that cannot be read fails it with its status (R54 to R56, R301, R346). -/
def State.parityRun (s : State) (r : ParReq) (find : EccFind) : State × Nat :=
  let x := s.readSlots r (parSources r) find
  if r.rebuild then
    let fail (s : State) (st : Nat) : State × Nat := ((s.count (bufCtr 2)).raise bufInt 4, st)
    if x.2.1 ≠ 0 then fail x.1 x.2.1
    else match parSolve r x.2.2 with
      | none => fail x.1 0x143
      | some (out, ok) =>
        if ok then ((x.1.each out fun s o => s.writeSlot r o.1 o.2).count (bufCtr 1), 0) else fail x.1 0x143
  else
    if x.2.1 ≠ 0 then (x.1, x.2.1)
    else
      let s := x.1.each (r.fill.filter fun i => decide (i < parSlots r)) fun s i => s.writeSlot r i (List.replicate 4096 0)
      let s := s.writeSlot r (parSlots r) (parityP x.2.2)
      let s := s.onlyIf r.two fun s => s.writeSlot r ((parSlots r) + 1) (parityQ x.2.2)
      (s.count (bufCtr 0), 0)

end Sys2Proof.Machine
end

