-- ==== Sys2Proof/Machine/PwrCore.lean ====
section
/-!
DEFINITION. The choice of the power level (R444 to R447) and what an event makes of an entry, an exit or a level (R449).
-/
namespace Sys2Proof.Machine

def pwrCtrl := regAddr bPWR 0x0
def pwrStatus := regAddr bPWR 0x4
def pwrInt := regAddr bPWR 0x8
def pwrIdle (n : Nat) := regAddr bPWR (0xC + 4 * n)
def pwrWakeEn := regAddr bPWR 0x24
def pwrSaveCfg := regAddr bPWR 0x28
/-- PWR_CNT_ENTRY, REVERSED, WAKE and RESTORE_FAIL (Table 16.9). -/
def pwrCtr (i : Nat) : Ctr := ⟨regAddr bPWR (0x40 + 4 * i), regAddr bPWR 0x50, i, pwrInt, 5, 32⟩

def vglStatus := regAddr bVGL 0x0
def vglInt := regAddr bVGL 0x4
def vglWakeSrc := regAddr bVGL 0x40
/-- Vigil bank word `n`, the one home of every RV register (R463, Table 21.2). -/
def bankAddr (n : Nat) := regAddr bVGL (0x1000 + 4 * n)

def hifCtrl (p : Nat) := regAddr (bHIF p) 0x0
def hifStatus (p : Nat) := regAddr (bHIF p) 0x4
def hifInt (p : Nat) := regAddr (bHIF p) 0x8
def hifMode (p : Nat) := regAddr (bHIF p) 0x10
def hifQlimit (p : Nat) := regAddr (bHIF p) 0x20
/-- HIF_CNT_FEC_CORR, FEC_UNCORR, FCS_ERR, RX_DROP, BP, WAKE_DROP and VIOL (Table 13.7). -/
def hifCtr (p i : Nat) : Ctr := ⟨regAddr (bHIF p) (0x40 + 4 * i), regAddr (bHIF p) 0x5C, i, hifInt p, 8, 32⟩
/-- HIF_LATTOL, HIF_WAKE_CTRL and HIF_WAKE_CODE of port `p`, in the bank. -/
def hifLattol (p : Nat) := bankAddr (17 + 3 * p)
def hifWakeCtrl (p : Nat) := bankAddr (18 + 3 * p)
def hifWakeCode (p : Nat) := bankAddr (19 + 3 * p)

def qmgCtrl := regAddr bQMG 0x0
def qmgInt := regAddr bQMG 0x8
/-- QMG_CNT_CMDS, ERR, ABORTED, NOT_ABORTED, HELD, RESEND and DISCARD (Table 14.6). -/
def qmgCtr (i : Nat) : Ctr := ⟨regAddr bQMG (0x60 + 4 * i), regAddr bQMG 0x7C, i, qmgInt, 4, 32⟩

/-- JUB_Lk registers (Table 15.6). -/
def jubL (k off : Nat) := regAddr bJUB (0x100 + 0x40 * k + off)

/-! ## Contexts and hosts, as power sees them -/

def State.ctxAt (s : State) (c : Nat) : Option Ctx := tget (fun _ => none) s.ctx c
def State.setCtx (s : State) (c : Nat) (x : Option Ctx) : State := { s with ctx := tset (fun _ => none) s.ctx c x }
def State.hifP (s : State) (p : Nat) : HifPort := tget (fun _ => {}) s.hif p
def State.setHif (s : State) (p : Nat) (x : HifPort) : State := { s with hif := tset (fun _ => {}) s.hif p x }

/-- A context that keeps QMG from being idle: Arrived, Waiting, Running or Committed (Table 14.7). DEDUCED: an outstanding
Asynchronous Event Request does not, nor a Firmware Commit that waits for activation, since QMG could never be idle otherwise
(R406, R408). -/
def Ctx.busy (x : Ctx) : Bool := x.st != .held && !(x.st == .running && !x.ended && match x.cmd.op with
  | .asyncEvent => true
  | .fwCommit _ 3 => x.begun
  | _ => false)

/-- QMG_STATUS.IDLE. -/
def State.qmgIdle (s : State) : Bool := s.ctx.all fun e => match e.2 with
  | some x => !x.busy
  | none => true

/-- An engine has an empty queue and is Halted or Idle. -/
def State.ordIdle (s : State) (n : Nat) : Bool := (s.ordP n).queue.isEmpty && (s.ordP n).phase == .idle

/-- The controller is idle (R445). Firmware's own work counts as FW_BUSY does. -/
def State.isIdle (s : State) : Bool :=
  s.qmgIdle && (upto 4).all (fun n => s.ordIdle n) && (upto 2).all (fun k => s.rfld (jubL k 4) 3 4 != 3) && !s.rbit pwrCtrl 4 && s.fw.jobs.isEmpty &&
  s.rfld calStatus 0 4 == 0

/-! ## The target level (R444, R446) -/

/-- PWR_STATUS.LEVEL: 6 is PL5-hold. -/
def State.level (s : State) : Nat := s.rfld pwrStatus 0 3

/-- Exit latency of PL1 to PL4 in ms; PL1's 20 µs counts as 1 ms (Table 16.2). -/
def exitMs (n : Nat) : Nat := lget 0 [0, 1, 350, 5000, 20000] n

/-- The smallest tolerance among associated ports, in ms. -/
def State.minTol (s : State) : Option Nat :=
  ((upto 4).filter fun p => s.rbit (hifStatus p) 6).foldl (fun m p =>
    let t := s.rfld (hifLattol p) 0 20
    match m with
    | some x => some (min x t)
    | none => some t) none

/-- L_tol (R444). PL1 qualifies for a tolerance of 0 only if 20 µs do not exceed it, so not. -/
def State.lTol (s : State) : Nat :=
  match s.minTol with
  | none => 4
  | some t => ([1, 2, 3, 4].filter fun n => decide (exitMs n ≤ t)).foldl max 0

/-- L_idle: the deepest level whose idle time has passed, or is taken to have passed by a Power Management request (R444, R446). -/
def State.lIdle (s : State) : Nat :=
  if !s.isIdle then 0
  else
    let k := s.pwr.psReq
    let asked := if k = 0 then 0 else
      ([1, 2, 3, 4].filter fun n => decide (s.rfld (pwrIdle n) 0 24 ≤ s.rfld (pwrIdle k) 0 24)).foldl max 0
    max s.pwr.idle asked

/-- T (R444). -/
def State.targetLevel (s : State) : Nat :=
  if s.rbit pwrCtrl 0 then min (min s.lTol s.lIdle) (s.rfld pwrCtrl 1 3) else 0

/-- PWR_STATUS follows the state of PWR. -/
def State.pwrShow (s : State) : State :=
  let s := s.setRbit pwrStatus 6 s.pwr.entry.isSome
  s.setRbit pwrStatus 7 s.pwr.exit.isSome

/-- Steps of the entry into a level (Table 16.3). -/
def levelSteps (l : Nat) : Nat := lget 0 [0, 3, 7, 2, 7, 3] l

/-- An exit from level `l` to `goal` begins: the steps of each level are reversed, the last one first; `exit` holds the
level being left and how many of its steps are still to be reversed. -/
def State.beginExit (s : State) (l goal : Nat) : State :=
  if l ≤ goal then s else ({ s with pwr := { s.pwr with exit := some (l, levelSteps l), goal := goal, wake := false, tAt := s.rfld pwrStatus 3 3 } } : State).pwrShow

/-- An entry towards `goal` begins; VGL_WAKE_SRC is cleared (Table 16.9). -/
def State.beginEntry (s : State) (goal : Nat) : State :=
  if goal ≤ s.level then s
  else (({ s with pwr := { s.pwr with entry := some (s.level + 1, 0), goal := goal, wake := false, tAt := s.rfld pwrStatus 3 3 } } : State).setReg vglWakeSrc 0).pwrShow

/-- PWR recomputes T and, with no entry or exit under way, acts on it (R444, R449). -/
def State.pwrRecompute (s : State) : State :=
  let s := s.onlyIf (!s.isIdle) fun s => { s with pwr := { s.pwr with idle := 0 } }
  let t := s.targetLevel
  let s := s.setRfld pwrStatus 3 3 t
  if s.pwr.entry.isSome || s.pwr.exit.isSome || decide (4 < s.level) then s
  else if s.level < t then s.beginEntry t
  else s.beginExit s.level t

/-! ## Events (R449) -/

/-- A capsule or an enabled wake source (Table 16.4): an entry before its point of no return is reversed to PL0; after it, an
exit follows the entry; in a level the exit starts; in an exit nothing changes. -/
def State.pwrEvent (s : State) : State :=
  match s.pwr.entry, s.pwr.exit with
  | some (l, k), _ =>
    if s.rbit pwrStatus 8 then { s with pwr := { s.pwr with wake := true } }
    else
      let s := { s with pwr := { s.pwr with entry := none, exit := some (l, k), goal := 0, wake := false } }
      (((s.raise pwrInt 1).count (pwrCtr 1))).pwrShow
  | none, some _ => { s with pwr := { s.pwr with goal := 0 } }
  | none, none =>
    if s.level = 6 then
      ({ s with pwr := { s.pwr with exit := some (6, 0), goal := 0 } } : State).pwrShow
    else s.beginExit s.level 0

/-- Levels in which a wake source acts (Table 16.5). -/
def wakeActs (k level : Nat) : Bool :=
  match k with
  | 0 => level == 4
  | 1 => decide (1 ≤ level) && decide (level ≤ 4)
  | 2 => decide (1 ≤ level) && decide (level ≤ 5)
  | 3 => decide (1 ≤ level) && decide (level ≤ 4)
  | 4 => decide (2 ≤ level) && decide (level ≤ 4)
  | 5 => decide (1 ≤ level) && decide (level ≤ 5)
  | 6 => decide (1 ≤ level) && decide (level ≤ 5)
  | 7 => decide (1 ≤ level) && decide (level ≤ 4)
  | _ => false

/-- Whether source `k` acts now: the level allows it and its bit is 1, in PWR_WAKE_EN for PL1 to PL4 and PL5-hold, in
VGL_WAKE_EN for PL5 (R451, R458). During an entry the level being entered counts. -/
def State.wakeEnabled (s : State) (k : Nat) : Bool :=
  let l := if s.vgl.mainLow then 5 else match s.pwr.entry with
    | some (l, _) => max l 1
    | none => s.level
  if l = 6 then s.rbit pwrWakeEn k
  else wakeActs k l && (if l = 5 then s.rbit (bankAddr 5) k else s.rbit pwrWakeEn k)

/-- A wake source arrives: recorded in VGL_WAKE_SRC and acted on (R449, R451). In PL5 it releases VGL_MAIN_EN (R460). -/
def State.wakeBy (s : State) (k : Nat) : State :=
  if s.wakeEnabled k then
    let s := s.setRbit vglWakeSrc k true
    if s.vgl.mainLow then { s with vgl := { s.vgl with mainLow := false } }
    else if s.pwr.exit.isSome then s else (((s.raise pwrInt 4).count (pwrCtr 2))).pwrEvent
  else s

/-- The controller is not at PL0 with nothing under way: a capsule taken is Held (R406, R449). -/
def State.pwrAway (s : State) : Bool := decide (s.level ≠ 0) || s.pwr.entry.isSome || s.pwr.exit.isSome

end Sys2Proof.Machine
end

