-- ==== Sys2Proof/Machine/Fls.lean ====
section
/-!
DEFINITION. The firmware flash, the OTP row and the keys (R485 to R506).
-/
namespace Sys2Proof.Machine

def flsCtrl := regAddr bFLS 0x0
def flsStatus := regAddr bFLS 0x4
def flsInt := regAddr bFLS 0x8
def flsCmdReg := regAddr bFLS 0x10
def flsMargin := regAddr bFLS 0x18
def flsLastErr := regAddr bFLS 0x1C
/-- FLS_CNT_PROG, ERASE, CORR, UNCORR and CONFLICT (Table 17.10). -/
def flsCtr (i : Nat) : Ctr := ⟨regAddr bFLS (0x40 + 4 * i), regAddr bFLS 0x54, i, flsInt, 5, 32⟩
def clkReset := regAddr bCLK 0x0
def clkCause := regAddr bCLK 0x4
def clkInt := regAddr bCLK 0x8
def clkStatus := regAddr bCLK 0x10
def idesCfg := regAddr bCLK 0x20
def idesExp := regAddr bCLK 0x2C
/-- CLK_BOOT, in the Vigil bank (Table 21.2). -/
def clkBoot := bankAddr 15
def secStatus := regAddr bSEC 0x4
def secInt := regAddr bSEC 0x8
def secCmdReg := regAddr bSEC 0x10

def State.modFls (s : State) (f : Fls → Fls) : State := { s with fls := f s.fls }

/-! ## Pages -/

/-- A page's bytes; an erased page reads as all ones (R487). -/
def erasedPage : List Byte := List.replicate 512 0xFF
/-- A page as it reads: as programmed, else as the part shipped with it, else erased (R5). -/
def State.flsPage (s : State) (block page : Nat) : List Byte :=
  let v := tget (fun _ => erasedPage) s.fls.pages (512 * block + page)
  if v = erasedPage ∧ s.fls.shipped.contains block then Config.shippedPage (512 * block + page) else v

/-- The page after a block's highest programmed page (R491). -/
def State.flsTop (s : State) (block : Nat) : Nat :=
  max (tget (fun _ => 0) s.fls.top block) (if s.fls.shipped.contains block then Config.shippedTop block else 0)

/-- A page is programmed. -/
def State.storePage (s : State) (block page : Nat) (data : List Byte) : State :=
  s.modFls fun f => { f with
    pages := tset (fun _ => erasedPage) f.pages (512 * block + page) data
    top := tset (fun _ => 0) f.top block (max (tget (fun _ => 0) f.top block) (page + 1)) }

/-- A block loses its pages. -/
def State.clearBlock (s : State) (block : Nat) : State :=
  s.modFls fun f => { f with
    shipped := f.shipped.filter fun b => b != block
    pages := tdrop f.pages (512 * block) (512 * block + 512), top := tset (fun _ => 0) f.top block 0 }

/-- Page 0 of a block is a valid block header (Table 17.5). -/
def State.headerOk (s : State) (block : Nat) : Bool :=
  let p := s.flsPage block 0
  leNat (p.take 4) == 0x42464C48 && leNat ((p.drop 4).take 4) == block && leNat ((p.drop 12).take 4) == (crc32c (p.take 12)).toNat

/-- The block header with an erase count. -/
def blockHeader (block count : Nat) : List Byte :=
  let b := leBytes 4 0x42464C48 ++ leBytes 4 block ++ leBytes 4 count
  b ++ leBytes 4 (crc32c b).toNat ++ List.replicate 496 0xFF

/-- A block has been erased and verified: its header is programmed, with the old count plus 1, or 0 (R493). -/
def State.eraseBlock (s : State) (block : Nat) : State :=
  let n := if s.headerOk block then (leNat (((s.flsPage block 0).drop 8).take 4) + 1) % 2 ^ 32 else 0
  ((s.clearBlock block).storePage block 0 (blockHeader block n)).count (flsCtr 1)

/-- A page program that firmware makes on its own (R498, R500). -/
def State.writePage (s : State) (block page : Nat) (data : List Byte) : State := (s.storePage block page data).count (flsCtr 0)

/-- The highest programmed pages, found again (R491). -/
def State.rebuildTop (s : State) : State :=
  s.modFls fun f => { f with top := f.pages.foldl (fun t e =>
    tset (fun _ => 0) t (e.1 / 512) (max (tget (fun _ => 0) t (e.1 / 512)) (e.1 % 512 + 1))) [] }

/-! ## Reads (R486, R487, R490) -/

/-- The key of a requester in the table of fetch banks: application cores 0 to 7, management cores 8 and 9, DBG 10 (R490). -/
def fetchKey : Requester → Option Nat
  | .cpu c => some c
  | .mgtCore c => some (8 + c)
  | .mgtPort => none
  | .dbg => some 10

/-- An operation runs on a bank. -/
def State.flsBankBusy (s : State) (bank : Nat) : Bool :=
  match s.fls.op with
  | some (.program b _ _) => b / 64 == bank
  | some (.almanac i _) => almBlock i / 64 == bank
  | some (.erase b) => b / 64 == bank
  | none => false

/-- The finding of a read is counted, and recorded where it is uncorrectable; an erased page has none (R487). -/
def State.flashFound (s : State) (q : FlashWait) : State :=
  let blank := s.flsPage q.block q.page == erasedPage
  let s := s.onlyIf (q.find == 1 && !blank) fun s => (s.count (flsCtr 2)).raise flsInt 3
  s.onlyIf (q.find == 2 && !blank) fun s =>
    ((s.count (flsCtr 3)).raise flsInt 2).setReg flsLastErr (BitVec.ofNat 32 (q.block + 256 * q.page + 2 ^ 17))

/-- The bank of a requester's instruction fetch is noted (R490). -/
def State.flashFetched (s : State) (q : FlashWait) : State :=
  match fetchKey q.src with
  | some k => s.onlyIf q.fetch fun s => s.modFls fun f => { f with fetch := tset (fun _ => none) f.fetch k (some (q.block / 64)) }
  | none => s

/-- The page is returned: beyond correction as it was read, which is free (log 125). -/
def State.flashReturn (s : State) (q : FlashWait) : State :=
  let pg := s.flsPage q.block q.page
  if q.find = 2 ∧ pg ≠ erasedPage then
    ({ s with free := s.free + 512 } : State).emit (.flashData q.block q.page ((upto 512).map fun i => (Config.freeWord (s.free + i)).setWidth 8))
  else s.emit (.flashData q.block q.page pg)

/-- A read takes place. -/
def State.flashServe (s : State) (q : FlashWait) : State := ((s.flashFound q).flashFetched q).flashReturn q

/-- A read of a bank on which a program or erase runs waits (R486). -/
def State.flashAsk (s : State) (q : FlashWait) : State :=
  if s.flsBankBusy (q.block / 64) then s.modFls fun f => { f with reads := f.reads ++ [q] } else s.flashServe q

/-- No operation runs any more: the reads that wait go on, the oldest first. -/
def State.flashServeAll (s : State) : State :=
  let l := s.fls.reads
  (s.modFls fun f => { f with reads := [] }).each l State.flashServe

/-! ## Reset of FLS (R475, R491, R497) -/

/-- FLS resets: its operation is gone, and it initialises. -/
def State.flsReset (s : State) : State :=
  (s.clearWindow bFLS).modFls fun f => { f with
    op := none, suspended := none, resumeAt := none, held := [], fetch := [], reads := [], otpData := 0 }

/-- The operation slot is free: what waited for it goes on: reads, the reset of FLS (R497), a suspended erase's state, ALM's next page. -/
def State.flsFree (s : State) : State :=
  let s := ((s.modFls fun f => { f with op := none }).setRbit flsStatus 4 false).flashServeAll
  if s.clk.flsHeld && s.fls.suspended.isNone then
    (((({ s with clk := { s.clk with flsHeld := false } } : State).flsReset).setRbit clkStatus 2 false)).raise clkInt 2
  else (s.setRfld flsStatus 0 2 (if s.fls.suspended.isSome then 2 else 0)).almKick

/-! ## The refusals of R489 -/

/-- The bank from which a requester last fetched an instruction. -/
def State.fetchBank (s : State) (r : Requester) : Option Nat :=
  match fetchKey r with
  | some k => tget (fun _ => none) s.fls.fetch k
  | none => none

/-- The status that FLS refuses a command with, 0 for none. OP: 1 PROGRAM, 2 ERASE, 4 RESUME, 5 MARGIN_READ, 6 OTP_PROGRAM.
RESUME is what a suspended erase waits for, so that it is not refused for it (R496). -/
def State.flsRefusal (s : State) (by_ : Requester) (op block page : Nat) : Nat :=
  let we := op == 1 || op == 2
  if we && !s.rbit flsCtrl 0 then 0x401
  else if s.fls.op.isSome || (s.fls.suspended.isSome && op != 1 && op != 4) then 0x401
  else if we && s.fetchBank by_ == some (block / 64) then 0x400
  else if we && decide (192 ≤ block) then 0x405
  else if op == 1 && (page == 0 || s.fls.suspended == some block || decide (page < s.flsTop block)) then 0x402
  else 0

/-- A command is refused (R489); BANK_CONFLICT is a violation of its requester too (R490, R539). -/
def State.flsRefuse (s : State) (code : Nat) : State :=
  let s := (s.setRfld flsStatus 16 16 code).raise flsInt 1
  if code = 0x400 then s.violate (flsCtr 4) flsInt 4 else s

/-- FLS_CMD as written; GO reads back 0. -/
def State.flsCmdShow (s : State) (op block page : Nat) : State := s.setReg flsCmdReg (BitVec.ofNat 32 (op + 16 * block + 4096 * page))

/-- An operation starts on a bank. -/
def State.flsStart (s : State) (o : FlsOp) (block : Nat) : State :=
  ((s.modFls fun f => { f with op := some o }).setRfld flsStatus 0 2 1).setRfld flsStatus 2 2 (block / 64)

/-- The program buffer. -/
def State.pbuf (s : State) : List Byte := ((upto 128).map fun w => leBytes 4 (s.reg (regAddr bFLS (0x400 + 4 * w))).toNat).flatten

/-! ## OTP (R502) -/

/-- A word of the OTP row. -/
def State.otpWord (s : State) (w : Nat) : W := tget (fun _ => 0) s.fls.otp w
/-- Sector `k` is locked. -/
def State.otpLocked (s : State) (k : Nat) : Bool := s.otpWord (896 + k) == 0x4C4F434B
/-- A word is programmed: once, its bits going from 0 to 1 (R502). DESIGN CHOICE (log 23): a word that holds a bit keeps what it holds. -/
def State.otpSet (s : State) (w : Nat) (v : W) : State :=
  if s.otpWord w = 0 then s.modFls fun f => { f with otp := tset (fun _ => 0) f.otp w v } else s
/-- Bytes of the OTP row. -/
def State.otpBytes (s : State) (off n : Nat) : List Byte :=
  ((((upto (n / 4 + 2)).map fun i => leBytes 4 (s.otpWord (off / 4 + i)).toNat).flatten).drop (off % 4)).take n

/-- The MAC address base, byte 0 first (Table 17.7), and the address of port `p` (R374). -/
def State.macOf (s : State) (p : Nat) : Nat := beNat (s.otpBytes 20 6) + p

/-- The OTP variant: 0 AH, 1 AM. -/
def State.variant (s : State) : Nat := leNat (s.otpBytes 26 1)

/-- The SVN floor: bits set among the first 256 of sector 4. -/
def State.svnFloor (s : State) : Nat := ((upto 8).map fun i => popCount 32 (s.otpWord (512 + i)).toNat).sum

/-! ## Commands -/

/-- What a command of FLS_CMD does once FLS is Ready; `bits` is the outcome of a margin read. -/
def State.flsGo (s : State) (by_ : Requester) (op block page bits : Nat) : State :=
  let code := s.flsRefusal by_ op block page
  if op = 3 then s
  else if code ≠ 0 then s.flsRefuse code
  else if op = 1 then s.flsStart (.program block page s.pbuf) block
  else if op = 2 then s.flsStart (.erase block) block
  else if op = 4 then match s.fls.suspended with
    | some b => (s.modFls fun f => { f with suspended := none, resumeAt := some s.vgl.wall }).flsStart (.erase b) b
    | none => s
  else if op = 5 then (s.setReg flsMargin (BitVec.ofNat 32 bits)).raise flsInt 0
  else if op = 6 then
    let w := s.rfld (regAddr bFLS 0x20) 0 10
    if s.otpLocked (w / 128) then s.flsRefuse 0x407 else (s.otpSet w s.fls.otpData).raise flsInt 0
  else s

/-- A GO: held while FLS initialises (R509). While it is held GO reads 1, and a 1 written then requests nothing further, unless hardware
clears GO in the same cycle (R18). -/
def State.flsCmd (s : State) (by_ : Requester) (op block page bits : Nat) (again : Bool := false) : State :=
  let s := s.flsCmdShow op block page
  if s.rfld flsStatus 0 2 = 3 then
    if s.fls.held.isEmpty || again then s.modFls fun f => { f with held := f.held ++ [(s.reg flsCmdReg, by_)] } else s
  else s.flsGo by_ op block page bits

/-- FLS_PROGRAM. -/
def execFlsProgram (by_ : Requester) (block : Fin 256) (page : Fin 512) (s : State) : Host.Outcome State Fault Refusal :=
  .next (s.flsCmd by_ 1 block page 0)

/-- FLS_ERASE. -/
def execFlsErase (by_ : Requester) (block : Fin 256) (s : State) : Host.Outcome State Fault Refusal :=
  .next (s.flsCmd by_ 2 block 0 0)

/-- FLS_RESUME. -/
def execFlsResume (by_ : Requester) (s : State) : Host.Outcome State Fault Refusal := .next (s.flsCmd by_ 4 0 0 0)

/-- FLS_MARGIN_READ. -/
def execFlsMarginRead (by_ : Requester) (block : Fin 256) (page : Fin 512) (bits : BitVec 13) (s : State) : Host.Outcome State Fault Refusal :=
  .next (s.flsCmd by_ 5 block page bits.toNat)

/-- FLS_OTP_PROGRAM. -/
def execFlsOtpProgram (by_ : Requester) (s : State) : Host.Outcome State Fault Refusal := .next (s.flsCmd by_ 6 0 0 0)

/-- A running erase is suspended. -/
def State.flsSuspendNow (s : State) : State :=
  match s.fls.op with
  | some (.erase b) =>
    ((((s.modFls fun f => { f with op := none, suspended := some b }).setRfld flsStatus 0 2 2)).setRbit flsStatus 4 false).flashServeAll.almKick
  | _ => s

/-- SUSPEND: it acts on a running erase only, and less than 2 ms after the last RESUME it is held (R496). -/
def State.flsSuspend (s : State) : State :=
  match s.fls.op, s.fls.resumeAt with
  | some (.erase _), some t => if s.vgl.wall < t + 2000000 then s.setRbit flsStatus 4 true else s.flsSuspendNow
  | some (.erase _), none => s.flsSuspendNow
  | _, _ => s

/-- FLS_SUSPEND. -/
def execFlsSuspend (s : State) : Host.Outcome State Fault Refusal := .next (s.flsCmdShow 3 0 0).flsSuspend

/-- FLS_SUSPEND_DEFERRED. -/
def execFlsSuspendDeferred (s : State) : Host.Outcome State Fault Refusal :=
  .next (if s.rbit flsStatus 4 then s.flsSuspendNow else s)

/-- ALM's page failed its verify: it is left programmed, and its bytes go to the next page (R492, R534). -/
def State.almPageFailed (s : State) : State :=
  let n := (s.reg almFlashPage).toNat
  let move (e : AlmEntry) : AlmEntry := match e.page with
    | some p => if n ≤ p then { e with page := some (p + 1) } else e
    | none => e
  let s := { s with alm := { s.alm with entries := s.alm.entries.map move } }
  s.setReg almFlashPage (BitVec.ofNat 32 (n + 1))

/-- The program under way ends (R492). -/
def State.flsProgramDone (s : State) (ok : Bool) (margin : Nat) : State :=
  let s := s.setReg flsMargin (BitVec.ofNat 32 margin)
  match s.fls.op with
  | some (.program b p d) =>
    let s := ((s.storePage b p d).count (flsCtr 0)).raise flsInt 0
    (s.onlyIf (!ok) fun s => (s.setRfld flsStatus 16 16 0x403).raise flsInt 1).flsFree
  | some (.almanac i d) =>
    let s := (s.storePage (almBlock i) (almBlockPage i) d).count (flsCtr 0)
    let s := if ok then s.almPageDone else s.almPageFailed
    s.flsFree
  | _ => s

/-- FLS_PROGRAM_DONE. -/
def execFlsProgramDone (ok : Bool) (margin : BitVec 13) (s : State) : Host.Outcome State Fault Refusal :=
  .next (match s.fls.op with
    | some (.erase _) => s
    | some _ => s.flsProgramDone ok margin.toNat
    | none => s)

/-- FLS_ERASE_DONE: the header is programmed, or the block is left without one (R493). -/
def execFlsEraseDone (ok : Bool) (margin : BitVec 13) (s : State) : Host.Outcome State Fault Refusal :=
  .next (match s.fls.op with
    | some (.erase b) =>
      let s := s.setReg flsMargin (BitVec.ofNat 32 margin.toNat)
      if ok then ((s.eraseBlock b).raise flsInt 0).flsFree
      else ((((s.clearBlock b).setRfld flsStatus 16 16 0x404).raise flsInt 0).raise flsInt 1).flsFree
    | _ => s)

/-- FLS_INIT_DONE: Ready, and what is held goes on (R491, R509). -/
def execFlsInitDone (bits : BitVec 13) (s : State) : Host.Outcome State Fault Refusal :=
  .next (if s.rfld flsStatus 0 2 ≠ 3 then s
    else
      let s := s.rebuildTop.setRfld flsStatus 0 2 0
      let s := s.almKick
      let held := s.fls.held
      (s.modFls fun f => { f with held := [] }).each held fun s c =>
        s.flsGo c.2 (fld c.1 0 3) (fld c.1 4 8) (fld c.1 12 9) bits.toNat)

/-- FLASH_READ. -/
def execFlashRead (by_ : Requester) (block : Fin 256) (page : Fin 512) (find : Fin 3) (fetch : Bool) (s : State) :
    Host.Outcome State Fault Refusal :=
  .next (s.flashAsk { src := by_, block := block, page := page, find := find, fetch := fetch })

/-! ## Images and commit records (R498 to R501) -/

/-- A partition or image header as it stands in the first data page (Table 17.5). -/
def imageField (h : List Byte) (off n : Nat) : Nat := leNat ((h.drop off).take n)

/-- What R501 asks of a header's plain fields; the hash and the signature are checked by the environment. -/
def State.headerVerifies (s : State) (h : List Byte) (image : Bool) : Bool :=
  imageField h 0 4 == (if image then 0x53494D47 else 0x54504152) && imageField h 4 4 == 1 &&
  (imageField h 13 1).testBit s.variant && decide (s.svnFloor ≤ imageField h 12 1)

/-- The first data page of an image slot: 0 A, 1 B. -/
def State.slotHeader (s : State) (slot : Nat) : List Byte := s.flsPage (64 * slot) 1

/-- A page holds a commit record whose magic and CRC match; its sequence number and slot (R499). -/
def commitOf (p : List Byte) : Option (Nat × Nat) :=
  if imageField p 0 4 = 0x434F4D54 ∧ imageField p 64 4 = (crc32c (p.take 64)).toNat then some (imageField p 4 8, imageField p 12 1) else none

/-- A record names the slot's image: one whose HEADER_HASH does not match it is ignored (R500). -/
def State.commitFits (s : State) (p : List Byte) : Bool :=
  (p.drop 16).take 48 == Config.sha384 ((s.slotHeader (imageField p 12 1)).take 176)

/-- The pages of the commit blocks that have been programmed, page 1 of block 144 as the part shipped among them. -/
def State.commitPages (s : State) : Tbl (List Byte) :=
  let listed := s.fls.pages.filter fun e => decide (512 * 144 ≤ e.1) && decide (e.1 < 512 * 146)
  if s.fls.shipped.contains 144 then (512 * 144 + 1, s.flsPage 144 1) :: listed else listed

/-- The newest commit record: block, page, sequence number, slot (R499). -/
def State.newestCommit (s : State) : Option (Nat × Nat × Nat × Nat) :=
  s.commitPages.foldl (fun m e =>
    match commitOf e.2 with
    | some (q, slot) =>
      if !s.commitFits e.2 then m
      else match m with
        | some (_, _, q', _) => if q' < q then some (e.1 / 512, e.1 % 512, q, slot) else m
        | none => some (e.1 / 512, e.1 % 512, q, slot)
    | none => m) none

/-- COMMIT_RECORD_WRITE: a record naming the slot goes into the next free page of the commit block in use, or into the other
block, and the full one is erased (R499, R500). REASON: 1 Firmware Commit, 3 management packet. -/
def State.commitWrite (s : State) (slot reason : Nat) : State :=
  let c := s.newestCommit
  let blk := match c with
    | some (b, _, _, _) => b
    | none => 144
  let seq := match c with
    | some (_, _, q, _) => q + 1
    | none => 1
  let h := (s.slotHeader slot).take 176
  let core := leBytes 4 0x434F4D54 ++ leBytes 8 seq ++ leBytes 1 slot ++ leBytes 1 reason ++ [0, 0] ++ Config.sha384 h
  let pg := core ++ leBytes 4 (crc32c core).toNat ++ List.replicate 444 0xFF
  let s := if s.flsTop blk < 512 then s.writePage blk (max 1 (s.flsTop blk)) pg
    else (s.writePage (289 - blk) 1 pg).eraseBlock blk
  s.almanac 0x8006 0xFFFF 0 [(4, slot), (4, reason), (8, leNat ((h.drop 16).take 8)), (8, leNat ((h.drop 24).take 8))]

/-- The data pages of a slot or partition, in block order and skipping every block header: `n` blocks from `block` (R488). -/
def dataPages (block n : Nat) : List (Nat × Nat) := ((upto n).map fun i => (upto 511).map fun p => (block + i, p + 1)).flatten

/-- Bytes are programmed into data pages, in order. -/
def State.writePages (s : State) : List (Nat × Nat) → List Byte → State
  | [], _ => s
  | (b, p) :: ps, l => if l.isEmpty then s
    else
      let d := l.take 512
      (s.writePage b p (d ++ List.replicate (512 - d.length) 0xFF)).writePages ps (l.drop 512)

/-- A slot or partition is erased and programmed with what has been staged (R498, R548). -/
def State.writeImage (s : State) (block n : Nat) (l : List Byte) : State :=
  (s.each ((upto n).map fun i => block + i) fun s b => s.eraseBlock b).writePages (dataPages block n) l

/-- A cluster reset: CLK_CAUSE records it, HALT clears, and the cluster starts again at boot step 6 (Table 17.1, R480, R582). -/
def State.clusterReset (s : State) : State :=
  let keep : List (Nat × Option Nat) := s.fls.fetch.filter fun e => decide (8 ≤ e.1)
  let s := s.modFls fun f => { f with fetch := keep }
  (({ s with clk := { s.clk with boot := 6, cluster := true, kicker := none } } : State).setRbit clkCause 6 true).setRbit (regAddr bDBG 0x0) 0 false

/-! ## Keys (R503 to R505) -/

def State.modSec (s : State) (f : Sec → Sec) : State := { s with sec := f s.sec }

/-- A wrapped key, drawn anew: 18 words that nothing in the spec determines. -/
def State.drawKey (s : State) : State × List W :=
  ({ s with free := s.free + 18 }, (upto 18).map fun i => Config.freeWord (s.free + i))

/-- The wrapped key in SEC_WRAP0 to 17. -/
def State.secWrap (s : State) : List W := (upto 18).map fun i => s.reg (regAddr bSEC (0x20 + 4 * i))

/-- SLOT_VALID and SLOTS_LOADED follow the slots (Table 17.10). -/
def State.secShow (s : State) : State :=
  let has (i : Nat) : Bool := !(tget (fun _ => []) s.sec.media i).isEmpty
  let mask (b : Nat) : Nat := (upto 32).foldl (fun m i => if has (b + i) then m + 2 ^ i else m) 0
  let s := (s.setReg (regAddr bSEC 0x80) (BitVec.ofNat 32 (mask 0))).setReg (regAddr bSEC 0x84) (BitVec.ofNat 32 (mask 32))
  s.setRfld secStatus 8 7 s.sec.media.length

/-- A key slot is filled, or cleared with no words. -/
def State.setKeySlot (s : State) (slot : Nat) (k : List W) : State :=
  (s.modSec fun c => { c with media := tset (fun _ => []) c.media slot k }).secShow

/-- SEC is busy with a command. -/
def State.secStart (s : State) (op slot : Nat) (psk : Bool) : State :=
  let s := s.setReg secCmdReg (BitVec.ofNat 32 (op + 8 * slot + if psk then 512 else 0))
  (s.modSec fun c => { c with cmd := some (op, slot, psk) }).setRbit secStatus 1 true

/-- GENERATE: the slot is filled and the wrapped key returned; a failed health test fills nothing. -/
def State.secGenerate (s : State) (slot : Nat) (entropyOk : Bool) : State :=
  if s.rbit secStatus 1 then s
  else
    let s := s.secStart 1 slot false
    if !entropyOk then s.raise secInt 2
    else
      let r := s.drawKey
      let s := r.1.setKeySlot slot r.2
      s.each ((upto 18).zip r.2) fun s e => s.setReg (regAddr bSEC (0x20 + 4 * e.1)) e.2

/-- SEC_GENERATE. -/
def execSecGenerate (slot : Fin 64) (entropyOk : Bool) (s : State) : Host.Outcome State Fault Refusal := .next (s.secGenerate slot entropyOk)

/-- UNWRAP of a media key into its slot, or of a PSK into its entry of the TLS key table (R504, R505). -/
def State.secUnwrap (s : State) (slot : Nat) (psk ok : Bool) : State :=
  if s.rbit secStatus 1 then s
  else
    let s := s.secStart 2 slot psk
    if !ok then (s.count ⟨regAddr bSEC 0xC0, regAddr bSEC 0xC4, 0, secInt, 3, 32⟩).raise secInt 1
    else if psk then s.onlyIf (decide (slot < 16)) fun s => s.modSec fun c => { c with psk := tset (fun _ => []) c.psk slot s.secWrap }
    else s.setKeySlot slot s.secWrap

/-- SEC_UNWRAP. -/
def execSecUnwrap (slot : Fin 64) (psk ok : Bool) (s : State) : Host.Outcome State Fault Refusal := .next (s.secUnwrap slot psk ok)

/-- CLEAR. -/
def State.secClear (s : State) (slot : Nat) (psk : Bool) : State :=
  if s.rbit secStatus 1 then s
  else
    let s := s.secStart 3 slot psk
    if psk then s.modSec fun c => { c with psk := tset (fun _ => []) c.psk slot [] } else s.setKeySlot slot []

/-- SEC_CLEAR. -/
def execSecClear (slot : Fin 64) (psk : Bool) (s : State) : Host.Outcome State Fault Refusal := .next (s.secClear slot psk)

/-- SEC_CMD_DONE. -/
def execSecCmdDone (s : State) : Host.Outcome State Fault Refusal :=
  .next (match s.sec.cmd with
    | some _ => ((s.modSec fun c => { c with cmd := none }).setRbit secStatus 1 false).raise secInt 0
    | none => s)

end Sys2Proof.Machine
end

