-- ==== Sys2Proof/Machine/FwCore.lean ====
section
/-!
DEFINITION. What firmware knows of namespaces, zones, the buffer and the staging rings (R57 to R79), and where an LBA is
served from (R76, R398).
-/
namespace Sys2Proof.Machine

/-! ## Zones, groups and namespaces -/

/-- D of a group (R53). -/
def Group.d (g : Group) : Nat := g.width - (if g.two then 2 else 1)
/-- P of a group. -/
def Group.p (g : Group) : Nat := if g.two then 2 else 1
/-- Main stripes of a band: B (R61). -/
def Group.stripes (g : Group) : Nat := ceilDiv 65536 g.d
/-- Spare stripes of a band (R61). -/
def Group.spareCount (g : Group) : Nat := ceilDiv (2 * g.stripes) 100
/-- Main tracks of a band at S sectors a track; one guard track follows them (R61). -/
def Group.mainTracks (g : Group) (sp : Nat) : Nat := ceilDiv g.stripes sp
/-- The first spare track, and the tracks of the whole band: main area, guard track, spare area, end guard track (R61). -/
def Group.spareTrack (g : Group) (sp : Nat) : Nat := g.mainTracks sp + 1
def Group.bandTracks (g : Group) (sp : Nat) : Nat := g.spareTrack sp + ceilDiv g.spareCount sp + 1
/-- The global number of the head at a gang position (R43). -/
def Group.headAt (g : Group) (i : Nat) : Nat := 24 * g.home + g.head i

/-- The `n` lowest positions of a mask. -/
def lowHeads (m n : Nat) : List Nat := (maskBits 24 m).take n

/-- A gang map of heads. -/
def gangMapOf : List Nat → Nat
  | [] => 0
  | h :: t => h + 32 * gangMapOf t

/-- The ZONE_TAG of unit `u` of an internal region (Table 2.2). -/
def regionTag (a region u : Nat) : Nat := 2 ^ 21 + a * 2 ^ 19 + region * 2 ^ 16 + u

/-- The namespace with an NSID. -/
def State.space (s : State) (nsid : Nat) : Option Nspace := s.fw.spaces.find? fun n => n.nsid == nsid
def State.modSpace (s : State) (nsid : Nat) (f : Nspace → Nspace) : State :=
  s.modFw fun w => { w with spaces := w.spaces.map fun n => if n.nsid == nsid then f n else n }

/-- Put a group before the first that starts later. -/
def insertGroup (g : Group) : List Group → List Group
  | [] => [g]
  | h :: t => if g.first ≤ h.first then g :: h :: t else h :: insertGroup g t

/-- A namespace's groups in ascending zone order (R60). -/
def State.spaceGroups (s : State) (n : Nspace) : List Group :=
  (s.groups.filter fun g => n.groups.contains g.id).foldr insertGroup []

/-- Zone `i` of a list of groups. -/
def zoneAt : List Group → Nat → Option Nat
  | [], _ => none
  | g :: gs, i => if i < g.count then some (g.first + i) else zoneAt gs (i - g.count)

/-- Zones of a namespace. -/
def State.spaceZones (s : State) (n : Nspace) : Nat := ((s.spaceGroups n).map Group.count).sum

/-- The index of a zone within a list of groups. -/
def zoneIndex : List Group → Nat → Nat
  | [], _ => 0
  | g :: gs, z => if g.first ≤ z ∧ z < g.first + g.count then z - g.first else g.count + zoneIndex gs z

/-- The namespace that a zone belongs to. -/
def State.spaceOf (s : State) (z : Nat) : Option Nspace :=
  match s.groupOf z with
  | some g => s.fw.spaces.find? fun n => n.groups.contains g.id
  | none => none

/-- 65,536 × zone + offset of an LBA of a namespace (R79). -/
def State.keyOf (s : State) (n : Nspace) (lba : Nat) : Option Nat :=
  (zoneAt (s.spaceGroups n) (lba / 65536)).map fun z => 65536 * z + lba % 65536

/-- The LBA of a key within its namespace. -/
def State.lbaOf (s : State) (n : Nspace) (key : Nat) : Nat := 65536 * zoneIndex (s.spaceGroups n) (key / 65536) + key % 65536

/-- The keys of a run of LBAs. -/
def State.keysOf (s : State) (n : Nspace) (lba k : Nat) : List Nat := ((upto k).map fun i => s.keyOf n (lba + i)).filterMap id

/-- Logical stripe and slot of a key in a group (R79). -/
def Group.stripeOf (g : Group) (key : Nat) : Nat := (key % 65536) / g.d
def Group.slotOf (g : Group) (key : Nat) : Nat := (key % 65536) % g.d

/-- The keys of a stripe's data slots, fill slots left out (R55). -/
def Group.stripeKeys (g : Group) (z stripe : Nat) : List Nat :=
  ((upto g.d).map fun i => stripe * g.d + i).filter (fun o => decide (o < 65536)) |>.map fun o => 65536 * z + o

/-- The zone table takes a zone's entry, with a V (R78, R322). -/
def Zone.record (x : Zone) (v : Nat) : Zone := { x with saved := { st := x.st, byCtrl := x.byCtrl, gen := x.gen, v := v, w := max v x.w } }

/-- The zone table takes a zone's state, its attribute and its write generation as they change; V as it was last recorded (R66, R78). -/
def Zone.noted (x : Zone) : Zone := { x with saved := { x.saved with st := x.st, byCtrl := x.byCtrl, gen := x.gen } }

/-! ## Staging rings (R72 to R75) -/

/-- The newest ring copy of a key: its version and bytes (R76). -/
def Ring.newest (r : Ring) (key : Nat) : Option (Nat × List Byte) :=
  ((r.stripes ++ r.pinned).map fun t => t.slots).flatten.foldl (fun m x =>
    if x.1 = key then match m with
      | some y => if y.1 ≤ x.2.1 then some (x.2.1, x.2.2) else m
      | none => some (x.2.1, x.2.2)
    else m) none

/-- The ring position after one: pinned positions are left out (R75, R318; log 104). -/
def Ring.next (r : Ring) : Nat → Nat → Nat
  | 0, p => p
  | k + 1, p =>
    let q := (p + 1) % r.len
    if r.pinned.any fun t => t.pos == q then r.next k q else q
def Ring.after (r : Ring) (p : Nat) : Nat := r.next (r.pinned.length + 1) p

/-- A verified ring stripe holds the key (R68, R71). -/
def Ring.verified (r : Ring) (key : Nat) : Bool := (r.stripes ++ r.pinned).any fun t => t.verified && t.slots.any fun x => x.1 == key

/-- LBAs of stripe V that the ring holds verified, counted contiguously from the stripe's first LBA (R71). -/
def ringRun (r : Ring) : List Nat → Nat
  | [] => 0
  | k :: ks => if r.verified k then 1 + ringRun r ks else 0

/-- V of a zone: WPA's while its band is being written, else as firmware holds it (R170). -/
def State.liveV (s : State) (g : Group) (z : Nat) : Nat :=
  let v := (s.zone z).v
  if (s.ordP g.home).band && (s.wpaP g.home).zoneTag == z then max v (s.reg (wpaPosV g.home)).toNat else v

/-- The write pointer of a zone, as an offset (R71, Table 10.6). -/
def State.wpOff (s : State) (z : Nat) : Nat :=
  let x := s.zone z
  match x.wpHeld, s.groupOf z with
  | some w, _ => w
  | none, some g =>
    let v := s.liveV g z
    min (g.d * v) 65536 + (if v < g.stripes then ringRun (s.ring g.home) (g.stripeKeys z v) else 0)
  | none, none => 0

/-! ## Internal regions, and where a stripe lies (R61 to R64, R72, R78, R79, R311, R312) -/

/-- The internal format of an actuator's regions, as a group: a gang of the lowest-numbered populated heads (R72). -/
def State.internalGroup (s : State) (tag : Nat) : Group :=
  let a := tag / 2 ^ 19 % 4
  let d := (s.ring a).d
  { id := 256, home := a, shingled := false, backup := true, width := d + 2, two := true, window := 12, first := tag
    count := 1, gangMap := gangMapOf (lowHeads (lget 0 s.fw.heads a) (d + 2)), alt := false }

/-- The format of a zone, or of an internal region's unit. -/
def State.formatOf (s : State) (z : Nat) : Option Group := if 2 ^ 21 ≤ z then some (s.internalGroup z) else s.groupOf z

/-- An entry of a band's remap list: logical stripe, spare, write generation (R63). -/
def remapWord (stripe spare gen : Nat) : D := BitVec.ofNat 64 (stripe % 2 ^ 32 + spare % 65536 * 2 ^ 32 + gen % 65536 * 2 ^ 48)
def remapStripe (e : D) : Nat := e.toNat % 2 ^ 32
def remapSpare (e : D) : Nat := e.toNat / 2 ^ 32 % 65536

/-- The spare of the last effective entry for a stripe (R64, R79). -/
def Zone.spareOf (x : Zone) (stripe : Nat) : Option Nat := ((x.remaps.filter fun e => remapStripe e == stripe).getLast?).map remapSpare

/-- Entries that the remap lists of an actuator hold, of 134,217,728 (R65, Table 2.7). -/
def State.remapCount (s : State) (a : Nat) : Nat :=
  ((s.fw.zones.filter fun e => match s.groupOf e.1 with
    | some g => g.home == a
    | none => false).map fun e => e.2.remaps.length).sum

/-- The 16 bytes of an entry of the spare pool map (Table 10.4). -/
def PoolEnt.bytes (e : PoolEnt) : List Byte :=
  leBytes 4 (e.zone % 2 ^ 22) ++ leBytes 4 e.stripe ++ leBytes 4 e.pool ++ leBytes 2 e.gen ++ leBytes 2 (e.count % 4)

/-- The last entry of the pool map for a stripe governs (R311); one of an earlier write generation of the zone names nothing of it (R52,
R66). -/
def State.poolEntry (s : State) (a z stripe : Nat) : Option PoolEnt :=
  ((tget (fun _ => []) s.fw.pool a).filter fun e =>
    e.zone == z && e.stripe == stripe && (decide (2 ^ 21 ≤ z) || e.gen == (s.zone z).gen)).getLast?

/-- Place `k` of an area whose first track is `first`, at S sectors a track (R61, R79). -/
def areaSite (tag index area first sp k : Nat) : Site :=
  { tag := tag, index := index, area := area, track := first + k / sp, pos := k % sp }

/-- Stripe `i` of an actuator's spare pool: its sectors carry the pool's ZONE_TAG and pool stripe index (R311). -/
def State.poolSite (s : State) (a i n : Nat) : Site :=
  let tag := regionTag a 2 (i / ceilDiv 65536 (s.ring a).d)
  { areaSite tag i 2 0 (Config.sectorsPerTrack tag) i with stripes := n }

/-- Internal stripes that a stripe of a group takes: two where its D exceeds theirs (R311). -/
def State.innerCount (s : State) (g : Group) : Nat := if (s.ring g.home).d < g.d then 2 else 1

/-- The `n` stripes from `i` on of the system area of an actuator, counted from its first unit, where the pool map does not name them
(R72, R78, R311). -/
def State.systemSite (s : State) (a i n : Nat) : Site :=
  let tag := regionTag a 0 (i / ceilDiv 65536 (s.ring a).d)
  match (s.poolEntry a tag i).filter fun e => e.count == n with
  | some e => s.poolSite a e.pool n
  | none => { areaSite tag i 2 0 (Config.sectorsPerTrack tag) i with stripes := n }

/-- The first stripe of the firmware working area within the system area (Table 2.7). -/
def State.workArea (s : State) (a : Nat) : Nat := sysFirst 7 * ceilDiv 65536 (s.ring a).d

/-- Stripe `t` of the protective copy of a band (R420). -/
def State.copySite (s : State) (g : Group) (z t : Nat) : Site :=
  let n := s.innerCount g
  s.systemSite g.home (s.workArea g.home + (s.zone z).copyAt + n * t) n

/-- A stripe of a zone is read from its protective copy: one at or above V, while a refresh rewrites the band and after a seal has
ended it (R421). -/
def State.onCopy (s : State) (g : Group) (z t : Nat) : Bool :=
  match (s.zone z).copyFrom with
  | some v => decide (v ≤ t)
  | none => (s.zone z).refresh == 3 && decide (s.liveV g z ≤ t)

/-- The write generation that a read of a stripe expects: internal regions have none (R66). -/
def State.readGen (s : State) (g : Group) (z t : Nat) : Nat := if 2 ^ 21 ≤ z ∨ s.onCopy g z t then 0 else (s.zone z).gen

/-- Stripes of a band in refresh that hold data (R420). -/
def State.freshTop (s : State) (g : Group) (z : Nat) : Nat := min g.stripes (ceilDiv (s.wpOff z) g.d)

/-- Where a stripe of a zone or of a region is read, or rewritten in place: a spare or a pool stripe that a relocation has given it, or
its own place (R64, R79, R311, R312). -/
def State.siteOf (s : State) (g : Group) (z stripe : Nat) : Site :=
  let sp := Config.sectorsPerTrack z
  if s.onCopy g z stripe then s.copySite g z stripe
  else match (if g.shingled then (s.zone z).spareOf stripe else none), s.poolEntry g.home z stripe with
  | some k, _ => areaSite z stripe 1 (g.spareTrack sp) sp k
  | none, some e => s.poolSite g.home e.pool e.count
  | none, none => areaSite z stripe (if g.shingled then 0 else 2) 0 sp stripe

/-- The format of the sectors of a site: that of the zone, or an actuator's internal one (R72, R311, R420). -/
def State.siteFormat (s : State) (g : Group) (z : Nat) (x : Site) : Group := if x.tag = z then g else s.internalGroup x.tag

/-- The slots of a site are numbered stripe by stripe: the slot of data slot `j`, and the data slot of a slot, none for parity and for
the fill slots that a format of fewer data slots leaves (R55, R311). -/
def Group.slotOfData (f : Group) (j : Nat) : Nat := j / f.d * f.width + j % f.d
def Group.dataOfSlot (f g : Group) (p : Nat) : Option Nat :=
  let j := p / f.width * f.d + p % f.width
  if p % f.width < f.d ∧ j < g.d then some j else none

/-- Sectors of slots, as sectors of data slots. -/
def Group.dataOf (f g : Group) (l : List (Nat × List Byte)) : List (Nat × List Byte) :=
  l.filterMap fun e => (f.dataOfSlot g e.1).map fun j => (j, e.2)

/-- The slot of a sector that has come back from a site. -/
def RxSec.slot (r : RxSec) (f : Group) (x : Site) : Option Nat :=
  if x.index ≤ r.stripe ∧ r.gpos < f.width then some ((r.stripe - x.index) * f.width + r.gpos) else none

/-- The gang position and the head of a slot. -/
def Group.slotHead (f : Group) (p : Nat) : Nat := f.head (p % f.width)

/-- Data slots of a stripe that hold an LBA of the zone; of an internal region's, all (R55, R72). -/
def Group.dataSlots (g : Group) (stripe : Nat) : List Nat :=
  (upto g.d).filter fun i => decide (2 ^ 21 ≤ g.first) || decide (stripe * g.d + i < 65536)

/-- Where the first stripe of a MOP lies: a write of a band goes to its main area, a relocation where it was sent, and V is re-established
from the main area. -/
def State.jobSite (s : State) (g : Group) (j : Job) : Site :=
  let sp := Config.sectorsPerTrack j.zone
  match j.kind with
  | .spare k => areaSite j.zone j.stripe 1 (g.spareTrack sp) sp k
  | .pool i => s.poolSite g.home i j.count
  | .refreshCopy => s.copySite g j.zone j.stripe
  | .mirror _ => s.systemSite g.home j.stripe 1
  | .refind => areaSite j.zone j.stripe 0 0 sp j.stripe
  | _ => if j.op = 2 ∧ j.area = 0 then areaSite j.zone j.stripe 0 0 sp j.stripe else s.siteOf g j.zone j.stripe

/-! ## Where an LBA is (R76, R398) -/

/-- The first source that holds an LBA. -/
inductive Src where
  | here (bytes : List Byte)
  | zeros
  | media
  /-- It reads as unrecovered until it is rewritten (R313). -/
  | lost
deriving DecidableEq, Repr

/-- What BUF holds of a band that is being refreshed (R420, R421). -/
def State.freshCopy (s : State) (a key : Nat) : Option (List Byte) :=
  let h := tget (fun _ => {}) s.fw.harv a
  if h.refresh = some (key / 65536) ∧ !(tget (fun _ => []) h.copy key).isEmpty then some (tget (fun _ => []) h.copy key) else none

/-- What the recovered copy of a stripe holds of an LBA while its relocation is pending (R308). -/
def State.recovered (s : State) (g : Group) (key : Nat) : Option (List Byte) :=
  match s.fw.relocs.find? fun r => r.zone == key / 65536 && r.stripe == g.stripeOf key && !r.tail with
  | some r => (r.data.find? fun e => e.1 == g.slotOf key).map fun e => e.2.take 4096
  | none => none

/-- The source of an LBA, at this moment. -/
def State.srcOf (s : State) (n : Nspace) (key : Nat) : Src :=
  let z := key / 65536
  match s.groupOf z with
  | none => .zeros
  | some g =>
    match tget (fun _ => none) s.fw.dirty key, tget (fun _ => none) s.fw.clean key, (s.ring g.home).newest key with
    | some d, _, _ => .here d.bytes
    | none, some b, _ => .here b
    | none, none, some (_, b) => .here b
    | none, none, none =>
      if n.kind = 1 then
        let x := s.zone z
        let top := match x.wpHeld with
          | some w => w
          | none => if x.refresh ≠ 0 then 65536 else g.d * s.liveV g z
        if top ≤ key % 65536 then .zeros
        else match s.freshCopy g.home key, s.recovered g key with
          | some b, _ => .here b
          | none, some b => .here b
          | none, none => .media
      else if s.fw.bad.contains key then .lost
      else if tget (fun _ => false) s.fw.written key then match s.recovered g key with
        | some b => .here b
        | none => .media
      else .zeros

/-- 4,096 zero bytes. -/
def zeroBlock : List Byte := List.replicate 4096 0

/-- The wrapped media key of a namespace, if it is encrypted (R503, R505). -/
def State.spaceKey (s : State) (n : Nspace) : Option (List W) := n.key.map fun k => tget (fun _ => []) s.sec.media k

/-- Write data as SEC stores it, and read data as SEC returns it (R33). -/
def State.cipherIn (s : State) (n : Nspace) (lba : Nat) (b : List Byte) : List Byte :=
  match s.spaceKey n with
  | some k => Config.xtsEncrypt k lba b
  | none => b
def State.cipherOut (s : State) (n : Nspace) (lba : Nat) (b : List Byte) : List Byte :=
  match s.spaceKey n with
  | some k => Config.xtsDecrypt k lba b
  | none => b

/-! ## Firmware's MOPs, and the stripes that BUF forms for them (R55, R73, R158, R172, R346) -/

/-- The write packets of one stripe: its data slots and the parity over them, each with the metadata of its sector and a CRC computed
now (R50, R51, R54, R56). -/
def rowPackets (g : Group) (eng tag index gen : Nat) (ds : List (List Byte)) : List WritePkt :=
  let rows := (upto g.d).map fun i => (i, lget zeroBlock ds i)
  let all := rows.map Prod.snd ++ [parityP rows, parityQ rows]
  (upto g.width).map fun p =>
    { eng := eng, tag := tag, stripe := index, head := g.head p, bytes := mkSector tag index (g.headAt p) gen (lget [] all p) }

/-- The newest copy of an LBA that BUF holds (R76). -/
def State.copyOf (s : State) (g : Group) (key : Nat) : Option (List Byte) :=
  match tget (fun _ => none) s.fw.dirty key, (s.ring g.home).newest key, tget (fun _ => none) s.fw.clean key with
  | some d, _, _ => some d.bytes
  | none, some (_, b), _ => some b
  | none, none, b => b

/-- The data slots of a stripe of a zone as they are written: the newest copies, else what a merge or a recovery has read; a slot with
neither, and one beyond the last LBA, is a fill slot of zeros (R55, R76, R308, R312). -/
def State.stripeData (s : State) (g : Group) (z stripe : Nat) (base : List (Nat × List Byte)) : List (List Byte) :=
  (upto g.d).map fun i =>
    let off := stripe * g.d + i
    if 65536 ≤ off then zeroBlock
    else match s.copyOf g (65536 * z + off), base.find? fun e => e.1 == i with
      | some b, _ => b
      | none, some e => e.2.take 4096
      | none, none => zeroBlock

/-- The data slots of a ring stripe: its index sector and its staged LBAs as they were first written (R73, R74). -/
def State.ringData (s : State) (a pos : Nat) : List (List Byte) :=
  match (s.ring a).stripes.find? fun t => t.pos == pos with
  | some t => t.index :: t.rows
  | none => []

/-- The data slots of a stripe of a band as its refresh writes them: what BUF holds of them, and fill slots (R420). -/
def State.freshData (s : State) (g : Group) (z stripe : Nat) : List (List Byte) :=
  (upto g.d).map fun i => (s.freshCopy g.home (65536 * z + stripe * g.d + i)).getD zeroBlock

/-- The first `n` data slots of a write that carries its own. -/
def givenData (l : List (Nat × List Byte)) (n : Nat) : List (List Byte) :=
  (upto n).map fun i => ((l.find? fun e => e.1 == i).map fun e => e.2.take 4096).getD zeroBlock

/-- The write packets of a MOP of firmware's. A stripe whose D exceeds the pool's takes two pool stripes (R311). -/
def State.jobPackets (s : State) (g : Group) (j : Job) : List WritePkt :=
  if j.op ≠ 2 then []
  else match j.kind with
    | .refreshWrite =>
      ((upto j.count).map fun i => rowPackets g j.eng j.zone (j.stripe + i) j.gen (s.freshData g j.zone (j.stripe + i))).flatten
    | .refreshCopy =>
      let f := s.internalGroup j.site.tag
      let ds := s.freshData g j.zone j.stripe
      ((upto j.site.stripes).map fun i => rowPackets f j.eng j.site.tag (j.site.index + i) 0 (ds.drop (i * f.d))).flatten
    | .rewrite | .mirror _ => rowPackets g j.eng j.site.tag j.site.index 0 (givenData j.data g.d)
    | .ring => rowPackets g j.eng j.site.tag j.site.index 0 (s.ringData j.eng j.stripe)
    | _ =>
      if 2 ^ 21 ≤ j.site.tag ∧ j.site.tag ≠ j.zone then
        let f := s.internalGroup j.site.tag
        let ds := if j.zone < 2 ^ 21 then s.stripeData g j.zone j.stripe j.data
          else if j.zone / 2 ^ 16 % 8 = 1 then s.ringData j.eng j.stripe
          else givenData j.data (j.site.stripes * g.d)
        ((upto j.site.stripes).map fun i => rowPackets f j.eng j.site.tag (j.site.index + i) j.gen (ds.drop (i * f.d))).flatten
      else ((upto j.count).map fun i => rowPackets g j.eng j.site.tag (j.stripe + i) j.gen (s.stripeData g j.zone (j.stripe + i) j.data)).flatten

/-- Write packets of an engine that BUF need not keep any more. -/
def State.dropPackets (s : State) (p : WritePkt → Bool) : State := s.modFw fun f => { f with packets := f.packets.filter fun x => !p x }

/-- Firmware issues a MOP: it takes the next TAG, and BUF forms the stripes that it writes. -/
def State.issue (s : State) (j : Job) : State :=
  let j := { j with tag := s.fw.nextTag }
  let (j, ps) := match s.formatOf j.zone with
    | some g =>
      let j := { j with site := if j.site = ({} : Site) then s.jobSite g j else j.site }
      (j, s.jobPackets g j)
    | none => (j, [])
  let old (x : WritePkt) : Bool := ps.any fun y => y.eng == x.eng && y.tag == x.tag && y.stripe == x.stripe
  s.modFw fun f => { f with
    jobs := f.jobs ++ [j], nextTag := (f.nextTag + 1) % 65536, packets := (f.packets.filter fun x => !old x) ++ ps }

/-- A ladder runs on a stripe (R307). -/
def State.onLadder (s : State) (z stripe : Nat) : Bool := s.fw.ladders.any fun l => l.zone == z && l.stripe == stripe

/-- The relocation of a stripe. -/
def State.modReloc (s : State) (z stripe : Nat) (f : Reloc → Option Reloc) : State :=
  s.modFw fun w => { w with relocs := w.relocs.filterMap fun r => if r.zone == z && r.stripe == stripe then f r else some r }

/-- A relocation of a stripe is pending. -/
def State.relocating (s : State) (z stripe : Nat) : Bool := s.fw.relocs.any fun r => r.zone == z && r.stripe == stripe

/-- The recovery policy of a zone's namespace, or the defaults (R293). -/
def State.polOf (s : State) (z : Nat) : RecPol :=
  match s.spaceOf z with
  | some n => n.pol
  | none => {}

/-- Reads of the background class (Table 4.3). DEDUCED (log 107): those of a refresh, too, which is Harvest's work. -/
def JobKind.background : JobKind → Bool
  | .harvest => true
  | .refreshRead => true
  | .jub _ => true
  | _ => false

/-- A MOP that reads a stripe is on its way. -/
def State.reading (s : State) (z stripe : Nat) : Bool :=
  s.fw.jobs.any fun j => (j.kind == .read || j.kind == .merge || j.kind == .harvest || j.kind == .refreshRead) && j.zone == z && j.stripe == stripe

/-- The partner may read the stripe (R220). -/
def State.altOk (s : State) (g : Group) (a : Nat) : Bool := g.alt && s.altReady a ((upto g.width).map g.head)

/-- Read a stripe for a purpose, on the home actuator or, where that is Disabled, on its partner if that may read it (R32, R220). -/
def State.readJob (s : State) (g : Group) (z stripe : Nat) (k : JobKind) (win : Bool) : State :=
  let a := (g.home + 2) % 4
  let alt := s.actSt g.home == 6 && s.altOk g a
  s.issue { tag := 0, eng := if alt then a else g.home, kind := k, op := 1, zone := z, stripe := stripe
            gen := if k = .refind then (s.zone z).gen else s.readGen g z stripe, alt := alt, win := win, background := k.background, area := if g.shingled then 0 else 2 }

/-- The ladder of a stripe. -/
def State.modLadder (s : State) (z stripe : Nat) (f : Ladder → Ladder) : State :=
  s.modFw fun w => { w with ladders := w.ladders.map fun l => if l.zone == z && l.stripe == stripe then f l else l }

/-- A read of data slots of a stripe whose ladder runs takes that ladder's outcome (R307). -/
def State.joinLadder (s : State) (g : Group) (z stripe : Nat) (k : JobKind) (slots : List Nat) : State :=
  s.modLadder z stripe fun l => { l with
    want := l.want ++ (slots.map (s.siteFormat g z l.site).slotOfData).filter fun i => !l.want.contains i
    harvest := l.harvest || k == .harvest, merge := l.merge || k == .merge, fresh := l.fresh || k == .refreshRead
    refind := l.refind || k == .refind, jub := match k with
      | .jub i => some i
      | _ => l.jub }

/-- A whole stripe is read for a purpose, unless its ladder runs (R307). -/
def State.readFor (s : State) (g : Group) (z stripe : Nat) (k : JobKind) (win : Bool) : State :=
  if s.onLadder z stripe then s.joinLadder g z stripe k (g.dataSlots stripe) else s.readJob g z stripe k win

end Sys2Proof.Machine
end

