-- ==== Sys2Proof/Machine/Qmg.lean ====
section
/-!
DEFINITION. Command contexts: taking a capsule, its checks, holding, admission, and the one completion of each command
(R392 to R412).
-/
namespace Sys2Proof.Machine

/-! ## Completion entries (R401, Table 14.3) -/

/-- NVMe status type and code of a Brodvon code. -/
def nvmeStatus (code : Nat) : Nat × Nat :=
  if code = 0 then (0, 0)
  else if code = 0x1C0 ∨ code = 0x1C1 then (2, 0x81)
  else if [0x175, 0x178, 0x1C4, 0x177, 0x1C2, 0x1C3].contains code then (2, 0x80)
  else if code = 0x196 then (1, 0xBA)
  else if code = 0x204 then (1, 0xB9)
  else if code = 0x203 then (1, 0xBC)
  else if code = 0x205 then (1, 0xB8)
  else if code = 0x206 then (1, 0xBD)
  else if code = 0x207 then (1, 0xBE)
  else if code = 0x208 then (1, 0xBF)
  else if code = 0x209 then (1, 0x12)
  else if code = 0x200 then (0, 0x07)
  else if code = 0x201 ∨ code = 0x202 then (0, 0x08)
  else if code = 0x10 ∨ code = 0x11 ∨ code = 0x12 then (0, 0x06)
  else (7, 0xC0)

/-- The entry of a Brodvon code: the code stands in Dword 0 (R401). -/
def codeCpl (code : Nat) : Cpl := { sct := (nvmeStatus code).1, sc := (nvmeStatus code).2, dw0 := code, code := code }

/-- A standard NVMe status, which carries no Brodvon code (R401). PRESUMED: the values are those of the NVMe specifications. -/
def nvmeCpl (sct sc : Nat) : Cpl := { sct := sct, sc := sc }
def invalidOpcode : Cpl := nvmeCpl 0 0x01
def invalidField : Cpl := nvmeCpl 0 0x02
def invalidNamespace : Cpl := nvmeCpl 0 0x0B
def lbaRange : Cpl := nvmeCpl 0 0x80
def rsvConflict : Cpl := nvmeCpl 0 0x83

/-- The entry of a code for a command: a Zone Append carries nothing in Dword 0, and the log has the code all the same (R401). -/
def codeCplFor (op : HostOp) (code : Nat) : Cpl :=
  match op with
  | .zoneAppend _ _ => { codeCpl code with dw0 := 0 }
  | _ => codeCpl code

/-! ## Kinds of command -/

/-- LBAs that a command names, and from which one. -/
def opRange : HostOp → Option (Nat × Nat)
  | .read lba n _ => some (lba, n)
  | .write lba d => some (lba, d.length)
  | .writeZeroes lba n => some (lba, n)
  | .compare lba d => some (lba, d.length)
  | .zoneAppend lba d => some (lba, d.length)
  | _ => none

/-- It writes its LBAs. -/
def opWrites : HostOp → Bool
  | .write _ _ => true
  | .writeZeroes _ _ => true
  | .zoneAppend _ _ => true
  | .kvStore _ _ _ _ => true
  | _ => false

/-- It reads its LBAs. -/
def opReads : HostOp → Bool
  | .read _ _ _ => true
  | .compare _ _ => true
  | .kvRetrieve _ => true
  | _ => false

/-- It is an I/O command: those of queue 0 are admin or fabrics commands. -/
def cmdIo (c : HostCmd) : Bool := c.sqid != 0

/-! ## The contexts of a port -/

/-- Contexts in use, with their numbers. -/
def State.ctxs (s : State) : List (Nat × Ctx) := s.ctx.filterMap fun e => e.2.map fun x => (e.1, x)

/-- Contexts of a port. -/
def State.portCtxs (s : State) (p : Nat) : List (Nat × Ctx) := s.ctxs.filter fun e => e.2.port == p

/-- The lowest Free context. -/
def State.freeCtxNo (s : State) : Option Nat := (upto 4096).find? fun c => (s.ctxAt c).isNone

/-- IDLE has risen, if it was 0 before, while HOLD_ADMIT is 1 (Table 14.7). -/
def State.idleRose (s : State) (was : Bool) : State := s.onlyIf (!was && s.qmgIdle && s.rbit qmgCtrl 1) fun s => s.raise qmgInt 0

/-- A port's context goes Free; IDLE may rise, and the port may have drained (R409). -/
def State.freeCtx (s : State) (c : Nat) : State :=
  match s.ctxAt c with
  | none => s
  | some x =>
    let was := s.qmgIdle
    let s := s.setCtx c none
    let s := s.idleRose was
    let h := s.hifP x.port
    if h.draining && (s.portCtxs x.port).isEmpty then
      if h.resetting then
        s.setHif x.port { h with draining := false, resetting := false, ctrl := h.ctrl.map fun k =>
          { k with queues := [], csts := putBit k.csts 0 false } }
      else (s.setHif x.port { h with draining := false }).raise qmgInt 2
    else s

/-! ## Reservations (R358, R394, Table 12.3) -/

/-- D, P and G of the zone that holds the command's first LBA. -/
def State.fmtOf (s : State) (n : Nspace) (lba : Nat) : Nat × Nat × Nat :=
  match s.keyOf n lba with
  | some k => match s.groupOf (k / 65536) with
    | some g => (g.d, g.p, g.width)
    | none => (1, 0, 1)
  | none => (1, 0, 1)

/-- The value that a key of a Key Value namespace names. -/
def State.kvFind (s : State) (nsid : Nat) (key : List Byte) : Option KvEnt := s.fw.kv.find? fun e => e.nsid == nsid && e.key == key

/-- LBAs and the direction (0 none, 1 read, 2 write) that admission counts for a command (R394). -/
def State.admitSize (s : State) (c : HostCmd) : Nat × Nat × Nat :=
  match c.op with
  | .read lba n _ => (lba, n, 1)
  | .compare lba d => (lba, d.length, 1)
  | .write lba d => (lba, d.length, 2)
  | .zoneAppend lba d => (lba, d.length, 2)
  | .kvStore _ v _ _ => (0, ceilDiv v.length 4096, 2)
  | .kvRetrieve k => match s.kvFind c.nsid k with
    | some e => (e.lba, e.n, 1)
    | none => (0, 0, 0)
  | _ => (0, 0, 0)

/-- Sector buffers that a command reserves. -/
def State.bufNeed (s : State) (c : HostCmd) : Nat :=
  let (lba, n, dir) := s.admitSize c
  match s.space c.nsid with
  | none => 0
  | some ns =>
    let (d, p, g) := s.fmtOf ns lba
    if dir = 1 then g * (ceilDiv n d + 1) else if dir = 2 then n + p * (ceilDiv n d + 1) else 0

/-- The data queue in which the command reserves 17 cells: 36 + p for host data, 40 + p for data to the host. -/
def State.dataQueue (s : State) (x : Ctx) : Option Nat :=
  match (s.admitSize x.cmd).2.2 with
  | 1 => some (40 + x.port)
  | 2 => some (36 + x.port)
  | _ => none

/-- Sector buffers reserved: by contexts, by stripes that still hold write data, and by Jubilee (CPL_BUF_RESERVED). -/
def State.bufReserved (s : State) : Nat :=
  (s.ctxs.map fun e => e.2.bufs).sum + (s.fw.bufs.map BufHold.n).sum

/-- Those of one port: 0 to 3 a host port, 4 Jubilee (R362). -/
def State.portBufs (s : State) (p : Nat) : Nat :=
  ((s.portCtxs p).map fun e => e.2.bufs).sum + ((s.fw.bufs.filter fun b => b.port == p).map BufHold.n).sum

def cplBufTotal := regAddr bCPL 0x20
def cplBufMax (p : Nat) := regAddr bCPL (0x30 + 4 * p)

/-- Clean cached buffers give way, oldest first, until the reservations fit beside them (R361). -/
def State.trimClean (s : State) : State :=
  let room := s.rfld cplBufTotal 0 24 - s.bufReserved
  let n := s.fw.clean.length
  s.modFw fun f => { f with clean := f.clean.drop (n - room) }

/-- The port's cap leaves no room for the admission: it is set aside (R362). -/
def State.setAside (s : State) (x : Ctx) : Bool := decide (s.rfld (cplBufMax x.port) 0 24 < s.portBufs x.port + s.bufNeed x.cmd)

/-- Entries of a queue pair's completion ring that are reserved, and its size (R394). -/
def State.ringUsed (s : State) (x : Ctx) : Nat :=
  ((s.portCtxs x.port).filter fun e => e.2.cmd.sqid == x.cmd.sqid && e.2.ring).length
def State.ringSize (s : State) (x : Ctx) : Nat :=
  match (s.hifP x.port).ctrl with
  | some k => match k.queues.find? fun q => q.1 == x.cmd.sqid with
    | some q => q.2
    | none => 1024
  | none => 1024

/-- A reservation's outcome as a number: 0 granted, 1 waits, else the code that refuses it (R357, Table 12.6). -/
def rsvCode : RsvOutcome → Nat
  | .granted => 0
  | .waits => 1
  | .tooLarge => 0x22
  | .disabled => 0x21

/-- What becomes of an admission: 0 granted, 1 waits, else the code that ends it (R357, Table 12.6). -/
def State.admitOutcome (s : State) (x : Ctx) : Nat :=
  let a := match s.dataQueue x with
    | some q => rsvCode (s.rsvOutcome q 17)
    | none => 0
  let b := rsvCode (s.rsvOutcome 4 1)
  if 1 < a then a
  else if 1 < b then b
  else if a == 1 || b == 1 then 1
  else if s.rfld cplBufTotal 0 24 < s.bufReserved + s.bufNeed x.cmd then 1
  else if s.ringSize x ≤ s.ringUsed x then 1
  else 0

/-- The cells and buffers of a context go back; `used` says that its completion used up the cell of queue 4. -/
def State.releaseCtx (s : State) (c : Nat) (used : Bool) : State :=
  match s.ctxAt c with
  | none => s
  | some x =>
    let s := s.onlyIf x.granted fun s => match s.dataQueue x with
      | some q => s.unreserve q 17
      | none => s
    let s := s.onlyIf (x.granted && !used) fun s => s.unreserve 4 1
    s.setCtx c (some { x with granted := false, bufs := 0 })

/-! ## Completions (R399, R401) -/

/-- An Error Information log entry of a failed command (R401). -/
def State.logError (s : State) (p : Nat) (x : Ctx) (e : Cpl) : State :=
  match (s.hifP p).ctrl with
  | some k => s.setHif p { s.hifP p with ctrl := some { k with errors :=
      [x.cmd.sqid, x.cmd.cid, e.sct, e.sc, e.code, x.lba] :: k.errors } }
  | none => s

/-- The entry is written into the context and the context enters Committed; only the first commit counts (R399). A Running command with
abort set always commits QMG_ABORTED_BY_HOST (R404). A completion of a port that has gone is discarded unsent and counted (R409). -/
def State.commitCtx (s : State) (c : Nat) (e : Cpl) : State :=
  match s.ctxAt c with
  | none => s
  | some x =>
    if x.st = .committed then s
    else
      let e := if x.st = .running ∧ x.abort then codeCplFor x.cmd.op 0x200 else e
      let bad := e.sct != 0 || e.sc != 0
      let s := (s.count (qmgCtr 0)).onlyIf bad fun s => (s.count (qmgCtr 1)).logError x.port x e
      if x.discard then (s.count (qmgCtr 6)).freeCtx c
      else
        (s.setCtx c (some { x with st := .committed, entry := some e, bufs := 0, granted := false })).put x.port
          ⟨.cpl c e, 20, false⟩

/-- QMG itself ends a command that is not Running: its reservations, if any, go back first. -/
def State.endCtx (s : State) (c : Nat) (e : Cpl) : State := (s.releaseCtx c false).commitCtx c e

/-- The command's completion is on its way to QMG. -/
def State.markEnded (s : State) (c : Nat) : State :=
  match s.ctxAt c with
  | some x => s.setCtx c (some { x with ended := true, begun := false })
  | none => s

/-- Firmware hands a completion to QMG through queue 4, in the cell reserved for it (R394). -/
def State.fwComplete (s : State) (c : Nat) (e : Cpl) : State := ((s.releaseCtx c true).markEnded c).put 4 ⟨.cpl c e, 20, false⟩

/-- BUF hands a completion to QMG through queue 5. -/
def State.bufComplete (s : State) (c : Nat) (e : Cpl) : State := ((s.releaseCtx c false).markEnded c).put 5 ⟨.cpl c e, 20, false⟩

/-- The consumer reads the next item of a critical class: from the pool queue, then from its chain; the last part says that
it has been given a LOST notice (R365, R366). -/
def State.classTake (s : State) (q : Nat) : State × Option Pkt × Bool :=
  match (s.cq q).pkts with
  | p :: ps => (s.takeHead q p ps false, some p, false)
  | [] =>
    let lost := decide ((s.cq q).lost ≠ 0)
    let r := s.chainTake q
    (r.1, r.2, lost)

/-- QMG takes a completion from firmware or BUF. -/
def State.qmgTakeCpl (s : State) (q : Nat) : State :=
  match s.classTake q with
  | (s, some p, _) => match p.body with
    | .cpl c e => s.commitCtx c e
    | _ => s
  | (s, none, _) => s

/-- COMPLETION_COMMIT. -/
def execCompletionCommit (fromBuf : Bool) (s : State) : Host.Outcome State Fault Refusal := .next (s.qmgTakeCpl (if fromBuf then 5 else 4))

/-- The packet of a context's completion is still on its way. -/
def State.cplPending (s : State) (p c : Nat) : Bool :=
  let has (l : List Pkt) : Bool := l.any fun k => match k.body with
    | .cpl d _ => d == c
    | _ => false
  has (s.cq p).pkts || has (s.cq p).chain || has (s.cq p).waitPkts

/-- Completions that were lost are sent again from their contexts (R399). -/
def State.resend (s : State) (p : Nat) : State :=
  s.each ((s.portCtxs p).filter fun e => e.2.st == .committed && !s.cplPending p e.1) fun s e =>
    match e.2.entry with
    | some k => ((s.put p ⟨.cpl e.1 k, 20, false⟩).count (qmgCtr 5)).raise qmgInt 1
    | none => s

/-- HIF takes the next completion of a port and reports it sent; its context frees. -/
def State.hifSend (s : State) (p : Nat) : State :=
  match s.classTake p with
  | (s, some k, _) => match k.body with
    | .cpl c _ => s.freeCtx c
    | _ => s
  | (s, none, lost) => s.onlyIf lost fun s => s.resend p

/-- COMPLETION_SENT. -/
def execCompletionSent (p : Fin 4) (s : State) : Host.Outcome State Fault Refusal := .next (s.hifSend p)

/-- CHAIN_ITEM_TAKE: the consumer of the class reads an item or a LOST notice from its chain (R366); a port's lost
completions are sent again (R399). -/
def execChainItemTake (q : Fin 32) (s : State) : Host.Outcome State Fault Refusal :=
  .next (if !(s.cq q).pkts.isEmpty then s
    else if q.val < 4 then s.hifSend q
    else if q.val = 4 ∨ q.val = 5 then s.qmgTakeCpl q
    else match s.chainTake q with
      | (s, some p) => s.emit (.packet q p.body p.poison)
      | (s, none) => s)

/-! ## Reservations of a namespace (Table 13.3) -/

/-- The reservation of a namespace. -/
def State.rsvOf (s : State) (nsid : Nat) : Rsv := (s.fw.rsv.find? fun r => r.nsid == nsid).getD { nsid := nsid }

/-- A command of a host conflicts with the namespace's reservation. PRESUMED: the types and what each allows are those of the
NVMe specification: odd types exclude writers, even ones every access; from 3 on registrants may go on. -/
def Rsv.conflict (r : Rsv) (host : Nat) (writes reads : Bool) : Bool :=
  let mine := r.holder == some host || (decide (3 ≤ r.type_) && r.keys.any fun k => k.1 == host)
  r.type_ != 0 && !mine && (writes || (reads && decide (r.type_ % 2 = 0)))

/-! ## Checks of a capsule (R395) -/

/-- Open and active zones of a namespace (R397). -/
def State.openZones (s : State) (n : Nspace) : Nat :=
  (s.fw.zones.filter fun e => (e.2.st == .implOpen || e.2.st == .explOpen) && (match s.spaceOf e.1 with
    | some m => m.nsid == n.nsid
    | none => false)).length
def State.activeZones (s : State) (n : Nspace) : Nat :=
  (s.fw.zones.filter fun e => (e.2.st == .implOpen || e.2.st == .explOpen || e.2.st == .closed) && (match s.spaceOf e.1 with
    | some m => m.nsid == n.nsid
    | none => false)).length

/-- The code that opening a zone from its state would meet, 0 for none (R397). -/
def State.openLimit (s : State) (n : Nspace) (z : Nat) : Nat :=
  match (s.zone z).st with
  | .empty => if 128 ≤ s.activeZones n then 0x206 else if 128 ≤ s.openZones n then 0x207 else 0
  | .closed => if 128 ≤ s.openZones n then 0x207 else 0
  | _ => 0

/-- The zone's group is read-only (R225). -/
def State.zoneReadOnly (s : State) (z : Nat) : Bool :=
  match s.groupOf z with
  | some g => g.readOnly
  | none => false

/-- R395 for a Write or Zone Append of `k` LBAs to zone `z` at offset `off`: the failing entry, if any. A zone that is being finished
counts as Full (log 118). -/
def State.zoneCheck (s : State) (n : Nspace) (z off k : Nat) (append : Bool) : Option Cpl :=
  let x := s.zone z
  if x.receiving then some (codeCpl 0x509)
  else if s.zoneReadOnly z then some (codeCpl 0x196)
  else if x.st = .full ∨ x.finishing.isSome then some (codeCpl 0x204)
  else if !append && off != x.accept then some (codeCpl 0x203)
  else if append && off != 0 then some invalidField
  else if 65536 < x.accept + k then some (codeCpl 0x205)
  else if s.openLimit n z ≠ 0 then some (codeCpl (s.openLimit n z))
  else none

/-- The commands that recovery mode accepts (R484). -/
def recoveryOp : HostOp → Bool
  | .connect _ _ _ _ _ _ => true
  | .propertyGet _ => true
  | .propertySet _ _ => true
  | .identify _ => true
  | .getLogPage lid => lid == 3
  | .keepAlive => true
  | .fwDownload _ _ => true
  | .fwCommit _ a => a == 1 || a == 3
  | _ => false

/-- A command belongs to the command set of a namespace kind (Table 13.3). -/
def opFits (kind : Nat) : HostOp → Bool
  | .read _ _ _ => kind != 2
  | .write _ _ => kind != 2
  | .writeZeroes _ _ => kind == 0
  | .compare _ _ => kind == 0
  | .zoneAppend _ _ => kind == 1
  | .zoneSend _ _ _ => kind == 1
  | .reportZones _ => kind == 1
  | .kvStore _ _ _ _ => kind == 2
  | .kvRetrieve _ => kind == 2
  | .kvDelete _ => kind == 2
  | .kvExist _ => kind == 2
  | .kvList _ => kind == 2
  | _ => true

/-- A port has as many Aborts outstanding as ACL 15 allows (R404). PRESUMED: one more ends with NVMe's Abort Command Limit Exceeded. -/
def State.abortsFull (s : State) (p : Nat) : Bool :=
  decide (16 ≤ ((s.portCtxs p).filter fun e => match e.2.cmd.op with
    | .abort _ _ => e.2.st != .committed
    | _ => false).length)

/-- The check of a command against its namespace: the failing entry, if any. -/
def State.cmdCheck (s : State) (p : Nat) (c : HostCmd) : Option Cpl :=
  if s.rbit (bankAddr 15) 4 && !recoveryOp c.op then some invalidOpcode
  else if (match c.op with
    | .abort _ _ => s.abortsFull p
    | _ => false) then some (nvmeCpl 1 0x03)
  else if !cmdIo c then none
  else match s.space c.nsid with
    | none => if c.op = .flush ∧ c.nsid = 0xFFFFFFFF then none else some invalidNamespace
    | some n =>
      if !opFits n.kind c.op then some invalidOpcode else
      let host := match (s.hifP p).ctrl with
        | some k => k.host
        | none => 0
      if (s.rsvOf c.nsid).conflict host (opWrites c.op) (opReads c.op) then some rsvConflict
      else match opRange c.op with
        | none => none
        | some (lba, k) =>
          if s.spaceZones n * 65536 < lba + k then some lbaRange
          else match s.keyOf n lba with
            | none => some lbaRange
            | some key =>
              if n.kind = 1 ∧ opWrites c.op then
                s.zoneCheck n (key / 65536) (key % 65536) k (match c.op with
                  | .zoneAppend _ _ => true
                  | _ => false)
              else if n.kind = 1 ∧ 65536 < lba % 65536 + k then some (codeCpl 0x205)
              else if opWrites c.op ∧ (s.keysOf n lba k).any fun j => (s.zone (j / 65536)).receiving then some (codeCpl 0x509)
              else if opWrites c.op ∧ (s.keysOf n lba k).any fun j => s.zoneReadOnly (j / 65536) then some (codeCpl 0x196)
              else none

/-- A zoned write that has passed advances A, and opens an Empty or Closed zone implicitly (R395, Table 14.2). The answer's
second part is the assigned LBA. -/
def State.acceptWrite (s : State) (c : HostCmd) : State × Nat :=
  match s.space c.nsid, opRange c.op with
  | some n, some (lba, k) =>
    if n.kind = 1 ∧ opWrites c.op then
      match s.keyOf n lba with
      | some key =>
        let z := key / 65536
        let x := s.zone z
        let st := if x.st = .empty ∨ x.st = .closed then .implOpen else x.st
        (s.setZone z (Zone.noted { x with accept := x.accept + k, st := st }), lba - lba % 65536 + x.accept)
      | none => (s, lba)
    else (s, lba)
  | _, _ => (s, 0)

/-- Why a context is Held (Table 14.1): a power level, HOLD_ADMIT, or a Format of its namespace. -/
def State.holdCause (s : State) (c : HostCmd) : Bool :=
  s.pwrAway || s.rbit qmgCtrl 1 || (cmdIo c && match s.space c.nsid with
    | some n => n.formatting
    | none => false)

/-- A context whose cause has ended goes to Waiting (Table 14.1). -/
def State.unhold (s : State) : State :=
  s.each (s.ctxs.filter fun e => e.2.st == .held && !s.holdCause e.2.cmd) fun s e => s.setCtx e.1 (some { e.2 with st := .waiting })

/-- A capsule without the data that comes with it, which stays with the port: its length remains (R33). -/
def HostOp.bare : HostOp → HostOp
  | .write l d => .write l (d.map fun _ => [])
  | .compare l d => .compare l (d.map fun _ => [])
  | .zoneAppend l d => .zoneAppend l (d.map fun _ => [])
  | .kvStore k v a b => .kvStore k (v.map fun _ => 0) a b
  | o => o

/-- A capsule enters its port's queue (R33, R377). -/
def State.capsulePut (s : State) (p : Nat) (c : HostCmd) : State :=
  let h := s.hifP p
  let data := if HostOp.bare c.op = c.op then h.data else h.data ++ [(h.arrivals, c.op)]
  (s.setHif p { h with bp := h.bp && !h.wait.isEmpty, arrivals := h.arrivals + 1, data := data }).put (32 + p)
    ⟨.capsule { c with op := HostOp.bare c.op } h.arrivals, 64, false⟩

/-- The command of a capsule, with its data. -/
def State.capsuleCmd (s : State) (p : Nat) (c : HostCmd) (n : Nat) : HostCmd :=
  match (s.hifP p).data.find? fun e => e.1 == n with
  | some e => { c with op := e.2 }
  | none => c

/-- A capsule has been taken: the port keeps no data of it, nor of one before it that the pool lost. -/
def State.capsuleGone (s : State) (p n : Nat) : State :=
  s.setHif p { s.hifP p with data := (s.hifP p).data.filter fun e => decide (n < e.1) }

/-- Capsules that waited under back-pressure enter the port's queue as it empties (R377). -/
def State.capsulesIn (s : State) (p : Nat) : Nat → State
  | 0 => s
  | k + 1 =>
    match (s.hifP p).wait with
    | [] => if (s.hifP p).bp then s.setHif p { s.hifP p with bp := false } else s
    | c :: cs =>
      if s.poolUp && s.qEnabled (32 + p) && s.qRoom (32 + p) 64 then
        ((s.setHif p { s.hifP p with wait := cs }).capsulePut p c).capsulesIn p k
      else s

/-- QMG may take a capsule of a port: a context is Free, and the port's cap, eight of it for the admin queue, allows it (R393). An I/O
command waits while V of a band is re-established (R322; log 109). -/
def State.mayTake (s : State) (p : Nat) (c : HostCmd) : Bool :=
  let used := (s.portCtxs p).length
  let io := ((s.portCtxs p).filter fun e => e.2.cmd.sqid != 0).length
  let cap := s.rfld (regAddr bQMG (0x20 + 4 * p)) 0 13
  s.rbit qmgCtrl 0 && s.rbit (hifCtrl p) 0 && !(s.hifP p).draining && s.freeCtxNo.isSome &&
  decide (used < cap) && (c.sqid == 0 || (decide (io + 8 < cap) && !s.fw.zones.any fun e => e.2.finding))

/-- Keys of completed writes that are still only buffered, in the namespaces a Flush names: a zoned write completes only on media,
and what BUF then keeps of it is R172's (R403). -/
def State.flushKeys (s : State) (nsid : Nat) : List Nat :=
  let inFlight := (s.ctxs.filter fun e => e.2.st == .running && opWrites e.2.cmd.op).map fun e => e.2.need
  (s.fw.dirty.filterMap fun e => if e.2.isSome then some e.1 else none).filter fun k =>
    !(inFlight.any fun l => l.contains k) && (match s.spaceOf (k / 65536) with
      | some n => n.kind != 1 && (nsid == 0xFFFFFFFF || n.nsid == nsid)
      | none => false)

/-- CAPSULE_TAKE: QMG takes the head capsule of a port into a context and checks it (R392 to R395, R406). -/
def State.capsuleTake (s : State) (p : Nat) : State :=
  if !s.poolUp then s
  else match (s.cq (32 + p)).pkts with
  | [] => s
  | k :: ks =>
    match k.body with
    | .capsule c n =>
      let c := s.capsuleCmd p c n
      if !s.mayTake p c then s
      else match s.freeCtxNo with
        | none => s
        | some no =>
          let s := ((s.takeHead (32 + p) k ks false).capsuleGone p n).capsulesIn p 1024
          let s := { s with pwr := { s.pwr with idle := 0 } }
          let x : Ctx := { port := p, cmd := c, order := s.fw.order, need := if c.op = .flush then s.flushKeys c.nsid else [] }
          let s := s.modFw fun f => { f with order := f.order + 1 }
          if c.op = .keepAlive ∨ c.op = .asyncEvent then
            (s.setCtx no (some x)).onlyIf s.pwrAway fun s => s.pwrEvent
          else match s.cmdCheck p c with
            | some e => (s.setCtx no (some x)).commitCtx no { e with dw0 := (match c.op with
                | .zoneAppend _ _ => 0
                | _ => e.dw0) }
            | none =>
              let r := s.acceptWrite c
              let held := r.1.holdCause c
              let s := r.1.setCtx no (some { x with lba := r.2, st := if held then .held else .waiting })
              let s := s.onlyIf held fun s => s.count (qmgCtr 4)
              s.onlyIf s.pwrAway fun s => s.pwrEvent
    | _ => s.takeHead (32 + p) k ks false

/-- CAPSULE_TAKE. -/
def execCapsuleTake (p : Fin 4) (s : State) : Host.Outcome State Fault Refusal := .next (s.capsuleTake p)

/-! ## Admission (R362, R394) -/

/-- The Waiting context that comes next: the oldest that is not set aside. -/
def State.nextWaiting (s : State) : Option (Nat × Ctx) :=
  (s.ctxs.filter fun e => e.2.st == .waiting && !s.setAside e.2).foldl (fun m e => match m with
    | some f => if e.2.order < f.2.order then some e else m
    | none => some e) none

/-- The volatile write cache is enabled (R402). -/
def State.wce (s : State) : Bool := s.rbit (bankAddr 29) 0

/-- The reservations of a command are granted, and it runs (R394, R412). -/
def State.admitCmd (s : State) (c : Nat) (x : Ctx) : State :=
  let s := match s.dataQueue x with
    | some q => s.reserve q 17
    | none => s
  let s := s.reserve 4 1
  (s.setCtx c (some { x with st := .running, granted := true, ring := true, cached := s.wce, bufs := s.bufNeed x.cmd })).trimClean

/-- QMG_HOLD_ADMIT: HOLD_ADMIT is written; clearing it lets the held contexts go on in arrival order (R408, R412). -/
def State.holdAdmit (s : State) (v : Bool) : State :=
  let s := s.setRbit qmgCtrl 1 v
  if v then s else s.unhold

/-- QMG_HOLD_ADMIT. -/
def execQmgHoldAdmit (v : Bool) (s : State) : Host.Outcome State Fault Refusal := .next (s.holdAdmit v)

end Sys2Proof.Machine
end

