-- ==== Sys2Proof/Machine/Rw.lean ====
section
/-!
DEFINITION. Reads and writes of the host as firmware serves them: the buffer, the staging rings, the stripes given to MOPs,
and when a command completes (R68 to R76, R395 to R405).
-/
namespace Sys2Proof.Machine

/-! ## The end of a command -/

/-- The keys of a job overlap those of a command. -/
def Job.carries (j : Job) (need : List Nat) : Bool := j.keys.any fun k => need.contains k.1

/-- A MOP, a ladder or a relocation still carries a part of the command. -/
def State.carried (s : State) (x : Ctx) : Bool :=
  if opWrites x.cmd.op then s.fw.jobs.any (fun j => j.carries x.need) || s.fw.relocs.any fun r => r.write && r.keys.any fun k => x.need.contains k.1
  else x.need.any fun k => match s.groupOf (k / 65536) with
    | some g => s.reading (k / 65536) (g.stripeOf k) || s.onLadder (k / 65536) (g.stripeOf k)
    | none => false

/-- The entry of a command that has done what it asked for. -/
def Ctx.success (x : Ctx) : Cpl :=
  match x.cmd.op with
  | .zoneAppend _ _ => { dw0 := x.lba % 2 ^ 32, dw1 := x.lba / 2 ^ 32 }
  | .kvRetrieve _ => { dw0 := x.lba }
  | _ => {}

/-- The entry a command ends with, once nothing is left of it: an aborted one QMG_ABORTED_BY_HOST whatever landed, one cut by
a reset success if all of it verified (R404, R407). -/
def Ctx.final (x : Ctx) : Cpl :=
  if x.abort then codeCplFor x.cmd.op 0x200
  else if x.endWith ≠ 0 ∧ !(x.endWith == 0x201 && opWrites x.cmd.op && x.need.isEmpty) then codeCplFor x.cmd.op x.endWith
  else if x.code ≠ 0 then codeCplFor x.cmd.op x.code
  else x.success

/-- The command's part of the work has ended: everything is served or verified, or it is to end early and no MOP carries it. -/
def State.ctxDone (s : State) (x : Ctx) : Bool :=
  x.st == .running && x.begun && (x.need.isEmpty || ((x.abort || x.endWith != 0) && !s.carried x))

/-- Complete every command that has ended. -/
def State.settle (s : State) : State :=
  s.each s.ctxs fun s e => match s.ctxAt e.1 with
    | some x => s.onlyIf (s.ctxDone x) fun s => (s.setCtx e.1 (some { x with begun := false })).fwComplete e.1 x.final
    | none => s

/-- A command ends with a code of its own; its LBAs are no longer waited for. -/
def State.failCtx (s : State) (c code : Nat) : State :=
  match s.ctxAt c with
  | some x => s.setCtx c (some { x with code := if x.code = 0 then code else x.code, need := [] })
  | none => s

/-- Firmware ends a Running command with an entry. -/
def State.ctxEnd (s : State) (c : Nat) (e : Cpl) : State :=
  match s.ctxAt c with
  | some x => if x.st = .running ∧ !x.ended then (s.setCtx c (some { x with begun := false })).fwComplete c (if x.abort then codeCplFor x.cmd.op 0x200 else e) else s
  | none => s

/-! ## Verified LBAs -/

/-- LBAs now lie in verified stripes: no command waits for them any more (R68, R402, R403). -/
def State.verifiedIf (s : State) (p : Nat → Bool) : State :=
  s.each s.ctxs fun s e =>
    if (e.2.st == .running && opWrites e.2.cmd.op) || e.2.cmd.op == .flush then
      match s.ctxAt e.1 with
      | some x => s.setCtx e.1 (some { x with need := x.need.filter fun k => !p k })
      | none => s
    else s

/-- The same for a list of LBAs. -/
def State.verifiedKeys (s : State) (keys : List Nat) : State := s.verifiedIf keys.contains

/-- Sector buffers of LBAs are released (Table 12.3). -/
def State.dropBufs (s : State) (p : Nat → Bool) : State := s.modFw fun f => { f with bufs := f.bufs.filter fun b => !p b.key }

/-- A buffered LBA leaves the write buffer for the clean cache, if no newer version has come (R361). -/
def State.cleanKey (s : State) (key ver : Nat) : State :=
  match tget (fun _ => none) s.fw.dirty key with
  | some d => s.onlyIf (d.ver == ver) fun s => s.modFw fun f => { f with
      dirty := tset (fun _ => none) f.dirty key none, clean := tset (fun _ => none) f.clean key (some d.bytes) }
  | none => s

/-- Ring copies that satisfy a test are released: destaged or superseded (R75). A pinned stripe that has none left is pinned no more. -/
def Ring.release (r : Ring) (p : Nat → Nat → Bool) : Ring :=
  let keep (t : RingStripe) : RingStripe := { t with slots := t.slots.filter fun x => !p x.1 x.2.1 }
  { r with stripes := r.stripes.map keep, pinned := (r.pinned.map keep).filter fun t => !t.slots.isEmpty }

/-- Ring copies of a key up to a version are released. -/
def State.dropRing (s : State) (a key ver : Nat) : State := s.setRing a ((s.ring a).release fun k v => k == key && decide (v ≤ ver))

/-- Q may move past a ring stripe: it has been written, and every slot is destaged or superseded (R75). -/
def RingStripe.passable (t : RingStripe) : Bool := (t.verified || t.broken) && t.slots.isEmpty

/-- Q moves past what it may pass, and is recorded (R75, R77). -/
def Ring.pass (r : Ring) : Ring :=
  let left := r.stripes.dropWhile RingStripe.passable
  let q := match left.head? with
    | some t => t.pos
    | none => r.h
  { r with stripes := left, q := q, qRec := q }

/-- The user bytes of a ring stripe's index sector: sequence number, entry count, and namespace and LBA of each staged slot (R73). -/
def ringIndex (seq : Nat) (es : List (Nat × Nat)) : List Byte :=
  (leBytes 8 seq ++ leBytes 2 es.length ++ leBytes 6 0 ++ (es.map fun e => leBytes 4 e.1 ++ leBytes 4 0 ++ leBytes 8 e.2).flatten ++
    zeroBlock).take 4096

/-- Namespace and LBA of a key, as the index sector names it. -/
def State.indexEntry (s : State) (key : Nat) : Nat × Nat :=
  match s.spaceOf (key / 65536) with
  | some n => (n.nsid, s.lbaOf n key)
  | none => (0, 0)

/-- A ring stripe is written with the first staged LBAs, unless the ring is full; then the staged LBAs wait for Q (R73 to R75).
DESIGN CHOICE (log 68): a 256 MiB unit of the ring region holds ⌈65,536 / D⌉ ring positions. -/
def State.ringWrite (s : State) (a : Nat) : State :=
  let r := s.ring a
  if r.stage.isEmpty || r.len == 0 then s
  else if r.after r.h == r.q || decide (r.len ≤ r.stripes.length + r.pinned.length + 1) then s.setRing a { r with due := true }
  else
    let ks := r.stage.take (r.d - 1)
    let slots := ks.filterMap fun k => match tget (fun _ => none) s.fw.dirty k.1 with
      | some d => if d.ver = k.2 then some (k.1, k.2, d.bytes) else none
      | none => none
    let t : RingStripe := {
      pos := r.h, seq := r.seq, slots := slots, keys := slots.map Prod.fst, rows := slots.map fun x => x.2.2
      index := ringIndex r.seq (slots.map fun x => s.indexEntry x.1) }
    let s := s.setRing a { r with
      due := false, h := r.after r.h, seq := r.seq + 1, stripes := r.stripes ++ [t], stage := r.stage.drop (r.d - 1) }
    s.issue { tag := 0, eng := a, kind := .ring, op := 2, zone := regionTag a 1 (r.h / ceilDiv 65536 r.d), stripe := r.h
              area := 2, keys := slots.map fun x => (x.1, x.2.1) }

/-- LBAs are staged; a ring stripe is written when its slots are full (R74). -/
def State.stageKeys (s : State) (a : Nat) : List (Nat × Nat) → State
  | [] => s
  | k :: ks =>
    let r := s.ring a
    let s := s.setRing a { r with stage := r.stage ++ [k] }
    (s.onlyIf (decide (r.d - 1 ≤ r.stage.length + 1)) fun s => s.ringWrite a).stageKeys a ks

/-- Q advances, and writes held by a full ring go on (R75). -/
def State.ringAdvance (s : State) (a : Nat) : State :=
  let r := s.ring a
  let s := s.setRing a r.pass
  s.onlyIf (r.due || decide (r.d - 1 ≤ r.stage.length)) fun s => s.ringWrite a

/-! ## Buffering write data -/

/-- Write data enters the buffer as the newest version of its LBA (R76). -/
def State.bufferKey (s : State) (n : Nspace) (key : Nat) (b : List Byte) : State :=
  s.modFw fun f => { f with
    ver := f.ver + 1, dirty := tset (fun _ => none) f.dirty key (some ⟨b, f.ver + 1⟩), clean := tset (fun _ => none) f.clean key none
    bad := f.bad.filter fun k => k != key
    written := if n.kind = 1 then f.written else tset (fun _ => false) f.written key true }

/-- The version of a buffered LBA. -/
def State.verOf (s : State) (key : Nat) : Nat :=
  match tget (fun _ => none) s.fw.dirty key with
  | some d => d.ver
  | none => 0

/-- Versions of those of a list of keys that are buffered or in the ring: what a write of the stripe carries. -/
def State.carry (s : State) (g : Group) (keys : List Nat) : List (Nat × Nat) :=
  keys.filterMap fun k => match tget (fun _ => none) s.fw.dirty k, (s.ring g.home).newest k with
    | some d, _ => some (k, d.ver)
    | none, some (v, _) => some (k, v)
    | none, none => none

/-- An LBA's newest copy is in the buffer or in the ring. -/
def State.inHand (s : State) (g : Group) (key : Nat) : Bool :=
  (tget (fun _ => none) s.fw.dirty key).isSome || ((s.ring g.home).newest key).isSome

/-- The whole stripes from `stripe` on whose every data slot is present, at most `k` of them (R70). -/
def State.ready (s : State) (g : Group) (z stripe : Nat) : Nat → Nat
  | 0 => 0
  | k + 1 => if stripe < g.stripes ∧ (g.stripeKeys z stripe).all (s.inHand g) then 1 + s.ready g z (stripe + 1) k else 0

/-- The spare that MOPs of the band name: the next unused one, which no relocation takes while they run (R63, Table 9.4). -/
def State.holdSpare (s : State) (z : Nat) : State :=
  s.modZone z fun x => if x.spareHeld.isSome then x else { x with spareHeld := some x.spares, spares := x.spares + 1 }

/-- A MOP writes stripes of a band. -/
def State.bandJob (s : State) (g : Group) (z stripe n : Nat) (keys : List Nat) : State :=
  let s := s.holdSpare z
  s.issue { tag := 0, eng := g.home, kind := .band, op := 2, zone := z, stripe := stripe, count := n, gen := (s.zone z).gen
            keys := s.carry g keys, spare := (s.zone z).spareHeld.getD 0 }

/-- The stripes of a zone that may be placed lie below this one: a stopped stream places none that holds an LBA of the aborted command
or of a later one (R320). -/
def Zone.placeTop (x : Zone) (g : Group) : Nat := if x.stopping then x.stopAt / g.d else g.stripes

/-- Band stripes are given to MOPs of at most 16 stripes, as far as they are ready; `k` bounds the MOPs (R70, R320, R321). -/
def State.placeBand (s : State) (g : Group) (z : Nat) : Nat → State
  | 0 => s
  | k + 1 =>
    let x := s.zone z
    let n := min (s.ready g z x.placed 16) (x.placeTop g - x.placed)
    if n = 0 ∨ x.finding ∨ x.st = .full then s
    else
      let keys := ((upto n).map fun i => g.stripeKeys z (x.placed + i)).flatten
      ((s.setZone z { x with placed := x.placed + n }).bandJob g z x.placed n keys).placeBand g z k

/-- A conventional stripe is written in place with the newest copies in hand, and what a merge has read. While its relocation is pending it
waits for that: the relocation takes what is in hand as it starts (R312). -/
def State.convJob (s : State) (g : Group) (z stripe : Nat) (data : List (Nat × List Byte)) : State :=
  if s.relocating z stripe then s.modReloc z stripe fun r => some { r with again := true }
  else
    s.issue { tag := 0, eng := g.home, kind := .conv, op := 2, zone := z, stripe := stripe, gen := (s.zone z).gen, area := 2
              keys := s.carry g (g.stripeKeys z stripe), data := data }

/-- Destage of a conventional stripe: it is read on media first and merged into; one that has never been written there is formed whole
(R76). -/
def State.destage (s : State) (g : Group) (z stripe : Nat) : State :=
  if s.fw.jobs.any fun j => (j.kind == .conv || j.kind == .merge) && j.zone == z && j.stripe == stripe then s
  else if !s.relocating z stripe && tget (fun _ => false) s.fw.formed (65536 * z + stripe) then
    s.readFor g z stripe .merge (s.polOf z).win
  else s.convJob g z stripe []

/-- The distinct stripes of a list of keys in a group. -/
def stripesOf (g : Group) : List Nat → List (Nat × Nat)
  | [] => []
  | k :: ks =>
    let r := stripesOf g ks
    if r.contains (k / 65536, g.stripeOf k) then r else (k / 65536, g.stripeOf k) :: r

/-- Sector buffers of a write, tied to its LBAs: one each, and P more for each stripe (Table 12.3). -/
def holdsOf (g : Group) (port : Nat) (keys : List Nat) : List BufHold :=
  keys.map (fun k => { port := port, key := k, n := 1 }) ++
  (stripesOf g keys).map fun t => { port := port, key := 65536 * t.1 + t.2 * g.d, n := g.p }

/-- Place buffered LBAs of a group: band stripes that are whole, conventional stripes that the command covers, the rest in
the staging ring (R70, R76). -/
def State.placeKeys (s : State) (n : Nspace) (g : Group) (keys : List Nat) : State :=
  if n.kind = 1 then
    match keys.head? with
    | some k =>
      let z := k / 65536
      let s := s.placeBand g z (keys.length + 1)
      let left := keys.filter fun j => decide ((s.zone z).placed ≤ g.stripeOf j)
      s.stageKeys g.home (left.map fun j => (j, s.verOf j))
    | none => s
  else
    let whole := (stripesOf g keys).filter fun t => (g.stripeKeys t.1 t.2).all keys.contains
    let s := s.each whole fun s t => s.convJob g t.1 t.2 []
    let left := keys.filter fun j => !whole.contains (j / 65536, g.stripeOf j)
    s.stageKeys g.home (left.map fun j => (j, s.verOf j))

/-- A write's LBAs and data, with those of Write Zeroes. -/
def opData : HostOp → List (List Byte)
  | .write _ d => d
  | .zoneAppend _ d => d
  | .writeZeroes _ n => List.replicate n zeroBlock
  | _ => []

/-- A write to a zone whose ZONE_ACK a Jubilee source has had is counted and recorded (R435). -/
def State.lateWrite (s : State) (z : Nat) : State :=
  match (s.zone z).migrated with
  | some k =>
    let c : Ctr := ⟨jubL k 0x34, jubL k 0x3C, 5, regAddr bJUB 0x8, 7, 32⟩
    ((s.count c).raise (regAddr bJUB 0x8) 5).almanac 0x8080 bJUB k [(4, z)]
  | none => s

/-- Stripes of a conventional zone that a Jubilee source has sent and that are rewritten before ZONE_END are sent again (R430). -/
def State.jubRewrite (s : State) (g : Group) (keys : List Nat) : State :=
  if g.shingled then s
  else s.each (upto 2) fun s k =>
    let l := tget (fun _ => {}) s.jub k
    let f (q : JubZone) : JubZone :=
      if q.ended then q
      else
        let hit := (keys.filter fun j => decide (j / 65536 = q.zone)).map fun j => g.stripeOf j
        let hit := hit.eraseDups.filter fun t => (tget (fun _ => none) q.stripes t).isSome && !q.redo.contains t
        { q with redo := q.redo ++ hit }
    s.onlyIf (!s.rbit (jubL k 0) 0) fun s => { s with jub := tset (fun _ => {}) s.jub k { l with zones := l.zones.map f } }

/-- A write brings data from the host. -/
def opCarries : HostOp → Bool
  | .write _ _ => true
  | .zoneAppend _ _ => true
  | .kvStore _ _ _ _ => true
  | _ => false

/-- The data of a write waits at its port while the pool is not in service (R363, R364). -/
def State.dataWaits (s : State) (x : Ctx) : Bool := opCarries x.cmd.op && !s.poolUp

/-- Write data goes from the port through SEC, sector by sector, into the port's queue of host data, from which BUF takes it
(R33, Table 12.1). -/
def State.hostData (s : State) (x : Ctx) (n : Nspace) : List (Nat × List Byte) → State
  | [] => s
  | e :: es =>
    let q := 36 + x.port
    let s := s.put q ⟨.bytes (s.cipherIn n (s.lbaOf n e.1) e.2), 4096, false⟩
    (match (s.cq q).pkts with
      | k :: ks => s.takeHead q k ks false
      | [] => s).hostData x n es

/-- A command's data is buffered and placed, group by group (R60, R402). -/
def State.writeKeys (s : State) (c : Nat) (x : Ctx) (n : Nspace) (keys : List Nat) (data : List (List Byte)) : State :=
  let gs := (keys.filterMap fun k => s.groupOf (k / 65536)).eraseDups
  let mine (g : Group) : List Nat := keys.filter fun k => g.first ≤ k / 65536 && decide (k / 65536 < g.first + g.count)
  let s := s.setCtx c (some { x with begun := true, need := keys, bufs := 0 })
  let s := s.modFw fun f => { f with bufs := f.bufs ++ (gs.map fun g => holdsOf g x.port (mine g)).flatten }
  let s := s.each (keys.zip data) fun s e => s.bufferKey n e.1 (s.cipherIn n (s.lbaOf n e.1) e.2)
  let s := s.each (keys.map fun k => k / 65536).eraseDups fun s z => s.lateWrite z
  let s := s.each gs fun s g => (s.jubRewrite g (mine g)).placeKeys n g (mine g)
  if n.kind ≠ 1 ∧ x.cached then
    match s.ctxAt c with
    | some y => (s.setCtx c (some { y with need := [] })).settle
    | none => s
  else s.settle

/-- The first LBA a write goes to: the assigned one for a Zone Append. -/
def Ctx.first (x : Ctx) : Nat :=
  match x.cmd.op with
  | .zoneAppend _ _ => x.lba
  | .write l _ => l
  | .writeZeroes l _ => l
  | .read l _ _ => l
  | .compare l _ => l
  | _ => 0

/-! ## The write stream of a zone stops (R320, R405) -/

/-- Contexts that write a zone and are not committed, in the order QMG took them. -/
def insertCtx (e : Nat × Ctx) : List (Nat × Ctx) → List (Nat × Ctx)
  | [] => [e]
  | h :: t => if e.2.order ≤ h.2.order then e :: h :: t else h :: insertCtx e t
def State.zoneWriters (s : State) (z : Nat) : List (Nat × Ctx) :=
  (s.ctxs.filter fun e => e.2.st != .committed && opWrites e.2.cmd.op && (match s.space e.2.cmd.nsid with
    | some n => n.kind == 1 && s.keyOf n (e.2.first - e.2.first % 65536) == some (65536 * z)
    | none => false)).foldr insertCtx []

/-- A band MOP of the zone is on its way. -/
def State.bandBusy (s : State) (z : Nat) : Bool := s.fw.jobs.any fun j => j.kind == .band && j.zone == z

/-- Buffered and staged LBAs of a zone at or above an offset are dropped. -/
def State.dropAbove (s : State) (g : Group) (z off : Nat) : State :=
  let p (k : Nat) : Bool := k / 65536 == z && decide (off ≤ k % 65536)
  let s := s.modFw fun f => { f with dirty := f.dirty.filter fun e => !p e.1, clean := f.clean.filter fun e => !p e.1
                                     bufs := f.bufs.filter fun b => !p b.key
                                     packets := f.packets.filter fun x => !(x.tag == z && decide (off ≤ x.stripe * g.d)) }
  let r := (s.ring g.home).release fun k _ => p k
  s.setRing g.home { r with stage := r.stage.filter fun k => !p k.1 }

/-- Re-place the writers that go on: an append at the accept pointer, a write only if it starts there (R320). -/
def State.replace (s : State) (g : Group) (z : Nat) : List (Nat × Ctx) → State
  | [] => s
  | (c, x) :: es =>
    match s.space x.cmd.nsid, s.ctxAt c with
    | some n, some x =>
      let a := (s.zone z).accept
      let k := (opData x.cmd.op).length
      let at_ := s.lbaOf n (65536 * z) + a
      let append := match x.cmd.op with
        | .zoneAppend _ _ => true
        | _ => false
      if x.abort || x.endWith != 0 then s.replace g z es
      else if append || x.first == at_ then
        let s := s.modZone z fun y => { y with accept := a + k }
        let x := { x with lba := at_ }
        let s := if x.begun then s.writeKeys c { x with need := [] } n (s.keysOf n at_ k) (opData x.cmd.op) else s.setCtx c (some x)
        s.replace g z es
      else
        let s := if x.st = .running then s.ctxEnd c (codeCpl 0x203) else s.endCtx c (codeCpl 0x203)
        s.replace g z es
    | _, _ => s.replace g z es

/-- A writer that the stop of a stream leaves alone: it came before the aborted command, and is not to end itself (R320). -/
def State.goesOn (s : State) (z : Nat) (e : Nat × Ctx) : Bool :=
  !e.2.abort && e.2.endWith == 0 && decide (e.2.first % 65536 < (s.zone z).stopAt)

/-- The stopped stream resumes once no MOP of the zone is left and what came before the aborted command has ended: A is the write pointer
reached. -/
def State.streamResume (s : State) (z : Nat) : State :=
  match s.groupOf z with
  | none => s
  | some g =>
    if !(s.zone z).stopping || s.bandBusy z || (s.zoneWriters z).any fun e => s.goesOn z e && e.2.begun && !e.2.need.isEmpty then s
    else
      let wp := s.wpOff z
      let left := (s.zoneWriters z).filter fun e => !e.2.begun || !e.2.need.isEmpty
      let s := (s.dropAbove g z wp).modZone z fun x => { x with stopping := false, accept := wp, placed := x.v }
      let s := s.settle
      s.replace g z left

/-- A MOP of firmware's has been submitted to its engine. -/
def State.submitted (s : State) (j : Job) : Bool :=
  let o := s.ordP j.eng
  o.queue.any (fun m => m.tag == j.tag) || (match o.mop with
    | some m => m.tag == j.tag
    | none => false) || o.cpls.any fun c => fld c.c0 0 16 == j.tag

/-- LBAs of the stripe at which a stream stops that came before the aborted command go to the staging ring, since the stripe is not
written now (R70, R320). -/
def State.stageRest (s : State) (g : Group) (z : Nat) : State :=
  let x := s.zone z
  let r := s.ring g.home
  let keys := (g.stripeKeys z (x.stopAt / g.d)).filter fun k =>
    decide (k % 65536 < x.stopAt) && (tget (fun _ => none) s.fw.dirty k).isSome && (r.newest k).isNone && !r.stage.any fun e => e.1 == k
  s.onlyIf (!s.bandBusy z) fun s => s.stageKeys g.home (keys.map fun k => (k, s.verOf k))

/-- A zone's write stream stops at an aborted command: no further stripe that holds its LBAs or later ones is placed, MOPs of such stripes
that are not submitted go, and those queued on the home engine come back; what came before it goes on (R320, R405). -/
def State.streamStop (s : State) (z off : Nat) : State :=
  match s.groupOf z with
  | none => s
  | some g =>
    let at_ := if (s.zone z).stopping then min (s.zone z).stopAt off else off
    let s := s.modZone z fun x => { x with stopping := true, stopAt := at_ }
    let past (j : Job) : Bool := j.kind == .band && j.zone == z && decide (at_ < (j.stripe + j.count) * g.d) && !s.submitted j
    let back := ((s.fw.jobs.filter past).map Job.stripe).foldl min (s.zone z).placed
    let s := (s.modFw fun f => { f with jobs := f.jobs.filter fun j => !past j }).modZone z fun x => { x with placed := back }
    let s := (s.returnAdmitting g.home 0x1B5).returnQueued g.home 0x1B5
    ((s.placeBand g z 410).stageRest g z).streamResume z

/-! ## Serving reads (R398, R400) -/

/-- Data for the host goes through its port's read data queue. -/
def State.toHost (s : State) (c : Nat) (x : Ctx) (r : HostReply) : State := s.put (40 + x.port) ⟨.reply c r, 4096, false⟩

/-- Read data goes to the host as BUF holds it, for SEC to decipher; an LBA that is not on media and in no buffer reads as zeros. -/
def State.dataToHost (s : State) (c : Nat) (x : Ctx) (n : Nspace) (at_ lba len : Nat) : Option (List Byte) → State
  | some b => s.put (40 + x.port) ⟨.readData c n.key at_ lba len b, 4096, false⟩
  | none => s.toHost c x (.data at_ (zeroBlock.take len))

/-- One LBA of a read or compare is transferred: as BUF holds it, or none for zeros (R33, R398). -/
def State.transfer (s : State) (c : Nat) (x : Ctx) (n : Nspace) (key : Nat) (raw : Option (List Byte)) : State :=
  let lba := s.lbaOf n key
  match x.cmd.op with
  | .compare l d =>
    if lget [] d (lba - l) = (raw.map (s.cipherOut n lba)).getD zeroBlock then s
    else match s.ctxAt c with
      | some y => s.setCtx c (some { y with code := if y.code = 0 then 0x10000 else y.code })
      | none => s
  | .kvRetrieve k => match s.kvFind x.cmd.nsid k with
    | some e => s.dataToHost c x n (lba - e.lba) lba (min 4096 (e.len - 4096 * (lba - e.lba))) raw
    | none => s
  | _ => s.dataToHost c x n lba lba 4096 raw

/-- Serve what can be served of a command's LBAs now; each stripe that is needed from media is read once. -/
def State.serveKeys (s : State) (c : Nat) (x : Ctx) (n : Nspace) : List Nat → List Nat → State
  | [], left => match s.ctxAt c with
    | some y => s.setCtx c (some { y with need := left })
    | none => s
  | k :: ks, left =>
    match s.srcOf n k with
    | .here b => (s.transfer c x n k (some b)).serveKeys c x n ks left
    | .zeros => (s.transfer c x n k none).serveKeys c x n ks left
    | .lost => match s.ctxAt c with
      | some y => (s.setCtx c (some { y with code := if y.code = 0 then 0x1C0 else y.code })).serveKeys c x n ks left
      | none => s
    | .media => match s.groupOf (k / 65536) with
      | some g =>
        let z := k / 65536
        let t := g.stripeOf k
        let s := if s.onLadder z t then s.joinLadder g z t .read [g.slotOf k]
          else s.onlyIf (!s.reading z t) fun s => s.readJob g z t .read n.pol.win
        s.serveKeys c x n ks (left ++ [k])
      | none => s.serveKeys c x n ks left

/-- The entry of a read, compare or retrieve that has been served. -/
def Ctx.readEntry (x : Ctx) : Cpl := if x.code = 0x10000 ∧ !x.abort ∧ x.endWith = 0 then nvmeCpl 2 0x85 else x.final

/-- Serve a context's LBAs again, after a stripe has come from media. -/
def State.serveCtx (s : State) (c : Nat) : State :=
  match s.ctxAt c with
  | some x =>
    if x.st != .running || !x.begun || !opReads x.cmd.op then s
    else match s.space x.cmd.nsid with
      | some n =>
        let s := s.serveKeys c x n x.need []
        match s.ctxAt c with
        | some y => if y.need.isEmpty then (s.setCtx c (some { y with begun := false })).fwComplete c y.readEntry else s
        | none => s
      | none => s
  | none => s

/-- A read begins; one whose every LBA is in the buffer or the ring, or reads as zeros, is completed by BUF (R398). -/
def State.beginRead (s : State) (c : Nat) (x : Ctx) (n : Nspace) (keys : List Nat) : State :=
  let s := (s.setCtx c (some { x with begun := true, need := keys })).serveKeys c { x with need := keys } n keys []
  match s.ctxAt c with
  | some y => if y.need.isEmpty then (s.setCtx c (some { y with begun := false })).bufComplete c y.readEntry else s
  | none => s

/-- A finding met in the buffer is recorded; of a bad word, a clean LBA is read again from media, and other data fails with its status
(R332, R333, R400). What is not in the buffer meets none. -/
def State.bufferBad (s : State) (keys : List Nat) (find : EccFind) : State × Nat :=
  let here := keys.any fun k => (tget (fun _ => none) s.fw.clean k).isSome || (tget (fun _ => none) s.fw.dirty k).isSome
  let s := s.onlyIf here fun s => s.bufferFound find
  if !eccBad find then (s, 0)
  else match keys.find? fun k => (tget (fun _ => none) s.fw.clean k).isSome && (tget (fun _ => none) s.fw.dirty k).isNone with
    | some k => (s.modFw fun f => { f with clean := tset (fun _ => none) f.clean k none }, 0)
    | none =>
      if keys.any fun k => (tget (fun _ => none) s.fw.dirty k).isSome then (s, if find = .uncorrectable then 0x10 else 0x11) else (s, 0)

/-- A Running context whose command has not been begun. -/
def State.fresh (s : State) (c : Nat) : Option Ctx :=
  match s.ctxAt c with
  | some x => if x.st = .running ∧ !x.begun ∧ !x.ended ∧ !x.abort ∧ x.endWith = 0 then some x else none
  | none => none

/-- A Zone Reset that came before a command to its zone has not been done yet: the command waits for it (R314). -/
def State.behindReset (s : State) (x : Ctx) (n : Nspace) : Bool :=
  n.kind == 1 && s.ctxs.any fun e => e.2.st == .running && !e.2.begun && !e.2.ended && decide (e.2.order < x.order) &&
    e.2.cmd.nsid == x.cmd.nsid && match e.2.cmd.op with
      | .zoneSend lba 4 all => all || lba / 65536 == x.first / 65536
      | _ => false

/-- READ and the reading half of COMPARE. -/
def State.readCmd (s : State) (c : Nat) (find : EccFind) (want : HostOp → Bool) : State :=
  match s.fresh c with
  | none => s
  | some x =>
    if !want x.cmd.op then s
    else match s.space x.cmd.nsid, opRange x.cmd.op with
      | some n, some (lba, k) =>
        let keys := s.keysOf n lba k
        let r := s.bufferBad keys find
        if s.behindReset x n then s else if r.2 ≠ 0 then r.1.ctxEnd c (codeCpl r.2) else r.1.beginRead c x n keys
      | _, _ => s

/-- READ. -/
def execRead (c : Fin 4096) (find : EccFind) (s : State) : Host.Outcome State Fault Refusal :=
  .next (s.readCmd c find fun o => match o with
    | .read _ _ _ => true
    | _ => false)

/-- COMPARE. -/
def execCompare (c : Fin 4096) (find : EccFind) (s : State) : Host.Outcome State Fault Refusal :=
  .next (s.readCmd c find fun o => match o with
    | .compare _ _ => true
    | _ => false)

/-- WRITE, WRITE_ZEROES and ZONE_APPEND: the data is buffered and goes to media; data that is bad in the buffer ends the
command with its status, and nothing of it is written (R400, R402). -/
def State.writeCmd (s : State) (c : Nat) (find : EccFind) (want : HostOp → Bool) : State :=
  match s.fresh c with
  | none => s
  | some x =>
    if !want x.cmd.op then s
    else match s.space x.cmd.nsid with
      | none => s
      | some n =>
        let data := opData x.cmd.op
        let keys := s.keysOf n x.first data.length
        if s.behindReset x n || s.dataWaits x then s
        else if eccBad find then
          let s := (s.bufferFound find).ctxEnd c (codeCplFor x.cmd.op (if find = .uncorrectable then 0x10 else 0x11))
          match n.kind, keys.head? with
          | 1, some k => s.streamStop (k / 65536) (k % 65536)
          | _, _ => s
        else ((s.bufferFound find).hostData x n (if opCarries x.cmd.op then keys.zip data else [])).writeKeys c x n keys data

/-- WRITE. -/
def execWrite (c : Fin 4096) (find : EccFind) (s : State) : Host.Outcome State Fault Refusal :=
  .next (s.writeCmd c find fun o => match o with
    | .write _ _ => true
    | _ => false)

/-- WRITE_ZEROES. -/
def execWriteZeroes (c : Fin 4096) (s : State) : Host.Outcome State Fault Refusal :=
  .next (s.writeCmd c .clean fun o => match o with
    | .writeZeroes _ _ => true
    | _ => false)

/-- ZONE_APPEND. -/
def execZoneAppend (c : Fin 4096) (find : EccFind) (s : State) : Host.Outcome State Fault Refusal :=
  .next (s.writeCmd c find fun o => match o with
    | .zoneAppend _ _ => true
    | _ => false)

/-- FLUSH: it completes once what was completed when QMG took it is on verified media; with WCE 0 that is at once (R403). -/
def execFlush (c : Fin 4096) (s : State) : Host.Outcome State Fault Refusal :=
  .next (match s.fresh c with
    | some x =>
      if x.cmd.op = .flush then (s.setCtx c (some { x with begun := true })).settle else s
    | none => s)

/-- RING_CLOSE_TIMEOUT: the staged sectors are written as a ring stripe, with fill slots (R74). -/
def execRingCloseTimeout (a : Fin 4) (s : State) : Host.Outcome State Fault Refusal := .next (s.ringWrite a)

/-- V_RECORD_TIMER: V of each open band is recorded in the zone table (R322). -/
def State.recordV (s : State) (z : Nat) : State :=
  match s.groupOf z with
  | some g => s.modZone z fun x => x.record (s.liveV g z)
  | none => s

/-- V_RECORD_TIMER. -/
def execVRecordTimer (s : State) : Host.Outcome State Fault Refusal :=
  .next (s.each ((s.fw.zones.filter fun e => e.2.st == .implOpen || e.2.st == .explOpen).map Prod.fst) fun s z => s.recordV z)

end Sys2Proof.Machine
end

