-- ==== Sys2Proof/Machine/Zones.lean ====
section
/-!
DEFINITION. Zone management (R396, R397, R314).
-/
namespace Sys2Proof.Machine

/-- Ladders of a zone and relocations of it that have started (R314). -/
def State.zoneBusy (s : State) (z : Nat) : Bool :=
  (s.fw.ladders.any fun l => l.zone == z) || s.fw.relocs.any fun r => r.zone == z && r.started

/-- Relocations of a zone that are queued and not started are dropped (R314). -/
def State.dropRelocs (s : State) (z : Nat) : State :=
  s.modFw fun f => { f with relocs := f.relocs.filter fun r => !(r.zone == z && !r.started) }

/-- QMG took a context before context `c`. -/
def State.before (s : State) (c : Nat) (x : Ctx) : Bool :=
  match s.ctxAt c with
  | some y => decide (x.order < y.order)
  | none => true

/-- Reads and writes of the zone that have begun, reads admitted before context `c`, and writes whose LBAs entered the zone's stream before
it, other than that (R314, R395). -/
def State.zoneInUse (s : State) (z c : Nat) : Bool :=
  s.ctxs.any fun e => e.1 != c && e.2.st != .committed && ((e.2.st == .running && e.2.need.any (fun k => k / 65536 == z)) ||
    (!e.2.begun && !e.2.ended && s.before c e.2 && (e.2.st == .running || opWrites e.2.cmd.op) && (match s.space e.2.cmd.nsid, opRange e.2.cmd.op with
      | some n, some _ => s.keyOf n (e.2.first - e.2.first % 65536) == some (65536 * z)
      | _, _ => false)))

/-- The zone's change is noted in the zone table and for the Changed Zone List of every port (R78, Table 13.3). -/
def State.zoneChanged (s : State) (z : Nat) : State :=
  (s.modZone z Zone.noted).modFw fun f => { f with changed := f.changed ++ (upto 4).map fun p => (p, z) }

/-- A Jubilee source restarts a zone that is reset before its ZONE_END (R430). -/
def State.jubRestart (s : State) (z : Nat) : State :=
  s.each (upto 2) fun s k =>
    let l := tget (fun _ => {}) s.jub k
    let source := !(s.rbit (jubL k 0) 0)
    let mark (q : JubZone) : JubZone := if q.zone == z && !q.ended && source then { q with failed := 0x506 } else q
    { s with jub := tset (fun _ => {}) s.jub k { l with zones := l.zones.map mark } }

/-- A MOP of a zone's refresh. -/
def Job.fresh (z : Nat) (j : Job) : Bool := (j.kind == .refreshRead || j.kind == .refreshCopy || j.kind == .refreshWrite) && j.zone == z

/-- A MOP of the zone's refresh is with its engine: a Zone Reset or a Format waits for it (R421). -/
def State.refreshBusy (s : State) (z : Nat) : Bool := s.fw.jobs.any fun j => j.fresh z && s.submitted j

/-- A Zone Reset or a Format of the zone waits: its refresh goes no further (R421). -/
def State.resetWaits (s : State) (z : Nat) : Bool :=
  match s.spaceOf z with
  | none => false
  | some n => n.formatting || s.ctxs.any fun e => e.2.st == .running && !e.2.begun && !e.2.ended && e.2.cmd.nsid == n.nsid && match e.2.cmd.op with
    | .zoneSend lba 4 all => all || s.keyOf n lba == some (65536 * z)
    | _ => false

/-- The refresh of a zone stops and its copy goes (R421). -/
def State.stopRefresh (s : State) (z : Nat) : State :=
  let s := s.modFw fun f => { f with jobs := f.jobs.filter fun j => !j.fresh z }
  s.each (upto 4) fun s a =>
    let h := tget (fun _ => {}) s.fw.harv a
    s.onlyIf (h.refresh == some z) fun s => s.modFw fun f => { f with harv := tset (fun _ => {}) f.harv a { h with refresh := none, copy := [], copied := 0, saved := 0 } }

/-- The effects of a Zone Reset on a zone (R66, R421). Writes that QMG took behind it and checked before it meet the reset zone (R320; log
118). -/
def State.resetZone (s : State) (z : Nat) : State :=
  match s.groupOf z with
  | none => s
  | some g =>
    let s := ((s.dropAbove g z 0).dropRelocs z).stopRefresh z
    let s := s.setZone z { gen := ((s.zone z).gen + 1) % 65536, receiving := (s.zone z).receiving }
    ((s.zoneChanged z).jubRestart z).replace g z (s.zoneWriters z)

/-- A zone is reset by Jubilee (R432 to R434): a conventional one reads as never written. -/
def State.jubReset (s : State) (z : Nat) : State :=
  (s.resetZone z).modFw fun f => { f with
    written := tdrop f.written (65536 * z) (65536 * (z + 1)), formed := tdrop f.formed (65536 * z) (65536 * (z + 1)) }

/-- Zones that a Jubilee source is to release are reset as soon as R314 lets them (R433). -/
def State.releaseZones (s : State) : State :=
  let ready := s.fw.release.filter fun z => !s.zoneBusy z && !s.zoneInUse z 4096 && !s.bandBusy z && !s.refreshBusy z
  s.each ready fun s z => (s.modFw fun f => { f with release := f.release.filter fun y => y != z }).jubReset z

/-- The zones a Zone Management Send names: one, at its first LBA, or all of the namespace. -/
def State.sendZones (s : State) (n : Nspace) (lba : Nat) (all : Bool) : Option (List Nat) :=
  if all then some ((upto (s.spaceZones n)).filterMap fun i => zoneAt (s.spaceGroups n) i)
  else if lba % 65536 ≠ 0 then none
  else (zoneAt (s.spaceGroups n) (lba / 65536)).map fun z => [z]

/-- Zone Open on one zone: its code, and the state (Table 14.2). -/
def State.openZone (s : State) (n : Nspace) (z : Nat) : State × Nat :=
  let x := s.zone z
  if x.receiving then (s, 0x509)
  else if s.zoneReadOnly z ∨ x.st = .full ∨ x.finishing.isSome then (s, 0x208)
  else if s.openLimit n z ≠ 0 then (s, s.openLimit n z)
  else ((s.setZone z { x with st := .explOpen }).zoneChanged z, 0)

/-- Zone Close on one zone. -/
def State.closeZone (s : State) (z : Nat) : State × Nat :=
  let x := s.zone z
  if x.receiving then (s, 0x509)
  else if s.zoneReadOnly z ∨ x.st = .full ∨ x.st = .empty ∨ x.finishing.isSome then (s, 0x208)
  else if x.st = .closed then (s, 0)
  else ((s.setZone z { x with st := if x.accept = 0 then .empty else .closed }).zoneChanged z, 0)

/-- The zone's last key: what a Zone Finish waits for. -/
def lastKey (z : Nat) : Nat := 65536 * z + 65535

/-- Firmware ends what a context waits for of a zone that it finishes; the last one ends the command. -/
def State.finished (s : State) (c z : Nat) : State :=
  match s.ctxAt c with
  | some x => (s.setCtx c (some { x with need := x.need.filter fun k => k != lastKey z })).settle
  | none => s

/-- A Zone Finish goes on without the command that asked for it. -/
def Zone.detach (c : Nat) (x : Zone) : Zone := if x.finishing = some (c + 1) then { x with finishing := some 0 } else x
def State.detachFinish (s : State) (c : Nat) : State := s.modFw fun f => { f with zones := f.zones.map fun e => (e.1, e.2.detach c) }

/-- A zone that a command finishes cannot be: the command ends with the code. -/
def State.finishFail (s : State) (c code : Nat) : State := ((s.failCtx c code).detachFinish c).settle

/-- A finished zone becomes Full once every stripe below A has verified (R396). -/
def State.finishCheck (s : State) (z : Nat) : State :=
  match (s.zone z).finishing, s.groupOf z with
  | some c, some g =>
    let x := s.zone z
    if x.accept ≤ g.d * x.v then
      let s := s.setZone z { x with st := .full, finishing := none }
      let s := (s.dropBufs fun k => k / 65536 == z).zoneChanged z
      if c = 0 then s else s.finished (c - 1) z
    else s
  | _, _ => s

/-- The staged tail of a zone is written as one stripe, with fill slots (R70, R396). -/
def State.tailJob (s : State) (g : Group) (z : Nat) : State :=
  let x := s.zone z
  if x.accept ≤ g.d * x.placed ∨ x.placeTop g ≤ x.placed then s
  else
    let keys := (g.stripeKeys z x.placed).filter fun k => decide (k % 65536 < x.accept)
    (s.setZone z { x with placed := x.placed + 1 }).bandJob g z x.placed 1 keys

/-- Writes that QMG took behind a Zone Finish and checked before it meet a Full zone, and leave the zone's stream (R395, R396; log 118). -/
def State.finishStream (s : State) (g : Group) (z : Nat) : State :=
  let late := (s.zoneWriters z).filter fun e => !e.2.begun && !e.2.ended
  let n := (late.map fun e => (opData e.2.cmd.op).length).sum
  let s := s.each late fun s e =>
    if e.2.st == .running then s.ctxEnd e.1 (codeCplFor e.2.cmd.op 0x204) else s.endCtx e.1 (codeCplFor e.2.cmd.op 0x204)
  let s := s.modZone z fun x => { x with accept := x.accept - n }
  (s.dropRelocs z).placeBand g z 410

/-- Zone Finish on one zone begins: `c` is the context plus 1. The number is 0 where nothing is to be done, 1 where the zone is to be
written first. -/
def State.finishZone (s : State) (z c : Nat) : State × Nat :=
  let x := s.zone z
  match s.groupOf z with
  | none => (s, 0x208)
  | some g =>
    if x.receiving then (s, 0x509)
    else if s.zoneReadOnly z then (s, 0x208)
    else if x.st = .full then (s, 0)
    else
      let s := (s.finishStream g z).tailJob g z
      let s := s.modZone z fun x =>
        Zone.noted { x with finishing := some c, st := if x.st = .empty ∨ x.st = .closed then .implOpen else x.st }
      (s.finishCheck z, 1)

/-- A Zone Management Send of one action: each zone it names, or the first failing code (R396). -/
def State.zoneSend (s : State) (c : Nat) (action : Nat) (f : State → Nspace → Nat → State × Nat) (sel : ZSt → Bool) : State :=
  match s.fresh c with
  | none => s
  | some x =>
    match x.cmd.op, s.space x.cmd.nsid with
    | .zoneSend lba act all, some n =>
      if act ≠ action then s
      else match s.sendZones n lba all with
        | none => s.ctxEnd c invalidField
        | some zs =>
          let zs := if all then zs.filter fun z => sel (s.zone z).st else zs
          let r := zs.foldl (fun (a : State × Nat) z => if a.2 ≠ 0 ∧ !all then a else
            let b := f a.1 n z
            (b.1, if all then 0 else b.2)) (s, 0)
          r.1.ctxEnd c (if r.2 = 0 then {} else codeCpl r.2)
    | _, _ => s

/-- ZONE_OPEN. PRESUMED: with Select All, every Closed zone. -/
def execZoneOpen (c : Fin 4096) (s : State) : Host.Outcome State Fault Refusal :=
  .next (s.zoneSend c 3 (fun s n z => s.openZone n z) fun t => t == .closed)

/-- ZONE_CLOSE. PRESUMED: with Select All, every opened zone. -/
def execZoneClose (c : Fin 4096) (s : State) : Host.Outcome State Fault Refusal :=
  .next (s.zoneSend c 1 (fun s _ z => s.closeZone z) fun t => t == .implOpen || t == .explOpen)

/-- The zones of a waiting command may be worked on: no ladder or started relocation, nothing admitted and unfinished (R314). -/
def State.sendReady (s : State) (c : Nat) (n : Nspace) (lba : Nat) (all : Bool) : Bool :=
  match s.sendZones n lba all with
  | none => true
  | some zs => zs.all fun z => !s.zoneBusy z && !s.zoneInUse z c && !s.bandBusy z && (s.zone z).finishing.isNone

/-- Zone Finish on each of several zones for context `c` − 1, or for none; one that cannot be finished fails the command (R396). -/
def State.finishAll (s : State) (c : Nat) : List Nat → State
  | [] => s
  | z :: zs =>
    let r := s.finishZone z c
    if r.2 = 1 ∨ c = 0 then r.1.finishAll c zs
    else if r.2 = 0 then (r.1.finished (c - 1) z).finishAll c zs
    else (r.1.finishFail (c - 1) r.2).finishAll 0 zs

/-- ZONE_FINISH: it completes when the tail stripe of every zone it names verifies. With Select All (PRESUMED) it names every active
zone. -/
def execZoneFinish (c : Fin 4096) (s : State) : Host.Outcome State Fault Refusal :=
  .next (match s.fresh c with
    | none => s
    | some x => match x.cmd.op, s.space x.cmd.nsid with
      | .zoneSend lba 2 all, some n =>
        if !s.sendReady c n lba all then s
        else match s.sendZones n lba all with
          | none => s.ctxEnd c invalidField
          | some zs =>
            let zs := if all then zs.filter fun z => (s.zone z).st != .empty && (s.zone z).st != .full else zs
            if zs.isEmpty then s.ctxEnd c {}
            else (s.setCtx c (some { x with begun := true, need := zs.map lastKey })).finishAll (c + 1) zs
      | _, _ => s)

/-- ZONE_RESET. PRESUMED: with Select All, every zone that is not Empty. -/
def execZoneReset (c : Fin 4096) (s : State) : Host.Outcome State Fault Refusal :=
  .next (match s.fresh c with
    | none => s
    | some x => match x.cmd.op, s.space x.cmd.nsid with
      | .zoneSend lba 4 all, some n =>
        if !s.sendReady c n lba all || ((s.sendZones n lba all).getD []).any s.refreshBusy then s
        else s.zoneSend c 4 (fun s _ z =>
          if (s.zone z).receiving then (s, 0x509) else if s.zoneReadOnly z then (s, 0x208) else (s.resetZone z, 0)) fun t => t != .empty
      | _, _ => s)

/-- A zone state as Report Zones gives it. PRESUMED: the numbers are those of the NVMe specification. -/
def State.zsCode (s : State) (z : Nat) : Nat :=
  if s.zoneReadOnly z then 0xD
  else match (s.zone z).st with
    | .empty => 1
    | .implOpen => 2
    | .explOpen => 3
    | .closed => 4
    | .full => 0xE

/-- REPORT_ZONES: the zones from that of the LBA on, with their states and write pointers (R71, R396). -/
def execReportZones (c : Fin 4096) (s : State) : Host.Outcome State Fault Refusal :=
  .next (match s.fresh c with
    | none => s
    | some x => match x.cmd.op, s.space x.cmd.nsid with
      | .reportZones lba, some n =>
        let gs := s.spaceGroups n
        let l := ((upto (s.spaceZones n)).filter fun i => decide (lba / 65536 ≤ i)).filterMap fun i =>
          (zoneAt gs i).map fun z => (i, s.zsCode z, (s.zone z).byCtrl, 65536 * i + s.wpOff z)
        (s.toHost c x (.zones l)).ctxEnd c {}
      | _, _ => s)

end Sys2Proof.Machine
end

