-- ==== Sys2Proof/Machine/Ladder.lean ====
section
/-!
DEFINITION. The Novena ladder and relocation (R295 to R314).
-/
namespace Sys2Proof.Machine

/-- Firmware's own records name no block: 0xFFFF stands for the application cluster. -/
def State.fwRecord (s : State) (code inst : Nat) (fields : List (Nat × Nat)) : State := s.almanac code 0xFFFF inst fields

/-- An asynchronous event completes an outstanding request of the port, or waits for one (R406). -/
def State.asyncEvent (s : State) (p kind : Nat) : State :=
  match (s.portCtxs p).find? fun e => e.2.st == .running && e.2.cmd.op == .asyncEvent && e.2.begun with
  | some (c, _) => s.ctxEnd c { dw0 := kind }
  | none => s.modFw fun f => { f with events := if f.events.contains (p, kind) then f.events else f.events ++ [(p, kind)] }

/-! ## Reads of a stripe as they come back -/

/-- The sectors of a MOP that BUF has, removed from those it holds. -/
def State.takeRx (s : State) (n tag : Nat) : State × List RxSec :=
  let p (r : RxSec) : Bool := r.eng == n && r.tag == tag
  (s.modFw fun f => { f with rx := f.rx.filter fun r => !p r }, s.fw.rx.filter p)

/-- Good slots of a site with their bytes, and failed slots with their statuses; a sector that was never delivered failed with the MOP
(R277). -/
def splitRx (f : Group) (x : Site) (st : Nat) (rx : List RxSec) : List (Nat × List Byte) × List (Nat × Nat) :=
  (upto (x.stripes * f.width)).foldr (fun p acc =>
    match (rx.filter fun r => r.slot f x == some p).getLast? with
    | some r =>
      if r.q.status = 0 ∧ r.bad = 0 then ((p, r.info) :: acc.1, acc.2)
      else (acc.1, (p, if r.bad ≠ 0 then r.bad else r.q.status) :: acc.2)
    | none => (acc.1, (p, if st = 0 then 0x151 else st) :: acc.2)) ([], [])

/-- The first pass may have left the sector held: R296 names the failures that hold nothing. -/
def mayHold (st : Nat) : Bool := !([0x140, 0x141, 0x163, 0x165, 0x166].contains st || (decide (0x150 ≤ st) && decide (st ≤ 0x159)) || decide (st < 0x20))

/-- User bytes of good data slots enter the buffer where no newer copy stands (R76). -/
def State.fillClean (s : State) (n : Nspace) (g : Group) (z stripe : Nat) (good : List (Nat × List Byte)) : State :=
  s.each good fun s e =>
    let off := stripe * g.d + e.1
    let key := 65536 * z + off
    if g.d ≤ e.1 ∨ 65536 ≤ off then s
    else s.onlyIf (s.srcOf n key == .media) fun s => s.modFw fun f => { f with
      clean := tset (fun _ => none) f.clean key (some (e.2.take 4096)) }

/-- Every read that waits is served again (R398). -/
def State.serveAll (s : State) : State :=
  s.each s.ctxs fun s e => s.onlyIf (e.2.st == .running && e.2.begun && opReads e.2.cmd.op) fun s => s.serveCtx e.1

/-- Commands that wait for an LBA of a stripe and are not to end early. -/
def State.waiters (s : State) (g : Group) (z stripe : Nat) : List (Nat × Ctx) :=
  s.ctxs.filter fun e => e.2.st == .running && e.2.begun && opReads e.2.cmd.op && !e.2.abort && e.2.endWith == 0 &&
    e.2.need.any fun k => k / 65536 == z && g.stripeOf k == stripe

/-- Data slots of a stripe that waiting commands need (R295). -/
def State.wanted (s : State) (g : Group) (z stripe : Nat) : List Nat :=
  (upto g.d).filter fun i => (s.waiters g z stripe).any fun e => e.2.need.contains (65536 * z + stripe * g.d + i)

/-- A stripe is passed to Harvest, which reads it again (R295, R310). -/
def State.toHarvest (s : State) (a z stripe : Nat) : State :=
  let h := tget (fun _ => {}) s.fw.harv a
  s.modFw fun f => { f with harv := tset (fun _ => {}) f.harv a { h with queue := h.queue ++ [(z, stripe)] } }

/-! ## The refresh of a band, as far as reads and relocations end it (R420, R421) -/

/-- The next stripe of a band in refresh is read, one that holds data at a time (R420). -/
def State.freshRead (s : State) (g : Group) (z : Nat) : State :=
  let h := tget (fun _ => {}) s.fw.harv g.home
  if h.refresh = some z ∧ h.copied < s.freshTop g z ∧ !s.resetWaits z then s.readFor g z h.copied .refreshRead true else s

/-- BUF has a stripe of a band in refresh: its data slots join the copy, and the next stripe is read (R420). -/
def State.freshTake (s : State) (g : Group) (z stripe : Nat) (data : List (Nat × List Byte)) : State :=
  let h := tget (fun _ => {}) s.fw.harv g.home
  if h.refresh = some z ∧ h.copied = stripe then
    let copy := data.foldl (fun t e => if stripe * g.d + e.1 < 65536 then
      tset (fun _ => []) t (65536 * z + stripe * g.d + e.1) (e.2.take 4096) else t) h.copy
    (s.modFw fun f => { f with harv := tset (fun _ => {}) f.harv g.home { h with copy := copy, copied := stripe + 1 } }).freshRead g z
  else s

/-- A refresh ends without having written its band. DESIGN CHOICE (log 73): a stripe that the ladder does not recover ends it so. -/
def State.freshDrop (s : State) (g : Group) (z : Nat) : State :=
  let h := tget (fun _ => {}) s.fw.harv g.home
  s.onlyIf (h.refresh == some z) fun s =>
    (s.modFw fun f => { f with
      harv := tset (fun _ => {}) f.harv g.home { h with refresh := none, copy := [], copied := 0, saved := 0 } }).modZone z fun x =>
      { x with refresh := 0, copyFrom := if x.refresh = 3 then some x.v else x.copyFrom }

/-! ## Relocation (R308 to R313) -/

/-- Commands that wait for LBAs of a write end with a code. The LBAs of a conventional zone then read as unrecovered until they are
rewritten; a zone's write stream stops at the first that is lost (R313; log 105). -/
def State.failWrite (s : State) (keys : List Nat) (code : Nat) : State :=
  let hit (x : Ctx) : Bool := x.st == .running && opWrites x.cmd.op && x.need.any keys.contains
  let acked := keys.filter fun k => !(s.ctxs.any fun e => e.2.st == .running && e.2.need.contains k)
  let s := s.each (s.ctxs.filter fun e => hit e.2) fun s e => s.failCtx e.1 code
  let s := s.modFw fun f => { f with bad := f.bad ++ keys, dirty := f.dirty.filter fun e => !keys.contains e.1 }
  let s := s.dropBufs fun k => keys.contains k
  let s := match acked.head? with
    | some k => s.each (upto 4) fun s p => match (s.hifP p).ctrl with
      | some c => (s.setHif p { s.hifP p with ctrl := some { c with errors := [0, 0, 2, 0x80, code, k % 2 ^ 37] :: c.errors } }).asyncEvent p 0
      | none => s
    | none => s
  (s.each keys fun s k => match s.groupOf (k / 65536) with
    | some g => s.onlyIf g.shingled fun s => s.streamStop (k / 65536) (k % 65536)
    | none => s).settle

/-- A ring position that could not be written anywhere holds nothing any more (R313). -/
def State.ringBroken (s : State) (a pos : Nat) : State :=
  let r := s.ring a
  let f (t : RingStripe) : RingStripe := if t.pos = pos then { t with slots := [], broken := true } else t
  (s.setRing a { r with stripes := r.stripes.map f }).ringAdvance a

/-- Ring copies of a sealed band that could not be relocated stay, and their positions leave the ring (R318; log 104). -/
def State.pinTail (s : State) (a : Nat) (keys : List Nat) : State :=
  let r := s.ring a
  let mine (t : RingStripe) : Bool := t.slots.any fun x => keys.contains x.1
  (s.setRing a { r with pinned := r.pinned ++ r.stripes.filter mine, stripes := r.stripes.filter fun t => !mine t }).ringAdvance a

/-- A write that spent its retries has not been relocated either (R313). -/
def State.writeLost (s : State) (j : Job) (keys : List Nat) (code : Nat) : State :=
  match j.kind with
  | .conv => s.failWrite keys code
  | .ring => (s.failWrite keys code).ringBroken j.eng j.stripe
  | .refreshCopy => match s.groupOf j.zone with
    | some g => s.freshDrop g j.zone
    | none => s
  | _ => s

/-- The write of a stripe that waited for its relocation goes out (R312). -/
def State.writeAgain (s : State) (g : Group) (z stripe : Nat) : State :=
  if (g.stripeKeys z stripe).all (s.inHand g) then s.convJob g z stripe [] else s.destage g z stripe

/-- A relocation is over without having been done: what waited for it ends with the code, and what BUF held for it goes (R308, R313,
R318). -/
def State.dropReloc (s : State) (r : Reloc) (code : Nat) : State :=
  let s := s.modReloc r.zone r.stripe fun _ => none
  let s := if r.tail then s.pinTail r.eng (r.keys.map Prod.fst) else match r.job with
    | some j => s.writeLost j (r.keys.map Prod.fst) code
    | none => s
  match s.groupOf r.zone with
  | some g => s.onlyIf r.again fun s => s.writeAgain g r.zone r.stripe
  | none => s

/-- A relocation is given up, with its record (R309, R311); the copies of a sealed band's tail go on into the pool (R318). -/
def State.abandonReloc (s : State) (r : Reloc) (code : Nat) : State :=
  let s := s.fwRecord code r.eng [(4, r.zone), (4, r.stripe)]
  if r.tail && !r.toPool then s.modReloc r.zone r.stripe fun r => some { r with toPool := true, tries := 0, started := false }
  else s.dropReloc r code

/-- R310 forbids relocations of a group's stripes: the zone is read-only, or its actuator Disabled. -/
def State.relocBarred (s : State) (g : Group) : Bool := g.readOnly || s.actSt g.home == 6

/-- The lowest free pool stripes of an actuator. -/
def State.freePool (s : State) (a k : Nat) : Option Nat :=
  let used := tget (fun _ => []) s.fw.poolUsed a
  (upto (tget (fun _ => 0) s.fw.poolLen a)).find? fun i => (upto k).all (fun j => !used.contains (i + j)) &&
    decide (i + k ≤ tget (fun _ => 0) s.fw.poolLen a)

/-- A relocation's write goes into the band's next unused spare (R309). A spare that the band's MOPs name is left to them while one is on
its way (log 106). -/
def State.relocSpare (s : State) (r : Reloc) (g : Group) : State :=
  let x := s.zone r.zone
  let named := x.spareHeld.filter fun _ => !s.bandBusy r.zone
  let k := named.getD x.spares
  if g.spareCount ≤ k ∨ 134217728 ≤ s.remapCount g.home then s.abandonReloc r 0x144
  else
    let s := s.setZone r.zone (if named.isSome then { x with spareHeld := none } else { x with spares := x.spares + 1 })
    let s := s.modReloc r.zone r.stripe fun r => some { r with started := true, tries := r.tries + 1 }
    s.issue { tag := 0, eng := g.home, kind := .spare k, op := 2, zone := r.zone, stripe := r.stripe, gen := x.gen, area := 1
              keys := r.keys, data := r.data }

/-- A relocation's write goes into the lowest free pool stripes, with what is in hand of the stripe's LBAs (R311, R312). -/
def State.relocPool (s : State) (r : Reloc) (g : Group) : State :=
  let k := if r.rows ≠ 0 then r.rows else s.innerCount g
  match s.freePool g.home k with
  | none => s.abandonReloc r 0x1C3
  | some i =>
    if 67108864 ≤ (tget (fun _ => []) s.fw.pool g.home).length then s.abandonReloc r 0x1C3
    else
      let used := (upto k).map (fun d => i + d) ++ tget (fun _ => []) s.fw.poolUsed g.home
      let s := s.modFw fun f => { f with poolUsed := tset (fun _ => []) f.poolUsed g.home used }
      let keys := if r.zone < 2 ^ 21 ∧ !g.shingled then s.carry g (g.stripeKeys r.zone r.stripe) else r.keys
      let s := s.modReloc r.zone r.stripe fun r => some { r with started := true, tries := r.tries + 1, again := false, keys := keys }
      s.issue { tag := 0, eng := g.home, kind := .pool i, op := 2, zone := r.zone, stripe := r.stripe, count := k
                gen := if 2 ^ 21 ≤ r.zone then 0 else (s.zone r.zone).gen, area := 2, keys := keys, data := r.data }

/-- The next write of a relocation goes out, unless R310 forbids it by now. -/
def State.relocWrite (s : State) (r : Reloc) (g : Group) : State :=
  if s.relocBarred g then s.dropReloc r 0x196
  else if g.shingled && !r.toPool then s.relocSpare r g
  else s.relocPool r g

/-- The first relocation queued on an actuator starts, if none has; `n` bounds those that end at once. -/
def State.relocNext (s : State) (a : Nat) : Nat → State
  | 0 => s
  | n + 1 =>
    if s.fw.relocs.any fun q => q.eng == a && q.started then s
    else match s.fw.relocs.find? fun q => q.eng == a with
      | some r => (match s.formatOf r.zone with
        | some g => s.relocWrite r g
        | none => s.modReloc r.zone r.stripe fun _ => none).relocNext a n
      | none => s

/-- A stripe is queued for relocation, unless R310 forbids it; one that a failed write asks for takes over what is queued already. A
failed write that finds the queue full is abandoned (log 105). -/
def State.relocate (s : State) (z stripe max : Nat) (job : Option Job) (keys : List (Nat × Nat)) (data : List (Nat × List Byte))
    (tail : Bool := false) (rows : Nat := 0) : State :=
  match s.formatOf z with
  | none => s
  | some g =>
    let r : Reloc := { zone := z, stripe := stripe, eng := g.home, max := max, job := job, tail := tail, keys := keys, data := data, rows := rows }
    if s.relocating z stripe then s.onlyIf job.isSome fun s => s.modReloc z stripe fun q => some { q with job := job, keys := keys ++ q.keys }
    else if s.relocBarred g then s.dropReloc r 0x196
    else if 256 ≤ (s.fw.relocs.filter fun q => q.eng == g.home).length then
      if tail || job.isSome then s.abandonReloc { r with toPool := true } 0x1C2 else s.toHarvest g.home z stripe
    else (s.modFw fun f => { f with relocs := f.relocs ++ [r] }).relocNext g.home 258

/-! ## V is re-established at power-up (R322) -/

/-- The stripe at V of a band is read, or V has been found: W is set to it, and the zone takes writes from there; a refresh that writes the
band goes on from V (R421). -/
def State.findNext (s : State) (g : Group) (z : Nat) (more : Bool) : State :=
  let x := s.zone z
  if more && decide (x.v < g.stripes) then s.readFor g z x.v .refind true
  else
    let s := s.setZone z (Zone.record { x with finding := false, w := x.v, placed := x.v } x.v)
    let wp := s.wpOff z
    let s := s.modZone z fun y => { y with accept := wp }
    let h := tget (fun _ => {}) s.fw.harv g.home
    s.onlyIf (h.refresh == some z) fun s => s.modFw fun f => { f with harv := tset (fun _ => {}) f.harv g.home { h with copied := x.v } }

/-- The stripe at V has been recovered with the zone's generation, or has not. -/
def State.refound (s : State) (g : Group) (z stripe : Nat) (ok : Bool) : State :=
  if !(s.zone z).finding || (s.zone z).v != stripe then s
  else (s.onlyIf ok fun s => s.modZone z fun x => { x with v := x.v + 1 }).findNext g z ok

/-- Firmware begins to re-establish the V of every open band; there is none where a zone has no group. -/
def State.findAll (s : State) : State :=
  let busy (z : Nat) : Bool := (s.fw.jobs.any fun j => j.kind == .refind && j.zone == z) || s.fw.ladders.any fun l => l.refind && l.zone == z
  s.each (s.fw.zones.filter fun e => e.2.finding && !busy e.1) fun s e => match s.groupOf e.1 with
    | some g => s.findNext g e.1 true
    | none => s.modZone e.1 fun x => { x with finding := false }

/-! ## The ladder (R297 to R307) -/

/-- The stages of a ladder in the order of R298: 1 to 5 rungs 1 to 5; 50 the release of what is held; 60 to 66 a rebuild (rung
6); 71 to 74 the passes of rung 7; 8 the partner's read, 81 to 85 its replays, 58 its release; 9 rung 9. -/
def ladderStages : List Nat := [1, 2, 3, 4, 5, 50, 60, 71, 61, 72, 62, 73, 63, 74, 64, 8, 81, 82, 83, 84, 85, 58, 65, 9, 66]

/-- The rung that a stage belongs to; a rebuild counts for the pass it follows. -/
def stageRung (k : Nat) : Nat :=
  if k ≤ 5 then k else if k = 60 then 6 else if (61 ≤ k ∧ k ≤ 64) ∨ (71 ≤ k ∧ k ≤ 74) then 7 else if k = 66 ∨ k = 9 then 9 else 8

/-- TIME_LIMIT has been reached (R305). -/
def State.expired (s : State) (l : Ladder) : Bool := l.pol.limit != 0 && decide (l.at_ + l.pol.limit * 1000000 ≤ s.vgl.wall)

/-- Rung `k` is enabled, and Limited Retry leaves it. -/
def Ladder.en (l : Ladder) (k : Nat) : Bool := l.pol.rungEn.testBit (k - 1) && (!l.limited || decide (k ≤ 6))

/-- The user data slots that failed and are still wanted: F of R298. -/
def Ladder.missing (l : Ladder) : List Nat := l.failed.filter l.want.contains

/-- The ladder that `l` replaces. -/
def Ladder.same (l q : Ladder) : Bool := q.zone == l.zone && q.stripe == l.stripe

/-- The ladder as it stands now. -/
def State.setLadder (s : State) (l : Ladder) : State := s.modLadder l.zone l.stripe fun _ => l

/-- The ladder with a stage's MOP on its way: it waits for that TAG. -/
def State.ladderWait (s : State) (l : Ladder) (j : Job) : State := (s.setLadder { l with tag := some s.fw.nextTag }).issue j

/-- Somebody waits for the ladder (R405). -/
def State.ladderNeeded (s : State) (g : Group) (l : Ladder) : Bool :=
  l.harvest || l.merge || l.fresh || l.refind || l.jub.isSome || !(s.waiters g l.zone l.stripe).isEmpty

/-- The ladder is over. -/
def State.ladderGone (s : State) (l : Ladder) : State := s.modFw fun f => { f with ladders := f.ladders.filter fun q => !l.same q }

/-- A mask of slots. -/
def slotMask (l : List Nat) : Nat := l.foldl (fun m i => m ||| (1 <<< i)) 0

/-- The record of a ladder (R306). -/
def State.ladderRecord (s : State) (l : Ladder) (rung : Nat) : State :=
  s.fwRecord 0x8001 l.eng ([(4, l.zone), (4, l.stripe), (4, slotMask (l.first.map Prod.fst))] ++
    (l.first.map fun e => (4, e.2)) ++ [(4, rung), (4, (s.vgl.wall - l.at_) / 1000)])

/-- A Jubilee source has a stripe to send, or none (R432). -/
def State.jubStripe (s : State) (k z stripe : Nat) (ok : Bool) (data : List (List Byte)) : State :=
  let l := tget (fun _ => {}) s.jub k
  let f (q : JubZone) : JubZone :=
    if q.zone != z || q.failed != 0 then q
    else if ok then { q with
      again := if q.again.contains stripe then q.again else q.again ++ [stripe], data := tset (fun _ => []) q.data stripe data } else { q with failed := 0x505 }
  { s with jub := tset (fun _ => {}) s.jub k { l with zones := l.zones.map f } }

/-- The sectors of a stripe as its zone writes them: those that were read from their own place, else formed from the data slots (R50,
R54, R56). -/
def State.stripeSectors (s : State) (g : Group) (z stripe : Nat) (x : Site) (good : List (Nat × List Byte)) : List (List Byte) :=
  let made := (rowPackets g g.home z stripe (s.zone z).gen (givenData ((s.siteFormat g z x).dataOf g good) g.d)).map WritePkt.bytes
  (upto g.width).map fun p => match good.find? fun e => e.1 == p && x.tag == z with
    | some e => e.2
    | none => lget [] made p

/-- A stripe of an internal region is rewritten in place with its own data (R422). -/
def State.rewriteInner (s : State) (g : Group) (z stripe : Nat) (data : List (Nat × List Byte)) : State :=
  if 2 ^ 21 ≤ z ∧ !(s.fw.jobs.any fun j => j.kind == .rewrite && j.zone == z && j.stripe == stripe) then
    s.issue { tag := 0, eng := g.home, kind := .rewrite, op := 2, zone := z, stripe := stripe, area := 2, data := data }
  else s

/-- The slots of row `i` of a list of slots, numbered within the row. -/
def rowSlots (f : Group) (i : Nat) (l : List Nat) : List Nat := (l.filter fun p => p / f.width == i).map fun p => p % f.width

/-- What a rebuild of row `i` makes from the ladder's good sectors, each with its expected metadata and a fresh CRC; none where there
are not enough of them or the self-check fails (R54, R56, R301). -/
def Ladder.rebuilt (l : Ladder) (f : Group) (i : Nat) : Option (List (Nat × List Byte)) :=
  let r : ParReq := { tag := 0, rebuild := true, two := f.two, slots := upto f.width, missing := rowSlots f i l.failed }
  match parSolve r ((l.good.filter fun e => e.1 / f.width == i).map fun e => (e.1 % f.width, e.2.take 4096)) with
  | some (out, true) =>
    some (out.map fun e => (i * f.width + e.1, mkSector l.site.tag (l.site.index + i) (f.headAt e.1) l.gen e.2))
  | _ => none

/-- The ladder after a rebuild of row `i`. -/
def Ladder.withRow (l : Ladder) (f : Group) (i : Nat) : Ladder :=
  match l.rebuilt f i with
  | some out => { l with good := l.good ++ out, failed := l.failed.filter fun p => !(out.any fun e => e.1 == p) }
  | none => l

/-- The ladder with every row rebuilt that can be (R308). -/
def Ladder.whole (l : Ladder) (f : Group) : Ladder := (upto l.site.stripes).foldl (fun l i => l.withRow f i) l

/-- Every data slot of a stripe is at hand: recovered, in the buffer or the ring, or beyond the zone's last LBA. -/
def State.stripeWhole (s : State) (g : Group) (z stripe : Nat) (data : List (Nat × List Byte)) : Bool :=
  (g.dataSlots stripe).all fun i => (data.any fun e => e.1 == i) || (s.copyOf g (65536 * z + stripe * g.d + i)).isSome

/-- The recovered stripe is relocated, with the sectors that parity still gives; one of which data slots stay lost goes to Harvest:
DEDUCED (log 72), as what is relocated is the recovered stripe (R308). -/
def State.ladderMove (s : State) (g f : Group) (l : Ladder) : State :=
  let data := f.dataOf g (l.whole f).good
  if s.stripeWhole g l.zone l.stripe data then s.relocate l.zone l.stripe l.pol.tries none [] data else s.toHarvest g.home l.zone l.stripe

/-- The stripe's recovered sectors go to the cache of the namespace that holds the zone (R306). -/
def State.keepGood (s : State) (g : Group) (l : Ladder) : State :=
  match s.spaceOf l.zone with
  | some n => s.fillClean n g l.zone l.stripe ((s.siteFormat g l.zone l.site).dataOf g l.good)
  | none => s

/-- The ladder succeeded at a rung: the stripe is delivered, recorded, and relocated where the policy asks for it (R306, R308). -/
def State.ladderOk (s : State) (g : Group) (l : Ladder) (rung : Nat) : State :=
  let f := s.siteFormat g l.zone l.site
  let data := f.dataOf g l.good
  let s := ((s.ladderGone l).ladderRecord l rung).keepGood g l
  let s := s.onlyIf l.merge fun s => s.convJob g l.zone l.stripe data
  let s := s.onlyIf l.fresh fun s => s.freshTake g l.zone l.stripe data
  let s := s.onlyIf l.refind fun s => s.refound g l.zone l.stripe true
  let s := match l.jub with
    | some k => s.jubStripe k l.zone l.stripe true (s.stripeSectors g l.zone l.stripe l.site l.good)
    | none => s
  let s := s.onlyIf ((l.pol.realloc || l.harvest || l.jub.isSome) && !l.fresh && decide (l.pol.reallocRung ≤ rung)) fun s => s.ladderMove g f l
  let s := s.onlyIf (l.harvest && decide (rung < l.pol.reallocRung)) fun s =>
    s.rewriteInner g l.zone l.stripe (f.dataOf g (l.whole f).good)
  s.serveAll.settle

/-- A waiting read that needs a lost LBA ends with the code; what it needs no more of is taken off its list (R306). -/
def State.loseLbas (s : State) (code : Nat) (lost : List Nat) (e : Nat × Ctx) : State :=
  match s.ctxAt e.1 with
  | some x =>
    s.onlyIf (x.need.any lost.contains) fun s =>
      s.setCtx e.1 (some { x with code := if x.code = 0 then code else x.code, need := x.need.filter fun k => !lost.contains k })
  | none => s

/-- The stripe of a Jubilee read that the ladder did not recover. -/
def State.loseJubStripe (s : State) (l : Ladder) : State :=
  match l.jub with
  | some k => s.jubStripe k l.zone l.stripe false []
  | none => s

/-- The ladder failed: the LBAs it did not recover end their commands with its code, and the record names the last rung that was run
(R306). -/
def State.ladderFail (s : State) (g : Group) (l : Ladder) : State :=
  let code := if s.expired l then 0x1C1 else 0x1C0
  let lost := ((s.siteFormat g l.zone l.site).dataOf g (l.missing.map fun p => (p, []))).map fun e => 65536 * l.zone + l.stripe * g.d + e.1
  let ws := s.waiters g l.zone l.stripe
  let s := (((s.ladderGone l).ladderRecord l l.tried).keepGood g l).each ws fun s e => s.loseLbas code lost e
  let s := s.onlyIf l.refind fun s => s.refound g l.zone l.stripe false
  ((s.loseJubStripe l).onlyIf l.fresh fun s => s.freshDrop g l.zone).serveAll.settle

/-- A MOP of the ladder, for its stripe where it was read. -/
def Ladder.job (l : Ladder) (g : Group) (k op : Nat) : Job := {
  tag := 0, eng := l.eng, kind := .rung k, op := op, zone := l.zone, stripe := l.stripe, gen := l.gen
  alt := l.alt, area := if g.shingled then 0 else 2, background := l.background, site := l.site }

/-- The row of the oldest held sectors: REPLAY_STRIPE and RELEASE_HELD act on each slot's oldest one (R299). -/
def Ladder.oldRow (l : Ladder) (f : Group) : Nat := (l.held.map fun p => p / f.width).min?.getD 0

/-- RELEASE_HELD for one sector of each slot of the oldest row; the stages of the next row follow, else `ks` (R299). -/
def State.ladderRelease (s : State) (g f : Group) (l : Ladder) (again ks : List Nat) : State :=
  let now := (l.held.filter fun p => p / f.width == l.oldRow f).eraseDups
  let left := now.foldl (fun (h : List Nat) p => h.erase p) l.held
  s.ladderWait { l with held := left, rest := if left.isEmpty then ks else again ++ ks }
    { l.job g 50 4 with kind := .release, mask := slotMask (rowSlots f (l.oldRow f) now) }

/-- The failed sectors of the oldest row that a replay rung acts on: rung 4 leaves out heads with fewer than two readers (R297). -/
def State.replaySlots (s : State) (f : Group) (l : Ladder) (r : Nat) : List Nat :=
  (rowSlots f (l.oldRow f) (l.held.filter l.missing.contains)).filter fun p =>
    r != 4 || decide (2 ≤ popCount 3 (s.slotReaders l.eng (f.head p) (s.slot l.eng (f.head p)).profCfg))

/-- A row that holds a missing slot and has no more failed slots than the parity covers (R298). -/
def Ladder.buildRow (l : Ladder) (f : Group) : Option Nat :=
  if (upto l.site.stripes).all fun i => (rowSlots f i l.missing).isEmpty || decide ((rowSlots f i l.failed).length ≤ f.p) then
    (upto l.site.stripes).find? fun i => !(rowSlots f i l.missing).isEmpty
  else none

/-- Every failed head stands at STEP_MAX, so that none can fly lower (Table 10.2). -/
def State.noLower (s : State) (f : Group) (l : Ladder) (eng : Nat) : Bool :=
  l.failed.all fun p => decide (s.fhFld eng (f.slotHead p) 8 4 ≤ s.fhFld eng (f.slotHead p) 0 4)

/-- Nothing is left to do: what is held is released, and the ladder ends (R298, R299, R306). -/
def State.ladderEnd (s : State) (g f : Group) (l : Ladder) : State :=
  if !l.held.isEmpty then s.ladderRelease g f l [] []
  else if l.missing.isEmpty then s.ladderOk g l l.lastRung
  else if s.ladderNeeded g l then s.ladderFail g l
  else ((s.ladderGone l).ladderRecord l l.tried).settle

/-- Go through the stages until one has work to do (R297, R298). -/
def State.ladderGo (s : State) (g f : Group) (l : Ladder) : List Nat → State
  | [] => s.ladderEnd g f l
  | k :: ks =>
    let l := { l with rest := ks }
    let partner := (l.eng + 2) % 4
    let job (op : Nat) : Job := l.job g k op
    if !s.ladderNeeded g l || l.missing.isEmpty then s.ladderEnd g f l
    else if k ≤ 5 ∨ (81 ≤ k ∧ k ≤ 85) then
      let r := if 81 ≤ k then k - 80 else k
      let mine := s.replaySlots f l r
      if l.en r && !mine.isEmpty && !s.expired l then s.ladderWait { l with tried := stageRung k } { job 3 with rung := r, mask := slotMask mine }
      else s.ladderGo g f l ks
    else if k = 50 ∨ k = 58 then
      if l.held.isEmpty then s.ladderGo g f { l with lock := none } ks
      else s.ladderRelease g f l (if k = 50 then [1, 2, 3, 4, 5, 50] else [81, 82, 83, 84, 85, 58]) ks
    else if 60 ≤ k ∧ k ≤ 66 then
      if l.en 6 && (l.buildRow f).isSome && (k == 60 || l.passed) then
        (s.setLadder { l with tag := some s.fw.nextTag, passed := false, rebuildAt := k, tried := stageRung k }).modFw fun w =>
          { w with nextTag := (w.nextTag + 1) % 65536 }
      else s.ladderGo g f l ks
    else if 71 ≤ k ∧ k ≤ 74 then
      if l.en 7 && l.pol.shifts.testBit (k - 71) && !s.expired l then
        s.ladderWait { l with passed := true, tried := 7 } { job 1 with shift := k - 70 }
      else s.ladderGo g f l ks
    else if k = 8 then
      if l.en 8 && !s.expired l && s.altOk g partner then
        s.ladderWait { l with eng := partner, alt := !l.alt, away := true, passed := true, tried := 8 }
          { job 1 with eng := partner, alt := !l.alt, win := true }
      else s.ladderGo g f l ks
    else
      let eng := if l.away then partner else l.eng
      let alt := if l.away then !l.alt else l.alt
      if l.en 9 && !s.expired l && !s.noLower f l eng then
        s.ladderWait { l with eng := eng, alt := alt, away := false, passed := true, tried := 9 }
          { job 1 with eng := eng, alt := alt, fhDown := true, iter := 40 }
      else s.ladderGo g f l ks
termination_by structural l => l

/-- A ladder goes on with stages; one that has sectors held takes its turn behind the ladders that act on those of the engine (R299). -/
def State.ladderTurn (s : State) (g : Group) (l : Ladder) (ks : List Nat) : State :=
  let f := s.siteFormat g l.zone l.site
  if l.held.isEmpty then s.ladderGo g f { l with lock := none, waiting := false } ks
  else
    let busy := s.fw.ladders.any fun q => q.lock == some l.eng && !l.same q
    let l := { l with lock := some l.eng, waiting := busy, rest := ks, tag := none }
    let s := s.modFw fun w => { w with ladders := (w.ladders.filter fun q => !l.same q) ++ [l] }
    if busy then s else s.ladderGo g f l ks

/-- Ladders that wait for their turn on an engine get it, the oldest first (R299). -/
def State.ladderWake (s : State) : State :=
  s.each (upto 4) fun s e =>
    if s.fw.ladders.any fun l => l.lock == some e && !l.waiting then s
    else match s.fw.ladders.find? fun l => l.lock == some e && l.waiting with
      | none => s
      | some l => match s.formatOf l.zone with
        | some g => s.ladderGo g (s.siteFormat g l.zone l.site) { l with waiting := false } l.rest
        | none => s.ladderGone l

/-- A read whose stripe has a ladder by now leaves that what it brought: sectors that it holds too are released with the ladder's (R299,
R302, R307). -/
def State.ladderMerge (s : State) (g : Group) (j : Job) (want good : List (Nat × List Byte)) (held : List Nat) : State :=
  let s := s.joinLadder g j.zone j.stripe j.kind (((s.siteFormat g j.zone j.site).dataOf g want).map Prod.fst)
  let f := s.siteFormat g j.zone j.site
  let mine := s.fw.ladders.any fun l => l.zone == j.zone && l.stripe == j.stripe && l.lock == some j.eng
  let s := s.modLadder j.zone j.stripe fun l =>
    let news := good.filter fun e => l.failed.contains e.1 && l.site == j.site
    { l with
      good := l.good ++ news, failed := l.failed.filter fun i => !(news.any fun e => e.1 == i)
      held := if mine then l.held ++ held else l.held }
  if mine || held.isEmpty then s
  else s.each (upto j.site.stripes) fun s i => s.onlyIf (!(rowSlots f i held).isEmpty) fun s =>
    s.issue { j with kind := .release, op := 4, mask := slotMask (rowSlots f i held), win := false }

/-- A ladder starts on a stripe whose first pass has failed wanted slots (R295, R298). -/
def State.ladderStart (s : State) (g : Group) (j : Job) (pol : RecPol) (want : List Nat) (good : List (Nat × List Byte))
    (bad : List (Nat × Nat)) : State :=
  let limited := (s.waiters g j.zone j.stripe).all (fun e => match e.2.cmd.op with
    | .read _ _ l => l
    | _ => false) && j.kind == .read
  let held := if j.win then (bad.filter fun e => mayHold e.2).map Prod.fst else []
  if s.onLadder j.zone j.stripe then s.ladderMerge g j (want.map fun p => (p, [])) good held
  else
    let l : Ladder := {
      zone := j.zone, stripe := j.stripe, site := j.site, gen := j.gen, eng := j.eng, alt := j.alt, failed := bad.map Prod.fst
      held := held, first := bad, good := good, want := want, background := j.background
      rest := ladderStages, at_ := s.vgl.wall, pol := pol, limited := limited, harvest := j.kind == .harvest
      merge := j.kind == .merge, fresh := j.kind == .refreshRead, refind := j.kind == .refind, jub := match j.kind with
        | .jub k => some k
        | _ => none }
    ((s.modFw fun w => { w with ladders := w.ladders ++ [l] }).ladderTurn g l ladderStages).ladderWake

/-- What a rung's MOP brought: good slots join the good set (R302); a replay whose samples are gone holds nothing (R300). -/
def State.rungDone (s : State) (l : Ladder) (j : Job) (st : Nat) (rx : List RxSec) : State :=
  match s.formatOf l.zone with
  | none => s
  | some g =>
    let f := s.siteFormat g l.zone l.site
    let k := match j.kind with
      | .rung k => k
      | _ => 50
    let slots (p : RxSec → Bool) : List (Nat × List Byte) := (rx.filter p).filterMap fun r => (r.slot f l.site).map fun i => (i, r.info)
    let replay := decide (k ≤ 5) || k == 50 || decide (81 ≤ k)
    let all := splitRx f l.site st rx
    let good := if replay then slots fun r => r.q.status == 0 && r.bad == 0 else all.1
    let news := good.filter fun e => l.failed.contains e.1
    let gone := (slots fun r => r.q.status == 0x162).map Prod.fst
    let failed := l.failed.filter fun i => !(news.any fun e => e.1 == i)
    let freed := if replay then (good.map Prod.fst ++ gone).eraseDups else []
    let l := { l with
      failed := failed, good := l.good ++ news
      held := if k = 8 then (all.2.filter fun e => mayHold e.2).map Prod.fst else freed.foldl (fun (h : List Nat) p => h.erase p) l.held
      lastRung := if news.isEmpty then l.lastRung else max l.lastRung (stageRung k) }
    (if k = 8 then s.ladderTurn g l l.rest else s.ladderGo g f l l.rest).ladderWake

/-- The rebuild that a ladder waits for has ended. It is good if every source could be read and the self-check agrees; a slot that could
not be read for it counts as failed (R298, R301, R346). -/
def State.ladderRebuilt (s : State) (tag : Nat) (bad : List Nat) : State :=
  match s.fw.ladders.find? fun l => l.tag == some tag with
  | none => s
  | some l =>
    match s.formatOf l.zone with
    | none => s
    | some g =>
      let f := s.siteFormat g l.zone l.site
      let i := (l.buildRow f).getD 0
      let lost := bad.map fun p => i * f.width + p
      if lost.isEmpty && (l.rebuilt f i).isSome then
        let l := l.withRow f i
        if l.missing.isEmpty then (s.ladderOk g l (stageRung l.rebuildAt)).ladderWake
        else (s.ladderGo g f { l with passed := true } (l.rebuildAt :: l.rest)).ladderWake
      else
        let l := { l with
          failed := l.failed ++ lost.filter (fun p => !l.failed.contains p), good := l.good.filter fun e => !lost.contains e.1 }
        (s.ladderGo g f l l.rest).ladderWake

/-- PARITY_DONE: the engine finishes, and the next request starts (R346); a ladder that waits goes on (R301). -/
def execParityDone (find : EccFind) (s : State) : Host.Outcome State Fault Refusal :=
  .next (match s.buf.par with
    | none => s
    | some r =>
      if s.parWaits r then s
      else
      let x := s.parityRun r find
      let bad := s.unreadable r find
      let s := { x.1 with buf := { x.1.buf with par := x.1.buf.parq.head?, parq := x.1.buf.parq.drop 1 } }
      let s := (s.emit (.parityResult r.tag r.rebuild x.2)).parStatus
      (s.onlyIf r.rebuild fun s => s.ladderRebuilt r.tag bad).releaseZones)

end Sys2Proof.Machine
end

