-- ==== Sys2Proof/Machine/Done.lean ====
section
/-!
DEFINITION. What firmware makes of a MOP's completion (R298, R317 to R322), and Harvest and refresh (R413 to R422).
-/
namespace Sys2Proof.Machine

/-! ## Harvest records (R417, R418) -/

def State.harv (s : State) (a : Nat) : Harv := tget (fun _ => {}) s.fw.harv a
def State.setHarv (s : State) (a : Nat) (h : Harv) : State := s.modFw fun f => { f with harv := tset (fun _ => {}) f.harv a h }

/-- The class of a sector by its first-pass quality record (R417). -/
def sectorClass (r : SectorRec) (bad : Nat) : Nat := if r.status ≠ 0 ∨ bad ≠ 0 then 1 else 15 - min 13 (r.initUnsat / 64)

/-- A stripe's class: the lowest of its sectors, a sector that never came counting as failed. -/
def stripeClass (f : Group) (x : Site) (rx : List RxSec) : Nat :=
  (upto (x.stripes * f.width)).foldl (fun m p => match (rx.filter fun r => r.slot f x == some p).getLast? with
    | some r => min m (sectorClass r.q r.bad)
    | none => min m 1) 15

/-- A zone's margin record takes a stripe's class; a record of an earlier pass is replaced, and a stripe read again in the pass counts once
(R415, R418). -/
def State.recordClass (s : State) (a z stripe cls : Nat) (ladder : Bool) : State :=
  let h := s.harv a
  let m := (h.margins.find? fun m => m.zone == z && m.pass == h.pass).getD { zone := z, pass := h.pass, readOnly := s.zoneReadOnly z }
  let old := tget (fun _ => 0) m.classes stripe
  let m := { m with epoch := s.vgl.epoch.toNat, classes := tset (fun _ => 0) m.classes stripe cls, ladder := m.ladder || ladder }
  let less := if old = 0 then h.counts else tset (fun _ => 0) h.counts old (tget (fun _ => 0) h.counts old - 1)
  s.setHarv a { h with
    read := if old = 0 then h.read + 1 else h.read, counts := tset (fun _ => 0) less cls (tget (fun _ => 0) less cls + 1)
    margins := (h.margins.filter fun k => k.zone != z) ++ [m] }

/-- Stripes of class 2 to `top` in a record (R418, R419). -/
def Margin.low (m : Margin) (top : Nat) : Nat := (m.classes.filter fun e => decide (2 ≤ e.2) && decide (e.2 ≤ top)).length

/-- Bytes of a margin record: the summary of Table 15.2 and a half byte for the class of each of the zone's stripes (R418). -/
def Margin.bytes (m : Margin) (notice stripes : Nat) : List Byte :=
  let cls (t : Nat) : Nat := tget (fun _ => 0) m.classes t
  let least := (m.classes.map Prod.snd).foldl min 15
  let worst := ((m.classes.find? fun e => e.2 == least).map Prod.fst).getD 0
  let flag (b : Bool) (i : Nat) : Nat := if b then 2 ^ i else 0
  leBytes 4 (m.zone % 2 ^ 21) ++ leBytes 4 m.pass ++ leBytes 8 m.epoch ++ leBytes 4 worst ++ leBytes 1 least ++
    leBytes 1 (flag m.refreshed 0 + flag m.deferred 1 + flag m.readOnly 2 + flag m.ladder 3) ++ leBytes 2 0 ++
    leBytes 4 (m.low notice) ++ leBytes 4 (m.classes.filter fun e => e.2 == 1).length ++
    (upto (ceilDiv stripes 2)).map fun i => BitVec.ofNat 8 (cls (2 * i) + 16 * cls (2 * i + 1))

/-- A zone's margin record as the area of Harvest holds it, under the descriptor's NOTICE_CLASS (R413, R418). -/
def State.marginRecord (s : State) (m : Margin) (stripes : Nat) : List Byte := m.bytes s.fw.harvCfg.noticeClass stripes

/-- A zone lies in a Jubilee window of a source, or of a successor (R419, R436). -/
def State.inJubWindow (s : State) (z : Nat) : Bool :=
  (upto 2).any fun k => (tget (fun _ => {}) s.jub k).zones.any fun q => q.zone == z

/-- The lowest place of the working area behind every copy that is kept, if the area has room for a band's there (R420, R421).
DESIGN CHOICE (log 73). -/
def State.copyRoom (s : State) (g : Group) : Option Nat :=
  let ends := s.fw.zones.map fun e => match s.groupOf e.1 with
    | some q => if q.home = g.home ∧ e.2.copyFrom.isSome then e.2.copyAt + s.innerCount q * q.stripes else 0
    | none => 0
  let at_ := ends.foldl max 0
  if at_ + s.innerCount g * g.stripes ≤ lget 0 sysAreas 7 * ceilDiv 65536 (s.ring g.home).d then some at_ else none

/-- A band that is due for refresh starts one, is flagged deferred, or, read-only, is recorded; one that cannot start now is looked at
again (R419). -/
def State.refreshDue (s : State) (z : Nat) : State :=
  match s.groupOf z with
  | none => s
  | some g =>
    let h := s.harv g.home
    match h.margins.find? fun m => m.zone == z with
    | none => s
    | some m =>
      if m.low s.fw.harvCfg.refreshClass < s.fw.harvCfg.refreshCount ∨ !g.shingled ∨ (s.zone z).refresh ≠ 0 then s
      else if g.readOnly then s.fwRecord 0x1D1 g.home [(4, z)]
      else if (s.zone z).st ≠ .full then
        (s.setHarv g.home { h with margins := h.margins.map fun k => if k.zone == z then { k with deferred := true } else k }).modZone z
          fun x => { x with deferred := true }
      else if (s.zone z).copyFrom.isSome then s
      else if h.refresh.isSome ∨ s.inJubWindow z ∨ s.resetWaits z then s.modZone z fun x => { x with deferred := true }
      else match s.copyRoom g with
        | none => s.modZone z fun x => { x with deferred := true }
        | some at_ =>
          let s := s.setHarv g.home { h with refresh := some z, copy := [], copied := 0, saved := 0 }
          let wp := s.wpOff z
          (s.modZone z fun x => { x with refresh := 1, deferred := false, wpHeld := some wp, copyAt := at_ }).freshRead g z

/-- A conventional stripe of a weak class is rewritten in place through the destage path (R422). -/
def State.weakConv (s : State) (g : Group) (z stripe cls : Nat) : State :=
  if !g.shingled && decide (cls ≤ s.fw.harvCfg.refreshClass) && decide (z < 2 ^ 21) then s.destage g z stripe else s

/-- The recovery policy of Harvest and Jubilee reads: no time limit (R416). -/
def HarvCfg.pol (c : HarvCfg) : RecPol := { realloc := true, rungEn := c.rungEn, reallocRung := c.reallocRung, limit := 0 }

/-! ## Reads -/

/-- A MOP of a ladder. -/
def Job.ofLadder (j : Job) : Bool :=
  match j.kind with
  | .rung _ => true
  | .release => true
  | _ => false

/-- A MOP goes out again, to the place its stripe has by now; a ladder's to the place it works on. -/
def State.reissue (s : State) (j : Job) : State :=
  let tag := s.fw.nextTag
  let s := s.issue (if j.ofLadder then j else { j with site := {} })
  s.modLadder j.zone j.stripe fun l => if l.tag == some j.tag then { l with tag := some tag } else l

/-- A read that grades the stripe it reads: Harvest's, or Jubilee's (R416, R417). -/
def Job.scrub (j : Job) : Bool :=
  match j.kind with
  | .harvest => true
  | .jub _ => true
  | _ => false

/-- The data slots of the stripe that a read is for: a host read's those that are waited for, any other's every one (R295). -/
def State.readWant (s : State) (g : Group) (j : Job) : List Nat :=
  match j.kind with
  | .read => s.wanted g j.zone j.stripe
  | _ => g.dataSlots j.stripe

/-- What a read leaves in the records: a grading read the stripe's class, any other a stripe that Harvest is to look at since a slot
failed that nobody waits for (R295, R416 to R418). -/
def State.readNoted (s : State) (g : Group) (j : Job) (cls : Nat) (lost other : Bool) : State :=
  if j.scrub then (s.recordClass g.home j.zone j.stripe cls lost).weakConv g j.zone j.stripe cls
  else s.onlyIf other fun s => s.toHarvest g.home j.zone j.stripe

/-- Every sector that was wanted has come: it goes to the cache and to who asked for the stripe. -/
def State.readGood (s : State) (g f : Group) (j : Job) (good : List (Nat × List Byte)) (cls : Nat) : State :=
  let data := f.dataOf g good
  let s := match s.spaceOf j.zone with
    | some n => s.fillClean n g j.zone j.stripe data
    | none => s
  let s := match j.kind with
    | .merge => s.convJob g j.zone j.stripe data
    | .refreshRead => s.freshTake g j.zone j.stripe data
    | .refind => s.refound g j.zone j.stripe true
    | .jub k => s.jubStripe k j.zone j.stripe true (s.stripeSectors g j.zone j.stripe j.site good)
    | _ => s
  let s := s.onlyIf (j.kind == .harvest && decide (cls ≤ s.fw.harvCfg.refreshClass)) fun s => s.rewriteInner g j.zone j.stripe data
  s.serveAll.settle.trimClean

/-- The policy that recovery follows for a read: that of the namespace, of Harvest, or, while V is re-established, rungs 1 to 6 in 100 ms
(R293, R322, R416). -/
def State.readPolicy (s : State) (j : Job) : RecPol :=
  if j.scrub then s.fw.harvCfg.pol
  else if j.kind == .refind then { s.polOf j.zone with rungEn := 0x3F, limit := 100 }
  else s.polOf j.zone

/-- A read MOP of a stripe of group `g` has ended with these sectors (R295, R306, R416). -/
def State.readEnded (s : State) (g : Group) (j : Job) (st : Nat) (rx : List RxSec) : State :=
  if st = 0x1B5 then
    if j.kind == .read && (s.wanted g j.zone j.stripe).isEmpty then s.settle else s.reissue j
  else if (st = 0x192 ∨ st = 0x193) ∧ !j.alt ∧ s.altOk g ((g.home + 2) % 4) then s.reissue { j with alt := true, eng := (g.home + 2) % 4 }
  else
    let f := s.siteFormat g j.zone j.site
    let sp := splitRx f j.site st rx
    let cls := stripeClass f j.site rx
    let want := (s.readWant g j).map f.slotOfData
    let lost := sp.2.any fun e => want.contains e.1
    let s := s.readNoted g j cls lost (sp.2.any fun e => !want.contains e.1)
    if lost then s.ladderStart g j (s.readPolicy j) want sp.1 sp.2 else s.readGood g f j sp.1 cls

/-- A read MOP of a stripe has ended. -/
def State.readDone (s : State) (j : Job) (st : Nat) : State :=
  let r := s.takeRx j.eng j.tag
  match r.1.formatOf j.zone with
  | none => r.1
  | some g => r.1.readEnded g j st r.2

/-! ## Band writes (R317 to R320) -/

/-- No stripe of a zone below `m` is to be written again: BUF keeps nothing of them (R172). -/
def State.releaseBelow (s : State) (g : Group) (z m : Nat) : State :=
  let below (k : Nat) : Bool := k / 65536 == z && decide (g.stripeOf k < m)
  let dirty := s.fw.dirty.filterMap fun e => match e.2 with
    | some d => if below e.1 then some (e.1, d.ver) else none
    | none => none
  let s := s.each dirty fun s e => s.cleanKey e.1 e.2
  (s.dropBufs below).dropPackets fun x => x.tag == z && decide (x.stripe < m)

/-- Everything of a zone below an offset has verified: no command waits for it, and the ring copies go. BUF keeps the stripes from M
on, until M passes them (R70, R172). -/
def State.bandVerified (s : State) (g : Group) (z off m : Nat) : State :=
  let p (k : Nat) : Bool := k / 65536 == z && decide (k % 65536 < off)
  let s := s.releaseBelow g z m
  let r := (s.ring g.home).release fun k _ => p k
  let s := s.setRing g.home { r with stage := r.stage.filter fun k => !p k.1 }
  (s.verifiedIf p).ringAdvance g.home

/-- The writers of a zone that are still in flight end: the first with one code, the others with another. -/
def State.failWriters (s : State) (z first rest : Nat) : State :=
  let ws := (s.zoneWriters z).filter fun e => !e.2.begun || !e.2.need.isEmpty
  let code (e : Nat × Ctx) : Nat := match ws.head? with
    | some h => if h.1 = e.1 then first else rest
    | none => rest
  let s := s.each ws fun s e =>
    if e.2.st == .running then
      if e.2.begun then s.failCtx e.1 (code e) else s.ctxEnd e.1 (codeCplFor e.2.cmd.op (code e))
    else s.endCtx e.1 (codeCplFor e.2.cmd.op (code e))
  s.settle

/-- RELOC_TRIES of a zone's namespace, or its default (Table 10.1). -/
def State.relocTries (s : State) (z : Nat) : Nat :=
  match s.spaceOf z with
  | some n => n.pol.tries
  | none => 3

/-- A band has sealed: the zone is Full, finished by the controller, at its write pointer; ring copies of stripe V below it are
relocated, the others released (R175, R317, R318). -/
def State.sealZone (s : State) (g : Group) (z st : Nat) : State :=
  let wp := s.wpOff z
  let v := (s.zone z).v
  let s := s.modZone z fun x => { x with st := .full, byCtrl := true, wpHeld := some wp }
  let tail := (g.stripeKeys z v).filter fun k => decide (k % 65536 < wp)
  let carry := s.carry g tail
  let s := ((s.failWriters z st 0x1C4).dropAbove g z wp).releaseBelow g z v
  let s := s.onlyIf (!tail.isEmpty) fun s => s.relocate z v (s.relocTries z) none carry [] true
  match (s.zone z).finishing with
  | some c =>
    let s := s.modZone z fun x => { x with finishing := none }
    (if c = 0 then s else s.finishFail (c - 1) st).zoneChanged z
  | none => s.zoneChanged z

/-- A stripe below V that a sealed band's MOP wrote into the spare that it names: its remap entry takes effect, or, the spare having failed,
it is relocated further (R63, R174, R309). -/
def State.bandRelocated (s : State) (g : Group) (j : Job) (stripe : Nat) (failed : Bool) : State :=
  let z := j.zone
  let s := s.modZone z fun x => { x with spareHeld := x.spareHeld.filter fun k => k != j.spare }
  if failed then
    s.relocate z stripe (s.relocTries z) none [] (((upto g.d).filterMap fun i => (s.copyOf g (65536 * z + stripe * g.d + i)).map fun b => (i, b)))
  else s.modZone z fun x => { x with remaps := x.remaps ++ [remapWord stripe j.spare x.gen] }

/-- The heads of an actuator that has retracted are loaded again, at once or as soon as it is Parked (R319). -/
def State.reloadHeads (s : State) (a : Nat) : State :=
  if s.actSt a = 0 then s.actLoad a
  else s.onlyIf (s.actSt a == 5 && !s.disPending a) fun s => s.setAct a { s.actP a with reload := true }

/-- W of a band after a MOP that ended with a status: V after a seal or a disable, M after a stall or a retract, else behind what the MOP
has written (R67, R316). -/
def bandW (st v m top : Nat) : Nat :=
  if st = 0 then top else if st = 0x176 ∨ st = 0x181 ∨ st = 0x182 then m else v

/-- A band write MOP has ended. -/
def State.bandDone (s : State) (j : Job) (c : MopCpl) (st : Nat) : State :=
  match s.groupOf j.zone with
  | none => s
  | some g =>
    let z := j.zone
    let ran := c.c2 != 0xFFFFFFFF
    let v := if ran then max (s.zone z).v c.c2.toNat else (s.zone z).v
    let m := rewindMark (Config.sectorsPerTrack z) v
    let s := s.onlyIf ran fun s =>
      let w := bandW st v m (j.stripe + j.count)
      (s.modZone z fun x => Zone.record { x with v := v, w := w } v).bandVerified g z (g.d * v) m
    let s := s.onlyIf (bitAt c.c3 13) fun s => s.bandRelocated g j (c.c2.toNat - fld c.c3 16 16) (bitAt c.c3 14)
    let s := if st = 0 then s.modZone z fun x => { x with stalls := 0 }
      else if st = 0x175 ∨ st = 0x178 then s.sealZone g z st
      else if g.readOnly then s.failWriters z 0x196 0x196
      else
        let s := s.modZone z fun x => { x with placed := min x.placed (if ran then min m j.stripe else j.stripe) }
        if st = 0x176 then
          let s := s.modZone z fun x => { x with stalls := x.stalls + 1 }
          if 2 ≤ (s.zone z).stalls then (s.actDisable j.eng).failWriters z 0x196 0x196 else s.chnSoftReset j.eng
        else s.onlyIf (st == 0x181 || st == 0x182) fun s => s.reloadHeads j.eng
    let s := s.onlyIf (decide (g.stripes ≤ (s.zone z).v) && (s.zone z).st != .full) fun s =>
      ((s.modZone z fun x => { x with st := .full }).releaseBelow g z g.stripes).zoneChanged z
    let s := (s.settle.streamResume z).finishCheck z
    if s.bandBusy z then s
    else
      let s := s.placeBand g z 410
      s.onlyIf ((s.zone z).finishing.isSome) fun s => s.tailJob g z

/-! ## Conventional, ring and refresh writes -/

/-- LBAs of a write have reached verified media in these versions: they are no longer to be written, and no command waits for them. -/
def State.keysVerified (s : State) (keys : List (Nat × Nat)) : State :=
  let s := s.each keys fun s k => s.cleanKey k.1 k.2
  let done := (keys.filter fun k => decide (s.verOf k.1 ≤ k.2)).map Prod.fst
  (s.dropBufs fun k => done.contains k).verifiedKeys done

/-- A stripe has been written whole: a ladder or a relocation that read it before takes what was written (R76, R307, R312). -/
def State.renewed (s : State) (g : Group) (z stripe : Nat) (base : List (Nat × List Byte)) : State :=
  let ds := (upto g.d).zip (s.stripeData g z stripe base)
  let s := s.modLadder z stripe fun l =>
    let f := s.siteFormat g z l.site
    let good := ds.map fun e => (f.slotOfData e.1, e.2)
    { l with good := good, failed := l.failed.filter fun p => !(good.any fun e => e.1 == p) }
  s.modReloc z stripe fun r => some { r with data := ds }

/-- A conventional stripe has been written and has verified, in place or in the pool: its ring copies are destaged, and what is newer is
destaged in turn (R75, R76, R313). -/
def State.convVerified (s : State) (g : Group) (z stripe : Nat) (keys : List (Nat × Nat)) (base : List (Nat × List Byte)) : State :=
  let s := s.renewed g z stripe base
  let s := s.modFw fun f => { f with formed := tset (fun _ => false) f.formed (65536 * z + stripe) true }
  let s := s.each keys fun s k => s.dropRing g.home k.1 k.2
  let s := (s.keysVerified keys).ringAdvance g.home
  let again := keys.any fun k => ((s.ring g.home).newest k.1).isSome
  (s.onlyIf again fun s => s.destage g z stripe).settle

/-- A ring stripe has been written and has verified, in its position or in the pool: its LBAs are acknowledged, older ring copies are
superseded, and conventional LBAs are destaged (R74, R75, R313, R402). -/
def State.ringVerified (s : State) (a pos : Nat) (keys : List (Nat × Nat)) : State :=
  let r := s.ring a
  let s := s.setRing a { r with stripes := r.stripes.map fun t => if t.pos == pos then { t with verified := true } else t }
  let s := s.each keys fun s k => s.dropRing a k.1 (k.2 - 1)
  let s := s.keysVerified keys
  let s := s.each keys fun s k => match s.groupOf (k.1 / 65536) with
    | some g => s.onlyIf (!g.shingled) fun s => s.destage g (k.1 / 65536) (g.stripeOf k.1)
    | none => s
  (s.ringAdvance a).settle

/-- A write of LBAs cannot be made: the commands that wait for them end with the code and what they brought goes; LBAs of a command that
has completed already read as unrecovered (R222, R316; log 108). -/
def State.writeRefused (s : State) (keys : List (Nat × Nat)) (code : Nat) : State :=
  let ks := keys.map Prod.fst
  let hit (x : Ctx) : Bool := x.st == .running && opWrites x.cmd.op && x.need.any ks.contains
  let mine := ks.filter fun k => s.ctxs.any fun e => hit e.2 && e.2.need.contains k
  let s := s.each (s.ctxs.filter fun e => hit e.2) fun s e => s.failCtx e.1 code
  let s := s.modFw fun f => { f with dirty := f.dirty.filter fun e => !mine.contains e.1 }
  (s.dropBufs fun k => mine.contains k).failWrite (ks.filter fun k => !mine.contains k) code

/-- A write of a conventional stripe has ended (R313, R316). -/
def State.convDone (s : State) (j : Job) (st : Nat) : State :=
  match s.groupOf j.zone with
  | none => s
  | some g =>
    if st = 0 then s.convVerified g j.zone j.stripe j.keys j.data
    else if st = 0x177 then s.relocate j.zone j.stripe (s.relocTries j.zone) (some j) j.keys j.data
    else if g.readOnly then s.writeRefused j.keys 0x196
    else if st = 0x178 then s.writeRefused j.keys st
    else s.reissue { j with keys := s.carry g (g.stripeKeys j.zone j.stripe) }

/-- A ring stripe's write has ended (R74, R313, R316). -/
def State.ringDone (s : State) (j : Job) (st : Nat) : State :=
  if st = 0 then s.ringVerified j.eng j.stripe j.keys
  else if st = 0x177 then s.relocate j.zone j.stripe (s.relocTries j.zone) (some j) j.keys []
  else if s.actSt j.eng = 6 then (s.writeRefused j.keys 0x196).ringBroken j.eng j.stripe
  else if st = 0x178 then (s.writeRefused j.keys st).ringBroken j.eng j.stripe
  else s.reissue j

/-- The next stripe of the protective copy of a band is written (R420). -/
def State.freshSave (s : State) (g : Group) (z : Nat) : State :=
  let h := s.harv g.home
  if h.saved < s.freshTop g z ∧ !s.resetWaits z then
    (s.modZone z fun x => { x with refresh := 2 }).issue {
      tag := 0, eng := g.home, kind := .refreshCopy, op := 2, zone := z, stripe := h.saved, area := 2 }
  else s

/-- A stripe of the protective copy is safe: the next is written (R420). -/
def State.copySaved (s : State) (g : Group) (z stripe : Nat) : State :=
  s.onlyIf ((s.harv g.home).refresh == some z) fun s => (s.setHarv g.home { s.harv g.home with saved := stripe + 1 }).freshSave g z

/-- A stripe of the protective copy has been written; one that spent its retries goes to the pool, and one that failed otherwise is
written again (R313, R420; log 73). -/
def State.copyDone (s : State) (j : Job) (st : Nat) : State :=
  match s.groupOf j.zone with
  | none => s
  | some g =>
    if (s.harv g.home).refresh ≠ some j.zone then s
    else if st = 0 then s.copySaved g j.zone j.stripe
    else if st = 0x177 then
      let ds := s.freshData g j.zone j.stripe
      s.relocate j.site.tag j.site.index 3 (some j) [] ((upto ds.length).zip ds) false j.site.stripes
    else if st = 0x178 then s.freshDrop g j.zone
    else s.onlyIf (!s.resetWaits j.zone) fun s => s.reissue j

/-- A stripe of an Almanac mirror is safe, with the entries below a sequence number (R537). -/
def State.mirrorSafe (s : State) (a next : Nat) : State :=
  { s with alm := { s.alm with mirrorSeq := tset (fun _ => 0) s.alm.mirrorSeq a (max (tget (fun _ => 0) s.alm.mirrorSeq a) next) } }

/-! ## The end of a relocation's write -/

/-- The relocated copy of a stripe takes effect (R63, R64, R311). -/
def State.relocated (s : State) (a : Nat) (j : Job) : State :=
  match j.kind with
  | .spare k => s.modZone j.zone fun x => { x with remaps := x.remaps ++ [remapWord j.stripe k j.gen] }
  | .pool i =>
    let e : PoolEnt := { zone := j.zone, stripe := j.stripe, pool := i, gen := j.gen, count := j.count }
    s.modFw fun f => { f with pool := tset (fun _ => []) f.pool a (tget (fun _ => []) f.pool a ++ [e]) }
  | _ => s

/-- What waited for a relocation goes on, as if the write that it stands for had verified (R312, R313, R318). -/
def State.relocServed (s : State) (g : Group) (r : Reloc) (j : Job) : State :=
  match r.job with
  | none =>
    if r.tail then ((s.each j.keys fun s k => s.dropRing r.eng k.1 k.2).keysVerified j.keys).ringAdvance r.eng
    else s.onlyIf (decide (r.zone < 2 ^ 21) && !g.shingled) fun s => s.convVerified g r.zone r.stripe j.keys j.data
  | some w => match w.kind with
    | .conv => s.convVerified g r.zone r.stripe j.keys j.data
    | .ring => s.ringVerified w.eng w.stripe w.keys
    | .mirror next => s.mirrorSafe w.eng next
    | .refreshCopy => match s.groupOf w.zone with
      | some q => s.copySaved q w.zone w.stripe
      | none => s
    | _ => s

/-- A write of a relocation has ended: the copy takes effect, or the next is tried, up to RELOC_TRIES writes in all (R309, R311). -/
def State.relocDone (s : State) (j : Job) (st : Nat) : State :=
  match s.fw.relocs.find? fun r => r.zone == j.zone && r.stripe == j.stripe && r.started, s.formatOf j.zone with
  | some r, some g =>
    if st = 0 then
      let s := ((s.relocated r.eng j).modReloc j.zone j.stripe fun _ => none).relocServed g r j
      s.onlyIf r.again fun s => s.writeAgain g j.zone j.stripe
    else if r.max ≤ r.tries then s.abandonReloc r 0x1C2
    else s.modReloc j.zone j.stripe fun r => some { r with started := false }
  | _, _ => s

/-- A step of a refresh's writing has ended: V follows, and a seal abandons it (R420, R421). -/
def State.refreshDone (s : State) (j : Job) (c : MopCpl) (st : Nat) : State :=
  match s.groupOf j.zone with
  | none => s
  | some g =>
    let s := s.onlyIf ((s.zone j.zone).refresh == 3 && c.c2 != 0xFFFFFFFF) fun s => s.modZone j.zone fun x =>
      Zone.record { x with v := max x.v c.c2.toNat, w := bandW st (max x.v c.c2.toNat) x.w (j.stripe + j.count) } (max x.v c.c2.toNat)
    if st = 0 then s
    else if st = 0x175 ∨ st = 0x178 then
      let s := s.modZone j.zone fun x => { x with refresh := 0, copyFrom := some x.v }
      (s.setHarv g.home { s.harv g.home with refresh := none, copy := [], copied := 0, saved := 0 }).fwRecord 0x1D0 g.home [(4, j.zone), (4, (s.zone j.zone).v)]
    else if s.resetWaits j.zone then s
    else
      let v := (s.zone j.zone).v
      s.reissue (if (s.zone j.zone).refresh = 3 then { j with stripe := v, count := g.stripes - v } else j)

/-! ## FIRMWARE_MOP_COMPLETION -/

/-- BUF takes every sector packet that waits in queue 60 + n; `k` bounds them. -/
def State.drainSectors (s : State) (n : Nat) : Nat → State
  | 0 => s
  | k + 1 => match s.heads (60 + n) with
    | p :: ps => ((s.takeHead (60 + n) p ps false).intake (60 + n) p (if p.poison then 0x10 else 0)).drainSectors n k
    | [] => s

/-- Harvest MOP time is counted against the running second (R415). -/
def State.dutySpent (s : State) (a : Nat) : State :=
  let h := s.harv a
  let sec := s.vgl.wall / 1000000000
  let used := s.vgl.wall - h.issued
  s.setHarv a { h with duty := if h.dutySec = sec then h.duty + used else used, dutySec := sec }

/-- Bytes of an entry of the reference tables (R524). -/
def RefEnt.bytes (e : RefEnt) : List Byte :=
  leBytes 4 e.zone ++ leBytes 2 e.gen ++ leBytes 2 e.temp ++ leBytes 8 e.epoch ++ (e.words.map fun w => leBytes 4 w.toNat).flatten

/-- A zone's reference table takes the loops of every head at the end of stripe 0 (R524, R525). DESIGN CHOICE: a capture that failed
gives a table without records, and the zone's background reads find the reference values as they stand (log 63). -/
def State.refCapture (s : State) (j : Job) (st : Nat) : State :=
  let s := (s.takeRx j.eng j.tag).1
  match s.formatOf j.zone with
  | none => s
  | some g =>
    let heads := (upto g.width).map fun i => (g.gangMap >>> (5 * i)) % 32
    let words := (heads.map fun h => ((upto 3).map fun r => s.reg (chnLive j.eng h r)) ++ [s.reg (chnTr j.eng h)]).flatten
    let rest := s.cal.refTables.filter fun e => e.zone != j.zone
    let e : RefEnt := { zone := j.zone, gen := j.gen, temp := s.rfld (calTemp g.home) 0 16, epoch := s.vgl.epoch.toNat, words := if st = 0 then words else [] }
    { s with cal := { s.cal with refTables := rest ++ [e] } }

/-- A MOP of firmware's has completed. -/
def State.jobDone (s : State) (j : Job) (c : MopCpl) : State :=
  let st := fld c.c0 16 16
  let s := s.modFw fun f => { f with jobs := f.jobs.filter fun k => !(k.tag == j.tag && k.eng == j.eng) }
  let s := s.onlyIf (j.kind != .band) fun s => s.dropPackets fun x => x.eng == j.eng && x.tag == j.site.tag && decide (j.site.index ≤ x.stripe) &&
    decide (x.stripe < j.site.index + max j.count j.site.stripes)
  match j.kind with
  | .read => s.readDone j st
  | .merge => s.readDone j st
  | .harvest => (s.dutySpent j.eng).readDone j st
  | .jub _ => s.readDone j st
  | .rung _ | .release =>
    let r := s.takeRx j.eng j.tag
    match r.1.fw.ladders.find? fun l => l.tag == some j.tag && l.zone == j.zone && l.stripe == j.stripe with
    | some l => if st = 0x1B5 then r.1.reissue j else r.1.rungDone l j st r.2
    | none => r.1
  | .band => s.bandDone j c st
  | .conv => s.convDone j st
  | .ring => s.ringDone j st
  | .spare _ | .pool _ => if st = 0x1B5 then s.reissue j else s.relocDone j st
  | .capture => s.refCapture j st
  | .refreshRead | .refind => s.readDone j st
  | .refreshCopy => s.copyDone j st
  | .rewrite =>
    if st = 0 then s
    else if st = 0x177 then s.relocate j.zone j.stripe 3 none [] j.data
    else s.reissue j
  | .mirror next =>
    if st = 0 then s.mirrorSafe j.eng next
    else if st = 0x177 then s.relocate j.zone j.stripe 3 (some j) [] j.data
    else s.reissue j
  | .refreshWrite => s.refreshDone j c st

/-- FIRMWARE_MOP_COMPLETION: the oldest completion is read and popped, and the work it belongs to goes on. -/
def execFirmwareMopCompletion (n : Fin 4) (s : State) : Host.Outcome State Fault Refusal :=
  .next (match (s.ordP n).cpls with
    | [] => s
    | c :: _ =>
      let s := s.drainSectors n (s.cq (60 + n)).pkts.length
      let s := s.modOrd n fun o => { o with cpls := o.cpls.drop 1 }
      let s := match s.fw.jobs.find? fun j => j.eng == n.val && j.tag == fld c.c0 0 16 with
        | some j => s.jobDone j c
        | none => s
      (s.relocNext n 258).releaseZones)

/-! ## Harvest (R414 to R416) -/

/-- The stripes of a zone that a pass may read lie below this one: V of a band, and stripe V itself of a sealed band where a relocation has
given it a place (R69, R318, R414). -/
def State.harvestTop (s : State) (g : Group) (z : Nat) : Nat :=
  if g.shingled then
    let v := min g.stripes (s.liveV g z)
    if (s.zone z).st = .full ∧ v < g.stripes ∧ (((s.zone z).spareOf v).isSome ∨ (s.poolEntry g.home z v).isSome) then v + 1 else v
  else g.stripes

/-- What a pass reads on an actuator, in order: zones, system area, spare pool; of each the end of its stripes, and how many of them hold
data (R414). -/
def State.harvestList (s : State) (a : Nat) : List (Nat × Nat × Nat) :=
  let zs := (s.groups.filter fun g => g.home == a).foldr insertGroup []
  let count (g : Group) (z : Nat) : Nat :=
    if g.shingled then s.harvestTop g z else (s.fw.formed.filter fun e => e.2 && e.1 / 65536 == z).length
  let user := (zs.map fun g => (upto g.count).map fun i => (g.first + i, s.harvestTop g (g.first + i), count g (g.first + i))).flatten
  let all (z n : Nat) : Nat × Nat × Nat := (z, n, n)
  (if (s.ring a).d = 0 then user
  else user ++ [all (regionTag a 0 0) (256 * ceilDiv 65536 (s.ring a).d), all (regionTag a 2 0) (tget (fun _ => 0) s.fw.poolLen a)]).filter
    fun e => e.2.2 != 0

/-- The unit of an internal region that holds its stripe `t`; a zone is its own (R50, R72). -/
def State.unitOf (s : State) (a z t : Nat) : Nat := if 2 ^ 21 ≤ z then z + t / ceilDiv 65536 (s.ring a).d else z

/-- The pass is still to read a stripe: it holds data, and no read of Harvest or of a Jubilee source has graded it in the pass (R414,
R416). -/
def State.harvestWants (s : State) (a z t : Nat) : Bool :=
  let h := s.harv a
  (match s.groupOf z with
    | some g => g.shingled || tget (fun _ => false) s.fw.formed (65536 * z + t)
    | none => true) &&
  !(h.margins.any fun m => m.zone == s.unitOf a z t && m.pass == h.pass && tget (fun _ => 0) m.classes t != 0)

/-- The first of `k` stripes from `t` on that the pass is still to read. -/
def State.harvestIn (s : State) (a z : Nat) : Nat → Nat → Option Nat
  | 0, _ => none
  | k + 1, t => if s.harvestWants a z t then some t else s.harvestIn a z k (t + 1)

/-- The next stripe from (z, t) on in the list of a pass. -/
def State.nextHarvest (s : State) (a z t : Nat) : List (Nat × Nat × Nat) → Option (Nat × Nat)
  | [] => none
  | e :: es =>
    let from_ := if e.1 = z then t else 0
    match (if e.1 < z then none else s.harvestIn a e.1 (e.2.1 - from_) from_) with
    | some u => some (e.1, u)
    | none => s.nextHarvest a z t es

/-- A pass ends: its counts are recorded and the next starts (R414, R418). -/
def State.passEnd (s : State) (a : Nat) : State :=
  let h := s.harv a
  let s := s.fwRecord 0x8002 a ([(4, a), (4, h.pass)] ++ (upto 16).map fun i => (4, tget (fun _ => 0) h.counts i))
  s.setHarv a { h with pass := h.pass + 1, start := (s.vgl.epoch.toNat / 32768), zone := 0, stripe := 0, read := 0, counts := [], behind := false }

end Sys2Proof.Machine
end

