-- ==== Sys2Proof/Machine/Harvest.lean ====
section
/-!
DEFINITION. Harvest's reads and the steps of a refresh (R413 to R422).
-/
namespace Sys2Proof.Machine

/-- A link of JUB. -/
def State.jubK (s : State) (k : Nat) : JubLink := tget (fun _ => {}) s.jub k
def State.setJub (s : State) (k : Nat) (l : JubLink) : State := { s with jub := tset (fun _ => {}) s.jub k l }
def State.modJub (s : State) (k : Nat) (f : JubLink → JubLink) : State := s.setJub k (f (s.jubK k))

/-- JUB_Lk_STATUS.SESSION. -/
def State.jubSt (s : State) (k : Nat) : Nat := s.rfld (jubL k 4) 3 4

/-- The controller is a Jubilee source: a session is open on a link with ROLE 0. -/
def State.jubSource (s : State) : Bool := (upto 2).any fun k => !s.rbit (jubL k 0) 0 && decide (1 ≤ s.jubSt k) && decide (s.jubSt k ≤ 5)

/-- Stripes that a pass reads in all. -/
def State.harvestTotal (s : State) (a : Nat) : Nat := ((s.harvestList a).map fun e => e.2.2).sum

/-- Seconds since the pass began. -/
def State.passAge (s : State) (a : Nat) : Nat := s.epochSec - (s.harv a).start

/-- Harvest is due: fewer stripes read than total × age / PERIOD (R415). -/
def State.harvestDue (s : State) (a : Nat) : Bool :=
  decide ((s.harv a).read * (s.fw.harvCfg.period * 86400) < s.harvestTotal a * s.passAge a)

/-- Harvest lags by CATCHUP days of work (R415). -/
def State.harvestLags (s : State) (a : Nat) : Bool :=
  let c := s.fw.harvCfg
  decide ((s.harv a).read * (c.period * 86400) + s.harvestTotal a * (c.catchup * 86400) ≤ s.harvestTotal a * s.passAge a)

/-- Host work waits on the actuator: a MOP of a host command is on its way to its engine. -/
def State.hostWork (s : State) (a : Nat) : Bool :=
  s.fw.jobs.any fun j => j.eng == a && (j.kind == .read || j.kind == .band || j.kind == .conv || j.kind == .ring || j.kind == .merge)

/-- DUTY leaves room in the running second (R415). -/
def State.dutyFree (s : State) (a : Nat) : Bool :=
  let h := s.harv a
  let used := if h.dutySec = s.vgl.wall / 1000000000 then h.duty else 0
  decide (used * 100 ≤ s.fw.harvCfg.duty * 1000000000)

/-- The Vigil timer that wakes the controller for catch-up. DESIGN CHOICE: alarm 3, due at once. -/
def State.catchupAlarm (s : State) : State :=
  let e := s.vgl.epoch.toNat
  ((s.setBank (bankAddr 13) (BitVec.ofNat 32 e)).setBank (bankAddr 14) (BitVec.ofNat 32 (e / 2 ^ 32))).setBankBit (bankAddr 6) 3 true

/-- The zone has no reference table of its generation, and none is being captured (R525). -/
def State.lacksTable (s : State) (z : Nat) : Bool :=
  !(s.cal.refTables.any fun e => e.zone == z && e.gen == (s.zone z).gen) && !s.fw.jobs.any fun j => j.kind == .capture && j.zone == z

/-- Stripe 0 of the zone is read for its reference table (R525). -/
def State.captureJob (s : State) (g : Group) (z : Nat) : State :=
  let j : Job := { tag := 0, eng := g.home, kind := .capture, op := 1, zone := z, stripe := 0, gen := (s.zone z).gen
                   area := if g.shingled then 0 else 2 }
  s.onlyIf (decide (z < 2 ^ 21) && s.lacksTable z) fun s => s.issue j

/-- A zone's stored reference values go into CHN_SLOTh_REFr of its gang before a MOP of the background class (R137, R524). -/
def State.loadRefs (s : State) (g : Group) (z : Nat) : State :=
  match s.cal.refTables.find? fun e => e.zone == z && e.gen == (s.zone z).gen with
  | some r =>
    let words := r.words
    s.each ((upto g.width).filter fun p => decide (4 * p < words.length)) fun s p => s.each (upto 3) fun s r =>
      s.chnSettingWrite g.home (g.head p) (chnRef g.home (g.head p) r) (lget 0 words (4 * p + r))
  | none => s

/-- A whole-stripe read of Harvest or of Jubilee, in the background class (R307, R416). The first of a zone in its write generation waits for
the capture of the zone's reference table (R525). A stripe whose ladder runs is not read again: its first pass has failed (R307). -/
def State.harvestRead (s : State) (a z stripe : Nat) (k : JobKind) : State :=
  let g := match s.formatOf z with
    | some g => g
    | none => s.internalGroup z
  let s := s.setHarv a { s.harv a with issued := s.vgl.wall }
  if z < 2 ^ 21 ∧ s.lacksTable z then (s.captureJob g z).setHarv a { s.harv a with queue := (z, stripe) :: (s.harv a).queue }
  else if s.onLadder z stripe then (s.recordClass a z stripe 1 true).joinLadder g z stripe k (g.dataSlots stripe)
  else
    let gen := s.readGen g z stripe
    (s.loadRefs g z).issue { tag := 0, eng := a, kind := k, op := 1, zone := z, stripe := stripe, win := true, gen := gen
                             background := true, area := if g.shingled then 0 else 2 }

/-- Bands of the actuator whose refresh could not start are looked at again once they are Full (R419). -/
def State.deferredDue (s : State) (a : Nat) : State :=
  s.each ((s.harv a).margins.filter fun m => (s.zone m.zone).deferred && (s.zone m.zone).st == .full) fun s m => s.refreshDue m.zone

/-- The next scheduled read, where one is due; the pass ends with the last (R414, R415). -/
def State.harvestNext (s : State) (a : Nat) : State :=
  let h := s.harv a
  let prev := h.zone
  match s.nextHarvest a h.zone h.stripe (s.harvestList a) with
  | some (z, t) =>
    if !s.harvestDue a then s else
    let unit := s.unitOf a z t
    let s := s.onlyIf (z != prev && decide (0 < h.read)) fun s => s.refreshDue prev
    let s := s.setHarv a { s.harv a with zone := z, stripe := t + 1 }
    s.harvestRead a unit t .harvest
  | none => s.onlyIf (decide (0 < h.read)) fun s => (s.refreshDue prev).passEnd a

/-- HARVEST_READ_ISSUE. -/
def execHarvestReadIssue (a : Fin 4) (s : State) : Host.Outcome State Fault Refusal :=
  .next (
    let h := s.harv a
    if s.actSt a = 6 ∨ s.jubSource ∨ s.fw.jobs.any fun j => (j.kind == .harvest || j.kind == .capture) && j.eng == a then s
    else if s.pwrAway then s.onlyIf (s.fw.harvCfg.wake && s.harvestLags a) fun s => s.catchupAlarm
    else if s.hostWork a && !s.dutyFree a then s
    else
      let s := s.deferredDue a
      match h.queue with
      | (z, t) :: q => (s.setHarv a { s.harv a with queue := q }).harvestRead a z t .harvest
      | [] => s.harvestNext a)

/-- HARVEST_PASS_OVERDUE. -/
def execHarvestPassOverdue (a : Fin 4) (s : State) : Host.Outcome State Fault Refusal :=
  .next (
    let h := s.harv a
    if h.behind ∨ s.passAge a < s.fw.harvCfg.period * 86400 then s
    else (s.setHarv a { h with behind := true }).fwRecord 0x1D2 a [(4, a), (4, h.pass)])


/-- A refresh has written its band: its record is cleared and the margin record says so (R420). -/
def State.refreshOver (s : State) (g : Group) (z : Nat) : State :=
  let h := s.harv g.home
  let mark (m : Margin) : Margin := if m.zone = z then { m with refreshed := true, deferred := false } else m
  let s := s.setHarv g.home { h with refresh := none, copy := [], copied := 0, saved := 0, margins := h.margins.map mark }
  s.modZone z fun x => { x with refresh := 0, copyFrom := none }

/-- REFRESH_STEP_DONE: the next step of R420 begins once no MOP of the last one is left; writing that a power loss cut goes on from V
(R421). -/
def execRefreshStepDone (a : Fin 4) (s : State) : Host.Outcome State Fault Refusal :=
  .next (match (s.harv a).refresh with
    | none => s
    | some z => match s.groupOf z with
      | none => s
      | some g =>
        let x := s.zone z
        let h := s.harv a
        if (s.fw.jobs.any fun j => j.fresh z) ||
            (s.fw.ladders.any fun l => l.fresh && l.zone == z) || x.finding || s.resetWaits z then s
        else if h.copied < s.freshTop g z then s.freshRead g z
        else if x.refresh ≤ 2 ∧ h.saved < s.freshTop g z then s.freshSave g z
        else if x.refresh ≤ 2 then
          let gen := (x.gen + 1) % 65536
          let x := { x with refresh := 3, gen := gen, remaps := [], spares := 0, spareHeld := none, v := 0, w := 0, placed := g.stripes }
          (s.setZone z (x.record 0)).issue {
            tag := 0, eng := g.home, kind := .refreshWrite, op := 2, zone := z, stripe := 0, count := g.stripes, gen := gen }
        else if x.refresh = 3 ∧ g.stripes ≤ x.v then (s.refreshOver g z).captureJob g z
        else if x.refresh = 3 then
          s.issue { tag := 0, eng := g.home, kind := .refreshWrite, op := 2, zone := z, stripe := x.v, count := g.stripes - x.v, gen := x.gen }
        else s)

/-! ## The Almanac's media mirrors (R533, R536, R537) -/

/-- The job writes a mirror stripe. -/
def Job.isMirror (j : Job) : Bool := match j.kind with
  | .mirror _ => true
  | _ => false

/-- Entries that an actuator's mirror does not hold, oldest first (R537). -/
def State.unmirrored (s : State) (a : Nat) : List AlmEntry :=
  s.alm.entries.filter fun e => decide (tget (fun _ => 0) s.alm.mirrorSeq a ≤ e.seq.toNat)

/-- The entries of a list that fit whole into so many bytes. -/
def fitting : Nat → List AlmEntry → List AlmEntry
  | _, [] => []
  | n, e :: es => if e.bytes.length ≤ n then e :: fitting (n - e.bytes.length) es else []

/-- Where each entry begins in the stream, from `at_` on. -/
def entryStarts (at_ : Nat) : List AlmEntry → List Nat
  | [] => []
  | e :: es => at_ :: entryStarts (at_ + e.bytes.length) es

/-- Sector `i` of a mirror stripe: a 4-byte lead with the offset of the first entry that begins in it, entry bytes, and zeros
(R533). -/
def mirrorSector (es : List AlmEntry) (i : Nat) : List Byte :=
  let bs := (((es.map AlmEntry.bytes).flatten).drop (4092 * i)).take 4092
  let first := (entryStarts 0 es).find? fun p => p / 4092 == i
  leBytes 2 (match first with
    | some p => 4 + p % 4092
    | none => 0xFFFF) ++ leBytes 2 0 ++ bs ++ List.replicate (4092 - bs.length) 0

/-- Firmware writes the next stripe of an actuator's mirror with the entries that it lacks, up to a sequence number. A mirror whose
mark has reached its end is full (R536, R537). DESIGN CHOICE (log 75): a stripe holds whole entries. -/
def State.mirrorWrite (s : State) (a upTo : Nat) : State :=
  let d := (s.ring a).d
  let mark := (s.reg (almMirrorMark a)).toNat
  if !s.mirrorTakes a then s
  else if mirrorStripes d ≤ mark then ((s.setRbit almStatus (3 + a) true).raise almInt 1).almanac 0x030A bALM a []
  else if s.fw.jobs.any fun j => j.eng == a && j.isMirror then s
  else
    let es := fitting (4092 * d) ((s.unmirrored a).filter fun e => decide (e.seq.toNat ≤ upTo))
    match es.getLast? with
    | none => s
    | some e =>
      let at_ := mirrorFirst d + mark
      s.issue { tag := 0, eng := a, kind := .mirror (e.seq.toNat + 1), op := 2, zone := regionTag a 0 (at_ / ceilDiv 65536 d)
                stripe := at_, area := 2, data := (upto d).map fun i => (i, mirrorSector es i) }

/-- MIRROR_WRITE_TIMER. The mark itself advances as the stripe verifies. -/
def execMirrorWriteTimer (a : Fin 4) (upTo : BitVec 64) (s : State) : Host.Outcome State Fault Refusal := .next (s.mirrorWrite a upTo.toNat)

/-- Before the entry into PL4 or PL5, once the flash is full, a mirror stripe is written on every actuator that is Tracking and
lacks entries (R536). -/
def State.mirrorsBehind (s : State) : List Nat :=
  if s.rbit almStatus 1 then (upto 4).filter fun a => s.mirrorTakes a && s.actSt a == 2 && !(s.unmirrored a).isEmpty else []

end Sys2Proof.Machine
end

