-- ==== Sys2Proof/Machine/Jub.lean ====
section
/-!
DEFINITION. Jubilee: the peer links and their sessions (R423 to R440).
-/
namespace Sys2Proof.Machine

def jubCtrl := regAddr bJUB 0x0
def jubStatus := regAddr bJUB 0x4
def jubInt := regAddr bJUB 0x8
def jubCfg := regAddr bJUB 0x10
/-- JUB_Lk_CNT_STRIPES, NAK, RESEND, CRC_ERR, REPLAY, LATE_WRITE and VIOL (Table 15.6). -/
def jubCtr (k i : Nat) : Ctr := ⟨jubL k (0x20 + 4 * i), jubL k 0x3C, i, jubInt, 7, 32⟩

/-- Lanes of a link, and the first of them (R423). -/
def State.jubWidth (s : State) : Nat := if s.rbit jubCtrl 1 then 4 else 8
def State.jubBase (s : State) (k : Nat) : Nat := if s.rbit jubCtrl 1 then 4 * k else 0
/-- The link exists: link 1 only with SPLIT. -/
def State.jubHas (s : State) (k : Nat) : Bool := k == 0 || s.rbit jubCtrl 1
/-- JUB_Lk_STATUS.LINK, SESSION and LAST_STATUS. -/
def State.jubLinkSt (s : State) (k : Nat) : Nat := s.rfld (jubL k 4) 0 3
def State.setJubLink (s : State) (k v : Nat) : State := s.setRfld (jubL k 4) 0 3 v
def State.setJubSt (s : State) (k v : Nat) : State := s.setRfld (jubL k 4) 3 4 v
def State.jubLast (s : State) (k v : Nat) : State := s.setRfld (jubL k 4) 16 16 v
/-- This end is the source of the link. -/
def State.jubSrc (s : State) (k : Nat) : Bool := !s.rbit (jubL k 0) 0
/-- JUB_Lk_DONE. -/
def State.jubDone (s : State) (k : Nat) : W := s.reg (jubL k 0x10)
/-- The open zones, with JUB_Lk_STATUS.OPEN. -/
def State.setJubZones (s : State) (k : Nat) (zs : List JubZone) : State :=
  (s.modJub k fun l => { l with zones := zs }).setRfld (jubL k 4) 7 4 zs.length
def State.modJubZone (s : State) (k idx : Nat) (f : JubZone → JubZone) : State :=
  let g (q : JubZone) : JubZone := if q.idx = idx then f q else q
  s.modJub k fun l => { l with zones := l.zones.map g }
def State.jubZone (s : State) (k idx : Nat) : Option JubZone := (s.jubK k).zones.find? fun q => q.idx == idx
def State.dropJubZone (s : State) (k idx : Nat) : State := s.setJubZones k ((s.jubK k).zones.filter fun q => q.idx != idx)

/-! ## Flits and messages (R424, R427) -/

/-- The lane record of a link. -/
def JubLink.txl (l : JubLink) (i : Nat) : TxLane := tget (fun _ => {}) l.tx i
def JubLink.rxl (l : JubLink) (i : Nat) : RxLane := tget (fun _ => {}) l.rx i

/-- A sequenced flit is queued on lane k mod w; it goes out while fewer than 128 are unacknowledged (R97, R424). -/
def State.jubFlit (s : State) (k type sub : Nat) (payload : List Byte) : State :=
  let l := s.jubK k
  let i := l.txNext % s.jubWidth
  let t := l.txl i
  let f := t.flit type sub payload
  let s := s.setJub k { l with txNext := l.txNext + 1, tx := tset (fun _ => {}) l.tx i (t.hold f) }
  s.onlyIf t.room fun s => s.emit (.jubFlit k i false f)

/-- A LINK flit on a lane of a link: 1 ACK, 2 NAK (Table 3.5, R424). -/
def State.jubSendLink (s : State) (k i kind : Nat) (lseq : BitVec 8) : State :=
  s.emit (.jubFlit k i false (mkFlit 1 0 0 false [BitVec.ofNat 8 kind, lseq]))

/-- A message is sent: one MSG flit, then MSG_DATA flits, SUB[0] on the last (R427). -/
def State.jubSend (s : State) (k mtype plan : Nat) (body : List Byte) : State :=
  let head := leBytes 4 mtype ++ leBytes 4 (s.reg (jubL k 8)).toNat ++ leBytes 4 plan ++ leBytes 4 body.length
  let n := ceilDiv (body.length - 44) 60
  let s := (s.emit (.jubMsg k mtype plan body)).jubFlit k 4 (if n = 0 then 1 else 0) (head ++ body.take 44)
  s.each ((pieces 60 n (body.drop 44)).zip (upto n)) fun s e => s.jubFlit k 5 (if e.2 + 1 = n then 1 else 0) e.1

/-! ## The link (R424, R425) -/

/-- CAL_JPREr_l. -/
def calJpre (r l : Nat) := regAddr bCAL (0x2800 + 0x40 * r + 4 * l)

/-- The link's training has ended: up with the session that was held, or to be retried. DESIGN CHOICE: sequenced traffic
starts at SEQ 0 and at order number 0 (Table 3.11 step 8), and what was on its way is not sent again. -/
def State.jubTrained (s : State) (k : Nat) (up : Bool) : State :=
  let w := s.jubWidth
  let lanes := (2 ^ w - 1) * 2 ^ s.jubBase k
  let rate := s.rfld jubCtrl 2 2
  if up && rate != 3 then
    let s := s.setRfld jubStatus 0 2 rate
    let s := (s.setRfld jubStatus 2 8 (s.rfld jubStatus 2 8 ||| lanes)).raise jubInt 0
    let s := s.onlyIf (!(s.jubK k).presets) fun s => s.storePresets (calJpre rate) ((upto w).map fun i => s.jubBase k + i)
    let s := s.calTaken fun a => (upto w).any fun i => a == calJpre rate (s.jubBase k + i)
    let l := s.jubK k
    let s := s.setJub k { l with rx := [], tx := [], txNext := 0, rxNext := 0, early := [], msgOpen := false, presets := true }
    let s := s.setJubLink k 2
    s.onlyIf (s.jubSt k == 5) fun s => s.setJubSt k (s.jubK k).heldFrom
  else s.setJubLink k 3

/-- A link goes down: the session on it is Held (R425). -/
def State.jubDown (s : State) (k : Nat) : State :=
  let lanes := (2 ^ s.jubWidth - 1) * 2 ^ s.jubBase k
  let s := s.setRfld jubStatus 2 8 (s.rfld jubStatus 2 8 &&& (255 - lanes))
  let st := s.jubSt k
  s.onlyIf (decide (1 ≤ st) && decide (st ≤ 4)) fun s => (s.modJub k fun l => { l with heldFrom := st }).setJubSt k 5

/-- JUB_ENERGY_DETECT: the link trains; with the domain off it is wake source 3 (R424, Table 16.5). -/
def execJubEnergyDetect (k : Fin 2) (up : Bool) (s : State) : Host.Outcome State Fault Refusal :=
  .next (
    let s := s.wakeBy 3
    if s.rbit jubCtrl 0 && s.jubHas k && s.jubLinkSt k == 0 && !s.pwr.off.testBit 3 then s.jubTrained k up else s)

/-- JUB_RETRAIN: the whole link retrains, with the Jubilee presets that wait for it (R425, R511). -/
def execJubRetrain (k : Fin 2) (up : Bool) (s : State) : Host.Outcome State Fault Refusal :=
  .next (
    if s.rbit jubCtrl 0 && s.jubHas k && s.jubLinkSt k != 0 then
      let s := s.jubDown k
      let was := s.jubLinkSt k
      let s := s.jubTrained k up
      s.onlyIf (was == 2 && !up) fun s => s.raise jubInt 1
    else s)

/-- JUB_LINK_DOWN. -/
def execJubLinkDown (k : Fin 2) (s : State) : Host.Outcome State Fault Refusal :=
  .next (if s.jubLinkSt k = 2 then ((s.jubDown k).setJubLink k 3).raise jubInt 1 else s)

/-- JUB_LINK_RETRY. -/
def execJubLinkRetry (k : Fin 2) (up : Bool) (s : State) : Host.Outcome State Fault Refusal :=
  .next (if s.rbit jubCtrl 0 && s.jubLinkSt k == 3 then s.jubTrained k up else s)

/-! ## The plan (R426, R429) -/

/-- The entry of a plan index, and the index within it (R426). -/
def planAt : List PlanEnt → Nat → Option (PlanEnt × Nat)
  | [], _ => none
  | e :: es, i => if i < e.count then some (e, i) else planAt es (i - e.count)

/-- Zones of a plan. -/
def planZones (l : List PlanEnt) : Nat := (l.map fun e => e.count).sum

/-- The zone of this end for a plan index. DEDUCED: a plan entry's zones go to the zones of the same namespace-relative
numbers. -/
def State.planZone (s : State) (src : Bool) (l : List PlanEnt) (i : Nat) : Option Nat :=
  match planAt l i with
  | none => none
  | some (e, o) => match s.space (if src then e.src else e.dst) with
    | none => none
    | some n => zoneAt (s.spaceGroups n) (e.first + o)

/-- A destination zone is Empty: a conventional one has no LBA written. -/
def State.zoneEmpty (s : State) (z : Nat) : Bool :=
  match s.groupOf z with
  | some g => if g.shingled then (s.zone z).st == .empty else s.fw.written.all fun e => decide (e.1 / 65536 ≠ z)
  | none => false

/-- The entry is one that R429 refuses. -/
def State.planBad (s : State) (e : PlanEnt) : Bool :=
  match s.space e.dst with
  | none => true
  | some n => n.kind == 2 || decide (1 < e.kind) || n.kind != e.kind || decide (s.spaceZones n < e.first + e.count) ||
      (upto e.count).any fun i => match zoneAt (s.spaceGroups n) (e.first + i) with
        | some z => !s.zoneEmpty z
        | none => true

/-- The number of the first refused entry. -/
def State.firstBad (s : State) : List PlanEnt → Nat → Option Nat
  | [], _ => none
  | e :: es, i => if s.planBad e then some i else s.firstBad es (i + 1)

/-- Destination zones of a plan are, or are no longer, the session's (R435). -/
def State.setReceiving (s : State) (l : List PlanEnt) (on : Bool) : State :=
  s.each (upto (planZones l)) fun s i => match s.planZone false l i with
    | some z => s.modZone z fun x => { x with receiving := on }
    | none => s

/-! ## The end of a session (R429, R434, R437) -/

/-- A buffer reservation of the granted stripes that have not come: G × 4,112 bytes each, at the widest format (R429; log 86). -/
def State.creditHold (s : State) (k : Nat) : State :=
  let l := s.jubK k
  let key := 2 ^ 48 + k
  let rest := s.fw.bufs.filter fun b => b.key != key
  s.modFw fun f => { f with
    bufs := if l.gotStripes < l.grant then { port := 4, key := key, n := 12 * (l.grant - l.gotStripes) } :: rest else rest }

/-- CLOSE has been sent or received: the session ends; status 0 and JUB_ABORTED discard the resume state. -/
def State.jubClosed (s : State) (k status : Nat) : State :=
  let l := s.jubK k
  let s := s.onlyIf (!s.jubSrc k) fun s => s.setReceiving l.plan false
  let s := (((s.jubLast k status).setJubSt k (if status = 0 then 6 else 7)).raise jubInt 4).setJubZones k []
  let s := s.modJub k fun l => { l with msgOpen := false, sent := false, got := false, planOk := false, grant := 0, gotStripes := 0, sentStripes := 0 }
  let s := s.onlyIf (status == 0 || status == 0x508) fun s => s.modJub k fun l => { l with recSession := none, recPlan := [], recDone := 0xFFFFFFFF }
  s.creditHold k

/-- This end closes the session. -/
def State.jubClose (s : State) (k status : Nat) : State := (s.jubSend k 0xB 0xFFFFFFFF (leBytes 8 status)).jubClosed k status

/-- A whole message that is malformed (R437). -/
def State.jubBadMsg (s : State) (k : Nat) : State := s.jubClose k 0x50A

/-- The session is one in which messages are exchanged. -/
def State.jubLive (s : State) (k : Nat) : Bool := decide (1 ≤ s.jubSt k) && decide (s.jubSt k ≤ 4)
/-- The session is past plan acceptance and its link is up. -/
def State.jubRuns (s : State) (k : Nat) : Bool := s.jubSt k == 3 || s.jubSt k == 4

/-- JUB_START: ignored while the session is Running, Paused or Held (R426, R434, R440). -/
def execJubStart (k : Fin 2) (s : State) : Host.Outcome State Fault Refusal :=
  .next (
    let st := s.jubSt k
    if st = 3 ∨ st = 4 ∨ st = 5 ∨ !s.jubHas k then s
    else
      let l := s.jubK k
      let session := match l.recSession with
        | some x => x
        | none => if s.jubSrc k then s.vgl.epoch.setWidth 32 else 0
      let s := s.setJub k { l with
        plan := (if l.recSession.isSome then l.recPlan else l.plan), cfg := s.reg jubCfg, sent := false, grant := 0, sentStripes := 0
        gotStripes := 0, done := [], nextIdx := 0, planOk := false }
      let s := ((s.setJubZones k []).setReg (jubL k 8) session).setReg (jubL k 0x10) l.recDone
      (s.setReg (jubL k 0xC) (BitVec.ofNat 32 (planZones (s.jubK k).plan))).setJubSt k 1)

/-- JUB_ABORT: CLOSE JUB_ABORTED, and the resume state goes (R434). -/
def execJubAbort (k : Fin 2) (s : State) : Host.Outcome State Fault Refusal :=
  .next (
    let st := s.jubSt k
    if s.jubLive k && s.jubLinkSt k == 2 then s.jubClose k 0x508
    else if 1 ≤ st ∧ st ≤ 5 then s.jubClosed k 0x508
    else s.modJub k fun l => { l with recSession := none, recPlan := [], recDone := 0xFFFFFFFF })

/-- JUB_PAUSE: the source sends no new STRIPE (Table 15.7). -/
def execJubPause (k : Fin 2) (on : Bool) (s : State) : Host.Outcome State Fault Refusal :=
  .next (
    let s := s.setRbit (jubL k 0) 1 on
    if !s.jubSrc k then s
    else if s.jubSt k = 3 ∧ on then s.setJubSt k 4
    else if s.jubSt k = 4 ∧ !on then s.setJubSt k 3
    else s)

/-- JUB_LINK_HOLD_EXPIRY: the session ends and stays recorded (R425). -/
def execJubLinkHoldExpiry (k : Fin 2) (s : State) : Host.Outcome State Fault Refusal :=
  .next (
    if s.jubSt k = 5 then
      let s := ((s.jubLast k 0x507).setJubSt k 7).setJubZones k []
      let s := s.modJub k fun l => { l with msgOpen := false, sent := false, got := false, planOk := false, grant := 0, gotStripes := 0, sentStripes := 0 }
      s.creditHold k
    else s)

/-! ## HELLO, PLAN and PLAN_REPLY (R429, R434) -/

/-- An index that counts up from "none", 0xFFFFFFFF. -/
def idxUp (w : W) : Nat := (w + 1).toNat

/-- The session runs: Paused where PAUSE stands at a source. -/
def State.jubRun (s : State) (k : Nat) : State := s.setJubSt k (if s.jubSrc k && s.rbit (jubL k 0) 1 then 4 else 3)

/-- A plan's body (Table 15.3). -/
def planBody (l : List PlanEnt) : List Byte :=
  leBytes 4 l.length ++ leBytes 12 (planZones l) ++
  (l.map fun e => leBytes 4 e.src ++ leBytes 4 e.dst ++ leBytes 4 e.first ++ leBytes 4 e.count ++ leBytes 16 e.kind).flatten

/-- Both ends have sent HELLO: a new session goes on with PLAN, a recorded one resumes, any other combination closes. -/
def State.jubGreeted (s : State) (k : Nat) : State :=
  let l := s.jubK k
  if s.jubSt k ≠ 1 ∨ !l.sent ∨ !l.got then s
  else if s.jubSrc k then
    match l.recSession with
    | none =>
      if l.peerResume = 0xFFFFFFFF then (s.setJubSt k 2).jubSend k 2 0xFFFFFFFF (planBody l.plan) else s.jubClose k 0x501
    | some x =>
      if l.peerSession = x ∧ idxUp (s.jubDone k) ≤ idxUp l.peerResume then
        let s := s.setReg (jubL k 0x10) l.peerResume
        (s.setJub k { s.jubK k with recDone := l.peerResume, nextIdx := idxUp l.peerResume, planOk := true }).jubRun k
      else s.jubClose k 0x501
  else
    match l.recSession with
    | none =>
      if l.peerResume = 0xFFFFFFFF then (s.setReg (jubL k 8) l.peerSession).setJubSt k 2 else s.jubClose k 0x501
    | some x =>
      if l.peerSession = x ∧ idxUp l.peerResume ≤ idxUp (s.jubDone k) then
        let s := s.each (upto (planZones l.plan)) fun s i => match s.planZone false l.plan i with
          | some z => s.onlyIf (decide (idxUp (s.jubDone k) ≤ i) && !s.zoneEmpty z) fun s => s.jubReset z
          | none => s
        ((s.setReceiving l.plan true).modJub k fun l => { l with planOk := true }).jubRun k
      else s.jubClose k 0x501

/-- HELLO. -/
def execHello (k : Fin 2) (m : Option JubHello) (s : State) : Host.Outcome State Fault Refusal :=
  .next (match m with
    | none =>
      let l := s.jubK k
      if s.jubSt k = 1 ∧ s.jubLinkSt k = 2 ∧ !l.sent then
        let c := l.cfg
        let body := [1, (if s.jubSrc k then 0 else 1), BitVec.ofNat 8 s.jubWidth, 0] ++ s.otpBytes 0 20 ++ leBytes 4 (s.jubDone k).toNat ++
          leBytes 4 (fld c 0 4) ++ leBytes 4 (fld c 8 12) ++ List.replicate 12 0
        ((s.modJub k fun l => { l with sent := true }).jubSend k 1 0xFFFFFFFF body).jubGreeted k
      else s
    | some h =>
      if s.jubLinkSt k ≠ 2 ∨ s.jubSt k = 2 ∨ s.jubRuns k ∨ s.jubSt k = 5 then s.onlyIf (s.jubLive k) fun s => s.jubBadMsg k
      else if s.jubSt k = 1 ∧ (h.version ≠ 1 ∨ h.role ≠ (if s.jubSrc k then 1 else 0)) then s.jubBadMsg k
      else (s.modJub k fun l => { l with got := true, peerResume := h.resume, peerSession := h.session }).jubGreeted k)

/-- The session and its plan are recorded in the system area (R434). -/
def State.jubRecord (s : State) (k : Nat) (l : List PlanEnt) : State :=
  let x := s.reg (jubL k 8)
  (s.modJub k fun m => { m with plan := l, recPlan := l, recSession := some x, recDone := 0xFFFFFFFF, planOk := true, nextIdx := 0 }).jubRun k

/-- PLAN. -/
def execPlan (k : Fin 2) (entries : List PlanEnt) (zones : Nat) (s : State) : Host.Outcome State Fault Refusal :=
  .next (
    if s.jubSrc k ∨ s.jubSt k ≠ 2 then s.onlyIf (s.jubLive k) fun s => s.jubBadMsg k
    else if 64 < entries.length ∨ zones ≠ planZones entries then s.jubBadMsg k
    else match s.firstBad entries 0 with
      | some i => s.jubSend k 3 0xFFFFFFFF (leBytes 4 0x500 ++ leBytes 4 i)
      | none =>
        let s := (s.setReg (jubL k 0xC) (BitVec.ofNat 32 zones)).jubSend k 3 0xFFFFFFFF (leBytes 8 0)
        (s.setReceiving entries true).jubRecord k entries)

/-- PLAN_REPLY: accepted, the source goes on; refused, it closes the session. -/
def execPlanReply (k : Fin 2) (status : Nat) (s : State) : Host.Outcome State Fault Refusal :=
  .next (
    if !s.jubSrc k ∨ s.jubSt k ≠ 2 then s.onlyIf (s.jubLive k) fun s => s.jubBadMsg k
    else if status = 0 then s.jubRecord k (s.jubK k).plan
    else s.jubClose k status)

/-- CREDIT: at the source GRANT rises, modulo 2³²; a successor grants up to CREDIT_MAX stripes for which it has buffers (R362, R429). -/
def execCredit (k : Fin 2) (grant : Nat) (s : State) : Host.Outcome State Fault Refusal :=
  .next (
    let l := s.jubK k
    if !s.jubRuns k then s
    else if s.jubSrc k then
      let up := (grant + 2 ^ 32 - l.grant % 2 ^ 32) % 2 ^ 32
      s.setJub k { l with grant := if up < 2 ^ 31 then l.grant + up else l.grant }
    else
      let cap := min (s.rfld cplBufTotal 0 24 - s.bufReserved) (s.rfld (cplBufMax 4) 0 24 - s.portBufs 4)
      if l.grant < grant ∧ grant ≤ l.gotStripes + s.rfld jubCfg 8 12 ∧ 12 * (grant - l.grant) ≤ cap then
        (((s.setJub k { l with grant := grant }).creditHold k).trimClean).jubSend k 8 0xFFFFFFFF (leBytes 8 (grant % 2 ^ 32))
      else s)

/-! ## The source's zones (R429, R430, R432, R436) -/

/-- ZONE_BEGIN is sent for a zone of the window. -/
def State.beginMsg (s : State) (k : Nat) (idx z : Nat) (g : Group) : State :=
  let x := s.zone z
  let lbas := if g.shingled then s.wpOff z else 65536
  let q : JubZone := { idx := idx, zone := z, srcZone := z, gen := x.gen, g := g.width, p := g.p, lbas := lbas, full := x.st == .full
                       byCtrl := x.byCtrl, begun := true }
  let flags := (if x.st == .full then 1 else 0) + (if x.byCtrl then 2 else 0)
  let body := leBytes 4 z ++ leBytes 2 x.gen ++ leBytes 1 g.width ++ leBytes 1 g.p ++ leBytes 4 lbas ++ leBytes 4 (ceilDiv lbas g.d) ++
    leBytes 16 flags
  let zs := (s.jubK k).zones.filter fun r => r.idx != idx
  (s.setJubZones k (zs ++ [q])).jubSend k 4 idx body

/-- ZONE_BEGIN is sent for the zone that restarts, or for the next one while the window has room; a zone in refresh waits (R436). -/
def State.nextBegin (s : State) (k : Nat) : State :=
  let l := s.jubK k
  let go (s : State) (idx : Nat) (new : Bool) : State :=
    match s.planZone true l.plan idx with
    | none => s
    | some z => match s.groupOf z with
      | none => s
      | some g =>
        if (s.zone z).refresh ≠ 0 then s
        else (s.beginMsg k idx z g).onlyIf new fun s => s.modJub k fun l => { l with nextIdx := idx + 1 }
  match l.zones.find? fun q => !q.begun with
  | some q => if s.fw.jobs.any fun j => j.kind == .jub k && j.zone == q.zone then s else go s q.idx false
  | none => if l.zones.length < s.rfld jubCfg 0 4 ∧ l.nextIdx < planZones l.plan then go s l.nextIdx true else s

/-- The CRC fields of a stripe's sectors (R430). -/
def crcFields (sectors : List (List Byte)) : List W := sectors.map fun x => BitVec.ofNat 32 (metaOf x >>> 80)

/-- The ring stripe and slot that hold a key's newest copy. -/
def Ring.place (r : Ring) (key : Nat) : Option (Nat × Nat × List Byte) :=
  ((r.stripes ++ r.pinned).map fun t => (t.slots.filter fun x => x.1 == key).map fun x =>
    (t.pos, (t.keys.takeWhile fun k => k != key).length + 1, x.2.2)).flatten.getLast?

/-- The sectors of a TAIL stripe: ring sectors with their own metadata, fill, and parity computed now (R430). -/
def State.tailSectors (s : State) (g : Group) (z t : Nat) : List (List Byte) :=
  let x := s.zone z
  let r := s.ring g.home
  let wp := s.wpOff z
  let ds := (upto g.d).map fun i =>
    let off := t * g.d + i
    match (if off < wp then r.place (65536 * z + off) else none) with
    | some (pos, slot, b) =>
      let tag := regionTag g.home 1 (pos / ceilDiv 65536 r.d)
      (b, mkSector tag pos ((s.internalGroup tag).headAt slot) 0 b)
    | none => (zeroBlock, mkSector z t (g.headAt i) x.gen zeroBlock)
  let us := (upto g.d).zip (ds.map Prod.fst)
  let pq := if g.two then [parityP us, parityQ us] else [parityP us]
  ds.map Prod.snd ++ (pq.zip (upto pq.length)).map fun e => mkSector z t (g.headAt (g.d + e.2)) x.gen e.1

/-- A STRIPE goes out, and its CRC fields are noted. -/
def State.sendStripe (s : State) (k : Nat) (q : JubZone) (t : Nat) (tail : Bool) (sectors : List (List Byte)) : State :=
  let again := (tget (fun _ => none) q.stripes t).isSome
  let flags := (if tail then 1 else 0) + (if again then 2 else 0)
  let s := s.onlyIf again fun s => s.count (jubCtr k 2)
  let s := s.modJub k fun l => { l with sentStripes := l.sentStripes + 1 }
  let s := s.modJubZone k q.idx fun q => { q with stripes := tset (fun _ => none) q.stripes t (some (crcFields sectors)) }
  s.jubSend k 5 q.idx (leBytes 4 t ++ leBytes 12 flags ++ sectors.flatten)

/-- Stripes of the zone are to be read from media: V's of a band being written, all of a Full or conventional one (R430). -/
def State.jubOnMedia (s : State) (g : Group) (z t : Nat) : Bool :=
  !g.shingled || decide (t < s.liveV g z) || (s.zone z).st == .full && (g.stripeKeys z t).all fun key => ((s.ring g.home).newest key).isNone

/-- The next stripe of a zone at or above `t` that is to be sent, of those that hold written data (R430). -/
def State.jubNext (s : State) (g : Group) (z t : Nat) : Option Nat :=
  if g.shingled then (if g.d * t < s.wpOff z then some t else none)
  else ((s.fw.written.filter fun e => e.2 && decide (e.1 / 65536 = z) && decide (t ≤ g.stripeOf e.1)).map fun e => g.stripeOf e.1).min?

/-- JUB_STRIPE_SEND on a zone of the window. -/
def State.stripeSend (s : State) (k : Nat) (q : JubZone) (g : Group) : State :=
  let l := s.jubK k
  let credit := decide (l.sentStripes < l.grant)
  match q.again.min? with
  | some t =>
    if !credit then s
    else
      let data := tget (fun _ => []) q.data t
      let s := s.modJubZone k q.idx fun q => { q with again := q.again.filter fun u => u != t, data := tset (fun _ => []) q.data t [] }
      s.sendStripe k q t false data
  | none =>
    if s.fw.jobs.any (fun j => j.kind == .jub k && j.zone == q.zone) || s.fw.ladders.any (fun l => l.zone == q.zone && l.jub == some k) then s
    else match q.redo with
      | t :: ts =>
        if !g.shingled && (g.stripeKeys q.zone t).any (s.inHand g) then s.destage g q.zone t
        else (s.modJubZone k q.idx fun q => { q with redo := ts }).harvestRead g.home q.zone t (.jub k)
      | [] => if q.ended then s
        else match s.jubNext g q.zone q.next with
          | none => s
          | some t =>
            if s.jubOnMedia g q.zone t then
              if !g.shingled && (g.stripeKeys q.zone t).any (s.inHand g) then s.destage g q.zone t
              else (s.modJubZone k q.idx fun q => { q with next := t + 1 }).harvestRead g.home q.zone t (.jub k)
            else if credit && q.tailAt != s.wpOff q.zone then
              let wp := s.wpOff q.zone
              (s.modJubZone k q.idx fun q => { q with tailAt := wp }).sendStripe k q t true (s.tailSectors g q.zone t)
            else s

/-- JUB_STRIPE_SEND. -/
def execJubStripeSend (k : Fin 2) (idx : Nat) (s : State) : Host.Outcome State Fault Refusal :=
  .next (
    if !s.jubSrc k ∨ s.jubSt k ≠ 3 then s
    else match s.jubZone k idx with
      | none => s
      | some q =>
        if !q.begun ∨ q.failed ≠ 0 then s
        else match s.groupOf q.zone with
          | some g => s.stripeSend k q g
          | none => s)

/-- The chain of a zone's last accepted copies (R430). -/
def JubZone.chain (q : JubZone) : W := crc32c ((q.stripes.map fun e => match e.2 with
  | some ws => (ws.map fun w => leBytes 4 w.toNat).flatten
  | none => []).flatten)

/-- ZONE_END is sent once every stripe of the zone has been. -/
def State.endMsg (s : State) (k : Nat) (q : JubZone) (g : Group) : State :=
  let wp := if g.shingled then s.wpOff q.zone else 65536
  let left := match s.jubNext g q.zone q.next with
    | none => false
    | some t => s.jubOnMedia g q.zone t || q.tailAt != wp
  if q.ended || !q.begun || q.failed != 0 || !q.redo.isEmpty || !q.again.isEmpty || left ||
      s.fw.jobs.any (fun j => j.kind == .jub k && j.zone == q.zone) || s.fw.ladders.any (fun l => l.zone == q.zone && l.jub == some k) then s
  else
    let n := q.stripes.length
    (s.modJubZone k q.idx fun q => { q with ended := true, lbas := wp, fin := some (wp, n, q.chain) }).jubSend k 6 q.idx
      (leBytes 4 wp ++ leBytes 4 n ++ leBytes 4 q.chain.toNat ++ leBytes 4 0)

/-- STRIPE_NAK at the source: the stripe is read again, or has spent its resends (R432). -/
def execStripeNak (k : Fin 2) (idx stripe reason mask : Nat) (s : State) : Host.Outcome State Fault Refusal :=
  .next (
    if !s.jubSrc k ∨ !s.jubRuns k then s
    else match s.jubZone k idx with
      | none => s.jubBadMsg k
      | some q =>
        let s := s.count (jubCtr k 1)
        let n := tget (fun _ => 0) q.naks stripe + 1
        let tail := match s.groupOf q.zone with
          | some g => !s.jubOnMedia g q.zone stripe
          | none => false
        if (tget (fun _ => none) q.stripes stripe).isNone ∨ reason = 0 ∨ 2 ^ 12 ≤ mask then s.jubBadMsg k
        else s.modJubZone k idx fun q => { q with
          naks := tset (fun _ => 0) q.naks stripe n
          failed := if q.failed = 0 ∧ fld (s.jubK k).cfg 4 4 < n then 0x504 else q.failed
          tailAt := if tail then 0 else q.tailAt
          redo := if tail || q.redo.contains stripe then q.redo else q.redo ++ [stripe] })

/-! ## The successor's zones (R431, R433) -/

/-- ZONE_BEGIN at the successor. -/
def State.begun (s : State) (k : Nat) (m : JubBegin) : State :=
  let l := s.jubK k
  match s.planZone false l.plan m.idx with
  | none => s.jubBadMsg k
  | some z =>
    if (s.jubZone k m.idx).isSome ∨ l.done.contains m.idx ∨ m.idx < idxUp (s.jubDone k) ∨ 8 ≤ l.zones.length ∨
        !(m.g = 4 ∨ m.g = 6 ∨ m.g = 8 ∨ m.g = 12) ∨ !(m.p = 1 ∨ m.p = 2) ∨ 65536 < m.lbas then s.jubBadMsg k
    else s.setJubZones k (l.zones ++ [{ idx := m.idx, zone := z, srcZone := m.srcZone, gen := m.gen, g := m.g, p := m.p, lbas := m.lbas
                                        full := m.full, byCtrl := m.byCtrl, begun := true }])

/-- ZONE_BEGIN. -/
def execZoneBegin (k : Fin 2) (m : Option JubBegin) (s : State) : Host.Outcome State Fault Refusal :=
  .next (
    if !s.jubRuns k then s
    else match m with
      | none => s.onlyIf (s.jubSrc k) fun s => s.nextBegin k
      | some b => if s.jubSrc k then s.jubBadMsg k else s.begun k b)

/-- A sector's ZONE_TAG is that of a staging ring (Table 2.2). -/
def ringTag (x : List Byte) : Bool := (metaOf x).testBit 21 && (metaOf x >>> 16) % 8 == 1

/-- The slots of a STRIPE that fail one of the checks of R431, and the first failing status. -/
def JubZone.check (q : JubZone) (m : JubStripe) : Nat × List Nat :=
  let d := q.g - q.p
  let slots := (upto q.g).zip m.sectors
  let own (e : Nat × List Byte) : Bool := !(m.tail && decide (e.1 < d) && ringTag e.2)
  let md (e : Nat × List Byte) (lo len : Nat) : Nat := (metaOf e.2 >>> lo) % 2 ^ len
  let tag := slots.filter fun e => own e && (md e 0 22 != q.srcZone || (!m.tail && md e 22 32 != m.stripe))
  let gen := slots.filter fun e => own e && !m.tail && md e 61 16 != q.gen
  let crc := slots.filter fun e => !sectorCrcOk e.2
  let ds := (slots.filter fun e => decide (e.1 < d)).map fun e => (e.1, e.2.take 4096)
  let fill := slots.filter fun e => decide (e.1 < d) && (decide (65536 ≤ m.stripe * d + e.1) || (m.tail && own e)) && (e.2.take 4096).any (· != 0)
  let par := (if (lget [] m.sectors d).take 4096 = parityP ds then [] else [d]) ++
    (if q.p = 1 ∨ (lget [] m.sectors (d + 1)).take 4096 = parityQ ds then [] else [d + 1])
  if !tag.isEmpty then (0x140, tag.map Prod.fst)
  else if !gen.isEmpty then (0x141, gen.map Prod.fst)
  else if !crc.isEmpty then (0x142, crc.map Prod.fst)
  else if !fill.isEmpty then (0x502, fill.map Prod.fst)
  else if !par.isEmpty then (0x502, par)
  else (0, [])

/-- Accepted stripes are written into the destination zone, a zoned one's in stripe order and a TAIL only after ZONE_END (R433). -/
def State.jubWrite (s : State) (k idx : Nat) : Nat → State
  | 0 => s
  | fuel + 1 =>
    match s.jubZone k idx with
    | none => s
    | some q => match s.spaceOf q.zone, s.groupOf q.zone with
      | some n, some g =>
        let d := q.g - q.p
        let top := match q.fin with
          | some (x, _, _) => x
          | none => q.lbas
        match (if n.kind = 1 then (if (tget (fun _ => []) q.data q.wr).isEmpty then none else some q.wr) else q.data.head?.map Prod.fst) with
        | none => s
        | some t =>
          if q.tails.contains t && q.fin.isNone then s
          else
            let data := tget (fun _ => []) q.data t
            let ks := ((upto d).filter fun i => decide (t * d + i < (if q.tails.contains t then top else 65536))).map fun i =>
              (65536 * q.zone + t * d + i, (lget [] data i).take 4096)
            let keys := ks.map Prod.fst
            let s := s.each ks fun s e => s.bufferKey n e.1 e.2
            let acc := (s.zone q.zone).accept
            let s := s.onlyIf (n.kind == 1) fun s => s.modZone q.zone fun x => { x with
              accept := max acc (min 65536 (t * d + ks.length)), st := if x.st = .empty then .implOpen else x.st }
            let s := s.modFw fun f => { f with bufs := f.bufs ++ holdsOf g 4 keys }
            let s := s.placeKeys n g keys
            let s := s.modJubZone k idx fun q => { q with data := tset (fun _ => []) q.data t [], wr := if n.kind = 1 then t + 1 else q.wr }
            s.jubWrite k idx fuel
      | _, _ => s

/-- Once every stripe of ZONE_END has been accepted, the chain decides (R431). -/
def State.jubChain (s : State) (k idx : Nat) : State :=
  match s.jubZone k idx with
  | none => s
  | some q => match q.fin with
    | some (lbas, n, c) =>
      if q.stripes.length < n then s
      else if q.stripes.length = n ∧ q.chain = c then
        (s.modJubZone k idx fun q => { q with ended := true, lbas := lbas }).jubWrite k idx q.data.length
      else s.modJubZone k idx fun q => { q with failed := 0x503, chainBad := true }
    | none => s

/-- STRIPE: verified, and accepted or refused (R431). -/
def execStripe (k : Fin 2) (m : JubStripe) (s : State) : Host.Outcome State Fault Refusal :=
  .next (
    if s.jubSrc k ∨ !s.jubRuns k then s
    else match s.jubZone k m.plan with
      | none => s.jubBadMsg k
      | some q =>
        if m.sectors.length ≠ q.g ∨ m.sectors.any (fun x => x.length != 4112) then s.jubBadMsg k
        else
          let s := ((s.modJub k fun l => { l with gotStripes := l.gotStripes + 1 })).creditHold k
          let r := q.check m
          if r.1 ≠ 0 then
            (s.count (jubCtr k 1)).jubSend k 7 m.plan (leBytes 4 m.stripe ++ leBytes 2 r.1 ++ leBytes 2 (r.2.map fun i => 2 ^ i).sum)
          else
            let s := (s.count (jubCtr k 0)).modJubZone k m.plan fun q => { q with
              stripes := tset (fun _ => none) q.stripes m.stripe (some (crcFields m.sectors))
              data := tset (fun _ => []) q.data m.stripe m.sectors
              tails := if m.tail then (if q.tails.contains m.stripe then q.tails else q.tails ++ [m.stripe])
                       else q.tails.filter fun t => t != m.stripe }
            let n := match s.jubZone k m.plan with
              | some q => q.data.length
              | none => 0
            (s.jubWrite k m.plan n).jubChain k m.plan)

/-- ZONE_END. -/
def execZoneEnd (k : Fin 2) (idx : Nat) (m : Option (Nat × Nat × BitVec 32)) (s : State) : Host.Outcome State Fault Refusal :=
  .next (
    if !s.jubRuns k then s
    else match m, s.jubZone k idx with
      | none, none => s
      | none, some q => if !s.jubSrc k then s else match s.groupOf q.zone with
        | some g => s.endMsg k q g
        | none => s
      | some _, none => s.jubBadMsg k
      | some e, some _ =>
        if s.jubSrc k ∨ 65536 < e.1 then s.jubBadMsg k
        else (s.modJubZone k idx fun q => { q with fin := some e }).jubChain k idx)

/-- Every LBA of the zone that the session has written has verified (R433). -/
def State.jubVerified (s : State) (q : JubZone) (g : Group) : Bool :=
  q.data.isEmpty && (if g.shingled then decide (q.lbas ≤ s.wpOff q.zone) else s.fw.dirty.all fun e => decide (e.1 / 65536 ≠ q.zone))

/-- JUB_ZONE_COMMIT: a Full zone is finished first, one that is not Full is left Closed (R433). -/
def execJubZoneCommit (k : Fin 2) (idx : Nat) (s : State) : Host.Outcome State Fault Refusal :=
  .next (
    if s.jubSrc k ∨ !s.jubRuns k then s
    else match s.jubZone k idx with
      | none => s
      | some q => match s.groupOf q.zone with
        | none => s
        | some g =>
          if !q.ended || q.failed != 0 || !s.jubVerified q g then s
          else
            let done (s : State) : State := (s.modJub k fun l => { l with done := l.done ++ [idx] }).dropJubZone k idx
            if !g.shingled then done s
            else if q.full && (s.zone q.zone).st != .full then
              if (s.zone q.zone).finishing.isSome then s
              else
                let s := (s.modZone q.zone fun x => { x with receiving := false }).finishZone q.zone 0
                s.1.modZone q.zone fun x => { x with receiving := true }
            else if q.full then
              done ((s.modZone q.zone fun x => { x with byCtrl := q.byCtrl, wpHeld := if q.lbas < 65536 then some q.lbas else x.wpHeld }).zoneChanged q.zone)
            else done ((s.modZone q.zone fun x => { x with st := if q.lbas = 0 then .empty else .closed }).zoneChanged q.zone))

/-! ## Acknowledgement, failure and the end (R432, R433) -/

/-- The source counts an acknowledgement: zones of the session are migrated, and released where RELEASE is 1 (R433, R435). -/
def State.acked (s : State) (k done : Nat) : State :=
  let l := s.jubK k
  let zs := l.zones.filter fun q => decide (q.idx ≤ done)
  let rel := bitAt l.cfg 28
  let s := s.setJubZones k (l.zones.filter fun q => decide (done < q.idx))
  let s := s.each zs fun s q =>
    let s := s.modZone q.zone fun x => { x with migrated := some k }
    s.onlyIf rel fun s => s.modFw fun f => { f with release := f.release ++ [q.zone] }
  let s := s.releaseZones
  let w := BitVec.ofNat 32 done
  ((s.modJub k fun l => { l with recDone := w, done := l.done.filter fun i => decide (done < i) }).setReg (jubL k 0x10) w).raise jubInt 2

/-- ZONE_ACK: at the successor every plan index up to `done` is committed or failed (R433). -/
def execZoneAck (k : Fin 2) (done : Nat) (s : State) : Host.Outcome State Fault Refusal :=
  .next (
    let l := s.jubK k
    let old := idxUp (s.jubDone k)
    if !s.jubRuns k then s
    else if s.jubSrc k then
      if done < old then s
      else if l.nextIdx ≤ done ∨ l.zones.any (fun q => decide (q.idx ≤ done) && (!q.ended || q.failed != 0)) then s.jubBadMsg k
      else s.acked k done
    else if done < old ∨ !((upto (done + 1 - old)).all fun i => l.done.contains (old + i)) then s
    else
      let wp := match s.planZone false l.plan done with
        | some z => s.wpOff z
        | none => 0
      let w := BitVec.ofNat 32 done
      let s := (s.modJub k fun l => { l with recDone := w, done := l.done.filter fun i => decide (done < i) }).setReg (jubL k 0x10) w
      (s.raise jubInt 2).jubSend k 9 done (leBytes 4 done ++ leBytes 4 wp ++ leBytes 8 s.vgl.epoch.toNat))

/-- A zone has failed at this end: counted and recorded, reset on the successor, done (R432); JUB_ZONE_CHANGED restarts it (R430). -/
def State.zoneFailed (s : State) (k : Nat) (q : JubZone) (status : Nat) : State :=
  let s := s.jubLast k status
  let s := s.onlyIf (!s.jubSrc k) fun s => (s.jubReset q.zone).modZone q.zone fun x => { x with receiving := true }
  if status = 0x506 then
    if s.jubSrc k then s.modJubZone k q.idx fun q => { idx := q.idx, zone := q.zone } else s.dropJubZone k q.idx
  else
    let s := (s.dropJubZone k q.idx).modJub k fun l => { l with done := l.done ++ [q.idx] }
    let s := (s.setReg (jubL k 0x14) (s.reg (jubL k 0x14) + 1)).raise jubInt 3
    s.almanac status bJUB k [(4, q.idx), (4, q.zone)]

/-- ZONE_FAIL. -/
def execZoneFail (k : Fin 2) (idx : Nat) (status : Option Nat) (s : State) : Host.Outcome State Fault Refusal :=
  .next (
    if !s.jubRuns k then s
    else match status, s.jubZone k idx with
      | none, none => s
      | none, some q => if q.failed = 0 ∨ !q.begun then s else (s.jubSend k 0xA idx (leBytes 8 q.failed)).zoneFailed k q q.failed
      | some _, none => s.onlyIf (!(s.jubK k).done.contains idx) fun s => s.jubBadMsg k
      | some x, some q => s.zoneFailed k q x)

/-- CLOSE: received, or sent by the source once every plan index is acknowledged. -/
def execClose (k : Fin 2) (status : Option Nat) (s : State) : Host.Outcome State Fault Refusal :=
  .next (match status with
    | some x => if s.jubLive k then s.jubClosed k x else s
    | none =>
      if s.jubSrc k && s.jubRuns k && idxUp (s.jubDone k) == planZones (s.jubK k).plan then s.jubClose k 0 else s)

/-! ## JUB_FLIT_RECEIVED (R424, R437) -/

/-- A violation of R437. -/
def State.jubViolate (s : State) (k : Nat) : State := s.violate (jubCtr k 6) jubInt 6

/-- A flit with a good CRC has a TYPE that R424 does not list, or a reserved byte or bit that is not 0. -/
def jubFlitBad (f : List Byte) : Bool :=
  let t := flitType f
  !(t == 0 || t == 1 || t == 2 || t == 4 || t == 5) || (decide (3 < t) && decide (1 < flitSub f)) || (decide (t ≤ 2) && flitSub f != 0) ||
    (t == 0 && ((f.take 62).drop 2).any (· != 0)) || (t == 1 && ((f.take 62).drop 4).any (· != 0)) ||
    (t == 4 && (lget 0 f 4 != 0 || lget 0 f 5 != 0))

/-- ACK frees the flits up to a SEQ, and as many that waited go out; NAK sends again from its SEQ, or takes the link down (R96, R97). -/
def State.jubLinkFlit (s : State) (k i : Nat) (f : List Byte) : State :=
  let l := s.jubK k
  let t := l.txl i
  let seq : BitVec 8 := lget 0 f 3
  let kind := (lget 0 f 2).toNat
  if kind = 1 then
    if !t.knows seq then s
    else (s.setJub k { l with tx := tset (fun _ => {}) l.tx i (t.acked seq) }).each (t.freed seq) fun s f => s.emit (.jubFlit k i false f)
  else if kind = 2 then
    if t.knows seq then s.each (t.resent seq) fun s f => s.emit (.jubFlit k i true f)
    else if seq = t.unsent then s
    else ((s.jubDown k).setJubLink k 3).raise jubInt 1
  else s

/-- A flit in its order: the message state, and the violations that depend on it. With no session a message is opened by a HELLO alone
(R437). -/
def State.jubOrdered (s : State) (k : Nat) (f : List Byte) : State :=
  let l := s.jubK k
  let none_ := s.jubSt k == 0 || decide (6 ≤ s.jubSt k)
  let last := flitSub f % 2 == 1
  if flitType f = 4 then
    if none_ && lget 0 f 2 != 1 then (s.setJub k { l with msgOpen := false }).jubViolate k
    else s.setJub k { l with msgOpen := !last }
  else if !l.msgOpen then s.jubViolate k
  else s.setJub k { l with msgOpen := !last }

/-- Flits that have come ahead of order are delivered as far as they follow on. -/
def State.jubDeliver (s : State) (k : Nat) : Nat → State
  | 0 => s
  | n + 1 =>
    let l := s.jubK k
    match tget (fun _ => none) l.early l.rxNext with
    | none => s
    | some f => ((s.setJub k { l with rxNext := l.rxNext + 1, early := tset (fun _ => none) l.early l.rxNext none }).jubOrdered k f).jubDeliver k n

/-- The order number of the next flit of a lane, at or above `base` (R424). -/
def laneOrder (early : Tbl (Option (List Byte))) (next w i : Nat) : Nat :=
  let first := next + (i + w - next % w) % w
  first + w * (early.filter fun e => e.1 % w == i).length

/-- NAK for the expected SEQ, once. -/
def State.jubNak (s : State) (k i : Nat) : State :=
  let l := s.jubK k
  let r := l.rxl i
  if r.nakOut then s
  else (s.setJub k { l with rx := tset (fun _ => {}) l.rx i { r with nakOut := true, naks := 1 } }).jubSendLink k i 2 r.exp

/-- A flit of a lane, by R95 with ACK_INTERVAL 32. -/
def State.jubOnFlit (s : State) (k i : Nat) (f : List Byte) : State :=
  if !flitCrcOk f then (s.count (jubCtr k 3)).jubNak k i
  else if jubFlitBad f && flitType f != 4 && flitType f != 5 then s.jubViolate k
  else if flitType f = 1 then s.jubLinkFlit k i f
  else if flitType f ≠ 4 ∧ flitType f ≠ 5 then s
  else
    let l := s.jubK k
    let r := l.rxl i
    if flitSeq f ≠ r.exp then s.jubNak k i
    else
      let ack := decide (32 ≤ r.sinceAck + 1)
      let r' : RxLane := { exp := r.exp + 1, sinceAck := if ack then 0 else r.sinceAck + 1 }
      let s := s.onlyIf (flitRpl f) fun s => s.count (jubCtr k 4)
      let l := { s.jubK k with rx := tset (fun _ => {}) l.rx i r' }
      let s := s.setJub k { l with early := tset (fun _ => none) l.early (laneOrder l.early l.rxNext s.jubWidth i) (some f) }
      let s := s.onlyIf ack fun s => s.jubSendLink k i 1 (flitSeq f)
      let s := s.onlyIf (jubFlitBad f) fun s => s.jubViolate k
      s.jubDeliver k ((s.jubK k).early.length)

/-- JUB_FLIT_RECEIVED. -/
def execJubFlitReceived (k : Fin 2) (l : Fin 8) (flit : List Byte) (s : State) : Host.Outcome State Fault Refusal :=
  .next (
    if s.jubHas k && s.jubLinkSt k == 2 && decide (s.jubBase k ≤ l.val) && decide (l.val < s.jubBase k + s.jubWidth) then
      s.jubOnFlit k (l.val - s.jubBase k) flit
    else s)

end Sys2Proof.Machine
end

