-- ==== Sys2Proof/Machine/Rotor.lean ====
section
/-!
DEFINITION. The arithmetic of the spindle motor: observer, current and speed loops, back-EMF (R249, R250, R254, R255, R257). Values are whole
numbers of 2⁻³² of a code, of a turn or of an rpm (log 12).
-/
namespace Sys2Proof.Machine

/-- One code, one turn, one rpm. -/
def rotUnit : Int := 2 ^ 32

/-- A quotient: its rounding is a free value, and so is a quotient by zero. -/
def quo (n d : Int) : Int :=
  if d = 0 then Config.quoZero n else n / d + (if n % d ≠ 0 && Config.quoUp n d then 1 else 0)

/-- The whole part of a square root, over so many bits of the root from value `r` on. -/
def rootGo : Nat → Nat → Nat → Nat
  | 0, r, _ => r
  | k + 1, r, n => rootGo k (if (r + 2 ^ k) * (r + 2 ^ k) ≤ n then r + 2 ^ k else r) n

/-- A square root: its rounding is a free value. -/
def root (n : Nat) : Nat :=
  let r := rootGo 64 0 n
  if r * r ≠ n && Config.rootUp n then r + 1 else r

/-- The magnitude of a vector. -/
def magOf (v : Int × Int) : Nat := root (v.1 * v.1 + v.2 * v.2).toNat

/-- 1/√3, √3/2 and √3, rounded. -/
def invRoot3 : Int := 2479700525
def halfRoot3 : Int := 3719550787
def root3 : Int := 7439101574

/-- Three phase values as a vector: phase U along the first axis, amplitudes kept (R249). -/
def clarke (l : List Int) : Int × Int :=
  let (u, v, w) := (lget 0 l 0, lget 0 l 1, lget 0 l 2)
  (quo (2 * u - v - w) 3, quo ((v - w) * invRoot3) rotUnit)

/-- A vector as three phase values. -/
def unclarke (x : Int × Int) : List Int :=
  [x.1, quo (2 * x.2 * halfRoot3 - x.1 * rotUnit) (2 * rotUnit), quo (-(2 * x.2 * halfRoot3) - x.1 * rotUnit) (2 * rotUnit)]

/-- cos and sin of an angle in 2⁻³² of a turn, in 2⁻⁹⁶. -/
def sinOf (th : Int) : Int := sineFix (th % rotUnit).toNat
def cosOf (th : Int) : Int := sineFix ((th + 2 ^ 30) % rotUnit).toNat

/-- A vector in a frame at an angle (d along it, q ahead of it), and back. -/
def park (th : Int) (x : Int × Int) : Int × Int :=
  (quo (x.1 * cosOf th + x.2 * sinOf th) sineScale, quo (x.2 * cosOf th - x.1 * sinOf th) sineScale)
def unpark (th : Int) (x : Int × Int) : Int × Int :=
  (quo (x.1 * cosOf th - x.2 * sinOf th) sineScale, quo (x.1 * sinOf th + x.2 * cosOf th) sineScale)

/-- One half of the current model for a PWM period of `per` cycles: ih += (T / LS) × (va − RS × ih − eh) (R249). -/
def modelStep (per rs ls : Nat) (va ih eh : Int) : Int :=
  ih + quo ((va - quo (rs * Config.codeDrop * ih) rotUnit - eh) * per * rotUnit) (200000 * ls * Config.codeDrop)

/-- The PLL's error: (−eh.a cos th − eh.b sin th) / max(|eh|, 1) (R249). -/
def pllError (eh : Int × Int) (th : Int) : Int :=
  quo (quo (-(eh.1 * cosOf th) - eh.2 * sinOf th) sineScale * rotUnit) (max (magOf eh) rotUnit)

/-- The observer over one PWM period, from the phase voltages and currents as vectors (R249). -/
def Rotor.step (o : Rotor) (per rs ls : Nat) (va ia : Int × Int) : Rotor :=
  let ih := (modelStep per rs ls va.1 o.ih.1 o.eh.1, modelStep per rs ls va.2 o.ih.2 o.eh.2)
  let eh := (o.eh.1 + quo (Config.kObs * (ih.1 - ia.1)) rotUnit, o.eh.2 + quo (Config.kObs * (ih.2 - ia.2)) rotUnit)
  let err := pllError eh o.th
  let w := o.w + quo (Config.kiPll * err) rotUnit
  { ih := ih, eh := eh, w := w, th := (o.th + quo (per * w) 200000000 + quo (Config.kpPll * err) rotUnit) % rotUnit }

/-- The measured speed, rpm: the electrical speed divided by the pole pairs (R249). -/
def Rotor.rpm (o : Rotor) (polePairs : Nat) : Nat := (quo (o.w.natAbs * 60) (rotUnit * polePairs)).toNat

/-- A proportional-integral law with gains 2⁻ᵖ and 2⁻ⁱ: the new integrator, and the output (R250). -/
def piStep (p i : Nat) (e int : Int) : Int × Int :=
  let int := int + quo e (2 ^ i)
  (int, quo e (2 ^ p) + int)

/-- The difference of two angles, from −1/2 to 1/2 of a turn. -/
def turnDiff (a b : Int) : Int := (a - b + 2 ^ 31) % rotUnit - 2 ^ 31

/-- The angle of a vector of the upper half plane, bit by bit from `t` on. -/
def angleGo : Nat → Int → Int → Int → Int
  | 0, t, _, _ => t
  | k + 1, t, x, y => angleGo k (if 0 ≤ cosOf (t + 2 ^ k) * y - sinOf (t + 2 ^ k) * x then t + 2 ^ k else t) x y

/-- The angle of a vector, rounded down. -/
def angleOf (x y : Int) : Int :=
  if 0 < y ∨ (y = 0 ∧ 0 ≤ x) then angleGo 31 0 x y else 2 ^ 31 + angleGo 31 0 (-x) (-y)

/-- The magnitude of the line-to-line back-EMF vector of a sample of the three terminals (R254). -/
def emfMag (v : Nat × Nat × Nat) : Nat :=
  let a : Int := (v.1 : Int) - v.2.1
  let b : Int := v.1 + v.2.1 - 2 * v.2.2
  root ((3 * a * a + b * b) * 2 ^ 64 / 3).toNat

/-- The angle of the back-EMF vector of a sample. -/
def emfAngle (v : Nat × Nat × Nat) : Int :=
  angleOf ((2 * v.1 - v.2.1 - v.2.2 : Int) * rotUnit) (((v.2.1 : Int) - v.2.2) * root3)

/-- The mean magnitude over samples (R254). -/
def emfMean (vs : List (Nat × Nat × Nat)) : Nat := (quo ((vs.map emfMag).sum : Nat) vs.length).toNat

/-- The angle change from the oldest to the newest of samples that stand newest first, sample by sample. -/
def angleChange : List (Nat × Nat × Nat) → Int
  | v :: u :: l => turnDiff (emfAngle v) (emfAngle u) + angleChange (u :: l)
  | _ => 0

/-- The rotor's angle at the newest of samples: back-EMF stands a quarter turn ahead of it, as the error of R249 has it. -/
def rotorAngle : List (Nat × Nat × Nat) → Int
  | v :: _ => (emfAngle v - 2 ^ 30) % rotUnit
  | [] => Config.quoZero 1

/-- The compare of a phase: its duty is 1/2 + v / vm (R246, R249). -/
def compareOf (half vm : Nat) (v : Int) : Nat :=
  half - (clampI 0 half (quo (half * (vm * rotUnit + 2 * v)) (2 * vm * rotUnit))).toNat

end Sys2Proof.Machine
end

