-- ==== Sys2Proof/Machine/Mot.lean ====
section
/-!
DEFINITION. The spindle motor: states, starting and stopping, PWM sampling, supervision of VM (chapter 8).
-/
namespace Sys2Proof.Machine

def motCtrl := regAddr bMOT 0x0
def motStatus := regAddr bMOT 0x4
def motInt := regAddr bMOT 0x8
def motPwm := regAddr bMOT 0x10
def motShunt := regAddr bMOT 0x14
def motSpeedReg := regAddr bMOT 0x18
def motRamp := regAddr bMOT 0x1C
def motStartReg := regAddr bMOT 0x20
def motMotor := regAddr bMOT 0x24
def motLoops := regAddr bMOT 0x28
def motItrip := regAddr bMOT 0x2C
def motVmChop := regAddr bMOT 0x30
def motVmLim := regAddr bMOT 0x34
def motVmFloor := regAddr bMOT 0x38
def motBrake := regAddr bMOT 0x3C
def motRpmReg := regAddr bMOT 0x40
def motVm := regAddr bMOT 0x44
def motCtr (i : Nat) : Ctr := ⟨regAddr bMOT (0x48 + 4 * i), regAddr bMOT 0x58, i, motInt, 7, 32⟩

/-- MOT_STATUS.STATE: 0 Stopped, 1 Observe, 2 Brake, 3 Align, 4 Open loop, 5 Run, 6 Coast, 7 Fault (Table 8.2). -/
def State.motSt (s : State) : Nat := s.rfld motStatus 0 3
def State.setMotSt (s : State) (v : Nat) : State := s.setRfld motStatus 0 3 v
def State.modMot (s : State) (f : Mot → Mot) : State := { s with mot := f s.mot }

/-- Measured speed, rpm. -/
def State.rpm (s : State) : Nat := s.rfld motRpmReg 0 16
def State.setRpm (s : State) (r : Nat) (back : Bool) : State :=
  (s.setRfld motRpmReg 0 16 r).setRbit motRpmReg 16 back

/-- STOP_RPM, and STILL_CODES in 2⁻³² of a code, as in force (R266). -/
def State.stopRpm (s : State) : Nat := fld s.mot.brakeCfg 8 8
def State.stillCodes (s : State) : Nat := 2 ^ 32 * fld s.mot.brakeCfg 16 8

/-- The speed of a back-EMF magnitude in 2⁻³² of a code: magnitude × 1,000 / KE (R254). -/
def State.emfRpm (s : State) (mag : Nat) : Nat :=
  min 65535 (quo (mag * 1000) (rotUnit * fld s.mot.motorCfg 16 12)).toNat

/-- The last code of Table 8.6. -/
def State.motCode (s : State) (code : Nat) : State := s.setRfld motStatus 16 16 code

/-- A control write is refused (R244, R262). -/
def State.motRefuse (s : State) : State := (s.raise motInt 6).motCode 0x1A4

/-- AT_SPEED falls, or rises with its interrupt (R252). -/
def State.setAtSpeed (s : State) (b : Bool) : State :=
  let was := s.rbit motStatus 3
  (s.setRbit motStatus 3 b).onlyIf (b && !was) fun s => s.raise motInt 0

/-- MOT leaves Run or a start for a state with the given gates. -/
def State.motEnter (s : State) (st gates : Nat) : State :=
  ((s.setMotSt st).setAtSpeed false).modMot fun m => { m with
    gates := gates, inTol := 0, tripped := false, retry := false, stopping := false, agree := 0, vs := [], rising := false
    peek := false, peekAt := m.clk, floorOpen := false, qInt := 0, qRef := 0 }

/-- An attempt begins in Observe; PLOSS clears (R254, R257, R263). -/
def State.motObserve (s : State) : State :=
  ((s.motEnter 1 0).setRbit motStatus 6 false).count (motCtr 0)

/-- RETRACT is written for every actuator that is not Parked or Disabled (R251, R260). -/
def State.retractAll (s : State) : State := s.each (upto 4) fun s a => s.retract a 0x181

/-- An actuator is Loading, Tracking, Seeking, Settling or Retracting (R244). -/
def State.headsLoaded (s : State) : Bool := (upto 4).any fun a => s.actSt a != 0 && s.actSt a != 6

/-! ## MOT_CTRL (R244, R245, R258, R262) -/

/-- A write of MOT_CTRL is refused. -/
def State.motWriteRefused (s : State) (en : Bool) (tgt : Nat) : Bool :=
  (en && (s.rfld motMotor 16 12 == 0 || s.rfld motMotor 28 4 == 0)) ||
  tgt == 3 || (tgt != 0 && (s.rbit motStatus 5 || s.motSt == 7)) ||
  ((tgt == 0 || !en) && s.headsLoaded)

/-- The ramp turns to a new target from its current reference (R245). -/
def State.rampFrom (s : State) : State := s.modMot fun m => { m with rising := false, stopping := false }

/-- What the state makes of TARGET Slow or Nominal with ENABLE 1 (R244, R245, R258). -/
def State.motGo (s : State) : State :=
  let st := s.motSt
  if st = 0 ∨ st = 6 then (s.modMot fun m => { m with fails := 0 }).motObserve
  else if st = 2 ∧ s.mot.brake = 1 then (s.modMot fun m => { m with fails := 0 }).motObserve
  else if st = 5 then (s.setAtSpeed false).rampFrom
  else s

/-- What the state makes of TARGET Stop with ENABLE 1 (R245, R258). -/
def State.motHalt (s : State) : State :=
  let st := s.motSt
  if st = 5 then (s.setAtSpeed false).modMot fun m => { m with stopping := true, inTol := 0 }
  else if st = 1 ∨ st = 3 ∨ st = 4 ∨ (st = 2 ∧ s.mot.brake = 0) then s.motEnter 6 0
  else s.modMot fun m => { m with retry := false }

/-- ENABLE 0: every gate low and Coast (R244, Tables 8.2 and 8.8). DEDUCED (log 70): from Stopped and Fault too, as the text has no
exception. -/
def State.motOff (s : State) : State := (s.setRbit motCtrl 0 false).motEnter 6 0

/-- CLR_FAULT clears CHOP_FAULT and Fault (R262). -/
def State.motClear (s : State) : State :=
  let s := s.setRbit motStatus 5 false
  if s.motSt = 7 then s.motEnter 0 0 else s

/-- CLR_FAULT: below STOP_RPM only (R262). -/
def State.motClrFault (s : State) : State := if s.rpm < s.stopRpm then s.motClear else s.motRefuse

/-- A write of MOT_CTRL. One that is refused is ignored whole, also where only its CLR_FAULT is (R244, R262). -/
def State.motCtrlWrite (s : State) (v : W) : State :=
  let en := bitAt v 0
  let tgt := fld v 1 2
  if s.motWriteRefused en tgt || (bitAt v 4 && decide (s.stopRpm ≤ s.rpm)) then s.motRefuse
  else
    let old := s.rfld motCtrl 1 2
    let was := s.rbit motCtrl 0
    let s := s.setReg motCtrl (v &&& 7)
    let s := if bitAt v 4 then s.motClear else s
    if !en then (if was then s.motOff else s)
    else if tgt = 0 then s.motHalt
    else if s.motSt = 5 ∧ tgt = old ∧ !s.mot.stopping then s
    else s.motGo

/-- MOT_START_REQUEST. -/
def execMotStartRequest (nominal : Bool) (s : State) : Host.Outcome State Fault Refusal :=
  .next (s.motCtrlWrite (if nominal then 5 else 3))
/-- MOT_STOP_REQUEST. -/
def execMotStopRequest (s : State) : Host.Outcome State Fault Refusal := .next (s.motCtrlWrite 1)
/-- MOT_DISABLE: TARGET keeps its value. -/
def execMotDisable (s : State) : Host.Outcome State Fault Refusal := .next (s.motCtrlWrite (s.reg motCtrl &&& 6))
/-- MOT_TARGET_CHANGE: ENABLE keeps its value. -/
def execMotTargetChange (nominal : Bool) (s : State) : Host.Outcome State Fault Refusal :=
  .next (s.motCtrlWrite ((s.reg motCtrl &&& 1) ||| (if nominal then 4 else 2)))
/-- MOT_CLR_FAULT: the other fields of MOT_CTRL keep their values (R262). -/
def execMotClrFault (s : State) : Host.Outcome State Fault Refusal := .next s.motClrFault

/-! ## Starting (R254 to R257) -/

/-- Align begins: MOT_START is read (R266). -/
def State.motAlign (s : State) : State :=
  let r := s.reg motStartReg
  (s.motEnter 3 2).modMot fun m => { m with startCfg := r, curInt := (0, 0) }

/-- A synchronisation: Run from the measured speed, with the observer's angle and speed from the observation (R255). -/
def State.motSync (s : State) (r : Nat) : State :=
  let o : Rotor := { s.mot.obs with th := rotorAngle s.mot.vs, w := quo (rotUnit * (r * fld s.mot.motorCfg 28 4)) 60 }
  ((s.motEnter 5 2).modMot fun m => { m with ref := 100 * r, obs := o, curInt := (0, 0) }).rampFrom

/-- OBSERVE_END: Table 8.4. -/
def State.observeEnd (s : State) (mag : Nat) (back : Bool) : State :=
  if s.motSt ≠ 1 then s
  else
    let still := decide (mag < s.stillCodes)
    let r := if still then 0 else s.emfRpm mag
    let s := s.setRpm r (back && !still)
    if still then s.motAlign
    else if back then (s.motEnter 2 1).modMot fun m => { m with brake := 0 }
    else if 300 ≤ r then s.motSync r
    else if s.stopRpm ≤ r then (s.motEnter 2 1).modMot fun m => { m with brake := 0 }
    else s.motAlign

/-- OBSERVE_END: the findings are those of the window's samples (R254). -/
def execObserveEnd (s : State) : Host.Outcome State Fault Refusal :=
  .next (s.observeEnd (emfMean s.mot.vs) (decide (angleChange s.mot.vs < 0)))

/-- The gates of a brake: low sides on, and none in a peek's window or where R261 holds VM up (R256, R261). -/
def State.brakeGates (s : State) : State := s.modMot fun m => { m with gates := if m.peek || m.floorOpen then 0 else 1 }

/-- The windows of a brake: every gate opens for 2 ms once every PEEK_INT (R256). -/
def State.peekWindow (s : State) : State :=
  let m := s.mot
  if s.motSt ≠ 2 then s
  else if m.peek then
    (s.onlyIf (decide (m.peekAt + 400000 ≤ m.clk)) fun s => s.modMot fun m => { m with peek := false }).brakeGates
  else
    let due := m.peekAt + 200000 * fld m.brakeCfg 0 8
    (s.onlyIf (decide (due ≤ m.clk)) fun s => s.modMot fun m => { m with peek := true, peekAt := due, vs := [] }).brakeGates

/-- BRAKE_PEEK: a reading below STOP_RPM ends the brake: a start observes again, a stop is Stopped, a chopper fault
is Fault (R256, Tables 8.2 and 8.4). -/
def State.brakePeek (s : State) (mag : Nat) : State :=
  if s.motSt ≠ 2 then s
  else
    let r := s.emfRpm mag
    let s := s.setRpm r (s.rbit motRpmReg 16)
    if s.stopRpm ≤ r then (s.modMot fun m => { m with peek := false }).brakeGates
    else if s.mot.brake = 1 then s.motEnter 0 0
    else if s.mot.brake = 2 then (s.motEnter 7 0).setRbit motStatus 7 false
    else s.motEnter 1 0

/-- BRAKE_PEEK: what the samples of the last window read. -/
def execBrakePeek (s : State) : Host.Outcome State Fault Refusal := .next (s.brakePeek (emfMean s.mot.vs))

/-- ALIGN_END: open loop from 0 rpm. -/
def execAlignEnd (s : State) : Host.Outcome State Fault Refusal :=
  .next (if s.motSt = 3 then (s.setMotSt 4).modMot fun m => { m with openAt := m.clk, agree := 0 } else s)

/-- START_TIMEOUT: a 2 s coast, or Fault at the third failure of the request (R257). -/
def State.startTimeout (s : State) : State :=
  if s.motSt ≠ 4 then s
  else
    let n := s.mot.fails + 1
    if 3 ≤ n then
      let s := (s.motEnter 7 0).modMot fun m => { m with fails := n }
      ((s.raise motInt 1).motCode 0x1A0).almanac 0x01A0 bMOT 0 []
    else (s.motEnter 6 0).modMot fun m => { m with fails := n, retry := true }

/-- START_TIMEOUT. -/
def execStartTimeout (s : State) : Host.Outcome State Fault Refusal := .next s.startTimeout

/-- START_RETRY. -/
def execStartRetry (s : State) : Host.Outcome State Fault Refusal :=
  .next (if s.motSt = 6 ∧ s.mot.retry then s.motObserve else s)

/-! ## Speed loop (R250 to R253, R258) -/

/-- A loop update takes MOT_MOTOR and MOT_LOOPS (R266). -/
def State.loopsTaken (s : State) : State :=
  let (mo, lo) := (s.reg motMotor, s.reg motLoops)
  s.modMot fun m => { m with motorCfg := mo, loopCfg := lo }

/-- The speed that TARGET asks for, rpm; a stop ramps to 300 (R258). -/
def State.motTarget (s : State) : Nat :=
  if s.mot.stopping then 300
  else if s.rfld motCtrl 1 2 = 2 then s.rfld motSpeedReg 0 14 else s.rfld motSpeedReg 16 14

/-- The ramp of R253 for 1 ms: ACC, ACC_RUN and DEC are units of 10 rpm/s. The rate of a rise is chosen where it starts. -/
def State.rampStep (s : State) : State :=
  let t := 100 * s.motTarget
  let r := s.reg motRamp
  s.modMot fun m =>
    if m.ref < t then
      let slow := if m.rising then m.slowRise else decide (m.ref < 100 * s.rfld motSpeedReg 16 14)
      { m with rising := true, slowRise := slow, ref := min t (m.ref + (if slow then fld r 0 8 else fld r 16 8)) }
    else { m with rising := false, ref := max t (m.ref - fld r 8 8) }

/-- The measured speed, negative where the disk turns backward. -/
def State.rpmSigned (s : State) : Int := if s.rbit motRpmReg 16 then -(s.rpm : Int) else s.rpm

/-- The speed loop: its error in rpm gives the q reference, limited to ±IQ_MAX (R250). -/
def State.speedLoop (s : State) : State :=
  let g := s.mot.loopCfg
  let e := quo (rotUnit * s.mot.ref) 100 - rotUnit * s.rpmSigned
  let r := piStep (fld g 8 4) (fld g 12 4) e s.mot.qInt
  let lim := rotUnit * fld g 16 12
  s.modMot fun m => { m with qInt := r.1, qRef := clampI (-lim) lim r.2 }

/-- SPEED_LOOP_UPDATE in Run: the q reference, the ramp, AT_SPEED, and the end of a stop's ramp. -/
def State.speedUpdate (s : State) : State :=
  if s.motSt ≠ 5 then s
  else
    let tgt := s.motTarget
    let s := s.loopsTaken.speedLoop.rampStep
    let ref := s.mot.ref
    if s.mot.stopping ∧ ref ≤ 30000 then (s.motEnter 2 1).modMot fun m => { m with brake := 1 }
    else if ref ≠ 100 * tgt ∨ s.mot.stopping then (s.setAtSpeed false).modMot fun m => { m with inTol := 0 }
    else
      let d := 10 * (if s.rpm ≤ tgt then tgt - s.rpm else s.rpm - tgt)
      let n := if d ≤ s.rfld motRamp 24 8 then min 100 (s.mot.inTol + 1) else 0
      (s.modMot fun m => { m with inTol := n }).setAtSpeed (n == 100)

/-- SPEED_LOOP_UPDATE. -/
def execSpeedLoopUpdate (s : State) : Host.Outcome State Fault Refusal := .next s.speedUpdate

/-! ## Faults (R251, R260, R263) -/

/-- Overcurrent: every gate low, Fault, a record, RETRACT for every actuator (R251). -/
def State.overcurrent (s : State) : State :=
  let s := s.motEnter 7 0
  (((s.raise motInt 4).motCode 0x1A1).almanac 0x01A1 bMOT 0 []).retractAll

/-- A chopper fault (R260). -/
def State.chopperFault (s : State) (vm : Nat) : State :=
  let st := s.motSt
  let s := (s.setRbit motStatus 4 false).setRbit motStatus 5 true
  let s := ((s.raise motInt 3).motCode 0x1A2).almanac 0x01A2 bMOT 0 [(4, vm), (4, s.mot.vOn), (4, s.rpm), (4, st)]
  ((s.motEnter 2 1).modMot fun m => { m with brake := 2 }).retractAll

/-- A chopper-fault brake runs. -/
def State.chopBrake (s : State) : Bool := s.motSt == 2 && s.mot.brake == 2

/-- Power loss: ACT parks every actuator, MOT enters Coast unless a chopper-fault brake runs, the Almanac's window opens (R263, R535).
A loss that a sample of VM finds again has its record already (log 102). -/
def State.powerLoss (s : State) (again : Bool) : State :=
  let s := s.powerLossRetract
  let s := s.onlyIf (!s.chopBrake) fun s => s.motEnter 6 0
  let s := ((s.setRbit motStatus 6 true).raise motInt 5).motCode 0x1A3
  { s with alm := { s.alm with ploss := true } }.onlyIf (!again) fun s => s.almanac 0x01A3 bMOT 0 []

/-- PFAIL_INPUT. -/
def execPfailInput (s : State) : Host.Outcome State Fault Refusal := .next (s.powerLoss false)

/-! ## A PWM period (R246 to R249, R259, R261) -/

/-- Four consecutive samples satisfy a test (run4). -/
def run4 (p : Nat → Bool) (l : List Nat) : Bool := decide (4 ≤ l.length) && (l.take 4).all p

/-- The mean of the samples kept, at most 40. -/
def meanVm (l : List Nat) : Nat := if l = [] then 0 else l.sum / l.length

/-- on_vm_sample of R259. -/
def State.vmSample (s : State) (v : Nat) : State :=
  let b := s.reg motBrake
  let s := (s.setRfld motVm 0 12 v).modMot fun m => { m with vm := (v :: m.vm).take 40, brakeCfg := b }
  let l := s.mot.vm
  let s := if s.rbit motStatus 5 then s
    else
      let on := s.rbit motStatus 4
      let s := if !on && run4 (fun x => decide (s.rfld motVmChop 0 12 < x)) l then
          let s := (s.setRbit motStatus 4 true).modMot fun m => { m with tOn := m.clk, vOn := meanVm l }
          (s.raise motInt 2).count (motCtr 1)
        else s
      let s := if s.rbit motStatus 4 && run4 (fun x => decide (x < s.rfld motVmChop 16 12)) l then s.setRbit motStatus 4 false else s
      if run4 (fun x => decide (s.rfld motVmLim 0 12 ≤ x)) l ||
          (s.rbit motStatus 4 && decide (s.mot.tOn + 200000 * fld b 24 8 ≤ s.mot.clk) && decide (s.mot.vOn < meanVm l))
      then s.chopperFault v else s
  let low := fun x => decide (x < s.rfld motVmLim 16 12)
  s.onlyIf (run4 low l) fun s => s.powerLoss (s.rbit motStatus 6 && run4 low (l.drop 1))

/-- The retract hold of a chopper-fault brake (R261). -/
def State.retractHold (s : State) (v : Nat) : State :=
  if s.chopBrake then
    let hold := (upto 4).any fun a => s.rbit (regAddr bACT 0x0) a && s.actSt a == 5
    let s := s.setRbit motStatus 7 hold
    let isOpen := if !hold then false else if v < s.rfld motVmFloor 0 12 then true
      else if s.rfld motVmFloor 16 12 < v then false else s.mot.floorOpen
    (s.modMot fun m => { m with floorOpen := isOpen }).brakeGates
  else s.setRbit motStatus 7 false

/-- A phase takes its place by its compare, behind a phase before it with the same one. -/
def insertPhase (cmp : List Nat) (x : Nat) : List Nat → List Nat
  | [] => [x]
  | y :: ys => if lget 0 cmp x ≤ lget 0 cmp y then x :: y :: ys else y :: insertPhase cmp x ys

/-- Phases U (0), V (1) and W (2) by their rising-half compares a ≤ b ≤ c (R247). -/
def sortPhases (cmp : List Nat) : List Nat := (upto 3).foldr (insertPhase cmp) []

/-- The compare of an active vector that R248 moves by T_MIN, x′ and x″: the lower one down, or the upper one up. Nothing where a
compare would fall outside 0 to HALF. -/
def stretched (half tmin lo hi : Nat) (down : Bool) : Option (Nat × Nat) :=
  if down then if tmin ≤ hi ∧ 2 * lo + tmin - hi ≤ half then some (hi - tmin, 2 * lo + tmin - hi) else none
  else if lo + tmin ≤ half ∧ lo + tmin ≤ 2 * hi then some (lo + tmin, 2 * hi - (lo + tmin)) else none

/-- An active vector of the rising half: the compares x′ and x″ of the phase that bounds it, whether it is stretched, and whether its
sample is skipped (R248). -/
def stretch (half tmin lo hi : Nat) (down : Bool) : (Nat × Nat) × Bool × Bool :=
  let x := if down then lo else hi
  if tmin ≤ hi - lo then ((x, x), false, false)
  else match stretched half tmin lo hi down with
    | some c => (c, true, false)
    | none => ((x, x), false, true)

/-- DEADTIME, never shorter than 10 cycles (R241). -/
def State.deadtime (s : State) : Nat := max 10 (s.rfld motPwm 16 8)

/-- The compares of a driven period: the phases in order, and the vectors as R248 leaves them (R246, R247). -/
def State.pwmVectors (s : State) : List Nat × ((Nat × Nat) × Bool × Bool) × Nat × ((Nat × Nat) × Bool × Bool) :=
  let half := s.rfld motPwm 0 13 / 2
  let tmin := s.deadtime + s.rfld motShunt 0 10 + 40
  let ps := sortPhases s.mot.cmp
  let at_ (i : Nat) : Nat := lget 0 s.mot.cmp (lget 0 ps i)
  (ps, stretch half tmin (at_ 0) (at_ 1) true, at_ 1, stretch half tmin (at_ 1) (at_ 2) false)

/-- The compares of the period come into force at counter 0 (R246). -/
def State.pwmCompares (s : State) : State :=
  let v := s.pwmVectors
  let (a, b, c) := (v.2.1.1, v.2.2.1, v.2.2.2.1)
  let put (l : List Nat) (x y z : Nat) : List Nat := (upto 3).map fun p => if lget 0 l 0 = p then x else if lget 0 l 1 = p then y else z
  s.modMot fun m => { m with rise := put v.1 a.1 b c.1, fall := put v.1 a.2 b c.2, fallOld := m.fall }

/-- Cycles of a PWM period for which a phase's high side is on: 2 × HALF − x′ − x″, its duty in cycles (R246). -/
def State.onTime (s : State) (phase : Nat) : Nat :=
  2 * (s.rfld motPwm 0 13 / 2) - lget 0 s.mot.rise phase - lget 0 s.mot.fall phase

/-- The gates of a phase, high side and low side, at a counter value of the rising or the falling half (R239, R241, R243, R246). The high
side is asked for from x′ to 2 × HALF − x″ cycles into the period. DEDUCED (log 71): a gate goes low at once and the opposite one goes
high DEADTIME later, as the sampling points of R247 have it, also across HALF and counter 0. -/
def State.phaseGates (s : State) (phase count : Nat) (falling : Bool) : Bool × Bool :=
  if s.mot.gates = 1 then (false, true)
  else if s.mot.gates = 2 then
    let per := 2 * (s.rfld motPwm 0 13 / 2)
    let d := s.deadtime
    let t := if falling then per - count else count
    let up := lget 0 s.mot.rise phase
    let down := per - lget 0 s.mot.fall phase
    let old := lget (per / 2) s.mot.fallOld phase
    if down ≤ up then (false, decide (d ≤ t + old) || decide (per / 2 ≤ old))
    else (decide (up + d < t) && decide (t < down),
      (decide (t ≤ up) && (decide (d ≤ t + old) || decide (per / 2 ≤ old))) || decide (down + d ≤ t))
  else (false, false)

/-- The phase currents of a driven period, in 2⁻³² of a code: sample 1 is the first phase high, sample 2 minus the phase still low, and
the third minus their sum; the observer's prediction stands in for a skipped sample (R247, R248). -/
def State.phaseCurrents (s : State) (s1 s2 : Nat) : List Int :=
  let v := s.pwmVectors
  let mid : Int := s.rfld motShunt 16 12
  let pred := unclarke s.mot.obs.ih
  let (p, q) := (lget 0 v.1 0, lget 0 v.1 2)
  let iA : Int := if v.2.1.2.2 then lget 0 pred p else (s1 - mid) * rotUnit
  let iC : Int := if v.2.2.2.2.2 then lget 0 pred q else (mid - s2) * rotUnit
  (upto 3).map fun x => if x = p then iA else if x = q then iC else -(iA + iC)

/-- The shunt samples of a driven period: stretches, skipped samples, overcurrent (R247, R248, R251). -/
def State.shuntSamples (s : State) (s1 s2 : Nat) : State :=
  let v1 := s.pwmVectors.2.1.2
  let v2 := s.pwmVectors.2.2.2.2
  let cur := s.phaseCurrents s1 s2
  let s := s.pwmCompares.modMot fun m => { m with cur := cur }
  let s := s.countBy (motCtr 2) ((if v1.1 then 1 else 0) + (if v2.1 then 1 else 0))
  let s := s.countBy (motCtr 3) ((if v1.2 then 1 else 0) + (if v2.2 then 1 else 0))
  let mid := s.rfld motShunt 16 12
  let trip := fun (x : Nat) => decide (s.rfld motItrip 0 12 < (if x ≤ mid then mid - x else x - mid))
  let t0 := s.mot.tripped
  let t1 := if v1.2 then t0 else trip s1
  let t2 := if v2.2 then t1 else trip s2
  let bothOn := (!v1.2 && t0 && t1) || (!v2.2 && t1 && t2)
  (s.modMot fun m => { m with tripped := t2 }).onlyIf bothOn State.overcurrent

/-- The forced speed of open loop, rpm (R257). -/
def State.forcedRpm (s : State) : Nat := 10 * fld s.mot.startCfg 20 8 * (s.mot.clk - s.mot.openAt) / 200000000

/-- The phase voltages of R249, to neutral, in 1/(3 × PERIOD) of a VM code: the duty's share of VM less the dead time's, which has
the sign of the phase's current, less the mean of the three. -/
def State.phaseVolts (s : State) (vm : Nat) : List Int :=
  let v := (upto 3).map fun x => (vm : Int) * s.onTime x - Int.sign (lget 0 s.mot.cur x) * vm * s.deadtime
  v.map fun y => 3 * y - v.sum

/-- The electrical angle that a start forces, in 2⁻³² of a turn: 0 in Align, advanced at START_ACC in open loop (R257). -/
def State.forcedAngle (s : State) : Int :=
  let t : Nat := if s.motSt = 4 then s.mot.clk - s.mot.openAt else 0
  quo (rotUnit * (fld s.mot.motorCfg 28 4 * 10 * fld s.mot.startCfg 20 8 * t * t)) (120 * 200000000 * 200000000)

/-- The angle of the current loop's frame, and its d and q references: the observer's with d 0 in Run, the forced angle with ALIGN_I along
it in a start (R250, R257). -/
def State.driveFrame (s : State) : Int × Int × Int :=
  if s.motSt = 5 then (s.mot.obs.th, 0, s.mot.qRef) else (s.forcedAngle, rotUnit * fld s.mot.startCfg 0 12, 0)

/-- The observer of a driven period and the speed that it shows (R249). -/
def State.motObserver (s : State) (vm : Nat) : State :=
  let per := s.rfld motPwm 0 13
  let mo := s.mot.motorCfg
  let volts := (s.phaseVolts vm).map fun y => quo (y * rotUnit) (3 * per)
  let obs := s.mot.obs.step per (fld mo 0 8) (fld mo 8 8) (clarke volts) (clarke s.mot.cur)
  (s.modMot fun m => { m with obs := obs }).setRpm (min 65535 (obs.rpm (fld mo 28 4))) (decide (obs.w < 0))

/-- The current loop of a driven period: the compares of the next one (R246, R250). -/
def State.currentLoop (s : State) (vm : Nat) : State :=
  let g := s.mot.loopCfg
  let (th, dRef, qRef) := s.driveFrame
  let i := park th (clarke s.mot.cur)
  let d := piStep (fld g 0 4) (fld g 4 4) (dRef - i.1) s.mot.curInt.1
  let q := piStep (fld g 0 4) (fld g 4 4) (qRef - i.2) s.mot.curInt.2
  let v := unclarke (unpark th (d.2, q.2))
  let half := s.rfld motPwm 0 13 / 2
  s.modMot fun m => { m with curInt := (d.1, q.1), cmp := v.map fun x => compareOf half vm (x + Config.zeroSeq v) }

/-- The observer's angle lies within 30° electrical of the forced angle, with a magnitude of at least 2 × STILL_CODES (R257). -/
def State.rotorAgrees (s : State) : Bool :=
  let o := s.mot.obs
  decide (12 * (turnDiff o.th s.forcedAngle).natAbs ≤ 2 ^ 32) && decide (2 * s.stillCodes ≤ magOf o.eh)

/-- Handover from open loop to Run (R257). -/
def State.handover (s : State) : State :=
  if s.motSt ≠ 4 then s
  else
    let f := s.forcedRpm
    let n := if s.rotorAgrees then s.mot.agree + s.rfld motPwm 0 13 else 0
    let s := s.modMot fun m => { m with agree := n }
    if 300 ≤ f ∧ 4000000 ≤ n then
      ((s.motEnter 5 2).modMot fun m => { m with ref := 100 * f, fails := 0 }).rampFrom
    else s

/-- The phase terminals are sampled at counter 0; the samples of an observation and of a peek's window are kept, 50 ms of them
(R254, R256). -/
def State.sampleVs (s : State) (vs : Nat × Nat × Nat) : State :=
  s.onlyIf (s.motSt == 1 || s.mot.peek) fun s =>
    let n := 10000000 / max 1 (s.rfld motPwm 0 13)
    s.modMot fun m => { m with vs := (vs :: m.vs).take n }

/-- PWM_PERIOD. -/
def State.pwmPeriod (s : State) (s1 s2 vm : Nat) (vs : Nat × Nat × Nat) : State :=
  let per := s.rfld motPwm 0 13
  let s := ((s.modMot fun m => { m with clk := m.clk + per }).loopsTaken.peekWindow).sampleVs vs
  let st := s.motSt
  let s := if 3 ≤ st ∧ st ≤ 5 then
      let s := s.shuntSamples s1 s2
      if s.motSt = 7 then s else ((s.motObserver vm).currentLoop vm).handover
    else s
  (s.vmSample vm).retractHold vm

/-- PWM_PERIOD. -/
def execPwmPeriod (shunt1 shunt2 vm vsu vsv vsw : BitVec 12) (s : State) : Host.Outcome State Fault Refusal :=
  .next (s.pwmPeriod shunt1.toNat shunt2.toNat vm.toNat (vsu.toNat, vsv.toNat, vsw.toNat))

end Sys2Proof.Machine
end

