-- ==== Sys2Proof/Machine/Cal.lean ====
section
/-!
DEFINITION. Equinox runs, the shadow banks, and the thermal trip (R510 to R527, R577, R578).
-/
namespace Sys2Proof.Machine

def calCtrl := regAddr bCAL 0x0
def calBatch := regAddr bCAL 0x80
def calBatchStatus := regAddr bCAL 0x84
/-- CAL_CNT_RUNS, BATCH and REFUSED (Table 18.5). -/
def calCtr (i : Nat) : Ctr := ⟨regAddr bCAL (0x90 + 4 * i), regAddr bCAL 0x9C, i, calInt, 5, 32⟩
def calAdcoff (n h : Nat) := regAddr bCAL (0x3000 + 0x80 * n + 4 * h)
/-- Word `i` of entry `e` of bank `b` (R517). -/
def calShadow (b e i : Nat) := regAddr bCAL (0x4000 + 0x2000 * b + 8 * e + 4 * i)

def State.modCal (s : State) (f : Cal → Cal) : State := { s with cal := f s.cal }
/-- The batch that a bank applies: its next entry and its count. -/
def State.calApply (s : State) (b : Nat) : Option (Nat × Nat) := tget (fun _ => none) s.cal.apply b

/-- CAL_RUN_REQ: a run of the temperature scope is pending (R512, R515). -/
def execCalRunReq (a : Fin 4) (s : State) : Host.Outcome State Fault Refusal := .next (s.calTrigger a false)

/-- CAL_HOLD. -/
def execCalHold (on : Bool) (s : State) : Host.Outcome State Fault Refusal := .next (s.setRbit calCtrl 1 on)

/-- The conditions of R514 for a run. -/
def State.runMay (s : State) (a : Nat) : Bool :=
  let last := tget (fun _ => 0) s.cal.lastRun a
  s.rbit calStatus (4 + a) && !s.rbit calStatus a && s.actSt a == 2 && !s.pwrAway && s.rbit calCtrl 0 && !s.rbit calCtrl 1 &&
    (last == 0 || decide (last - 1 + s.rfld calTrig 16 12 ≤ s.epochSec))

/-- CAL_RUN_START: TLAST is latched, RUNNING set and PENDING cleared; firmware holds FW_BUSY (R514). A run without a last
temperature has the full scope (R515, R523). -/
def execCalRunStart (a : Fin 4) (s : State) : Host.Outcome State Fault Refusal :=
  .next (
    if s.runMay a then
      let full := tget (fun _ => false) s.cal.full a || s.rfld (calTlast a) 0 16 == 0x8000
      let s := s.modCal fun c => { c with lastRun := tset (fun _ => 0) c.lastRun a (s.epochSec + 1), runFull := tset (fun _ => false) c.runFull a full
                                          full := tset (fun _ => false) c.full a false }
      let s := s.setReg (calTlast a) (BitVec.ofNat 32 (s.rfld (calTemp a) 0 16))
      ((s.setRbit calStatus a true).setRbit calStatus (4 + a) false).setRbit pwrCtrl 4 true
    else s)

/-- A register of the calibration set of actuator `a` that is no window: CHN and WPA of its slice, MOT_SHUNT, and CAL's own (Table
18.1). -/
def calSetReg (a i : Nat) : Bool :=
  let b := addrBlk i
  let o := addrOff i
  if i < 0x10000000 then false
  else if b = 0x18 + a then
    (decide (0x4000 ≤ o) && decide (o < 0x5800)) || (decide (0x1000 ≤ o) && decide (o < 0x1600) && [8, 12, 16, 0x20].contains (o % 64)) ||
    (decide (0x100 ≤ o) && decide (o < 0x180) && o % 16 == 4)
  else if b = 0x1C + a then
    (decide (0x1000 ≤ o) && decide (o < 0x1600) && [0, 4, 8, 12, 0x20, 0x24, 0x28, 0x2C].contains (o % 64)) ||
    (decide (0x2000 ≤ o) && decide (o < 0x2600))
  else if b = 0x21 then o == 0x14
  else if b = 0x06 then
    o == 0x10 || (decide (0x40 ≤ o) && decide (o < 0x64)) || (decide (0x2000 ≤ o) && decide (o < 0x3200) && (regRow i).isSome)
  else false

/-- CAL_RUN_END: an Almanac record and a run record (R516). -/
def execCalRunEnd (a : Fin 4) (s : State) : Host.Outcome State Fault Refusal :=
  .next (
    if s.rbit calStatus a then
      let full := tget (fun _ => false) s.cal.runFull a
      let t := s.rfld (calTlast a) 0 16
      let s := (s.setRbit calStatus a false).count (calCtr 0)
      let s := s.onlyIf (s.rfld calStatus 0 4 == 0) fun s => s.setRbit pwrCtrl 4 false
      let r : CalRun := { act := a, full := full, start := t, last := s.rfld (calTemp a) 0 16, values := s.regs.filter fun e => calSetReg a e.1 }
      (s.almanac 0x8009 bCAL a [(2, t), (1, if full then 1 else 0)]).modCal fun c => { c with history := c.history ++ [r] }
    else s)

/-- A write to a shadow bank: dropped while the bank applies (R517). -/
def State.calShadowWrite (s : State) (b e i : Nat) (v : W) : State :=
  if (s.calApply b).isSome then s.raise calInt 3 else s.setReg (calShadow b e i) v

/-- CAL_SHADOW_WRITE. -/
def execCalShadowWrite (bank : Fin 2) (entry : Fin 1024) (value : Bool) (v : BitVec 32) (s : State) : Host.Outcome State Fault Refusal :=
  .next (s.calShadowWrite bank entry (if value then 1 else 0) v)

/-- A write of CAL_BATCH: with COMMIT the bank begins to apply, or ends with CAL_BANK_BUSY (R518). DESIGN CHOICE: a COUNT outside
1 to 1,024 commits nothing and sets REFUSED. -/
def State.calBatchWrite (s : State) (b count : Nat) (commit : Bool) : State :=
  if !commit then s.setReg calBatch (BitVec.ofNat 32 (b + 4 * count))
  else if (s.calApply b).isSome then s.setRfld calBatchStatus 16 16 0x41
  else
    let s := s.setReg calBatch (BitVec.ofNat 32 (b + 4 * count))
    if count = 0 ∨ 1024 < count then s.raise calInt 3
    else (s.modCal fun c => { c with apply := tset (fun _ => none) c.apply b (some (0, count)) }).setRbit calStatus (8 + b) true

/-- CAL_BATCH_COMMIT. -/
def execCalBatchCommit (bank : Fin 2) (count : Fin 2048) (s : State) : Host.Outcome State Fault Refusal :=
  .next (s.calBatchWrite bank count true)

/-- A write of CAL_ADCOFFn_h: the offsets wait for the head's idle instant (R511). -/
def State.adcoffWrite (s : State) (n h : Nat) (v : W) : State := s.setReg (calAdcoff n h) (v &&& 0xFFFFFF ||| 0x1000000)

/-- CAL_ADCOFF_SEND: a REG_WRITE to the Cysel at the first instant at which the head has no gate open or sent; a head that is not in
service has no lane to send it on, and its offsets wait (R511). -/
def execCalAdcoffSend (n : Fin 4) (h : Fin 24) (s : State) : Host.Outcome State Fault Refusal :=
  .next (
    if s.rbit (calAdcoff n h) 24 && s.headMapped n h && !((s.ordP n).gates.any fun g => g.head == h.val && g.sent) then
      (s.setRbit (calAdcoff n h) 24 false).sendCmd n h (regWriteCmd (Config.adcOffAddr h) (s.rfld (calAdcoff n h) 0 24))
    else s)

/-- A write of CAL_UPREn_r_l: presets of the port's current rate wait for a switch to that rate (R511). -/
def State.upreWrite (s : State) (n r l : Nat) (v : W) : State :=
  let now := s.ulkSt n == 3 && r == s.rfld (ulkStatus n) 4 2
  let s := s.calWait (calUpre n r l) now v
  if now then
    let s := s.setRbit calStatus (10 + n) true
    if (s.ulkP n).rateReq then s else s.askSwitch n true
  else s

/-- A lane belongs to a Jubilee link whose session is Running or Held: its presets wait for a retrain (R511). -/
def State.jpreBusy (s : State) (l : Nat) : Bool := (upto 2).any fun k =>
  s.jubHas k && decide (s.jubBase k ≤ l) && decide (l < s.jubBase k + s.jubWidth) && (s.jubSt k == 3 || s.jubSt k == 5)

/-- A write of CAL_JPREr_l. -/
def State.jpreWrite (s : State) (r l : Nat) (v : W) : State := s.calWait (calJpre r l) (s.jpreBusy l) v

/-- The boundary of R511 has come for RAW_OFFSET and LEAD where no gate of the head, no armed slot with the profile, is left, and for
Jubilee presets where no session holds them. Uslen presets wait for their switch. -/
def State.calSettle (s : State) : State :=
  if s.cal.waiting.isEmpty then s
  else
    let keep (a : Nat) : Bool := (addrBlk a == bCAL && (addrOff a < 0x2800 || s.jpreBusy (addrOff a % 0x40 / 4))) || (upto 4).any fun n =>
      ((s.ordP n).gates.any fun g => wpaHeadCfg n g.head == a) ||
      (upto 24).any fun h => (s.slot n h).armed && chnProfTime n (s.slot n h).prof == a
    s.modCal fun c => { c with waiting := c.waiting.filter fun e => keep e.1 }

/-- DIE_TEMP_UPDATE (R513, R577, R578). -/
def execDieTempUpdate (t : BitVec 16) (s : State) : Host.Outcome State Fault Refusal :=
  .next (
    let s := s.setReg (regAddr bCAL 0x70) (t.setWidth 32)
    let s := s.modCal fun c => { c with hot := if 1888 ≤ t.toInt then c.hot + 1 else 0 }
    s.sensorCheck 0 t.toInt)

/-- THERMAL_TRIP: due after ten readings of 118.0 °C or more in a row (R578). -/
def execThermalTrip (s : State) : Host.Outcome State Fault Refusal :=
  .next (
    if s.cal.tripped ∨ s.cal.hot < 10 then s
    else
      let s := (s.modCal fun c => { c with tripped := true }).retractAll
      let s := s.onlyIf (!s.chopBrake) State.motOff
      (s.almanac 0x50 bCAL 0 []).flush)

end Sys2Proof.Machine
end

