-- ==== Sys2Proof/Machine/Dbg.lean ====
section
/-!
DEFINITION. The TAP and the debug register (R563, R572, R581, R582).
-/
namespace Sys2Proof.Machine

def dbgCtrl := regAddr bDBG 0x0

def State.modDbg (s : State) (f : Dbg → Dbg) : State := { s with dbg := f s.dbg }

/-- A TAP instruction is in force: its code, and what the outputs do: 0 the function, 1 boundary scan, 2 held, 3 float. -/
def State.tapLoad (s : State) (ir outputs : Nat) : State := s.modDbg fun d => { d with ir := ir, outputs := outputs, tapActive := true }

/-- EXTEST. -/
def execExtest (s : State) : Host.Outcome State Fault Refusal := .next (s.tapLoad 0x00 1)

/-- SAMPLE_PRELOAD: the outputs keep their function; the cells are loaded. -/
def execSamplePreload (cells : List Bool) (s : State) : Host.Outcome State Fault Refusal :=
  .next ((s.tapLoad 0x01 0).modDbg fun d => { d with boundary := cells })

/-- IDCODE. -/
def execIdcode (s : State) : Host.Outcome State Fault Refusal := .next (s.tapLoad 0x02 0)

/-- EXTEST_PULSE. -/
def execExtestPulse (s : State) : Host.Outcome State Fault Refusal := .next (s.tapLoad 0x08 1)

/-- EXTEST_TRAIN. -/
def execExtestTrain (s : State) : Host.Outcome State Fault Refusal := .next (s.tapLoad 0x09 1)

/-- HIGHZ: the outputs float. -/
def execHighz (s : State) : Host.Outcome State Fault Refusal := .next (s.tapLoad 0x0C 3)

/-- CLAMP: the outputs are held. -/
def execClamp (s : State) : Host.Outcome State Fault Refusal := .next (s.tapLoad 0x0D 2)

/-- SCAN: BYPASS unless TEST_EN reads 1. -/
def execScan (s : State) : Host.Outcome State Fault Refusal := .next (s.tapLoad (if s.dbg.testEn then 0x30 else 0xFF) 0)

/-- BYPASS: the one-bit register captures 0. -/
def execBypass (s : State) : Host.Outcome State Fault Refusal :=
  .next ((s.tapLoad 0xFF 0).modDbg fun d => { d with bypass := false })

/-- HALT as DBG_ACCESS writes it: DBG_ACCESS is BYPASS while LOCK is 1 (R572, R582). -/
def State.haltWrite (s : State) (on : Bool) : State := if s.rbit dbgCtrl 1 then s else s.setRbit dbgCtrl 0 on

/-- DBG_HALT. -/
def execDbgHalt (on : Bool) (s : State) : Host.Outcome State Fault Refusal := .next (s.haltWrite on)

/-- LOCK is set: HALT clears (R582). -/
def State.lockSet (s : State) : State := (s.setRbit dbgCtrl 1 true).setRbit dbgCtrl 0 false

/-- DBG_LOCK. -/
def execDbgLock (s : State) : Host.Outcome State Fault Refusal := .next s.lockSet

end Sys2Proof.Machine
end

