-- ==== Sys2Proof/Machine/Hif.lean ====
section
/-!
DEFINITION. The host ports (chapter 13), and how an abort, a reset or the loss of a port ends commands (R404 to R409).
-/
namespace Sys2Proof.Machine

/-! ## Ending a Running command (R405) -/

/-- The zone that a command writes, if it writes a zoned namespace, and the offset of its first LBA there. -/
def State.writesZone (s : State) (x : Ctx) : Option (Nat × Nat) :=
  if !opWrites x.cmd.op then none
  else match s.space x.cmd.nsid with
    | some n => if n.kind = 1 then (s.keyOf n x.first).map fun k => (k / 65536, k % 65536) else none
    | none => none

/-- Staged LBAs of a command that no ring stripe carries yet are not written: each falls back to the copy it had, unless an
older staged copy of it waits too (R405). -/
def State.unstage (s : State) (x : Ctx) : State :=
  s.each (upto 4) fun s a =>
    let r := s.ring a
    let newest (k : Nat × Nat) : Bool := s.verOf k.1 == k.2 && (r.stage.filter fun j => j.1 == k.1).length == 1
    let gone := r.stage.filter fun k => x.need.contains k.1 && newest k
    let keys := gone.map Prod.fst
    let s := s.setRing a { r with stage := r.stage.filter fun k => !gone.contains k }
    (s.modFw fun f => { f with dirty := f.dirty.filter fun e => !keys.contains e.1 }).dropBufs fun k => keys.contains k

/-- A Running context whose end has been decided is ended as R405 says: a zoned write stops its zone's stream, a conventional
write's unplaced stripes are not written, a read goes no further; the context commits when nothing carries it any more. -/
def State.endRunning (s : State) (c : Nat) : State :=
  match s.ctxAt c with
  | none => s
  | some x =>
    if x.st != .running || x.ended then s
    else
      let s := s.detachFinish c
      let z := s.writesZone x
      if !x.begun then
        let s := s.fwComplete c (codeCplFor x.cmd.op (if x.abort then 0x200 else x.endWith))
        match z with
        | some z => s.streamStop z.1 z.2
        | none => s
      else match z with
        | some z => (s.streamStop z.1 z.2).settle
        | none => (s.onlyIf (opWrites x.cmd.op) fun s => s.unstage x).settle

/-- A context that QMG still holds before it runs is committed with a code, and a zoned write among them stops its zone's
stream, whose LBAs it had entered (R320, R395). -/
def State.endWaiting (s : State) (c code : Nat) : State :=
  match s.ctxAt c with
  | none => s
  | some x =>
    let s := s.endCtx c (codeCplFor x.cmd.op code)
    match s.writesZone x with
    | some z => s.streamStop z.1 z.2
    | none => s

/-- COMMAND_ADMISSION: the reservations of the next waiting command are granted, and it runs; a waiting admission holds back the later
ones. A refused one ends the command, and a zoned write's LBAs leave their stream (R357, R394). -/
def execCommandAdmission (s : State) : Host.Outcome State Fault Refusal :=
  .next (match s.nextWaiting with
    | none => s
    | some (c, x) =>
      let o := s.admitOutcome x
      if o = 1 then s else if o ≠ 0 then s.endWaiting c o else s.admitCmd c x)

/-- A context has not been admitted. -/
def Ctx.early (x : Ctx) : Bool := x.st == .arrived || x.st == .held || x.st == .waiting

/-! ## The loss of a port (R381, R409) -/

/-- The packets of completions of a port that have not been sent are taken out of its queue. -/
def State.dropCpls (s : State) (p : Nat) : State :=
  let mine (k : Pkt) : Bool := match k.body with
    | .cpl _ _ => true
    | _ => false
  let q := s.cq p
  s.setCq p { q with
    pkts := q.pkts.filter fun k => !mine k, chain := q.chain.filter fun k => !mine k, waitPkts := q.waitPkts.filter fun k => !mine k }

/-- The association of a port ends: QMG takes no more of its capsules, and its contexts are ended; their completions are
discarded unsent (R409). -/
def State.assocEnd (s : State) (p : Nat) : State :=
  let h := s.hifP p
  let conns := (h.conns.filter fun c => !c.rdma).map fun c => { c with ended := true }
  let s := s.setHif p { h with ctrl := none, conns := conns, draining := true, resetting := false }
  let s := (s.setRbit (hifStatus p) 6 false).dropCpls p
  let s := s.each (s.portCtxs p) fun s e =>
    if e.2.st == .committed then (s.count (qmgCtr 6)).freeCtx e.1
    else
      let s := s.setCtx e.1 (some { e.2 with discard := true, endWith := 0x202 })
      if e.2.early then s.endWaiting e.1 0x202 else s.endRunning e.1
  let s := if (s.portCtxs p).isEmpty && (s.hifP p).draining then
      (s.setHif p { s.hifP p with draining := false }).raise qmgInt 2
    else s
  s.pwrRecompute

/-- KEEP_ALIVE_EXPIRY: the timer has run for its timeout since it last started; the timers stop in PL4 (R381, R450). -/
def execKeepAliveExpiry (p : Fin 4) (s : State) : Host.Outcome State Fault Refusal :=
  .next (match (s.hifP p).ctrl with
    | some k => if s.vgl.wall < k.kaAt + 1000000 * k.kato ∨ 4 ≤ s.level ∨ s.pwr.kaStop then s else s.assocEnd p
    | none => s)

/-! ## Links (R372, R373) -/

/-- The link is not up: LINK_UP, AN_DONE and MODE_ACTIVE read 0, and LINK_DOWN is raised if it was up. -/
def State.hifDrop (s : State) (p link : Nat) : State :=
  let h := s.hifP p
  let up := h.link == 2
  let s := (s.setHif p { h with link := link }).setRfld (hifStatus p) 0 6 0
  s.onlyIf up fun s => s.raise (hifInt p) 1

/-- The bank words that firmware reserves for a port's network settings. DESIGN CHOICE: 128 + 8p on. -/
def netWord (p i : Nat) : Nat := bankAddr (128 + 8 * p + i)

/-- A port's settings: those of NET_SET, or else those of the personality table (R549). -/
def State.netBytes (s : State) (p : Nat) : List Byte :=
  let l := ((upto 8).map fun i => leBytes 4 (s.reg (netWord p i)).toNat).flatten
  if l.getLast? = some 1 then l.take 30 else tget (fun _ => []) s.fw.net p

/-- HIF_CTRL.PORT_EN is written. -/
def State.hifPortEn (s : State) (p : Nat) (on : Bool) : State :=
  if s.rbit (hifCtrl p) 0 = on then s
  else if on then
    let s := (s.setRbit (hifCtrl p) 0 true).hifDrop p 1
    s.setHif p { s.hifP p with net := s.netBytes p }
  else
    let s := ((s.setRbit (hifCtrl p) 0 false).hifDrop p 0).assocEnd p
    s.setHif p { s.hifP p with discovery := 0 }

/-- HIF_PORT_EN. -/
def execHifPortEn (p : Fin 4) (on : Bool) (s : State) : Host.Outcome State Fault Refusal := .next (s.hifPortEn p on)

/-- RESTART_AN. -/
def State.hifRestart (s : State) (p : Nat) : State := if s.rbit (hifCtrl p) 0 then s.hifDrop p 1 else s

/-- HIF_RESTART_AN. -/
def execHifRestartAn (p : Fin 4) (s : State) : Host.Outcome State Fault Refusal := .next (s.hifRestart p)

/-- HIF_MODE or HIF_LANE is written (R373). -/
def State.hifModeWrite (s : State) (p : Nat) (lane : Bool) (v : W) : State :=
  if s.rbit (hifCtrl p) 0 then s.raise (hifInt p) 3
  else if lane then s.setReg (regAddr (bHIF p) 0x14) (v &&& 0xFF) else s.setReg (hifMode p) (v &&& 0x1F)

/-- HIF_MODE_WRITE. -/
def execHifModeWrite (p : Fin 4) (lane : Bool) (v : BitVec 32) (s : State) : Host.Outcome State Fault Refusal :=
  .next (s.hifModeWrite p lane v)

/-- HIF_QLIMIT is written (R380). -/
def State.hifQlimitWrite (s : State) (p : Nat) (v : W) : State :=
  let others := (((upto 4).filter fun q => q != p).map fun q => s.rfld (hifQlimit q) 0 11).sum
  if 1024 < others + fld v 0 11 then s.raise (hifInt p) 3 else s.setReg (hifQlimit p) (v &&& 0x7FF)

/-- HIF_QLIMIT_WRITE. -/
def execHifQlimitWrite (p : Fin 4) (v : BitVec 32) (s : State) : Host.Outcome State Fault Refusal := .next (s.hifQlimitWrite p v)

/-- HIF_LATTOL is written: PWR decides again (R391, R444). -/
def State.hifLattolWrite (s : State) (p : Nat) (v : W) : State := (s.setBank (hifLattol p) (v &&& 0xFFFFF)).pwrRecompute

/-- HIF_LATTOL_WRITE. -/
def execHifLattolWrite (p : Fin 4) (v : BitVec 32) (s : State) : Host.Outcome State Fault Refusal := .next (s.hifLattolWrite p v)

/-- Lanes of a mode (Table 13.1). -/
def modeWidth (m : Nat) : Nat := if m < 6 then 1 else if m < 10 then 2 else 4

/-- A mode that the port may resolve to: with AN_EN every mode of its medium up to its width, else MODE alone (R372). -/
def State.modeAllowed (s : State) (p m : Nat) : Bool :=
  let k := s.rfld (hifMode p) 0 4
  if s.rbit (hifCtrl p) 1 then decide (modeWidth m ≤ modeWidth k) && m % 2 == k % 2 else m == k

/-- AN_ATTEMPT_DONE. -/
def execAnAttemptDone (p : Fin 4) (mode : Option (Fin 16)) (s : State) : Host.Outcome State Fault Refusal :=
  .next (let h := s.hifP p
    if h.link ≠ 1 then s
    else match mode with
      | none => (s.setHif p { h with link := 3 }).raise (hifInt p) 2
      | some m =>
        if !s.modeAllowed p m then s
        else
          let an := if s.rbit (hifCtrl p) 1 then 2 else 0
          ((s.setHif p { h with link := 2 }).setRfld (hifStatus p) 0 6 (1 + an + 4 * m)).raise (hifInt p) 0)

/-- AN_RETRY_TIMER. -/
def execAnRetryTimer (p : Fin 4) (s : State) : Host.Outcome State Fault Refusal :=
  .next (if (s.hifP p).link = 3 then s.setHif p { s.hifP p with link := 1 } else s)

/-- HIF_LINK_DOWN: the port retrains, and its associations survive (R373). -/
def execHifLinkDown (p : Fin 4) (s : State) : Host.Outcome State Fault Refusal :=
  .next (if (s.hifP p).link = 2 then s.hifDrop p 1 else s)

/-! ## Transports (R375 to R378) -/

/-- TCP_CONNECTION_OPEN: refused with TCP disabled, without TLS where TLS_REQ asks for it, or with a failed handshake. -/
def execTcpConnectionOpen (p : Fin 4) (conn : Nat) (tls tlsOk : Bool) (s : State) : Host.Outcome State Fault Refusal :=
  .next (let h := s.hifP p
    let ok := h.link == 2 && s.rbit (hifCtrl p) 3 && (tls || !s.rbit (hifCtrl p) 5) && (!tls || tlsOk)
    if !ok then s
    else s.setHif p { h with conns := (h.conns.filter fun c => c.id != conn || c.rdma) ++ [{ id := conn, tls := tls }] })

/-- HIF_CNT_VIOL (R378). -/
def State.hifViolate (s : State) (p : Nat) : State := s.violate (hifCtr p 6) (hifInt p) 7

/-- A port's capsule queue has room for a capsule (R377). -/
def State.capsuleRoom (s : State) (p : Nat) : Bool :=
  (s.hifP p).wait.isEmpty && s.poolUp && s.qEnabled (32 + p) && s.qRoom (32 + p) 64

/-- CAPSULE_BACK_PRESSURE begins (R377). -/
def State.backPressure (s : State) (p : Nat) : State :=
  let h := s.hifP p
  if h.bp then s else ((s.setHif p { h with bp := true }).count (hifCtr p 4)).raise (hifInt p) 6

/-- A capsule that TCP delivers: where the queue is full it stays in the connection (R377). -/
def State.tcpCapsule (s : State) (p conn : Nat) (c : HostCmd) : State :=
  match (s.hifP p).conns.find? fun k => !k.rdma && k.id == conn with
  | none => s
  | some k =>
    if k.ended then s.hifViolate p
    else if s.capsuleRoom p then s.capsulePut p c
    else
      let s := s.backPressure p
      s.setHif p { s.hifP p with wait := (s.hifP p).wait ++ [c] }

/-- A SEND on a queue pair: where the queue is full it is answered with an RNR NAK, and the host sends it again (R377). -/
def State.roceSend (s : State) (p qp : Nat) (c : HostCmd) : State :=
  if !(s.hifP p).conns.any fun k => k.rdma && k.id == qp then s.hifViolate p
  else if s.capsuleRoom p then s.capsulePut p c
  else (s.backPressure p).emit (.rnrNak p qp)

/-- The level that a wake frame meets: that being entered, or that held (R388). -/
def State.wakeLevel (s : State) : Nat :=
  match s.pwr.entry with
  | some (l, _) => max l 1
  | none => s.level

/-- A wake frame (R388). -/
def State.wakeFrame (s : State) (p : Nat) (sig version flags target : Nat) (code : W) (padZero : Bool) : State :=
  let w := s.reg (hifWakeCtrl p)
  let hit := sig == 0x5743 && version == 1 && flags == 0 && padZero && target == s.macOf p &&
    (!bitAt w 1 || code == s.reg (hifWakeCode p))
  if hit && bitAt w 0 && decide (1 ≤ s.wakeLevel) && decide (s.wakeLevel ≤ 4) then (s.raise (hifInt p) 4).wakeBy 1
  else s.count (hifCtr p 5)

/-- FAB is powered: frames go further than the port (R450). -/
def State.fabOn (s : State) : Bool := !s.pwr.off.testBit 2

/-- A frame that has passed the filters. -/
def State.framePay (s : State) (p : Nat) (f : EthFrame) : State :=
  match f.pay with
  | .wake sig v fl t c z => s.onlyIf (f.dest == s.macOf p || f.dest == 0xFFFFFFFFFFFF) fun s => s.wakeFrame p sig v fl t c z
  | .tcp conn c => if s.fabOn then s.tcpCapsule p conn c else s
  | .badPdu conn =>
    if !s.fabOn then s
    else match (s.hifP p).conns.find? fun k => !k.rdma && k.id == conn with
      | some k => if k.ended then s.hifViolate p else
          let h := s.hifP p
          s.setHif p { h with conns := h.conns.map fun q => if !q.rdma && q.id == conn then { q with ended := true } else q }
      | none => s
  | .roce qp ok c => if !ok then s.count (hifCtr p 2) else if s.fabOn then s.roceSend p qp c else s
  | .roceConnect qp =>
    let h := s.hifP p
    if s.fabOn && s.rbit (hifCtrl p) 4 then
      s.setHif p { h with conns := (h.conns.filter fun c => c.id != qp || !c.rdma) ++ [{ id := qp, rdma := true }] }
    else s
  | .other => s

/-- The port accepts the frame (R374). -/
def State.frameAccepted (s : State) (p : Nat) (f : EthFrame) : Bool :=
  (f.dest == s.macOf p || f.dest == 0xFFFFFFFFFFFF || f.multicast) && decide (f.bytes ≤ 9216) && decide (f.tags ≤ 1)

/-- ETH_FRAME_RX: FEC, FCS, the filters of R374, then the transport. -/
def execEthFrameRx (p : Fin 4) (f : EthFrame) (s : State) : Host.Outcome State Fault Refusal :=
  .next (if (s.hifP p).link ≠ 2 then s
    else
      let s := s.countBy (hifCtr p 0) f.fecCorr
      if 0 < f.fecUncorr then (s.countBy (hifCtr p 1) f.fecUncorr).raise (hifInt p) 5
      else if !f.fcsOk then s.count (hifCtr p 2)
      else if !s.frameAccepted p f then s.count (hifCtr p 3)
      else s.framePay p f)

end Sys2Proof.Machine
end

