-- ==== Sys2Proof/Machine/Nvme.lean ====
section
/-!
DEFINITION. The NVMe over Fabrics profile (R379 to R387, R404 to R409, R498, R548): fabrics and admin commands, Key Value
commands and reservations, as firmware carries them out.
-/
namespace Sys2Proof.Machine

/-! ## The shape of an immediate command -/

/-- What a command came to: the state, its completion entry, and what it returns. -/
abbrev AdminRes := State × Cpl × Option HostReply

/-- Firmware carries out a command that ends at once. -/
def State.adminRow (s : State) (c : Nat) (f : State → Ctx → HostOp → Option AdminRes) : State :=
  match s.fresh c with
  | none => s
  | some x => match f s x x.cmd.op with
    | none => s
    | some (s, e, r) => (match r with
      | some r => s.toHost c x r
      | none => s).ctxEnd c e

/-- A key that no LBA has: what a command that waits for something else needs. -/
def noKey : Nat := 2 ^ 60

/-- ASCII text. -/
def ascii (t : String) : List Byte := t.toList.map fun c => BitVec.ofNat 8 c.toNat

/-! ## Fabrics (R379 to R381) -/

/-- The Keep Alive Timeout is one the controller accepts (R381). -/
def katoOk (k : Nat) : Bool := decide (1000 ≤ k) && decide (k ≤ 3600000)
/-- Its granularity is 100 ms. -/
def katoRound (k : Nat) : Nat := ceilDiv k 100 * 100

def ioQueues (k : Ctrl) : Nat := (k.queues.filter fun q => q.1 != 0).length

/-- Connect. PRESUMED: the Connect statuses are those of NVMe over Fabrics. -/
def State.connectCmd (s : State) (x : Ctx) : HostOp → Option AdminRes
  | .connect qid size kato host discovery _ =>
    let p := x.port
    let h := s.hifP p
    if discovery then some (s.setHif p { h with discovery := h.discovery + 1 }, {}, none)
    else if qid = 0 then
      if h.ctrl.isSome then some (s, nvmeCpl 1 0x81, none)
      else if !katoOk kato || size == 0 || decide (1024 < size) then some (s, nvmeCpl 1 0x82, none)
      else
        let k : Ctrl := { kato := katoRound kato, kaAt := s.vgl.wall, queues := [(0, size)], granted := s.rfld (hifQlimit p) 0 11, host := host }
        some (((s.setHif p { h with ctrl := some k }).setRbit (hifStatus p) 6 true).pwrRecompute, {}, none)
    else match h.ctrl with
      | none => some (s, nvmeCpl 1 0x82, none)
      | some k =>
        if size == 0 || decide (1024 < size) || k.queues.any (fun q => q.1 == qid) ||
            decide (min k.granted (s.rfld (hifQlimit p) 0 11) ≤ ioQueues k) then some (s, nvmeCpl 1 0x82, none)
        else some (s.setHif p { h with ctrl := some { k with queues := k.queues ++ [(qid, size)] } }, {}, none)
  | _ => none

/-- CONNECT. -/
def execConnect (c : Fin 4096) (s : State) : Host.Outcome State Fault Refusal := .next (s.adminRow c fun s x o => s.connectCmd x o)

/-- DISCONNECT: the queue pair it arrives on goes; PRESUMED: on the admin queue it is refused. -/
def execDisconnect (c : Fin 4096) (s : State) : Host.Outcome State Fault Refusal :=
  .next (s.adminRow c fun s x o => match o, (s.hifP x.port).ctrl with
    | .disconnect, some k =>
      if x.cmd.sqid = 0 then some (s, nvmeCpl 1 0x85, none)
      else some (s.setHif x.port { s.hifP x.port with ctrl := some { k with queues := k.queues.filter fun q => q.1 != x.cmd.sqid } }, {}, none)
    | .disconnect, none => some (s, nvmeCpl 1 0x85, none)
    | _, _ => none)

/-- Controller Capabilities: MQES 1,023 (R380), TO 4 (R407). PRESUMED: contiguous queues and I/O command set selection. -/
def capValue : Nat := 1023 + 2 ^ 16 + 4 * 2 ^ 24 + 2 ^ 43

/-- PROPERTY_GET. PRESUMED: the offsets are those of NVMe. -/
def execPropertyGet (c : Fin 4096) (s : State) : Host.Outcome State Fault Refusal :=
  .next (s.adminRow c fun s x o => match o, (s.hifP x.port).ctrl with
    | .propertyGet ofst, some k =>
      let v : Option Nat := if ofst = 0 then some capValue else if ofst = 8 then some 0x20100
        else if ofst = 0x14 then some k.cc.toNat else if ofst = 0x1C then some k.csts.toNat else none
      match v with
      | some v => some (s, {}, some (.property (BitVec.ofNat 64 v)))
      | none => some (s, invalidField, none)
    | .propertyGet _, none => some (s, invalidField, none)
    | _, _ => none)

/-! ## Controller reset and shutdown (R407) -/

/-- The reset's drain has ended: the queues go and CSTS.RDY clears. -/
def State.resetDone (s : State) (p : Nat) : State :=
  let h := s.hifP p
  s.setHif p { h with draining := false, resetting := false, ctrl := h.ctrl.map fun k => { k with queues := [], csts := putBit k.csts 0 false } }

/-- An activation begins: new capsules are Held from now on (R408). -/
def State.activateStart (s : State) (c slot : Nat) : State :=
  (s.modFw fun f => { f with activate := some (c, slot, s.vgl.wall), pendingSlot := none }).holdAdmit true

/-- RETURN_QUEUED on every engine, and CANCEL of a running read-class MOP (R321). -/
def State.resetEngines (s : State) : State :=
  s.each (upto 4) fun s n =>
    let s := (s.returnAdmitting n 0x1B5).returnQueued n 0x1B5
    match (s.ordP n).mop with
    | some m => s.onlyIf (m.opcode != 2 && s.mopInFlight n) fun s => s.fatalEvent n 4 0x1B5
    | none => s

/-- CC.EN has gone from 1 to 0: the port's contexts other than `self` are ended (R407). -/
def State.ctrlReset (s : State) (p : Nat) (self : Option Nat) : State :=
  let h := s.hifP p
  let s := s.setHif p { h with draining := true, resetting := true }
  let s := s.resetEngines
  let s := s.each ((s.portCtxs p).filter fun e => some e.1 != self && e.2.st != .committed) fun s e =>
    if e.2.early then s.endWaiting e.1 0x201
    else (s.setCtx e.1 (some { e.2 with endWith := 0x201 })).endRunning e.1
  let s := s.onlyIf (s.portCtxs p).isEmpty fun s => s.resetDone p
  match s.fw.pendingSlot with
  | some slot => s.activateStart 0 slot
  | none => s

/-- CONTROLLER_RESET. -/
def execControllerReset (p : Fin 4) (s : State) : Host.Outcome State Fault Refusal :=
  .next (match (s.hifP p).ctrl with
    | some k => if bitAt k.cc 0 then (s.setHif p { s.hifP p with ctrl := some { k with cc := putBit k.cc 0 false } }).ctrlReset p none else s
    | none => s)

/-- A normal shutdown goes forward: staged data is written, and once the port's commands have ended and nothing is left in the
write buffer, V is recorded and shutdown reported complete (CSTS.SHST 2, PRESUMED). -/
def State.shutdownStep (s : State) (p : Nat) (k : Ctrl) : State :=
  let s := s.each (upto 4) fun s a => s.ringWrite a
  let open_ := (s.portCtxs p).any fun e => e.2.st != .committed && e.2.cmd.op != .asyncEvent
  if open_ || s.fw.dirty.any (fun e => e.2.isSome) then s
  else
    let s := s.each ((s.fw.zones.filter fun e => e.2.st == .implOpen || e.2.st == .explOpen).map Prod.fst) fun s z => s.recordV z
    s.setHif p { s.hifP p with ctrl := some { k with csts := setFld k.csts 2 2 2, stopping := false } }

/-- A shutdown has been asked for (CC.SHN). -/
def State.shutdownStart (s : State) (p : Nat) (k : Ctrl) : State :=
  s.setHif p { s.hifP p with ctrl := some { k with stopping := true, csts := setFld k.csts 2 2 1 } }

/-- CONTROLLER_SHUTDOWN. -/
def execControllerShutdown (p : Fin 4) (s : State) : Host.Outcome State Fault Refusal :=
  .next (match (s.hifP p).ctrl with
    | some k =>
      if k.stopping then s.shutdownStep p k
      else
        let k := { k with cc := setFld k.cc 14 2 1, stopping := true, csts := setFld k.csts 2 2 1 }
        (s.shutdownStart p k).shutdownStep p k
    | none => s)

/-- PROPERTY_SET: CC alone can be written. EN going to 0 is a controller reset, SHN a shutdown (R407). -/
def execPropertySet (c : Fin 4096) (s : State) : Host.Outcome State Fault Refusal :=
  .next (match s.fresh c with
    | none => s
    | some x => match x.cmd.op, (s.hifP x.port).ctrl with
      | .propertySet ofst v, some k =>
        if ofst ≠ 0x14 then s.ctxEnd c invalidField
        else
          let w := v.setWidth 32
          let was := bitAt k.cc 0
          let k := { k with cc := w, csts := if bitAt w 0 && !was then putBit k.csts 0 true else k.csts }
          let s := (s.setHif x.port { s.hifP x.port with ctrl := some k }).ctxEnd c {}
          let s := s.onlyIf (fld w 14 2 != 0 && !k.stopping) fun s => s.shutdownStart x.port k
          s.onlyIf (was && !bitAt w 0) fun s => s.ctrlReset x.port (some c)
      | .propertySet _ _, none => s.ctxEnd c invalidField
      | _, _ => s)

/-! ## Identify (R382 to R387, R397) -/

/-- Bytes or, where there are none, the default. -/
def orElse (l d : List Byte) : List Byte := if l.isEmpty then d else l

/-- Revision bytes 0 to 7 of a slot's image (Table 13.4). -/
def State.slotRev (s : State) (slot : Nat) : List Byte := ((s.slotHeader slot).drop 16).take 8

/-- Identify Controller: VID, SSVID, OUI, CNTLID, CNTRLTYPE, VER, ACL, MTFA, RTD3E, IOCCSZ, VWC present, NPSS, the exit
latencies of PS0 to PS4 in µs and their maximum power; SN, MN, FR, SUBNQN. -/
def State.identifyCtrl (s : State) (p : Nat) : HostReply :=
  let i := s.fw.ident
  let mn := if s.variant = 1 then "Brodvon Sintity BXC4896-AM" else "Brodvon Sintity BXC4896-AH"
  .identify 1 ([i.vid, i.ssvid, i.oui, p + 1, 1, 0x20100, 15, 20, 2000000, 516, 1, 4, 0, 20, 350000, 5000000, 20000000] ++ i.maxPower)
    [orElse i.sn (s.otpBytes 0 20), orElse i.mn (ascii mn), s.slotRev s.clk.slot,
      orElse i.nqn (ascii "nqn.2014-08.org.nvmexpress:uuid:" ++ Config.uuid)]

/-- Namespaces by rising NSID above one. -/
def insertNat (n : Nat) : List Nat → List Nat
  | [] => [n]
  | h :: t => if n ≤ h then n :: h :: t else h :: insertNat n t
def State.nsids (s : State) (above : Nat) : List Nat := ((s.fw.spaces.map Nspace.nsid).filter fun k => decide (above < k)).foldr insertNat []

/-- A namespace's size in LBAs. -/
def State.spaceLbas (s : State) (n : Nspace) : Nat := 65536 * s.spaceZones n

/-- Identify: what each CNS of Table 13.3 returns of the fields the spec fixes. -/
def State.identifyCmd (s : State) (p nsid cns : Nat) : Cpl × Option HostReply :=
  if cns = 1 then ({}, some (s.identifyCtrl p))
  else if cns = 2 then ({}, some (.identify 2 (s.nsids nsid) []))
  else if cns = 6 then ({}, some (.identify 6 [] []))
  else if cns = 0x1C then ({}, some (.identify 0x1C [0, 1, 2] []))
  else if [0, 3, 5, 8].contains cns then
    match s.space nsid with
    | none => (invalidNamespace, none)
    | some n =>
      let v : List Nat := if cns = 0 then [s.spaceLbas n, n.ana]
        else if cns = 3 then [if n.kind = 0 then 0 else if n.kind = 1 then 2 else 1]
        else if cns = 5 then (if n.kind = 1 then [127, 127, 65536] else [])
        else [n.ana, if (s.spaceGroups n).any (fun g => g.readOnly) then 1 else 0]
      ({}, some (.identify cns v []))
  else (invalidField, none)

/-- IDENTIFY. -/
def execIdentify (c : Fin 4096) (s : State) : Host.Outcome State Fault Refusal :=
  .next (s.adminRow c fun s x o => match o with
    | .identify cns => some (s, s.identifyCmd x.port x.cmd.nsid cns)
    | _ => none)

/-! ## Log pages (R383) -/

/-- The admin and I/O opcodes of the profile. PRESUMED: their numbers are those of NVMe. -/
def profileOpcodes : List (List Nat) :=
  [[0x02, 0x06, 0x08, 0x09, 0x0A, 0x0C, 0x10, 0x11, 0x18, 0x7F, 0x80], [0x00, 0x01, 0x02, 0x05, 0x08, 0x0D, 0x0E, 0x11, 0x15, 0x79, 0x7A, 0x7D]]

/-- The discovery log: the subsystem once for each port and each transport enabled on it (R379). -/
def State.discoveryLog (s : State) : List (List Nat) :=
  ((upto 4).map fun p => if !s.rbit (hifCtrl p) 0 then [] else
    (if s.rbit (hifCtrl p) 3 then [[p, 3]] else []) ++ (if s.rbit (hifCtrl p) 4 then [[p, 1]] else [])).flatten

/-- Entries waiting for a port in the Changed Zone List of a namespace. -/
def State.changedZones (s : State) (p nsid : Nat) : List (Nat × Nat) :=
  s.fw.changed.filter fun e => e.1 == p && (match s.spaceOf e.2 with
    | some n => n.nsid == nsid
    | none => false)

/-- The entries that a log page returns, none for a log that the profile has not. -/
def State.logContent (s : State) (p nsid lid : Nat) : Option (List (List Nat)) :=
  if lid = 1 then some (match (s.hifP p).ctrl with
    | some k => k.errors
    | none => [])
  else if lid = 2 then some [[if s.groups.any (fun g => g.readOnly) then 8 else 0]]
  else if lid = 3 then some [[s.clk.slot + 1, match s.fw.pendingSlot with
    | some k => k + 1
    | none => 0], [leNat (s.slotRev 0)], [leNat (s.slotRev 1)]]
  else if lid = 4 then
    some [(s.fw.changed.filter fun e => e.1 == p && decide (2 ^ 32 ≤ e.2)).map fun e => e.2 - 2 ^ 32]
  else if lid = 5 then some profileOpcodes
  else if lid = 0xC then some (s.fw.spaces.map fun n => [n.ana, if s.fw.ana.contains (n.ana, p) then 2 else 1, n.nsid])
  else if lid = 0x80 then some (match s.fw.rsvLog.find? fun e => e.1 == p with
    | some e => [[e.2.1, e.2.2]]
    | none => [])
  else if lid = 0xBF then some [(s.changedZones p nsid).map fun e => e.2]
  else if lid = 0x70 ∧ 0 < (s.hifP p).discovery then some s.discoveryLog
  else none

/-- A change log is cleared by being read. -/
def State.logRead (s : State) (p nsid lid : Nat) : State :=
  if lid = 4 then s.modFw fun f => { f with changed := f.changed.filter fun e => !(e.1 == p && decide (2 ^ 32 ≤ e.2)) }
  else if lid = 0x80 then
    match s.fw.rsvLog.find? fun e => e.1 == p with
    | some e => s.modFw fun f => { f with rsvLog := f.rsvLog.erase e }
    | none => s
  else if lid = 0xBF then s.modFw fun f => { f with changed := f.changed.filter fun e => !(s.changedZones p nsid).contains e }
  else s

/-- Get Log Page. -/
def State.logPageCmd (s : State) (p nsid lid : Nat) : State × Cpl × Option HostReply :=
  match s.logContent p nsid lid with
  | some l => (s.logRead p nsid lid, {}, some (.logPage lid l))
  | none => (s, nvmeCpl 1 0x09, none)

/-- GET_LOG_PAGE. -/
def execGetLogPage (c : Fin 4096) (s : State) : Host.Outcome State Fault Refusal :=
  .next (s.adminRow c fun s x o => match o with
    | .getLogPage lid => some (s.logPageCmd x.port x.cmd.nsid lid)
    | _ => none)

/-! ## Features (R385, R386, R402, R446) -/

/-- Features of Table 13.3 whose value is only kept. PRESUMED: the identifiers are those of NVMe. -/
def keptFeature (fid : Nat) : Bool := [0x01, 0x04, 0x05, 0x08, 0x0B, 0x82, 0x83].contains fid

/-- PWR_IDLEn is lowered to the shortest idle time that an APST table gives (R446). -/
def State.applyApst (s : State) (l : List Nat) : State :=
  s.each [1, 2, 3, 4] fun s n =>
    let t := lget 0 l (n - 1)
    s.onlyIf (t != 0 && decide (t < s.rfld (pwrIdle n) 0 24)) fun s => s.setRfld (pwrIdle n) 0 24 t

/-- Set Features. -/
def State.setFeature (s : State) (p fid : Nat) (v : W) (apst : List Nat) : State × Cpl × Option HostReply :=
  let modCtrl (s : State) (f : Ctrl → Ctrl) : State := s.setHif p { s.hifP p with ctrl := (s.hifP p).ctrl.map f }
  if fid = 0xC1 then
    if fld v 20 12 ≠ 0 then (s, invalidField, none) else (s.hifLattolWrite p v, {}, none)
  else if fid = 6 then (s.setBankBit (bankAddr 29) 0 (bitAt v 0), {}, none)
  else if fid = 2 then
    if 4 < fld v 0 5 then (s, invalidField, none)
    else (({ s with pwr := { s.pwr with psReq := fld v 0 5 } } : State).pwrRecompute, {}, none)
  else if fid = 7 then
    if fld v 0 16 = 0xFFFF ∨ fld v 16 16 = 0xFFFF then (s, invalidField, none)
    else
      let n := min (min (fld v 0 16) (fld v 16 16) + 1) (s.rfld (hifQlimit p) 0 11)
      (modCtrl s fun k => { k with granted := n }, { dw0 := (n - 1) * 65537 }, none)
  else if fid = 0xC then
    ((modCtrl s fun k => { k with apst := apst, feats := tset (fun _ => 0) k.feats 0xC v }).onlyIf (bitAt v 0) fun s => s.applyApst apst, {}, none)
  else if fid = 0xF then
    if !katoOk v.toNat then (s, invalidField, none)
    else (modCtrl s fun k => { k with kato := katoRound v.toNat, kaAt := s.vgl.wall }, {}, none)
  else if keptFeature fid then (modCtrl s fun k => { k with feats := tset (fun _ => 0) k.feats fid v }, {}, none)
  else (s, invalidField, none)

/-- SET_FEATURES. -/
def execSetFeatures (c : Fin 4096) (s : State) : Host.Outcome State Fault Refusal :=
  .next (s.adminRow c fun s x o => match o with
    | .setFeatures fid v apst => some (s.setFeature x.port fid v apst)
    | _ => none)

/-- A feature's current value. -/
def State.featureNow (s : State) (p fid : Nat) : Nat :=
  let kept := match (s.hifP p).ctrl with
    | some k => (tget (fun _ => 0) k.feats fid).toNat
    | none => 0
  if fid = 0xC1 then s.rfld (hifLattol p) 0 20
  else if fid = 6 then (s.reg (bankAddr 29)).toNat % 2
  else if fid = 2 then s.pwr.psReq
  else if fid = 7 then match (s.hifP p).ctrl with
    | some k => (k.granted - 1) * 65537
    | none => 0
  else if fid = 0xF then match (s.hifP p).ctrl with
    | some k => k.kato
    | none => 0
  else if fid = 1 then 7
  else kept

/-- Get Features by Select: 0 current, 1 default, 2 saved, 3 capabilities (bit 0 savable, bit 2 changeable; PRESUMED for the
features other than the latency tolerance). -/
def State.getFeature (s : State) (p fid sel : Nat) : Cpl :=
  if !(keptFeature fid || [2, 6, 7, 0xC, 0xF, 0xC1].contains fid) then invalidField
  else if sel = 1 then { dw0 := if fid = 0xC1 then 50 else if fid = 1 then 7 else 0 }
  else if sel = 3 then { dw0 := if fid = 0xC1 ∨ fid = 6 then 5 else 4 }
  else { dw0 := s.featureNow p fid }

/-- GET_FEATURES. -/
def execGetFeatures (c : Fin 4096) (s : State) : Host.Outcome State Fault Refusal :=
  .next (s.adminRow c fun s x o => match o with
    | .getFeatures fid sel => some (s, s.getFeature x.port fid sel, none)
    | _ => none)

/-! ## Abort, asynchronous events and Keep Alive (R404 to R406) -/

/-- The context of a port that holds a command. -/
def State.lookupCmd (s : State) (p sqid cid : Nat) : Option (Nat × Ctx) :=
  (s.portCtxs p).find? fun e => e.2.cmd.sqid == sqid && e.2.cmd.cid == cid

/-- Abort of a target: whether it won (R404). -/
def State.abortCmd (s : State) (p sqid cid : Nat) : State × Bool :=
  match s.lookupCmd p sqid cid with
  | none => (s, false)
  | some (c, x) =>
    if x.st = .committed ∨ (sqid = 0 ∧ x.cmd.op ≠ .asyncEvent) then (s, false)
    else if x.early then (s.endWaiting c 0x200, true)
    else ((s.setCtx c (some { x with abort := true })).endRunning c, true)

/-- ABORT: bit 0 of Dword 0 is 1 for "not aborted". -/
def execAbort (c : Fin 4096) (s : State) : Host.Outcome State Fault Refusal :=
  .next (match s.fresh c with
    | none => s
    | some x => match x.cmd.op with
      | .abort sqid cid =>
        let r := s.abortCmd x.port sqid cid
        ((r.1.raise qmgInt 3).count (qmgCtr (if r.2 then 2 else 3))).ctxEnd c { dw0 := if r.2 then 0 else 1 }
      | _ => s)

/-- ASYNCHRONOUS_EVENT_REQUEST: taken, and outstanding until an event comes; one that waits completes it at once (R406). -/
def execAsynchronousEventRequest (c : Fin 4096) (s : State) : Host.Outcome State Fault Refusal :=
  .next (match s.ctxAt c with
    | none => s
    | some x =>
      if x.st = .arrived ∧ x.cmd.op = .asyncEvent then
        let was := s.qmgIdle
        let s := (s.setCtx c (some { x with st := .running, begun := true, need := [noKey] })).idleRose was
        match s.fw.events.find? fun e => e.1 == x.port with
        | some e => (s.modFw fun f => { f with events := f.events.erase e }).ctxEnd c { dw0 := e.2 }
        | none => s
      else s)

/-- KEEP_ALIVE: the timer restarts, and the command completes when it is taken (R406). -/
def execKeepAlive (c : Fin 4096) (s : State) : Host.Outcome State Fault Refusal :=
  .next (match s.ctxAt c with
    | none => s
    | some x =>
      if x.st = .arrived ∧ x.cmd.op = .keepAlive then
        let h := s.hifP x.port
        (s.setHif x.port { h with ctrl := h.ctrl.map fun k => { k with kaAt := s.vgl.wall } }).endCtx c {}
      else s)

/-! ## Format (R66, R312, R409, R506) -/

/-- The zones of a namespace. -/
def State.zonesOf (s : State) (n : Nspace) : List Nat := (upto (s.spaceZones n)).filterMap fun i => zoneAt (s.spaceGroups n) i

/-- A namespace's pool entries are cleared, and their pool stripes are free again (R312). -/
def State.dropPool (s : State) (zs : List Nat) : State :=
  s.each (upto 4) fun s a =>
    let l := tget (fun _ => []) s.fw.pool a
    let gone := l.filter fun e => zs.contains e.zone
    let free := (gone.map fun e => (upto e.count).map fun i => e.pool + i).flatten
    let used := (tget (fun _ => []) s.fw.poolUsed a).filter fun i => !free.contains i
    s.modFw fun f => { f with
      pool := tset (fun _ => []) f.pool a (l.filter fun e => !zs.contains e.zone), poolUsed := tset (fun _ => []) f.poolUsed a used }

/-- The contents of a namespace go: every zone is Empty with its write generation one on, no LBA is written, and a read-only
group is writable again (R66, R225, R312, R398). -/
def State.formatSpace (s : State) (n : Nspace) : State :=
  let zs := s.zonesOf n
  let s := (s.each zs fun s z => s.resetZone z).dropPool zs
  let s := s.modFw fun f => { f with
    written := f.written.filter fun e => !zs.contains (e.1 / 65536), formed := f.formed.filter fun e => !zs.contains (e.1 / 65536), bad := f.bad.filter fun k => !zs.contains (k / 65536)
    kv := f.kv.filter fun e => e.nsid != n.nsid }
  { s with groups := s.groups.map fun g => if n.groups.contains g.id then { g with readOnly := false } else g }

/-- A namespace's media key is replaced, in its slot and in the key set (R506). -/
def State.newKey (s : State) (n : Nspace) (slot : Nat) : State :=
  let r := s.drawKey
  (r.1.setKeySlot slot r.2).modSec fun c => { c with store := (c.store.filter fun e => e.1 != n.nsid) ++ [(n.nsid, r.2)] }

/-- FORMAT_NVM: new commands to the namespace are held; it starts once none of its contexts is Running and no ladder, started
relocation or running MOP of a refresh is left on its zones (R314, R409, R421). -/
def execFormatNvm (c : Fin 4096) (entropyOk : Bool) (s : State) : Host.Outcome State Fault Refusal :=
  .next (match s.fresh c with
    | none => s
    | some x => match x.cmd.op with
      | .format ses => match s.space x.cmd.nsid with
        | none => s.ctxEnd c invalidNamespace
        | some n =>
          let zs := s.zonesOf n
          if (ses ≠ 0 ∧ ses ≠ 2) ∨ (ses = 2 ∧ n.key.isNone) then s.ctxEnd c invalidField
          else if zs.any fun z => (s.zone z).receiving then s.ctxEnd c (codeCpl 0x509)
          else
            let s := s.modSpace n.nsid fun n => { n with formatting := true }
            let busy := s.ctxs.any fun e => e.2.st == .running && cmdIo e.2.cmd && e.2.cmd.nsid == n.nsid
            if busy || zs.any s.zoneBusy || zs.any s.bandBusy || zs.any s.refreshBusy then s
            else
              let finish (s : State) : State := (s.modSpace n.nsid fun n => { n with formatting := false }).unhold
              match ses, n.key with
              | 2, some slot =>
                if !entropyOk then (finish s).ctxEnd c (codeCpl 0x40F)
                else (finish ((s.newKey n slot).formatSpace n)).ctxEnd c {}
              | _, _ => (finish (s.formatSpace n)).ctxEnd c {}
      | _ => s)

/-! ## Firmware download, commit and activation (R408, R498 to R501, R548) -/

/-- The staging area takes data from a source (1 IMAGE_WRITE, 2 a tunnelled download, 3 a host download): whether it may. -/
def State.stageFree (s : State) (src : Nat) : Bool :=
  s.fw.stageOwner == 0 || s.fw.stageOwner == src || decide (s.fw.stageAt + 60000000000 ≤ s.vgl.wall)

/-- Data goes into the staging area, which belongs to its source from then on. -/
def State.stagePut (s : State) (src offset : Nat) (l : List Byte) : State :=
  s.modFw fun f => { f with
    staged := tset (fun _ => []) (if f.stageOwner == src then f.staged else []) offset l, stageOwner := src, stageAt := s.vgl.wall }

/-- The staged bytes as far as they are contiguous from 0. -/
def joinStaged : Tbl (List Byte) → Nat → List Byte
  | [], _ => []
  | (o, l) :: t, k => if o = k then l ++ joinStaged t (k + l.length) else []
def State.stagedBytes (s : State) : List Byte := joinStaged s.fw.staged 0

/-- The staging area is free again. -/
def State.stageDrop (s : State) : State := s.modFw fun f => { f with staged := [], stageOwner := 0 }

/-- Firmware Image Download from a source. -/
def State.downloadCmd (s : State) (src offset : Nat) (l : List Byte) : State × Cpl :=
  if s.stageFree src then (s.stagePut src offset l, {}) else (s, codeCpl 0x305)

/-- FIRMWARE_IMAGE_DOWNLOAD. -/
def execFirmwareImageDownload (c : Fin 4096) (s : State) : Host.Outcome State Fault Refusal :=
  .next (s.adminRow c fun s _ o => match o with
    | .fwDownload offset data => let r := s.downloadCmd 3 offset data; some (r.1, r.2, none)
    | _ => none)

/-- The slot that the newest commit record names. -/
def State.committedSlot (s : State) : Option Nat := (s.newestCommit).map fun c => c.2.2.2

/-- A firmware update or commit action up to its record: the slot and code, 0 for success (R498). PRESUMED: NVMe's Invalid
Firmware Slot for a slot the rule does not allow. REASON as in Table 17.6. -/
def State.commitAct (s : State) (slot action reason : Nat) (verifies : Bool) : State × Nat × Cpl :=
  let named := s.committedSlot
  let target := if slot = 0 then (match named with
    | some k => 1 - k
    | none => 0) else slot - 1
  if 2 < slot ∨ 3 < action then (s, target, invalidField)
  else if action = 2 then
    if s.headerVerifies (s.slotHeader target) true && verifies then
      ((s.commitWrite target reason).modFw fun f => { f with pendingSlot := some target }, target, {})
    else (s, target, codeCpl 0x40A)
  else if named = some target then (s, target, nvmeCpl 1 0x06)
  else
    let l := s.stagedBytes
    let s := (s.writeImage (64 * target) 64 l).stageDrop
    if s.headerVerifies l true && verifies then
      (if action = 0 then s else s.commitWrite target reason, target, {})
    else (s, target, codeCpl 0x40A)

/-- FIRMWARE_COMMIT. Action 3 goes on to the activation; in recovery mode actions 1 and 3 end in a cluster reset (R484). -/
def execFirmwareCommit (c : Fin 4096) (verifies : Bool) (s : State) : Host.Outcome State Fault Refusal :=
  .next (match s.fresh c with
    | none => s
    | some x => match x.cmd.op with
      | .fwCommit slot action =>
        if s.fls.op.isSome || s.fls.suspended.isSome then s
        else
          let r := s.commitAct slot action 1 verifies
          let ok := r.2.2.sct == 0 && r.2.2.sc == 0
          if !ok then r.1.ctxEnd c r.2.2
          else if s.rbit clkBoot 4 then (r.1.ctxEnd c {}).clusterReset
          else if action = 3 then
            (r.1.setCtx c (some { x with begun := true, need := [noKey] })).activateStart (c + 1) r.2.1
          else r.1.ctxEnd c {}
      | _ => s)

/-- The activation is over: HOLD_ADMIT clears, and the held commands go on (R408). -/
def State.activateEnd (s : State) (c : Nat) (e : Cpl) : State :=
  let s := s.modFw fun f => { f with activate := none }
  (if c = 0 then s else s.ctxEnd (c - 1) e).holdAdmit false

/-- ACTIVATION_IDLE: the new image takes over by a cluster reset (R408, R498). -/
def execActivationIdle (s : State) : Host.Outcome State Fault Refusal :=
  .next (match s.fw.activate with
    | some (c, slot, _) =>
      if s.qmgIdle then ({ s.clusterReset with clk := { s.clusterReset.clk with slot := slot } } : State).activateEnd c {}
      else s
    | none => s)

/-- ACTIVATION_TIMEOUT: the activation is abandoned. -/
def execActivationTimeout (s : State) : Host.Outcome State Fault Refusal :=
  .next (match s.fw.activate with
    | some (c, _, t) => if s.vgl.wall < t + 10000000000 then s else s.activateEnd c (codeCpl 0x209)
    | none => s)

/-! ## Key Value commands (R383, R394)

PRESUMED: the statuses are those of the NVMe Key Value command set: Invalid Value Size, Invalid Key Size, Key Does Not Exist,
Key Exists, Capacity Exceeded. -/

def kvValueSize : Cpl := nvmeCpl 0 0x85
def kvKeySize : Cpl := nvmeCpl 0 0x86
def kvNoKey : Cpl := nvmeCpl 0 0x87
def kvKeyExists : Cpl := nvmeCpl 0 0x89
def kvFull : Cpl := nvmeCpl 0 0x81

/-- Keys are 1 to 16 bytes. -/
def keyOk (k : List Byte) : Bool := !k.isEmpty && decide (k.length ≤ 16)

/-- The lowest run of `n` LBAs, from `lba` on, that no value holds; `fuel` bounds the search. -/
def kvGap (l : List KvEnt) (n : Nat) : Nat → Nat → Nat
  | 0, lba => lba
  | fuel + 1, lba => match l.find? fun e => decide (lba < e.lba + e.n) && decide (e.lba < lba + n) with
    | some e => kvGap l n fuel (e.lba + e.n)
    | none => lba

/-- A value in LBAs, the last one filled with zeros. -/
def blocksOf : Nat → List Byte → List (List Byte)
  | 0, _ => []
  | k + 1, l => (l.take 4096 ++ List.replicate (4096 - (l.take 4096).length) 0) :: blocksOf k (l.drop 4096)

/-- STORE: the value is written to LBAs of its own, and its key names them from then on. -/
def execStore (c : Fin 4096) (find : EccFind) (s : State) : Host.Outcome State Fault Refusal :=
  .next (match s.fresh c with
    | none => s
    | some x => match x.cmd.op, s.space x.cmd.nsid with
      | .kvStore key value must mustNot, some n =>
        let mine := s.fw.kv.filter fun e => e.nsid == n.nsid
        let old := s.kvFind n.nsid key
        let k := ceilDiv value.length 4096
        let at_ := kvGap mine k (mine.length + 1) 0
        if s.dataWaits x then s
        else if !keyOk key then s.ctxEnd c kvKeySize
        else if 2 ^ 24 < value.length then s.ctxEnd c kvValueSize
        else if must && old.isNone then s.ctxEnd c kvNoKey
        else if mustNot && old.isSome then s.ctxEnd c kvKeyExists
        else if s.spaceLbas n < at_ + k then s.ctxEnd c kvFull
        else if (s.keysOf n at_ k).any fun j => s.zoneReadOnly (j / 65536) then s.ctxEnd c (codeCpl 0x196)
        else if eccBad find then (s.bufferFound find).ctxEnd c (codeCpl (if find = .uncorrectable then 0x10 else 0x11))
        else
          let s := s.bufferFound find
          let e : KvEnt := { nsid := n.nsid, key := key, len := value.length, lba := at_, n := k }
          let s := s.modFw fun f => { f with kv := (f.kv.filter fun o => !(o.nsid == n.nsid && o.key == key)) ++ [e] }
          let keys := s.keysOf n at_ k
          ((s.hostData x n (keys.zip (blocksOf k value))).writeKeys c x n keys (blocksOf k value)).settle
      | _, _ => s)

/-- RETRIEVE. -/
def execRetrieve (c : Fin 4096) (find : EccFind) (s : State) : Host.Outcome State Fault Refusal :=
  .next (match s.fresh c with
    | none => s
    | some x => match x.cmd.op, s.space x.cmd.nsid with
      | .kvRetrieve key, some n =>
        if !keyOk key then s.ctxEnd c kvKeySize
        else match s.kvFind n.nsid key with
          | none => s.ctxEnd c kvNoKey
          | some e =>
            let keys := s.keysOf n e.lba e.n
            let r := s.bufferBad keys find
            if r.2 ≠ 0 then r.1.ctxEnd c (codeCpl r.2) else r.1.beginRead c { x with lba := e.len } n keys
      | _, _ => s)

/-- DELETE. -/
def execDelete (c : Fin 4096) (s : State) : Host.Outcome State Fault Refusal :=
  .next (s.adminRow c fun s x o => match o with
    | .kvDelete key =>
      if !keyOk key then some (s, kvKeySize, none)
      else match s.kvFind x.cmd.nsid key with
        | none => some (s, kvNoKey, none)
        | some e => some (s.modFw fun f => { f with kv := f.kv.erase e }, {}, none)
    | _ => none)

/-- EXIST. -/
def execExist (c : Fin 4096) (s : State) : Host.Outcome State Fault Refusal :=
  .next (s.adminRow c fun s x o => match o with
    | .kvExist key =>
      some (s, if !keyOk key then kvKeySize else if (s.kvFind x.cmd.nsid key).isSome then {} else kvNoKey, none)
    | _ => none)

/-- Bytes in lexicographic order. -/
def bytesLe : List Byte → List Byte → Bool
  | [], _ => true
  | _ :: _, [] => false
  | a :: l, b :: m => if a = b then bytesLe l m else decide (a.toNat < b.toNat)

/-- LIST: the keys from the one given on. DESIGN CHOICE: "from" by lexicographic order; the order of the reply is that in which
they were stored. -/
def execList (c : Fin 4096) (s : State) : Host.Outcome State Fault Refusal :=
  .next (s.adminRow c fun s x o => match o with
    | .kvList key =>
      some (s, {}, some (.keys ((s.fw.kv.filter fun e => e.nsid == x.cmd.nsid && bytesLe key e.key).map KvEnt.key)))
    | _ => none)

/-! ## Reservations (Table 13.3)

PRESUMED: what each action does is that of the NVMe specification: 1 Write Exclusive, 2 Exclusive Access, 3 and 4 their
Registrants Only forms, 5 and 6 their All Registrants forms. -/

/-- The host of a port. -/
def State.hostOf (s : State) (p : Nat) : Nat := match (s.hifP p).ctrl with
  | some k => k.host
  | none => 0

def State.setRsv (s : State) (r : Rsv) : State := s.modFw fun f => { f with rsv := (f.rsv.filter fun q => q.nsid != r.nsid) ++ [r] }

/-- A host's key. -/
def Rsv.keyOf (r : Rsv) (h : Nat) : Option Nat := (r.keys.find? fun k => k.1 == h).map Prod.snd

/-- A host unregisters: its reservation goes with it, unless other registrants hold an All Registrants one. -/
def Rsv.drop (r : Rsv) (h : Nat) : Rsv :=
  let keys := r.keys.filter fun k => k.1 != h
  let gone := r.type_ != 0 && (if 5 ≤ r.type_ then keys.isEmpty else r.holder == some h)
  { r with keys := keys, type_ := if gone then 0 else r.type_, holder := if gone then none else r.holder }

/-- The other hosts of a namespace are told of a change of its reservation: kind 1 registration preempted, 2 released, 3
reservation preempted. -/
def State.rsvNotice (s : State) (nsid self kind : Nat) : State :=
  s.each ((upto 4).filter fun p => match (s.hifP p).ctrl with
    | some k => k.host != self && !(tget (fun _ => 0) k.feats 0x82).getLsbD kind
    | none => false) fun s p => (s.modFw fun f => { f with rsvLog := f.rsvLog ++ [(p, kind, nsid)] }).asyncEvent p 6

/-- RESERVATION_REGISTER. -/
def execReservationRegister (c : Fin 4096) (s : State) : Host.Outcome State Fault Refusal :=
  .next (s.adminRow c fun s x o => match o with
    | .rsvRegister action cur new cptpl ign =>
      let h := s.hostOf x.port
      let r := s.rsvOf x.cmd.nsid
      let ptpl := if cptpl = 2 then false else if cptpl = 3 then true else r.ptpl
      let put (r : Rsv) : Option AdminRes := some (s.setRsv { r with gen := (r.gen + 1) % 2 ^ 32, ptpl := ptpl }, {}, none)
      match action, r.keyOf h with
      | 0, none => put { r with keys := r.keys ++ [(h, new)] }
      | 0, some k => if k = new then put r else some (s, rsvConflict, none)
      | 1, some k => if k = cur ∨ ign then put (r.drop h) else some (s, rsvConflict, none)
      | 2, some k =>
        if k = cur ∨ ign then put { r with keys := r.keys.map fun e => if e.1 == h then (h, new) else e } else some (s, rsvConflict, none)
      | 2, none => if ign then put { r with keys := r.keys ++ [(h, new)] } else some (s, rsvConflict, none)
      | 1, none => some (s, rsvConflict, none)
      | _, _ => some (s, invalidField, none)
    | _ => none)

/-- RESERVATION_REPORT. -/
def execReservationReport (c : Fin 4096) (s : State) : Host.Outcome State Fault Refusal :=
  .next (s.adminRow c fun s x o => match o with
    | .rsvReport => let r := s.rsvOf x.cmd.nsid; some (s, {}, some (.reservation r.gen r.type_ r.holder r.keys))
    | _ => none)

/-- The commands of hosts to a namespace are aborted (Preempt and Abort). -/
def State.abortHosts (s : State) (nsid : Nat) (hosts : List Nat) : State :=
  s.each (s.ctxs.filter fun e => cmdIo e.2.cmd && e.2.cmd.nsid == nsid && hosts.contains (s.hostOf e.2.port) && e.2.st != .committed) fun s e =>
    if e.2.early then s.endWaiting e.1 0x200 else (s.setCtx e.1 (some { e.2 with abort := true })).endRunning e.1

/-- RESERVATION_ACQUIRE. -/
def execReservationAcquire (c : Fin 4096) (s : State) : Host.Outcome State Fault Refusal :=
  .next (s.adminRow c fun s x o => match o with
    | .rsvAcquire action type_ cur pre =>
      let h := s.hostOf x.port
      let r := s.rsvOf x.cmd.nsid
      if r.keyOf h != some cur then some (s, rsvConflict, none)
      else if type_ = 0 ∨ 6 < type_ ∨ 2 < action then some (s, invalidField, none)
      else if action = 0 then
        if r.type_ = 0 then some (s.setRsv { r with type_ := type_, holder := some h }, {}, none)
        else if (r.holder = some h ∨ 5 ≤ r.type_) ∧ r.type_ = type_ then some (s, {}, none)
        else some (s, rsvConflict, none)
      else
        let hit := (r.keys.filter fun k => k.2 == pre && k.1 != h).map Prod.fst
        let takes := r.type_ != 0 && (if 5 ≤ r.type_ then pre == 0 else match r.holder with
          | some k => r.keyOf k == some pre
          | none => false)
        let gone := if 5 ≤ r.type_ ∧ pre = 0 then (r.keys.filter fun k => k.1 != h).map Prod.fst else hit
        let keys := r.keys.filter fun k => !gone.contains k.1
        let r' : Rsv := { r with gen := (r.gen + 1) % 2 ^ 32, keys := keys, type_ := if takes then type_ else r.type_
                                 holder := if takes then some h else r.holder }
        let s := (s.setRsv r').rsvNotice x.cmd.nsid h (if takes then 3 else 1)
        some (s.onlyIf (action == 2) fun s => s.abortHosts x.cmd.nsid gone, {}, none)
    | _ => none)

/-- RESERVATION_RELEASE. -/
def execReservationRelease (c : Fin 4096) (s : State) : Host.Outcome State Fault Refusal :=
  .next (s.adminRow c fun s x o => match o with
    | .rsvRelease action type_ cur =>
      let h := s.hostOf x.port
      let r := s.rsvOf x.cmd.nsid
      if r.keyOf h != some cur then some (s, rsvConflict, none)
      else if action = 0 then
        if r.type_ = 0 ∨ !(r.holder == some h || decide (5 ≤ r.type_)) then some (s, {}, none)
        else if r.type_ ≠ type_ then some (s, invalidField, none)
        else some ((s.setRsv { r with type_ := 0, holder := none }).rsvNotice x.cmd.nsid h 2, {}, none)
      else if action = 1 then
        some ((s.setRsv { r with type_ := 0, holder := none, keys := [], gen := (r.gen + 1) % 2 ^ 32 }).rsvNotice x.cmd.nsid h 3, {}, none)
      else some (s, invalidField, none)
    | _ => none)

/-- UNSUPPORTED_COMMAND (R383). -/
def execUnsupportedCommand (c : Fin 4096) (s : State) : Host.Outcome State Fault Refusal :=
  .next (s.adminRow c fun s _ o => match o with
    | .unsupported _ => some (s, invalidOpcode, none)
    | _ => none)

end Sys2Proof.Machine
end

