-- ==== Sys2Proof/Machine/Vigil.lean ====
section
/-!
DEFINITION. Wake sources, requests to PWR, and the Vigil domain's time (R444 to R468).
-/
namespace Sys2Proof.Machine

def State.modVgl (s : State) (f : Vgl → Vgl) : State := { s with vgl := f s.vgl }
def State.modPwr (s : State) (f : Pwr → Pwr) : State := { s with pwr := f s.pwr }

/-! ## Requests and wake sources -/

/-- IDLE_TIMER_EXPIRY. -/
def execIdleTimerExpiry (n : Fin 5) (s : State) : Host.Outcome State Fault Refusal :=
  .next ((s.onlyIf s.isIdle fun s => s.modPwr fun p => { p with idle := max p.idle n.val }).pwrRecompute)

/-- A request that PWR refuses (R447, R454, R458). -/
def State.pwrRefuse (s : State) (code : Nat) : State := (s.setRfld pwrStatus 16 16 code).raise pwrInt 2

/-- PL5 is asked for: refused unless the controller is idle. DEDUCED: and while it leaves a level or is in PL5-hold (R447). -/
def State.pl5Request (s : State) : State :=
  if !s.isIdle || s.pwr.exit.isSome || decide (4 < s.level) then s.pwrRefuse 0x30
  else match s.pwr.entry with
    | some _ => s.modPwr fun p => { p with goal := 5 }
    | none => s.beginEntry 5

/-- PL5_REQ. -/
def execPl5Req (_by : Requester) (s : State) : Host.Outcome State Fault Refusal := .next s.pl5Request

/-- MOT is Stopped and every actuator Parked or Disabled (R458). -/
def State.holdOk (s : State) : Bool :=
  s.rfld (regAddr bMOT 0x4) 0 3 == 0 && (upto 4).all fun a => s.actSt a == 0 || s.actSt a == 6

/-- PWR_WAKE. -/
def execPwrWake (_by : Requester) (s : State) : Host.Outcome State Fault Refusal := .next (s.wakeBy 7)

/-- WAKE_SOURCE: source 0 needs an armed energy detector, which its first signal uses up (R389). -/
def execWakeSource (k : Fin 9) (s : State) : Host.Outcome State Fault Refusal :=
  .next (
    if k.val = 0 then
      match (upto 4).find? fun p => (s.hifP p).energy != 0 with
      | some p => (s.setHif p { s.hifP p with energy := 0 }).wakeBy 0
      | none => s
    else s.wakeBy k.val)

/-- The port carries a wake pattern: it is asleep or in a sleep handshake; one left Off by a failed handshake does not (R107 to R109). -/
def State.ulkListens (s : State) (n : Nat) : Bool :=
  if s.pwr.off.testBit 5 then s.pwr.asleep.contains n else s.ulkSt n == 5 || (s.ulkP n).sleep.isSome

/-- WAKE_PATTERN_RX: WAKE_RX of a powered port, and wake source 4 (R108, R109). -/
def execWakePatternRx (n : Fin 4) (s : State) : Host.Outcome State Fault Refusal :=
  .next (s.onlyIf (s.ulkListens n) fun s => (s.onlyIf (!s.pwr.off.testBit 5) fun s => s.ulkWakes n).wakeBy 4)

/-- VGL_WAKE_N_INPUT. -/
def execVglWakeNInput (s : State) : Host.Outcome State Fault Refusal := .next ((s.raise vglInt 6).wakeBy 6)

/-- HOST_LANE_ENERGY_DETECTOR_ARM. -/
def execHostLaneEnergyDetectorArm (p : Fin 4) (lane : Fin 8) (s : State) : Host.Outcome State Fault Refusal :=
  .next (
    if s.level = 4 ∧ !s.rbit (hifStatus p) 7 ∧ s.rbit (hifWakeCtrl p) 2 then
      s.setHif p { s.hifP p with energy := (s.hifP p).energy ||| 2 ^ lane.val }
    else s)

/-! ## The Vigil domain -/

/-- An alarm's value. -/
def State.alarmAt (s : State) (k : Nat) : Nat := (s.reg (bankAddr (7 + 2 * k))).toNat + 2 ^ 32 * (s.reg (bankAddr (8 + 2 * k))).toNat

/-- VIGIL_ALARM: fires only while enabled and due, and clears its enable (R464). -/
def execVigilAlarm (k : Fin 4) (s : State) : Host.Outcome State Fault Refusal :=
  .next (
    if s.rbit (bankAddr 6) k ∧ s.alarmAt k ≤ s.vgl.epoch.toNat then
      ((s.setBankBit (bankAddr 6) k false).raise vglInt (2 + k)).wakeBy 5
    else s)

/-- VBAT_MEASURE (R459). -/
def execVbatMeasure (mv : BitVec 12) (s : State) : Host.Outcome State Fault Refusal :=
  .next (
    let low := decide (mv.toNat < s.rfld (bankAddr 2) 0 12)
    let s := (s.setReg (regAddr bVGL 0xC) (mv.setWidth 32)).setRbit vglStatus 1 low
    s.onlyIf low fun s => s.raise vglInt 1)

/-- VIGIL_SUPPLY_MONITOR_FALL. With the battery lost VGL_MAIN_EN is released (R460). -/
def execVigilSupplyMonitorFall (s : State) : Host.Outcome State Fault Refusal :=
  .next ((s.modVgl fun v => { v with fell := true, mainLow := false }).setRbit vglStatus 2 false)

/-! ## Epoch and Tick (R466 to R468) -/

/-- FAB is powered and its clocks run. -/
def State.fabRuns (s : State) : Bool := !s.pwr.off.testBit 2 && s.pwr.hold.isNone

/-- The anchor pair is latched: Epoch, and Tick in whole nanoseconds. -/
def State.latchAnchor (s : State) : State :=
  let e := s.vgl.epoch.toNat
  let t := s.vgl.tick8 / 8
  let a (i v : Nat) (s : State) : State := s.setReg (regAddr bVGL (0x30 + 4 * i)) (BitVec.ofNat 32 v)
  (a 3 (t / 2 ^ 32) (a 2 t (a 1 (e / 2 ^ 32) (a 0 e s)))).modVgl fun v => { v with anchored := true }

/-- PL5-hold is asked for: it retains everything, and the clocks of FAB stop (R458, R467). -/
def State.holdRequest (s : State) : State :=
  if !s.holdOk || s.pwr.entry.isSome || s.pwr.exit.isSome || decide (4 < s.level) then s.pwrRefuse 0x30
  else
    let s := s.latchAnchor.modPwr fun p => { p with hold := some s.level }
    (((s.setReg vglWakeSrc 0).setRfld pwrStatus 0 3 6).raise pwrInt 0).count (pwrCtr 0)

/-- The boot ROM, DBG and firmware may write HOLD_REQ (R458): the management cores and the management port may not. -/
def State.mayHold : Requester → Bool
  | .cpu _ => true
  | .dbg => true
  | _ => false

/-- HOLD_REQ. -/
def execHoldReq (by_ : Requester) (s : State) : Host.Outcome State Fault Refusal :=
  .next (if State.mayHold by_ then s.holdRequest else s)

/-- Two words of VGL as one value. -/
def State.vglPair (s : State) (off : Nat) : Nat := (s.reg (regAddr bVGL off)).toNat + 2 ^ 32 * (s.reg (regAddr bVGL (off + 4))).toNat

/-- Tick as R468 loads it, in eighths of a nanosecond, rounded to the nearest: an Epoch tick is 1,953,125 / 64 ns (Table 16.7). -/
def State.tickLoad (s : State) : Nat :=
  let e := s.vgl.epoch.toNat
  if s.vgl.anchored then
    let de := e - s.vglPair 0x30
    let leap := (s.reg (bankAddr 3)).toInt
    8 * s.vglPair 0x38 + ((((de * 1953125 : Nat) : Int) * (2 ^ 36 + leap) + 4 * 2 ^ 36) / (8 * 2 ^ 36)).toNat
  else (e * 1953125 + 4) / 8

/-- The measurement of LEAP over 2²⁰ Epoch ticks, of 256,000,000,000 eighths of a nanosecond (R467). A tie cannot occur. -/
def State.leapStep (s : State) : State :=
  let e := s.vgl.epoch.toNat
  if !s.rbit (bankAddr 4) 0 || !s.fabRuns then s.modVgl fun v => { v with leapFrom := none }
  else match s.vgl.leapFrom with
    | none => s.modVgl fun v => { v with leapFrom := some (e, v.tick8) }
    | some (e0, t0) =>
      if e < e0 + 2 ^ 20 then s
      else
        let n : Int := 256000000000
        let d : Int := (s.vgl.tick8 : Int) - t0
        let x := ((d - n) * 2 ^ 37 + n) / (2 * n)
        (s.setBank (bankAddr 3) (BitVec.ofInt 32 x)).modVgl fun v => { v with leapFrom := some (e, v.tick8) }

/-- EPOCH_TICK. -/
def execEpochTick (s : State) : Host.Outcome State Fault Refusal :=
  .next (
    let s := s.modVgl fun v => { v with epoch := v.epoch + 1 }
    let t := s.tickLoad
    let s := s.onlyIf (s.vgl.reload && s.fabRuns) fun s => s.modVgl fun v => { v with tick8 := t, reload := false }
    let s := s.onlyIf (s.vgl.epoch.toNat % 32768 == 0 && s.fabRuns) State.latchAnchor
    s.leapStep)

/-- VGL_EPOCH_LOAD_HI: the one load that Epoch accepts (R466). -/
def State.epochLoad (s : State) (hi : W) : State :=
  if s.rbit vglStatus 2 then s
  else (s.modVgl fun v => { v with epoch := hi.setWidth 64 <<< 32 ||| v.loadLo.setWidth 64 }).setRbit vglStatus 2 true

/-- EPOCH_LOAD. -/
def execEpochLoad (hi : BitVec 32) (s : State) : Host.Outcome State Fault Refusal := .next (s.epochLoad hi)

/-- VGL_EPOCH_LO_READ. -/
def execVglEpochLoRead (s : State) : Host.Outcome State Fault Refusal :=
  .next (s.modVgl fun v => { v with epochLatch := (v.epoch >>> 32).setWidth 32 })

/-- PWR_TICK_LO_READ: Tick in whole nanoseconds. -/
def execPwrTickLoRead (s : State) : Host.Outcome State Fault Refusal :=
  .next (s.modVgl fun v => { v with tickLatch := BitVec.ofNat 32 (v.tick8 / 8 / 2 ^ 32) })

/-- ULK_LTIME_LO_READ. -/
def execUlkLtimeLoRead (n : Fin 4) (s : State) : Host.Outcome State Fault Refusal :=
  .next (s.setUlk n { s.ulkP n with ltimeLatch := (s.ltime >>> 32).setWidth 32 })

end Sys2Proof.Machine
end

