-- ==== Sys2Proof/Machine/Mgt.lean ====
section
/-!
DEFINITION. The management port: MCTP, NVMe-MI and the Brodvon packets that reach no register (R541 to R552).
-/
namespace Sys2Proof.Machine

def mgtCtrl := regAddr bMGT 0x0
def mgtStatus := regAddr bMGT 0x4
def mgtInt := regAddr bMGT 0x8
def mgtLock := regAddr bMGT 0x14
/-- MGT_CNT_RX, TX and PEC_ERR (Table 19.8). -/
def mgtCtr (i : Nat) : Ctr := ⟨regAddr bMGT (0x40 + 4 * i), regAddr bMGT 0x4C, i, mgtInt, 4, 32⟩

def State.modMgt (s : State) (f : MgtPort → MgtPort) : State := { s with mgt := f s.mgt }
/-- MGT_STATUS.EID. -/
def State.eid (s : State) : Nat := s.rfld mgtStatus 3 8

/-- The first outstanding request of a tag is answered. -/
def dropMsg (tag : Nat) : List (Nat × Nat) → List (Nat × Nat)
  | [] => []
  | m :: ms => if m.1 = tag then ms else m :: dropMsg tag ms

/-- A message is sent in answer to a request. -/
def State.mgtSend (s : State) (mctpTag tag status : Nat) (data : List Byte) : State :=
  let s := s.modMgt fun m => { m with msgs := dropMsg mctpTag m.msgs }
  (s.count (mgtCtr 1)).emit (.mgtReply tag status (if status = 0 then data else []))

/-! ## MCTP (R541, R542) -/

/-- MCTP_PACKET_RX: link errors, violations of MGT_VIOL8, reassembly. A port that is not in service, or not ready, acknowledges nothing, and a packet
for another endpoint, or with no EID assigned other than a control message, is dropped. -/
def State.mctpRx (s : State) (p : MctpPkt) : State :=
  let drop (s : State) (key : Nat) : State := s.modMgt fun m => { m with asm_ := tset (fun _ => none) m.asm_ key none }
  let key := 16 * p.src + p.tag
  if !s.rbit mgtCtrl 0 || !s.rbit mgtStatus 0 || s.pwr.off.testBit 0 then s
  else if !p.linkOk then (s.count (mgtCtr 2)).raise mgtInt 2
  else if p.version ≠ 1 then s.mgtViolate 8
  else if p.dest ≠ 0 ∧ p.dest ≠ s.eid then s
  else
    let got := if p.som then some (p.type, 0, p.seq) else tget (fun _ => none) s.mgt.asm_ key
    match got with
    | none => s.mgtViolate 8
    | some (type, bytes, seq) =>
      if p.seq ≠ seq then (drop s key).mgtViolate 8
      else if 1100 < bytes + p.bytes then (drop s key).mgtViolate 8
      else if !p.eom then s.modMgt fun m => { m with asm_ := tset (fun _ => none) m.asm_ key (some (type, bytes + p.bytes, (seq + 1) % 4)) }
      else
        let s := drop s key
        if type ≠ 0 ∧ type ≠ 4 ∧ type ≠ 0x7F then s.mgtViolate 8
        else if type ≠ 0 ∧ s.eid = 0 then s
        else if 8 ≤ s.mgt.msgs.length ∨ s.mgt.msgs.any (fun m => m.1 == p.tag) then s
        else ((s.modMgt fun m => { m with msgs := m.msgs ++ [(p.tag, type)] }).count (mgtCtr 0)).raise mgtInt 0

def execMctpPacketRx (p : MctpPkt) (s : State) : Host.Outcome State Fault Refusal := .next (s.mctpRx p)

/-- SET_ENDPOINT_ID. PRESUMED: DSP0236 refuses the null and the broadcast EID with ERROR_INVALID_DATA. -/
def execSetEndpointId (tag : Fin 8) (eid : Fin 256) (s : State) : Host.Outcome State Fault Refusal :=
  .next (
    if eid.val = 0 ∨ eid.val = 255 then s.mgtSend tag tag 2 []
    else ((s.setRfld mgtStatus 3 8 eid).raise mgtInt 3).mgtSend tag tag 0 [0, BitVec.ofNat 8 eid, 0])

/-- GET_ENDPOINT_ID: a simple endpoint with a dynamic EID. -/
def execGetEndpointId (tag : Fin 8) (s : State) : Host.Outcome State Fault Refusal :=
  .next (s.mgtSend tag tag 0 [BitVec.ofNat 8 s.eid, 0, 0])

/-- GET_ENDPOINT_UUID. -/
def execGetEndpointUuid (tag : Fin 8) (s : State) : Host.Outcome State Fault Refusal := .next (s.mgtSend tag tag 0 Config.uuid)

/-- GET_MCTP_VERSION_SUPPORT: the version that DSP0236 gives its one entry is not the spec's. -/
def execGetMctpVersionSupport (tag : Fin 8) (s : State) : Host.Outcome State Fault Refusal :=
  .next (s.mgtSend tag tag 0 (1 :: Config.mctpVersion))

/-- GET_MESSAGE_TYPE_SUPPORT (R542). -/
def execGetMessageTypeSupport (tag : Fin 8) (s : State) : Host.Outcome State Fault Refusal :=
  .next (s.mgtSend tag tag 0 [3, 0x00, 0x04, 0x7F])

/-- GET_VENDOR_DEFINED_MESSAGE_SUPPORT: the IANA number (R542). PRESUMED: DSP0236's layout, selector 0xFF for the last entry and
format 1. -/
def execGetVendorDefinedMessageSupport (tag : Fin 8) (s : State) : Host.Outcome State Fault Refusal :=
  .next (s.mgtSend tag tag 0 ([0xFF, 1] ++ beBytes 4 0x0001B7C3 ++ [0, 0]))

/-- UNSUPPORTED_MCTP_CONTROL: ERROR_UNSUPPORTED_CMD, PRESUMED 5. -/
def execUnsupportedMctpControl (tag : Fin 8) (s : State) : Host.Outcome State Fault Refusal := .next (s.mgtSend tag tag 5 [])

/-! ## NVMe-MI (R543) -/

/-- Statuses of NVMe-MI, PRESUMED: Invalid Parameter and Invalid Command Opcode's neighbour for an internal error. -/
def miInvalid : Nat := 4

/-- READ_NVME_MI_DATA_STRUCTURE: subsystem, port, controller list, controller, optional commands. PRESUMED: NVMe-MI's structure
types 0 to 4; of their fields, those that the spec fixes. -/
def execReadNvmeMiDataStructure (tag : Fin 8) (dtyp port ctrl : Nat) (s : State) : Host.Outcome State Fault Refusal :=
  .next (
    let ok (l : List Byte) : State := s.mgtSend tag tag 0 l
    if dtyp = 0 then ok [0, 1, 2]
    else if dtyp = 1 then (if port = 0 then ok (leBytes 2 64 ++ [BitVec.ofNat 8 (s.rfld (bankAddr 16) 0 7), BitVec.ofNat 8 s.mgt.freq]) else s.mgtSend tag tag miInvalid [])
    else if dtyp = 2 then ok (leBytes 2 4 ++ (((upto 4).filter fun p => decide (ctrl ≤ p + 1)).map fun p => leBytes 2 (p + 1)).flatten)
    else if dtyp = 3 then
      (if 1 ≤ ctrl ∧ ctrl ≤ 4 then ok (leBytes 2 ctrl ++ leBytes 2 s.fw.ident.vid ++ leBytes 2 s.fw.ident.ssvid) else s.mgtSend tag tag miInvalid [])
    else if dtyp = 4 then ok []
    else s.mgtSend tag tag miInvalid [])

/-- A zone group is Read Only: the critical warning that SMART shows. -/
def State.mediaWarn (s : State) : Byte := if s.groups.any (fun g => g.readOnly) then 8 else 0

/-- NVM_SUBSYSTEM_HEALTH_STATUS_POLL: drive functional, warnings, composite temperature in °C. -/
def execNvmSubsystemHealthStatusPoll (tag : Fin 8) (s : State) : Host.Outcome State Fault Refusal :=
  .next (s.mgtSend tag tag 0 [0x20, s.mediaWarn, BitVec.ofNat 8 (sext 16 (s.rfld (regAddr bCAL 0x70) 0 16) / 16).toNat])

/-- CONTROLLER_HEALTH_STATUS_POLL: the status of the controller of every associated port. -/
def execControllerHealthStatusPoll (tag : Fin 8) (s : State) : Host.Outcome State Fault Refusal :=
  .next (s.mgtSend tag tag 0 (((upto 4).filterMap fun p => (s.hifP p).ctrl.map fun k =>
    leBytes 2 (p + 1) ++ leBytes 4 k.csts.toNat ++ [s.mediaWarn])).flatten)

/-- CONFIGURATION_GET. PRESUMED: identifier 1 the bus frequency, 3 the transmission unit. -/
def execConfigurationGet (tag : Fin 8) (id : Nat) (s : State) : Host.Outcome State Fault Refusal :=
  .next (
    if id = 1 then s.mgtSend tag tag 0 [BitVec.ofNat 8 s.mgt.freq]
    else if id = 3 then s.mgtSend tag tag 0 (leBytes 2 64)
    else s.mgtSend tag tag miInvalid [])

/-- CONFIGURATION_SET: a bus frequency that the protocol supports; a transmission unit of 64 only (R541, R543). -/
def execConfigurationSet (tag : Fin 8) (id value : Nat) (s : State) : Host.Outcome State Fault Refusal :=
  .next (
    if id = 1 then
      if 1 ≤ value ∧ value ≤ (if s.dbg.mgtMode then 4 else 3) then (s.modMgt fun m => { m with freq := value }).mgtSend tag tag 0 []
      else s.mgtSend tag tag miInvalid []
    else if id = 3 ∧ value = 64 then s.mgtSend tag tag 0 []
    else s.mgtSend tag tag miInvalid [])

/-- VPD_READ: the spec does not give the vital product data. -/
def execVpdRead (tag : Fin 8) (offset len : Nat) (s : State) : Host.Outcome State Fault Refusal :=
  .next (s.mgtSend tag tag 0 ((upto len).map fun i => Config.vpd (offset + i)))

/-- MI_TUNNELLED_ADMIN: the command's own effects, and its completion in the reply: status, Dword 0. -/
def execMiTunnelledAdmin (tag : Fin 8) (p : Fin 4) (cmd : MiAdmin) (s : State) : Host.Outcome State Fault Refusal :=
  .next (
    let end_ (s : State) (c : Cpl) (r : Option HostReply) : State :=
      let s := match r with
        | some r => s.emit (.miReply tag r)
        | none => s
      s.mgtSend tag tag 0 (leBytes 4 c.dw0 ++ leBytes 1 c.sct ++ leBytes 1 c.sc)
    match cmd with
    | .identify nsid cns => let r := s.identifyCmd p nsid cns; end_ s r.1 r.2
    | .logPage nsid lid => let r := s.logPageCmd p nsid lid; end_ r.1 r.2.1 r.2.2
    | .getFeatures fid sel => end_ s (s.getFeature p fid sel) none
    | .setFeatures fid v => let r := s.setFeature p fid v []; end_ r.1 r.2.1 r.2.2
    | .download offset data => let r := s.downloadCmd 2 offset data; end_ r.1 r.2 none
    | .commit slot action verifies =>
      if s.fls.op.isSome ∨ s.fls.suspended.isSome then end_ s (codeCpl 0x401) none
      else
        let r := s.commitAct slot action 1 verifies
        let ok := r.2.2.sct == 0 && r.2.2.sc == 0
        let s := end_ r.1 r.2.2 none
        if !ok then s
        else if s.rbit clkBoot 4 then s.clusterReset
        else if action = 3 then s.activateStart 0 r.2.1
        else s)

/-- MI_ABORT: the request of the tag is forgotten. -/
def execMiAbort (tag : Fin 8) (s : State) : Host.Outcome State Fault Refusal := .next (s.mgtSend tag tag 0 [0])

/-- MI_GET_STATE: requests outstanding. -/
def execMiGetState (tag : Fin 8) (s : State) : Host.Outcome State Fault Refusal :=
  .next ((s.count (mgtCtr 1)).emit (.mgtReply tag 0 [BitVec.ofNat 8 s.mgt.msgs.length]))

/-! ## Brodvon packets (R545, R546) -/

/-- A request passes the checks of R546 in their order: its lock, LENGTH, parameters and reserved bytes, and then its own statuses.
A wrong IANA number or VERSION is a violation (Table 19.4). -/
def State.mgtReq (s : State) (h : MgtHdr) (lock : Option Nat) (params : Bool) (f : State → State × Nat × List Byte) : State :=
  if h.iana ≠ 0x0001B7C3 ∨ h.version ≠ 1 then s.mgtViolate 9
  else
    let reply (s : State) (st : Nat) (data : List Byte) : State :=
      let m := match s.mgt.msgs with
        | (t, 0x7F) :: _ => t
        | _ => 16
      s.mgtSend m h.tag st data
    if (match lock with
      | some k => s.rbit mgtLock k
      | none => false) then reply s 0x303 []
    else if !h.lengthOk then reply s 0x301 []
    else if !h.reservedOk ∨ !params then reply s 0x302 []
    else
      let r := f s
      reply r.1 r.2.1 r.2.2

/-- MGT_UNLISTED_OPCODE. -/
def execMgtUnlistedOpcode (h : MgtHdr) (s : State) : Host.Outcome State Fault Refusal :=
  .next (s.mgtReq { h with lengthOk := true, reservedOk := true } none true fun s => (s, 0x300, []))

/-- GET_INFO. -/
def execGetInfo (h : MgtHdr) (s : State) : Host.Outcome State Fault Refusal :=
  .next (s.mgtReq h none true fun s => (s, 0, s.otpBytes 0 20 ++ s.otpBytes 26 1 ++ ((s.slotHeader s.clk.slot).drop 16).take 8 ++
    leBytes 8 s.alm.seq.toNat ++ leBytes 1 s.level ++ leBytes 4 (s.reg clkBoot).toNat ++ leBytes 4 (s.reg mgtLock).toNat))

/-- Entries whose last byte lies in a programmed page (R533). -/
def State.flashEntries (s : State) : List AlmEntry := s.alm.entries.filter fun e => match e.page with
  | some p => decide (p < (s.reg almFlashPage).toNat)
  | none => false

/-- The last SEQ that every mirror still recording holds (Table 19.6). -/
def State.mirrorLast (s : State) : Nat :=
  let ms := ((upto 4).filter s.mirrorTakes).map fun a => tget (fun _ => 0) s.alm.mirrorSeq a
  match ms.min? with
  | some m => if m = 0 then 2 ^ 64 - 1 else m - 1
  | none => 2 ^ 64 - 1

/-- ALM_INFO. -/
def execAlmInfo (h : MgtHdr) (s : State) : Host.Outcome State Fault Refusal :=
  .next (s.mgtReq h none true fun s =>
    let es := s.flashEntries
    let at_ (e : Option AlmEntry) : Nat := match e with
      | some e => e.seq.toNat
      | none => 2 ^ 64 - 1
    (s, 0, leBytes 8 (at_ es.head?) ++ leBytes 8 (at_ es.getLast?) ++ leBytes 8 s.mirrorLast ++ leBytes 4 (s.reg almFlashPage).toNat ++
      leBytes 4 (s.reg almStatus).toNat))

/-- Whole entries, in order, up to a number of bytes. -/
def fitEntries : List AlmEntry → Nat → List Byte
  | [], _ => []
  | e :: es, room => if e.bytes.length ≤ room then e.bytes ++ fitEntries es (room - e.bytes.length) else []

/-- An entry is held in a mirror only: its page is not in flash, and it is no longer for LPDDR6 to hold (R533, R551). -/
def State.mirrorOnly (s : State) (e : AlmEntry) : Bool :=
  e.page.isNone && (upto 4).any fun a => decide (e.seq.toNat < tget (fun _ => 0) s.alm.mirrorSeq a)

/-- ALM_READ: an entry that only a mirror holds can be read at PL0 and PL1 only (R551). -/
def execAlmRead (h : MgtHdr) (seq : BitVec 64) (max_ : Nat) (s : State) : Host.Outcome State Fault Refusal :=
  .next (s.mgtReq h none (decide (64 ≤ max_) && decide (max_ ≤ 1060)) fun s =>
    match s.alm.entries.filter fun e => decide (seq.toNat ≤ e.seq.toNat) with
    | [] => (s, 0, [])
    | e :: es =>
      let away (e : AlmEntry) : Bool := s.mirrorOnly e && decide (1 < s.level)
      if away e then (s, 0x307, [])
      else if max_ < e.bytes.length then (s, 0, e.bytes)
      else (s, 0, fitEntries ((e :: es).takeWhile fun e => !away e) max_))

/-- ALM_APPEND. -/
def execAlmAppend (h : MgtHdr) (code : BitVec 16) (payload : List Byte) (s : State) : Host.Outcome State Fault Refusal :=
  .next (s.mgtReq h none (decide (0x8080 ≤ code.toNat) && decide (code.toNat ≤ 0x80FF) && decide (payload.length ≤ 492)) fun s =>
    let was := s.alm.seq
    let s := s.almAccept { code := code, length := BitVec.ofNat 16 payload.length, payload := payload } 9
    (s, 0, leBytes 8 (if s.alm.seq = was then 2 ^ 64 - 1 else was.toNat)))

/-! ## Images (R548) -/

/-- IMAGE_WRITE. DEDUCED: data for another TARGET than the one being staged is out of sequence. -/
def execImageWrite (h : MgtHdr) (target offset : Nat) (data : List Byte) (s : State) : Host.Outcome State Fault Refusal :=
  .next (s.mgtReq h (some 1) (decide (target ≤ 3) && decide (1 ≤ data.length) && decide (data.length ≤ 1024)) fun s =>
    let have_ := if s.fw.stageOwner = 1 then s.stagedBytes.length else 0
    if !s.stageFree 1 then (s, 0x305, [])
    else if offset ≠ have_ ∨ (have_ ≠ 0 ∧ target ≠ s.mgt.target) then (s, 0x306, [])
    else ((s.stagePut 1 offset data).modMgt fun m => { m with target := target }, 0, []))

/-- The first block of a partition and its blocks (Table 17.4). -/
def partitionBlocks (target : Nat) : Nat × Nat := lget (0, 0) [(0, 64), (128, 16), (148, 12), (160, 8)] target

/-- A commit of what is staged: an image as R498 with REASON 3; a partition is verified, erased and programmed, to be loaded at the
next cluster reset. The answer's second part is the status. -/
def State.imageAct (s : State) (target action : Nat) (verifies : Bool) : State × Nat :=
  if !(target = 0 ∧ action = 2) && (s.fw.stageOwner != 1 || s.stagedBytes.isEmpty || s.mgt.target != target) then (s, 0x306)
  else if s.fls.op.isSome || s.fls.suspended.isSome then (s, 0x401)
  else if target = 0 then
    let r := s.commitAct 0 action 3 verifies
    (r.1, if r.2.2.sct = 0 ∧ r.2.2.sc = 0 then 0 else 0x40A)
  else if s.headerVerifies s.stagedBytes false && verifies then
    let b := partitionBlocks target
    ((s.writeImage b.1 b.2 s.stagedBytes).stageDrop, 0)
  else (s, 0x40A)

/-- IMAGE_COMMIT. Action 3 activates the image (R408); in recovery mode actions 1 and 3 end in a cluster reset (R484). -/
def execImageCommit (h : MgtHdr) (target action : Nat) (verifies : Bool) (s : State) : Host.Outcome State Fault Refusal :=
  .next (
    let ok := if target = 0 then decide (action ≤ 3) else decide (target ≤ 3) && action == 1
    let done := s.mgtReq h (some 1) ok fun s =>
      let r := s.imageAct target action verifies
      (r.1, r.2, [])
    let slot := match s.committedSlot with
      | some k => 1 - k
      | none => 0
    let good := h.iana == 0x0001B7C3 && h.version == 1 && !s.rbit mgtLock 1 && h.lengthOk && h.reservedOk && ok && target == 0 &&
      (s.imageAct target action verifies).2 == 0
    if good && s.rbit clkBoot 4 && (action = 1 || action = 3) then done.clusterReset
    else if good && action = 3 then done.activateStart 0 slot
    else done)

/-- STAGING_TIMEOUT. -/
def execStagingTimeout (s : State) : Host.Outcome State Fault Refusal := .next s.stageDrop

/-! ## Network and keys (R549) -/

/-- The 30 bytes of NET_SET's fields (Table 19.6). -/
def netCfgBytes (c : NetCfg) : List Byte :=
  leBytes 1 c.flags ++ leBytes 4 c.ipv4.toNat ++ leBytes 1 c.prefix4 ++ leBytes 4 c.gateway.toNat ++ (c.ipv6 ++ List.replicate 16 0).take 16 ++
    leBytes 1 c.prefix6 ++ leBytes 2 c.vlan ++ leBytes 1 c.pfc

/-- MGT_CONFIG: the opcode and the first 16 parameter bytes, in 0 where there are fewer (Table 19.2). DEDUCED: appended when the
command is done. -/
def State.mgtConfig (s : State) (op : Nat) (params : List Byte) : State :=
  s.almanac 0x8008 0xFFFF 0 [(4, op), (8, leNat (params.take 8)), (8, leNat ((params.drop 8).take 8))]

/-- A PLAN entry as JUB_PLAN carries it (Table 15.3). -/
def planEntBytes (e : PlanEnt) : List Byte :=
  leBytes 4 e.src ++ leBytes 4 e.dst ++ leBytes 4 e.first ++ leBytes 4 e.count ++ leBytes 1 e.kind ++ List.replicate 15 0

/-- NET_SET: kept in the Vigil bank, in force from the port's next enable. -/
def execNetSet (h : MgtHdr) (port : Nat) (c : NetCfg) (s : State) : Host.Outcome State Fault Refusal :=
  .next (s.mgtReq h (some 2) (decide (port ≤ 3) && decide (c.flags < 16) && decide (c.prefix4 ≤ 32) && decide (c.prefix6 ≤ 128) &&
      decide (c.vlan ≤ 4095) && decide (c.pfc ≤ 7)) fun s =>
    let l := netCfgBytes c ++ [0, 1]
    ((s.each (upto 8) fun s i => s.setBank (netWord port i) (BitVec.ofNat 32 (leNat ((l.drop (4 * i)).take 4)))).mgtConfig 0x30
      (leBytes 1 port ++ netCfgBytes c), 0, []))

/-- NET_GET: the settings, and the addresses in use: the static ones, or those that DHCPv4 and SLAAC have brought. -/
def execNetGet (h : MgtHdr) (port : Nat) (ipv4 : W) (ipv6 : List Byte) (s : State) : Host.Outcome State Fault Refusal :=
  .next (s.mgtReq h none (decide (port ≤ 3)) fun s =>
    let b := (s.netBytes port ++ List.replicate 30 0).take 30
    let u := ((s.hifP port).net ++ List.replicate 30 0).take 30
    let v4 := if (lget 0 u 0).toNat.testBit 0 then leBytes 4 ipv4.toNat else (u.drop 1).take 4
    let v6 := if (lget 0 u 0).toNat.testBit 1 then (ipv6 ++ List.replicate 16 0).take 16 else (u.drop 10).take 16
    (s, 0, b ++ v4 ++ v6))

/-- PSK_SET: the key is wrapped and kept in the key store, and unwrapped into the TLS key table (R504, R506). -/
def execPskSet (h : MgtHdr) (index hash : Nat) (identity key : List Byte) (entropyOk : Bool) (s : State) :
    Host.Outcome State Fault Refusal :=
  .next (s.mgtReq h (some 3) (decide (index ≤ 15) && decide (hash ≤ 1) && decide (1 ≤ identity.length) && decide (identity.length ≤ 128) &&
      (key.length == 32 || key.length == 48)) fun s =>
    if !entropyOk then (s, 0x40F, [])
    else
      let r := s.drawKey
      ((r.1.modSec fun c => { c with
        psk := tset (fun _ => []) c.psk index r.2, pskStore := (c.pskStore.filter fun e => e.1 != index) ++ [(index, r.2)]
        pskIds := tset (fun _ => []) c.pskIds index (BitVec.ofNat 8 hash :: identity) }).mgtConfig 0x32
          ([BitVec.ofNat 8 index, BitVec.ofNat 8 hash, BitVec.ofNat 8 identity.length, BitVec.ofNat 8 key.length] ++ identity ++ key), 0, []))

/-- PSK_CLEAR. -/
def execPskClear (h : MgtHdr) (index : Nat) (s : State) : Host.Outcome State Fault Refusal :=
  .next (s.mgtReq h (some 3) (decide (index ≤ 15)) fun s =>
    ((s.modSec fun c => { c with
      psk := tset (fun _ => []) c.psk index [], pskStore := c.pskStore.filter fun e => e.1 != index
      pskIds := tset (fun _ => []) c.pskIds index [] }).mgtConfig 0x33 (leBytes 1 index), 0, []))

/-- JUB_PLAN (R549). -/
def execJubPlan (h : MgtHdr) (link : Nat) (entries : List PlanEnt) (s : State) : Host.Outcome State Fault Refusal :=
  .next (s.mgtReq h none (decide (link ≤ 1) && decide (1 ≤ entries.length) && decide (entries.length ≤ 64) &&
      entries.all fun e => decide (e.kind ≤ 1)) fun s =>
    let st := s.jubSt link
    if !s.jubSrc link ∨ (3 ≤ st ∧ st ≤ 5) then (s, 0x305, [])
    else
      let n := planZones entries
      (((s.modJub link fun l => { l with plan := entries }).setReg (jubL link 0xC) (BitVec.ofNat 32 n)).mgtConfig 0x38
        (leBytes 1 link ++ leBytes 1 entries.length ++ (entries.map planEntBytes).flatten), 0, leBytes 4 n))

/-! ## OTP and power (R550, R551) -/

/-- OTP_PROGRAM: words of sectors 3 to 5 and their lock words. -/
def execOtpProgram (h : MgtHdr) (word : Nat) (value : BitVec 32) (s : State) : Host.Outcome State Fault Refusal :=
  .next (s.mgtReq h (some 4) (decide (word ≤ 1023)) fun s =>
    let sector := word / 128
    let lockWord := decide (899 ≤ word) && decide (word ≤ 901)
    if !(3 ≤ sector ∧ sector ≤ 5) ∧ !lockWord then (s, 0x304, [])
    else if s.otpLocked sector then (s, 0x407, [])
    else ((s.otpSet word value).almanac 0x8007 0xFFFF 0 [(4, word), (4, value.toNat)], 0, []))

/-- OTP_READ: sector 1 reads 0. -/
def execOtpRead (h : MgtHdr) (word count : Nat) (s : State) : Host.Outcome State Fault Refusal :=
  .next (s.mgtReq h none (decide (1 ≤ count) && decide (count ≤ 64) && decide (word + count ≤ 1024)) fun s =>
    (s, 0, ((upto count).map fun i => leBytes 4 (if (word + i) / 128 = 1 then 0 else (s.otpWord (word + i)).toNat)).flatten))

/-- POWER_REQ: the reply is sent before an entry begins (R551). -/
def execPowerReq (h : MgtHdr) (level : Nat) (s : State) : Host.Outcome State Fault Refusal :=
  .next (
    let ok := level == 0 || level == 5 || level == 6
    let bad := if level = 5 then !s.isIdle || s.pwr.exit.isSome || decide (4 < s.level)
      else level == 6 && (!s.holdOk || s.pwr.entry.isSome || s.pwr.exit.isSome || decide (4 < s.level))
    let r := s.mgtReq h (some 0) ok fun s => (s, if bad then 0x30 else 0, [])
    if h.iana ≠ 0x0001B7C3 ∨ h.version ≠ 1 ∨ s.rbit mgtLock 0 ∨ !h.lengthOk ∨ !h.reservedOk ∨ !ok then r
    else if level = 0 then r.wakeBy 7
    else if level = 5 then r.pl5Request
    else r.holdRequest)

/-! ## Address and readiness (R541, R544) -/

/-- DYNAMIC_ADDRESS_ASSIGNMENT. -/
def execDynamicAddressAssignment (addr : Fin 128) (s : State) : Host.Outcome State Fault Refusal :=
  .next (if s.dbg.mgtMode && s.rbit mgtStatus 0 then (s.setRbit mgtStatus 2 true).setRfld mgtStatus 11 7 addr else s)

/-- MANAGEMENT_PORT_READY. -/
def execManagementPortReady (s : State) : Host.Outcome State Fault Refusal :=
  .next (if s.pwr.off.testBit 0 then s else
    let s := s.setRbit mgtStatus 0 true
    s.onlyIf (!s.dbg.mgtMode) fun s => s.setRbit mgtStatus 2 true)

end Sys2Proof.Machine
end

