-- ==== Sys2Proof/Machine/Ord.lean ====
section
/-!
DEFINITION. Ordo media sequencers: the MOP queue, the microwords, the gate placer, ticks and the dispatcher (chapter 9).
-/
namespace Sys2Proof.Machine

/-! ## The MOP queue (R270 to R276) -/

/-- Occupied slots (R272). -/
def Ord.used (o : Ord) : Nat := o.queue.length + o.cpls.length + (if o.mop.isSome then 1 else 0)

/-- The engine is Halted: RUN 0 and no MOP admitted or running (R276). -/
def State.halted (s : State) (n : Nat) : Bool := !s.rbit (ordCtrl n) 0 && (s.ordP n).mop.isNone

/-- Why the hardware refuses a descriptor at commit, 0 if it does not (R273). -/
def Ord.refusal (o : Ord) (m : Mop) : Nat :=
  if m.opcode = 0 ∨ !bitAt (o.word m.opcode) 16 then 0x1B1
  else if fld m.w0 26 6 ≠ 0 ∨ fld m.w3 24 8 ≠ 0 ∨ 5 ≤ fld m.w0 20 3 ∨ m.area = 3 then 0x1B2
  else 0

/-- Refused descriptors at the head complete while no MOP is before them (R273). -/
def State.flushIfIdle (s : State) (n : Nat) : State :=
  if (s.ordP n).mop.isNone then s.flushRefused n (s.ordP n).queue.length else s

/-- MOP_SUBMIT: the four words are committed into a slot, or dropped when 64 are occupied (R272, R273). -/
def State.mopSubmit (s : State) (n : Nat) (w3 : W) : State :=
  let o := s.ordP n
  let w := fun i => tget (fun _ => 0) o.submit i
  let m : Mop := { w0 := w 0, w1 := w 1, w2 := w 2, w3 := w3 }
  let s := s.modOrd n fun o => { o with submit := tset (fun _ => 0) o.submit 3 w3 }
  if 64 ≤ o.used then s.raise (ordInt n) 1
  else (s.modOrd n fun o => { o with queue := o.queue ++ [{ m with refused := o.refusal m }] }).flushIfIdle n

/-- MOP_SUBMIT. -/
def execMopSubmit (n : Fin 4) (w3 : BitVec 32) (s : State) : Host.Outcome State Fault Refusal := .next (s.mopSubmit n w3)

/-- The parameter blocks held, as ORD_PBLK_HELD shows them (R270). -/
def Ord.pblkHeld (o : Ord) (b : Nat) : Bool :=
  o.queue.any (fun m => m.pblkNo == b) || o.cpls.any (fun c => c.pblk == b) ||
  (match o.mop with
    | some m => m.pblkNo == b
    | none => false)

/-- ORD_CPL_POP: the oldest completion, its slot and its hold go (R270, R272). -/
def execOrdCplPop (n : Fin 4) (s : State) : Host.Outcome State Fault Refusal :=
  .next (s.modOrd n fun o => { o with cpls := o.cpls.drop 1 })

/-- RUN is set or cleared: clearing it stops admission, so that a MOP not yet admitted stands at the head of the queue again (R275, R276). -/
def State.ordRun (s : State) (n : Nat) (run : Bool) : State :=
  (s.setRbit (ordCtrl n) 0 run).onlyIf (!run) fun s => s.leaveGov n fun s m => s.modOrd n fun o => { o with queue := m :: o.queue }

/-- ORD_RUN (R276). -/
def execOrdRun (n : Fin 4) (run : Bool) (s : State) : Host.Outcome State Fault Refusal := .next (s.ordRun n run)

/-- ORD_CANCEL: ignored when no MOP is running or its end sequence has begun (R282). -/
def execOrdCancel (n : Fin 4) (s : State) : Host.Outcome State Fault Refusal :=
  .next (s.onlyIf (s.mopInFlight n) fun s => s.fatalEvent n 4 0x1B5)

/-- RETURN_QUEUED: every MOP not yet admitted returns with ORDO_CANCELLED (R274). -/
def execReturnQueued (n : Fin 4) (s : State) : Host.Outcome State Fault Refusal :=
  .next ((s.returnAdmitting n 0x1B5).returnQueued n 0x1B5)

/-- ORD_FAULT and its interrupt: the PC and the status of a fault (R285). -/
def State.ordFaultSeen (s : State) (n status : Nat) : State :=
  (s.setReg (regAddr (bORD n) 0x1C) (BitVec.ofNat 32 ((s.ordP n).pc % 2 ^ 14 + 65536 * status))).raise (ordInt n) 3

/-- A fault of R285 ends the MOP and records the PC; a microword fault also clears RUN. -/
def State.ordFault (s : State) (n status : Nat) : State :=
  let s := s.ordFaultSeen n status
  let s := s.onlyIf (status == 0x1B3) fun s => s.setRbit (ordCtrl n) 0 false
  s.mopEnd n status

/-- The cells a REPLAY_STRIPE reserves: 17 for each masked position (Table 12.3). -/
def Mop.replayCells (m : Mop) : Nat := if m.opcode = 3 then 17 * popCount 12 m.count else 0

/-- The head MOP passes to the governor (R217, R218, R275): a MOP of cost 0 waits behind nobody. -/
def State.toGovernor (s : State) (n : Nat) (m : Mop) : State :=
  let c := s.govCost n (s.ordP n) m
  if c.1 + c.2 = 0 ∧ s.rfld actGovUsed 0 16 ≤ s.rfld actGovBudget 0 16 then s.startMop n 0 0
  else
    let w : GovWait := { act := n, run := c.1, seek := c.2 }
    let s := { s with gov := s.gov ++ [w] }
    let s := s.govAdmit
    s.onlyIf (s.gov.any fun w => w.act == n) fun s => s.raise actInt 4

/-- A READ_STRIPE for the zone's pivot partner that R220 does not allow: the group has no alternate, or the actuator may not read for its
partner. -/
def State.altRefused (s : State) (n : Nat) (m : Mop) : Bool :=
  let o := s.ordP n
  let g := fld (o.word (15360 + 32 * m.pblkNo + 6)) 0 4
  let map := (o.word (15360 + 32 * m.pblkNo + 4)).toNat + (o.word (15360 + 32 * m.pblkNo + 5)).toNat * 2 ^ 32
  m.opcode == 1 && m.alt && !(s.altReady n ((upto g).map fun p => (map >>> (5 * p)) % 32) && match s.groupOf m.zoneTag with
    | some g => g.alt
    | none => false)

/-- A parameter block is read from the store: whether a word of it is uncorrectable (R267, R285). -/
def State.pblkRead (s : State) (n b : Nat) : State × Bool :=
  (upto 16).foldl (fun r i =>
    let x := r.1.sramRead (22 + n) (7680 + 16 * b + i) .clean
    (x.1, r.2 || eccBad x.2)) (s, false)

/-- MOP_ADMISSION: the head is returned by a disabled actuator, or as an alternate read that is not allowed, refused, kept for want of cells, or copied and passed to
the governor (R274, R275, R285, R359). -/
def State.mopAdmission (s : State) (n : Nat) (find : EccFind) : State :=
  let s := s.flushIfIdle n
  let o := s.ordP n
  if !s.rbit (ordCtrl n) 0 ∨ o.mop.isSome then s
  else match o.queue with
    | [] => s
    | m :: ms =>
      let pop := s.modOrd n fun o => { o with queue := ms }
      let entry := pop.sramRead (22 + n) (m.opcode / 2) find
      let blk := entry.1.pblkRead n m.pblkNo
      if s.actSt n = 6 ∨ s.disPending n then pop.returnMop n m 0x192
      else if s.altRefused n m then pop.returnMop n m 0x193
      else if eccBad entry.2 || blk.2 then (blk.1.ordFaultSeen n 0x1B4).returnMop n m 0x1B4
      else match (if m.replayCells = 0 then RsvOutcome.granted else s.rsvOutcome (48 + n) m.replayCells) with
        | .tooLarge => pop.returnMop n m 0x22
        | .disabled => s
        | .waits => s
        | .granted =>
          let s := blk.1.reserve (48 + n) m.replayCells
          let s := s.modOrd n fun o => { o with
            mop := some m, phase := .admitting
            pblk := (upto 32).foldl (fun t i => tset (fun _ => 0) t i (o.word (15360 + 32 * m.pblkNo + i))) [] }
          s.toGovernor n m

/-- MOP_ADMISSION. -/
def execMopAdmission (n : Fin 4) (find : EccFind) (s : State) : Host.Outcome State Fault Refusal := .next (s.mopAdmission n find)

/-- Write a word of the store. -/
def State.putStore (s : State) (n w : Nat) (v : W) : State :=
  (s.modOrd n fun o => { o with store := xorPair (tset (fun _ => 0) o.store w v) (w / 2) (s.sramFlip (22 + n) (w / 2)) }).sramWrote (22 + n) (w / 2)

/-- A write of a store word: microcode only while Halted, a held block never (R267, R268, R270). -/
def State.storeWrite (s : State) (n w : Nat) (v : W) : State :=
  if w < 15360 then
    if s.halted n then s.putStore n w v
    else s.raise (ordInt n) 5
  else if (s.ordP n).pblkHeld ((w - 15360) / 32) then s.raise (ordInt n) 2
  else s.putStore n w v

/-- ORD_WIN_WRITE: ORD_PAGE selects the half of the store (R267). -/
def execOrdWinWrite (n : Fin 4) (word : Fin 8192) (v : BitVec 32) (s : State) : Host.Outcome State Fault Refusal :=
  .next (s.storeWrite n (8192 * s.rfld (regAddr (bORD n) 0x14) 0 1 + word) v)

/-! ## Fetching and executing a microword (R284 to R286) -/

/-- The poll budget is spent: 1,024 microwords, or the second tick (R284). -/
def Ord.overrun (o : Ord) : Bool := decide (1024 ≤ o.budgetWords) || decide (2 ≤ o.budgetTicks)

/-- The MOP ends with ORDO_POLL_OVERRUN (R284). -/
def State.pollOverrun (s : State) (n : Nat) : State :=
  (((s.count (ordCtr n 1)).raise (ordInt n) 4)).mopEnd n 0x1B0

/-- Fields of a microword (Table 9.8). -/
def uop (w : W) : Nat := fld w 26 6
def uxd (w : W) : Nat := fld w 22 4
def uxa (w : W) : Nat := fld w 18 4
def uxb (w : W) : Nat := fld w 14 4
def uimm (w : W) : W := BitVec.ofInt 32 (sext 14 (fld w 0 14))
def uimm18 (w : W) : Nat := fld w 0 18

/-- Engine n fetches the microword at its PC, which must have one of the opcodes of `ok`: an
uncorrectable word ends the MOP, a spent budget too; otherwise one microword is counted and `f` executes it, the PC standing at the next (R284, R285). -/
def State.microword (s : State) (n : Nat) (find : EccFind) (ok : Nat → Bool) (f : State → W → State) : State :=
  let o := s.ordP n
  match o.phase with
  | .running =>
    let w := o.word o.pc
    if !ok (uop w) then s
    else if o.overrun then s.pollOverrun n
    else
      let r := s.sramRead (22 + n) (o.pc / 2) find
      let s := r.1
      if eccBad r.2 then s.ordFault n 0x1B4
      else f (s.modOrd n fun o => { o with pc := (o.pc + 1) % 16384, budgetWords := o.budgetWords + 1 }) w
  | .idle => s
  | .admitting => s
  | .waiting _ _ => s
  | .draining _ _ => s

/-- The PC of the microword being executed is restored for the record of its fault. -/
def State.uFault (s : State) (n : Nat) : State :=
  (s.modOrd n fun o => { o with pc := (o.pc + 16383) % 16384 }).ordFault n 0x1B3

/-- Write a result without flags. -/
def State.uSet (s : State) (n d : Nat) (v : W) : State := s.modOrd n fun o => o.setX d v

/-- Write an ALU result: Z and N follow it (R286). -/
def State.uAlu (s : State) (n d : Nat) (v : W) : State :=
  s.modOrd n fun o => { o.setX d v with z := v == 0, n := v.getLsbD 31 }

/-- Flags of a comparison (R286). -/
def State.uCmp (s : State) (n : Nat) (a b : W) : State :=
  s.modOrd n fun o => { o with z := a == b, n := a.slt b, c := a.ult b }

/-- Set Z. -/
def State.uZ (s : State) (n : Nat) (b : Bool) : State := s.modOrd n fun o => { o with z := b }

/-- A register of the engine. -/
def State.ux (s : State) (n i : Nat) : W := (s.ordP n).xr i

/-- NOP. -/
def execNop (n : Fin 4) (find : EccFind) (s : State) : Host.Outcome State Fault Refusal :=
  .next (s.microword n find (· == 0x00) fun s _ => s)
/-- LDI: IMM18, sign-extended. -/
def execLdi (n : Fin 4) (find : EccFind) (s : State) : Host.Outcome State Fault Refusal :=
  .next (s.microword n find (· == 0x01) fun s w => s.uSet n (uxd w) (BitVec.ofInt 32 (sext 18 (uimm18 w))))
/-- LUI: bits 31 to 18 from IMM18[13:0]. -/
def execLui (n : Fin 4) (find : EccFind) (s : State) : Host.Outcome State Fault Refusal :=
  .next (s.microword n find (· == 0x02) fun s w => s.uSet n (uxd w) (setFld (s.ux n (uxd w)) 18 14 (uimm18 w)))
/-- ADD. -/
def execAdd (n : Fin 4) (find : EccFind) (s : State) : Host.Outcome State Fault Refusal :=
  .next (s.microword n find (· == 0x03) fun s w => s.uAlu n (uxd w) (s.ux n (uxa w) + s.ux n (uxb w)))
/-- SUB. -/
def execSub (n : Fin 4) (find : EccFind) (s : State) : Host.Outcome State Fault Refusal :=
  .next (s.microword n find (· == 0x04) fun s w => s.uAlu n (uxd w) (s.ux n (uxa w) - s.ux n (uxb w)))
/-- AND. -/
def execAnd (n : Fin 4) (find : EccFind) (s : State) : Host.Outcome State Fault Refusal :=
  .next (s.microword n find (· == 0x05) fun s w => s.uAlu n (uxd w) (s.ux n (uxa w) &&& s.ux n (uxb w)))
/-- OR. -/
def execOr (n : Fin 4) (find : EccFind) (s : State) : Host.Outcome State Fault Refusal :=
  .next (s.microword n find (· == 0x06) fun s w => s.uAlu n (uxd w) (s.ux n (uxa w) ||| s.ux n (uxb w)))
/-- XOR. -/
def execXor (n : Fin 4) (find : EccFind) (s : State) : Host.Outcome State Fault Refusal :=
  .next (s.microword n find (· == 0x07) fun s w => s.uAlu n (uxd w) (s.ux n (uxa w) ^^^ s.ux n (uxb w)))
/-- ADDI. -/
def execAddi (n : Fin 4) (find : EccFind) (s : State) : Host.Outcome State Fault Refusal :=
  .next (s.microword n find (· == 0x08) fun s w => s.uAlu n (uxd w) (s.ux n (uxa w) + uimm w))
/-- ANDI: the immediate is zero-extended. -/
def execAndi (n : Fin 4) (find : EccFind) (s : State) : Host.Outcome State Fault Refusal :=
  .next (s.microword n find (· == 0x09) fun s w => s.uAlu n (uxd w) (s.ux n (uxa w) &&& BitVec.ofNat 32 (fld w 0 14)))
/-- SHLI. -/
def execShli (n : Fin 4) (find : EccFind) (s : State) : Host.Outcome State Fault Refusal :=
  .next (s.microword n find (· == 0x0A) fun s w => s.uAlu n (uxd w) (s.ux n (uxa w) <<< fld w 0 5))
/-- SHRI: logical. -/
def execShri (n : Fin 4) (find : EccFind) (s : State) : Host.Outcome State Fault Refusal :=
  .next (s.microword n find (· == 0x0B) fun s w => s.uAlu n (uxd w) (s.ux n (uxa w) >>> fld w 0 5))
/-- CMP. -/
def execCmp (n : Fin 4) (find : EccFind) (s : State) : Host.Outcome State Fault Refusal :=
  .next (s.microword n find (· == 0x0C) fun s w => s.uCmp n (s.ux n (uxa w)) (s.ux n (uxb w)))
/-- CMPI. -/
def execCmpi (n : Fin 4) (find : EccFind) (s : State) : Host.Outcome State Fault Refusal :=
  .next (s.microword n find (· == 0x0D) fun s w => s.uCmp n (s.ux n (uxa w)) (uimm w))

/-- Word i of the MOP's descriptor. -/
def Mop.word (m : Mop) (i : Nat) : W := if i = 0 then m.w0 else if i = 1 then m.w1 else if i = 2 then m.w2 else m.w3

/-- LDD. -/
def execLdd (n : Fin 4) (find : EccFind) (s : State) : Host.Outcome State Fault Refusal :=
  .next (s.microword n find (· == 0x0E) fun s w => match (s.ordP n).mop with
    | some m => s.uSet n (uxd w) (m.word (fld w 0 2))
    | none => s)
/-- LDP. -/
def execLdp (n : Fin 4) (find : EccFind) (s : State) : Host.Outcome State Fault Refusal :=
  .next (s.microword n find (· == 0x0F) fun s w => s.uSet n (uxd w) ((s.ordP n).pb (fld w 0 5)))

/-- Slots of the actuator with held sectors (Table 9.11). -/
def State.heldSlots (s : State) (n : Nat) : Nat :=
  (upto 24).foldl (fun m h => if (s.slot n h).holds then m ||| (1 <<< h) else m) 0

/-- The specials of Table 9.11. -/
def State.special (s : State) (n i : Nat) : W :=
  if i = 0 then BitVec.ofNat 32 s.ltime.toNat
  else if i = 1 then BitVec.ofNat 32 (s.ordP n).tickWedge
  else if i = 2 then s.reg (wpaPosV n) else if i = 3 then s.reg (wpaPosW n) else if i = 4 then s.reg (wpaPosM n)
  else if i = 5 then (match (s.ordP n).reloc with
    | some x => BitVec.ofNat 32 x
    | none => 0xFFFFFFFF)
  else if i = 6 then BitVec.ofNat 32 (s.rfld (actGang n) 0 24)
  else if i = 7 then BitVec.ofNat 32 (s.heldSlots n)
  else if i = 8 then BitVec.ofNat 32 (s.actSt n)
  else if i = 9 then BitVec.ofNat 32 (s.wpaP n).sealStatus
  else 0

/-- LDS. -/
def execLds (n : Fin 4) (find : EccFind) (s : State) : Host.Outcome State Fault Refusal :=
  .next (s.microword n find (· == 0x10) fun s w => s.uSet n (uxd w) (s.special n (fld w 0 4)))

/-! ## Branches (Table 9.9, R285) -/

/-- A branch condition, none when reserved. -/
def Ord.cond (o : Ord) (c : Nat) : Option Bool :=
  if c = 0 then some true else if c = 1 then some o.z else if c = 2 then some !o.z else if c = 3 then some o.n
  else if c = 4 then some !o.n else if c = 5 then some o.c else if c = 6 then some !o.c else none

/-- A branch target lies in the microcode. -/
def targetOk (t : Nat) : Bool := decide (64 ≤ t) && decide (t ≤ 15359)

/-- BR: a reserved condition and a target outside 64 to 15,359 are faults. -/
def execBr (n : Fin 4) (find : EccFind) (s : State) : Host.Outcome State Fault Refusal :=
  .next (s.microword n find (· == 0x11) fun s w => match (s.ordP n).cond (uxd w) with
    | none => s.uFault n
    | some false => s
    | some true => if targetOk (fld w 0 14) then s.modOrd n fun o => { o with pc := fld w 0 14 } else s.uFault n)

/-- CALL: COND must be 0; the stack holds 8 return addresses. -/
def execCall (n : Fin 4) (find : EccFind) (s : State) : Host.Outcome State Fault Refusal :=
  .next (s.microword n find (· == 0x12) fun s w =>
    if uxd w ≠ 0 ∨ !targetOk (fld w 0 14) ∨ 8 ≤ (s.ordP n).stack.length then s.uFault n
    else s.modOrd n fun o => { o with stack := o.pc :: o.stack, pc := fld w 0 14 })

/-- RET: an empty stack is a fault. -/
def execRet (n : Fin 4) (find : EccFind) (s : State) : Host.Outcome State Fault Refusal :=
  .next (s.microword n find (· == 0x13) fun s _ => match (s.ordP n).stack with
    | [] => s.uFault n
    | r :: rs => s.modOrd n fun o => { o with stack := rs, pc := r })

/-! ## POLL and WAIT (R281 to R284) -/

/-- POLL: a latched fatal event ends the MOP; otherwise the notices are copied and cleared and the budget starts anew. -/
def State.poll (s : State) (n d : Nat) : State :=
  if (s.ordP n).fatal ≠ 0 then s.mopEnd n (s.ordP n).fatal
  else
    let v := s.rfld (ordEvtPend n) 0 5
    let s := s.setRfld (ordEvtPend n) 0 5 0
    s.modOrd n fun o => { o.setX d (BitVec.ofNat 32 v) with z := v == 0, budgetWords := 0, budgetTicks := 0 }

/-- POLL. -/
def execPoll (n : Fin 4) (find : EccFind) (s : State) : Host.Outcome State Fault Refusal :=
  .next (s.microword n find (· == 0x14) fun s w => s.poll n (uxd w))

/-- Distinct stripes whose gates the placer holds: not yet ended (R288). -/
def State.placerStripes (s : State) (n : Nat) : List Nat :=
  ((s.ordP n).gates.filter fun g => decide (s.now < g.stop) || g.guard).foldl
    (fun l g => if l.contains g.stripe then l else l ++ [g.stripe]) []

/-- Cells can be reserved now for a GATE: `sec` in the sector queue and `wr` in the write queue (R359). -/
def State.gateFits (s : State) (n sec wr : Nat) : Bool :=
  (sec == 0 || s.rsvOutcome (48 + n) sec == .granted) && (wr == 0 || s.rsvOutcome (52 + n) wr == .granted)

/-- A WAIT condition holds (Table 9.10), none when reserved. -/
def State.waitCond (s : State) (n c : Nat) (xa : W) : Option Bool :=
  let o := s.ordP n
  if c = 0 then some false
  else if c = 1 then some (s.actP n).settled
  else if c = 2 then some (o.gates.all fun g => decide (g.stop ≤ s.now) && !g.guard)
  else if c = 3 then some (decide (xa.toNat ≤ (s.reg (wpaPosV n)).toNat))
  else if c = 4 then some (o.gates.all (fun g => !g.sent || decide (s.now < g.start)) && o.replays.isEmpty)
  else if c = 5 then some (decide ((s.placerStripes n).length < 32) && !(s.ulkP n).rateReq && s.gateFits n o.want.1 o.want.2)
  else none

/-- WAIT: a fatal event ends the MOP; a condition that holds returns at once with Z 1, a pending notice with Z 0;
otherwise the routine is suspended. -/
def State.uWait (s : State) (n c : Nat) (xa : W) : State :=
  if (s.ordP n).fatal ≠ 0 then s.mopEnd n (s.ordP n).fatal
  else match s.waitCond n c xa with
    | none => s.uFault n
    | some true => s.uZ n true
    | some false =>
      if s.rfld (ordEvtPend n) 0 5 ≠ 0 then s.uZ n false
      else s.modOrd n fun o => { o with phase := .waiting c xa, ticked := false }

/-- WAIT. -/
def execWait (n : Fin 4) (find : EccFind) (s : State) : Host.Outcome State Fault Refusal :=
  .next (s.microword n find (· == 0x15) fun s w => s.uWait n (uxd w) (s.ux n (uxa w)))

/-- The routine goes on with Z. -/
def State.resume (s : State) (n : Nat) (z : Bool) : State := s.modOrd n fun o => { o with phase := .running, z := z }

/-- WAIT_RETURN: on a fatal event the MOP ends; else the WAIT returns when its condition holds, at a tick or on a
pending notice. -/
def State.waitReturn (s : State) (n : Nat) : State :=
  match (s.ordP n).phase with
  | .waiting c xa =>
    if (s.ordP n).fatal ≠ 0 then s.mopEnd n (s.ordP n).fatal
    else if (s.ordP n).overrun then s.pollOverrun n
    else match s.waitCond n c xa with
      | some true => s.resume n true
      | _ => if (s.ordP n).ticked || s.rfld (ordEvtPend n) 0 5 != 0 then s.resume n false else s
  | .idle => s
  | .admitting => s
  | .running => s
  | .draining _ _ => s

/-- WAIT_RETURN. -/
def execWaitReturn (n : Fin 4) (s : State) : Host.Outcome State Fault Refusal := .next (s.waitReturn n)

/-! ## SEEK, GANG and STROBE (R208, R213 to R215, R287) -/

/-- SEEK to a track: held in Parked and Loading, the end of the MOP in Retracting and Disabled (R208); Guard hold issues no seek, and
holds it (R212; log 83). -/
def State.uSeek (s : State) (n : Nat) (track : W) : State :=
  let t : Int := 65536 * (track.toNat : Int)
  let st := s.actSt n
  if st = 5 then s.mopEnd n 0x181
  else if st = 6 then s.mopEnd n 0x192
  else if st ≤ 1 ∨ s.guardHolds n then s.setAct n { s.actP n with heldSeek := some t, settled := false }
  else s.seekTo n t

/-- SEEK. -/
def execSeek (n : Fin 4) (find : EccFind) (s : State) : Host.Outcome State Fault Refusal :=
  .next (s.microword n find (· == 0x16) fun s w => s.uSeek n (s.ux n (uxa w)))

/-- The shift of rung 7 (R215, Table 9.3). -/
def Mop.shift (m : Mop) : Int :=
  let k := fld m.w0 20 3
  if k = 1 then 3277 else if k = 2 then -3277 else if k = 3 then 6554 else if k = 4 then -6554 else 0

/-- The gang positions that a mask names, below G. -/
def Ord.gangPositions (o : Ord) (mask : Nat) : List Nat := (maskBits 12 mask).filter fun p => decide (p < o.g)

/-- GANG: refused for an offset out of range, a disabled head or a micro loop not enabled; else the mask and the
offsets are written (R213, R214, R287). -/
def State.uGang (s : State) (n d mask : Nat) : State :=
  let o := s.ordP n
  match o.mop with
  | none => s
  | some m =>
    let ps := o.gangPositions mask
    let off := fun p => (o.pb (8 + p)).toInt + m.shift
    let cfg := if 2 ≤ s.actSt n ∧ s.actSt n ≤ 4 then (s.actP n).settleCfg else s.reg (actReg n 0xC)
    let bad := ps.any fun p =>
      decide (65536 * fld cfg 24 8 < (off p).natAbs) || s.rbit (actHeaddis n) (o.gangHead p) ||
        !(s.loop (8 + 24 * n + o.gangHead p)).desc.enable
    if bad then s.mopEnd n 0x195
    else
      let heads := ps.foldl (fun a p => a ||| (1 <<< o.gangHead p)) 0
      let s := s.each ps fun s p => s.setReg (regAddr bACT (0x1000 + 0x100 * n + 4 * o.gangHead p)) (BitVec.ofInt 32 (off p))
      let s := s.setRfld (actGang n) 0 24 heads
      let s := s.setWpa n { s.wpaP n with gang := heads, dropped := (s.wpaP n).dropped &&& (0xFFFFFF ^^^ heads) }
      (s.uSet n d (BitVec.ofNat 32 heads)).rewindResume n

/-- GANG. -/
def execGang (n : Fin 4) (find : EccFind) (s : State) : Host.Outcome State Fault Refusal :=
  .next (s.microword n find (· == 0x17) fun s w => s.uGang n (uxd w) (s.ux n (uxa w)).toNat)

/-- A packet of a read or of a replay passes: at the G-th of a stripe it is tallied, and is good if none of them failed (R279). -/
def Ord.tallyRead (o : Ord) (stripe gpos : Nat) (bad : Bool) : Ord :=
  let o := if bad then o.tallyFail stripe gpos else o
  let x := tget (fun _ => 0) o.passed stripe
  let x := (x / 2 + 1) * 2 + (if x % 2 = 1 ∨ bad then 1 else 0)
  if o.g ≤ x / 2 then
    { o with passed := tset (fun _ => 0) o.passed stripe 0, stripesOk := if x % 2 = 0 then o.stripesOk + 1 else o.stripesOk }
  else { o with passed := tset (fun _ => 0) o.passed stripe x }

/-- STROBE: one strobe for each set bit of the mask, ascending. A REPLAY strobe leaves a packet to be delivered; one that a stopped CHN
drops leaves a sector that is not delivered, and has failed (R26). -/
def State.uStrobe (s : State) (n mask code : Nat) (wpa : Bool) : State :=
  s.each (maskBits 24 mask) fun s h =>
    if wpa then s.wpaStrobe n h code
    else
      let replay := decide (0x31 ≤ code) && decide (code ≤ 0x35)
      let s := s.onlyIf replay fun s => s.modOrd n fun o =>
        if s.gateOpen (bCHN n) then { o with replays := o.replays ++ [h] } else o.tallyRead (match o.mop with
          | some m => m.stripe
          | none => 0) (o.posOf h) true
      s.chnStrobe n h code

/-- STROBE. -/
def execStrobe (n : Fin 4) (find : EccFind) (s : State) : Host.Outcome State Fault Refusal :=
  .next (s.microword n find (· == 0x18) fun s w =>
    s.uStrobe n (s.ux n (uxd w)).toNat ((fld w 0 8 + fld (s.ux n (uxa w)) 0 8) % 256) (bitAt w 17))

/-! ## GATE (R288, R359) -/

/-- Channel bits as nanoseconds of link time at a rate in MHz. -/
def bitsNs (bits baud : Nat) : Nat := if baud = 0 then 0 else bits * 1000 / baud

/-- The end of `left` channel bits from offset `o` of a field that ended at `t`: what runs past WEDGE_BITS goes on at the end
of the next field. -/
def sectorEnd (wb tw baud : Nat) : Nat → Nat → Nat → Nat → Nat
  | 0, t, o, left => t + bitsNs (o + left) baud
  | k + 1, t, o, left =>
    if o + left ≤ wb then t + bitsNs (o + left) baud else sectorEnd wb tw baud k (t + tw) 0 (left - (wb - o))

/-- The parts of `left` channel bits: the time at which each starts, and its bits (R288). -/
def sectorParts (wb tw baud : Nat) : Nat → Nat → Nat → Nat → List (Nat × Nat)
  | 0, t, o, left => [(t + bitsNs o baud, left)]
  | k + 1, t, o, left =>
    if o + left ≤ wb then [(t + bitsNs o baud, left)] else (t + bitsNs o baud, wb - o) :: sectorParts wb tw baud k (t + tw) 0 (left - (wb - o))

/-- Parts moved by a time, of which the first begins `lead` bits earlier; a sector in one piece has none to tell. -/
def movedParts (shift lead baud : Nat) : List (Nat × Nat) → List (Nat × Nat)
  | p :: q :: ps => (p.1 + shift - bitsNs lead baud, p.2 + lead) :: (q :: ps).map fun x => (x.1 + shift, x.2)
  | _ => []

/-- The wedge period that the placer predicts with. -/
def State.placerTw (s : State) : Nat := if s.wedgePeriod = 0 then s.rfld svoTwMin 0 18 else s.wedgePeriod

/-- The end of a head's next servo field, which ends at the head's servo window + SVWIN ns, and the wedge it belongs to: the one after the
head's last (R193, R288). -/
def State.nextField (s : State) (n h : Nat) : Nat × Nat :=
  (tget (fun _ => 0) s.svo.window (24 * n + h) + s.rfld (ulkSvcfg n) 0 11, (s.fieldRx n h).wedge + 1)

/-- The field after which position `pos` starts under a head, as the time of its end, and the offset in bits from there: the field that
ended last, if a START `lead` ns before the position still comes at `least` or later, else the first after it (R288). -/
def State.positionField (s : State) (n h pos lead least : Nat) : Nat × Nat :=
  let o := s.ordP n
  let wb := (o.pb 20).toNat
  let d := (o.pb 21).toNat + 37200 * pos
  let k := if wb = 0 then 0 else d / wb
  let off := if wb = 0 then d else d % wb
  let was := tget (fun _ => (0, 0)) s.svo.fieldEnd (24 * n + h)
  let f := s.nextField n h
  let ahead := (k % s.wedges + s.wedges - f.2 % s.wedges) % s.wedges
  if was.2 % s.wedges = k % s.wedges ∧ least + lead ≤ was.1 + bitsNs off (fld (o.pb 7) 0 12) then (was.1, off)
  else (f.1 + ahead * s.placerTw, off)

/-- The first of the times t, t + rev, … that is at least `least`. -/
def firstFrom (t rev least : Nat) : Nat := if least ≤ t ∨ rev = 0 then t else t + ceilDiv (least - t) rev * rev

/-- The earliest START of a gate placed now (R288): GATE_LEAD, and for a write ARM_LEAD after the head's arming WARM. -/
def State.leastStart (s : State) (n h : Nat) (write : Bool) : Nat :=
  let a := s.now + 1000 * s.rfld (ordCfg n) 0 6
  if write then max a ((s.wpaH n h).warmAt.toNat + 10000 * s.rfld (wpaCfg n) 4 8) else a

/-- The gates of one head for a position: a read gate, or a write gate and the read-after-write gate behind it. A sector that a servo
field splits has a part in each wedge, under one GATE_ID. -/
def State.headGates (s : State) (n h pos stripe : Nat) (kind : GateKind) (id pass : Nat) : List Gate :=
  let o := s.ordP n
  let baud := fld (o.pb 7) 0 12
  let tw := s.placerTw
  let wb := (o.pb 20).toNat
  let lead := fld (s.slot n h).profTime 0 16
  let write := kind == .write || kind == .spare
  let f := s.positionField n h pos (if write then 0 else bitsNs lead baud) (s.leastStart n h write)
  let t0 := f.1 + bitsNs f.2 baud
  let start := firstFrom (if write then t0 else t0 - bitsNs lead baud) (s.rfld (regAddr bSVO 0x10) 0 10 * tw) (s.leastStart n h write)
  let base := if write then start else start + bitsNs lead baud
  let stop := base + (sectorEnd wb tw baud 64 f.1 f.2 37200 - t0)
  let ps := sectorParts wb tw baud 64 f.1 f.2 37200
  let g : Gate := {
    id := id, head := h, kind := kind, gpos := o.posOf h, stripe := stripe, spos := pos, start := start, stop := stop
    pass := pass, parts := movedParts (base - t0) (if write then 0 else lead) baud ps }
  if write then
    let back := bitsNs (fld (s.effReg (wpaHeadCfg n h)) 4 12) baud
    [g, { g with
      id := (id + 1) % 65536, kind := .raw, start := start + back - bitsNs lead baud, stop := stop + back
      parts := movedParts (base - t0 + back) lead baud ps }]
  else [g]

/-- BUF queues to WPA the packet that it keeps for a write gate: at its first placement and at every later one (R158, R172, R177). -/
def State.queuePackets (s : State) (n h stripe : Nat) : State :=
  match (s.ordP n).mop with
  | none => s
  | some m =>
    match s.fw.packets.find? fun x => x.eng == n && x.tag == m.zoneTag && x.stripe == stripe && x.head == h with
    | some x => s.put (52 + n) ⟨.bytes x.bytes, x.bytes.length, false⟩
    | none => s

/-- Place the gates of every head of a mask, after their cells are reserved (R288, Table 12.3). -/
def State.placeGates (s : State) (n mask pos stripe : Nat) (kind : GateKind) : State :=
  let pass := s.gatePass n stripe kind
  s.each (maskBits 24 mask) fun s h =>
    let o := s.ordP n
    let gs := s.headGates n h pos stripe kind o.nextGate pass
    let s := s.modOrd n fun o => { o with
      gates := o.gates ++ gs, nextGate := (o.nextGate + gs.length) % 65536, spareSent := o.spareSent || kind == .spare }
    s.onlyIf (kind != .read) fun s => s.queuePackets n h stripe

/-- GATE is refused: after DISABLE for a stripe whose gates have not begun to open, after SEALED for a WRITE (R281), while a
rewind stops new gates (R173), between RATE_REQ and RATE_DONE (R106), or when the placer is full (R288). -/
def State.gateRefused (s : State) (n stripe : Nat) (kind : GateKind) : Bool :=
  let o := s.ordP n
  let begun := o.gates.any fun g => g.stripe == stripe && g.sent && decide (g.start ≤ s.now)
  (o.refuseNew && !begun) || (kind == .write && (o.refuseWrite || (s.wpaP n).stopGates)) ||
  (s.ulkP n).rateReq || (decide (32 ≤ (s.placerStripes n).length) && !(s.placerStripes n).contains stripe)

/-- GATE for one position: places the gates with their reservations and sets Z 1, or places nothing and sets Z 0; a
reservation above a queue's MAX ends the MOP (R359). -/
def State.uGate (s : State) (n mask pos stripe : Nat) (kind : GateKind) : State :=
  let heads := (maskBits 24 mask).length
  let sec := 17 * heads
  let wr := if kind == .read then 0 else 17 * heads
  if s.gateRefused n stripe kind then s.uZ n false
  else if s.rsvOutcome (48 + n) sec = .tooLarge ∨ (wr ≠ 0 ∧ s.rsvOutcome (52 + n) wr = .tooLarge) then s.mopEnd n 0x22
  else if !s.gateFits n sec wr then (s.modOrd n fun o => { o with want := (sec, wr) }).uZ n false
  else
    let s := (s.reserve (48 + n) sec).reserve (52 + n) wr
    ((s.placeGates n mask pos stripe kind).modOrd n fun o => { o with want := (0, 0) }).uZ n true

/-- The kind of a GATE, none when reserved. -/
def gateKind (k : Nat) : Option GateKind :=
  if k = 0 then some .read else if k = 1 then some .write else if k = 2 then some .spare else none

/-- GATE: a reserved KIND is a microword fault. -/
def execGate (n : Fin 4) (find : EccFind) (s : State) : Host.Outcome State Fault Refusal :=
  .next (s.microword n find (· == 0x19) fun s w => match gateKind (fld w 12 2) with
    | some k => s.uGate n (s.ux n (uxd w)).toNat (s.ux n (uxa w)).toNat (s.ux n (uxb w)).toNat k
    | none => s.uFault n)

/-- The track and the position of a stripe of the MOP (R271). -/
def Ord.stripePlace (o : Ord) (m : Mop) (stripe : Nat) : Nat × Nat :=
  let k := fld (o.pb 1) 0 16 + (stripe - m.stripe)
  if o.sPerTrack = 0 then ((o.pb 0).toNat, k) else ((o.pb 0).toNat + k / o.sPerTrack, k % o.sPerTrack)

/-- A stripe waiting to be rewritten in place gets new gates for the whole gang, once the gang is on its track (R177, R271). -/
def State.rewriteInPlace (s : State) (n stripe : Nat) : State :=
  let o := s.ordP n
  match o.mop with
  | none => s
  | some m =>
    let mask := s.rfld (actGang n) 0 24
    let heads := (maskBits 24 mask).length
    let at_ := o.stripePlace m stripe
    let pos := at_.2
    if (s.actP n).target ≠ 65536 * (at_.1 : Int) ∨ (s.wpaP n).inhibitWait ∨ (s.ulkP n).rateReq ∨ !s.gateFits n (17 * heads) (17 * heads) then s
    else
      let s := (s.reserve (48 + n) (17 * heads)).reserve (52 + n) (17 * heads)
      let s := s.placeGates n mask pos stripe .write
      s.setWpa n { s.wpaP n with rewriteWait := (s.wpaP n).rewriteWait.filter (· != stripe) }

/-! ## LDBAND and FIN (R277, R289) -/

/-- LDBAND for AREA 0: the positions are loaded, or the MOP ends with ORDO_BAD_DESCRIPTOR; for other areas Z 1 (R170, R289). It is what
takes WPA_REWIND.STATE back to Idle: log 97. -/
def State.uLdband (s : State) (n : Nat) : State :=
  let o := s.ordP n
  match o.mop with
  | none => s
  | some m =>
    if m.area ≠ 0 then s.uZ n true
    else
      let sp := o.sPerTrack
      let v := (o.pb 3).toNat
      let mk := rewindMark sp v
      if m.stripe < mk ∨ v < m.stripe ∨ guardBound sp mk ≤ m.stripe then s.mopEnd n 0x1B2
      else
        let new := mk != (s.reg (wpaPosM n)).toNat || m.zoneTag != (s.wpaP n).zoneTag
        let s := (s.setRfld (wpaPosS n) 0 16 sp).setReg (wpaPosV n) (BitVec.ofNat 32 v)
        let s := (s.setReg (wpaPosW n) (BitVec.ofNat 32 m.stripe)).setReg (wpaPosM n) (BitVec.ofNat 32 mk)
        let s := s.onlyIf new fun s => s.setRfld (wpaRewind n) 0 2 0
        let s := s.setRewindSt n 0
        let s := s.setWpa n { s.wpaP n with
          zoneTag := m.zoneTag, verified := [], failedBelow := [], quiet := 0, stopGates := false, inhibitWait := false }
        s.modOrd n fun o => { o with band := true, startV := v, z := false }

/-- LDBAND. -/
def execLdband (n : Fin 4) (find : EccFind) (s : State) : Host.Outcome State Fault Refusal :=
  .next (s.microword n find (· == 0x1A) fun s _ => s.uLdband n)

/-- FIN: the MOP ends with XA[15:0]. -/
def execFin (n : Fin 4) (find : EccFind) (s : State) : Host.Outcome State Fault Refusal :=
  .next (s.microword n find (· == 0x1B) fun s w => s.mopEnd n (fld (s.ux n (uxa w)) 0 16))

/-- RESERVED_MICROWORD: ORDO_MICROCODE_FAULT, and RUN clears (R285). -/
def execReservedMicroword (n : Fin 4) (find : EccFind) (s : State) : Host.Outcome State Fault Refusal :=
  .next (s.microword n find (fun k => decide (0x1C ≤ k)) fun s _ => s.uFault n)

/-! ## Ticks (R280, R284) -/

/-- A tick: the poll budget and the end sequence count it, a waiting disable is looked at, and stripes to be rewritten in
place are placed again. -/
def State.tick (s : State) (n : Nat) : State :=
  let s := s.modOrd n fun o => { o with
    ticked := true, budgetTicks := o.budgetTicks + 1
    phase := match o.phase with
      | .draining st k => .draining st (k + 1)
      | p => p }
  let s := s.disableAfterRewind n
  if s.mopInFlight n then s.each (s.wpaP n).rewriteWait fun s x => s.rewriteInPlace n x else s

/-- WEDGE_TICK. -/
def execWedgeTick (n : Fin 4) (s : State) : Host.Outcome State Fault Refusal :=
  .next ((s.modOrd n fun o => { o with tickWedge := tget (fun _ => 0) s.svo.wedge n }).tick n)

/-- SYNTHETIC_TICK. -/
def execSyntheticTick (n : Fin 4) (s : State) : Host.Outcome State Fault Refusal := .next (s.tick n)

/-- POLL_OVERRUN: a MOP whose budget is spent ends (R284). -/
def execPollOverrun (n : Fin 4) (s : State) : Host.Outcome State Fault Refusal :=
  .next (if s.mopInFlight n && (s.ordP n).overrun then s.pollOverrun n else s)

/-- END_SEQUENCE_DRAIN: every gate has delivered, or two ticks have passed: the completion is posted, and a pending disable
goes on (R222, R277). -/
def State.endDrain (s : State) (n : Nat) : State :=
  let o := s.ordP n
  match o.phase with
  | .draining st k =>
    if (o.gates = [] ∧ o.replays = []) ∨ 2 ≤ k then ((s.mopFinish n st).disableContinue n).flushIfIdle n else s
  | .idle => s
  | .admitting => s
  | .running => s
  | .waiting _ _ => s

/-- END_SEQUENCE_DRAIN. -/
def execEndSequenceDrain (n : Fin 4) (s : State) : Host.Outcome State Fault Refusal := .next (s.endDrain n)

/-! ## The dispatcher (R277, R279) -/

/-- The head packet of a queue moves to another with a new content, and its charge with it; one in which a bad word has been met is
poisoned from then on (R352, R364). -/
def State.relinkAs (s : State) (src dst : Nat) (b : Body) (bad : Bool) : State :=
  match s.heads src with
  | [] => s
  | p :: ps =>
    let s := s.onlyIf bad fun s => (s.count (cplCtr 1)).raise cplInt 2
    (s.setCq src { s.cq src with pkts := { p with body := b, poison := p.poison || bad } :: ps }).relink src dst

/-- A packet that no MOP in flight expects is discarded and counted (R277). -/
def State.latePacket (s : State) (n : Nat) (p : Pkt) (ps : List Pkt) : State :=
  (s.takeHead (48 + n) p ps false).count (ordCtr n 3)

/-- SECTOR_PACKET_DISPATCH. A poisoned sector has failed for the tally. -/
def State.dispatchPacket (s : State) (n : Nat) (find : EccFind) : State :=
  match s.heads (48 + n) with
  | [] => s
  | p :: ps =>
    let s := s.sramSomewhere 21 find
    let bad := eccBad find
    let o := s.ordP n
    match p.body, o.mop with
    | .sector info r, some m =>
      if !s.mopStarted n then s.latePacket n p ps
      else if 0x10 < r.source then
        if !o.replays.contains r.slot then s.latePacket n p ps
        else
          let s := s.modOrd n fun o =>
            ({ o with replays := removeFirst (· == r.slot) o.replays } : Ord).tallyRead m.stripe (o.posOf r.slot)
              (r.status != 0 || p.poison || bad)
          s.relinkAs (48 + n) (60 + n) (.bufSector m.tag m.stripe (o.posOf r.slot) info r) bad
      else match o.gates.find? (fun g => g.id == r.gateId) with
        | none => s.latePacket n p ps
        | some g =>
          if g.kind == .raw then s.relinkAs (48 + n) (56 + n) p.body bad
          else
            let s := s.modOrd n fun o =>
              ({ o with gates := o.gates.filter fun x => x.id != g.id } : Ord).tallyRead g.stripe g.gpos
                (r.status != 0 || p.poison || bad)
            s.relinkAs (48 + n) (60 + n) (.bufSector m.tag g.stripe g.gpos info r) bad
    | _, _ => s.latePacket n p ps

/-- SECTOR_PACKET_DISPATCH. -/
def execSectorPacketDispatch (n : Fin 4) (find : EccFind) (s : State) : Host.Outcome State Fault Refusal :=
  .next (s.dispatchPacket n find)

/-! ## Gates open as link time advances (R170, R171) -/

/-- The write gates of a stripe have all opened. -/
def Ord.stripeOpened (o : Ord) (stripe pass : Nat) : Bool :=
  (o.gates.filter fun g => g.kind == .write && g.stripe == stripe && g.pass == pass).all fun g => g.opened

/-- The rewind state that an opening write gate ends: Idle, Guard hold once no gate is withheld, or Rewind wait with gates allowed again
(R171, R173). -/
def State.writingBegins (s : State) (n : Nat) : Bool :=
  s.rewindSt n == 0 || (s.rewindSt n == 2 && !(s.ordP n).gates.any fun g => g.guard) || (s.rewindSt n == 3 && !(s.wpaP n).stopGates)

/-- A gate sent whose START has come opens: W moves past its stripe when all its gates have opened, and a band is Writing. -/
def State.openGate (s : State) (n : Nat) (g : Gate) : State :=
  let s := s.modGate n g.id fun g => { g with opened := true }
  if g.kind == .write && (s.ordP n).band then
    let s := s.onlyIf (s.writingBegins n) fun s => s.setRewindSt n 1
    if (s.ordP n).stripeOpened g.stripe g.pass && g.pass == s.bandPass n then
      s.setReg (wpaPosW n) (BitVec.ofNat 32 (g.stripe + 1))
    else s
  else s

/-- Gates whose START has come open, and sectors whose last bit is written are counted. -/
def State.openGates (s : State) (n : Nat) : State :=
  let gs := (s.ordP n).gates
  let s := s.each (gs.filter fun g => g.sent && !g.opened && decide (g.start ≤ s.now)) fun s g => s.openGate n g
  s.countBy (wpaCtr n 0) (gs.filter fun g => g.isWrite && g.sent && !g.cut && g.stop == s.now).length

end Sys2Proof.Machine
end

