-- ==== Sys2Proof/Machine/Reset.lean ====
section
/-!
DEFINITION. Resets of blocks and of the controller, and the Ides watchdog (R472 to R479, R497, R563, R582, R588, R589).
-/
namespace Sys2Proof.Machine

def clkBlkrst (i : Nat) : Nat := regAddr bCLK (0x40 + 4 * (i / 32))

def State.modClk (s : State) (f : Clk → Clk) : State := { s with clk := f s.clk }

/-- CLK_STATUS.RESETTING. -/
def State.setResetting (s : State) (b : Bool) : State := s.setRbit clkStatus 3 b

/-! ## Firmware (R473) -/

/-- The band's V is to be re-established: it is open, or a refresh writes it (R322, R421). -/
def Zone.unsure (z : Zone) : Bool := z.st == .implOpen || z.st == .explOpen || z.st == .closed || z.refresh == 3

/-- What firmware finds of a zone after the loss of the buffer: the zone table's entry. V of an open band is re-established from the one
recorded (R78, R322). A refresh whose protective copy was not complete has changed nothing and starts again; one that writes the band goes
on from V (R420, R421). -/
def Zone.restarted (z : Zone) : Zone :=
  let z : Zone := { z with stopping := false, finishing := none, stalls := 0 }
  let z := if z.refresh = 1 ∨ z.refresh = 2 then { z with refresh := 0 } else z
  if z.unsure then { z with v := z.saved.v, w := z.saved.v, placed := z.saved.v, finding := true } else z

/-- The stripes of a ring that reading forward from Q finds: written, and each ring sequence number one more than the last (R77). -/
def keptStripes : Option Nat → List RingStripe → List RingStripe
  | _, [] => []
  | last, t :: ts => if t.verified ∧ !t.broken ∧ last.all (fun n => t.seq == n + 1) then t :: keptStripes (some t.seq) ts else []

/-- The sequence number that the next ring stripe takes: one more than the last found. DESIGN CHOICE (log 65): with none found, the
number of the stripe that the reading stopped at, and with none written the number that was due. -/
def nextSeq (r : Ring) (found : List RingStripe) : Nat :=
  match found.getLast?, r.stripes.head? with
  | some t, _ => t.seq + 1
  | none, some t => t.seq
  | none, none => r.seq

/-- A staging ring as firmware finds it at power-up (R77). -/
def Ring.restarted (r : Ring) : Ring :=
  let k := keptStripes none r.stripes
  { r with
    stripes := k, stage := [], due := false, seq := nextSeq r k, q := r.qRec, h := match k.getLast? with
      | some t => r.after t.pos
      | none => r.qRec }

/-- Firmware starts again after a reset that took LPDDR6: no buffered data is left, and what lies on media and in flash is
(R473, R322, R77). -/
def Fw.restarted (f : Fw) : Fw :=
  let goesOn (z : Nat) : Bool := (tget (fun _ => {}) f.zones z).refresh == 3
  { f with
  zones := f.zones.map fun e => (e.1, e.2.restarted)
  rings := f.rings.map fun e => (e.1, e.2.restarted)
  harv := f.harv.map fun e => (e.1, { e.2 with
    issued := 0, refresh := e.2.refresh.filter goesOn, copy := [], saved := 0, copied := 0 })
  dirty := [], clean := [], packets := [], jobs := [], rx := [], ladders := [], relocs := [], bufs := [], events := [], changed := [], rsvLog := []
  staged := [], stageOwner := 0, stageAt := 0, activate := none, tableHeld := false, loadAll := [] }

/-- Entries of the Almanac that live in LPDDR6 alone go with it (R589). -/
def State.dropAlmDram (s : State) : State :=
  let mirror : Nat := ((upto 4).map fun a => tget (fun _ => 0) s.alm.mirrorSeq a).foldl max 0
  { s with alm := { s.alm with entries := s.alm.entries.filter fun e => e.page.isSome || decide (e.seq.toNat < mirror) } }

def State.bufferLost (s : State) : State := (s.modFw Fw.restarted).dropAlmDram

/-! ## Blocks (R475) -/

/-- ALM resets: SEQ is kept, READY falls, buckets start full (R532, R589). DEDUCED: the count of programmed pages follows the
flash, and the marks of the mirrors, which nothing may overwrite, stay. -/
def State.almReset (s : State) : State :=
  let page := s.reg almFlashPage
  let full := s.rbit almStatus 1
  let marks := (upto 4).map fun a => s.reg (almMirrorMark a)
  let s := ((s.clearWindow bALM).setReg almFlashPage page).setRbit almStatus 1 full
  let s := s.each ((upto 4).zip marks) fun s e => s.setReg (almMirrorMark e.1) e.2
  let s := s.modClk fun c => { c with almReset := false }
  { s with alm := { s.alm with
      seqLatch := 0, buckets := [], bucketStart := s.epochSec, app := [], ploss := false, flushWait := false, page := [], pageFirst := 0xFFFF
      progQ := [] } }

/-- The open page of ALM has been programmed (R589). -/
def State.almFlushed (s : State) : Bool := s.alm.page.isEmpty && s.alm.progQ.isEmpty

/-- The charges of an engine's MOP go back as it resets, and its wait at the governor ends. -/
def State.ordForget (s : State) (n : Nat) : State :=
  let x := s.actP n
  let s := { s with gov := s.gov.filter fun w => w.act != n }
  let s := s.setAct n { x with chargeRun := 0, chargeSeek := 0 }
  (s.setRfld actGovUsed 16 8 s.gov.length).govRelease (x.chargeRun + x.chargeSeek)

/-- ORDn resets: the queue, the completions and the blocks held go, the store stays (R291). Stripes verified before it stay verified
(R29). -/
def State.ordReset (s : State) (n : Nat) : State :=
  let store := (s.ordP n).store
  let s := s.keepV n
  ((s.ordForget n).clearWindow (bORD n)).setOrd n { store := store }

/-- JUB resets: the links drop, and what both ends recorded for resumption stays (R434, R476). -/
def State.jubClear (s : State) : State :=
  { s.clearWindow bJUB with jub := s.jub.map fun e =>
      (e.1, { recSession := e.2.recSession, recPlan := e.2.recPlan, recDone := e.2.recDone, plan := e.2.plan }) }

/-- CAL resets: results that firmware stores, and the thermal trip, are not CAL's. -/
def State.calReset (s : State) : State :=
  { s.clearWindow bCAL with cal := { history := s.cal.history, refTables := s.cal.refTables, hot := s.cal.hot, tripped := s.cal.tripped } }

/-- DBG resets but for LOCK (R582). -/
def State.dbgReset (s : State) : State :=
  let lock := s.rbit dbgCtrl 1
  ((s.clearWindow bDBG).modDbg fun d => { testEn := d.testEn, mgtMode := d.mgtMode }).setRbit dbgCtrl 1 lock

/-- Blocks PWR to JUB take their Reset values. -/
def State.resetFront (s : State) (i : Nat) : State :=
  if i = 0x01 then { s.clearWindow i with pwr := { off := s.pwr.off, rails := s.pwr.rails } }
  else if i = 0x04 then s.almReset
  else if i = 0x05 then { s.clearWindow i with mgt := {} }
  else if i = 0x06 then s.calReset
  else if 0x08 ≤ i ∧ i ≤ 0x0B then (s.clearWindow i).setHif (i - 8) {}
  else if i = 0x0C then s.jubClear
  else s

/-- Blocks QMG to SEC take their Reset values. -/
def State.resetFabric (s : State) (i : Nat) : State :=
  if i = 0x0D then { s.clearWindow i with ctx := [] }
  else if i = 0x0E then { s.clearWindow i with buf := {} }
  else if i = 0x0F then { s.clearWindow i with lnt := {} }
  else if i = 0x10 then ({ s.clearWindow i with mem := {} }).bufferLost
  else if i = 0x11 then { s.clearWindow i with cellq := [] }
  else if i = 0x12 then (s.clearWindow i).modSec fun c => { c with media := [], psk := [], cmd := none }
  else s

/-- Blocks ULK to DBG take their Reset values. -/
def State.resetSlice (s : State) (i : Nat) : State :=
  if 0x14 ≤ i ∧ i ≤ 0x17 then (s.clearWindow i).setUlk (i - 0x14) {}
  else if 0x18 ≤ i ∧ i ≤ 0x1B then (s.clearWindow i).setChn (i - 0x18) {}
  else if 0x1C ≤ i ∧ i ≤ 0x1F then ((s.keepV (i - 0x1C)).clearWindow i).setWpa (i - 0x1C) {}
  else if i = 0x20 then { s.clearWindow i with svo := {} }
  else if i = 0x21 then { s.clearWindow i with mot := {} }
  else if 0x22 ≤ i ∧ i ≤ 0x25 then s.ordReset (i - 0x22)
  else if i = 0x26 then { s.clearWindow i with act := [], gov := [] }
  else if i = 0x2F then s.dbgReset
  else s

/-- A block takes its Reset values: its registers, and what it holds beside them. -/
def State.resetBlock (s : State) (i : Nat) : State :=
  if i ≤ 0x0C then s.resetFront i else if i ≤ 0x12 then s.resetFabric i else s.resetSlice i

/-! ## Resets of the whole controller (Table 17.1) -/

/-- Every block of Table 1.1 but VGL, CLK, FLS and ALM. -/
def wideBlocks : List Nat :=
  [0x01, 0x05, 0x06, 0x22, 0x23, 0x24, 0x25, 0x08, 0x09, 0x0A, 0x0B, 0x0C, 0x0D, 0x0E, 0x0F, 0x10, 0x11, 0x12, 0x14, 0x15, 0x16, 0x17,
   0x18, 0x19, 0x1A, 0x1B, 0x1C, 0x1D, 0x1E, 0x1F, 0x20, 0x21, 0x26, 0x2F]

/-- CLK resets; with `keep`, RWS fields stay (Table 0.5). -/
def State.clkClear (s : State) (keep : Bool) : State :=
  let cause := s.reg clkCause
  let cfg := s.reg idesCfg
  let exp := s.reg idesExp
  let c : Clk := if keep then { kickAt := s.clk.kickAt, timeout := s.clk.timeout, warned := s.clk.warned } else {}
  let s := { s.clearWindow bCLK with clk := c }
  s.onlyIf keep fun s => ((s.setReg clkCause cause).setReg idesCfg cfg).setReg idesExp exp

/-- What a reset of everything but VGL does besides CLK, FLS and ALM: every domain is on, the buffers are empty, link time
starts from 0 with SVO_CLK (R85), and Tick is to be loaded (R468). -/
def State.wideReset (s : State) : State :=
  let s := { s with pwr := { s.pwr with off := 0, rails := true } }
  let s := s.each wideBlocks State.resetBlock
  { s with ltime := 0, vgl := { s.vgl with reload := true, leapFrom := none, mainLow := false } }

/-- The flash operation that runs is cut: a program leaves its page unreliable, an erase leaves its block without a header, and
so does a suspended erase (R491, R494, R497). -/
def State.flsCut (s : State) : State :=
  let junk (n : Nat) : List Byte := (upto 512).map fun i => (Config.freeWord (n + i)).setWidth 8
  let page (s : State) (b p : Nat) : State := { s.storePage b p (junk s.free) with free := s.free + 512 }
  let s := match s.fls.op with
    | some (.program b p _) => page s b p
    | some (.almanac i _) => (page s (almBlock i) (almBlockPage i)).setReg almFlashPage (BitVec.ofNat 32 ((s.reg almFlashPage).toNat + 1))
    | some (.erase b) => s.clearBlock b
    | none => s
  match s.fls.suspended with
  | some b => s.clearBlock b
  | none => s

/-- The Almanac after a reset that acts at once: entries of the open and waiting pages are lost, and SEQ goes on after the
highest number left (R535, R589). -/
def State.almCut (s : State) : State :=
  let mirror : Nat := ((upto 4).map fun a => tget (fun _ => 0) s.alm.mirrorSeq a).foldl max 0
  let n := (s.reg almFlashPage).toNat
  let keep := s.alm.entries.filter fun e => decide (e.seq.toNat < mirror) || (match e.page with
    | some p => decide (p < n)
    | none => false)
  { s with alm := { s.alm with entries := keep, seq := keep.foldl (fun m e => if m.toNat ≤ e.seq.toNat then e.seq + 1 else m) 0 } }

/-- A power-on or pin reset: at once, RWS fields cleared, the straps sampled, LOCK cleared (R563, R582). -/
def State.hardReset (s : State) (cause : Nat) (testEn mgtMode : Bool) : State :=
  let s := s.almCut.flsCut
  let s := (s.wideReset.flsReset.almReset.clkClear false).setRbit clkCause cause true
  { s.clearWindow bDBG with
    dbg := { testEn := testEn, mgtMode := mgtMode }, cal := { s.cal with hot := 0 } }

/-- VIGIL_POWER_ON_RESET: VGL resets; the bank and Epoch have lost what they held. DESIGN CHOICE: the save memory reads 0. -/
def execVigilPowerOnReset (s : State) : Host.Outcome State Fault Refusal :=
  .next { s.clearWindow bVGL with vgl := { fell := true, por := true, tick8 := s.vgl.tick8, wall := s.vgl.wall } }

/-- POWER_ON_RESET: VIGIL_POR names a first power-up; the return of main power after a loss is wake source 8 (Table 16.5). The Ordo
stores have lost what they held. DESIGN CHOICE: they read 0. THERMTRIP_N is released (R578). -/
def execPowerOnReset (testEn mgtMode : Bool) (s : State) : Host.Outcome State Fault Refusal :=
  .next (
    let lost := !s.pwr.rails && !s.rbit vglStatus 3
    let por := s.vgl.por
    let s : State := s.hardReset 0 testEn mgtMode
    let s : State := { s with ord := [], cal := { s.cal with tripped := false } }
    let s := s.onlyIf por fun s => ({ s with vgl := { s.vgl with por := false } } : State).setRbit clkCause 7 true
    s.onlyIf lost fun s => s.setReg vglWakeSrc 0x100)

/-- PIN_RESET. -/
def execPinReset (testEn mgtMode : Bool) (s : State) : Host.Outcome State Fault Refusal := .next (s.hardReset 1 testEn mgtMode)

/-- MAIN_RAIL_LOSS: the Vigil domain goes on alone; an entry or exit is abandoned and nothing is saved (R453, R568). The bits of
`off` are every domain but VIGIL. -/
def execMainRailLoss (s : State) : Host.Outcome State Fault Refusal :=
  .next { s with pwr := { s.pwr with rails := false, off := 0xF7F, entry := none, exit := none, hold := none } }

/-- VIGIL_SUPPLY_SWITCH: no state is lost (R459). -/
def execVigilSupplySwitch (vbat : Bool) (s : State) : Host.Outcome State Fault Refusal := .next (s.setRbit vglStatus 0 vbat)

/-! ## Warm and escalated resets (R477) -/

/-- Actuators that are neither Parked nor Disabled. -/
def State.unparked (s : State) : List Nat := (upto 4).filter fun a => s.actSt a != 0 && s.actSt a != 6

/-- RETRACT is written for every such actuator. -/
def State.resetRetract (s : State) : State := s.each s.unparked fun s a => s.retract a 0x181

/-- A suspended erase is resumed at once: the 2 ms rule does not apply (R497). -/
def State.flsEraseOn (s : State) : State :=
  match s.fls.op, s.fls.suspended with
  | none, some b => (s.modFls fun f => { f with suspended := none, resumeAt := none }).flsStart (.erase b) b
  | _, _ => s

/-- FLS resets at the end of the operation that runs, with FLS_HELD at 1 meanwhile (R497). DEDUCED: so at a warm reset too. -/
def State.flsControl (s : State) : State :=
  let s := s.flsEraseOn
  if s.fls.op.isSome then (s.modClk fun c => { c with flsHeld := true }).setRbit clkStatus 2 true else s.flsReset

/-- The reset that `warm` and `escalated` lead to. -/
def State.wideWaited (s : State) (escalated : Bool) : State :=
  let s := (s.wideReset.almReset).clkClear (!escalated)
  let s := s.setRbit dbgCtrl 0 false
  let s := if escalated then (s.setRbit clkCause 2 true).setRbit clkCause 3 true else s.setRbit clkCause 4 true
  s.flsControl

/-- What waits goes on: block resets of ACT, SVO and MOT with every actuator parked, a warm or escalated reset with ALM's open
page programmed too. -/
def State.waitedReset (s : State) : State :=
  match s.clk.wait with
  | some (.blocks m) => if s.unparked.isEmpty then
      let s := s.modClk fun c => { c with wait := none }
      let s := s.each ([0x20, 0x21, 0x26].filter fun i => m.testBit i) fun s i => (s.resetBlock i).setRbit (clkBlkrst i) (i % 32) false
      s.setResetting false
    else s
  | some .warm => if s.unparked.isEmpty && s.almFlushed then s.wideWaited false else s
  | some .escalated => if s.unparked.isEmpty && s.almFlushed then s.wideWaited true else s
  | none => s

/-- A reset that first retracts: RETRACT, the spindle coasts, and ALM's open page is programmed meanwhile (R477, R589). -/
def State.beginWide (s : State) (w : RstWait) : State :=
  let s := (s.resetRetract.motOff).flush
  ((s.modClk fun c => { c with wait := some w }).setResetting true).waitedReset

/-- Requesters that count as firmware or management (R588). -/
def Requester.fwOrMgt : Requester → Bool
  | .dbg => false
  | _ => true
/-- Requesters that may write CTRL_RST (R588). -/
def Requester.mayControl : Requester → Bool
  | .cpu _ => false
  | _ => true

/-- WARM_RST is written. A 1 written while the bit is 1 requests nothing further (Table 0.5). -/
def State.warmReset (s : State) (by_ : Requester) : State :=
  if !Requester.fwOrMgt by_ || s.rbit clkReset 1 || s.clk.wait == some .escalated then s
  else (s.setRbit clkReset 1 true).beginWide .warm

def execWarmRst (by_ : Requester) (s : State) : Host.Outcome State Fault Refusal := .next (s.warmReset by_)

/-- RESET_RETRACT_DONE. -/
def execResetRetractDone (s : State) : Host.Outcome State Fault Refusal := .next s.waitedReset

/-! ## Control resets (R476) -/

/-- The running MOP of an engine is cancelled, and RUN cleared. -/
def State.ordStop (s : State) (n : Nat) : State :=
  let s := s.setRbit (ordCtrl n) 0 false
  let s := s.returnAdmitting n 0x1B5
  s.onlyIf (s.mopInFlight n) fun s => s.fatalEvent n 4 0x1B5

/-- Every host link drops and its association ends; the sessions of JUB end and keep their resume state. -/
def State.dropLinks (s : State) : State :=
  let s := s.each (upto 4) fun s p => (s.hifDrop p 0).assocEnd p
  s.each (upto 2) fun s k => ((s.jubDown k).setJubLink k 0).setJubSt k 0

/-- A control reset begins, with its causes (R474, R582). -/
def State.controlReset (s : State) (ides : Bool) : State :=
  let keep : List (Nat × Option Nat) := s.fls.fetch.filter fun e => decide (8 ≤ e.1)
  let s := (s.modFls fun f => { f with fetch := keep }).setRbit dbgCtrl 0 false
  let s := s.modClk fun c => { c with control := true, cpuReset := true, kicker := none }
  let s := (s.setRbit clkCause 5 true).onlyIf ides fun s => s.flsEraseOn.setRbit clkCause 2 true
  (s.dropLinks.each (upto 4) State.ordStop).setResetting true

/-- CTRL_RST is written. -/
def State.controlRst (s : State) (by_ : Requester) : State :=
  if !Requester.mayControl by_ || s.rbit clkReset 0 || s.clk.control then s
  else (s.setRbit clkReset 0 true).controlReset false

def execCtrlRst (by_ : Requester) (s : State) : Host.Outcome State Fault Refusal := .next (s.controlRst by_)

/-- CONTROL_RESET_HALTED. -/
def execControlResetHalted (s : State) : Host.Outcome State Fault Refusal :=
  .next (
    if s.clk.control && (upto 4).all fun n => s.halted n then
      let s := s.each (upto 4) State.chnSoftReset
      let s := s.each [0x22, 0x23, 0x24, 0x25, 0x06, 0x0D, 0x0E, 0x0F, 0x10, 0x11, 0x12, 0x08, 0x09, 0x0A, 0x0B, 0x0C] State.resetBlock
      let s := s.flsControl
      let s := s.modClk fun c => { c with control := false, cpuReset := false, boot := 1, cluster := false, mgtOnly := false }
      (s.setRbit clkReset 0 false).setResetting false
    else s)

/-! ## Cluster, block and test-logic resets -/

/-- CPU_RST is written (R588). -/
def State.cpuRst (s : State) (by_ : Requester) : State :=
  if Requester.fwOrMgt by_ then s.clusterReset else s

def execCpuRst (by_ : Requester) (s : State) : Host.Outcome State Fault Refusal := .next (s.cpuRst by_)

/-- A block of Table 1.1. -/
def blockAt (i : Nat) : Bool := !(blockRows i).isEmpty

/-- ALM's block reset waits for its open page (R589). -/
def State.almResetGo (s : State) : State :=
  if s.almFlushed then (s.almReset).setRbit (clkBlkrst 4) 4 false else s

/-- A bit of CLK_BLKRST0-1 is written (R475, R588). A reset under way that covers the block takes it along. -/
def State.blockRst (s : State) (by_ : Requester) (i : Nat) : State :=
  if !Requester.fwOrMgt by_ || !blockAt i || i == 0 || i == 2 || i == 3 || s.rbit (clkBlkrst i) (i % 32) then s
  else if i = 0x04 then (((s.setRbit (clkBlkrst 4) 4 true).modClk fun c => { c with almReset := true }).flush).almResetGo
  else if (i = 0x20 ∨ i = 0x21 ∨ i = 0x26) ∧ !s.unparked.isEmpty then
    let s := (s.resetRetract).onlyIf (i == 0x21) State.motOff
    let s := s.setRbit (clkBlkrst i) (i % 32) true
    match s.clk.wait with
    | some (.blocks m) => s.modClk fun c => { c with wait := some (.blocks (m ||| 2 ^ i)) }
    | some _ => s
    | none => (s.modClk fun c => { c with wait := some (.blocks (2 ^ i)) }).setResetting true
  else s.resetBlock i

def execBlockReset (by_ : Requester) (i : Fin 64) (s : State) : Host.Outcome State Fault Refusal := .next (s.blockRst by_ i)

/-- TEST_LOGIC_RESET: the TAP alone; DBG_CTRL is unchanged (R582). -/
def execTestLogicReset (s : State) : Host.Outcome State Fault Refusal :=
  .next (s.modDbg fun d => { d with ir := 0x02, tapActive := false, outputs := 0, bypass := false })

/-! ## The Ides watchdog (R478, R479) -/

/-- CLK_IDES_CFG.ENABLE. -/
def State.idesOn (s : State) : Bool := s.rbit idesCfg 16

/-- While DBG holds the cluster halted and DBG_FREEZE is 1, the count stops. -/
def State.idesFrozen (s : State) : Bool := s.rbit dbgCtrl 0 && s.rbit idesCfg 17

/-- The count restarts from TIMEOUT. -/
def State.idesRestart (s : State) : State :=
  s.modClk fun c => { c with kickAt := s.vgl.wall, timeout := s.rfld idesCfg 0 16, warned := false }

/-- CLK_IDES_LEFT in ms. DESIGN CHOICE: a part of a ms counts whole; 0 while the watchdog does not count. -/
def State.idesLeft (s : State) : Nat :=
  if s.idesOn then ceilDiv (s.clk.kickAt + 1000000 * s.clk.timeout - s.vgl.wall) 1000000 else 0

/-- CLK_IDES_KICK is written: any value but 0x1DE5_0001 is ignored. -/
def State.idesKick (s : State) (by_ : Requester) (v : W) : State :=
  if v ≠ 0x1DE50001 then s
  else
    let s := s.idesRestart
    match by_ with
    | .cpu c => s.modClk fun k => { k with kicker := some c.val }
    | _ => s

def execIdesKick (by_ : Requester) (v : BitVec 32) (s : State) : Host.Outcome State Fault Refusal := .next (s.idesKick by_ v)

/-- CLK_IDES_CFG is written: a 0 to ENABLE is ignored, and its rise starts the count. -/
def State.idesCfgWrite (s : State) (v : W) : State :=
  let was := s.idesOn
  let s := (s.setReg idesCfg (v &&& 0x3FFFF)).setRbit idesCfg 16 (was || bitAt v 16)
  s.onlyIf (!was && bitAt v 16) State.idesRestart

def execIdesEnable (v : BitVec 32) (s : State) : Host.Outcome State Fault Refusal := .next (s.idesCfgWrite v)

/-- IDES_WARN, once due: the record carries CLK_IDES_EXP and the program counter of the core that last kicked, all ones with
none or with the core in reset. -/
def execIdesWarn (pc : BitVec 64) (s : State) : Host.Outcome State Fault Refusal :=
  .next (
    if s.idesOn && !s.clk.warned && decide (s.clk.kickAt + 500000 * s.clk.timeout ≤ s.vgl.wall) then
      let p := if s.clk.kicker.isSome && !s.clk.cpuReset then pc.toNat else 2 ^ 64 - 1
      ((s.modClk fun c => { c with warned := true }).raise clkInt 0).almanac 0x8003 bCLK 0 [(4, (s.reg idesExp).toNat), (8, p)]
    else s)

/-- IDES_EXPIRY, once due: a control reset, or at the third an escalated reset; a flash operation in progress runs to its end
(R478, R497). DEDUCED: the count starts again. -/
def execIdesExpiry (s : State) : Host.Outcome State Fault Refusal :=
  .next (
    if s.idesOn && decide (s.clk.kickAt + 1000000 * s.clk.timeout ≤ s.vgl.wall) then
      let n := min 3 (s.rfld idesExp 0 2 + 1)
      let s := (s.setRfld idesExp 0 2 n).idesRestart
      if n < 3 then s.controlReset true
      else s.flsEraseOn.beginWide .escalated
    else s)

/-- CLK_BOOT_OK: firmware's write clears COUNT and TRIES (R478, R480). -/
def State.bootConfirm (s : State) (by_ : Requester) (v : W) : State :=
  match by_ with
  | .cpu _ => if bitAt v 0 then (s.setRfld idesExp 0 2 0).setBankFld clkBoot 0 2 0 else s
  | _ => s

def execBootOk (by_ : Requester) (v : BitVec 32) (s : State) : Host.Outcome State Fault Refusal := .next (s.bootConfirm by_ v)

/-- PLL_UNLOCK. -/
def execPllUnlock (net : Bool) (s : State) : Host.Outcome State Fault Refusal :=
  .next ((s.setRbit clkStatus (if net then 1 else 0) false).raise clkInt 1)

end Sys2Proof.Machine
end

