-- ==== Sys2Proof/Machine/Network.lean ====
section
/-!
DEFINITION. The register access network: what a read returns and what a write does, register by register, and the commands that
go through it (R14 to R18, R25, R518, R519, R540, R547, R572).
-/
namespace Sys2Proof.Machine

/-! ## Addresses (R14 to R16, R463, R586) -/

/-- The Vigil bank word behind an RV register's own address (Table 21.2); any other address stands for itself. -/
def rvAlias (a : Nat) : Nat :=
  let b := addrBlk a
  let o := addrOff a
  if b = 0x00 then
    if o = 0x08 then bankAddr 1 else if o = 0x10 then bankAddr 2 else if o = 0x24 then bankAddr 3 else if o = 0x28 then bankAddr 4
    else if o = 0x44 then bankAddr 5 else if o = 0x48 then bankAddr 6
    else if 0x50 ≤ o ∧ o < 0x70 then bankAddr (7 + (o - 0x50) / 4) else a
  else if b = 0x02 ∧ o = 0x30 then bankAddr 15
  else if b = 0x05 ∧ o = 0x10 then bankAddr 16
  else if 0x08 ≤ b ∧ b ≤ 0x0B ∧ 0x24 ≤ o ∧ o ≤ 0x2C then bankAddr (17 + 3 * (b - 8) + (o - 0x24) / 4)
  else if b = 0x0D ∧ o = 0x10 then bankAddr 29
  else a

/-- The power domain of a block, none for VIGIL (Tables 1.1 and 16.1). -/
def domainOf (b : Nat) : Option Nat :=
  if (1 ≤ b ∧ b ≤ 5) ∨ b = 0x2F then some 0
  else if b = 0x06 ∨ (0x0D ≤ b ∧ b ≤ 0x12) then some 2
  else if b = 0x0C then some 3
  else if b = 0x21 then some 4
  else if (0x14 ≤ b ∧ b ≤ 0x1F) ∨ (0x22 ≤ b ∧ b ≤ 0x25) then some 5
  else if b = 0x20 ∨ b = 0x26 then some 6
  else if 0x08 ≤ b ∧ b ≤ 0x0B then some b
  else none

/-- A block is dormant (R540). -/
def State.dormant (s : State) (b : Nat) : Bool :=
  s.pwr.hold.isSome || !s.rbit (regAddr bCLK (0x50 + 4 * (b / 32))) (b % 32) || (match domainOf b with
    | some d => s.pwr.off.testBit d
    | none => false)

/-- The violation source of a requester (Table 19.4). -/
def violOf : Requester → Nat
  | .cpu _ => 0
  | .mgtCore _ => 1
  | .dbg => 2
  | .mgtPort => 3

/-- A command's meaning used as a part of another. -/
def State.also (s : State) (f : State → Host.Outcome State Fault Refusal) : State :=
  match f s with
  | .next t => t
  | _ => s

/-! ## Reads -/

/-- A number of bits, as a register field at `lo`. -/
def bitsFrom (n lo : Nat) (p : Nat → Bool) : Nat := ((upto n).map fun i => if p i then 2 ^ (lo + i) else 0).sum

/-- FLS_WIN: the word at a byte of the flash (R486). -/
def State.flashWord (s : State) (i : Nat) : W :=
  BitVec.ofNat 32 (leNat (((s.flsPage (i / 512 / 512) (i / 512 % 512)).drop (i % 512)).take 4))

/-- The codes of an ALM_CMAP register (Table 19.8). -/
def cmapCode (i k : Nat) : Nat := if i < 192 then 8 * i + k else 0x8000 + 8 * (i - 192) + k

/-- QMG_STATUS (Table 14.7). -/
def State.qmgStatus (s : State) : Nat :=
  s.ctxs.length + (if s.qmgIdle then 0x2000 else 0) + (if s.ctxs.any fun e => e.2.st == .held then 0x4000 else 0)

/-- Cells that are neither charged nor reserved (CPL_FREE). -/
def State.cplFree (s : State) : Nat := 32768 - (s.cellq.map fun e => e.2.held).sum

/-- What the cell pool's own registers show (Tables 12.7 and 12.8); none for the others. -/
def State.cplValue (s : State) (o : Nat) : Option Nat :=
  if o = 0x10 then some s.cplFree
  else if o = 0x14 then some s.minSum
  else if o = 0x18 then some (bitsFrom 32 0 fun c => s.onChain c && (s.cq c).pkts.isEmpty)
  else if o = 0x24 then some s.bufReserved
  else if o = 0x28 then some s.fw.clean.length
  else if o = 0x2C then some (s.ctxs.filter fun e => e.2.st == .waiting).length
  else if 0x4000 ≤ o ∧ o < 0x8000 then
    let q := (o - 0x4000) / 16
    let c := s.cq q
    if o % 16 = 8 then some (c.charged + 0x10000 * c.resv)
    else if o % 16 = 12 then
      some (c.pkts.length + (if (s.heads q).isEmpty then 0 else 0x10000) + if (decide (q < 32) || s.poolUp) && s.qFits q 1 then 0 else 0x20000)
    else none
  else none

/-- What a read channel's own registers show (Tables 4.9 to 4.11); PROFILE of an unarmed slot is that of its last ARM: log 77. -/
def State.chnValue (s : State) (n o : Nat) : Option Nat :=
  let slots : List ChnSlot := (upto 24).map fun h => s.slot n h
  if o = 0x04 then
    some (((upto 12).filter fun c => (s.coreOf n c).isSome).length + 16 * (slots.filter fun x => x.armed).length +
      512 * (slots.map ChnSlot.heldCount).sum)
  else if o = 0x20 then
    some (96 - ((upto 24).map fun h => s.rfld (chnSlotCfg n h) 4 7).sum + 256 * (slots.map fun x => x.loaned).sum)
  else if 0x1000 ≤ o ∧ o < 0x1600 ∧ o % 64 = 4 then
    let x := s.slot n ((o - 0x1000) / 64)
    some ((if x.armed then 1 else 0) + 2 * x.prof + 16 * x.heldCount + (if x.op.isSome then 128 else 0) + 256 * x.ops.length + 2048 * x.loaned)
  else none

/-- ORD_STATUS.STATE (Table 9.14): DEDUCED, an engine whose RUN is 0 with a MOP in flight is Running. -/
def State.ordSt (s : State) (n : Nat) : Nat :=
  match (s.ordP n).phase with
  | .idle => if s.rbit (ordCtrl n) 0 then 1 else 0
  | .admitting => 2
  | _ => 3

/-- A word of a completion entry. -/
def MopCpl.word (c : MopCpl) (i : Nat) : W := if i = 0 then c.c0 else if i = 1 then c.c1 else if i = 2 then c.c2 else c.c3

/-- What an engine's own registers show (Tables 9.13 and 9.14). -/
def State.ordValue (s : State) (n o : Nat) : Option W :=
  let x := s.ordP n
  if o = 0x04 then
    some (BitVec.ofNat 32 (s.ordSt n + 4 * x.used + 512 * x.cpls.length + 65536 * (match x.mop with
      | some m => m.tag
      | none => 0)))
  else if o = 0x18 then some (BitVec.ofNat 32 (match x.phase with
    | .waiting _ _ => (x.pc + 16383) % 16384
    | _ => x.pc))
  else if 0x30 ≤ o ∧ o < 0x40 then some (match x.cpls with
    | c :: _ => c.word ((o - 0x30) / 4)
    | [] => 0)
  else if o = 0x48 then some (BitVec.ofNat 32 (bitsFrom 32 0 x.pblkHeld))
  else if 0x8000 ≤ o then some (x.word (8192 * s.rfld (regAddr (bORD n) 0x14) 0 1 + (o - 0x8000) / 4))
  else none

/-- SVO_WIN: pages 0 to 7 the memory, 8 to 15 the capture buffer, which reads 0 while a capture runs (R194, R203). -/
def State.svoWindow (s : State) (i : Nat) : W :=
  let p := s.rfld (regAddr bSVO 0x1C) 0 4
  if p < 8 then s.svoWord (0x2000 * p + i)
  else if s.capSt = 1 ∨ s.capSt = 2 then 0
  else tget (fun _ => 0) s.svo.cap (0x2000 * (p - 8) + i)

/-- The word that an address holds: that of its register, and 0 where there is none (R16). -/
def State.held (s : State) (a : Nat) : W := if (regRow a).isSome then s.reg a else 0

/-- What a read of a register returns: formed from the state for the registers that show it, else the word held. -/
def State.readValue (s : State) (a : Nat) : W :=
  let b := addrBlk a
  let o := addrOff a
  let num (n : Nat) : W := BitVec.ofNat 32 n
  if b = 0x00 then
    if o = 0x14 then s.vgl.epoch.setWidth 32
    else if o = 0x18 then s.vgl.epochLatch
    else if 0x8000 ≤ o then tget (fun _ => 0) s.vgl.save (8192 * s.rfld (regAddr bVGL 0x70) 0 1 + (o - 0x8000) / 4)
    else s.held a
  else if b = 0x01 then
    if o = 0x20 then num (s.minTol.getD 0xFFFFF + 2 ^ 20 * s.lTol)
    else if o = 0x30 then num (s.vgl.tick8 / 8)
    else if o = 0x34 then s.vgl.tickLatch
    else s.held a
  else if b = 0x02 then if o = 0x28 then num s.idesLeft else s.held a
  else if b = 0x03 then
    if o = 0x10 then putBit (s.held a) 3 (!s.fls.held.isEmpty)
    else if o = 0x24 then
      let w := s.rfld (regAddr bFLS 0x20) 0 10
      if w / 128 = 1 then 0 else s.otpWord w
    else if o = 0x28 then num (bitsFrom 8 0 s.otpLocked)
    else if 0x8000 ≤ o then s.flashWord (0x8000 * s.rfld (regAddr bFLS 0x14) 0 11 + (o - 0x8000))
    else s.held a
  else if b = 0x04 then
    if o = 0x14 then s.alm.seq.setWidth 32
    else if o = 0x18 then s.alm.seqLatch
    else if 0x1000 ≤ o ∧ o < 0x1380 then
      (upto 8).foldl (fun w k => if codeFixed (cmapCode ((o - 0x1000) / 4) k) then setFld w (4 * k) 4 7 else w) (s.held a)
    else s.held a
  else if b = 0x05 then if o = 0x04 then putBit (s.held a) 1 s.dbg.mgtMode else s.held a
  else if 0x08 ≤ b ∧ b ≤ 0x0B then
    if o = 0x18 then num (s.macOf (b - 8)) else if o = 0x1C then num (s.macOf (b - 8) / 2 ^ 32 % 2 ^ 16) else s.held a
  else if b = 0x0C then
    if 0x140 ≤ o ∧ o < 0x180 ∧ !s.rbit jubCtrl 1 then 0
    else if o = 0x104 then setFld (s.held a) 7 4 (s.jubK 0).zones.length
    else if o = 0x144 then setFld (s.held a) 7 4 (s.jubK 1).zones.length
    else s.held a
  else if b = 0x0D then
    if o = 0x04 then num s.qmgStatus
    else if 0x30 ≤ o ∧ o < 0x40 then num (s.portCtxs ((o - 0x30) / 4)).length
    else s.held a
  else if b = 0x11 then ((s.cplValue o).map num).getD (s.held a)
  else if 0x14 ≤ b ∧ b ≤ 0x17 then
    if o = 0x00 then putBit (putBit (s.held a) 8 (s.ratePending (b - 0x14))) 10 (s.ulkP (b - 0x14)).sleep.isSome
    else if o = 0x14 then s.ltime.setWidth 32 else if o = 0x18 then (s.ulkP (b - 0x14)).ltimeLatch else s.held a
  else if 0x18 ≤ b ∧ b ≤ 0x1B then ((s.chnValue (b - 0x18) o).map num).getD (s.held a)
  else if b = 0x20 then
    if o = 0x04 then setFld (s.held a) 0 9 (s.svo.loops.filter fun e => e.2.desc.enable).length
    else if 0x8000 ≤ o then s.svoWindow ((o - 0x8000) / 4)
    else s.held a
  else if 0x22 ≤ b ∧ b ≤ 0x25 then (s.ordValue (b - 0x22) o).getD (s.held a)
  else if b = 0x2F then
    if o = 0x04 then num (bitsFrom 5 0 fun i => lget false [s.rbit dbgCtrl 0, s.dbg.tapActive, s.rbit dbgCtrl 1, s.dbg.testEn, s.dbg.mgtMode] i)
    else s.held a
  else s.held a

/-- What a read leaves behind: the upper word of a 64-bit value latched by the read of its lower word (R37). -/
def State.readLatch (s : State) (a : Nat) : State :=
  if a = regAddr bVGL 0x14 then s.also execVglEpochLoRead
  else if a = regAddr bPWR 0x30 then s.also execPwrTickLoRead
  else if a = regAddr bALM 0x14 then s.also execAlmSeqLoRead
  else if 0x14 ≤ addrBlk a ∧ addrBlk a ≤ 0x17 ∧ addrOff a = 0x14 then s.also (execUlkLtimeLoRead (Fin.ofNat 4 (addrBlk a)))
  else s

/-- The word of an on-die memory that an address shows, through a window or in the Vigil bank: its macro group and its place there (R38,
R463, Table 11.2). -/
def State.winWord (s : State) (a : Nat) : Option (Nat × Nat) :=
  let b := addrBlk a
  let i := (addrOff a - 0x8000) / 4
  if b = 0x00 ∧ 0x1000 ≤ addrOff a ∧ addrOff a < 0x2000 then some (29, (addrOff a - 0x1000) / 8)
  else if addrOff a < 0x8000 then none
  else if b = 0x00 then some (28, (8192 * s.rfld (regAddr bVGL 0x70) 0 1 + i) / 2)
  else if b = 0x20 then
    let p := s.rfld (regAddr bSVO 0x1C) 0 4
    if p < 8 then some (26, (8192 * p + i) / 2)
    else if s.capSt = 1 ∨ s.capSt = 2 then none else some (27, (8192 * (p - 8) + i) / 2)
  else if 0x22 ≤ b ∧ b ≤ 0x25 then some (22 + (b - 0x22), (8192 * s.rfld (regAddr b 0x14) 0 1 + i) / 2)
  else none

/-- A read of a word of an on-die memory finds what the code finds there, and data in error is not returned: what the requester gets
in its place is a free value (R331 to R333, log 64). -/
def State.wordRead (s : State) (a : Nat) : Option (Nat × Nat) → State × W
  | none => (s, s.readValue a)
  | some (g, w) =>
    let r := s.sramRead g w .clean
    (r.1.onlyIf (eccBad r.2) State.drawn, if eccBad r.2 then Config.freeWord r.1.free else r.1.readValue a)

/-- A read of an address in the window of an on-die memory. -/
def State.winRead (s : State) (a : Nat) : State × W := s.wordRead a (s.winWord a)

/-- A read through the network: of no register 0, of a dormant block 0 and a violation (R16, R540). -/
def State.netRead (s : State) (by_ : Requester) (addr : Nat) : State × W :=
  let a := addr / 4 * 4
  if a < 0x10000000 || !blockAt (addrBlk a) then (s, 0)
  else if s.dormant (addrBlk a) then (s.mgtViolate (violOf by_), 0)
  else if (s.winWord (rvAlias a)).isSome then s.winRead (rvAlias a)
  else (s.readLatch (rvAlias a), s.readValue (rvAlias a))

/-! ## Writes -/

/-- A word with its writable bits taken from a write and its W1C bits cleared by it (Table 0.5). -/
def RegRow.written (r : RegRow) (old v : W) : W :=
  let rw := BitVec.ofNat 32 r.rw
  ((old &&& ~~~ rw) ||| (v &&& rw)) &&& ~~~ (v &&& BitVec.ofNat 32 r.w1c)

/-- A write of a register whose fields `hw` hardware updates in the same cycle: the write is lost for those of them that it could have
set, and for a status bit that hardware sets (R18, R587). -/
def RegRow.overridden (r : RegRow) (hw : List (Nat × Nat × Nat)) (v : W) : W :=
  hw.foldl (fun v f =>
    let m : W := BitVec.ofNat 32 ((2 ^ f.2.1 - 1) <<< f.1)
    let x : W := BitVec.ofNat 32 ((f.2.2 % 2 ^ f.2.1) <<< f.1)
    let rw := m &&& BitVec.ofNat 32 r.rw
    ((v &&& ~~~ rw) ||| (x &&& rw)) &&& ~~~ (x &&& BitVec.ofNat 32 r.w1c)) v

/-- The hardware's update of such fields. -/
def RegRow.updated (r : RegRow) (hw : List (Nat × Nat × Nat)) (w : W) : W :=
  hw.foldl (fun w f =>
    let m : W := BitVec.ofNat 32 ((2 ^ f.2.1 - 1) <<< f.1)
    let x : W := BitVec.ofNat 32 ((f.2.2 % 2 ^ f.2.1) <<< f.1)
    let rw := m &&& BitVec.ofNat 32 r.rw
    ((w &&& ~~~ rw) ||| (x &&& rw)) ||| (x &&& BitVec.ofNat 32 r.w1c)) w

/-- A write that only sets RW bits and clears W1C bits; an address with no register ignores it (R16 to R18). -/
def State.plainWrite (s : State) (a : Nat) (v : W) : State :=
  match regRow a with
  | some r => s.setReg a (r.written (s.reg a) v)
  | none => s

/-- The same for a register that may be one of the Vigil bank (R463). -/
def State.bankWrite (s : State) (a : Nat) (v : W) : State :=
  match regRow a with
  | some r => s.setBank a (r.written (s.reg a) v)
  | none => s

/-- A write of the RW bits that `mask` names only. -/
def State.maskWrite (s : State) (a : Nat) (mask v : W) : State := s.setReg a ((s.reg a &&& ~~~ mask) ||| (v &&& mask))

/-- VGL and the Vigil bank (R466, R471). -/
def State.vglWrite (s : State) (o : Nat) (v : W) : State :=
  if o = 0x1C then s.modVgl fun x => { x with loadLo := v }
  else if o = 0x20 then s.epochLoad v
  else if 0x8000 ≤ o then
    if s.pwr.entry.isSome || s.pwr.exit.isSome then s
    else
      let i := 8192 * s.rfld (regAddr bVGL 0x70) 0 1 + (o - 0x8000) / 4
      (s.modVgl fun x => { x with save := xorPair (tset (fun _ => 0) x.save i v) (i / 2) (s.sramFlip 28 (i / 2)) }).sramWrote 28 (i / 2)
  else match (upto 4).find? fun p => hifLattol p == regAddr bVGL o with
    | some p => s.hifLattolWrite p v
    | none => s.bankWrite (regAddr bVGL o) v

/-- PWR: the fields of PWR_CTRL are written before its requests act. -/
def State.pwrWrite (s : State) (by_ : Requester) (o : Nat) (v : W) : State :=
  if o = 0x00 then
    let s := s.plainWrite pwrCtrl v
    let s := s.onlyIf (bitAt v 5) State.pl5Request
    let s := s.onlyIf (bitAt v 6 && State.mayHold by_) State.holdRequest
    let s := s.onlyIf (bitAt v 7) fun s => s.wakeBy 7
    s.pwrRecompute
  else if o = 0x28 ∧ (s.pwr.entry.isSome || s.pwr.exit.isSome) then s
  else s.plainWrite (regAddr bPWR o) v

/-- CLK (R474 to R480, R588). -/
def State.clkWrite (s : State) (by_ : Requester) (o : Nat) (v : W) : State :=
  if o = 0x00 then
    let s := s.onlyIf (bitAt v 0) fun s => s.controlRst by_
    let s := s.onlyIf (bitAt v 1) fun s => s.warmReset by_
    s.onlyIf (bitAt v 2) fun s => s.cpuRst by_
  else if o = 0x20 then s.idesCfgWrite v
  else if o = 0x24 then s.idesKick by_ v
  else if o = 0x34 then s.bootConfirm by_ v
  else if o = 0x40 ∨ o = 0x44 then s.each (maskBits 32 v.toNat) fun s i => s.blockRst by_ (8 * (o - 0x40) + i)
  else s.plainWrite (regAddr bCLK o) v

/-- FLS: GO captures the other fields of FLS_CMD; `again` says that hardware clears GO in the same cycle (R18, R489, R509). -/
def State.flsWrite (s : State) (by_ : Requester) (o : Nat) (v : W) (bits : Nat) (again : Bool) : State :=
  if o = 0x10 ∧ bitAt v 3 then
    if fld v 0 3 = 3 then (s.flsCmdShow 3 (fld v 4 8) (fld v 12 9)).flsSuspend
    else s.flsCmd by_ (fld v 0 3) (fld v 4 8) (fld v 12 9) bits again
  else if o = 0x24 then s.modFls fun f => { f with otpData := v }
  else s.plainWrite (regAddr bFLS o) v

/-- ALM (R529, R534). -/
def State.almWrite (s : State) (by_ : Requester) (o : Nat) (v : W) : State :=
  if o = 0x00 then s.onlyIf (bitAt v 0) State.flush
  else if 0x2000 ≤ o ∧ o < 0x2204 then { s with alm := { s.alm with app := tset (fun _ => 0) s.alm.app ((o - 0x2000) / 4) v } }
  else if o = 0x2204 then s.onlyIf (bitAt v 0) fun s => s.almAccept s.almApp (almSource by_)
  else s.plainWrite (regAddr bALM o) v

/-- MGT: MGT_LOCK is written by the application cores only (R546). -/
def State.mgtWrite (s : State) (by_ : Requester) (o : Nat) (v : W) : State :=
  if o = 0x14 then match by_ with
    | .cpu _ => s.plainWrite mgtLock v
    | _ => s
  else s.plainWrite (regAddr bMGT o) v

/-- CAL (R511 to R518). -/
def State.calWrite (s : State) (o : Nat) (v : W) : State :=
  if o = 0x00 then
    let s := s.plainWrite calCtrl v
    s.each ((upto 4).filter fun a => bitAt v (2 + a)) fun s a => s.calTrigger a false
  else if o = 0x80 then s.calBatchWrite (fld v 0 1) (fld v 2 11) (bitAt v 1)
  else if 0x2000 ≤ o ∧ o < 0x2800 ∧ (regRow (regAddr bCAL o)).isSome then
    s.upreWrite ((o - 0x2000) / 0x200) (o % 0x200 / 0x80) (o % 0x80 / 4) v
  else if 0x2800 ≤ o ∧ o < 0x2900 ∧ (regRow (regAddr bCAL o)).isSome then s.jpreWrite ((o - 0x2800) / 0x40) (o % 0x40 / 4) v
  else if 0x3000 ≤ o ∧ o < 0x3200 ∧ (regRow (regAddr bCAL o)).isSome then s.adcoffWrite ((o - 0x3000) / 0x80) (o % 0x80 / 4) v
  else if 0x4000 ≤ o ∧ o < 0x8000 then s.calShadowWrite ((o - 0x4000) / 0x2000) (o % 0x2000 / 8) (o % 8 / 4) v
  else s.plainWrite (regAddr bCAL o) v

/-- HIF of port `p` (R372 to R380). -/
def State.hifWrite (s : State) (p o : Nat) (v : W) : State :=
  if o = 0x00 then
    let s := (s.maskWrite (hifCtrl p) 0x3A v).hifPortEn p (bitAt v 0)
    s.onlyIf (bitAt v 2) fun s => s.hifRestart p
  else if o = 0x10 then s.hifModeWrite p false v
  else if o = 0x14 then s.hifModeWrite p true v
  else if o = 0x20 then s.hifQlimitWrite p v
  else s.plainWrite (regAddr (bHIF p) o) v

/-- JUB_CTRL: SPLIT is ignored while ENABLE is 1; a link of a port taken out of service is Off. -/
def State.jubCtrlWrite (s : State) (v : W) : State :=
  let was := s.rbit jubCtrl 0
  let on := bitAt v 0
  let s := s.onlyIf (was && !on) fun s => s.each ((upto 2).filter fun k => s.jubHas k) fun s k => (s.jubDown k).setJubLink k 0
  let s := s.maskWrite jubCtrl (if was then 0xD else 0xF) v
  s.onlyIf (on && !was) fun s => s.each (upto 2) fun s k => s.modJub k fun l => { l with presets := false }

/-- JUB (R423 to R440). -/
def State.jubWriteReg (s : State) (o : Nat) (v : W) (up : Bool) : State :=
  let link (s : State) (k : Fin 2) : State :=
    let s := s.setRbit (jubL k 0) 0 (bitAt v 0)
    let s := s.onlyIf (bitAt v 1 != s.rbit (jubL k 0) 1) fun s => s.also (execJubPause k (bitAt v 1))
    let s := s.onlyIf (bitAt v 2) fun s => s.also (execJubStart k)
    let s := s.onlyIf (bitAt v 3) fun s => s.also (execJubAbort k)
    s.onlyIf (bitAt v 4) fun s => s.also (execJubRetrain k up)
  if o = 0x00 then s.jubCtrlWrite v
  else if o = 0x100 then link s 0
  else if o = 0x140 then link s 1
  else s.plainWrite (regAddr bJUB o) v

/-- QMG (R412). -/
def State.qmgWrite (s : State) (o : Nat) (v : W) : State :=
  if o = 0x00 then (s.maskWrite qmgCtrl 1 v).holdAdmit (bitAt v 1) else s.plainWrite (regAddr bQMG o) v

/-- BUF (R335, R337). -/
def State.bufWrite (s : State) (o : Nat) (v : W) : State :=
  if o = 0x14 then (s.plainWrite (regAddr bBUF 0x14) v).onlyIf (bitAt v 5) fun s => s.also execBufEccTestArm
  else if 0x400 ≤ o ∧ o < 0x800 then s.bufRemapWrite ((o - 0x400) / 32) (o % 32 / 4) v
  else s.plainWrite (regAddr bBUF o) v

/-- LNT (R340 to R343). -/
def State.lntWrite (s : State) (o : Nat) (v : W) : State :=
  if o = 0x00 then s.lntCtrlWrite v else if o = 0x18 then s.rmCmdWrite v else s.plainWrite (regAddr bLNT o) v

/-- MEM (R324 to R330, R349). -/
def State.memWrite (s : State) (o : Nat) (v : W) : State :=
  if o = 0x00 then (s.plainWrite memCtrl v).onlyIf (bitAt v 1) State.memInit
  else if o = 0x2C then (s.plainWrite (regAddr bMEM 0x2C) v).onlyIf (bitAt v 0) fun s => s.also execMemEccTestArm
  else if 0x100 ≤ o ∧ o < 0x200 then s.memRemapWrite ((o - 0x100) / 64) (o % 64 / 4) v
  else s.plainWrite (regAddr bMEM o) v

/-- CPL: RESET looks at ENABLE as it stood before the write (R363, R587). -/
def State.cplWrite (s : State) (o : Nat) (v : W) : State :=
  if o = 0x00 then (s.plainWrite cplCtrl v).onlyIf (bitAt v 1) State.poolReset
  else if 0x4000 ≤ o ∧ o < 0x8000 then
    let q := (o - 0x4000) / 16
    if o % 16 = 0 then (s.onlyIf (bitAt v 1) fun s => s.queueReset q).plainWrite (cplQCfg q) v
    else if o % 16 = 4 then s.shareWrite q v
    else s
  else s.plainWrite (regAddr bCPL o) v

/-- SEC: SEC_CMD is ignored while BUSY is 1 (R503 to R505, R509). -/
def State.secWrite (s : State) (o : Nat) (v : W) (ok : Bool) : State :=
  if o = 0x10 then
    let op := fld v 0 2
    let slot := fld v 3 6
    let psk := bitAt v 9
    if s.rbit secStatus 1 then s
    else if !bitAt v 2 then s.plainWrite secCmdReg v
    else if op = 1 then s.secGenerate slot ok
    else if op = 2 then s.secUnwrap slot psk ok
    else if op = 3 then s.secClear slot psk
    else s.plainWrite secCmdReg v
  else s.plainWrite (regAddr bSEC o) v

/-- ULK of port `n`: the other fields of ULK_CTRL are written before PORT_EN and the requests act (R104 to R108). RATE_REQ and SLEEP_REQ
read 1 until what they ask for is done; RETRAIN and WAKE_REQ have done it at once (Table 0.5). -/
def State.ulkWrite (s : State) (n o : Nat) (v : W) : State :=
  if o = 0x00 then
    let s := (s.maskWrite (ulkCtrl n) 0xFF007E v).portEn n (bitAt v 0)
    let s := s.onlyIf (bitAt v 8) fun s => s.rateRequest n
    let s := s.onlyIf (bitAt v 9) fun s => s.ulkRetrain n
    let s := s.onlyIf (bitAt v 10) fun s => s.sleepReq n
    s.onlyIf (bitAt v 11) fun s => s.wakeReq n
  else s.plainWrite (regAddr (bULK n) o) v

/-- A gate of a head is open, sent or placed. -/
def State.headGated (s : State) (n h : Nat) : Bool := (s.ordP n).gates.any fun g => g.head == h

/-- The coefficients of a word of CHN_EQ: 61 stand in each set, and what is beyond them is reserved (R122). -/
def eqMask (k : Nat) : W := if k = 31 then 0 else if k = 30 then 0xFFFF else 0xFFFFFFFF

/-- CHN of actuator `n` (R140, R153, R511). -/
def State.chnWrite (s : State) (n o : Nat) (v : W) : State :=
  let a := regAddr (bCHN n) o
  if o = 0x00 then (s.plainWrite a v).onlyIf (bitAt v 1) fun s => s.chnSoftReset n
  else if 0x100 ≤ o ∧ o < 0x180 ∧ o % 16 = 4 then
    let p := (o - 0x100) / 16
    s.calWait a ((upto 24).any fun h => (s.slot n h).armed && (s.slot n h).prof == p) (v &&& 0x0FFFFFFF)
  else if 0x1000 ≤ o ∧ o < 0x1600 then
    let h := (o - 0x1000) / 64
    if o % 64 = 0 then s.slotCfgWrite n h v
    else if 8 ≤ o % 64 ∧ o % 64 < 0x14 then s.chnSettingWrite n h a v
    else if o % 64 = 0x20 then s.chnSettingWrite n h a (v &&& 0xFF)
    else s
  else if 0x4000 ≤ o ∧ o < 0x5800 then s.chnSettingWrite n ((o - 0x4000) / 256) a (v &&& eqMask (o % 128 / 4))
  else s.plainWrite a v

/-- WPA of actuator `n` (R160 to R180). -/
def State.wpaWrite (s : State) (n o : Nat) (v : W) : State :=
  let a := regAddr (bWPA n) o
  if o = 0x00 then s.wpaCtrlWrite n v
  else if o = 0x14 then s.inhibitClear n (fld v 0 24)
  else if o = 0x18 then s.inhibitSet n (fld v 0 24)
  else if 0x1000 ≤ o ∧ o < 0x1600 ∧ o % 64 = 0 then s.calWait a (s.headGated n ((o - 0x1000) / 64)) (v &&& 0xFFF1)
  else s.plainWrite a v

/-- A capture is Armed or Running. -/
def State.capBusy (s : State) : Bool := s.capSt == 1 || s.capSt == 2

/-- A register of actuator `a` whose write takes effect at the next wedge boundary keeps its old value in force while boundaries come
(R206). -/
def State.holdOld (s : State) (addr a : Nat) : State :=
  let old := s.svoEff addr
  s.onlyIf (decide (2 ≤ s.actSt a) && decide (s.actSt a ≤ 4)) fun s =>
    { s with svo := { s.svo with held := tset (fun _ => none) s.svo.held addr (some old) } }

/-- SVO (R190, R194 to R206). A generator whose TYPE is written 0 has no start left to go on from, and one that
is to start at the trigger waits for it (R201). -/
def State.svoWrite (s : State) (o : Nat) (v : W) : State :=
  let a := regAddr bSVO o
  if o = 0x00 then s.svoCtrlWrite v
  else if o = 0x10 then
    let w := fld v 0 10
    if 64 ≤ w ∧ w ≤ 1016 ∧ w % 8 = 0 then (s.plainWrite a v).setReg svoTwMin (BitVec.ofNat 32 (60000000000 / (7200 * w))) else s
  else if o = 0x20 then s.svoCommit v
  else if 0x30 ≤ o ∧ o < 0x40 then (s.holdOld a (o % 16 / 4)).plainWrite a v
  else if 0x80 ≤ o ∧ o < 0xC0 ∧ o % 16 = 0 then
    let g := (o - 0x80) / 16
    let s := (s.plainWrite a v).onlyIf (fld v 11 2 == 0 || bitAt v 13) fun s => s.setGen g { s.gen g with started := false }
    s.onlyIf (fld v 11 2 != 0 && !bitAt v 13) fun s => s.genStart g
  else if o = 0xC0 then
    let s := s.maskWrite capCtrl (if s.capBusy then 0xFFFF00 else 0xFFFF30) v
    let s := s.onlyIf (bitAt v 0) fun s => s.also execCapArm
    let s := s.onlyIf (bitAt v 1) fun s => s.also execCapForce
    s.onlyIf (bitAt v 2) fun s => s.also execCapStop
  else if (o = 0xC8 ∨ (0xD0 ≤ o ∧ o < 0xE0)) ∧ s.capBusy then s
  else if 0x8000 ≤ o then s.svoWinWrite ((o - 0x8000) / 4) v
  else s.plainWrite a v

/-- ORD of engine `n` (R267 to R276). -/
def State.ordWrite (s : State) (n o : Nat) (v : W) : State :=
  if o = 0x00 then
    let s := (s.plainWrite (ordCtrl n) v).ordRun n (bitAt v 0)
    let s := s.onlyIf (bitAt v 1) fun s => s.also (execOrdCancel (Fin.ofNat 4 n))
    s.onlyIf (bitAt v 2) fun s => s.also (execReturnQueued (Fin.ofNat 4 n))
  else if 0x20 ≤ o ∧ o < 0x2C then s.modOrd n fun x => { x with submit := tset (fun _ => 0) x.submit ((o - 0x20) / 4) v }
  else if o = 0x2C then s.mopSubmit n v
  else if o = 0x40 then s.onlyIf (bitAt v 0) fun s => s.also (execOrdCplPop (Fin.ofNat 4 n))
  else if 0x8000 ≤ o then s.storeWrite n (8192 * s.rfld (regAddr (bORD n) 0x14) 0 1 + (o - 0x8000) / 4) v
  else s.plainWrite (regAddr (bORD n) o) v

/-- The VCM loop of an actuator in this state does not update: a write of SETTLE or TIMEOUT takes effect at once (R238). -/
def State.vcmStill (s : State) (a : Nat) : Bool := [0, 1, 5, 6].contains (s.actSt a)

/-- ACT: the registers of one actuator (R222 to R238). -/
def State.actRegWrite (s : State) (a k : Nat) (v : W) : State :=
  let r := actReg a k
  if k = 0x00 then
    let s := s.onlyIf (bitAt v 0) fun s => s.actDisable a
    let s := s.onlyIf (bitAt v 1) fun s => s.also (execReenable (Fin.ofNat 4 a))
    let s := s.onlyIf (bitAt v 2) fun s => s.retract a 0x181
    s.onlyIf (bitAt v 3) fun s => s.actLoad a
  else if k = 0x0C then
    (s.plainWrite r v).onlyIf (s.vcmStill a) fun s => s.setAct a { s.actP a with settleCfg := s.reg r }
  else if k = 0x18 then s.headdisWrite a v
  else if k = 0x20 then
    (s.plainWrite r v).onlyIf (s.vcmStill a) fun s => s.setAct a { s.actP a with timeoutCfg := s.reg r }
  else if k = 0x24 then (s.plainWrite r v).onlyIf (bitAt v 16) fun s => s.ampcmdGo a
  else s.plainWrite r v

def State.actWrite (s : State) (o : Nat) (v : W) : State :=
  if o = 0x00 then s.actLinkEn (fld v 0 4)
  else if o = 0x10 then s.also (execGovBudgetWrite v)
  else if 0x100 ≤ o ∧ o < 0x200 then s.actRegWrite ((o - 0x100) / 64) (o % 64) v
  else s.plainWrite (regAddr bACT o) v

/-- DBG_CTRL: HALT is written by DBG_ACCESS only, LOCK by the application cores only (Table 20.16). -/
def State.dbgWrite (s : State) (by_ : Requester) (o : Nat) (v : W) : State :=
  if o = 0x00 then match by_ with
    | .dbg => s.haltWrite (bitAt v 0)
    | .cpu _ => s.onlyIf (bitAt v 1) State.lockSet
    | _ => s
  else s

/-- A write of a register of a block that is not dormant. -/
def State.regStore (s : State) (by_ : Requester) (a : Nat) (v : W) (env : RegEnv) : State :=
  let b := addrBlk a
  let o := addrOff a
  if b = 0x00 then s.vglWrite o v
  else if b = 0x01 then s.pwrWrite by_ o v
  else if b = 0x02 then s.clkWrite by_ o v
  else if b = 0x03 then s.flsWrite by_ o v env.bits (env.hw.any fun f => f == (3, 1, 0))
  else if b = 0x04 then s.almWrite by_ o v
  else if b = 0x05 then s.mgtWrite by_ o v
  else if b = 0x06 then s.calWrite o v
  else if 0x08 ≤ b ∧ b ≤ 0x0B then s.hifWrite (b - 0x08) o v
  else if b = 0x0C then s.jubWriteReg o v env.up
  else if b = 0x0D then s.qmgWrite o v
  else if b = 0x0E then s.bufWrite o v
  else if b = 0x0F then s.lntWrite o v
  else if b = 0x10 then s.memWrite o v
  else if b = 0x11 then s.cplWrite o v
  else if b = 0x12 then s.secWrite o v env.ok
  else if 0x14 ≤ b ∧ b ≤ 0x17 then s.ulkWrite (b - 0x14) o v
  else if 0x18 ≤ b ∧ b ≤ 0x1B then s.chnWrite (b - 0x18) o v
  else if 0x1C ≤ b ∧ b ≤ 0x1F then s.wpaWrite (b - 0x1C) o v
  else if b = 0x20 then s.svoWrite o v
  else if b = 0x21 then (if o = 0x00 then s.motCtrlWrite v else s.plainWrite a v)
  else if 0x22 ≤ b ∧ b ≤ 0x25 then s.ordWrite (b - 0x22) o v
  else if b = 0x26 then s.actWrite o v
  else if b = 0x2F then s.dbgWrite by_ o v
  else s

/-- A write at the register of address `a`: where the hardware updates fields of it in the same cycle, the update stands for those and
the write takes effect for the others (R18, R587). -/
def State.storeMeeting (s : State) (by_ : Requester) (a : Nat) (v : W) (env : RegEnv) : State :=
  match env.hw, regRow a with
  | _ :: _, some r =>
    let s := s.regStore by_ a (r.overridden env.hw v) env
    s.setReg a (r.updated env.hw (s.reg a))
  | _, _ => s.regStore by_ a v env

/-- A write through the network (R16, R540). -/
def State.netWrite (s : State) (by_ : Requester) (addr : Nat) (v : W) (env : RegEnv) : State :=
  let a := addr / 4 * 4
  if a < 0x10000000 || !blockAt (addrBlk a) then s
  else if s.dormant (addrBlk a) then s.mgtViolate (violOf by_)
  else s.storeMeeting by_ (rvAlias a) v env

/-- REGISTER_WRITE: a write by a core. -/
def execRegisterWrite (by_ : Requester) (addr v : BitVec 32) (env : RegEnv) (s : State) : Host.Outcome State Fault Refusal :=
  .next (s.netWrite by_ addr.toNat v env)

/-! ## The management port (R547) -/

/-- A run of `count` registers lies in one block window of the range that the port reaches. -/
def runOk (addr count : Nat) : Bool :=
  decide (0x10000000 ≤ addr) && decide (addr / 4 * 4 + 4 * count ≤ 0x10300000) &&
  decide (addrBlk (addr / 4 * 4) = addrBlk (addr / 4 * 4 + 4 * (count - 1)))

/-- Reads of a run, in order. -/
def State.readRun (s : State) (addr : Nat) : Nat → State × List Byte
  | 0 => (s, [])
  | n + 1 =>
    let r := s.readRun addr n
    let x := r.1.netRead .mgtPort (addr + 4 * n)
    (x.1, r.2 ++ leBytes 4 x.2.toNat)

/-- REG_READ. -/
def execRegRead (h : MgtHdr) (addr count : Nat) (s : State) : Host.Outcome State Fault Refusal :=
  .next (s.mgtReq h none (decide (1 ≤ count) && decide (count ≤ 64) && runOk addr count) fun s =>
    let r := s.readRun addr count
    (r.1, 0, r.2))

/-- Writes of a run, in order. -/
def State.writeRun (s : State) (env : RegEnv) (addr : Nat) : List W → State
  | [] => s
  | v :: vs => (s.netWrite .mgtPort addr v env).writeRun env (addr + 4) vs

/-- REG_WRITE. -/
def execRegWrite (h : MgtHdr) (addr : Nat) (words : List W) (env : RegEnv) (s : State) : Host.Outcome State Fault Refusal :=
  .next (s.mgtReq h (some 0) (decide (1 ≤ words.length) && decide (words.length ≤ 268) && runOk addr words.length) fun s =>
    (s.writeRun env addr words, 0, []))

/-- REG_MODIFY: a read and a write, which on a dormant block are two violations. -/
def execRegModify (h : MgtHdr) (addr : Nat) (mask value : BitVec 32) (env : RegEnv) (s : State) : Host.Outcome State Fault Refusal :=
  .next (s.mgtReq h (some 0) (runOk addr 1) fun s =>
    let r := s.netRead .mgtPort addr
    (r.1.netWrite .mgtPort addr ((r.2 &&& ~~~ mask) ||| (value &&& mask)) env, 0, leBytes 4 r.2.toNat))

/-! ## The TAP (R458, R572) -/

/-- DBG_ACCESS: BYPASS while LOCK is 1; else one access, whose data and DONE the next capture shows. DEDUCED: in PL5-hold the
access finds a dormant block, and DBG returns the controller to the state it left (R458). -/
def execDbgAccess (addr data : BitVec 32) (write : Bool) (env : RegEnv) (s : State) : Host.Outcome State Fault Refusal :=
  .next (
    if s.rbit dbgCtrl 1 then (s.tapLoad 0xFF 0).modDbg fun d => { d with bypass := false }
    else
      let s := s.tapLoad 0x20 0
      let r := if write then (s.netWrite .dbg addr.toNat data env, data) else s.netRead .dbg addr.toNat
      let s := r.1.modDbg fun d => { d with reply := (r.2.toNat, 1) }
      s.onlyIf s.pwr.hold.isSome State.pwrEvent)

/-! ## Equinox batches (R518 to R520) -/

/-- A register of the calibration set whose target takes the write now (Table 18.1, R519). -/
def State.calTakes (s : State) (a : Nat) : Bool :=
  let b := addrBlk a
  let o := addrOff a
  if a < 0x10000000 || !blockAt b || s.dormant b then false
  else if b = 0x20 then
    if o = 0x1C ∨ o = 0x20 then true
    else if o < 0x8000 ∨ 8 ≤ s.rfld (regAddr bSVO 0x1C) 0 4 then false
    else
      let w := 0x2000 * s.rfld (regAddr bSVO 0x1C) 0 4 + (o - 0x8000) / 4
      if w < stateWord 0 then !s.setActive (w / 96)
      else decide (descWord 0 ≤ w) && decide (w < descWord 296) && descMask ((w - descWord 0) % 8) != 0
  else (upto 4).any fun n => calSetReg n a

/-- The last entry of a bank's batch has been written. -/
def State.batchDone (s : State) (b count : Nat) : State :=
  let s := s.modCal fun c => { c with apply := tset (fun _ => none) c.apply b none }
  (((s.setRbit calStatus (8 + b) false).setRfld calBatchStatus 0 11 count).count (calCtr 1)).raise calInt 2

/-- CAL_ENTRY_APPLY: the bank's next entry is written as a register write is, or refused (log 74). DEDUCED: an entry for
MOT_SHUNT or for a register that holds other fields too writes the whole word. -/
def execCalEntryApply (bank : Fin 2) (s : State) : Host.Outcome State Fault Refusal :=
  .next (match s.calApply bank with
    | none => s
    | some (e, count) =>
      let a := (s.reg (calShadow bank e 0)).toNat / 4 * 4
      let v := s.reg (calShadow bank e 1)
      let s := if s.calTakes a then s.regStore (.cpu 0) a v {}
        else ((s.setRfld calBatchStatus 16 16 0x40).count (calCtr 2)).raise calInt 3
      if e + 1 = count then s.batchDone bank count
      else s.modCal fun c => { c with apply := tset (fun _ => none) c.apply bank (some (e + 1, count)) })

end Sys2Proof.Machine
end

