-- ==== Sys2Proof/Machine/Power.lean ====
section
/-!
DEFINITION. The steps of entering and leaving the power levels: what each step of Table 16.3 does, the save list, and how an exit
reverses them (R441, R448 to R457).
-/
namespace Sys2Proof.Machine

/-! ## The save list (R452 to R455) -/

/-- Word `i` of the Vigil save memory. -/
def State.saveWord (s : State) (i : Nat) : W := tget (fun _ => 0) s.vgl.save i

/-- Write a word of it. -/
def State.setSaveWord (s : State) (i : Nat) (v : W) : State :=
  (s.modVgl fun x => { x with save := xorPair (tset (fun _ => 0) x.save i v) (i / 2) (s.sramFlip 28 (i / 2)) }).sramWrote 28 (i / 2)

/-- PWR_SAVE_CFG.LIST_WORDS. -/
def State.listWords (s : State) : Nat := s.rfld pwrSaveCfg 0 15

/-- A run of the list: the word of its first value, its block, its first offset and its registers. -/
structure SaveRun where
  at_ : Nat
  blk : Nat
  off : Nat
  count : Nat
deriving DecidableEq, Repr

/-- The runs from word `i` to the end of the list. -/
def State.saveRuns (s : State) (last : Nat) : Nat → Nat → List SaveRun
  | 0, _ => []
  | n + 1, i =>
    if last ≤ i then []
    else
      let h := s.saveWord i
      let r : SaveRun := { at_ := i + 1, blk := fld h 0 6, off := 4 * fld h 6 14, count := fld h 20 12 + 1 }
      r :: s.saveRuns last n (i + 1 + r.count)

/-- The runs of a list of that many words. -/
def State.saveList (s : State) (words : Nat) : List SaveRun := s.saveRuns words words 4

/-- The list is one that R454 refuses. -/
def State.saveListBad (s : State) : Bool :=
  decide (16384 < s.listWords) ||
  (s.saveList s.listWords).any fun r => r.blk == 0 || !blockAt r.blk || decide (0x10000 < r.off + 4 * r.count)

/-- The values of a run that lie within the list. -/
def SaveRun.values (r : SaveRun) (words : Nat) : List Nat := upto (min r.count (words - r.at_))

/-- CRC-32C of the list but for word 2. -/
def State.saveCrc (s : State) (words : Nat) : W :=
  crc32c (((upto words).filter fun i => i != 2).map fun i => leBytes 4 (s.saveWord i).toNat).flatten

/-- PWR saves the runs whose blocks the level turns off (R453); hardware writes words 0 to 3 too. -/
def State.save (s : State) (level : Nat) (goes : Nat → Bool) : State :=
  let n := s.listWords
  if n = 0 then s.modVgl fun v => { v with saved := v.saved.filter fun l => l != level }
  else
    let s := s.modVgl fun v => { v with saved := level :: v.saved.filter fun l => l != level }
    let s := s.each ((s.saveList n).filter fun r => goes r.blk) fun s r =>
      s.each (r.values n) fun s i => s.setSaveWord (r.at_ + i) (s.readValue (rvAlias (regAddr r.blk (r.off + 4 * i))))
    let s := ((s.setSaveWord 0 0x53564C31).setSaveWord 1 (BitVec.ofNat 32 n)).setSaveWord 3 (BitVec.ofNat 32 level)
    s.setSaveWord 2 (s.saveCrc n)

/-- The list can be read back. -/
def State.saveGood (s : State) (badWord : Bool) : Bool :=
  !badWord && s.saveWord 0 == 0x53564C31 && s.saveWord 2 == s.saveCrc (s.saveWord 1).toNat

/-- The list is read: whether a word of it is uncorrectable. One that the environment finds so lies anywhere in it (R333, R455). -/
def State.saveTake (s : State) (badWord : Bool) : State × Bool :=
  let r := (upto (ceilDiv (min (s.saveWord 1).toNat 16384) 2)).foldl (fun (r : State × Bool) w =>
    let x := r.1.sramRead 28 w .clean
    (x.1, r.2 || eccBad x.2)) (s, false)
  (r.1.onlyIf badWord fun s => s.sramSomewhere 28 .uncorrectable, r.2 || badWord)

/-- A restore is impossible: the blocks stay at their reset values (R455). -/
def State.restoreFailed (s : State) : State := ((s.setRfld pwrStatus 16 16 0x32).raise pwrInt 3).count (pwrCtr 3)

/-- The bits of a register that act when a 1 is written. -/
def actBits (a : Nat) : W :=
  match regRow a with
  | some x => BitVec.ofNat 32 (x.w1c ||| x.w1s)
  | none => 0

/-- A value is loaded into a register through the network's own writes. -/
def State.loadReg (s : State) (e : Nat × W) : State := s.regStore (.cpu 0) e.1 e.2 {}

/-- Value `i` of a run is written back, bits of W1C and W1S fields as 0 (R455). -/
def State.restoreWord (r : SaveRun) (s : State) (i : Nat) : State :=
  s.loadReg (rvAlias (regAddr r.blk (r.off + 4 * i)), s.saveWord (r.at_ + i) &&& ~~~ actBits (rvAlias (regAddr r.blk (r.off + 4 * i))))

/-- Saved values are written back in list order. -/
def State.restoreRuns (s : State) (goes : Nat → Bool) : State :=
  s.each ((s.saveList (s.saveWord 1).toNat).filter fun r => goes r.blk) fun s r =>
    s.each (r.values (s.saveWord 1).toNat) (State.restoreWord r)

/-- PWR restores the blocks of a level, where its entry saved anything (R453, R455). -/
def State.restore (s : State) (level : Nat) (badWord : Bool) (goes : Nat → Bool) : State :=
  if !s.vgl.saved.contains level then s
  else
    let r := s.saveTake badWord
    if r.1.saveGood r.2 then r.1.restoreRuns goes else r.1.restoreFailed

/-! ## Domains (Table 16.1) -/

/-- The domains that the entry into a level turns off. -/
def State.levelDomains (s : State) (l : Nat) : List Nat :=
  if l = 2 then [5, 6]
  else if l = 4 then [1, 2, 3, 4] ++ ((upto 4).filter fun p => !s.rbit (hifStatus p) 7).map fun p => 8 + p
  else if l = 5 then [0, 8, 9, 10, 11]
  else []

/-- The blocks of a list of domains. -/
def domainBlocks (ds : List Nat) : List Nat := (upto 64).filter fun b => blockAt b && match domainOf b with
  | some d => ds.contains d
  | none => false

/-- A block loses what it held as its domain goes off. Kept outside it: association and connection state, contexts and LPDDR6
(R450), and the resume state of Jubilee. -/
def State.blockOff (s : State) (b : Nat) : State :=
  if 0x08 ≤ b ∧ b ≤ 0x0B then
    let p := b - 0x08
    let h := s.hifP p
    (s.clearWindow b).setHif p { conns := h.conns, discovery := h.discovery, ctrl := h.ctrl, wait := h.wait, net := h.net }
  else if b = 0x0D ∨ b = 0x10 then s.clearWindow b
  else if 0x22 ≤ b ∧ b ≤ 0x25 then (s.resetBlock b).setOrd (b - 0x22) {}
  else s.resetBlock b

/-- Domains go off. -/
def State.powerOff (s : State) (ds : List Nat) : State :=
  let s := s.onlyIf (ds.contains 2) State.latchAnchor
  let s := s.onlyIf (ds.contains 5) fun s => s.modPwr fun p => { p with asleep := (upto 4).filter fun n => s.ulkSt n == 5 }
  let s := s.each (domainBlocks ds) State.blockOff
  s.modPwr fun p => { p with off := ds.foldl (fun m d => m ||| 2 ^ d) p.off }

/-- Domains come on: Tick is to be reloaded with FAB (R468), link time starts with SVO_CLK (R85). -/
def State.powerOn (s : State) (ds : List Nat) : State :=
  let s := s.modPwr fun p => { p with off := ds.foldl (fun m d => m &&& (0xFFF ^^^ 2 ^ d)) p.off }
  let s := s.onlyIf (ds.contains 2) fun s => s.modVgl fun v => { v with reload := true, leapFrom := none }
  let s := s.onlyIf (ds.contains 6) fun s => { s with ltime := 0 }
  s.each ((upto 4).filter fun p => ds.contains (8 + p)) fun s p => s.setRbit (hifStatus p) 6 (s.hifP p).ctrl.isSome

/-! ## What firmware loads again (R268, R457, R504) -/

/-- The Ordo stores and the servo memory, from the Ordo and servo partition. -/
def State.reloadMedia (s : State) : State :=
  let s := s.each s.fw.ordoImg fun s e => s.modOrd (e.1 % 4) fun o => { o with store := tset (fun _ => 0) o.store (e.2.1 % 15360) e.2.2 }
  s.each s.fw.svoImg fun s e => s.setSvoWord (e.1 % 65536) e.2

/-- Keys, from the key store. -/
def State.reloadKeys (s : State) : State :=
  let s := s.each s.fw.spaces fun s n => match n.key, s.sec.store.find? fun e => e.1 == n.nsid with
    | some k, some e => s.setKeySlot k e.2
    | _, _ => s
  s.each s.sec.pskStore fun s e => s.modSec fun c => { c with psk := tset (fun _ => []) c.psk e.1 e.2 }

/-! ## Entry steps (Table 16.3) -/

/-- The lowest position of a mask. -/
def lowestBit (m : Nat) : Nat := match maskBits 24 m with
  | h :: _ => 2 ^ h
  | [] => 0

/-- PL1: gangs reduced to their lowest head; a calibration run ends as the controller leaves PL0 (R516). -/
def State.gangsDown (s : State) : State :=
  let s := s.each (upto 4) State.calAbandon
  s.each (upto 4) fun s a => s.setRfld (actGang a) 0 24 (lowestBit (s.rfld (actGang a) 0 24))

/-- Actuators that a retract moves now. -/
def State.loadedMask (s : State) : Nat := bitsFrom 4 0 fun a => s.unparked.contains a

/-- MOT_CTRL.TARGET is written, ENABLE unchanged. -/
def State.motTargetSet (s : State) (t : Nat) : State := s.motCtrlWrite (setFld (s.reg motCtrl) 1 2 t)

/-- Every line of Lantern is cleaned and invalidated (R341). -/
def State.lanternEmpty (s : State) : State :=
  let r : RmReq := { op := 3, start := 0, len := 0, all := true }
  (s.rmEvb r).each (s.lnt.lines.map Prod.fst) fun s k => s.rmLine r k

/-- The lowest-numbered enabled port whose mode has width 1 (R389). DEDUCED: the mode in use, or with no link the mode that
HIF_MODE names. -/
def State.listener (s : State) : Option Nat := (upto 4).find? fun p =>
  s.rbit (hifCtrl p) 0 && modeWidth (if s.rbit (hifStatus p) 0 then s.rfld (hifStatus p) 2 4 else s.rfld (hifMode p) 0 4) == 1

/-- PWR_STATUS.PAST_PNR. -/
def State.setPnr (s : State) (b : Bool) : State := s.setRbit pwrStatus 8 b

/-- A step of the entry into level 1. -/
def State.entryDo1 (s : State) : Nat → Option State
  | 0 => some s.gangsDown
  | 1 => some (s.each (upto 4) fun s n => s.each (upto 24) fun s h => s.strobeDisarm n h)
  | _ => some s

/-- A step of the entry into level 2. -/
def State.entryDo2 (s : State) : Nat → Option State
  | 0 =>
    let s := s.modPwr fun p => { p with runs := bitsFrom 4 0 fun n => s.rbit (ordCtrl n) 0 }
    some (s.each (upto 4) fun s n => s.ordRun n false)
  | 1 => if (upto 4).all fun n => s.halted n then some s else none
  | 2 =>
    let s := s.modPwr fun p => { p with loads := s.loadedMask }
    some ((s.each (upto 4) fun s a => s.retract a 0x181).flush.setPnr true)
  | 3 => if s.unparked.isEmpty then some s else none
  | 4 => some (s.each (upto 4) State.sleepReq)
  | 5 => if (upto 4).all fun n => (s.ulkP n).sleep.isNone then some (s.save 2 fun b => (domainBlocks [5, 6]).contains b) else none
  | 6 => some (s.powerOff [5, 6])
  | _ => some s

/-- A step of the entry into level 3. -/
def State.entryDo3 (s : State) : Nat → Option State
  | 0 => some (if s.motSt = 0 then s else s.motTargetSet 1)
  | 1 => if s.motSt = 0 ∨ s.rbit motStatus 3 then some s else none
  | _ => some s

/-- A step of the entry into level 4. -/
def State.entryDo4 (s : State) : Nat → Option State
  | 0 => some (s.motTargetSet 0)
  | 1 => if s.motSt = 0 then some s else none
  | 2 => some s.lanternEmpty
  | 3 => some (s.setRbit memStatus 2 true)
  | 4 => match s.listener with
    | some p => some (s.setRbit (hifStatus p) 7 true)
    | none => some s
  | 5 =>
    let bs := domainBlocks (s.levelDomains 4)
    some (s.save 4 bs.contains)
  | 6 =>
    let ds := s.levelDomains 4
    let s := s.each ((upto 4).filter fun p => ds.contains (8 + p)) fun s p => s.hifDrop p 0
    some (((s.powerOff ds).flush).setPnr true)
  | _ => some s

/-- A step of the entry into level 5. -/
def State.entryDo5 (s : State) : Nat → Option State
  | 0 =>
    let bs := domainBlocks [0]
    some (((s.save 5 bs.contains).flush).setPnr true)
  | 1 => if s.almFlushed then some (s.setRbit vglStatus 3 true) else none
  | 2 => some ({ s with
      vgl := { s.vgl with mainLow := !s.pwr.wake }, pwr := { s.pwr with rails := false, off := 0xF7F, entry := none, exit := none } } : State)
  | _ => some s

/-- Step `k` of the entry into level `l`; nothing while it must wait. DEDUCED: a spindle that does not turn is not started by an
entry into PL3. -/
def State.entryDo (s : State) (l k : Nat) : Option State :=
  match l with
  | 1 => s.entryDo1 k
  | 2 => s.entryDo2 k
  | 3 => s.entryDo3 k
  | 4 => s.entryDo4 k
  | 5 => s.entryDo5 k
  | _ => some s

/-- Entries into these levels need a save. -/
def levelSaves (l : Nat) : Bool := l == 2 || l == 4 || l == 5

/-- An entry or exit has ended: PWR acts on a T that has changed meanwhile (Table 16.4). -/
def State.pwrSettled (s : State) : State :=
  let s := s.pwrShow
  s.onlyIf (decide (s.rfld pwrStatus 3 3 ≠ s.pwr.tAt)) State.pwrRecompute

/-- LEVEL changes. -/
def State.setLevel (s : State) (l : Nat) : State :=
  if s.level = l then s else (s.setRfld pwrStatus 0 3 l).raise pwrInt 0

/-- The entry into `l` is complete. -/
def State.entryEnd (s : State) (l : Nat) : State :=
  let s := ((s.setLevel l).setPnr false).modPwr fun p => { p with kaStop := p.kaStop || decide (4 ≤ l) }
  if s.pwr.wake then
    ((s.modPwr fun p => { p with entry := none }).count (pwrCtr 0)).beginExit l 0
  else if l < s.pwr.goal then s.modPwr fun p => { p with entry := some (l + 1, 0) }
  else ((s.modPwr fun p => { p with entry := none }).count (pwrCtr 0)).pwrSettled

/-- Mirror stripes that an entry waits for before its first step (R536). DESIGN CHOICE (log 75): they are written where the entry
starts at PL0 towards PL4 or PL5; one that is deepened later finds no actuator in Tracking. -/
def State.mirrorsFirst (s : State) (l k : Nat) : Bool :=
  l == 1 && k == 0 && decide (4 ≤ s.pwr.goal) && (!s.mirrorsBehind.isEmpty || s.fw.jobs.any Job.isMirror)

/-- POWER_ENTRY_STEP: a bad save list refuses the entry before its point of no return (R454). -/
def execPowerEntryStep (s : State) : Host.Outcome State Fault Refusal :=
  .next (match s.pwr.entry with
    | none => s
    | some (l, k) =>
      if k = 0 ∧ levelSaves l ∧ s.saveListBad then ((s.modPwr fun p => { p with entry := none }).pwrRefuse 0x31).pwrShow
      else if s.mirrorsFirst l k then s.each s.mirrorsBehind fun s a => s.mirrorWrite a s.alm.seq.toNat
      else match s.entryDo l k with
        | none => s
        | some t =>
          if l = 5 ∧ k = 2 then t
          else if k + 1 < levelSteps l then t.modPwr fun p => { p with entry := some (l, k + 1) }
          else t.entryEnd l)

/-! ## Exit steps -/

/-- Every port that is to run is up or has failed, and the links of the actuators to be loaded are up. -/
def State.slicesReady (s : State) : Bool :=
  (upto 4).all fun n => (s.ulkSt n == 0 || s.ulkSt n == 3 || s.ulkSt n == 7) &&
    (!s.pwr.loads.testBit n || !s.rbit (regAddr bACT 0) n || s.rbit actStatusAll n)

/-- A step of the exit from level 2. -/
def State.exitDo2 (s : State) (badWord : Bool) : Nat → Option State
  | 6 => some (((s.powerOn [5, 6]).restore 2 badWord (fun b => (domainBlocks [5, 6]).contains b)).reloadMedia)
  | 4 => if s.slicesReady then some s else none
  | 3 => some (s.each ((upto 4).filter fun a => s.pwr.loads.testBit a) State.actLoad)
  | 2 => if (upto 4).all fun a => s.actSt a != 1 then some s else none
  | 0 => some (s.each ((upto 4).filter fun n => s.pwr.runs.testBit n) fun s n => s.setRbit (ordCtrl n) 0 true)
  | _ => some s

/-- A step of the exit from level 3. -/
def State.exitDo3 (s : State) : Nat → Option State
  | 1 => some (if s.rfld motCtrl 1 2 = 1 then s.motTargetSet 2 else s)
  | 0 => if s.motSt = 0 ∨ s.rbit motStatus 3 then some s else none
  | _ => some s

/-- A step of the exit from level 4. -/
def State.exitDo4 (s : State) (badWord : Bool) : Nat → Option State
  | 6 =>
    let ds := s.levelDomains 4
    let bs := domainBlocks ds
    some (((s.powerOn ds).restore 4 badWord bs.contains).reloadKeys)
  | 4 => some (s.each (upto 4) fun s p => s.setRbit (hifStatus p) 7 false)
  | 3 => some ((s.setRbit memStatus 2 false).onlyIf (!s.rbit memStatus 3) fun s =>
      (s.setRfld memStatus 4 4 15).setRbit memStatus 0 true).serveWaiting
  | 1 => some (if s.rbit motCtrl 0 then s.motTargetSet 1 else s)
  | 0 => if 3 ≤ s.pwr.goal ∧ s.motSt ≠ 0 ∧ !s.rbit motStatus 3 then none else some s
  | _ => some s

/-- Step `k` of level `l` is reversed; nothing while it must wait. -/
def State.exitDo (s : State) (badWord : Bool) (l k : Nat) : Option State :=
  match l with
  | 2 => s.exitDo2 badWord k
  | 3 => s.exitDo3 k
  | 4 => s.exitDo4 badWord k
  | _ => some s

/-- The controller is at PL0: held commands are admitted, and Keep Alive Timers that PL4 stopped start from zero (R406, R450). -/
def State.atPl0 (s : State) : State :=
  let s := s.onlyIf s.pwr.kaStop fun s => s.each (upto 4) fun s p =>
    let h := s.hifP p
    let c := h.ctrl.map fun c => { c with kaAt := s.vgl.wall }
    s.setHif p { h with ctrl := c }
  (s.modPwr fun p => { p with kaStop := false }).unhold

/-- Every step of level `l` is reversed. -/
def State.exitEnd (s : State) (l : Nat) : State :=
  let s := s.setLevel (l - 1)
  if s.pwr.goal < l - 1 then s.modPwr fun p => { p with exit := some (l - 1, levelSteps (l - 1)) }
  else
    let s := s.modPwr fun p => { p with exit := none }
    (s.onlyIf (l - 1 == 0) State.atPl0).pwrSettled

/-- POWER_EXIT_STEP: `exit` holds the level being left and how many of its steps are still to be reversed. At the end of a hold SVO_CLK
starts, and link time from 0 (R85, R458). -/
def execPowerExitStep (badWord : Bool) (s : State) : Host.Outcome State Fault Refusal :=
  .next (match s.pwr.exit with
    | none => s
    | some (l, k) =>
      if l = 6 then
        let back := s.pwr.hold.getD 0
        let s : State := { s with ltime := 0 }
        (((s.modPwr fun p => { p with exit := none, hold := none }).setLevel back).onlyIf (back == 0) State.unhold).pwrShow
      else if k = 0 then s.exitEnd l
      else match s.exitDo badWord l (k - 1) with
        | none => s
        | some t => if k = 1 then t.exitEnd l else t.modPwr fun p => { p with exit := some (l, k - 1) })

end Sys2Proof.Machine
end

