-- ==== Sys2Proof/Machine/Boot.lean ====
section
/-!
DEFINITION. The boot ROM's steps, and the partitions that firmware loads (R3, R39, R44, R47, R59, R72, R293, R294, R382, R413,
R456, R465, R479 to R484, R494, R499, R501, R505, R531, R552).
-/
namespace Sys2Proof.Machine

/-! ## The boot ROM (Table 17.2) -/

/-- The next boot step. -/
def State.bootAt (s : State) (k : Nat) : State := s.modClk fun c => { c with boot := k }

/-- A port runs 100GBASE-KR1 without TLS, with NVMe/TCP and, if `rdma`, NVMe/RDMA (R483, R484). -/
def State.portDefault (s : State) (p : Nat) (rdma : Bool) : State :=
  let s := (s.setRfld (hifMode p) 0 4 0).setRbit (hifCtrl p) 3 true
  ((s.setRbit (hifCtrl p) 4 rdma).setRbit (hifCtrl p) 5 false).hifPortEn p true

/-- Recovery mode (R484): host port 0 and the management port, and no namespaces. -/
def State.recover (s : State) (code : Nat) : State :=
  let s := (((s.fwRecord code 0 []).setBankBit clkBoot 4 true).setRbit mgtCtrl 0 true).bootAt 0
  ((s.modClk fun c => { c with slot := 2, cpuReset := false }).modFw fun f => { f with spaces := [] }).portDefault 0 false

/-- The Vigil bank has lost what it held (R465). -/
def State.bankLost (s : State) : Bool := s.vgl.fell || s.reg (bankAddr 0) != 0x42414E4B

/-- The bank is loaded from its defaults, VIGIL_LOST is raised and recorded, and Epoch is loaded (R465). -/
def State.bankReload (s : State) (bank : List (Nat × W)) : State :=
  let s := (s.dropRegs (bankAddr 0) (bankAddr 1024)).sramSwept 29 0 512
  let s := s.each (bank.filter fun e => decide (128 ≤ e.1) && decide (e.1 < 1024)) fun s e => s.setReg (bankAddr e.1) e.2
  let s := (s.raise vglInt 0).fwRecord 0x33 0 []
  let s := match s.alm.entries.getLast? with
    | some e =>
      let t := e.epoch + 1
      (s.modVgl fun v => { v with loadLo := t.setWidth 32 }).epochLoad ((t >>> 32).setWidth 32)
    | none => s
  s.modVgl fun v => { v with fell := false, anchored := false }

/-- The save list is restored after a requested PL5, with every domain powered (R456). -/
def State.bootRestore (s : State) (badWord : Bool) : State :=
  if !s.rbit vglStatus 3 then s
  else
    let r := s.saveTake badWord
    let s := if r.1.saveGood r.2 && r.1.saveWord 3 == 5 then r.1.restoreRuns fun _ => true else r.1.restoreFailed
    s.setRbit vglStatus 3 false

/-- Every erase-incomplete block is erased again, or recorded bad (R494). -/
def State.bootErase (s : State) (fail : List Nat) : State :=
  s.each ((upto 256).filter fun b => !s.headerOk b && !s.fls.bad.contains b) fun s b =>
    if (192 ≤ b ∧ 1 < s.flsTop b) ∨ fail.contains b then s.modFls fun f => { f with bad := f.bad ++ [b] } else s.eraseBlock b

/-- An image verifies (R501). -/
def State.slotVerifies (s : State) (o : BootOut) (slot : Nat) : Bool :=
  s.headerVerifies (s.slotHeader slot) true && (if slot = 0 then o.bodyA else o.bodyB)

/-- The slot to boot, whether it is a fallback, none for recovery (R481). After a cluster reset the try count is skipped (R480). -/
def State.selectSlot (s : State) (o : BootOut) : Option (Nat × Bool) :=
  match s.newestCommit with
  | some (_, _, _, c) =>
    if (s.clk.cluster || decide (s.rfld clkBoot 0 2 < 3)) && s.slotVerifies o c then some (c, false)
    else if s.slotVerifies o (1 - c) then some (1 - c, true)
    else none
  | none => if s.slotVerifies o 0 then some (0, false) else if s.slotVerifies o 1 then some (1, false) else none

/-- Step 6: CLK_BOOT names the slot, and a fallback is recorded (R481). -/
def State.bootSelect (s : State) (o : BootOut) : State :=
  let s := s.setBank clkBoot (putBit (putBit (putBit (s.reg clkBoot) 2 false) 3 false) 4 false)
  match s.selectSlot o with
  | none => s.recover 0x409
  | some (k, fallback) =>
    let s := (s.setBank clkBoot (putBit (putBit (s.reg clkBoot) 2 (k == 1)) 3 fallback)).onlyIf fallback fun s => s.fwRecord 0x40B 0 [(4, k)]
    (s.modClk fun c => { c with slot := k }).bootAt 7

/-- Step 7: the image is verified again as it is copied; on a failure R481 goes on to the other slot. -/
def State.bootVerify (s : State) (o : BootOut) : State :=
  if s.slotVerifies o s.clk.slot then s.bootAt 8
  else
    let s := s.fwRecord 0x40A 0 [(4, s.clk.slot)]
    let other := 1 - s.clk.slot
    if !s.rbit clkBoot 3 && s.slotVerifies o other then
      let s := (s.setBank clkBoot (putBit (putBit (s.reg clkBoot) 2 (other == 1)) 3 true)).fwRecord 0x40B 0 [(4, other)]
      (s.modClk fun c => { c with slot := other }).bootAt 7
    else s.recover 0x409

/-- Step 8: Ides is enabled with the TIMEOUT of the image header, TRIES counts, and the cluster starts (R478 to R480). -/
def State.bootStart (s : State) : State :=
  let h := s.slotHeader s.clk.slot
  let s := s.idesCfgWrite (setFld (putBit (s.reg idesCfg) 16 true) 0 16 (imageField h 14 2))
  let tries := s.rfld clkBoot 0 2
  let s := s.onlyIf (!s.clk.cluster) fun s => s.setBankFld clkBoot 0 2 (min 3 (tries + 1))
  let s := s.fwRecord 0x8000 0
    [(4, (s.reg clkCause).toNat), (4, (s.reg clkBoot).toNat), (4, s.clk.slot), (8, imageField h 16 8), (8, imageField h 24 8)]
  s.modClk fun c => { c with boot := 0, cluster := false, cpuReset := false }

/-- The boot ROM's step `k`. -/
def State.bootDo (s : State) (o : BootOut) : Nat → State
  | 1 => s.onlyIf o.ok fun s => ((s.setRbit clkStatus 0 true).setRbit clkStatus 1 true).bootAt 2
  | 2 =>
    if s.rfld flsStatus 0 2 = 3 ∨ s.clk.flsHeld then s
    else if o.ok then s.bootAt 3
    else (((s.modClk fun c => { c with mgtOnly := true }).setRbit mgtCtrl 0 true).fwRecord 0x408 0 []).bootAt 0
  | 3 => ((s.onlyIf s.bankLost fun s => s.bankReload o.bank).bootRestore o.badWord).bootAt 4
  | 4 => (s.bootErase o.eraseFail).bootAt 5
  | 5 =>
    let s := (s.setRbit memStatus 1 true).also (execMemTrainingDone (if o.ok then 15 else 0))
    if o.ok then s.bootAt 6 else (s.recover 0x40C).lntCtrlWrite (setFld (s.reg lntCtrl) 1 4 12)
  | 6 => s.bootSelect o
  | 7 => s.bootVerify o
  | 8 => s.bootStart
  | _ => s

/-- BOOT_STEP: nothing while the rails are off, or while a reset that leads to the boot ROM still waits. -/
def execBootStep (o : BootOut) (s : State) : Host.Outcome State Fault Refusal :=
  .next (if !s.pwr.rails || s.clk.control || s.clk.wait == some .warm || s.clk.wait == some .escalated then s else s.bootDo o s.clk.boot)

/-! ## The personality table (R58, R59) -/

/-- Word `i` of a descriptor. -/
def dword (l : List W) (i : Nat) : W := lget 0 l i

/-- A zone group descriptor (Table 2.4). -/
def groupOfWords (l : List W) : Group :=
  { id := fld (dword l 0) 0 8, home := fld (dword l 0) 8 2, shingled := bitAt (dword l 0) 10, backup := bitAt (dword l 0) 11
    width := fld (dword l 0) 12 4, two := bitAt (dword l 0) 16, window := fld (dword l 0) 17 6, first := fld (dword l 1) 0 21
    count := fld (dword l 2) 0 22, gangMap := (dword l 3).toNat + 2 ^ 32 * (dword l 4).toNat, alt := bitAt (dword l 5) 0 }

/-- The heads of a gang map, by position. -/
def Group.heads (g : Group) : List Nat := (upto g.width).map fun p => g.gangMap / 2 ^ (5 * p) % 32

/-- Head `h` of actuator `a` is populated. -/
def headAt (b : Board) (a h : Nat) : Bool := decide (h < 24) && (lget 0 b.heads a).testBit h

/-- Populated heads of an actuator. -/
def headCount (b : Board) (a : Nat) : Nat := popCount 24 (lget 0 b.heads a)

/-- D of the internal format of an actuator with that many heads, 0 for none (R72). -/
def internalD (heads : Nat) : Nat := if 12 ≤ heads then 10 else if 8 ≤ heads then 6 else if 6 ≤ heads then 4 else if 4 ≤ heads then 2 else 0

/-- The pivot partner (R44). -/
def partner (a : Nat) : Nat := (a + 2) % 4

/-- No head stands twice. -/
def distinct : List Nat → Bool
  | [] => true
  | x :: xs => !xs.contains x && distinct xs

/-- The groups, in zone order, describe every zone from `n` on exactly once (R59). -/
def tiles : Nat → List Group → Bool
  | _, [] => true
  | n, g :: gs => g.first == n && decide (0 < g.count) && tiles (n + g.count) gs

/-- A zone group that R59 accepts on its board. -/
def groupGood (b : Board) (g : Group) : Bool :=
  [4, 6, 8, 12].contains g.width && distinct g.heads && g.heads.all (fun h => headAt b g.home h) && decide (4 ≤ headCount b g.home) &&
  (!g.alt || g.heads.all fun h => headAt b (partner g.home) h)

/-- Conventional zones that an actuator homes. -/
def convZones (gs : List Group) (a : Nat) : Nat := ((gs.filter fun g => g.home == a && !g.shingled).map fun g => g.count).sum

/-- Stripes of an actuator's conventional spare pool: its share, in half percents, of the conventional capacity (Table 2.6).
DESIGN CHOICE (log 66): a share that is no whole number of stripes is rounded down. -/
def poolStripes (gs : List Group) (a d halves : Nat) : Nat := convZones gs a * 65536 * halves / (200 * d)

/-- Ring stripes for a ring of that many GiB (Table 2.6). DESIGN CHOICE (log 66): a capacity that is no whole number of stripes is
rounded down. -/
def ringStripes (gib d : Nat) : Nat := gib * 262144 / d

/-- D of the internal format where an actuator homes a group and so has a ring, 0 where it homes none (R72). -/
def ringD (b : Board) (gs : List Group) (a : Nat) : Nat := if gs.any fun g => g.home == a then internalD (headCount b a) else 0

/-- An actuator's internal media and its Harvest records hold what they must: a system area with an internal format, a ring and a
pool where it homes a group (R59, R72, R78, R418). -/
def mediaGood (t : Persona) (gs : List Group) (a : Nat) : Bool :=
  let d := ringD t.board gs a
  let area := if internalD (headCount t.board a) = 0 then 0 else 2 ^ 36
  let need := area + if d = 0 then 0 else t.ringGib * 2 ^ 30 + poolStripes gs a d t.poolHalves * d * 4096
  let margins := ((gs.filter fun g => g.home == a).map fun g => g.count * (32 + ceilDiv g.stripes 2)).sum
  decide (need ≤ lget 0 t.board.internal a) && decide (margins ≤ 2 ^ 34)

/-- Zones within the ceilings of R39: their number, and their capacity in bytes. -/
def zonesFit (n : Nat) : Bool := decide (n ≤ 2097152) && decide (n * 2 ^ 28 ≤ 512000000000000)

/-- A board within the ceilings of R39: actuators, and heads of each. -/
def boardGood (b : Board) : Bool := decide (b.heads.length ≤ 4) && b.heads.all fun m => decide (m < 2 ^ 24)

/-- A table within the ceilings of R39. -/
def ceilingsGood (t : Persona) (gs : List Group) : Bool := zonesFit (gs.map fun g => g.count).sum && boardGood t.board

/-- A group holds data: a zone that is not Empty, a conventional LBA that has been written. -/
def State.groupHolds (s : State) (g : Group) : Bool :=
  let inG (z : Nat) : Bool := decide (g.first ≤ z) && decide (z < g.first + g.count)
  (s.fw.zones.any fun e => inG e.1 && e.2.st != .empty) || s.fw.written.any fun e => inG (e.1 / 65536) && e.2

/-- The zones that two groups share, as a group. -/
def Group.meet (g h : Group) : Group :=
  let lo := max g.first h.first
  { g with first := lo, count := min (g.first + g.count) (h.first + h.count) - lo }

/-- A group of the table held that holds data keeps its stripe format, under its own GROUP_ID and wherever its zones that hold data
come to lie (R47). -/
def State.formatKept (s : State) (gs : List Group) : Bool :=
  s.groups.all fun g => gs.all fun h =>
    !((h.id == g.id && s.groupHolds g) || s.groupHolds (g.meet h)) ||
    (h.backup == g.backup && h.width == g.width && h.two == g.two && h.gangMap == g.gangMap)

/-- Zones that were read-only stay so: the zone table keeps the state over a load (R225). DESIGN CHOICE (log 67): the model holds it
per group, so a group that takes over a read-only zone is read-only whole. -/
def State.keepReadOnly (s : State) (h : Group) : Group :=
  { h with readOnly := h.readOnly || s.groups.any fun g => g.readOnly && decide (0 < (g.meet h).count) }

/-- A recovery descriptor that Table 10.1 allows. -/
def recoveryGood (l : List W) : Bool :=
  let a := dword l 0
  let b := dword l 1
  let c := dword l 2
  decide (1 ≤ a.toNat) && decide (a.toNat ≤ 0xFFFFFFFE) && decide (1 ≤ fld b 10 4) && decide (fld b 10 4 ≤ 9) && !bitAt b 15 &&
  decide (fld b 16 16 ≤ 60000) && decide (1 ≤ fld c 4 2) && fld c 6 26 == 0 && dword l 3 == 0

/-- A Harvest descriptor that Table 15.1 allows. -/
def harvestGood (l : List W) : Bool :=
  let a := dword l 0
  let b := dword l 1
  let c := dword l 2
  decide (1 ≤ fld a 0 12) && decide (fld a 0 12 ≤ 3650) && decide (2 ≤ fld a 12 4) && decide (fld a 12 4 ≤ 14) &&
  decide (fld a 12 4 ≤ fld a 16 4) && decide (1 ≤ fld a 20 7) && decide (fld a 20 7 ≤ 100) && fld a 28 4 == 0 &&
  decide (1 ≤ fld b 9 4) && decide (fld b 9 4 ≤ 9) && fld b 13 3 == 0 && decide (1 ≤ fld b 16 16) && decide (1 ≤ fld c 0 8) &&
  fld c 8 24 == 0 && dword l 3 == 0

/-- A namespace key descriptor's plain fields (R505). -/
def keyGood (l : List W) : Bool := dword l 1 == 1 && dword l 2 == 0 && dword l 3 == 0

/-- The NSIDs that descriptors name. -/
def descNsids (l : List (List W)) : List Nat := l.map fun w => (dword w 0).toNat

/-- No namespace that holds data becomes encrypted, or ceases to be (R505). -/
def State.keysKept (s : State) (t : Persona) : Bool :=
  s.fw.spaces.all fun n => (descNsids t.keys).contains n.nsid == n.key.isSome || !(t.spaces.any fun d => d.nsid == n.nsid) ||
    !(s.spaceGroups n).any fun g => s.groupHolds g

/-- The personality table is accepted (R39, R47, R59, R294, R413, R505). -/
def State.personaGood (s : State) (t : Persona) : Bool :=
  let gs := t.groups.map groupOfWords
  gs.all (groupGood t.board) && tiles 0 (gs.foldr insertGroup []) && s.formatKept gs && ceilingsGood t gs &&
  ((upto 4).all fun a => mediaGood t gs a) && t.recovery.all recoveryGood && distinct (descNsids t.recovery) &&
  (match t.harvest with
    | some l => harvestGood l
    | none => true) &&
  t.keys.all keyGood && distinct (descNsids t.keys) && s.keysKept t

/-! ## What a table gives -/

/-- A namespace's recovery policy (R293). -/
def policyOf (t : Persona) (nsid : Nat) : RecPol :=
  match t.recovery.find? fun l => (dword l 0).toNat == nsid with
  | none => {}
  | some l =>
    { realloc := bitAt (dword l 1) 0, rungEn := fld (dword l 1) 1 9, reallocRung := fld (dword l 1) 10 4, win := bitAt (dword l 1) 14
      limit := fld (dword l 1) 16 16, shifts := fld (dword l 2) 0 4, tries := fld (dword l 2) 4 2 }

/-- The Harvest configuration (R413). -/
def harvestOf (t : Persona) : HarvCfg :=
  match t.harvest with
  | none => {}
  | some l =>
    { period := fld (dword l 0) 0 12, refreshClass := fld (dword l 0) 12 4, noticeClass := fld (dword l 0) 16 4, duty := fld (dword l 0) 20 7
      wake := bitAt (dword l 0) 27, rungEn := fld (dword l 1) 0 9, reallocRung := fld (dword l 1) 9 4, refreshCount := fld (dword l 1) 16 16
      catchup := fld (dword l 2) 0 8 }

/-- A group on a pivot pair that is not wired alike has no alternate reader (R44). -/
def Group.wiredFor (g : Group) (b : Board) : Group := { g with alt := g.alt && lget true b.wired (g.home % 2) }

/-- The namespaces, before their keys are bound. -/
def spacesOf (t : Persona) : List Nspace :=
  t.spaces.map fun d => { nsid := d.nsid, kind := d.kind, groups := d.groups, pol := policyOf t d.nsid, ana := d.ana }

/-- One encrypted namespace takes slot `k`: its key set entry by UNWRAP, or a new key by GENERATE, with the new key set written
(R505, R506). DEDUCED: where no key can be generated the namespace is not presented. -/
def State.bindKey (s : State) (entropyOk : Bool) (nsid k : Nat) : State :=
  let bound (s : State) : State := s.modSpace nsid fun n => { n with key := some k }
  match s.sec.store.find? fun e => e.1 == nsid with
  | some e => bound (s.setKeySlot k e.2)
  | none =>
    if !entropyOk then (s.raise secInt 2).modFw fun f => { f with spaces := f.spaces.filter fun n => n.nsid != nsid }
    else
      let r := s.drawKey
      bound ((r.1.setKeySlot k r.2).modSec fun c => { c with store := c.store ++ [(nsid, r.2)] })

/-- The encrypted namespaces are bound in ascending NSID order, the k-th to slot k. -/
def State.bindKeys (s : State) (entropyOk : Bool) : Nat → List Nat → State
  | _, [] => s
  | k, n :: ns => (s.bindKey entropyOk n k).bindKeys entropyOk (k + 1) ns

/-- An actuator's ring and pool take their sizes. DESIGN CHOICE: a ring that holds stripes keeps its length and format. -/
def State.sizeInternal (s : State) (t : Persona) (gs : List Group) (a : Nat) : State :=
  let d := ringD t.board gs a
  let r := s.ring a
  let s := s.onlyIf (r.stripes.isEmpty && r.pinned.isEmpty) fun s => s.setRing a { r with
    len := if d = 0 then 0 else ringStripes t.ringGib d, d := internalD (headCount t.board a) }
  s.modFw fun f => { f with poolLen := tset (fun _ => 0) f.poolLen a (if d = 0 then 0 else poolStripes gs a d t.poolHalves) }

/-- Ports whose ANA states a table changes see an event (R382). -/
def State.anaSet (s : State) (l : List (Nat × Nat)) : State :=
  let old := s.fw.ana
  let differs (p : Nat) : Bool := ((upto 17).any fun g => old.contains (g, p) != l.contains (g, p))
  (s.modFw fun f => { f with ana := l }).each ((upto 4).filter differs) fun s p => s.asyncEvent p 2

/-- Groups, namespaces and settings of a table come into force, and firmware re-establishes V of open bands (R322). -/
def State.takeTable (s : State) (t : Persona) (gs : List Group) (entropyOk : Bool) : State :=
  let bad := decide (s.fw.mediaBad ≠ 0)
  let s : State := { s with groups := gs.map s.keepReadOnly }
  let s := s.modFw fun f => { f with
    spaces := if bad then [] else spacesOf t
    harvCfg := harvestOf t, closeUs := t.closeUs, heads := t.board.heads, ident := t.ident, tableHeld := true }
  let s := s.each (upto 4) fun s a => s.sizeInternal t gs a
  let enc := (descNsids t.keys).filter fun n => s.fw.spaces.any fun x => x.nsid == n
  ((s.bindKeys entropyOk 0 (enc.foldr insertNat [])).anaSet t.anaNon).findAll

/-- The registers of ALM and MGT that firmware loads from a table, and the ports' settings (R531, R549, R552). -/
def State.takeRegs (s : State) (t : Persona) : State :=
  let s := s.each (t.alm.filter fun e => addrBlk e.1 == bALM && (regRow e.1).isSome) State.loadReg
  let s := s.setReg mgtLock (t.lock &&& 0x1F)
  s.each t.net fun s e => s.modFw fun f => { f with net := tset (fun _ => []) f.net e.1 e.2 }

/-! ## The stand-alone default (R483) -/

/-- The groups of the stand-alone default. DESIGN CHOICE: numbered by actuator, conventional before shingled, and with alternate
reading where the board allows it. -/
def defaultGroups (b : Board) : Nat → List Nat → List Group
  | _, [] => []
  | z, a :: as =>
    let d := internalD (headCount b a)
    if d = 0 then defaultGroups b z as
    else
      let hs := lowHeads (lget 0 b.heads a) (d + 2)
      let conv : Group :=
        { id := 2 * a, home := a, shingled := false, backup := true, width := d + 2, two := true, window := 12, first := z, count := 64
          gangMap := gangMapOf hs, alt := hs.all fun h => headAt b (partner a) h }
      let rest := lget 0 b.zones a - 64
      let shing : Group := { conv with id := 2 * a + 1, shingled := true, first := z + 64, count := rest }
      if rest = 0 then conv :: defaultGroups b (z + 64) as else conv :: shing :: defaultGroups b (z + 64 + rest) as

/-- The namespaces of the stand-alone default: NSID 1 conventional, NSID 2 zoned. -/
def defaultSpaces (gs : List Group) : List SpaceDesc :=
  [⟨1, 0, (gs.filter fun g => !g.shingled).map fun g => g.id, 1⟩, ⟨2, 1, (gs.filter fun g => g.shingled).map fun g => g.id, 1⟩]

/-- The spindle spins up, the links of the populated actuators are enabled, and they load as they can (R483). -/
def State.spinUp (s : State) (b : Board) : State :=
  let l := (upto 4).filter fun a => headCount b a != 0
  let s := s.actLinkEn (s.rfld (regAddr bACT 0) 0 4 ||| bitsFrom 4 0 l.contains)
  (s.modFw fun f => { f with loadAll := l }).motCtrlWrite 5

/-- Firmware presents the stand-alone default. -/
def State.standAlone (s : State) (b : Board) : State :=
  let gs := (defaultGroups b 0 (upto 4)).map fun g => g.wiredFor b
  let s := s.takeTable { board := b, groups := [], spaces := defaultSpaces gs } gs true
  let s := s.setBankBit (bankAddr 29) 0 false
  (s.each (upto 4) fun s p => s.portDefault p true).spinUp b

/-- No personality table is accepted: the table held stays, and with none held the stand-alone default comes (R59, R483). A board
over the ceilings is refused, and what was held before stays (R39). -/
def State.keepTable (s : State) (b : Board) : State :=
  s.onlyIf (!s.fw.tableHeld && boardGood b && zonesFit ((defaultGroups b 0 (upto 4)).map fun g => g.count).sum) fun s => s.standAlone b

/-! ## PARTITION_LOAD (R482) -/

/-- The first block of a partition's body, as MGT's targets number them, and the partition's number in records. -/
def partTarget : PartBody → Nat
  | .ordo _ _ => 1
  | .personality _ => 2
  | .calibration _ => 3

/-- Media are disabled for want of a partition, or no longer: bit 0 Ordo and servo, bit 1 calibration. -/
def State.mediaOff (s : State) (bit : Nat) (off : Bool) : State :=
  let m := s.fw.mediaBad
  let m' := if off then m ||| 2 ^ bit else m &&& (3 ^^^ 2 ^ bit)
  (s.modFw fun f => { f with mediaBad := m' }).onlyIf off fun s => s.modFw fun f => { f with spaces := [] }

/-- A partition that is absent or refused (Table 17.3). -/
def State.partBad (s : State) : PartBody → State
  | .ordo _ _ => s.mediaOff 0 true
  | .personality t => s.keepTable t.board
  | .calibration _ => s.mediaOff 1 true

/-- CONFIG_LOADED: partition, SVN and 16 bytes of the body's hash (Table 19.2). -/
def State.configLoaded (s : State) (target : Nat) (h : List Byte) : State :=
  s.fwRecord 0x8005 0 [(4, target), (4, imageField h 12 1), (8, imageField h 32 8), (8, imageField h 40 8)]

/-- A partition that verifies is taken. -/
def State.partTake (s : State) (body : PartBody) (h : List Byte) (entropyOk : Bool) : State :=
  match body with
  | .ordo store servo =>
    ((s.modFw fun f => { f with ordoImg := store, svoImg := servo }).reloadMedia.mediaOff 0 false).configLoaded 1 h
  | .personality t =>
    if !s.personaGood t then (s.fwRecord 0x145 0 []).keepTable t.board
    else ((s.takeTable t ((t.groups.map groupOfWords).map fun g => g.wiredFor t.board) entropyOk).takeRegs t).configLoaded 2 h
  | .calibration l => ((s.each l State.loadReg).mediaOff 1 false).configLoaded 3 h

/-- PARTITION_LOAD: absent, refused or of the wrong variant, or taken. BOOT_PARTITION_BAD is recorded but where the personality
partition is absent (Table 17.3). -/
def execPartitionLoad (bodyOk : Bool) (body : PartBody) (entropyOk : Bool) (s : State) : Host.Outcome State Fault Refusal :=
  .next (
    let blk := (partitionBlocks (partTarget body)).1
    let h := s.flsPage blk 1
    if h == erasedPage then (s.onlyIf (partTarget body != 2) fun s => s.fwRecord 0x40D 0 [(4, partTarget body)]).partBad body
    else if !s.headerVerifies h false || !bodyOk then (s.fwRecord 0x40D 0 [(4, partTarget body)]).partBad body
    else s.partTake body h entropyOk)

end Sys2Proof.Machine
end

