-- ==== Sys2Proof/Machine/Dispatch.lean ====
section
/-! DEFINITION. One arm for each command: the meaning that it calls. -/
namespace Sys2Proof.Machine

/-- The effect of a command on everything but the queue. -/
def exec (i : Instr) (s : State) : Host.Outcome State Fault Refusal :=
  match i with
  | .registerWrite by_ addr v env => Sys2Proof.Machine.execRegisterWrite by_ addr v env s
  | .vigilPowerOnReset => Sys2Proof.Machine.execVigilPowerOnReset s
  | .powerOnReset testEn mgtMode => Sys2Proof.Machine.execPowerOnReset testEn mgtMode s
  | .pinReset testEn mgtMode => Sys2Proof.Machine.execPinReset testEn mgtMode s
  | .mainRailLoss => Sys2Proof.Machine.execMainRailLoss s
  | .vigilSupplySwitch vbat => Sys2Proof.Machine.execVigilSupplySwitch vbat s
  | .ctrlRst by_ => Sys2Proof.Machine.execCtrlRst by_ s
  | .controlResetHalted => Sys2Proof.Machine.execControlResetHalted s
  | .warmRst by_ => Sys2Proof.Machine.execWarmRst by_ s
  | .resetRetractDone => Sys2Proof.Machine.execResetRetractDone s
  | .cpuRst by_ => Sys2Proof.Machine.execCpuRst by_ s
  | .blockReset by_ b => Sys2Proof.Machine.execBlockReset by_ b s
  | .testLogicReset => Sys2Proof.Machine.execTestLogicReset s
  | .idesKick by_ v => Sys2Proof.Machine.execIdesKick by_ v s
  | .idesEnable v => Sys2Proof.Machine.execIdesEnable v s
  | .idesWarn pc => Sys2Proof.Machine.execIdesWarn pc s
  | .idesExpiry => Sys2Proof.Machine.execIdesExpiry s
  | .bootOk by_ v => Sys2Proof.Machine.execBootOk by_ v s
  | .bootStep o => Sys2Proof.Machine.execBootStep o s
  | .partitionLoad bodyOk body entropyOk => Sys2Proof.Machine.execPartitionLoad bodyOk body entropyOk s
  | .pllUnlock net => Sys2Proof.Machine.execPllUnlock net s
  | .flsProgram by_ block page => Sys2Proof.Machine.execFlsProgram by_ block page s
  | .flsProgramDone ok margin => Sys2Proof.Machine.execFlsProgramDone ok margin s
  | .flsErase by_ block => Sys2Proof.Machine.execFlsErase by_ block s
  | .flsEraseDone ok margin => Sys2Proof.Machine.execFlsEraseDone ok margin s
  | .flsSuspend => Sys2Proof.Machine.execFlsSuspend s
  | .flsSuspendDeferred => Sys2Proof.Machine.execFlsSuspendDeferred s
  | .flsResume by_ => Sys2Proof.Machine.execFlsResume by_ s
  | .flsMarginRead by_ block page bits => Sys2Proof.Machine.execFlsMarginRead by_ block page bits s
  | .flsOtpProgram by_ => Sys2Proof.Machine.execFlsOtpProgram by_ s
  | .flsInitDone bits => Sys2Proof.Machine.execFlsInitDone bits s
  | .flashRead by_ block page find fetch => Sys2Proof.Machine.execFlashRead by_ block page find fetch s
  | .secGenerate slot entropyOk => Sys2Proof.Machine.execSecGenerate slot entropyOk s
  | .secUnwrap slot psk ok => Sys2Proof.Machine.execSecUnwrap slot psk ok s
  | .secClear slot psk => Sys2Proof.Machine.execSecClear slot psk s
  | .secCmdDone => Sys2Proof.Machine.execSecCmdDone s
  | .ulkPortEn n on => Sys2Proof.Machine.execUlkPortEn n on s
  | .trainingStepDone n lanes => Sys2Proof.Machine.execTrainingStepDone n lanes s
  | .trainingAttemptTimeout n => Sys2Proof.Machine.execTrainingAttemptTimeout n s
  | .timeEchoReply n => Sys2Proof.Machine.execTimeEchoReply n s
  | .rateReq n => Sys2Proof.Machine.execRateReq n s
  | .rateSwitchInstant n => Sys2Proof.Machine.execRateSwitchInstant n s
  | .rateSwitchLockCheck n locked => Sys2Proof.Machine.execRateSwitchLockCheck n locked s
  | .ulkRetrain n => Sys2Proof.Machine.execUlkRetrain n s
  | .laneRetrainDone n l ok => Sys2Proof.Machine.execLaneRetrainDone n l ok s
  | .sleepReq n => Sys2Proof.Machine.execSleepReq n s
  | .sleepAck n l => Sys2Proof.Machine.execSleepAck n l s
  | .sleepAckTimeout n => Sys2Proof.Machine.execSleepAckTimeout n s
  | .wakeReq n => Sys2Proof.Machine.execWakeReq n s
  | .wakePatternRx n => Sys2Proof.Machine.execWakePatternRx n s
  | .flitReceived n l flit => Sys2Proof.Machine.execFlitReceived n l flit s
  | .linkAck n l seq => Sys2Proof.Machine.execLinkAck n l seq s
  | .linkNak n l seq => Sys2Proof.Machine.execLinkNak n l seq s
  | .nakTimeout n l => Sys2Proof.Machine.execNakTimeout n l s
  | .sample n h k samples => Sys2Proof.Machine.execSample n h k samples s
  | .sampleMark n h gateId isEnd gap shockCut readers lt phase flits count => Sys2Proof.Machine.execSampleMark n h gateId isEnd gap shockCut readers lt phase flits count s
  | .servoField n h frag last wedge lt thermal contact => Sys2Proof.Machine.execServoField n h frag last wedge lt thermal contact s
  | .servoFieldHandoff n h pos err => Sys2Proof.Machine.execServoFieldHandoff n h pos err s
  | .telemetry n shock supplyFault overtemp underrun lateCmd headFault dieTemp lt => Sys2Proof.Machine.execTelemetry n shock supplyFault overtemp underrun lateCmd headFault dieTemp lt s
  | .headReply n h addr data status => Sys2Proof.Machine.execHeadReply n h addr data status s
  | .headmapApply n h => Sys2Proof.Machine.execHeadmapApply n h s
  | .gateSend n gateId => Sys2Proof.Machine.execGateSend n gateId s
  | .armP n h k => Sys2Proof.Machine.execArmP n h k s
  | .disarm n h => Sys2Proof.Machine.execDisarm n h s
  | .holdOn n h => Sys2Proof.Machine.execHoldOn n h s
  | .holdOff n h => Sys2Proof.Machine.execHoldOff n h s
  | .replay1 n h => Sys2Proof.Machine.execReplay1 n h s
  | .replay2 n h => Sys2Proof.Machine.execReplay2 n h s
  | .replay3 n h => Sys2Proof.Machine.execReplay3 n h s
  | .replay4 n h => Sys2Proof.Machine.execReplay4 n h s
  | .replay5 n h => Sys2Proof.Machine.execReplay5 n h s
  | .release n h => Sys2Proof.Machine.execRelease n h s
  | .unlistedStrobeCode n wpa h code => Sys2Proof.Machine.execUnlistedStrobeCode n wpa h code s
  | .chnSoftReset n => Sys2Proof.Machine.execChnSoftReset n s
  | .chnSlotCfgWrite n h v => Sys2Proof.Machine.execChnSlotCfgWrite n h v s
  | .chnSettingsApply n h => Sys2Proof.Machine.execChnSettingsApply n h s
  | .frontEndDone n h find => Sys2Proof.Machine.execFrontEndDone n h find s
  | .relaxedSearchStart n h find => Sys2Proof.Machine.execRelaxedSearchStart n h find s
  | .decodeStart n core => Sys2Proof.Machine.execDecodeStart n core s
  | .decodeIterationBoundary n core => Sys2Proof.Machine.execDecodeIterationBoundary n core s
  | .decodeEnd n core => Sys2Proof.Machine.execDecodeEnd n core s
  | .replayOperationStart n h => Sys2Proof.Machine.execReplayOperationStart n h s
  | .replayFrontEndDone n h find => Sys2Proof.Machine.execReplayFrontEndDone n h find s
  | .warmP n h k => Sys2Proof.Machine.execWarmP n h k s
  | .warmPB n h k => Sys2Proof.Machine.execWarmPB n h k s
  | .wdisarm n h => Sys2Proof.Machine.execWdisarm n h s
  | .fhDown1 n h => Sys2Proof.Machine.execFhDown1 n h s
  | .fhRestore n h => Sys2Proof.Machine.execFhRestore n h s
  | .writeGateData n h => Sys2Proof.Machine.execWriteGateData n h s
  | .wpaWedgeBoundary n => Sys2Proof.Machine.execWpaWedgeBoundary n s
  | .inhibitCause n h cause => Sys2Proof.Machine.execInhibitCause n h cause s
  | .wpaInhibitClear n heads => Sys2Proof.Machine.execWpaInhibitClear n heads s
  | .wpaInhibitSet n heads => Sys2Proof.Machine.execWpaInhibitSet n heads s
  | .wpaCtrlWrite n v => Sys2Proof.Machine.execWpaCtrlWrite n v s
  | .verifyEvent n find => Sys2Proof.Machine.execVerifyEvent n find s
  | .rewindGatesEnded n => Sys2Proof.Machine.execRewindGatesEnded n s
  | .inhibitWaitTimeout n => Sys2Proof.Machine.execInhibitWaitTimeout n s
  | .verifyStallTimeout n => Sys2Proof.Machine.execVerifyStallTimeout n s
  | .loopUpdate k find => Sys2Proof.Machine.execLoopUpdate k find s
  | .outputLatch k => Sys2Proof.Machine.execOutputLatch k s
  | .svoCommit v => Sys2Proof.Machine.execSvoCommit v s
  | .svoWinWrite word v => Sys2Proof.Machine.execSvoWinWrite word v s
  | .svoCtrlWrite v => Sys2Proof.Machine.execSvoCtrlWrite v s
  | .svoMemoryZeroDone => Sys2Proof.Machine.execSvoMemoryZeroDone s
  | .capArm => Sys2Proof.Machine.execCapArm s
  | .capForce => Sys2Proof.Machine.execCapForce s
  | .capStop => Sys2Proof.Machine.execCapStop s
  | .load a => Sys2Proof.Machine.execLoad a s
  | .loadTimeout a => Sys2Proof.Machine.execLoadTimeout a s
  | .actDisable a => Sys2Proof.Machine.execActDisable a s
  | .reenable a => Sys2Proof.Machine.execReenable a s
  | .actRetract a servoLost => Sys2Proof.Machine.execActRetract a servoLost s
  | .retractTimeout a => Sys2Proof.Machine.execRetractTimeout a s
  | .settleTimeout a => Sys2Proof.Machine.execSettleTimeout a s
  | .actLinkEn mask => Sys2Proof.Machine.execActLinkEn mask s
  | .outputFrameSend a => Sys2Proof.Machine.execOutputFrameSend a s
  | .ampStatusFrame a frame => Sys2Proof.Machine.execAmpStatusFrame a frame s
  | .linkTimeout a => Sys2Proof.Machine.execLinkTimeout a s
  | .ampcmdGo a => Sys2Proof.Machine.execAmpcmdGo a s
  | .ampRegReply a frame => Sys2Proof.Machine.execAmpRegReply a frame s
  | .ampcmdTimeout a => Sys2Proof.Machine.execAmpcmdTimeout a s
  | .govBudgetWrite v => Sys2Proof.Machine.execGovBudgetWrite v s
  | .actHeaddisWrite a v => Sys2Proof.Machine.execActHeaddisWrite a v s
  | .motStartRequest nominal => Sys2Proof.Machine.execMotStartRequest nominal s
  | .motStopRequest => Sys2Proof.Machine.execMotStopRequest s
  | .motDisable => Sys2Proof.Machine.execMotDisable s
  | .motTargetChange nominal => Sys2Proof.Machine.execMotTargetChange nominal s
  | .motClrFault => Sys2Proof.Machine.execMotClrFault s
  | .pwmPeriod shunt1 shunt2 vm vsu vsv vsw => Sys2Proof.Machine.execPwmPeriod shunt1 shunt2 vm vsu vsv vsw s
  | .speedLoopUpdate => Sys2Proof.Machine.execSpeedLoopUpdate s
  | .observeEnd => Sys2Proof.Machine.execObserveEnd s
  | .brakePeek => Sys2Proof.Machine.execBrakePeek s
  | .alignEnd => Sys2Proof.Machine.execAlignEnd s
  | .startTimeout => Sys2Proof.Machine.execStartTimeout s
  | .startRetry => Sys2Proof.Machine.execStartRetry s
  | .pfailInput => Sys2Proof.Machine.execPfailInput s
  | .mopSubmit n w3 => Sys2Proof.Machine.execMopSubmit n w3 s
  | .mopAdmission n find => Sys2Proof.Machine.execMopAdmission n find s
  | .ordCplPop n => Sys2Proof.Machine.execOrdCplPop n s
  | .ordRun n run => Sys2Proof.Machine.execOrdRun n run s
  | .ordCancel n => Sys2Proof.Machine.execOrdCancel n s
  | .returnQueued n => Sys2Proof.Machine.execReturnQueued n s
  | .ordWinWrite n word v => Sys2Proof.Machine.execOrdWinWrite n word v s
  | .nop n find => Sys2Proof.Machine.execNop n find s
  | .ldi n find => Sys2Proof.Machine.execLdi n find s
  | .lui n find => Sys2Proof.Machine.execLui n find s
  | .add n find => Sys2Proof.Machine.execAdd n find s
  | .sub n find => Sys2Proof.Machine.execSub n find s
  | .and n find => Sys2Proof.Machine.execAnd n find s
  | .or n find => Sys2Proof.Machine.execOr n find s
  | .xor n find => Sys2Proof.Machine.execXor n find s
  | .addi n find => Sys2Proof.Machine.execAddi n find s
  | .andi n find => Sys2Proof.Machine.execAndi n find s
  | .shli n find => Sys2Proof.Machine.execShli n find s
  | .shri n find => Sys2Proof.Machine.execShri n find s
  | .cmp n find => Sys2Proof.Machine.execCmp n find s
  | .cmpi n find => Sys2Proof.Machine.execCmpi n find s
  | .ldd n find => Sys2Proof.Machine.execLdd n find s
  | .ldp n find => Sys2Proof.Machine.execLdp n find s
  | .lds n find => Sys2Proof.Machine.execLds n find s
  | .br n find => Sys2Proof.Machine.execBr n find s
  | .call n find => Sys2Proof.Machine.execCall n find s
  | .ret n find => Sys2Proof.Machine.execRet n find s
  | .poll n find => Sys2Proof.Machine.execPoll n find s
  | .wait n find => Sys2Proof.Machine.execWait n find s
  | .waitReturn n => Sys2Proof.Machine.execWaitReturn n s
  | .seek n find => Sys2Proof.Machine.execSeek n find s
  | .gang n find => Sys2Proof.Machine.execGang n find s
  | .strobe n find => Sys2Proof.Machine.execStrobe n find s
  | .gate n find => Sys2Proof.Machine.execGate n find s
  | .ldband n find => Sys2Proof.Machine.execLdband n find s
  | .fin n find => Sys2Proof.Machine.execFin n find s
  | .reservedMicroword n find => Sys2Proof.Machine.execReservedMicroword n find s
  | .wedgeTick n => Sys2Proof.Machine.execWedgeTick n s
  | .syntheticTick n => Sys2Proof.Machine.execSyntheticTick n s
  | .pollOverrun n => Sys2Proof.Machine.execPollOverrun n s
  | .endSequenceDrain n => Sys2Proof.Machine.execEndSequenceDrain n s
  | .sectorPacketDispatch n find => Sys2Proof.Machine.execSectorPacketDispatch n find s
  | .read ctx find => Sys2Proof.Machine.execRead ctx find s
  | .write ctx find => Sys2Proof.Machine.execWrite ctx find s
  | .flush ctx => Sys2Proof.Machine.execFlush ctx s
  | .writeZeroes ctx => Sys2Proof.Machine.execWriteZeroes ctx s
  | .compare ctx find => Sys2Proof.Machine.execCompare ctx find s
  | .zoneAppend ctx find => Sys2Proof.Machine.execZoneAppend ctx find s
  | .ringCloseTimeout a => Sys2Proof.Machine.execRingCloseTimeout a s
  | .vRecordTimer => Sys2Proof.Machine.execVRecordTimer s
  | .zoneOpen ctx => Sys2Proof.Machine.execZoneOpen ctx s
  | .zoneClose ctx => Sys2Proof.Machine.execZoneClose ctx s
  | .zoneFinish ctx => Sys2Proof.Machine.execZoneFinish ctx s
  | .zoneReset ctx => Sys2Proof.Machine.execZoneReset ctx s
  | .reportZones ctx => Sys2Proof.Machine.execReportZones ctx s
  | .firmwareMopCompletion n => Sys2Proof.Machine.execFirmwareMopCompletion n s
  | .bufferAccess acc => Sys2Proof.Machine.execBufferAccess acc s
  | .evictionWritebackAck line => Sys2Proof.Machine.execEvictionWritebackAck line s
  | .lntInitDone => Sys2Proof.Machine.execLntInitDone s
  | .lntSpadChange n => Sys2Proof.Machine.execLntSpadChange n s
  | .lntSpadDone => Sys2Proof.Machine.execLntSpadDone s
  | .lntDisable => Sys2Proof.Machine.execLntDisable s
  | .lntDisableDone => Sys2Proof.Machine.execLntDisableDone s
  | .lntEnable => Sys2Proof.Machine.execLntEnable s
  | .lntRmGo op all => Sys2Proof.Machine.execLntRmGo op all s
  | .lntRmDone => Sys2Proof.Machine.execLntRmDone s
  | .bufRemapWrite g e v => Sys2Proof.Machine.execBufRemapWrite g e v s
  | .memRemapWrite c e v => Sys2Proof.Machine.execMemRemapWrite c e v s
  | .remapCopyDone mem g e => Sys2Proof.Machine.execRemapCopyDone mem g e s
  | .memScrubPatrol find symbol => Sys2Proof.Machine.execMemScrubPatrol find symbol s
  | .bufEccTestArm => Sys2Proof.Machine.execBufEccTestArm s
  | .memEccTestArm => Sys2Proof.Machine.execMemEccTestArm s
  | .memInit => Sys2Proof.Machine.execMemInit s
  | .memTrainingDone channels => Sys2Proof.Machine.execMemTrainingDone channels s
  | .parityRequest req => Sys2Proof.Machine.execParityRequest req s
  | .parityDone find => Sys2Proof.Machine.execParityDone find s
  | .packetWrite q body => Sys2Proof.Machine.execPacketWrite q body s
  | .packetTake q find inHeader => Sys2Proof.Machine.execPacketTake q find inHeader s
  | .packetRelink src dst => Sys2Proof.Machine.execPacketRelink src dst s
  | .reservationRequest q cells => Sys2Proof.Machine.execReservationRequest q cells s
  | .reservationGrant q => Sys2Proof.Machine.execReservationGrant q s
  | .cplShareWrite q v => Sys2Proof.Machine.execCplShareWrite q v s
  | .cplQueueReset q => Sys2Proof.Machine.execCplQueueReset q s
  | .cplPoolReset => Sys2Proof.Machine.execCplPoolReset s
  | .cplInitDone => Sys2Proof.Machine.execCplInitDone s
  | .chainItemEnter q body => Sys2Proof.Machine.execChainItemEnter q body s
  | .chainItemTake q => Sys2Proof.Machine.execChainItemTake q s
  | .hifPortEn p on => Sys2Proof.Machine.execHifPortEn p on s
  | .hifRestartAn p => Sys2Proof.Machine.execHifRestartAn p s
  | .hifModeWrite p lane v => Sys2Proof.Machine.execHifModeWrite p lane v s
  | .hifQlimitWrite p v => Sys2Proof.Machine.execHifQlimitWrite p v s
  | .hifLattolWrite p v => Sys2Proof.Machine.execHifLattolWrite p v s
  | .anAttemptDone p mode => Sys2Proof.Machine.execAnAttemptDone p mode s
  | .anRetryTimer p => Sys2Proof.Machine.execAnRetryTimer p s
  | .hifLinkDown p => Sys2Proof.Machine.execHifLinkDown p s
  | .ethFrameRx p f => Sys2Proof.Machine.execEthFrameRx p f s
  | .tcpConnectionOpen p conn tls tlsOk => Sys2Proof.Machine.execTcpConnectionOpen p conn tls tlsOk s
  | .keepAliveExpiry p => Sys2Proof.Machine.execKeepAliveExpiry p s
  | .connect c => Sys2Proof.Machine.execConnect c s
  | .disconnect c => Sys2Proof.Machine.execDisconnect c s
  | .propertyGet c => Sys2Proof.Machine.execPropertyGet c s
  | .propertySet c => Sys2Proof.Machine.execPropertySet c s
  | .controllerReset p => Sys2Proof.Machine.execControllerReset p s
  | .controllerShutdown p => Sys2Proof.Machine.execControllerShutdown p s
  | .identify c => Sys2Proof.Machine.execIdentify c s
  | .getLogPage c => Sys2Proof.Machine.execGetLogPage c s
  | .setFeatures c => Sys2Proof.Machine.execSetFeatures c s
  | .getFeatures c => Sys2Proof.Machine.execGetFeatures c s
  | .abort c => Sys2Proof.Machine.execAbort c s
  | .asynchronousEventRequest c => Sys2Proof.Machine.execAsynchronousEventRequest c s
  | .keepAlive c => Sys2Proof.Machine.execKeepAlive c s
  | .formatNvm c entropyOk => Sys2Proof.Machine.execFormatNvm c entropyOk s
  | .firmwareImageDownload c => Sys2Proof.Machine.execFirmwareImageDownload c s
  | .firmwareCommit c verifies => Sys2Proof.Machine.execFirmwareCommit c verifies s
  | .activationIdle => Sys2Proof.Machine.execActivationIdle s
  | .activationTimeout => Sys2Proof.Machine.execActivationTimeout s
  | .store c find => Sys2Proof.Machine.execStore c find s
  | .retrieve c find => Sys2Proof.Machine.execRetrieve c find s
  | .delete c => Sys2Proof.Machine.execDelete c s
  | .exist c => Sys2Proof.Machine.execExist c s
  | .list c => Sys2Proof.Machine.execList c s
  | .reservationRegister c => Sys2Proof.Machine.execReservationRegister c s
  | .reservationReport c => Sys2Proof.Machine.execReservationReport c s
  | .reservationAcquire c => Sys2Proof.Machine.execReservationAcquire c s
  | .reservationRelease c => Sys2Proof.Machine.execReservationRelease c s
  | .unsupportedCommand c => Sys2Proof.Machine.execUnsupportedCommand c s
  | .capsuleTake p => Sys2Proof.Machine.execCapsuleTake p s
  | .commandAdmission => Sys2Proof.Machine.execCommandAdmission s
  | .completionCommit fromBuf => Sys2Proof.Machine.execCompletionCommit fromBuf s
  | .completionSent p => Sys2Proof.Machine.execCompletionSent p s
  | .qmgHoldAdmit v => Sys2Proof.Machine.execQmgHoldAdmit v s
  | .harvestReadIssue a => Sys2Proof.Machine.execHarvestReadIssue a s
  | .harvestPassOverdue a => Sys2Proof.Machine.execHarvestPassOverdue a s
  | .refreshStepDone a => Sys2Proof.Machine.execRefreshStepDone a s
  | .jubStart k => Sys2Proof.Machine.execJubStart k s
  | .jubAbort k => Sys2Proof.Machine.execJubAbort k s
  | .jubRetrain k up => Sys2Proof.Machine.execJubRetrain k up s
  | .jubPause k on => Sys2Proof.Machine.execJubPause k on s
  | .jubEnergyDetect k up => Sys2Proof.Machine.execJubEnergyDetect k up s
  | .jubFlitReceived k l flit => Sys2Proof.Machine.execJubFlitReceived k l flit s
  | .jubLinkDown k => Sys2Proof.Machine.execJubLinkDown k s
  | .jubLinkRetry k up => Sys2Proof.Machine.execJubLinkRetry k up s
  | .jubLinkHoldExpiry k => Sys2Proof.Machine.execJubLinkHoldExpiry k s
  | .hello k m => Sys2Proof.Machine.execHello k m s
  | .plan k entries zones => Sys2Proof.Machine.execPlan k entries zones s
  | .planReply k status => Sys2Proof.Machine.execPlanReply k status s
  | .zoneBegin k m => Sys2Proof.Machine.execZoneBegin k m s
  | .jubStripeSend k idx => Sys2Proof.Machine.execJubStripeSend k idx s
  | .stripe k m => Sys2Proof.Machine.execStripe k m s
  | .zoneEnd k idx m => Sys2Proof.Machine.execZoneEnd k idx m s
  | .stripeNak k idx stripe reason mask => Sys2Proof.Machine.execStripeNak k idx stripe reason mask s
  | .credit k grant => Sys2Proof.Machine.execCredit k grant s
  | .jubZoneCommit k idx => Sys2Proof.Machine.execJubZoneCommit k idx s
  | .zoneAck k done => Sys2Proof.Machine.execZoneAck k done s
  | .zoneFail k idx status => Sys2Proof.Machine.execZoneFail k idx status s
  | .close k status => Sys2Proof.Machine.execClose k status s
  | .idleTimerExpiry n => Sys2Proof.Machine.execIdleTimerExpiry n s
  | .powerEntryStep => Sys2Proof.Machine.execPowerEntryStep s
  | .powerExitStep badWord => Sys2Proof.Machine.execPowerExitStep badWord s
  | .pl5Req by_ => Sys2Proof.Machine.execPl5Req by_ s
  | .holdReq by_ => Sys2Proof.Machine.execHoldReq by_ s
  | .pwrWake by_ => Sys2Proof.Machine.execPwrWake by_ s
  | .wakeSource k => Sys2Proof.Machine.execWakeSource k s
  | .vglWakeNInput => Sys2Proof.Machine.execVglWakeNInput s
  | .vigilAlarm k => Sys2Proof.Machine.execVigilAlarm k s
  | .vbatMeasure mv => Sys2Proof.Machine.execVbatMeasure mv s
  | .epochTick => Sys2Proof.Machine.execEpochTick s
  | .epochLoad hi => Sys2Proof.Machine.execEpochLoad hi s
  | .vglEpochLoRead => Sys2Proof.Machine.execVglEpochLoRead s
  | .pwrTickLoRead => Sys2Proof.Machine.execPwrTickLoRead s
  | .ulkLtimeLoRead n => Sys2Proof.Machine.execUlkLtimeLoRead n s
  | .almSeqLoRead => Sys2Proof.Machine.execAlmSeqLoRead s
  | .vigilSupplyMonitorFall => Sys2Proof.Machine.execVigilSupplyMonitorFall s
  | .hostLaneEnergyDetectorArm p lane => Sys2Proof.Machine.execHostLaneEnergyDetectorArm p lane s
  | .calRunReq a => Sys2Proof.Machine.execCalRunReq a s
  | .calHold on => Sys2Proof.Machine.execCalHold on s
  | .calRunStart a => Sys2Proof.Machine.execCalRunStart a s
  | .calRunEnd a => Sys2Proof.Machine.execCalRunEnd a s
  | .calShadowWrite bank entry value v => Sys2Proof.Machine.execCalShadowWrite bank entry value v s
  | .calBatchCommit bank count => Sys2Proof.Machine.execCalBatchCommit bank count s
  | .calEntryApply bank => Sys2Proof.Machine.execCalEntryApply bank s
  | .calAdcoffSend n h => Sys2Proof.Machine.execCalAdcoffSend n h s
  | .dieTempUpdate t => Sys2Proof.Machine.execDieTempUpdate t s
  | .thermalTrip => Sys2Proof.Machine.execThermalTrip s
  | .almanacSubmit g => Sys2Proof.Machine.execAlmanacSubmit g s
  | .almAppGo by_ => Sys2Proof.Machine.execAlmAppGo by_ s
  | .almFlush => Sys2Proof.Machine.execAlmFlush s
  | .almFlushTimer => Sys2Proof.Machine.execAlmFlushTimer s
  | .plossWindowClose => Sys2Proof.Machine.execPlossWindowClose s
  | .almBootScan bad top => Sys2Proof.Machine.execAlmBootScan bad top s
  | .mirrorWriteTimer a upTo => Sys2Proof.Machine.execMirrorWriteTimer a upTo s
  | .mctpPacketRx p => Sys2Proof.Machine.execMctpPacketRx p s
  | .setEndpointId tag eid => Sys2Proof.Machine.execSetEndpointId tag eid s
  | .getEndpointId tag => Sys2Proof.Machine.execGetEndpointId tag s
  | .getEndpointUuid tag => Sys2Proof.Machine.execGetEndpointUuid tag s
  | .getMctpVersionSupport tag => Sys2Proof.Machine.execGetMctpVersionSupport tag s
  | .getMessageTypeSupport tag => Sys2Proof.Machine.execGetMessageTypeSupport tag s
  | .getVendorDefinedMessageSupport tag => Sys2Proof.Machine.execGetVendorDefinedMessageSupport tag s
  | .unsupportedMctpControl tag => Sys2Proof.Machine.execUnsupportedMctpControl tag s
  | .readNvmeMiDataStructure tag dtyp port ctrl => Sys2Proof.Machine.execReadNvmeMiDataStructure tag dtyp port ctrl s
  | .nvmSubsystemHealthStatusPoll tag => Sys2Proof.Machine.execNvmSubsystemHealthStatusPoll tag s
  | .controllerHealthStatusPoll tag => Sys2Proof.Machine.execControllerHealthStatusPoll tag s
  | .configurationGet tag id => Sys2Proof.Machine.execConfigurationGet tag id s
  | .configurationSet tag id value => Sys2Proof.Machine.execConfigurationSet tag id value s
  | .vpdRead tag offset len => Sys2Proof.Machine.execVpdRead tag offset len s
  | .miTunnelledAdmin tag p cmd => Sys2Proof.Machine.execMiTunnelledAdmin tag p cmd s
  | .miAbort tag => Sys2Proof.Machine.execMiAbort tag s
  | .miGetState tag => Sys2Proof.Machine.execMiGetState tag s
  | .mgtUnlistedOpcode h => Sys2Proof.Machine.execMgtUnlistedOpcode h s
  | .getInfo h => Sys2Proof.Machine.execGetInfo h s
  | .regRead h addr count => Sys2Proof.Machine.execRegRead h addr count s
  | .regWrite h addr words env => Sys2Proof.Machine.execRegWrite h addr words env s
  | .regModify h addr mask value env => Sys2Proof.Machine.execRegModify h addr mask value env s
  | .almInfo h => Sys2Proof.Machine.execAlmInfo h s
  | .almRead h seq max_ => Sys2Proof.Machine.execAlmRead h seq max_ s
  | .almAppend h code payload => Sys2Proof.Machine.execAlmAppend h code payload s
  | .imageWrite h target offset data => Sys2Proof.Machine.execImageWrite h target offset data s
  | .imageCommit h target action verifies => Sys2Proof.Machine.execImageCommit h target action verifies s
  | .stagingTimeout => Sys2Proof.Machine.execStagingTimeout s
  | .netSet h port c => Sys2Proof.Machine.execNetSet h port c s
  | .netGet h port ipv4 ipv6 => Sys2Proof.Machine.execNetGet h port ipv4 ipv6 s
  | .pskSet h index hash identity key entropyOk => Sys2Proof.Machine.execPskSet h index hash identity key entropyOk s
  | .pskClear h index => Sys2Proof.Machine.execPskClear h index s
  | .jubPlan h link entries => Sys2Proof.Machine.execJubPlan h link entries s
  | .otpProgram h word value => Sys2Proof.Machine.execOtpProgram h word value s
  | .otpRead h word count => Sys2Proof.Machine.execOtpRead h word count s
  | .powerReq h level => Sys2Proof.Machine.execPowerReq h level s
  | .dynamicAddressAssignment addr => Sys2Proof.Machine.execDynamicAddressAssignment addr s
  | .managementPortReady => Sys2Proof.Machine.execManagementPortReady s
  | .dbgAccess addr data write env => Sys2Proof.Machine.execDbgAccess addr data write env s
  | .extest => Sys2Proof.Machine.execExtest s
  | .samplePreload cells => Sys2Proof.Machine.execSamplePreload cells s
  | .idcode => Sys2Proof.Machine.execIdcode s
  | .extestPulse => Sys2Proof.Machine.execExtestPulse s
  | .extestTrain => Sys2Proof.Machine.execExtestTrain s
  | .highz => Sys2Proof.Machine.execHighz s
  | .clamp => Sys2Proof.Machine.execClamp s
  | .scan => Sys2Proof.Machine.execScan s
  | .bypass => Sys2Proof.Machine.execBypass s
  | .dbgHalt on => Sys2Proof.Machine.execDbgHalt on s
  | .dbgLock => Sys2Proof.Machine.execDbgLock s

end Sys2Proof.Machine
end

