-- ==== Sys2Proof/Machine/Idle.lean ====
section
/-!
DEFINITION. What one nanosecond does while no command waits: clocks count (R85, R467, R478), and what is due at a time or when
something else has ended takes place (R28, R92, R106, R189, R192, R338, R445, R475, R477, R511, R589).
-/
namespace Sys2Proof.Machine

/-- SVO_CLK runs: domain RT is on, outside PL5-hold (R85, Table 16.1). -/
def State.rtRuns (s : State) : Bool := !s.pwr.off.testBit 6 && s.pwr.hold.isNone

/-- The clocks count one nanosecond. A frozen Ides count is put off by as much (R479). -/
def State.clocks (s : State) : State :=
  let s : State := { s with
    ltime := if s.rtRuns then s.ltime + 1 else s.ltime
    vgl := { s.vgl with wall := s.vgl.wall + 1, tick8 := if s.fabRuns then s.vgl.tick8 + 8 else s.vgl.tick8 } }
  s.onlyIf s.idesFrozen fun s => s.modClk fun c => { c with kickAt := c.kickAt + 1 }

/-- A controller that is not idle restarts its idle times (R445). -/
def State.idleClears (s : State) : State := s.onlyIf (!s.isIdle) fun s => s.modPwr fun p => { p with idle := 0 }

/-- Block resets of ALM, and resets that retract, go on when what they wait for has ended (R475, R477, R589). -/
def State.resetsGo (s : State) : State := (s.onlyIf s.clk.almReset State.almResetGo).waitedReset

/-- Firmware of the stand-alone default loads the actuators whose links are up, with the spindle AT_SPEED (R483). -/
def State.loadsDue (s : State) : State :=
  if !s.rbit motStatus 3 then s
  else s.each (s.fw.loadAll.filter fun a => s.rbit actStatusAll a) fun s a =>
    (s.modFw fun f => { f with loadAll := f.loadAll.filter fun b => b != a }).actLoad a

/-- What is due on actuator slice `n`: gates open, heads are disarmed at the end of their gates, reads that brought no burst fail, a rate
switch gets its time, and servo outputs that wait leave together (R92, R106, R170, R189, Table 5.2). -/
def State.sliceGoes (s : State) (n : Nat) : State := ((((s.openGates n).wdisarmGo n).noBurst n).rateTry n).flushServo n

/-- One nanosecond without a command. -/
def State.idleTick (s : State) : State :=
  (((s.clocks.idleClears).each (upto 4) State.sliceGoes).evictionsLeave.calSettle.loadsDue).resetsGo

end Sys2Proof.Machine
end

