-- ==== Sys2Proof/Safety.lean ====
section
/-!
DEFINITION. What the statements take for granted of a state, and what a safe step is.
-/
namespace Sys2Proof.Machine

/-- The register table is in its canonical form: one home for each register, and no entry that equals a reset value. -/
def State.RegsOk (s : State) : Prop := twf regReset s.regs = true

/-- LPDDR6 and the flash are in their canonical form: one home for each data unit and each page, and no entry that equals what an
unlisted one reads as. -/
def State.MemOk (s : State) : Prop := twf goodUnit s.mem.units = true ∧ twf (fun _ => erasedPage) s.fls.pages = true

/-- What every step keeps of the tables of registers, memory and flash. -/
def State.Inv (s : State) : Prop := s.RegsOk ∧ s.MemOk

/-- The parts of the state: one for each field of State. -/
inductive Part where
  | regs | groups | ulk | ltime | chn | wpa | svo | act | gov | mot | ord
  | lnt | mem | buf | cellq | hif | ctx | fw | jub | vgl | pwr | clk
  | fls | sec | dbg | cal | alm | mgt | out | free | pending
deriving DecidableEq, Repr

/-- A part is the same in two states. -/
def Part.same (s t : State) : Part → Prop
  | .regs => t.regs = s.regs
  | .groups => t.groups = s.groups
  | .ulk => t.ulk = s.ulk
  | .ltime => t.ltime = s.ltime
  | .chn => t.chn = s.chn
  | .wpa => t.wpa = s.wpa
  | .svo => t.svo = s.svo
  | .act => t.act = s.act
  | .gov => t.gov = s.gov
  | .mot => t.mot = s.mot
  | .ord => t.ord = s.ord
  | .lnt => t.lnt = s.lnt
  | .mem => t.mem = s.mem
  | .buf => t.buf = s.buf
  | .cellq => t.cellq = s.cellq
  | .hif => t.hif = s.hif
  | .ctx => t.ctx = s.ctx
  | .fw => t.fw = s.fw
  | .jub => t.jub = s.jub
  | .vgl => t.vgl = s.vgl
  | .pwr => t.pwr = s.pwr
  | .clk => t.clk = s.clk
  | .fls => t.fls = s.fls
  | .sec => t.sec = s.sec
  | .dbg => t.dbg = s.dbg
  | .cal => t.cal = s.cal
  | .alm => t.alm = s.alm
  | .mgt => t.mgt = s.mgt
  | .out => t.out = s.out
  | .free => t.free = s.free
  | .pending => t.pending = s.pending

/-- Every part of the state but those named is as it was. -/
def SameBut (ps : List Part) (s t : State) : Prop := ∀ p : Part, p ∉ ps → p.same s t

/-- The address lies in the window of block `b` (Table 1.1). -/
def InBlock (b a : Nat) : Prop := regAddr b 0 ≤ a ∧ a < regAddr b 0 + 0x10000

/-- Every register but those named reads as it did. -/
def RegsBut (l : List Nat) (s t : State) : Prop := ∀ a, a ∉ l → t.reg a = s.reg a

/-- Only the parts `ps` and the registers `l` may change. -/
def Only (ps : List Part) (l : List Nat) (s t : State) : Prop := RegsBut l s t ∧ SameBut (.regs :: ps) s t

/-- The parts that a reply of the management port touches. -/
def replyParts : List Part := [.regs, .cellq, .mgt, .out]

/-- The management port has answered request `tag` with a status and its data. -/
def Replied (tag st : Nat) (l : List Byte) (s t : State) : Prop := t.out = .mgtReply tag st l :: s.out

/-- The block indices of four instances. -/
def four (b : Nat → Nat) : List Nat := [b 0, b 1, b 2, b 3]

/-- The frame of a command: whenever it answers a next state, every part of the state but `ps` is as it was, and every register
outside the windows of blocks `bs` reads as it did. -/
def Frame (c : Instr) (ps : List Part) (bs : List Nat) : Prop :=
  ∀ s t, exec c s = .next t → SameBut ps s t ∧ ∀ a, 0x10000000 ≤ a → (∀ b ∈ bs, ¬ InBlock b a) → t.reg a = s.reg a

/-- The frame of a command that may reach every register: every part of the state but `ps` is as it was. -/
def Kept (c : Instr) (ps : List Part) : Prop := ∀ s t, exec c s = .next t → SameBut ps s t

/-- The command completes: it answers a next state of which `p` holds. -/
def Completes (c : Instr) (s : State) (p : State → Prop) : Prop := ∃ t, exec c s = .next t ∧ p t

/-- A step is safe when it ends neither in a fault nor in a refusal. -/
def SafeStep (s : State) : Prop := ∃ t, step s = .next t

/-- The states that `n` steps lead to. -/
def After : Nat → State → State → Prop
  | 0, s, t => t = s
  | n + 1, s, t => ∃ u, step s = .next u ∧ After n u t

end Sys2Proof.Machine
end

