-- ==== Sys2Proof/Certificates/Slice0/Obligations.lean ====
section
/-!
DEFINITION. The statements about the model, from the rules of spec/. `Completes c s p`: command `c` answers a next state of which `p`
holds. `SameBut ps s t`: every part of the state but those named is as it was. `RegsBut l s t`: every register but those named reads as it
did. `Only ps l s t`: both, for the parts `ps` and the registers `l`. `Frame c ps bs`: what `c` leaves, whenever it answers a next state.
-/
open Sys2Proof Sys2Proof.Machine

/-- A step runs the command at the front of the queue on the state with the queue's rest. That an empty queue lets one nanosecond pass is
the model's choice (log entry 1), no rule. -/
def Obligations.StepRunsFrontCommand : Prop :=
  (∀ (c : Instr) (cs : List Instr) (s : State), s.pending = c :: cs → step s = exec c { s with pending := cs }) ∧
  (∀ s : State, s.pending = [] → step s = .next s.idleTick)

/-- The tables of registers, memory and flash are in their canonical form right after reset. -/
def Obligations.ResetMeetsInvariant : Prop := State.reset.Inv

/-- Every step keeps the canonical form of the tables of registers, memory and flash, whatever command stands in front. -/
def Obligations.EveryStepKeepsInvariant : Prop := ∀ s t : State, s.Inv → step s = .next t → t.Inv

/-- No command and no idle step stops the controller: the spec gives every row of the table an effect. -/
def Obligations.NoStepStops : Prop := ∀ s : State, SafeStep s

/-- No command reads or changes the queue of the commands that wait. -/
def Obligations.CommandsLeaveQueue : Prop :=
  (∀ (c : Instr) (s t : State), exec c s = .next t → t.pending = s.pending) ∧ ∀ s : State, s.idleTick.pending = s.pending

/-- The commands that wait run first in, first out, each once: as many steps as there are commands empty the queue, and the state they lead
to is the one that the commands lead to in turn. -/
def Obligations.QueueRunsInOrder : Prop :=
  ∀ (c : Instr) (cs : List Instr) (s t u : State), exec c { s with pending := cs } = .next t → After cs.length t u →
    After (cs.length + 1) { s with pending := c :: cs } u ∧ u.pending = []

/-- After every write of BUDGET no MOP waits whose own cost exceeds it (R219), the first MOP that waits does not fit beside what is in
use (R218), and the MOPs that wait are some of those that waited, in the same order (R218). -/
def Obligations.GovernorDecides : Prop :=
  ∀ (v : BitVec 32) (s : State), Completes (.govBudgetWrite v) s fun t => t.rfld actGovBudget 0 16 = fld v 0 16 ∧
    (∀ w ∈ t.gov, w.run + w.seek ≤ fld v 0 16) ∧
      (∀ w ws, t.gov = w :: ws → fld v 0 16 < w.run + w.seek + t.rfld actGovUsed 0 16) ∧ t.gov.Sublist s.gov

/-- R262: CLR_FAULT clears CHOP_FAULT and the Fault state only when the speed is below STOP_RPM; otherwise the write is ignored and sets
MOT_INT.REFUSED. -/
def Obligations.ClearFaultRule : Prop :=
  ∀ s : State,
    (s.rpm < s.stopRpm → Completes .motClrFault s fun t => t.rbit motStatus 5 = false ∧ t.motSt ≠ 7 ∧
      (s.motSt ≠ 7 → t.motSt = s.motSt) ∧ SameBut [.regs, .mot] s t) ∧
    (s.stopRpm ≤ s.rpm → Completes .motClrFault s fun t => t.rbit motInt 6 ∧ t.rbit motStatus 5 = s.rbit motStatus 5 ∧ t.motSt = s.motSt ∧
      Only [] [motInt, motStatus] s t)

/-- R276: clearing RUN stops admission, an admitted MOP runs on, the engine is Halted with no MOP admitted or running, and setting RUN
resumes admission with the queue as it stands. -/
def Obligations.RunRule : Prop :=
  ∀ (n : Fin 4) (s : State),
    (∀ run, (run = true ∨ (s.ordP n).phase ≠ .admitting) → Completes (.ordRun n run) s fun t => t.rbit (ordCtrl n) 0 = run ∧ t.ordP n = s.ordP n ∧
      Only [] [ordCtrl n] s t) ∧
    (∀ find, s.rbit (ordCtrl n) 0 = false → Completes (.mopAdmission n find) s fun t => (t.ordP n).mop = (s.ordP n).mop ∧
      (t.ordP n).phase = (s.ordP n).phase) ∧
    (∀ find, s.rbit (ordCtrl n) 0 = false → (s.ordP n).phase = .running → (s.ordP n).overrun = false →
      s.sramFind (22 + n) ((s.ordP n).pc / 2) find = .clean → uop ((s.ordP n).word (s.ordP n).pc) = 0 → Completes (.nop n find) s fun t =>
      t.ordP n = { s.ordP n with pc := ((s.ordP n).pc + 1) % 16384, budgetWords := (s.ordP n).budgetWords + 1 }) ∧
    (s.halted n ↔ s.rbit (ordCtrl n) 0 = false ∧ (s.ordP n).mop = none) ∧
    (∀ find m ms, s.rbit (ordCtrl n) 0 → (s.ordP n).mop = none → (s.ordP n).queue = m :: ms → m.refused = 0 → s.actSt n ≠ 6 → s.disPending n = false →
      s.sramFind (22 + n) (m.opcode / 2) find = .clean → m.replayCells = 0 → fld ((s.ordP n).word m.opcode) 14 2 = 0 →
      s.rfld actGovUsed 0 16 ≤ s.rfld actGovBudget 0 16 → Completes (.mopAdmission n find) s fun t => (t.ordP n).mop = some m ∧
      (t.ordP n).queue = ms ∧ (t.ordP n).phase = .running)

/-- R373: writes of HIF_MODE and HIF_LANE with PORT_EN 1 are ignored and set CFG_REFUSED; a link that drops with PORT_EN 1 retrains, the
associations on the port survive, and expiry of the Keep Alive Timer ends them. -/
def Obligations.PortModeRule : Prop :=
  ∀ (p : Fin 4) (s : State), s.rbit (hifCtrl p) 0 →
    (∀ lane v, Completes (.hifModeWrite p lane v) s fun t => t.rbit (hifInt p) 3 ∧ t.reg (hifMode p) = s.reg (hifMode p) ∧
      t.reg (regAddr (bHIF p) 0x14) = s.reg (regAddr (bHIF p) 0x14) ∧ Only [] [hifInt p] s t) ∧
    ((s.hifP p).link = 2 → Completes (.hifLinkDown p) s fun t => (t.hifP p).link = 1 ∧ (t.hifP p).ctrl = (s.hifP p).ctrl ∧
      (t.hifP p).conns = (s.hifP p).conns ∧ SameBut [.regs, .hif] s t) ∧
    (∀ k, (s.hifP p).ctrl = some k → k.kaAt + 1000000 * k.kato ≤ s.vgl.wall → s.level < 4 → s.pwr.kaStop = false →
      Completes (.keepAliveExpiry p) s fun t => (t.hifP p).ctrl = none)

/-- R550: OTP_PROGRAM accepts words of sectors 3, 4 and 5 and the lock words 3, 4 and 5 of sector 7; any other word gets MGT_ACCESS_DENIED.
The program sets bits under R502, which refuses a locked sector, and appends OTP_PROGRAMMED. -/
def Obligations.OtpProgramRule : Prop :=
  ∀ (h : MgtHdr) (w : Nat) (v : BitVec 32) (s : State), h.iana = 0x0001B7C3 → h.version = 1 → h.lengthOk → h.reservedOk → s.rbit mgtLock 4 = false →
    w < 1024 →
    let data : Prop := 3 * 128 ≤ w ∧ w < 6 * 128
    let lockWord : Prop := 7 * 128 + 3 ≤ w ∧ w ≤ 7 * 128 + 5
    let kept (t : State) : Prop := ∀ x, t.otpWord x = s.otpWord x
    (¬ data → ¬ lockWord → Completes (.otpProgram h w v) s fun t => Replied h.tag 0x304 [] s t ∧ kept t) ∧
    (data → s.otpLocked (w / 128) → Completes (.otpProgram h w v) s fun t => Replied h.tag 0x407 [] s t ∧ kept t) ∧
    (lockWord → s.otpLocked 7 → Completes (.otpProgram h w v) s fun t => Replied h.tag 0x407 [] s t ∧ kept t) ∧
    ((data ∧ s.otpLocked (w / 128) = false) ∨ (lockWord ∧ s.otpLocked 7 = false) → Completes (.otpProgram h w v) s fun t =>
      t.otpWord w = (if s.otpWord w = 0 then v else s.otpWord w) ∧ (∀ x, x ≠ w → t.otpWord x = s.otpWord x) ∧ Replied h.tag 0 [] s t ∧
      ∃ m, t = ((s.otpSet w v).almanac 0x8007 0xFFFF 0 [(4, w), (4, v.toNat)]).mgtSend m h.tag 0 [])

/-- The host port's commands complete (R372 to R391, R409, R450). -/
def Obligations.HostPortCommandsComplete : Prop :=
  ∀ (p : Fin 4) (s : State),
  (s.rbit (hifCtrl p) 0 = false → Completes (.hifPortEn p true) s fun t => t.rbit (hifCtrl p) 0 ∧ (t.hifP p).link = 1 ∧ t.rfld (hifStatus p) 0 6 = 0 ∧
    Only [.hif] [hifCtrl p, hifStatus p, hifInt p] s t) ∧
  (s.rbit (hifCtrl p) 0 → s.portCtxs p = [] → Completes (.hifPortEn p false) s fun t => t.rbit (hifCtrl p) 0 = false ∧
    (t.hifP p).link = 0 ∧ (t.hifP p).ctrl = none ∧ t.rbit (hifStatus p) 6 = false) ∧
  (s.rbit (hifCtrl p) 0 → Completes (.hifRestartAn p) s fun t => (t.hifP p).link = 1 ∧ t.rfld (hifStatus p) 0 6 = 0 ∧
    RegsBut [hifStatus p, hifInt p] s t) ∧
  (∀ v, s.rbit (hifCtrl p) 0 = false → Completes (.hifModeWrite p false v) s fun t => t.reg (hifMode p) = v &&& 0x1F ∧ Only [] [hifMode p] s t) ∧
  (∀ lane v, s.rbit (hifCtrl p) 0 → Completes (.hifModeWrite p lane v) s fun t => t.rbit (hifInt p) 3 ∧ Only [] [hifInt p] s t) ∧
  (∀ v, (((upto 4).filter fun q => q != p.val).map fun q => s.rfld (hifQlimit q) 0 11).sum + fld v 0 11 ≤ 1024 →
    Completes (.hifQlimitWrite p v) s fun t => t.reg (hifQlimit p) = v &&& 0x7FF ∧ Only [] [hifQlimit p] s t) ∧
  (∀ v, Completes (.hifLattolWrite p v) s fun t => t.reg (hifLattol p) = v &&& 0xFFFFF) ∧
  (∀ m : Fin 16, (s.hifP p).link = 1 → s.modeAllowed p m → Completes (.anAttemptDone p (some m)) s fun t => (t.hifP p).link = 2 ∧
    t.rbit (hifStatus p) 0 ∧ t.rfld (hifStatus p) 2 4 = m.val ∧ t.rbit (hifInt p) 0 ∧ RegsBut [hifStatus p, hifInt p] s t) ∧
  ((s.hifP p).link = 1 → Completes (.anAttemptDone p none) s fun t => (t.hifP p).link = 3 ∧ t.rbit (hifInt p) 2 ∧ RegsBut [hifInt p] s t) ∧
  ((s.hifP p).link = 3 → Completes (.anRetryTimer p) s fun t => t.hifP p = { s.hifP p with link := 1 } ∧ SameBut [.hif] s t) ∧
  ((s.hifP p).link = 2 → Completes (.hifLinkDown p) s fun t => t.hifP p = { s.hifP p with link := 1 } ∧ t.rfld (hifStatus p) 0 6 = 0 ∧
    t.rbit (hifInt p) 1 ∧ RegsBut [hifStatus p, hifInt p] s t) ∧
  (∀ (f : EthFrame) qp, (s.hifP p).link = 2 → f.fecCorr = 0 → f.fecUncorr = 0 → f.fcsOk → s.frameAccepted p f → f.pay = .roceConnect qp → s.fabOn →
    s.rbit (hifCtrl p) 4 → Completes (.ethFrameRx p f) s fun t => ((t.hifP p).conns.any fun c => c.rdma && c.id == qp && !c.ended) ∧
    SameBut [.hif] s t) ∧
  (∀ (f : EthFrame), (s.hifP p).link = 2 → f.fecCorr = 0 → f.fecUncorr = 0 → f.fcsOk = false →
    (s.reg (hifCtr p 2).addr).toNat + 1 < 2 ^ (hifCtr p 2).width - 1 → Completes (.ethFrameRx p f) s fun t =>
      (t.reg (hifCtr p 2).addr).toNat = (s.reg (hifCtr p 2).addr).toNat + 1 ∧ Only [] [(hifCtr p 2).addr] s t) ∧
  (∀ conn, (s.hifP p).link = 2 → s.rbit (hifCtrl p) 3 → Completes (.tcpConnectionOpen p conn true true) s fun t => ((t.hifP p).conns.any fun c =>
    !c.rdma && c.id == conn && c.tls && !c.ended) ∧ SameBut [.hif] s t) ∧
  (∀ k, (s.hifP p).ctrl = some k → k.kaAt + 1000000 * k.kato ≤ s.vgl.wall → s.level < 4 → s.pwr.kaStop = false → s.portCtxs p = [] →
    Completes (.keepAliveExpiry p) s fun t => (t.hifP p).ctrl = none ∧ t.rbit (hifStatus p) 6 = false)

/-- The commands of power and reset pins complete (R453, R459, R472, R563, R568, R588): what each leaves. -/
def Obligations.PowerAndPinResetsComplete : Prop :=
  (∀ s, Completes .vigilPowerOnReset s fun t => t.vgl.por ∧ t.vgl.fell ∧ ∀ a, (InBlock bVGL a → t.reg a = regReset a) ∧ (¬ InBlock bVGL a →
    t.reg a = s.reg a)) ∧
  (∀ te mm s, Completes (.powerOnReset te mm) s fun t => t.rbit clkCause 0 ∧ (s.vgl.por → t.rbit clkCause 7) ∧ t.vgl.por = false ∧ t.clk = {} ∧
    t.ltime = 0 ∧ t.ord = [] ∧ t.dbg = { testEn := te, mgtMode := mm } ∧ t.rbit dbgCtrl 1 = false) ∧
  (∀ te mm s, Completes (.pinReset te mm) s fun t => t.rbit clkCause 1 ∧ t.clk = {} ∧ t.ltime = 0 ∧ t.dbg = { testEn := te, mgtMode := mm } ∧
    t.rbit dbgCtrl 1 = false) ∧
  (∀ s, Completes .mainRailLoss s fun t => t.pwr.rails = false ∧ t.pwr.entry = none ∧ t.pwr.exit = none ∧ SameBut [.pwr] s t) ∧
  (∀ vbat s, Completes (.vigilSupplySwitch vbat) s fun t => t.rbit vglStatus 0 = vbat ∧ Only [] [vglStatus] s t) ∧
  (∀ r s, Requester.fwOrMgt r → Completes (.cpuRst r) s fun t => t.rbit clkCause 6 ∧ t.clk.boot = 6 ∧ t.clk.cluster ∧ t.rbit dbgCtrl 0 = false ∧
    Only [.clk, .fls] [clkCause, dbgCtrl] s t) ∧
  (∀ s, Completes .testLogicReset s fun t => t.dbg.ir = 0x02 ∧ t.dbg.tapActive = false ∧ SameBut [.dbg] s t)

/-- Control, warm and block resets complete (R475 to R477, R588): what each starts, and what it does once what it waits for is there. -/
def Obligations.RequestedResetsComplete : Prop :=
  (∀ r s, Requester.mayControl r → s.rbit clkReset 0 = false → s.clk.control = false → Completes (.ctrlRst r) s fun t => t.clk.control ∧
    t.clk.cpuReset ∧ t.rbit clkStatus 3) ∧
  (∀ s, s.clk.control → (∀ n < 4, s.halted n) → Completes .controlResetHalted s fun t => t.clk.control = false ∧ t.clk.cpuReset = false ∧
    t.clk.boot = 1 ∧ t.rbit clkReset 0 = false ∧ t.rbit clkStatus 3 = false ∧ t.ctx = [] ∧ t.cellq = []) ∧
  (∀ r s, Requester.fwOrMgt r → s.rbit clkReset 1 = false → s.clk.wait ≠ some .escalated → Completes (.warmRst r) s fun t =>
    (t.clk.wait = some .warm ∧ t.rbit clkStatus 3) ∨ t.rbit clkCause 4) ∧
  (∀ s, s.clk.wait = some .warm → s.unparked = [] → s.almFlushed → Completes .resetRetractDone s fun t => t.rbit clkCause 4 ∧ t.clk.wait = none ∧
    t.ltime = 0 ∧ t.ctx = []) ∧
  (∀ r (b : Fin 64) s, Requester.fwOrMgt r → blockAt b → b.val ∉ [0, 2, 3, 4, 0x20, 0x21, 0x26, 0x2F] → s.rbit (clkBlkrst b) (b % 32) = false →
    Completes (.blockReset r b) s fun t => ∀ a, InBlock b a → t.reg a = regReset a)

/-- The Ides watchdog, the boot ROM and firmware's loads complete (R478 to R482, R508). -/
def Obligations.WatchdogAndBootComplete : Prop :=
  (∀ r s, Completes (.idesKick r 0x1DE50001) s fun t => t.clk.kickAt = s.vgl.wall ∧ t.clk.timeout = s.rfld idesCfg 0 16 ∧ t.clk.warned = false ∧
    SameBut [.clk] s t) ∧
  (∀ v s, bitAt v 16 → s.idesOn = false → Completes (.idesEnable v) s fun t => t.idesOn ∧ t.rfld idesCfg 0 16 = fld v 0 16 ∧
    t.clk.kickAt = s.vgl.wall ∧ t.clk.timeout = fld v 0 16 ∧ Only [.clk] [idesCfg] s t) ∧
  (∀ pc s, s.idesOn → s.clk.warned = false → s.clk.kickAt + 500000 * s.clk.timeout ≤ s.vgl.wall → Completes (.idesWarn pc) s fun t => t.clk.warned ∧
    t.rbit clkInt 0 ∧ SameBut [.regs, .clk, .cellq] s t) ∧
  (∀ s, s.idesOn → s.clk.kickAt + 1000000 * s.clk.timeout ≤ s.vgl.wall → s.rfld idesExp 0 2 < 2 → Completes .idesExpiry s fun t => t.clk.control ∧
    t.clk.cpuReset ∧ t.clk.kickAt = s.vgl.wall ∧ t.rbit clkStatus 3) ∧
  (∀ c v s, bitAt v 0 → Completes (.bootOk (.cpu c) v) s fun t => t.rfld idesExp 0 2 = 0 ∧ t.rfld clkBoot 0 2 = 0 ∧ Only [] [idesExp, clkBoot] s t) ∧
  (∀ o s, s.pwr.rails → s.clk.control = false → s.clk.wait = none → s.clk.boot = 1 → o.ok → Completes (.bootStep o) s fun t => t.clk.boot = 2 ∧
    t.rbit clkStatus 0 ∧ t.rbit clkStatus 1 ∧ SameBut [.regs, .clk] s t) ∧
  (∀ o s, s.pwr.rails → s.clk.control = false → s.clk.wait = none → s.clk.boot = 4 → Completes (.bootStep o) s fun t => t.clk.boot = 5) ∧
  (∀ store servo ok s, s.flsPage (partitionBlocks 1).1 1 ≠ erasedPage → s.headerVerifies (s.flsPage (partitionBlocks 1).1 1) false →
    Completes (.partitionLoad true (.ordo store servo) ok) s fun t => t.fw.ordoImg = store ∧ t.fw.svoImg = servo ∧
    SameBut [.regs, .svo, .ord, .cellq, .fw] s t) ∧
  (∀ net s, Completes (.pllUnlock net) s fun t => t.rbit clkStatus (if net then 1 else 0) = false ∧ t.rbit clkInt 1 ∧ Only [] [clkStatus, clkInt] s t)

/-- Admin and Fabrics commands that firmware carries out complete (R379, R385, R403 to R408, Table 13.3): the completion goes to QMG through
queue 4, in the cell reserved for it, with the command's result. -/
def Obligations.AdminCommandsComplete : Prop :=
  ∀ (c : Fin 4096) (x : Ctx) (s : State), s.fresh c = some x → s.qEnabled 4 → s.poolUp → (s.cq 4).chain = [] →
    (s.cq 4).waitPkts = [] → 1 ≤ (s.cq 4).resv →
    let p := x.port
    let done (e : Cpl) (t : State) : Prop := (t.cq 4).pkts = (s.cq 4).pkts ++ [⟨.cpl c e, 20, false⟩] ∧ ∃ y, t.ctxAt c = some y ∧ y.ended
    (∀ size kato host rdma, x.cmd.op = .connect 0 size kato host false rdma → (s.hifP p).ctrl = none → katoOk kato → 0 < size → size ≤ 1024 →
      Completes (.connect c) s fun t => (∃ k, (t.hifP p).ctrl = some k ∧ k.kato = katoRound kato ∧ k.queues = [(0, size)] ∧ k.host = host) ∧
      t.rbit (hifStatus p) 6 ∧ done {} t) ∧
    (∀ k, x.cmd.op = .disconnect → (s.hifP p).ctrl = some k → x.cmd.sqid ≠ 0 → Completes (.disconnect c) s fun t =>
      (t.hifP p).ctrl = some { k with queues := k.queues.filter fun q => q.1 != x.cmd.sqid } ∧ done {} t) ∧
    (∀ k, x.cmd.op = .propertyGet 0x1C → (s.hifP p).ctrl = some k → Completes (.propertyGet c) s (done {})) ∧
    (∀ k v, x.cmd.op = .propertySet 0x14 v → (s.hifP p).ctrl = some k → bitAt k.cc 0 = false → bitAt (v.setWidth 32) 0 →
      fld (v.setWidth 32 : W) 14 2 = 0 → Completes (.propertySet c) s fun t => (t.hifP p).ctrl = some
      { k with cc := v.setWidth 32, csts := putBit k.csts 0 true } ∧ done {} t) ∧
    (∀ cns, x.cmd.op = .identify cns → Completes (.identify c) s (done (s.identifyCmd p x.cmd.nsid cns).1)) ∧
    (∀ lid, x.cmd.op = .getLogPage lid → Completes (.getLogPage c) s (done (s.logPageCmd p x.cmd.nsid lid).2.1)) ∧
    (∀ v apst, x.cmd.op = .setFeatures 6 v apst → Completes (.setFeatures c) s fun t => t.rbit (bankAddr 29) 0 = bitAt v 0 ∧ done {} t) ∧
    (∀ v apst, x.cmd.op = .setFeatures 0xC1 v apst → fld v 20 12 = 0 → Completes (.setFeatures c) s fun t => t.reg (hifLattol p) = v &&& 0xFFFFF ∧
      done {} t) ∧
    (∀ fid sel, x.cmd.op = .getFeatures fid sel → Completes (.getFeatures c) s (done (s.getFeature p fid sel))) ∧
    (∀ sqid cid, x.cmd.op = .abort sqid cid → s.lookupCmd p sqid cid = none → Completes (.abort c) s fun t => t.rbit qmgInt 3 ∧ done { dw0 := 1 } t) ∧
    (∀ sqid cid k y, x.cmd.op = .abort sqid cid → sqid ≠ 0 → s.lookupCmd p sqid cid = some (k, y) → k ≠ c.val → y.early → opWrites y.cmd.op = false →
      y.discard = false → s.ctxAt k = some y → Completes (.abort c) s fun t => t.rbit qmgInt 3 ∧
        (∃ w, t.ctxAt k = some w ∧ w.st = .committed ∧ w.entry = some (codeCplFor y.cmd.op 0x200)) ∧ done {} t) ∧
    (∀ sqid cid k y, x.cmd.op = .abort sqid cid → sqid ≠ 0 → s.lookupCmd p sqid cid = some (k, y) → k ≠ c.val → s.ctxAt k = some y → y.st = .running →
      y.begun = false → y.ended = false → opWrites y.cmd.op = false → 2 ≤ (s.cq 4).resv → Completes (.abort c) s fun t => t.rbit qmgInt 3 ∧
      (∃ w, t.ctxAt k = some w ∧ w.ended ∧ w.abort) ∧
          (t.cq 4).pkts = (s.cq 4).pkts ++ [⟨.cpl k { y with abort := true }.final, 20, false⟩, ⟨.cpl c {}, 20, false⟩] ∧ ∃ w, t.ctxAt c = some w ∧
            w.ended) ∧
    (∀ n, x.cmd.op = .format 0 → s.space x.cmd.nsid = some n → (∀ z ∈ s.zonesOf n, (s.zone z).receiving = false ∧ s.zoneBusy z = false ∧
      s.bandBusy z = false) → (∀ e ∈ s.ctxs, ¬ (e.2.st = .running ∧ cmdIo e.2.cmd ∧ e.2.cmd.nsid = n.nsid)) → Completes (.formatNvm c true) s fun t =>
      (∀ e ∈ t.fw.written, (s.zonesOf n).contains (e.1 / 65536) = false) ∧ done {} t) ∧
    (∀ off data, x.cmd.op = .fwDownload off data → s.stageFree 3 → Completes (.firmwareImageDownload c) s fun t => tget (fun _ =>
      []) t.fw.staged off = data ∧ t.fw.stageOwner = 3 ∧ done {} t) ∧
    (∀ slot, x.cmd.op = .fwCommit slot 2 → 1 ≤ slot → slot ≤ 2 → s.fls.op = none → s.fls.suspended = none →
      s.headerVerifies (s.slotHeader (slot - 1)) true → s.rbit clkBoot 4 = false → Completes (.firmwareCommit c true) s fun t =>
      t.fw.pendingSlot = some (slot - 1) ∧ done {} t) ∧
    (∀ key e, x.cmd.op = .kvDelete key → keyOk key → s.kvFind x.cmd.nsid key = some e → Completes (.delete c) s fun t => t.fw.kv = s.fw.kv.erase e ∧
      done {} t) ∧
    (∀ key, x.cmd.op = .kvExist key → keyOk key → Completes (.exist c) s (done (if (s.kvFind x.cmd.nsid key).isSome then {} else kvNoKey))) ∧
    (∀ key, x.cmd.op = .kvList key → Completes (.list c) s (done {})) ∧
    (∀ key n, x.cmd.op = .kvRetrieve key → s.space x.cmd.nsid = some n → keyOk key → s.kvFind n.nsid key = none →
      Completes (.retrieve c .clean) s (done kvNoKey)) ∧
    (∀ lba n, x.cmd.op = .reportZones lba → s.space x.cmd.nsid = some n → Completes (.reportZones c) s (done {})) ∧
    (∀ code, x.cmd.op = .unsupported code → Completes (.unsupportedCommand c) s (done invalidOpcode))

/-- Reservation commands complete (R411): a registration, the report, an acquisition and a release. -/
def Obligations.ReservationCommandsComplete : Prop :=
  ∀ (c : Fin 4096) (x : Ctx) (s : State), s.fresh c = some x →
    let h := s.hostOf x.port
    let r := s.rsvOf x.cmd.nsid
    let ended (t : State) : Prop := ∃ y, t.ctxAt c = some y ∧ y.ended
    (∀ cur new ign, x.cmd.op = .rsvRegister 0 cur new 0 ign → r.keyOf h = none → Completes (.reservationRegister c) s fun t =>
      t.rsvOf x.cmd.nsid = { r with gen := (r.gen + 1) % 2 ^ 32, keys := r.keys ++ [(h, new)] } ∧ ended t) ∧
    (x.cmd.op = .rsvReport → Completes (.reservationReport c) s fun t => t.rsvOf x.cmd.nsid = r ∧ ended t) ∧
    (∀ ty cur pre, x.cmd.op = .rsvAcquire 0 ty cur pre → r.keyOf h = some cur → 1 ≤ ty → ty ≤ 6 → r.type_ = 0 →
      Completes (.reservationAcquire c) s fun t => t.rsvOf x.cmd.nsid = { r with type_ := ty, holder := some h } ∧ ended t) ∧
    (∀ cur, x.cmd.op = .rsvRelease 0 r.type_ cur → r.keyOf h = some cur → r.type_ ≠ 0 → r.holder = some h →
      Completes (.reservationRelease c) s fun t => (t.rsvOf x.cmd.nsid).type_ = 0 ∧ (t.rsvOf x.cmd.nsid).holder = none ∧
        (t.rsvOf x.cmd.nsid).keys = r.keys)

/-- Host commands that read, write or manage zones complete (R70 to R76, R396 to R403): what each begins or does at once. -/
def Obligations.HostDataCommandsComplete : Prop :=
  ∀ (c : Fin 4096) (x : Ctx) (n : Nspace) (s : State), s.fresh c = some x → s.space x.cmd.nsid = some n →
    let ended (t : State) : Prop := ∃ y, t.ctxAt c = some y ∧ y.ended
    let reads (t : State) : Prop := ∃ y, t.ctxAt c = some y ∧ (y.need = [] → y.ended) ∧ (y.need ≠ [] → y.begun)
    let writes (cmd : Instr) : Prop := ∀ k ks, s.behindReset x n = false → s.dataWaits x = false →
      s.keysOf n x.first (opData x.cmd.op).length = k :: ks → (s.groupOf (k / 65536)).isSome → Completes cmd s fun t => (tget (fun _ =>
      none) t.fw.dirty k).isSome ∧ ∃ y, t.ctxAt c = some y ∧ y.bufs = 0
    (∀ lba k lim, s.behindReset x n = false → x.cmd.op = .read lba k lim → (s.bufferBad (s.keysOf n lba k) .clean).2 = 0 →
      Completes (.read c .clean) s reads) ∧
    (∀ lba d, s.behindReset x n = false → x.cmd.op = .compare lba d → (s.bufferBad (s.keysOf n lba d.length) .clean).2 = 0 →
      Completes (.compare c .clean) s reads) ∧
    (∀ lba d, x.cmd.op = .write lba d → writes (.write c .clean)) ∧
    (∀ lba j, x.cmd.op = .writeZeroes lba j → writes (.writeZeroes c)) ∧
    (∀ lba d, x.cmd.op = .zoneAppend lba d → writes (.zoneAppend c .clean)) ∧
    (x.cmd.op = .flush → x.need = [] → Completes (.flush c) s ended) ∧
    (x.cmd.op = .flush → x.need ≠ [] → Completes (.flush c) s fun t => ∃ y, t.ctxAt c = some y ∧ y.begun ∧ y.ended = false ∧ y.need = x.need) ∧
    (∀ lba z, x.cmd.op = .zoneSend lba 3 false → s.sendZones n lba false = some [z] → (s.zone z).receiving = false → s.zoneReadOnly z = false →
      (s.zone z).st ≠ .full → s.openLimit n z = 0 → Completes (.zoneOpen c) s fun t => t.zone z = Zone.noted { s.zone z with st := .explOpen } ∧
        ended t) ∧
    (∀ lba z, x.cmd.op = .zoneSend lba 1 false → s.sendZones n lba false = some [z] → (s.zone z).receiving = false → s.zoneReadOnly z = false →
      ((s.zone z).st = .implOpen ∨ (s.zone z).st = .explOpen) → Completes (.zoneClose c) s fun t =>
        t.zone z = Zone.noted { s.zone z with st := if (s.zone z).accept = 0 then .empty else .closed } ∧ ended t) ∧
    (∀ lba z g, x.cmd.op = .zoneSend lba 4 false → s.sendZones n lba false = some [z] → s.sendReady c n lba false → s.groupOf z = some g →
      (s.zone z).receiving = false → s.zoneReadOnly z = false → Completes (.zoneReset c) s fun t => (t.zone z).st = .empty ∧
        (t.zone z).gen = ((s.zone z).gen + 1) % 65536 ∧ (t.zone z).v = 0 ∧ ended t) ∧
    (∀ lba z g, x.cmd.op = .zoneSend lba 2 false → s.sendZones n lba false = some [z] → s.sendReady c n lba false → s.groupOf z = some g →
      (s.zone z).receiving = false → s.zoneReadOnly z = false → (s.zone z).st = .full → Completes (.zoneFinish c) s ended) ∧
    (∀ lba z g, x.cmd.op = .zoneSend lba 2 false → s.sendZones n lba false = some [z] → s.sendReady c n lba false → s.groupOf z = some g →
      (s.zone z).receiving = false → s.zoneReadOnly z = false → (s.zone z).st ≠ .full → (s.zone z).accept ≤ g.d * (s.zone z).v →
        Completes (.zoneFinish c) s fun t => (t.zone z).st = .full ∧ (t.zone z).finishing = none ∧ ended t) ∧
    (∀ lba z g, x.cmd.op = .zoneSend lba 2 false → s.sendZones n lba false = some [z] → s.sendReady c n lba false → s.groupOf z = some g →
      (s.zone z).receiving = false → s.zoneReadOnly z = false → (s.zone z).st ≠ .full → g.d * (s.zone z).v < (s.zone z).accept →
        Completes (.zoneFinish c) s fun t => (t.zone z).finishing = some (c.val + 1) ∧
        ((t.zone z).st = .implOpen ∨ (t.zone z).st = .explOpen) ∧ ∃ y, t.ctxAt c = some y ∧ y.begun) ∧
    (∀ key value must, x.cmd.op = .kvStore key value must false → keyOk key → value.length ≤ 2 ^ 24 → (s.kvFind n.nsid key).isSome →
      kvGap (s.fw.kv.filter fun e => e.nsid == n.nsid) (ceilDiv value.length 4096) ((s.fw.kv.filter fun e =>
      e.nsid == n.nsid).length + 1) 0 + ceilDiv value.length 4096 ≤ s.spaceLbas n → (∀ j, s.zoneReadOnly j = false) →
      Completes (.store c .clean) s fun t => (t.fw.kv.any fun e => e.nsid == n.nsid && e.key == key && e.len == value.length)) ∧
    (∀ key e, x.cmd.op = .kvRetrieve key → keyOk key → s.kvFind n.nsid key = some e → (s.bufferBad (s.keysOf n e.lba e.n) .clean).2 = 0 →
      Completes (.retrieve c .clean) s reads)

/-- The commands around a controller and its queues complete (R392 to R409): resets and shutdown, asynchronous events, activation, capsules,
admission and completions. -/
def Obligations.QueueManagerCommandsComplete : Prop :=
  ∀ s : State,
  (∀ (p : Fin 4) k, (s.hifP p).ctrl = some k → bitAt k.cc 0 → s.ctx = [] → s.fw.pendingSlot = none → Completes (.controllerReset p) s fun t =>
    ∃ j, (t.hifP p).ctrl = some j ∧ j.queues = [] ∧ bitAt j.cc 0 = false ∧ bitAt j.csts 0 = false) ∧
  (∀ (p : Fin 4) k, (s.hifP p).ctrl = some k → k.stopping = false → s.portCtxs p = [] → (∀ e ∈ s.fw.dirty, e.2 = none) →
    (∀ a, (s.ring a).stage = []) → Completes (.controllerShutdown p) s fun t => ∃ j, (t.hifP p).ctrl = some j ∧ fld j.csts 2 2 = 2 ∧
    fld j.cc 14 2 = 1) ∧
  (∀ (c : Fin 4096) x, s.ctxAt c = some x → x.st = .arrived → x.cmd.op = .asyncEvent → s.fw.events = [] →
    Completes (.asynchronousEventRequest c) s fun t => t.ctxAt c = some { x with st := .running, begun := true, need := [noKey] } ∧
    SameBut [.ctx] s t) ∧
  (∀ (c : Fin 4096) x k, s.ctxAt c = some x → x.st = .arrived → x.cmd.op = .keepAlive → x.discard = false → (s.hifP x.port).ctrl = some k →
    Completes (.keepAlive c) s fun t => (∃ y, t.ctxAt c = some y ∧ y.st = .committed ∧ y.entry = some {}) ∧
      (t.hifP x.port).ctrl = some { k with kaAt := s.vgl.wall }) ∧
  (∀ slot w, s.fw.activate = some (0, slot, w) → s.qmgIdle → Completes .activationIdle s fun t => t.fw.activate = none ∧ t.clk.slot = slot ∧
    t.clk.boot = 6 ∧ t.clk.cluster ∧ t.rbit clkCause 6 ∧ t.rbit qmgCtrl 1 = false) ∧
  (∀ slot w, s.fw.activate = some (0, slot, w) → w + 10000000000 ≤ s.vgl.wall → Completes .activationTimeout s fun t => t.fw.activate = none ∧
    t.rbit qmgCtrl 1 = false ∧ t.clk = s.clk) ∧
  (∀ (p : Fin 4) k ks b m c no, s.poolUp → (s.cq (32 + p)).pkts = k :: ks → k.body = .capsule b m → c = s.capsuleCmd p b m → s.mayTake p c →
    s.freeCtxNo = some no → c.op = .asyncEvent → s.pwrAway = false → Completes (.capsuleTake p) s fun t => (∃ y, t.ctxAt no = some y ∧
    y.st = .arrived ∧ y.port = p.val ∧ y.cmd = c) ∧ t.fw.order = s.fw.order + 1) ∧
  (∀ (p : Fin 4) k ks b m c no, s.poolUp → (s.cq (32 + p)).pkts = k :: ks → k.body = .capsule b m → c = s.capsuleCmd p b m → s.mayTake p c →
    s.freeCtxNo = some no → c.op = .flush → s.cmdCheck p c = none → s.pwrAway = false → Completes (.capsuleTake p) s fun t =>
    ∃ y, t.ctxAt no = some y ∧ (y.st = .held ∨ y.st = .waiting) ∧ y.cmd = c) ∧
  (∀ c x, s.nextWaiting = some (c, x) → s.admitOutcome x = 0 → Completes .commandAdmission s fun t =>
    t.ctxAt c = some { x with st := .running, granted := true, ring := true, cached := s.wce, bufs := s.bufNeed x.cmd }) ∧
  (∀ k ks c e x, (s.cq 4).pkts = k :: ks → k.body = .cpl c e → s.ctxAt c = some x → x.st ≠ .committed → x.discard = false →
    Completes (.completionCommit false) s fun t => ∃ y, t.ctxAt c = some y ∧ y.st = .committed ∧ y.entry = some e) ∧
  (∀ (p : Fin 4) k ks c e x, (s.cq p).pkts = k :: ks → k.body = .cpl c e → s.ctxAt c = some x → Completes (.completionSent p) s fun t =>
    t.ctxAt c = none) ∧
  (∀ v, Completes (.qmgHoldAdmit v) s fun t => t.rbit qmgCtrl 1 = v ∧ RegsBut [qmgCtrl] s t)

/-- The commands of Harvest and of the ring complete (R415 to R421). -/
def Obligations.HarvestCommandsComplete : Prop :=
  ∀ (a : Fin 4) (s : State),
  (∀ z t q, s.actSt a ≠ 6 → s.jubSource = false → (∀ j ∈ s.fw.jobs, ¬ ((j.kind = .harvest ∨ j.kind = .capture) ∧ j.eng = a.val)) → s.pwrAway = false →
    s.hostWork a = false → (s.harv a).queue = (z, t) :: q → (s.harv a).margins = [] →
    (z < 2 ^ 21 → s.lacksTable z = false) → Completes (.harvestReadIssue a) s fun t' => (t'.harv a).queue = q ∧ (t'.harv a).issued = s.vgl.wall ∧
        (t'.fw.jobs.any fun j => j.kind == .harvest && j.eng == a.val && j.zone == z && j.stripe == t) ∧ SameBut [.regs, .chn, .fw] s t' ∧
          (2 ^ 21 ≤ z → s.cal.refTables = [] → RegsBut [] s t')) ∧
  (∀ z t q, s.actSt a ≠ 6 → s.jubSource = false → (∀ j ∈ s.fw.jobs, ¬ ((j.kind = .harvest ∨ j.kind = .capture) ∧ j.eng = a.val)) → s.pwrAway = false →
    s.hostWork a = false → (s.harv a).queue = (z, t) :: q → (s.harv a).margins = [] → z < 2 ^ 21 → s.lacksTable z →
    Completes (.harvestReadIssue a) s fun t' => (t'.harv a).queue = (z, t) :: q ∧
        (t'.fw.jobs.any fun j => j.kind == .capture && j.zone == z && j.stripe == 0) ∧ SameBut [.fw] s t') ∧
  ((s.harv a).behind = false → s.fw.harvCfg.period * 86400 ≤ s.passAge a → Completes (.harvestPassOverdue a) s fun t => (t.harv a).behind) ∧
  (∀ z g, (s.harv a).refresh = some z → s.groupOf z = some g → g.home = a.val →
    (∀ j ∈ s.fw.jobs, ¬ ((j.kind = .refreshRead ∨ j.kind = .refreshCopy ∨ j.kind = .refreshWrite) ∧ j.zone = z)) →
    (∀ l ∈ s.fw.ladders, ¬ (l.fresh ∧ l.zone = z)) →
    ((s.harv a).copied < s.freshTop g z → Completes (.refreshStepDone a) s fun t => (t.fw.jobs.any fun j =>
      j.kind == .refreshRead && j.zone == z && j.stripe == (s.harv a).copied) ∧ SameBut [.fw] s t) ∧
    (s.freshTop g z ≤ (s.harv a).copied → (s.zone z).refresh ≤ 2 → (s.harv a).saved < s.freshTop g z → Completes (.refreshStepDone a) s fun t =>
      (t.zone z).refresh = 2 ∧
        (t.fw.jobs.any fun j => j.kind == .refreshCopy && j.zone == z && j.stripe == (s.harv a).saved) ∧ SameBut [.fw] s t) ∧
    (s.freshTop g z ≤ (s.harv a).copied → (s.zone z).refresh ≤ 2 → s.freshTop g z ≤ (s.harv a).saved → Completes (.refreshStepDone a) s fun t =>
      (t.zone z).refresh = 3 ∧ (t.zone z).gen = ((s.zone z).gen + 1) % 65536 ∧ (t.zone z).v = 0 ∧
        (t.fw.jobs.any fun j => j.kind == .refreshWrite && j.zone == z && j.stripe == 0 && j.count == g.stripes) ∧ SameBut [.fw] s t))

/-- The commands of a Jubilee session complete (R424 to R440): start, abort, pause, links going down and up, HELLO, PLAN and CLOSE. -/
def Obligations.JubileeSessionCommandsComplete : Prop :=
  ∀ (k : Fin 2) (s : State),
  (s.jubSt k < 3 ∨ 5 < s.jubSt k → s.jubHas k → Completes (.jubStart k) s fun t => t.jubSt k = 1 ∧ (t.jubK k).cfg = s.reg jubCfg ∧
    (t.jubK k).zones = [] ∧ (t.jubK k).grant = 0 ∧ (t.jubK k).sent = false ∧ RegsBut [jubL k 4, jubL k 8, jubL k 0xC, jubL k 0x10] s t) ∧
  (1 ≤ s.jubSt k → s.jubSt k ≤ 5 → s.jubLinkSt k ≠ 2 → Completes (.jubAbort k) s fun t => t.jubSt k = 7 ∧ t.rfld (jubL k 4) 16 16 = 0x508 ∧
    (t.jubK k).recSession = none ∧ t.rbit jubInt 4 ∧ RegsBut [jubL k 4, jubInt] s t) ∧
  (s.rbit jubCtrl 0 → s.jubHas k → s.jubLinkSt k = 2 → Completes (.jubRetrain k false) s fun t => t.jubLinkSt k = 3 ∧ t.rbit jubInt 1) ∧
  (s.rbit jubCtrl 0 → s.jubHas k → s.jubLinkSt k ≠ 0 → s.rfld jubCtrl 2 2 ≠ 3 → Completes (.jubRetrain k true) s fun t => t.jubLinkSt k = 2 ∧
    t.rfld jubStatus 0 2 = s.rfld jubCtrl 2 2 ∧ t.rbit jubInt 0) ∧
  (s.jubSrc k → s.jubSt k = 3 → Completes (.jubPause k true) s fun t => t.jubSt k = 4 ∧ t.rbit (jubL k 0) 1 ∧ Only [] [jubL k 0, jubL k 4] s t) ∧
  (s.jubSrc k → s.jubSt k = 4 → Completes (.jubPause k false) s fun t => t.jubSt k = 3 ∧ t.rbit (jubL k 0) 1 = false ∧
    Only [] [jubL k 0, jubL k 4] s t) ∧
  (s.rbit jubCtrl 0 → s.jubHas k → s.jubLinkSt k = 0 → s.pwr.off.testBit 3 = false → s.rfld jubCtrl 2 2 ≠ 3 →
    Completes (.jubEnergyDetect k true) s fun t => t.jubLinkSt k = 2) ∧
  (s.jubLinkSt k = 2 → 1 ≤ s.jubSt k → s.jubSt k ≤ 4 → Completes (.jubLinkDown k) s fun t => t.jubLinkSt k = 3 ∧ t.jubSt k = 5 ∧
    (t.jubK k).heldFrom = s.jubSt k ∧ t.rbit jubInt 1 ∧ RegsBut [jubStatus, jubL k 4, jubInt] s t) ∧
  (s.rbit jubCtrl 0 → s.jubLinkSt k = 3 → s.jubSt k = 5 → s.rfld jubCtrl 2 2 ≠ 3 → (s.jubK k).heldFrom < 16 →
    Completes (.jubLinkRetry k true) s fun t => t.jubLinkSt k = 2 ∧ t.jubSt k = (s.jubK k).heldFrom) ∧
  (s.jubSt k = 5 → Completes (.jubLinkHoldExpiry k) s fun t => t.jubSt k = 7 ∧ t.rfld (jubL k 4) 16 16 = 0x507 ∧
    (t.jubK k).recSession = (s.jubK k).recSession ∧ (t.jubK k).recDone = (s.jubK k).recDone ∧ RegsBut [jubL k 4] s t) ∧
  (s.jubSt k = 1 → s.jubLinkSt k = 2 → (s.jubK k).sent = false → (s.jubK k).got = false → Completes (.hello k none) s fun t => (t.jubK k).sent ∧
    (∃ b, Out.jubMsg k 1 0xFFFFFFFF b ∈ t.out) ∧ RegsBut [] s t) ∧
  (∀ h : JubHello, s.jubSt k = 1 → s.jubLinkSt k = 2 → (s.jubK k).sent = false → h.version = 1 → h.role = (if s.jubSrc k then 1 else 0) →
    Completes (.hello k (some h)) s fun t => (t.jubK k).got ∧ (t.jubK k).peerResume = h.resume ∧ (t.jubK k).peerSession = h.session ∧
    SameBut [.jub] s t) ∧
  (∀ l n, s.jubSrc k = false → s.jubSt k = 2 → l.length ≤ 64 → n = planZones l → s.firstBad l 0 = none → Completes (.plan k l n) s fun t =>
    (t.jubK k).planOk ∧ (t.jubK k).recPlan = l ∧ (t.jubK k).recSession = some (s.reg (jubL k 8)) ∧ t.jubSt k = 3 ∧
      (∃ b, Out.jubMsg k 3 0xFFFFFFFF b ∈ t.out)) ∧
  (s.jubSrc k → s.jubSt k = 2 → Completes (.planReply k 0) s fun t => (t.jubK k).planOk ∧
    (t.jubK k).recSession = some (s.reg (jubL k 8)) ∧ (t.jubSt k = 3 ∨ t.jubSt k = 4)) ∧
  (∀ st, s.jubSrc k → s.jubSt k = 2 → 0 < st → st < 65536 → Completes (.planReply k st) s fun t => t.jubSt k = 7 ∧ t.rfld (jubL k 4) 16 16 = st ∧
    t.rbit jubInt 4) ∧
  (∀ st, 1 ≤ s.jubSt k → s.jubSt k ≤ 4 → st < 65536 → Completes (.close k (some st)) s fun t => t.jubSt k = (if st = 0 then 6 else 7) ∧
    t.rfld (jubL k 4) 16 16 = st ∧ t.rbit jubInt 4 ∧ (t.jubK k).zones = [])

/-- The messages of a Jubilee transfer complete (R427 to R437). -/
def Obligations.JubileeTransferCommandsComplete : Prop :=
  ∀ (k : Fin 2) (s : State),
  (∀ (l : Fin 8) f, s.jubHas k → s.jubLinkSt k = 2 → s.jubBase k ≤ l.val → l.val < s.jubBase k + s.jubWidth → flitCrcOk f → flitType f = 4 →
    flitSeq f ≠ ((s.jubK k).rxl (l.val - s.jubBase k)).exp → Completes (.jubFlitReceived k l f) s fun t =>
    t.jubK k = (s.jubNak k (l.val - s.jubBase k)).jubK k) ∧
  (∀ (l : Fin 8) f, s.jubHas k → s.jubLinkSt k = 2 → s.jubBase k ≤ l.val → l.val < s.jubBase k + s.jubWidth → flitCrcOk f → flitType f = 4 →
    flitSeq f = ((s.jubK k).rxl (l.val - s.jubBase k)).exp → Completes (.jubFlitReceived k l f) s fun t =>
    ((t.jubK k).rxl (l.val - s.jubBase k)).exp = flitSeq f + 1) ∧
  (s.jubRuns k →
    (∀ b : JubBegin, ∀ z, s.jubSrc k = false → s.planZone false (s.jubK k).plan b.idx = some z → s.jubZone k b.idx = none →
      (s.jubK k).done.contains b.idx = false → idxUp (s.jubDone k) ≤ b.idx → (s.jubK k).zones.length < 8 → (b.g = 4 ∨ b.g = 6 ∨ b.g = 8 ∨ b.g = 12) →
      (b.p = 1 ∨ b.p = 2) → b.lbas ≤ 65536 → Completes (.zoneBegin k (some b)) s fun t => (t.jubK k).zones.length = (s.jubK k).zones.length + 1 ∧
        (t.jubZone k b.idx).map (fun q => (q.zone, q.g, q.p, q.begun)) = some (z, b.g, b.p, true) ∧ RegsBut [jubL k 4] s t) ∧
    (∀ idx q g t', s.jubSrc k → s.jubSt k = 3 → s.jubZone k idx = some q → q.begun → q.failed = 0 → s.groupOf q.zone = some g →
      q.again.min? = some t' → (s.jubK k).sentStripes < (s.jubK k).grant → Completes (.jubStripeSend k idx) s fun t =>
      (t.jubK k).sentStripes = (s.jubK k).sentStripes + 1 ∧ (∃ b, Out.jubMsg k 5 q.idx b ∈ t.out)) ∧
    (∀ m : JubStripe, ∀ q, s.jubSrc k = false → s.jubZone k m.plan = some q → m.sectors.length = q.g → (∀ x ∈ m.sectors, x.length = 4112) →
      (s.reg (jubCtr k 0).addr).toNat + 1 < 2 ^ 32 - 1 → Completes (.stripe k m) s fun t => (t.jubK k).gotStripes = (s.jubK k).gotStripes + 1 ∧
        ((q.check m).1 ≠ 0 → ∃ b, Out.jubMsg k 7 m.plan b ∈ t.out) ∧
        ((q.check m).1 = 0 → (t.reg (jubCtr k 0).addr).toNat = (s.reg (jubCtr k 0).addr).toNat + 1)) ∧
    (∀ idx (e : Nat × Nat × W) q, s.jubSrc k = false → s.jubZone k idx = some q → e.1 ≤ 65536 → q.stripes.length < e.2.1 →
      Completes (.zoneEnd k idx (some e)) s fun t => (t.jubZone k idx).map (·.fin) = some (some e) ∧ SameBut [.jub] s t) ∧
    (∀ idx st reason mask q, s.jubSrc k → s.jubZone k idx = some q → (tget (fun _ => none) q.stripes st).isSome → reason ≠ 0 → mask < 2 ^ 12 →
      Completes (.stripeNak k idx st reason mask) s fun t => (t.jubZone k idx).map (fun x => tget (fun _ => 0) x.naks st) = some (tget (fun _ =>
      0) q.naks st + 1)) ∧
    (∀ g, s.jubSrc k → Completes (.credit k g) s fun t => t.jubK k = { s.jubK k with grant := max (s.jubK k).grant g } ∧ SameBut [.jub] s t) ∧
    (∀ idx q g, s.jubSrc k = false → s.jubZone k idx = some q → s.groupOf q.zone = some g → q.ended → q.failed = 0 → s.jubVerified q g →
      g.shingled = false → Completes (.jubZoneCommit k idx) s fun t => (t.jubK k).done = (s.jubK k).done ++ [idx] ∧ t.jubZone k idx = none) ∧
    (∀ done, s.jubSrc k → idxUp (s.jubDone k) ≤ done → done < (s.jubK k).nextIdx →
      (∀ q ∈ (s.jubK k).zones, q.idx ≤ done → q.ended ∧ q.failed = 0) → Completes (.zoneAck k done) s fun t =>
        t.reg (jubL k 0x10) = BitVec.ofNat 32 done ∧ (t.jubK k).recDone = BitVec.ofNat 32 done ∧ t.rbit jubInt 2) ∧
    (∀ idx x q, s.jubSrc k → s.jubZone k idx = some q → x ≠ 0x506 → Completes (.zoneFail k idx (some x)) s fun t =>
      t.reg (jubL k 0x14) = s.reg (jubL k 0x14) + 1 ∧ t.rbit jubInt 3 ∧ q.idx ∈ (t.jubK k).done ∧ t.jubZone k idx = none))

/-- The commands of the power levels complete (R444 to R458, R460): timers, entries and exits step by step, requests and wake sources. -/
def Obligations.PowerLevelCommandsComplete : Prop :=
  ∀ s : State,
  (∀ n, s.isIdle → s.pwr.exit.isSome → Completes (.idleTimerExpiry n) s fun t => t.pwr.idle = max s.pwr.idle n.val ∧
    t.rfld pwrStatus 3 3 = t.targetLevel ∧ Only [.pwr] [pwrStatus] s t) ∧
  (∀ n, s.isIdle → s.pwr.entry = none → s.pwr.exit = none → s.level ≤ 4 → s.level < ({ s with pwr := { s.pwr with idle := max s.pwr.idle n.val } } :
    State).targetLevel → Completes (.idleTimerExpiry n) s fun t => t.pwr.entry = some (s.level + 1, 0) ∧ t.rbit pwrStatus 6 ∧ t.reg vglWakeSrc = 0 ∧
    Only [.pwr] [pwrStatus, vglWakeSrc] s t) ∧
  (s.pwr.entry = some (2, 1) → (∀ n < 4, s.halted n) → Completes .powerEntryStep s fun t => t.pwr.entry = some (2, 2) ∧ SameBut [.pwr] s t) ∧
  (∀ l k, (l, k) ∈ [(1, 2), (3, 1)] → s.pwr.entry = some (l, k) → s.pwr.goal = l → s.pwr.wake = false → s.level < l → s.rbit motStatus 3 →
    s.rfld pwrStatus 3 3 = s.pwr.tAt → Completes .powerEntryStep s fun t => t.pwr.entry = none ∧ t.level = l ∧ t.rbit pwrStatus 6 = false ∧
    t.rbit pwrStatus 8 = false ∧ t.rbit pwrInt 0) ∧
  (∀ l, levelSaves l → s.pwr.entry = some (l, 0) → s.saveListBad → Completes .powerEntryStep s fun t => t.pwr.entry = none ∧
    t.rfld pwrStatus 16 16 = 0x31 ∧ t.rbit pwrInt 2 ∧ t.level = s.level ∧ Only [.pwr] [pwrStatus, pwrInt] s t) ∧
  (∀ k b, s.pwr.exit = some (6, k) → s.pwr.hold = some b → 1 ≤ b → b ≤ 4 → Completes (.powerExitStep false) s fun t => t.pwr.exit = none ∧
    t.pwr.hold = none ∧ t.level = b ∧ t.ltime = 0 ∧ t.rbit pwrStatus 7 = false ∧ Only [.ltime, .pwr] [pwrStatus, pwrInt] s t) ∧
  (s.pwr.exit = some (3, 1) → s.rbit motStatus 3 → s.pwr.goal < 2 → Completes (.powerExitStep false) s fun t => t.level = 2 ∧
    t.pwr.exit = some (2, levelSteps 2) ∧ Only [.pwr] [pwrStatus, pwrInt] s t) ∧
  (∀ k, k ≤ 1 → s.pwr.exit = some (1, k) → s.rfld pwrStatus 3 3 = s.pwr.tAt → Completes (.powerExitStep false) s fun t => t.level = 0 ∧
    t.pwr.exit = none ∧ t.rbit pwrStatus 7 = false ∧ Only [.pwr, .hif, .ctx] [pwrStatus, pwrInt] s t) ∧
  (∀ r, s.isIdle → s.pwr.entry = none → s.pwr.exit = none → s.level ≤ 4 → Completes (.pl5Req r) s fun t => t.pwr.entry = some (s.level + 1, 0) ∧
    t.pwr.goal = 5 ∧ t.rbit pwrStatus 6 ∧ t.reg vglWakeSrc = 0 ∧ Only [.pwr] [pwrStatus, vglWakeSrc] s t) ∧
  (∀ r, s.isIdle = false → Completes (.pl5Req r) s fun t => t.rfld pwrStatus 16 16 = 0x30 ∧ t.rbit pwrInt 2 ∧ Only [] [pwrStatus, pwrInt] s t) ∧
  (∀ r, State.mayHold r → s.holdOk → s.pwr.entry = none → s.pwr.exit = none → s.level ≤ 4 → Completes (.holdReq r) s fun t => t.level = 6 ∧
    t.pwr.hold = some s.level ∧ t.reg vglWakeSrc = 0 ∧ t.rbit pwrInt 0 ∧ SameBut [.regs, .vgl, .pwr, .cellq] s t) ∧
  (∀ r, 1 ≤ s.level → s.level ≤ 4 → s.rbit pwrWakeEn 7 → s.vgl.mainLow = false → s.pwr.entry = none → s.pwr.exit = none →
    Completes (.pwrWake r) s fun t => t.pwr.exit = some (s.level, levelSteps s.level) ∧ t.pwr.goal = 0 ∧ t.rbit vglWakeSrc 7 ∧ t.rbit pwrInt 4 ∧
    t.rbit pwrStatus 7 ∧ SameBut [.regs, .pwr, .cellq] s t) ∧
  (∀ k : Fin 9, k.val ≠ 0 → k.val ≠ 8 → 2 ≤ s.level → s.level ≤ 4 → s.rbit pwrWakeEn k → s.vgl.mainLow = false → s.pwr.entry = none →
    s.pwr.exit = none → Completes (.wakeSource k) s fun t => t.pwr.exit = some (s.level, levelSteps s.level) ∧ t.pwr.goal = 0 ∧ t.rbit vglWakeSrc k ∧
    t.rbit pwrInt 4 ∧ SameBut [.regs, .pwr, .cellq] s t) ∧
  (s.vgl.mainLow → s.rbit (bankAddr 5) 6 → Completes .vglWakeNInput s fun t => t.vgl.mainLow = false ∧ t.rbit vglWakeSrc 6 ∧ t.rbit vglInt 6 ∧
    Only [.vgl] [vglInt, vglWakeSrc] s t) ∧
  (∀ (p : Fin 4) (lane : Fin 8), s.level = 4 → s.rbit (hifStatus p) 7 = false → s.rbit (hifWakeCtrl p) 2 →
    Completes (.hostLaneEnergyDetectorArm p lane) s fun t => (t.hifP p).energy = (s.hifP p).energy ||| 2 ^ lane.val ∧ RegsBut [] s t ∧
    SameBut [.hif] s t)

/-- The Vigil domain's own commands complete (R115, R459, R464 to R470, R554): alarms, the supply, Epoch, and the reads that latch the
upper word of a 64-bit value. -/
def Obligations.VigilAndLatchCommandsComplete : Prop :=
  ∀ s : State,
  (∀ k : Fin 4, s.rbit (bankAddr 6) k → s.alarmAt k ≤ s.vgl.epoch.toNat → Completes (.vigilAlarm k) s fun t => t.rbit (bankAddr 6) k = false ∧
    t.rbit vglInt (2 + k)) ∧
  (∀ mv : BitVec 12, Completes (.vbatMeasure mv) s fun t => t.rfld (regAddr bVGL 0xC) 0 12 = mv.toNat ∧
    t.rbit vglStatus 1 = decide (mv.toNat < s.rfld (bankAddr 2) 0 12) ∧ (mv.toNat < s.rfld (bankAddr 2) 0 12 → t.rbit vglInt 1) ∧
    Only [] [regAddr bVGL 0xC, vglStatus, vglInt] s t) ∧ Completes .epochTick s (fun t => t.vgl.epoch = s.vgl.epoch + 1 ∧ SameBut [.regs, .vgl] s t) ∧
  (∀ hi, s.rbit vglStatus 2 = false → Completes (.epochLoad hi) s fun t => t.vgl.epoch = hi ++ s.vgl.loadLo ∧ t.rbit vglStatus 2 ∧
    Only [.vgl] [vglStatus] s t) ∧
  (∀ hi, s.rbit vglStatus 2 → Completes (.epochLoad hi) s fun t => t = s) ∧ Completes .vigilSupplyMonitorFall s (fun t => t.vgl.fell ∧
    t.rbit vglStatus 2 = false ∧ Only [.vgl] [vglStatus] s t) ∧ Completes .vglEpochLoRead s (fun t =>
    t.vgl.epochLatch.toNat = s.vgl.epoch.toNat / 2 ^ 32 ∧ t.vgl.epoch = s.vgl.epoch ∧ SameBut [.vgl] s t) ∧ Completes .pwrTickLoRead s (fun t =>
    t.vgl.tickLatch = BitVec.ofNat 32 (s.vgl.tick8 / 8 / 2 ^ 32) ∧ t.vgl.tick8 = s.vgl.tick8 ∧ SameBut [.vgl] s t) ∧
  (∀ n : Fin 4, Completes (.ulkLtimeLoRead n) s fun t => (t.ulkP n).ltimeLatch.toNat = s.ltime.toNat / 2 ^ 32 ∧ t.ltime = s.ltime ∧
    SameBut [.ulk] s t) ∧ Completes .almSeqLoRead s (fun t => t.alm.seqLatch.toNat = s.alm.seq.toNat / 2 ^ 32 ∧ t.alm.seq = s.alm.seq ∧
    SameBut [.alm] s t)

/-- The calibration commands complete (R510 to R519, R577, R578). -/
def Obligations.CalibrationCommandsComplete : Prop :=
  ∀ s : State,
  (∀ a : Fin 4, Completes (.calRunReq a) s fun t => t.rbit calStatus (4 + a) ∧ t.rbit calInt 0 ∧ Only [.cal] [calStatus, calInt] s t) ∧
  (∀ on : Bool, Completes (.calHold on) s fun t => t.rbit calCtrl 1 = on ∧ Only [] [calCtrl] s t) ∧
  (∀ a : Fin 4, s.runMay a → Completes (.calRunStart a) s fun t => t.rbit calStatus a ∧ t.rbit calStatus (4 + a) = false ∧
    t.rfld (calTlast a) 0 16 = s.rfld (calTemp a) 0 16 ∧ t.rbit pwrCtrl 4 ∧ Only [.cal] [calTlast a, calStatus, pwrCtrl] s t) ∧
  (∀ a : Fin 4, s.rbit calStatus a → Completes (.calRunEnd a) s fun t => t.rbit calStatus a = false ∧
    (∃ e : CalRun, t.cal.history = s.cal.history ++ [e] ∧ e.act = a.val ∧ e.start = s.rfld (calTlast a) 0 16 ∧ e.last = s.rfld (calTemp a) 0 16 ∧
      e.full = tget (fun _ => false) s.cal.runFull a) ∧ SameBut [.regs, .cellq, .cal] s t) ∧
  (∀ (b : Fin 2) (e : Fin 1024) (value : Bool) v, s.calApply b = none → Completes (.calShadowWrite b e value v) s fun t =>
    t.reg (calShadow b e (if value then 1 else 0)) = v ∧ Only [] [calShadow b e (if value then 1 else 0)] s t) ∧
  (∀ (b : Fin 2) (e : Fin 1024) (value : Bool) v, s.calApply b ≠ none → Completes (.calShadowWrite b e value v) s fun t => t.rbit calInt 3 ∧
    Only [] [calInt] s t) ∧
  (∀ (b : Fin 2) (n : Fin 2048), s.calApply b = none → 1 ≤ n.val → n.val ≤ 1024 → Completes (.calBatchCommit b n) s fun t =>
    t.calApply b = some (0, n.val) ∧ t.rbit calStatus (8 + b) ∧ t.rbit calBatch 0 = b.val.testBit 0 ∧ t.rfld calBatch 2 11 = n.val ∧
    Only [.cal] [calBatch, calStatus] s t) ∧
  (∀ (b : Fin 2) (n : Fin 2048), s.calApply b ≠ none → Completes (.calBatchCommit b n) s fun t => t.rfld calBatchStatus 16 16 = 0x41 ∧
    Only [] [calBatchStatus] s t) ∧
  (∀ (b : Fin 2) e n, s.calApply b = some (e, n) → e + 1 < n → (s.reg (calShadow b e 0)).toNat = motShunt → s.dormant 0x21 = false →
    Completes (.calEntryApply b) s fun t => t.reg motShunt = s.reg (calShadow b e 1) &&& 0x0FFF03FF ∧ t.calApply b = some (e + 1, n) ∧
    Only [.cal] [motShunt] s t) ∧
  (∀ (b : Fin 2) e n, s.calApply b = some (e, n) → e + 1 = n → s.calTakes ((s.reg (calShadow b e 0)).toNat / 4 * 4) = false → n ≤ 1024 →
    Completes (.calEntryApply b) s fun t => t.rfld calBatchStatus 16 16 = 0x40 ∧ t.rfld calBatchStatus 0 11 = n ∧ t.calApply b = none ∧
    t.rbit calStatus (8 + b) = false ∧ t.rbit calInt 2 ∧ t.rbit calInt 3) ∧
  (∀ (n : Fin 4) (h : Fin 24), s.rbit (calAdcoff n h) 24 → s.headMapped n h → s.laneReady n (firstLane (s.headMap n h)) →
    firstLane (s.headMap n h) < 24 →
    (s.txl n (firstLane (s.headMap n h))).room → (∀ g ∈ (s.ordP n).gates, ¬ (g.head = h.val ∧ g.sent)) → Completes (.calAdcoffSend n h) s fun t =>
      t.rbit (calAdcoff n h) 24 = false ∧ t.out = .flit n (firstLane (s.headMap n h)) false (mkFlit 9 0 (s.txl n (firstLane (s.headMap n h))).next
      false (regWriteCmd (Config.adcOffAddr h) (s.rfld (calAdcoff n h) 0 24))) :: s.out ∧ Only [.ulk, .out] [calAdcoff n h] s t) ∧
  (∀ x : BitVec 16, Completes (.dieTempUpdate x) s fun t => t.rfld (regAddr bCAL 0x70) 0 16 = x.toNat ∧
    t.cal.hot = (if 1888 ≤ x.toInt then s.cal.hot + 1 else 0)) ∧
  (s.cal.tripped = false → 10 ≤ s.cal.hot → Completes .thermalTrip s fun t => t.cal.tripped ∧ ∀ a : Fin 4, 1 ≤ s.actSt a → s.actSt a ≤ 4 →
    t.actSt a = 5)

/-- The Almanac's commands complete (R529 to R537). -/
def Obligations.AlmanacCommandsComplete : Prop :=
  ∀ s : State,
  (∀ (g : Fin 8) p ps r, (s.cq (16 + g)).pkts = p :: ps → almRecord p.body = some r → AlmSubOk r → s.codeClass r.code.toNat = 7 →
    Completes (.almanacSubmit g) s fun t => t.alm.seq = s.alm.seq + 1 ∧ ∃ e, t.alm.entries = s.alm.entries ++ [e] ∧ e.seq = s.alm.seq ∧
    e.code = r.code ∧ e.payload = r.payload ∧ e.epoch = s.vgl.epoch) ∧
  (∀ b, AlmSubOk s.almApp → (s.codeClass s.almApp.code.toNat = 7 ∨ (0 < (s.refilled s.almApp.code.toNat).tokens ∧
    (s.refilled s.almApp.code.toNat).supp = 0)) → Completes (.almAppGo b) s fun t => t.alm.seq = s.alm.seq + 1 ∧
    ∃ e, t.alm.entries = s.alm.entries ++ [e] ∧ e.seq = s.alm.seq ∧ e.code = s.almApp.code ∧ e.payload = s.almApp.payload) ∧
  (∀ b, AlmSubOk s.almApp → s.codeClass s.almApp.code.toNat ≠ 7 → (s.refilled s.almApp.code.toNat).tokens = 0 → Completes (.almAppGo b) s fun t =>
    t.alm.seq = s.alm.seq ∧ t.alm.entries = s.alm.entries ∧ t.rbit almInt 2) ∧
  (∀ b, AlmSubOk s.almApp = false → Completes (.almAppGo b) s fun t => t.rbit almInt 3 ∧ SameBut [.regs, .cellq] s t) ∧
  (∀ timer : Bool, s.alm.page ≠ [] → Completes (if timer then .almFlushTimer else .almFlush) s fun t => t.alm.page = [] ∧
    t.alm.progQ = s.alm.progQ ++ [leBytes 2 s.alm.pageFirst ++ leBytes 2 0 ++ s.alm.page ++ List.replicate (508 - s.alm.page.length) 0xFF] ∧
    t.rbit almStatus 2 = false ∧ Only [.fls, .alm] [almStatus, regAddr bFLS 0x4] s t) ∧
  (s.alm.ploss → Completes .plossWindowClose s fun t => t.alm.ploss = false ∧ t.alm.page = [] ∧ Only [.fls, .alm] [almStatus, regAddr bFLS 0x4] s t) ∧
  (∀ bad top, Completes (.almBootScan bad top) s fun t => t.rbit almStatus 0 ∧
    (∀ x, top = some x → s.alm.seq.toNat ≤ x.toNat → t.alm.seq = x + 1) ∧ t.alm.entries = s.alm.entries ∧
    (bad ≠ [] → t.rbit almInt 5) ∧ SameBut [.regs, .cellq, .alm] s t) ∧
  (∀ (a : Fin 4) n e es, s.mirrorTakes a → (s.reg (almMirrorMark a)).toNat < mirrorStripes (s.ring a).d →
    (∀ j ∈ s.fw.jobs, ¬ (j.eng = a.val ∧ j.isMirror)) →
    ((s.unmirrored a).filter fun e => decide (e.seq.toNat ≤ n.toNat)) = e :: es → e.bytes.length ≤ 4092 * (s.ring a).d →
      Completes (.mirrorWriteTimer a n) s fun t => (∃ j, t.fw.jobs = s.fw.jobs ++ [j] ∧ j.isMirror ∧ j.eng = a.val ∧ j.op = 2 ∧ j.tag = s.fw.nextTag ∧
      j.stripe = mirrorFirst (s.ring a).d + (s.reg (almMirrorMark a)).toNat) ∧ SameBut [.fw] s t) ∧
  (∀ (a : Fin 4) n, s.mirrorTakes a → (s.reg (almMirrorMark a)).toNat < mirrorStripes (s.ring a).d →
    (∀ e ∈ s.unmirrored a, n.toNat < e.seq.toNat) → Completes (.mirrorWriteTimer a n) s fun t => t = s) ∧
  (∀ (a : Fin 4) n, s.mirrorTakes a → mirrorStripes (s.ring a).d ≤ (s.reg (almMirrorMark a)).toNat → Completes (.mirrorWriteTimer a n) s fun t =>
    t.rbit almStatus (3 + a) ∧ t.rbit almInt 1 ∧ SameBut [.regs, .cellq] s t)

/-- The management port's MCTP and NVMe-MI commands complete (R541 to R545). -/
def Obligations.MctpCommandsComplete : Prop :=
  ∀ s : State,
  (∀ p : MctpPkt, s.rbit mgtCtrl 0 → s.rbit mgtStatus 0 → s.pwr.off.testBit 0 = false → p.linkOk → p.version = 1 → (p.dest = 0 ∨ p.dest = s.eid) →
    p.som → p.eom → p.bytes ≤ 1100 → (p.type = 0 ∨ (s.eid ≠ 0 ∧ (p.type = 4 ∨ p.type = 0x7F))) → s.mgt.msgs.length < 8 →
    (∀ m ∈ s.mgt.msgs, m.1 ≠ p.tag) → Completes (.mctpPacketRx p) s fun t => t.mgt.msgs = s.mgt.msgs ++ [(p.tag, p.type)] ∧ t.rbit mgtInt 0 ∧
      SameBut [.regs, .cellq, .mgt] s t) ∧
  (∀ tag (e : Fin 256), e.val ≠ 0 → e.val ≠ 255 → Completes (.setEndpointId tag e) s fun t => t.eid = e.val ∧ t.rbit mgtInt 3 ∧
    Replied tag 0 [0, BitVec.ofNat 8 e, 0] s t ∧ SameBut replyParts s t) ∧
  (∀ tag, Completes (.getEndpointId tag) s fun t => Replied tag 0 [BitVec.ofNat 8 s.eid, 0, 0] s t ∧ SameBut replyParts s t) ∧
  (∀ tag, Completes (.getEndpointUuid tag) s fun t => Replied tag 0 Config.uuid s t ∧ SameBut replyParts s t) ∧
  (∀ tag, Completes (.getMctpVersionSupport tag) s fun t => Replied tag 0 (1 :: Config.mctpVersion) s t ∧ SameBut replyParts s t) ∧
  (∀ tag, Completes (.getMessageTypeSupport tag) s fun t => Replied tag 0 [3, 0x00, 0x04, 0x7F] s t ∧ SameBut replyParts s t) ∧
  (∀ tag, Completes (.getVendorDefinedMessageSupport tag) s fun t => Replied tag 0 [0xFF, 1, 0x00, 0x01, 0xB7, 0xC3, 0, 0] s t ∧
    SameBut replyParts s t) ∧
  (∀ tag, Completes (.unsupportedMctpControl tag) s fun t => Replied tag 5 [] s t ∧ SameBut replyParts s t) ∧
  (∀ tag dtyp port ctrl, Completes (.readNvmeMiDataStructure tag dtyp port ctrl) s fun t => (∃ st l, Replied tag st l s t ∧ (dtyp = 0 → st = 0 ∧
    l = [0, 1, 2]) ∧
      (dtyp = 3 → 1 ≤ ctrl → ctrl ≤ 4 → st = 0 ∧ l = leBytes 2 ctrl ++ leBytes 2 s.fw.ident.vid ++ leBytes 2 s.fw.ident.ssvid)) ∧
        SameBut replyParts s t) ∧
  (∀ tag, Completes (.nvmSubsystemHealthStatusPoll tag) s fun t => (∃ x, Replied tag 0 [0x20, s.mediaWarn, x] s t) ∧ SameBut replyParts s t) ∧
  (∀ tag, Completes (.controllerHealthStatusPoll tag) s fun t => (∃ l, Replied tag 0 l s t ∧
    ((∀ p < 4, (s.hifP p).ctrl = none) → l = [])) ∧ SameBut replyParts s t) ∧
  (∀ tag id, id = 1 ∨ id = 3 → Completes (.configurationGet tag id) s fun t => Replied tag 0 (if id = 1 then [BitVec.ofNat 8 s.mgt.freq] else [64, 0])
    s t ∧ SameBut replyParts s t) ∧
  (∀ tag value, 1 ≤ value → value ≤ 3 → Completes (.configurationSet tag 1 value) s fun t => t.mgt.freq = value ∧ Replied tag 0 [] s t ∧
    SameBut replyParts s t) ∧
  (∀ tag value, value ≠ 64 → Completes (.configurationSet tag 3 value) s fun t => t.mgt.freq = s.mgt.freq ∧ ∃ st, st ≠ 0 ∧ Replied tag st [] s t) ∧
  (∀ tag off n, Completes (.vpdRead tag off n) s fun t => (∃ l, Replied tag 0 l s t ∧ l.length = n) ∧ SameBut replyParts s t) ∧
  (∀ tag p fid sel, Completes (.miTunnelledAdmin tag p (.getFeatures fid sel)) s fun t => (∃ c : Cpl, c = s.getFeature p fid sel ∧
    Replied tag 0 (leBytes 4 c.dw0 ++ leBytes 1 c.sct ++ leBytes 1 c.sc) s t) ∧ SameBut replyParts s t) ∧
  (∀ tag, Completes (.miAbort tag) s fun t => t.mgt.msgs = dropMsg tag s.mgt.msgs ∧ Replied tag 0 [0] s t ∧ SameBut replyParts s t) ∧
  (∀ tag, Completes (.miGetState tag) s fun t => Replied tag 0 [BitVec.ofNat 8 s.mgt.msgs.length] s t ∧ SameBut [.regs, .cellq, .out] s t) ∧
  (∀ a : Fin 128, s.dbg.mgtMode → s.rbit mgtStatus 0 → Completes (.dynamicAddressAssignment a) s fun t => t.rbit mgtStatus 2 ∧
    t.rfld mgtStatus 11 7 = a.val ∧ Only [] [mgtStatus] s t) ∧
  (s.pwr.off.testBit 0 = false → Completes .managementPortReady s fun t => t.rbit mgtStatus 0 ∧
    (s.dbg.mgtMode = false → t.rbit mgtStatus 2) ∧ Only [] [mgtStatus] s t)

/-- The Brodvon commands on registers complete (R545 to R547): a run is read word by word in order, written word by word in order, and
REG_MODIFY reads and then writes; GET_INFO answers its fields, and an unlisted opcode the status 0x300. -/
def Obligations.BrodvonRegisterCommandsComplete : Prop :=
  ∀ (h : MgtHdr) (s : State), h.iana = 0x0001B7C3 → h.version = 1 →
  let sent (u t : State) : Prop := Only [.cellq, .mgt, .out] [(mgtCtr 1).addr, regAddr bMGT 0x4C, mgtInt] u t
  (Completes (.mgtUnlistedOpcode h) s fun t => Replied h.tag 0x300 [] s t ∧ sent s t) ∧
  (h.lengthOk → h.reservedOk →
    (Completes (.getInfo h) s fun t => Replied h.tag 0 (s.otpBytes 0 20 ++ s.otpBytes 26 1 ++ ((s.slotHeader s.clk.slot).drop 16).take 8 ++ leBytes 8
      s.alm.seq.toNat ++ leBytes 1 s.level ++ leBytes 4 (s.reg clkBoot).toNat ++ leBytes 4 (s.reg mgtLock).toNat) s t ∧ sent s t) ∧
    (∀ a n, runOk a n → 1 ≤ n → n ≤ 64 → Completes (.regRead h a n) s fun t => (∃ l, Replied h.tag 0 l s t ∧ l.length = 4 * n ∧
      ∀ i < n, (l.drop (4 * i)).take 4 = leBytes 4 ((s.readRun a i).1.netRead .mgtPort (a + 4 * i)).2.toNat) ∧
      RegsBut [(mgtCtr 1).addr, regAddr bMGT 0x4C, mgtInt] (s.readRun a n).1 t) ∧
    (∀ o r, s.dormant 0x21 = false → 4 ≤ o → o < 0x10000 → o % 4 = 0 → regRow (regAddr bMOT o) = some r →
      Completes (.regRead h (regAddr bMOT o) 1) s fun t => Replied h.tag 0 (leBytes 4 (s.reg (regAddr bMOT o)).toNat) s t ∧ sent s t) ∧
    (s.rbit mgtLock 0 = false →
      (∀ a l env, runOk a l.length → 1 ≤ l.length → l.length ≤ 268 → Completes (.regWrite h a l env) s fun t =>
        t.out = .mgtReply h.tag 0 [] :: (s.writeRun env a l).out ∧ sent (s.writeRun env a l) t) ∧
      (∀ o r v env, env.hw = [] → s.dormant 0x21 = false → 4 ≤ o → o < 0x10000 → o % 4 = 0 → regRow (regAddr bMOT o) = some r →
        Completes (.regWrite h (regAddr bMOT o) [v] env) s fun t => t.reg (regAddr bMOT o) = r.written (s.reg (regAddr bMOT o)) v ∧
        Replied h.tag 0 [] s t ∧ SameBut replyParts s t) ∧
      (∀ a m v env, runOk a 1 → Completes (.regModify h a m v env) s fun t =>
        let x := s.netRead .mgtPort a
        let u := x.1.netWrite .mgtPort a ((x.2 &&& ~~~ m) ||| (v &&& m)) env
        t.out = .mgtReply h.tag 0 (leBytes 4 x.2.toNat) :: u.out ∧ sent u t) ∧
      (∀ o r m v env, env.hw = [] → s.dormant 0x21 = false → 4 ≤ o → o < 0x10000 → o % 4 = 0 → regRow (regAddr bMOT o) = some r →
        Completes (.regModify h (regAddr bMOT o) m v env) s fun t => t.reg (regAddr bMOT o) = r.written (s.reg (regAddr bMOT o)) ((s.reg (regAddr bMOT
        o) &&& ~~~ m) ||| (v &&& m)) ∧ Replied h.tag 0 (leBytes 4 (s.reg (regAddr bMOT o)).toNat) s t ∧ SameBut replyParts s t)))

/-- The Brodvon commands on the Almanac, OTP and power complete (R545, R546, R550, R551). -/
def Obligations.BrodvonAccessCommandsComplete : Prop :=
  ∀ (h : MgtHdr) (s : State), h.iana = 0x0001B7C3 → h.version = 1 → h.lengthOk → h.reservedOk →
  (Completes (.almInfo h) s fun t => (∃ a b c : Nat, Replied h.tag 0 (leBytes 8 a ++ leBytes 8 b ++ leBytes 8 c ++ leBytes 4 (s.reg
    almFlashPage).toNat ++ leBytes 4 (s.reg almStatus).toNat) s t ∧ c = s.mirrorLast ∧
      (s.flashEntries = [] → a = 2 ^ 64 - 1 ∧ b = 2 ^ 64 - 1) ∧ (∀ e es, s.flashEntries = e :: es → a = e.seq.toNat) ∧
      (∀ e, s.flashEntries.getLast? = some e → b = e.seq.toNat)) ∧ SameBut replyParts s t) ∧
  (∀ q n, 64 ≤ n → n ≤ 1060 → (∀ e ∈ s.alm.entries, e.seq.toNat < q.toNat) → Completes (.almRead h q n) s fun t => Replied h.tag 0 [] s t ∧
    SameBut replyParts s t) ∧
  (∀ e q n, 64 ≤ n → n ≤ 1060 → s.alm.entries.filter (fun e => decide (q.toNat ≤ e.seq.toNat)) = [e] → Completes (.almRead h q n) s fun t =>
    t.out = (if e.page.isNone ∧ 1 < s.level then .mgtReply h.tag 0x307 [] else .mgtReply h.tag 0 e.bytes) :: s.out ∧ SameBut replyParts s t) ∧
  (∀ e es q n, 64 ≤ n → n ≤ 1060 → s.level ≤ 1 → s.alm.entries.filter (fun e => decide (q.toNat ≤ e.seq.toNat)) = e :: es → e.bytes.length ≤ n →
    Completes (.almRead h q n) s fun t => Replied h.tag 0 (e.bytes ++ fitEntries es (n - e.bytes.length)) s t ∧ SameBut replyParts s t) ∧
  (∀ (code : BitVec 16) l, 0x8080 ≤ code.toNat → code.toNat ≤ 0x80FF → l.length ≤ 492 → s.codeClass code.toNat = 7 →
    Completes (.almAppend h code l) s fun t => Replied h.tag 0 (leBytes 8 s.alm.seq.toNat) s t ∧ ∃ e, t.alm.entries = s.alm.entries ++ [e] ∧
    e.seq = s.alm.seq ∧ e.code = code ∧ e.payload = l ∧ SameBut [.regs, .cellq, .fls, .alm, .mgt, .out] s t) ∧
  (∀ w v, s.rbit mgtLock 4 = false → 3 ≤ w / 128 → w / 128 ≤ 5 → s.otpLocked (w / 128) = false → Completes (.otpProgram h w v) s fun t =>
    t.otpWord w = (if s.otpWord w = 0 then v else s.otpWord w) ∧ (∀ x, x ≠ w → t.otpWord x = s.otpWord x) ∧ Replied h.tag 0 [] s t ∧
    SameBut [.regs, .cellq, .fls, .mgt, .out] s t) ∧
  (∀ w v, s.rbit mgtLock 4 = false → w < 384 → Completes (.otpProgram h w v) s fun t => Replied h.tag 0x304 [] s t ∧ SameBut replyParts s t) ∧
  (∀ w n, 1 ≤ n → n ≤ 64 → w + n ≤ 1024 → Completes (.otpRead h w n) s fun t => (∃ l, Replied h.tag 0 l s t ∧ l.length = 4 * n ∧
    ∀ i < n, (l.drop (4 * i)).take 4 = leBytes 4 (if (w + i) / 128 = 1 then 0 else (s.otpWord (w + i)).toNat)) ∧ SameBut replyParts s t) ∧
  (s.rbit mgtLock 0 = false →
    (s.isIdle → s.pwr.entry = none → s.pwr.exit = none → s.level ≤ 4 → Completes (.powerReq h 5) s fun t => t.pwr.entry = some (s.level + 1, 0) ∧
      t.pwr.goal = 5 ∧ Replied h.tag 0 [] s t) ∧
    (s.isIdle = false → s.level ≤ 4 → Completes (.powerReq h 5) s fun t => t.rfld pwrStatus 16 16 = 0x30 ∧ t.pwr = s.pwr ∧
      Replied h.tag 0x30 [] s t) ∧
    (1 ≤ s.level → s.level ≤ 4 → s.rbit pwrWakeEn 7 → s.vgl.mainLow = false → s.pwr.entry = none → s.pwr.exit = none →
      Completes (.powerReq h 0) s fun t => t.pwr.exit = some (s.level, levelSteps s.level) ∧ t.pwr.goal = 0 ∧ t.rbit vglWakeSrc 7 ∧
      Replied h.tag 0 [] s t) ∧
    (s.holdOk → s.pwr.entry = none → s.pwr.exit = none → s.level ≤ 4 → Completes (.powerReq h 6) s fun t => t.level = 6 ∧ t.pwr.hold = some s.level ∧
      Replied h.tag 0 [] s t))

/-- The Brodvon commands that stage images and set the network, keys and plans complete (R548, R549). -/
def Obligations.BrodvonConfigurationCommandsComplete : Prop :=
  ∀ (h : MgtHdr) (s : State), h.iana = 0x0001B7C3 → h.version = 1 → h.lengthOk → h.reservedOk →
  (∀ target l, s.rbit mgtLock 1 = false → target ≤ 3 → 1 ≤ l.length → l.length ≤ 1024 → s.fw.stageOwner = 0 →
    Completes (.imageWrite h target 0 l) s fun t => t.stagedBytes = l ∧ t.fw.stageOwner = 1 ∧ t.mgt.target = target ∧ t.fw.stageAt = s.vgl.wall ∧
    Replied h.tag 0 [] s t ∧ SameBut [.regs, .cellq, .fw, .mgt, .out] s t) ∧
  (∀ target off l, s.rbit mgtLock 1 = false → target ≤ 3 → 1 ≤ l.length → l.length ≤ 1024 → s.fw.stageOwner = 0 → off ≠ 0 →
    Completes (.imageWrite h target off l) s fun t => Replied h.tag 0x306 [] s t ∧ SameBut replyParts s t) ∧
  (∀ target ok, s.rbit mgtLock 1 = false → 1 ≤ target → target ≤ 3 → s.fw.stageOwner = 1 → s.stagedBytes ≠ [] → s.mgt.target = target →
    s.fls.op = none → s.fls.suspended = none → Completes (.imageCommit h target 1 ok) s fun t => if s.headerVerifies s.stagedBytes false ∧
    ok then t.fw.stageOwner = 0 ∧ Replied h.tag 0 [] s t else Replied h.tag 0x40A [] s t ∧ SameBut replyParts s t) ∧
  (Completes .stagingTimeout s fun t => t.fw.stageOwner = 0 ∧ t.fw.staged = [] ∧ SameBut [.fw] s t) ∧
  (∀ (p : Fin 4) (c : NetCfg), s.rbit mgtLock 2 = false → c.flags < 16 → c.prefix4 ≤ 32 → c.prefix6 ≤ 128 → c.vlan ≤ 4095 → c.pfc ≤ 7 →
    Completes (.netSet h p c) s fun t => t.netBytes p = netCfgBytes c ∧ Replied h.tag 0 [] s t ∧ SameBut replyParts s t) ∧
  (∀ (p : Fin 4) v4 v6, Completes (.netGet h p v4 v6) s fun t => (∃ a b, a.length = 4 ∧ b.length = 16 ∧
    Replied h.tag 0 ((s.netBytes p ++ List.replicate 30 0).take 30 ++ a ++ b) s t) ∧ SameBut replyParts s t) ∧
  (∀ (i : Fin 16) hash id key, s.rbit mgtLock 3 = false → hash ≤ 1 → 1 ≤ id.length → id.length ≤ 128 → (key.length = 32 ∨ key.length = 48) →
    Completes (.pskSet h i hash id key true) s fun t => (∃ k, k = tget (fun _ => []) t.sec.psk i ∧ (i.val, k) ∈ t.sec.pskStore ∧
    ∀ k', (i.val, k') ∈ t.sec.pskStore → k' = k) ∧ tget (fun _ => []) t.sec.pskIds i = BitVec.ofNat 8 hash :: id ∧ Replied h.tag 0 [] s t ∧
    SameBut [.regs, .cellq, .sec, .mgt, .out, .free] s t) ∧
  (∀ (i : Fin 16), s.rbit mgtLock 3 = false → Completes (.pskClear h i) s fun t => tget (fun _ => []) t.sec.psk i = [] ∧
    (∀ k, (i.val, k) ∉ t.sec.pskStore) ∧ Replied h.tag 0 [] s t ∧ SameBut [.regs, .cellq, .sec, .mgt, .out] s t) ∧
  (∀ (k : Fin 2) es, s.jubSrc k → (s.jubSt k < 3 ∨ 5 < s.jubSt k) → 1 ≤ es.length → es.length ≤ 64 → (∀ e ∈ es, e.kind ≤ 1) →
    Completes (.jubPlan h k es) s fun t => (t.jubK k).plan = es ∧ t.reg (jubL k 0xC) = BitVec.ofNat 32 (planZones es) ∧
    Replied h.tag 0 (leBytes 4 (planZones es)) s t ∧ SameBut [.regs, .cellq, .jub, .mgt, .out] s t)

/-- A register write by a core or by the TAP, and the TAP's other instructions, complete (R16, R18, R540, R572, R582). -/
def Obligations.RegisterAccessCommandsComplete : Prop :=
  ∀ s : State,
  (∀ b o r v env, env.hw = [] → s.dormant 0x21 = false → 4 ≤ o → o < 0x10000 → o % 4 = 0 → regRow (regAddr bMOT o) = some r →
    Completes (.registerWrite b (BitVec.ofNat 32 (regAddr bMOT o)) v env) s fun t => t.reg (regAddr bMOT o) = r.written (s.reg (regAddr bMOT o)) v ∧
    Only [] [regAddr bMOT o] s t) ∧
  (∀ b a v env, 0x10000000 ≤ a.toNat → blockAt (addrBlk (a.toNat / 4 * 4)) → s.dormant (addrBlk (a.toNat / 4 * 4)) →
    Completes (.registerWrite b a v env) s fun t => t = s.mgtViolate (violOf b)) ∧
  (∀ b a v env, blockAt (addrBlk (a.toNat / 4 * 4)) = false → Completes (.registerWrite b a v env) s fun t => t = s) ∧
  (∀ a d w env, s.rbit dbgCtrl 1 → Completes (.dbgAccess a d w env) s fun t => t.dbg.ir = 0xFF ∧ t.dbg.bypass = false ∧ SameBut [.dbg] s t) ∧
  (∀ o d r env, env.hw = [] → s.rbit dbgCtrl 1 = false → s.dormant 0x21 = false → 4 ≤ o → o < 0x10000 → o % 4 = 0 → regRow (regAddr bMOT o) = some r →
    Completes (.dbgAccess (BitVec.ofNat 32 (regAddr bMOT o)) d true env) s fun t => t.dbg.reply = (d.toNat, 1) ∧ t.dbg.ir = 0x20 ∧
    t.reg (regAddr bMOT o) = r.written (s.reg (regAddr bMOT o)) d ∧ Only [.dbg] [regAddr bMOT o] s t) ∧
  (∀ o d r env, s.rbit dbgCtrl 1 = false → s.dormant 0x21 = false → o < 0x10000 → o % 4 = 0 → regRow (regAddr bMOT o) = some r →
    Completes (.dbgAccess (BitVec.ofNat 32 (regAddr bMOT o)) d false env) s fun t => t.dbg.reply = ((s.reg (regAddr bMOT o)).toNat, 1) ∧
    t.dbg.ir = 0x20 ∧ SameBut [.dbg] s t) ∧
  (∀ x ∈ [(Instr.extest, 0x00, 1), (Instr.idcode, 0x02, 0), (Instr.extestPulse, 0x08, 1), (Instr.extestTrain, 0x09, 1), (Instr.highz, 0x0C, 3),
      (Instr.clamp, 0x0D, 2), (Instr.scan, if s.dbg.testEn then 0x30 else 0xFF, 0), (Instr.bypass, 0xFF, 0)], Completes x.1 s fun t =>
        t.dbg.ir = x.2.1 ∧ t.dbg.outputs = x.2.2 ∧ t.dbg.tapActive ∧ SameBut [.dbg] s t) ∧
  (∀ cells, Completes (.samplePreload cells) s fun t => t.dbg.ir = 0x01 ∧ t.dbg.boundary = cells ∧ t.dbg.outputs = 0 ∧ SameBut [.dbg] s t) ∧
  (∀ on : Bool, s.rbit dbgCtrl 1 = false → Completes (.dbgHalt on) s fun t => t.rbit dbgCtrl 0 = on ∧ Only [] [dbgCtrl] s t) ∧
    Completes .dbgLock s fun t => t.rbit dbgCtrl 1 ∧ t.rbit dbgCtrl 0 = false ∧ Only [] [dbgCtrl] s t

/-- What FLS refuses, and with which status (R489): a program or erase with WRITE_EN 0 or during an operation, into the bank the requester
fetches from, into bank 3; a program of page 0, below the highest programmed page, or into a suspended erase's block. -/
def Obligations.FlashRefusals : Prop :=
  ∀ (r : Requester) (b : Fin 256) (p : Fin 512) (s : State), s.rfld flsStatus 0 2 ≠ 3 →
    let refused (code : Nat) (t : State) : Prop := t.rfld flsStatus 16 16 = code ∧ t.rbit flsInt 1 ∧ t.fls = s.fls
    (s.rbit flsCtrl 0 = false ∨ s.fls.op.isSome → Completes (.flsProgram r b p) s (refused 0x401) ∧ Completes (.flsErase r b) s (refused 0x401)) ∧
    (s.rbit flsCtrl 0 → s.fls.op = none →
      (s.fls.suspended.isSome → Completes (.flsErase r b) s (refused 0x401)) ∧
      (s.fetchBank r = some (b.val / 64) → Completes (.flsProgram r b p) s (refused 0x400)) ∧
      (s.fetchBank r = some (b.val / 64) → s.fls.suspended = none → Completes (.flsErase r b) s (refused 0x400)) ∧
      (s.fetchBank r ≠ some (b.val / 64) → 192 ≤ b.val → Completes (.flsProgram r b p) s (refused 0x405)) ∧
      (s.fetchBank r ≠ some (b.val / 64) → 192 ≤ b.val → s.fls.suspended = none → Completes (.flsErase r b) s (refused 0x405)) ∧
      (s.fetchBank r ≠ some (b.val / 64) → b.val < 192 → (p.val = 0 ∨ p.val < s.flsTop b ∨ s.fls.suspended = some b.val) →
        Completes (.flsProgram r b p) s (refused 0x402)))

/-- The flash commands complete (R489 to R497, R502, R509). -/
def Obligations.FlashCommandsComplete : Prop :=
  (∀ r b p s, s.rfld flsStatus 0 2 ≠ 3 → s.flsRefusal r 1 b p = 0 → Completes (.flsProgram r b p) s fun t =>
    t.fls = { s.fls with op := some (.program b p s.pbuf) } ∧ t.rfld flsStatus 0 2 = 1 ∧ t.rfld flsStatus 2 2 = b.val / 64 ∧
    RegsBut [flsStatus, flsCmdReg] s t) ∧
  (∀ r b s, s.rfld flsStatus 0 2 ≠ 3 → s.flsRefusal r 2 b 0 = 0 → Completes (.flsErase r b) s fun t => t.fls = { s.fls with op := some (.erase b) } ∧
    t.rfld flsStatus 0 2 = 1 ∧ t.rfld flsStatus 2 2 = b.val / 64 ∧ RegsBut [flsStatus, flsCmdReg] s t) ∧
  (∀ b s, s.fls.op = some (.erase b) → (∀ w, s.fls.resumeAt = some w → w + 2000000 ≤ s.vgl.wall) → Completes .flsSuspend s fun t =>
    t.fls.suspended = some b ∧ t.rbit flsStatus 4 = false) ∧
  (∀ b s, s.fls.op = some (.erase b) → s.rbit flsStatus 4 → Completes .flsSuspendDeferred s fun t => t.fls.suspended = some b ∧
    t.rbit flsStatus 4 = false) ∧
  (∀ r b s, s.rfld flsStatus 0 2 ≠ 3 → s.fls.op = none → s.fls.suspended = some b → Completes (.flsResume r) s fun t =>
    t.fls = { s.fls with op := some (.erase b), suspended := none, resumeAt := some s.vgl.wall } ∧ t.rfld flsStatus 0 2 = 1 ∧
    RegsBut [flsStatus, flsCmdReg] s t) ∧
  (∀ r b p bits s, s.rfld flsStatus 0 2 ≠ 3 → s.fls.op = none → s.fls.suspended = none → Completes (.flsMarginRead r b p bits) s fun t =>
    t.reg flsMargin = BitVec.ofNat 32 bits.toNat ∧ t.rbit flsInt 0 ∧ t.fls = s.fls ∧ RegsBut [flsCmdReg, flsMargin, flsInt] s t) ∧
  (∀ r s, s.rfld flsStatus 0 2 ≠ 3 → s.fls.op = none → s.fls.suspended = none → s.otpLocked (s.rfld (regAddr bFLS 0x20) 0 10 / 128) = false →
    Completes (.flsOtpProgram r) s fun t => t.rbit flsInt 0 ∧ RegsBut [flsCmdReg, flsInt] s t ∧ ∀ w, t.otpWord w = if w = s.rfld (regAddr bFLS 0x20) 0
    10 ∧ s.otpWord w = 0 then s.fls.otpData else s.otpWord w) ∧
  (∀ m b p d s, s.fls.op = some (.program b p d) → s.clk.flsHeld = false → Completes (.flsProgramDone true m) s fun t => t.flsPage b p = d ∧
    t.rbit flsInt 0 ∧ t.reg flsMargin = BitVec.ofNat 32 m.toNat) ∧
  (∀ m b s, s.fls.op = some (.erase b) → b < 256 → s.clk.flsHeld = false → Completes (.flsEraseDone true m) s fun t => (∀ p, 0 < p → p < 512 →
    t.flsPage b p = erasedPage) ∧ (∃ n, t.flsPage b 0 = blockHeader b n) ∧ t.rbit flsInt 0) ∧
  (∀ m s, s.rfld flsStatus 0 2 = 3 → s.fls.held = [] → Completes (.flsInitDone m) s fun t => t.rfld flsStatus 0 2 ≠ 3 ∧ t.fls.pages = s.fls.pages) ∧
  (∀ r (b : Fin 256) (p : Fin 512) f s, s.flsBankBusy (b.val / 64) = false → Completes (.flashRead r b p 0 f) s fun t =>
    t.out = .flashData b p (s.flsPage b p) :: s.out ∧ RegsBut [] s t ∧ t.fls.pages = s.fls.pages)

/-- The key commands complete (R503 to R506): a slot is filled with a fresh wrapped key, with the wrapped key of SEC_WRAP, or cleared. -/
def Obligations.KeyCommandsComplete : Prop :=
  let wrapped (t : State) : List W := (upto 18).map fun i => t.reg (regAddr bSEC (0x20 + 4 * i))
  let key (t : State) (slot : Nat) : List W := tget (fun _ => []) t.sec.media slot
  (∀ slot s, s.rbit secStatus 1 = false → Completes (.secGenerate slot true) s fun t => key t slot = (upto 18).map (fun i =>
    Config.freeWord (s.free + i)) ∧ wrapped t = key t slot ∧ t.rbit secStatus 1 ∧ ∀ k, k ≠ slot.val → key t k = key s k) ∧
  (∀ slot s, s.rbit secStatus 1 = false → Completes (.secUnwrap slot false true) s fun t => key t slot = wrapped s ∧ t.rbit secStatus 1 ∧
    ∀ k, k ≠ slot.val → key t k = key s k) ∧
  (∀ (slot : Fin 64) s, s.rbit secStatus 1 = false → slot.val < 16 → Completes (.secUnwrap slot true true) s fun t => tget (fun _ =>
    []) t.sec.psk slot = wrapped s ∧ t.sec.media = s.sec.media) ∧
  (∀ slot s, s.rbit secStatus 1 = false → Completes (.secClear slot false) s fun t => key t slot = [] ∧ ∀ k, k ≠ slot.val → key t k = key s k) ∧
  (∀ c s, s.sec.cmd = some c → Completes .secCmdDone s fun t => t.sec = { s.sec with cmd := none } ∧ t.rbit secStatus 1 = false ∧ t.rbit secInt 0 ∧
    RegsBut [secStatus, secInt] s t)

/-- The commands of a Uslen port's life complete (R104 to R109): enabling, training, rate switch, retrain, sleep and wake. -/
def Obligations.LinkSessionCommandsComplete : Prop :=
  ∀ (n : Fin 4) (s : State),
  (s.rbit (ulkCtrl n) 0 = false → s.rateCfgBad n = false → Completes (.ulkPortEn n true) s fun t => t.ulkSt n = 1 ∧ (t.ulkP n).step = 1 ∧
    t.rbit (ulkCtrl n) 0 ∧ t.lanesUp n = 0 ∧ RegsBut [ulkCtrl n, ulkStatus n, ulkLaneUp n] s t) ∧
  (s.rbit (ulkCtrl n) 0 → Completes (.ulkPortEn n false) s fun t => t.ulkSt n = 0 ∧ t.lanesUp n = 0 ∧ (t.ulkP n).step = 0 ∧
    RegsBut [ulkCtrl n, ulkStatus n, ulkLaneUp n] s t) ∧
  (∀ lanes : BitVec 26, 3 ≤ (s.ulkP n).step → (s.ulkP n).step ≤ 5 → ((s.ulkP n).cand &&& lanes.toNat) >>> 24 ≠ 0 →
    Completes (.trainingStepDone n lanes) s fun t => (t.ulkP n).step = (s.ulkP n).step + 1 ∧ (t.ulkP n).cand = (s.ulkP n).cand &&& lanes.toNat) ∧
  (∀ lanes : BitVec 26, (s.ulkP n).step = 8 → ((s.ulkP n).cand &&& lanes.toNat) >>> 24 ≠ 0 → Completes (.trainingStepDone n lanes) s fun t =>
    t.ulkSt n = 3 ∧ t.lanesUp n = (s.ulkP n).cand &&& lanes.toNat ∧ t.rfld (ulkStatus n) 4 2 = s.rfld (ulkCtrl n) 2 2) ∧
  ((s.ulkP n).step ≠ 0 → s.rfld (ulkStatus n) 6 2 + 1 < 3 → Completes (.trainingAttemptTimeout n) s fun t =>
    t.rfld (ulkStatus n) 6 2 = s.rfld (ulkStatus n) 6 2 + 1 ∧ t.ulkSt n = (if (s.ulkP n).waking then 6 else 1) ∧ t.lanesUp n = 0 ∧
    RegsBut [ulkStatus n, ulkLaneUp n] s t) ∧
  (∀ rtt : Nat, (s.ulkP n).step = 6 → rtt = (s.ltime - (s.ulkP n).echoAt).toNat → rtt < 65536 → Completes (.timeEchoReply n) s fun t =>
    t.rfld (ulkRtt n) 0 16 = rtt ∧ t.rbit (ulkStatus n) 8 ∧ t.out = .flit n 24 false (mkFlit 3 0 0 false (2 :: leBytes 8 (s.ltime + BitVec.ofNat 64
    (rtt / 2)).toNat)) :: s.out ∧ Only [.out] [ulkRtt n, ulkStatus n] s t) ∧
  (s.ulkSt n = 3 → s.rfld (ulkCtrl n) 2 2 ≠ 3 → (s.ulkP n).presets.contains (s.rfld (ulkCtrl n) 2 2) →
    s.rfld (ulkCtrl n) 2 2 ≠ s.rfld (ulkStatus n) 4 2 → (s.ulkP n).switchAt = none →
    (∀ w, s.switchQuiet n → s.switchTime n (s.now + 2000) = some w → Completes (.rateReq n) s fun t =>
      (t.ulkP n).switchAt = some (BitVec.ofNat 64 w) ∧ (t.ulkP n).rateReq ∧ s.now + 2000 ≤ w ∧ s.switchFits n w ∧
      t.out = .trainSwitch n (BitVec.ofNat 64 w) :: s.out ∧ SameBut [.ulk, .out] s t) ∧
    (s.switchQuiet n = false → Completes (.rateReq n) s fun t => (t.ulkP n).switchAt = none ∧ (t.ulkP n).rateReq ∧ SameBut [.ulk] s t)) ∧
  (∀ w, (s.ulkP n).switchAt = some w → w.toNat ≤ s.now → s.ulkSt n = 3 → (s.ulkP n).presetSwitch = false → Completes (.rateSwitchInstant n) s fun t =>
    t.ulkSt n = 4 ∧ t.rfld (ulkStatus n) 4 2 = s.rfld (ulkCtrl n) 2 2 ∧ Only [] [ulkStatus n] s t) ∧
  (s.ulkSt n = 4 → Completes (.rateSwitchLockCheck n (BitVec.allOnes 26)) s fun t => t.ulkSt n = 3 ∧ (t.ulkP n).switchAt = none ∧
    t.rbit (ulkInt n) 6 ∧ t.rbit calStatus (10 + n) = false ∧ RegsBut [ulkStatus n, ulkInt n, calStatus] s t) ∧
  (s.ulkSt n = 7 → s.rateCfgBad n = false → Completes (.ulkRetrain n) s fun t => t.ulkSt n = 1 ∧ t.rfld (ulkStatus n) 6 2 = 0 ∧ (t.ulkP n).step = 1 ∧
    RegsBut [ulkStatus n, ulkLaneUp n] s t) ∧
  (∀ l : Fin 26, s.ulkSt n = 3 → tget (fun _ => 3) (s.ulkP n).retrain l < 3 → Completes (.laneRetrainDone n l true) s fun t =>
    (t.lanesUp n).testBit l ∧ t.rbit (ulkInt n) 11 ∧ RegsBut [ulkLaneUp n, ulkInt n] s t) ∧
  (s.ulkSt n = 3 → s.onRamp n → Completes (.sleepReq n) s fun t => (t.ulkP n).sleep = some (0, false) ∧ SameBut [.ulk, .out] s t) ∧
  (∀ (l : Fin 26) m again, (s.ulkP n).sleep = some (m, again) → s.lanesUp n &&& (m ||| (1 <<< l.val)) = s.lanesUp n →
    Completes (.sleepAck n l) s fun t => t.ulkSt n = 5 ∧ t.lanesUp n = 0 ∧ (t.ulkP n).sleep = none ∧ RegsBut [ulkStatus n, ulkLaneUp n] s t) ∧
  (∀ m, (s.ulkP n).sleep = some (m, false) → s.allAsleep n m = false → Completes (.sleepAckTimeout n) s fun t => (t.ulkP n).sleep = some (m, true) ∧
    SameBut [.ulk, .out] s t) ∧
  (s.ulkSt n = 5 → Completes (.wakeReq n) s fun t => t.ulkSt n = 6 ∧ (t.ulkP n).step = 2 ∧ (t.ulkP n).waking ∧ t.out = .wakePattern n :: s.out ∧
    RegsBut [ulkStatus n, ulkLaneUp n] s t) ∧
  (s.ulkSt n = 5 → s.pwr.off.testBit 5 = false → Completes (.wakePatternRx n) s fun t => t.ulkSt n = 6 ∧ (t.ulkP n).step = 2 ∧
    (t.ulkP n).waking)

/-- Right after reset a read through the register access network returns what Table 21.1 gives for the register, here for at least one register
of each block. -/
def Obligations.ResetRegisterValues : Prop :=
  let r (b o v : Nat) : Prop := (State.reset.netRead .mgtPort (regAddr b o)).2 = BitVec.ofNat 32 v
  r 0 0x10 0x60E ∧ r 0 0x28 1 ∧ r 0 0x44 0x64 ∧ r 0 0 0 ∧ r 1 0 8 ∧ r 1 0x10 0xA ∧ r 1 0x14 0x2710 ∧ r 1 0x18 0x493E0 ∧ r 1 0x1C 0x1B7740 ∧
    r 1 0x20 0x4FFFFF ∧ r 1 0x24 0xFF ∧ r 2 0x20 0x7D0 ∧ r 2 0x50 0xFFFFFFFF ∧ r 2 0x54 0xFFFFFFFF ∧ r 3 4 3 ∧ r 4 0x10 0x3E8 ∧ r 4 0x100 0x3C08 ∧
    r 4 0x118 0x3C08 ∧ r 5 0x10 0x1D ∧ r 5 0x14 0 ∧ r 6 0x10 0x3C0040 ∧ r 6 0x30 0x8000 ∧ r 6 0x3C 0x8000 ∧ r 6 0x40 0x460FFB0 ∧ r 8 0 0x1A ∧
    r 8 0x20 0x100 ∧ r 8 0x24 0x32 ∧ r 8 0x28 5 ∧ r 0xB 0 0x1A ∧ r 0xB 0x20 0x100 ∧ r 0xC 0x10 0x3C10034 ∧ r 0xC 0x110 0xFFFFFFFF ∧
    r 0xC 0x150 0xFFFFFFFF ∧ r 0xD 4 0x2000 ∧ r 0xD 0x20 0x400 ∧ r 0xD 0x2C 0x400 ∧ r 0xE 0x10 0x100 ∧ r 0xF 0 1 ∧ r 0xF 4 1 ∧ r 0x10 0x10 2 ∧
    r 0x10 0x14 0x18 ∧ r 0x10 0x18 0x100 ∧ r 0x11 4 1 ∧ r 0x11 0x10 0x8000 ∧ r 0x11 0x30 0xFFFFFF ∧ r 0x11 0x3C 0xFFFFFF ∧ r 0x11 0x4000 4 ∧
    r 0x11 0x41F0 4 ∧ r 0x11 0x4200 0 ∧ r 0x12 0x10 0 ∧ r 0x14 0 0x200072 ∧ r 0x14 0x20 0x2880600 ∧ r 0x14 0x100 0x380 ∧ r 0x17 0x15C 0x380 ∧
    r 0x18 0x10 0x110 ∧ r 0x18 0x14 0x30804 ∧ r 0x18 0x18 0x1008E080 ∧ r 0x18 0x1C 0x5CCA ∧ r 0x18 0x20 0x60 ∧ r 0x18 0x100 0xC ∧
    r 0x18 0x104 0xFA00040 ∧ r 0x1A 0x1140 0x70007 ∧ r 0x18 0x1008 0x100 ∧ r 0x18 0x101C 0x100 ∧ r 0x1B 0x1020 0xC6 ∧ r 0x1C 4 0x41E2 ∧
    r 0x1C 8 0x1010008 ∧ r 0x1C 0x1000 0x2800 ∧ r 0x1F 0x15CC 0xFFFF0000 ∧ r 0x20 0x10 0x1E0 ∧ r 0x20 0x18 0x43D1 ∧ r 0x20 0x40 0xF ∧
    r 0x20 0x4C 0xF ∧ r 0x21 0x10 0x141388 ∧ r 0x21 0x14 0x80000C8 ∧ r 0x21 0x18 0xE101C20 ∧ r 0x21 0x1C 0x24502828 ∧ r 0x21 0x20 0x1E32190 ∧
    r 0x21 0x28 0xFFF9876 ∧ r 0x21 0x2C 0x708 ∧ r 0x21 0x30 0xAC00B00 ∧ r 0x21 0x34 0x8800C00 ∧ r 0x21 0x38 0x56B0500 ∧ r 0x21 0x3C 0x64093C32 ∧
    r 0x22 0x10 6 ∧ r 0x25 0x10 6 ∧ r 0x26 0x10 0x960 ∧ r 0x26 0x18 0x283C0019 ∧ r 0x26 0x108 0xC80140 ∧ r 0x26 0x10C 0xF060D1A ∧
    r 0x26 0x1E0 0xC8F014 ∧ r 0x2F 8 0xB896A4F

/-- What the commands of the Uslen links and the read channels leave as it was: every part of the state but those named, and every
register outside the windows of the blocks named (R104 to R154). -/
def Obligations.LinkAndChannelFrames : Prop := ∀ c : Instr, match c with
  | .ulkPortEn .. | .trainingAttemptTimeout .. | .rateSwitchLockCheck .. | .ulkRetrain .. | .flitReceived .. | .linkNak .. | .nakTimeout ..
  | .servoFieldHandoff ..
    => Frame c [.regs, .ulk, .chn, .wpa, .svo, .act, .gov, .ord, .buf, .cellq, .cal, .out] ([bPWR, bMGT, bCAL, bBUF, bCPL, bSVO, bACT] ++ four bULK ++ four bCHN ++ four bWPA ++ four bORD)
  | .trainingStepDone ..
    => Frame c [.regs, .ulk, .chn, .wpa, .svo, .act, .gov, .ord, .buf, .cellq, .cal, .out, .free] ([bPWR, bMGT, bCAL, bBUF, bCPL, bSVO, bACT] ++ four bULK ++ four bCHN ++ four bWPA ++ four bORD)
  | .timeEchoReply .. => Frame c [.regs, .out] (four bULK)
  | .rateReq .. | .wakeReq .. => Frame c [.regs, .ulk, .out] (four bULK)
  | .rateSwitchInstant .. => Frame c [.regs] (four bULK)
  | .laneRetrainDone .. | .sleepAck .. | .headmapApply .. => Frame c [.regs, .ulk] (four bULK)
  | .sleepReq .. | .linkAck .. | .headReply .. => Frame c [.ulk, .out] []
  | .sleepAckTimeout .. => Frame c [.regs, .ulk, .cellq, .out] ([bCPL] ++ four bULK)
  | .sample .. | .sampleMark .. => Frame c [.regs, .ulk, .chn, .ord, .cellq] ([bCPL] ++ four bCHN)
  | .servoField .. => Frame c [.regs, .ulk, .cellq] ([bCPL] ++ four bULK)
  | .telemetry ..
    => Frame c [.regs, .ulk, .chn, .wpa, .svo, .act, .gov, .ord, .buf, .cellq, .cal, .out] ([bMGT, bCAL, bBUF, bCPL, bACT] ++ four bULK ++ four bCHN ++ four bWPA ++ four bORD)
  | .gateSend ..
    => Frame c [.regs, .ulk, .chn, .wpa, .svo, .act, .gov, .ord, .buf, .cellq, .out] ([bMGT, bBUF, bCPL, bACT] ++ four bCHN ++ four bWPA ++ four bORD)
  | .armP .. | .disarm .. | .holdOn .. | .holdOff .. | .replay1 .. | .replay2 .. | .replay3 .. | .replay4 .. | .replay5 .. | .release ..
    => Frame c [.regs, .chn, .cellq] ([bMGT, bCPL] ++ four bCHN)
  | .unlistedStrobeCode .. => Frame c [.regs, .chn, .wpa, .svo, .buf, .cellq] ([bMGT, bBUF, bCPL] ++ four bCHN ++ four bWPA)
  | .chnSoftReset .. | .decodeIterationBoundary .. | .decodeEnd .. => Frame c [.regs, .chn, .cellq] ([bCPL] ++ four bCHN)
  | .chnSlotCfgWrite .. => Frame c [.regs] (four bCHN)
  | .chnSettingsApply .. | .decodeStart .. => Frame c [.chn] []
  | .frontEndDone .. | .relaxedSearchStart .. | .replayFrontEndDone .. => Frame c [.regs, .chn, .cellq, .free] ([bBUF, bCPL] ++ four bCHN)
  | .replayOperationStart .. => Frame c [.regs, .chn, .cellq] [bCPL]
  | _ => True

/-- What the commands of the write path, the servo engine, the actuators and the spindle leave as it was (R155 to R263). -/
def Obligations.WriteServoAndActuatorFrames : Prop := ∀ c : Instr, match c with
  | .warmP .. | .warmPB .. | .wdisarm .. | .fhDown1 .. | .fhRestore ..
    => Frame c [.regs, .wpa, .svo, .buf, .cellq] ([bMGT, bBUF, bCPL] ++ four bWPA)
  | .writeGateData .. | .inhibitCause .. | .wpaInhibitSet .. | .wpaCtrlWrite .. | .inhibitWaitTimeout ..
    => Frame c [.regs, .ulk, .chn, .wpa, .svo, .act, .gov, .ord, .buf, .cellq, .out] ([bMGT, bBUF, bCPL, bACT] ++ four bCHN ++ four bWPA ++ four bORD)
  | .wpaWedgeBoundary .. => Frame c [.regs, .wpa, .ord] (four bWPA ++ four bORD)
  | .wpaInhibitClear .. => Frame c [.regs, .wpa, .svo, .buf, .cellq] ([bBUF, bCPL] ++ four bWPA ++ four bORD)
  | .verifyEvent ..
    => Frame c [.regs, .ulk, .chn, .wpa, .svo, .act, .gov, .ord, .buf, .cellq, .fw, .out, .free] ([bALM, bMGT, bBUF, bCPL, bACT] ++ four bCHN ++ four bWPA ++ four bORD)
  | .rewindGatesEnded .. => Frame c [.regs, .wpa, .ord, .cellq] ([bCPL] ++ four bWPA ++ four bORD)
  | .verifyStallTimeout .. => Frame c [.regs, .ulk, .svo, .ord, .buf, .cellq, .out] ([bBUF, bCPL] ++ four bWPA ++ four bORD)
  | .loopUpdate ..
    => Frame c [.regs, .ulk, .chn, .wpa, .svo, .act, .gov, .ord, .buf, .cellq, .cal, .out] ([bPWR, bMGT, bCAL, bBUF, bCPL, bSVO, bACT] ++ four bCHN ++ four bWPA ++ four bORD)
  | .outputLatch .. => Frame c [.regs, .ulk, .svo, .buf, .cellq] [bBUF, bCPL, bSVO]
  | .svoCommit .. => Frame c [.svo] []
  | .svoWinWrite .. => Frame c [.regs, .svo, .buf, .cellq] [bBUF, bCPL, bSVO]
  | .svoCtrlWrite .. | .capStop => Frame c [.regs] [bSVO]
  | .svoMemoryZeroDone => Frame c [.regs, .svo, .buf, .cellq] [bBUF, bCPL]
  | .capArm | .capForce => Frame c [.regs, .svo] [bSVO]
  | .load .. | .ampcmdGo .. => Frame c [.regs, .act, .out] [bACT]
  | .loadTimeout .. | .actRetract .. | .actLinkEn .. | .linkTimeout ..
    => Frame c [.regs, .ulk, .chn, .wpa, .svo, .act, .gov, .ord, .buf, .cellq, .cal, .out] ([bPWR, bMGT, bCAL, bBUF, bCPL, bACT] ++ four bCHN ++ four bWPA ++ four bORD)
  | .actDisable ..
    => Frame c [.regs, .groups, .ulk, .chn, .wpa, .svo, .act, .gov, .ord, .buf, .cellq, .cal, .out] ([bPWR, bMGT, bCAL, bBUF, bCPL, bACT] ++ four bCHN ++ four bWPA ++ four bORD)
  | .reenable .. => Frame c [.regs] [bACT]
  | .retractTimeout .. => Frame c [.regs, .groups, .wpa, .act, .gov, .ord, .cellq] ([bCPL, bACT] ++ four bORD)
  | .settleTimeout .. => Frame c [.regs, .act, .ord] ([bACT] ++ four bORD)
  | .outputFrameSend .. => Frame c [.svo, .act, .out] []
  | .ampStatusFrame .. | .ampRegReply ..
    => Frame c [.regs, .groups, .wpa, .act, .gov, .ord, .cellq, .cal, .out] ([bCAL, bCPL, bACT] ++ four bORD)
  | .ampcmdTimeout .. => Frame c [.regs, .act] [bACT]
  | .govBudgetWrite .. => Frame c [.regs, .wpa, .act, .gov, .ord, .cellq] ([bCPL, bACT] ++ four bORD)
  | .actHeaddisWrite ..
    => Frame c [.regs, .groups, .ulk, .chn, .wpa, .svo, .act, .gov, .ord, .buf, .cellq, .out] ([bMGT, bBUF, bCPL, bACT] ++ four bCHN ++ four bWPA ++ four bORD)
  | .motStartRequest .. | .motStopRequest | .motDisable | .motTargetChange .. | .startTimeout | .startRetry
    => Frame c [.regs, .mot, .cellq] [bCPL, bMOT]
  | .motClrFault | .speedLoopUpdate | .observeEnd | .brakePeek | .alignEnd => Frame c [.regs, .mot] [bMOT]
  | .pwmPeriod ..
    => Frame c [.regs, .ulk, .chn, .wpa, .svo, .act, .gov, .mot, .ord, .buf, .cellq, .cal, .alm, .out] ([bPWR, bMGT, bCAL, bBUF, bCPL, bMOT, bACT] ++ four bCHN ++ four bWPA ++ four bORD)
  | .pfailInput => Frame c [.regs, .ulk, .wpa, .mot, .ord, .cellq, .alm, .out] ([bCPL, bMOT, bACT] ++ four bWPA)
  | _ => True

/-- What the commands of the Ordo engines leave as it was, microwords among them (R267 to R316). -/
def Obligations.SequencerFrames : Prop := ∀ c : Instr, match c with
  | .mopSubmit .. => Frame c [.regs, .ord, .cellq] ([bCPL] ++ four bORD)
  | .mopAdmission .. => Frame c [.regs, .wpa, .act, .gov, .ord, .buf, .cellq] ([bBUF, bCPL, bACT] ++ four bORD)
  | .ordCplPop .. => Frame c [.ord] []
  | .ordRun .. | .returnQueued .. => Frame c [.regs, .wpa, .act, .gov, .ord, .cellq] ([bCPL, bACT] ++ four bORD)
  | .ordCancel .. => Frame c [.regs, .ord] (four bORD)
  | .ordWinWrite .. => Frame c [.regs, .ord, .buf, .cellq] ([bBUF, bCPL] ++ four bORD)
  | .nop .. | .ldi .. | .lui .. | .add .. | .sub .. | .and .. | .or .. | .xor .. | .addi .. | .andi .. | .shli .. | .shri .. | .cmp ..
  | .cmpi .. | .ldd .. | .ldp .. | .lds .. | .br .. | .call .. | .ret .. | .poll .. | .wait .. | .waitReturn .. | .seek .. | .gang ..
  | .strobe .. | .gate .. | .ldband .. | .fin .. | .reservedMicroword .. | .pollOverrun ..
    => Frame c [.regs, .ulk, .chn, .wpa, .svo, .act, .gov, .ord, .buf, .cellq, .out] ([bMGT, bBUF, bCPL, bACT] ++ four bCHN ++ four bWPA ++ four bORD)
  | .wedgeTick .. | .syntheticTick ..
    => Frame c [.regs, .groups, .ulk, .chn, .wpa, .svo, .act, .gov, .ord, .buf, .cellq, .cal, .out] ([bPWR, bMGT, bCAL, bBUF, bCPL, bACT] ++ four bCHN ++ four bWPA ++ four bORD)
  | .endSequenceDrain ..
    => Frame c [.regs, .groups, .ulk, .chn, .wpa, .svo, .act, .gov, .ord, .buf, .cellq, .fw, .cal, .out] ([bPWR, bMGT, bCAL, bBUF, bCPL, bACT] ++ four bCHN ++ four bWPA ++ four bORD)
  | .sectorPacketDispatch .. => Frame c [.regs, .ord, .cellq, .out, .free] ([bBUF, bCPL] ++ four bORD)
  | .firmwareMopCompletion ..
    => Frame c [.regs, .groups, .ulk, .chn, .wpa, .svo, .act, .gov, .ord, .buf, .cellq, .hif, .ctx, .fw, .jub, .cal, .alm, .out] ([bPWR, bMGT, bCAL, bJUB, bQMG, bBUF, bCPL, bACT] ++ four bCHN ++ four bWPA ++ four bORD)
  | _ => True

/-- What the commands of Lantern, the memories, the parity engine and the cell pool leave as it was (R318 to R369). -/
def Obligations.MemoryAndPoolFrames : Prop := ∀ c : Instr, match c with
  | .bufferAccess .. | .evictionWritebackAck .. | .lntInitDone | .lntSpadDone | .lntRmDone | .remapCopyDone .. | .memTrainingDone ..
    => Frame c [.regs, .lnt, .mem, .buf, .cellq, .out] [bBUF, bLNT, bMEM, bCPL]
  | .lntSpadChange .. | .lntDisable | .lntDisableDone | .lntEnable => Frame c [.regs, .lnt, .mem, .buf, .cellq] [bBUF, bLNT, bMEM, bCPL]
  | .lntRmGo .. => Frame c [.regs, .lnt] [bLNT]
  | .bufRemapWrite .. => Frame c [.regs, .svo, .ord, .lnt, .buf, .vgl] [bVGL, bBUF]
  | .memRemapWrite .. | .memEccTestArm => Frame c [.regs] [bMEM]
  | .memScrubPatrol .. => Frame c [.regs, .mem, .cellq] [bMEM, bCPL]
  | .bufEccTestArm => Frame c [.regs] [bBUF]
  | .memInit => Frame c [.regs, .mem] [bMEM]
  | .parityRequest .. => Frame c [.regs, .buf] [bBUF]
  | .parityDone ..
    => Frame c [.regs, .wpa, .act, .gov, .ord, .lnt, .mem, .buf, .cellq, .hif, .ctx, .fw, .jub, .out] ([bJUB, bQMG, bBUF, bLNT, bMEM, bCPL, bACT] ++ four bORD)
  | .packetWrite .. | .reservationRequest .. => Frame c [.regs, .cellq, .out] [bCPL]
  | .packetTake .. => Frame c [.regs, .cellq, .fw, .out, .free] [bBUF, bCPL]
  | .packetRelink .. | .cplShareWrite .. | .cplQueueReset .. | .cplPoolReset | .cplInitDone | .chainItemEnter ..
    => Frame c [.regs, .cellq] [bCPL]
  | .reservationGrant .. => Frame c [.cellq] []
  | _ => True

/-- What the commands of the host ports, of NVMe and of QMG leave as it was (R372 to R412). -/
def Obligations.HostCommandFrames : Prop := ∀ c : Instr, match c with
  | .read .. | .compare .. | .retrieve .. => Frame c [.regs, .cellq, .ctx, .fw, .free] [bBUF, bMEM, bCPL]
  | .write .. | .writeZeroes .. | .zoneAppend ..
    => Frame c [.regs, .wpa, .act, .gov, .ord, .cellq, .hif, .ctx, .fw, .jub, .out, .free] ([bJUB, bQMG, bBUF, bMEM, bCPL, bACT] ++ four bORD)
  | .flush .. | .reportZones .. | .propertyGet .. | .identify .. | .getFeatures .. | .exist .. | .list .. | .reservationReport ..
  | .unsupportedCommand .. => Frame c [.regs, .cellq, .ctx] [bCPL]
  | .ringCloseTimeout .. | .vRecordTimer => Frame c [.fw] []
  | .zoneOpen .. | .zoneClose .. | .getLogPage .. | .firmwareImageDownload .. | .delete .. | .reservationRegister ..
  | .reservationRelease .. => Frame c [.regs, .cellq, .ctx, .fw] [bCPL]
  | .zoneFinish .. => Frame c [.regs, .cellq, .hif, .ctx, .fw] [bQMG, bCPL]
  | .zoneReset .. => Frame c [.regs, .cellq, .hif, .ctx, .fw, .jub] [bJUB, bQMG, bCPL]
  | .chainItemTake .. | .completionCommit .. | .completionSent .. => Frame c [.regs, .cellq, .hif, .ctx, .out] [bQMG, bCPL]
  | .hifPortEn .. | .keepAliveExpiry ..
    => Frame c [.regs, .wpa, .act, .gov, .ord, .cellq, .hif, .ctx, .fw, .jub, .pwr] ([bVGL, bPWR, bJUB, bQMG, bCPL, bACT] ++ four bHIF ++ four bORD)
  | .hifRestartAn .. | .anAttemptDone .. | .hifLinkDown .. => Frame c [.regs, .hif] (four bHIF)
  | .hifModeWrite .. | .hifQlimitWrite .. => Frame c [.regs] (four bHIF)
  | .anRetryTimer .. | .tcpConnectionOpen .. => Frame c [.hif] []
  | .ethFrameRx .. => Frame c [.regs, .cellq, .hif, .vgl, .pwr, .out] ([bVGL, bPWR, bCPL] ++ four bHIF)
  | .connect .. => Frame c [.regs, .cellq, .hif, .ctx, .pwr] ([bVGL, bPWR, bCPL] ++ four bHIF)
  | .disconnect .. => Frame c [.regs, .cellq, .hif, .ctx] [bCPL]
  | .propertySet .. | .controllerReset .. | .abort .. | .reservationAcquire .. | .commandAdmission
    => Frame c [.regs, .wpa, .act, .gov, .ord, .cellq, .hif, .ctx, .fw, .jub] ([bJUB, bQMG, bCPL, bACT] ++ four bORD)
  | .controllerShutdown .. => Frame c [.hif, .fw] []
  | .asynchronousEventRequest .. | .activationTimeout => Frame c [.regs, .cellq, .ctx, .fw] [bQMG, bCPL]
  | .keepAlive .. => Frame c [.regs, .cellq, .hif, .ctx] [bQMG, bCPL]
  | .formatNvm .. => Frame c [.regs, .groups, .cellq, .hif, .ctx, .fw, .jub, .sec, .free] [bJUB, bQMG, bCPL, bSEC]
  | .firmwareCommit .. => Frame c [.regs, .cellq, .ctx, .fw, .clk, .fls] [bCLK, bFLS, bQMG, bCPL, bDBG]
  | .activationIdle => Frame c [.regs, .cellq, .ctx, .fw, .clk, .fls] [bCLK, bQMG, bCPL, bDBG]
  | .store .. => Frame c [.regs, .cellq, .ctx, .fw, .jub, .out, .free] [bJUB, bBUF, bMEM, bCPL]
  | .capsuleTake .. => Frame c [.regs, .cellq, .hif, .ctx, .fw, .pwr, .out] [bPWR, bQMG, bCPL]
  | .qmgHoldAdmit .. => Frame c [.regs, .ctx] [bQMG]
  | _ => True

/-- What the commands of Harvest, Jubilee, calibration and the Almanac leave as it was (R413 to R440, R510 to R537). -/
def Obligations.RetentionAndCalibrationFrames : Prop := ∀ c : Instr, match c with
  | .harvestPassOverdue .. => Frame c [.regs, .cellq, .fw] [bCPL]
  | .refreshStepDone .. => Frame c [.fw] []
  | .jubStart .. | .jubLinkDown .. => Frame c [.regs, .jub] [bJUB]
  | .jubAbort .. | .plan .. | .planReply .. | .zoneBegin .. | .zoneEnd .. | .close .. => Frame c [.regs, .fw, .jub, .out] [bJUB]
  | .jubRetrain .. | .jubLinkRetry .. => Frame c [.regs, .jub, .cal, .free] [bCAL, bJUB]
  | .jubPause .. => Frame c [.regs] [bJUB]
  | .jubEnergyDetect .. => Frame c [.regs, .cellq, .jub, .vgl, .pwr, .cal, .free] [bVGL, bPWR, bCAL, bJUB, bCPL]
  | .jubFlitReceived .. => Frame c [.regs, .cellq, .jub, .out] [bJUB, bCPL]
  | .jubLinkHoldExpiry .. => Frame c [.regs, .fw, .jub] [bJUB]
  | .hello .. | .zoneAck .. | .zoneFail .. => Frame c [.regs, .cellq, .hif, .ctx, .fw, .jub, .out] [bJUB, bQMG, bCPL]
  | .jubStripeSend .. => Frame c [.regs, .chn, .cellq, .fw, .jub, .out] ([bJUB, bCPL] ++ four bCHN)
  | .stripe .. | .stripeNak .. => Frame c [.regs, .cellq, .fw, .jub, .out] [bJUB, bCPL]
  | .credit .. => Frame c [.fw, .jub, .out] []
  | .jubZoneCommit .. => Frame c [.regs, .cellq, .hif, .ctx, .fw, .jub] [bJUB, bQMG, bCPL]
  | .almSeqLoRead => Frame c [.alm] []
  | .calRunReq .. | .calBatchCommit .. => Frame c [.regs, .cal] [bCAL]
  | .calHold .. | .calShadowWrite .. => Frame c [.regs] [bCAL]
  | .calRunStart .. => Frame c [.regs, .cal] [bPWR, bCAL]
  | .calRunEnd .. => Frame c [.regs, .cellq, .cal] [bPWR, bCAL, bCPL]
  | .calAdcoffSend .. => Frame c [.regs, .ulk, .out] [bCAL]
  | .dieTempUpdate .. => Frame c [.regs, .cellq, .cal] [bCAL, bCPL]
  | .thermalTrip
    => Frame c [.regs, .ulk, .chn, .wpa, .svo, .act, .gov, .mot, .ord, .buf, .cellq, .fls, .cal, .alm, .out] ([bPWR, bFLS, bALM, bMGT, bCAL, bBUF, bCPL, bMOT, bACT] ++ four bCHN ++ four bWPA ++ four bORD)
  | .almanacSubmit .. => Frame c [.regs, .cellq, .fls, .alm, .out] [bFLS, bALM, bCPL]
  | .almAppGo .. => Frame c [.regs, .cellq, .fls, .alm] [bFLS, bALM, bCPL]
  | .almFlush | .almFlushTimer | .plossWindowClose => Frame c [.regs, .fls, .alm] [bFLS, bALM]
  | .almBootScan .. => Frame c [.regs, .cellq, .alm] [bALM, bCPL]
  | .mirrorWriteTimer .. => Frame c [.regs, .cellq, .fw] [bALM, bCPL]
  | _ => True

/-- What the commands of the flash, the keys, the Vigil domain and the resets of narrow scope leave as it was (R441 to R508). -/
def Obligations.FlashVigilAndResetFrames : Prop := ∀ c : Instr, match c with
  | .vigilPowerOnReset | .epochLoad .. | .vigilSupplyMonitorFall => Frame c [.regs, .vgl] [bVGL]
  | .mainRailLoss => Frame c [.pwr] []
  | .vigilSupplySwitch .. | .vbatMeasure .. => Frame c [.regs] [bVGL]
  | .ctrlRst ..
    => Frame c [.regs, .wpa, .act, .gov, .ord, .cellq, .hif, .ctx, .fw, .jub, .pwr, .clk, .fls] ([bVGL, bPWR, bCLK, bFLS, bJUB, bQMG, bCPL, bACT, bDBG] ++ four bHIF ++ four bORD)
  | .cpuRst .. => Frame c [.regs, .clk, .fls] [bCLK, bDBG]
  | .testLogicReset => Frame c [.dbg] []
  | .idesKick .. => Frame c [.clk] []
  | .idesEnable .. => Frame c [.regs, .clk] [bCLK]
  | .idesWarn .. => Frame c [.regs, .cellq, .clk] [bCLK, bCPL]
  | .pllUnlock .. => Frame c [.regs] [bCLK]
  | .flsProgram .. | .flsErase .. | .flsResume .. | .flsMarginRead .. | .flsOtpProgram .. | .flsInitDone ..
    => Frame c [.regs, .cellq, .fls] [bFLS, bCPL]
  | .flsProgramDone .. => Frame c [.regs, .cellq, .clk, .fls, .alm, .out, .free] [bCLK, bFLS, bALM, bCPL]
  | .flsEraseDone .. => Frame c [.regs, .cellq, .clk, .fls, .out, .free] [bCLK, bFLS, bCPL]
  | .flsSuspend | .flsSuspendDeferred | .flashRead .. => Frame c [.regs, .cellq, .fls, .out, .free] [bFLS, bCPL]
  | .secGenerate .. => Frame c [.regs, .sec, .free] [bSEC]
  | .secUnwrap .. => Frame c [.regs, .cellq, .sec] [bCPL, bSEC]
  | .secClear .. | .secCmdDone => Frame c [.regs, .sec] [bSEC]
  | .wakePatternRx .. => Frame c [.regs, .ulk, .cellq, .vgl, .pwr] ([bVGL, bPWR, bCPL] ++ four bULK)
  | .idleTimerExpiry .. | .pl5Req .. => Frame c [.regs, .pwr] [bVGL, bPWR]
  | .holdReq .. | .pwrWake .. | .vglWakeNInput => Frame c [.regs, .cellq, .vgl, .pwr] [bVGL, bPWR, bCPL]
  | .wakeSource .. => Frame c [.regs, .cellq, .hif, .vgl, .pwr] [bVGL, bPWR, bCPL]
  | .vglEpochLoRead | .pwrTickLoRead => Frame c [.vgl] []
  | .ulkLtimeLoRead .. => Frame c [.ulk] []
  | .hostLaneEnergyDetectorArm .. => Frame c [.hif] []
  | _ => True

/-- What the commands of the management port and the TAP leave as it was (R541 to R555, R572). -/
def Obligations.ManagementAndTestFrames : Prop := ∀ c : Instr, match c with
  | .mctpPacketRx .. => Frame c [.regs, .cellq, .mgt] [bMGT, bCPL]
  | .setEndpointId .. | .getEndpointId .. | .getEndpointUuid .. | .getMctpVersionSupport .. | .getMessageTypeSupport ..
  | .getVendorDefinedMessageSupport .. | .unsupportedMctpControl .. | .readNvmeMiDataStructure .. | .nvmSubsystemHealthStatusPoll ..
  | .controllerHealthStatusPoll .. | .configurationGet .. | .configurationSet .. | .vpdRead .. | .miAbort .. | .mgtUnlistedOpcode ..
  | .getInfo .. | .almInfo .. | .almRead .. | .netGet .. | .otpRead .. => Frame c [.regs, .cellq, .mgt, .out] [bMGT, bCPL]
  | .miGetState .. => Frame c [.regs, .cellq, .out] [bMGT, bCPL]
  | .regRead .. => Frame c [.regs, .ulk, .buf, .cellq, .vgl, .alm, .mgt, .out, .free] [bMGT, bBUF, bCPL]
  | .almAppend .. => Frame c [.regs, .cellq, .fls, .alm, .mgt, .out] [bFLS, bALM, bMGT, bCPL]
  | .imageWrite .. => Frame c [.regs, .cellq, .fw, .mgt, .out] [bMGT, bCPL]
  | .imageCommit .. => Frame c [.regs, .cellq, .ctx, .fw, .clk, .fls, .mgt, .out] [bCLK, bFLS, bMGT, bQMG, bCPL, bDBG]
  | .stagingTimeout => Frame c [.fw] []
  | .pskSet .. => Frame c [.regs, .cellq, .sec, .mgt, .out, .free] [bMGT, bCPL]
  | .pskClear .. => Frame c [.regs, .cellq, .sec, .mgt, .out] [bMGT, bCPL]
  | .jubPlan .. => Frame c [.regs, .cellq, .jub, .mgt, .out] [bMGT, bJUB, bCPL]
  | .otpProgram .. => Frame c [.regs, .cellq, .fls, .mgt, .out] [bMGT, bCPL]
  | .powerReq .. => Frame c [.regs, .cellq, .vgl, .pwr, .mgt, .out] [bVGL, bPWR, bMGT, bCPL]
  | .dynamicAddressAssignment .. | .managementPortReady => Frame c [.regs] [bMGT]
  | .extest | .samplePreload .. | .idcode | .extestPulse | .extestTrain | .highz | .clamp | .scan | .bypass => Frame c [.dbg] []
  | .dbgHalt .. | .dbgLock => Frame c [.regs] [bDBG]
  | _ => True

/-- What the commands that may reach every register leave as it was: resets, loads, power steps and register accesses never touch
the queue, and every part that is not named with a command (R447 to R482, R511, R518, R547). -/
def Obligations.WideCommandsKeep : Prop := ∀ c : Instr, match c with
  | .registerWrite .. | .bootStep .. | .partitionLoad .. | .powerExitStep .. | .calEntryApply .. | .regWrite .. | .regModify ..
  | .dbgAccess ..
    => Kept c [.regs, .groups, .ulk, .ltime, .chn, .wpa, .svo, .act, .gov, .mot, .ord, .lnt, .mem, .buf, .cellq, .hif, .ctx, .fw, .jub, .vgl, .pwr, .clk, .fls, .sec, .dbg, .cal, .alm, .mgt, .out, .free]
  | .powerOnReset .. | .pinReset ..
    => Kept c [.regs, .ulk, .ltime, .chn, .wpa, .svo, .act, .gov, .mot, .ord, .lnt, .mem, .buf, .cellq, .hif, .ctx, .fw, .jub, .vgl, .pwr, .clk, .fls, .sec, .dbg, .cal, .alm, .mgt, .free]
  | .controlResetHalted
    => Kept c [.regs, .ulk, .chn, .wpa, .svo, .act, .gov, .mot, .ord, .lnt, .mem, .buf, .cellq, .hif, .ctx, .fw, .jub, .pwr, .clk, .fls, .sec, .dbg, .cal, .alm, .mgt]
  | .warmRst .. | .idesExpiry
    => Kept c [.regs, .ulk, .ltime, .chn, .wpa, .svo, .act, .gov, .mot, .ord, .lnt, .mem, .buf, .cellq, .hif, .ctx, .fw, .jub, .vgl, .pwr, .clk, .fls, .sec, .dbg, .cal, .alm, .mgt, .out]
  | .resetRetractDone
    => Kept c [.regs, .ulk, .ltime, .chn, .wpa, .svo, .act, .gov, .mot, .ord, .lnt, .mem, .buf, .cellq, .hif, .ctx, .fw, .jub, .vgl, .pwr, .clk, .fls, .sec, .dbg, .cal, .alm, .mgt]
  | .blockReset ..
    => Kept c [.regs, .ulk, .chn, .wpa, .svo, .act, .gov, .mot, .ord, .lnt, .mem, .buf, .cellq, .hif, .ctx, .fw, .jub, .pwr, .clk, .fls, .sec, .dbg, .cal, .alm, .mgt, .out]
  | .bootOk .. => Kept c [.regs, .buf, .cellq]
  | .hifLattolWrite .. => Kept c [.regs, .buf, .cellq, .pwr]
  | .setFeatures .. => Kept c [.regs, .buf, .cellq, .hif, .ctx, .pwr]
  | .harvestReadIssue .. => Kept c [.regs, .chn, .buf, .cellq, .fw]
  | .powerEntryStep
    => Kept c [.regs, .ulk, .chn, .wpa, .svo, .act, .gov, .mot, .ord, .lnt, .mem, .buf, .cellq, .hif, .ctx, .fw, .jub, .vgl, .pwr, .clk, .fls, .sec, .dbg, .cal, .alm, .mgt, .out]
  | .vigilAlarm .. => Kept c [.regs, .buf, .cellq, .vgl, .pwr]
  | .epochTick => Kept c [.regs, .buf, .cellq, .vgl]
  | .miTunnelledAdmin .. => Kept c [.regs, .buf, .cellq, .hif, .ctx, .fw, .pwr, .clk, .fls, .mgt, .out]
  | .netSet .. => Kept c [.regs, .buf, .cellq, .mgt, .out]
  | _ => True

/-- What arrives on a Uslen link completes (R89 to R101, R111 to R116, R141): flits and their acknowledgement, samples and servo fields. -/
def Obligations.LinkTrafficCommandsComplete : Prop :=
  ∀ (n : Fin 4) (s : State),
  (∀ (l : Fin 26) f, (s.lanesUp n).testBit l → l.val < 24 → flitCrcOk f → sequenced (flitType f) → flitSeq f = (s.rxl n l).exp →
    s.flitViolation n l f = none → flitRpl f = false → Completes (.flitReceived n l f) s fun t => (t.rxl n l).exp = flitSeq f + 1 ∧
    (t.rxl n l).nakOut = false ∧ (flitType f = 10 → SameBut [.ulk, .out] s t)) ∧
  (∀ (l : Fin 26) f, (s.lanesUp n).testBit l → l.val < 24 → flitCrcOk f → sequenced (flitType f) → flitSeq f ≠ (s.rxl n l).exp →
    (s.rxl n l).nakOut = false → Completes (.flitReceived n l f) s fun t => (t.rxl n l).exp = (s.rxl n l).exp ∧ (t.rxl n l).nakOut ∧
    t.out = .flit n l false (mkFlit 1 0 0 false [2, (s.rxl n l).exp]) :: s.out ∧ SameBut [.ulk, .out] s t) ∧
  (∀ (l : Fin 26) q, (s.txl n l).knows q → Completes (.linkAck n l q) s fun t => (t.txl n l).held = (heldFrom q (s.txl n l).held).drop 1 ∧
    (t.txl n l).next = (s.txl n l).next ∧ t.out = (((s.txl n l).freed q).map fun f => Out.flit n l false f).reverse ++ s.out ∧
    SameBut [.ulk, .out] s t) ∧
  (∀ (l : Fin 26) q, l.val < 24 → (s.txl n l).knows q → Completes (.linkNak n l q) s fun t => t.out = ((heldFrom q (s.txl n l).sent).map fun e =>
    Out.flit n l true (asReplay e.2)).reverse ++ s.out ∧ SameBut [.out] s t) ∧
  (∀ l : Fin 26, (s.rxl n l).nakOut → (s.rxl n l).naks < 4 →
    (s.rxl n l).tNak.toNat + 2 * s.rfld (ulkRtt n) 0 16 + 100 ≤ s.now → Completes (.nakTimeout n l) s fun t =>
      (t.rxl n l).naks = (s.rxl n l).naks + 1 ∧ t.out = .flit n l false (mkFlit 1 0 0 false [2, (s.rxl n l).exp]) :: s.out ∧
      SameBut [.ulk, .out] s t) ∧
  (∀ (h : Fin 24) k bytes b bs, s.headMapped n h → s.bursts n h = b :: bs → b.ended = false → b.below < k → b.early.any (fun e =>
    e.1 == b.below || e.1 == k) = false → Completes (.sample n h k bytes) s fun t => t.bursts n h = { b with early := b.early ++ [(k, bytes)] } :: bs
    ∧ SameBut [.ulk] s t) ∧
  (∀ (h : Fin 24) bytes b bs, s.headMapped n h → s.bursts n h = b :: bs → b.ended = false → b.early.any (fun e => e.1 == b.below) = false →
    b.early.any (fun e => decide (b.below < e.1)) → Completes (.sample n h b.below bytes) s fun t => ∃ b' bs', t.bursts n h = b' :: bs' ∧
    b.below < b'.below ∧ b'.gateId = b.gateId) ∧
  (∀ (h : Fin 24) g gap cut (readers : BitVec 3) lt (phase : BitVec 16) flits count, s.headMapped n h →
    Completes (.sampleMark n h g false gap cut readers lt phase flits count) s fun t => t.bursts n h = s.bursts n h ++
    [{ gateId := g.toNat, readers := readers.toNat, ltime := lt, phase := phase.toNat }]) ∧
  (∀ (h : Fin 24) g gap cut readers lt phase (flits : BitVec 32) (count : BitVec 8) b, s.headMapped n h → s.bursts n h = [b] → b.ended = false →
    b.early.any (fun e => e.1 == b.below) = false → Completes (.sampleMark n h g true gap cut readers lt phase flits count) s fun t =>
    t.bursts n h = if flits.toNat ≤ b.below then [] else
    [{ b with ended := true, gap := gap, shockCut := cut, flits := flits.toNat, count := count.toNat }]) ∧
  (∀ (h : Fin 24) frag last lt thermal contact, s.headMapped n h → frag ≤ s.lastFrag n → (s.fieldRx n h).known →
    (s.fieldRx n h).closed = false → (s.fieldRx n h).frags.contains frag = false → Completes (.servoField n h frag last (s.fieldRx n h).wedge lt
      thermal contact) s fun t => (t.fieldRx n h).frags = (s.fieldRx n h).frags ++ [frag] ∧ (last → (t.fieldRx n h).last = some frag) ∧
      SameBut [.ulk] s t) ∧
  (∀ (h : Fin 24) frag last wedge lt thermal contact, s.headMapped n h → frag ≤ s.lastFrag n → (s.fieldRx n h).known = false →
    Completes (.servoField n h frag last wedge lt thermal contact) s fun t => (t.fieldRx n h).frags = [frag] ∧
      (t.fieldRx n h).wedge = wedge ∧ (t.fieldRx n h).closed = false ∧ (t.fieldRx n h).known ∧ SameBut [.ulk] s t) ∧
  (∀ (h : Fin 24) pos err, (s.fieldRx n h).complete → (s.fieldRx n h).closed = false → s.handoffAt n (s.fieldRx n h) ≤ s.now →
    Completes (.servoFieldHandoff n h pos err) s fun t => (t.fieldRx n h).closed ∧ (t.fieldRx n h).misses = 0) ∧
  (∀ (h : Fin 24) pos err, (s.fieldRx n h).complete = false → s.handoffAt n (s.fieldRx n h) ≤ s.now →
    (s.fieldRx n h).misses + 1 < s.rfld (ulkSvcfg n) 16 4 → Completes (.servoFieldHandoff n h pos err) s fun t =>
      (t.fieldRx n h).misses = (s.fieldRx n h).misses + 1 ∧ tget (fun _ => none) t.svo.headPos (24 * n + h) = none) ∧
  (∀ temp lt, lt ∉ s.telRecent n → Completes (.telemetry n false false false 0 0 0 temp lt) s fun t => (t.ulkP n).dieTemp = temp ∧
    (t.ulkP n).telSeen = lt :: s.telRecent n ∧ t.rbit (ulkStatus n) 9 = false) ∧
  (∀ shock sup hot under late fault temp lt, lt ∈ s.telRecent n → Completes (.telemetry n shock sup hot under late fault temp lt) s fun t =>
    t.ulkP n = { s.ulkP n with telSeen := (s.telRecent n).filter (· != lt) } ∧ SameBut [.ulk] s t) ∧
  (∀ (h : Fin 24) addr data st, tget (fun _ => false) (s.ulkP n).regRead h = true → Completes (.headReply n h addr data st) s fun t =>
    t.out = .headReply n h addr.toNat data.toNat st.toNat :: s.out ∧ tget (fun _ => false) (t.ulkP n).regRead h = false ∧ SameBut [.ulk, .out] s t) ∧
  (∀ h : Fin 24, s.gateOpenOn n h = false → Completes (.headmapApply n h) s fun t => t.headMap n h = s.reg (ulkHeadmap n h) ∧
    t.rbit (ulkStatus n) 10 = ((upto 24).any fun k => t.mapErr n k) ∧ RegsBut [ulkStatus n] s t) ∧
  (∀ id g, s.gateById n id = some g → g.sent = false → g.guard = false → g.fail = 0 → (s.ulkP n).rateReq = false → g.isWrite = false → g.parts = [] →
    s.gateCancel n g = none → (s.txl n (firstLane (s.headMap n g.head))).room → firstLane (s.headMap n g.head) < 24 →
    Completes (.gateSend n id) s fun t => t.out = .flit n (firstLane (s.headMap n g.head)) false (mkFlit 9 0 (s.txl n (firstLane (s.headMap n
    g.head))).next false (readGateCmd g.id g.start (g.stop - g.start) (s.gateReaders n g) (fld ((s.ordP n).pb 7) 0 12))) :: s.out ∧
      (∀ x, t.gateById n id = some x → x.sent) ∧ SameBut [.ulk, .ord, .out] s t)

/-- The strobes of a read channel complete (R119 to R121, R145, R146, Table 4.2), and a code that the table does not list is counted
against the sequencer that sent it. -/
def Obligations.SlotStrobesComplete : Prop :=
  ∀ (n : Fin 4) (h : Fin 24) (s : State),
  (s.gateOpen (bCHN n) →
    (∀ k : Fin 8, s.rbit (chnCtrl n) 0 → s.rbit (chnSlotCfg n h) 0 → (s.slot n h).sectors = [] → (s.slot n h).armed = false →
      minGranules (popCount 3 (s.slotReaders n h (s.reg (chnProfCfg n k)))) ≤ s.rfld (chnSlotCfg n h) 4 7 → Completes (.armP n h k) s fun t =>
      (t.slot n h).armed ∧ (t.slot n h).prof = k.val ∧
        (t.slot n h).profCfg = s.reg (chnProfCfg n k) ∧ (t.slot n h).granules = s.rfld (chnSlotCfg n h) 4 7) ∧
    ((s.slot n h).midSector = false → Completes (.disarm n h) s fun t => (t.slot n h).armed = false ∧ SameBut [.chn] s t) ∧
    ((s.slot n h).midSector → Completes (.disarm n h) s fun t => (t.slot n h).disarming ∧
      (t.slot n h).armed = (s.slot n h).armed ∧ SameBut [.chn] s t) ∧ Completes (.holdOn n h) s (fun t =>
        t.slot n h = { s.slot n h with hold := true } ∧ SameBut [.chn] s t) ∧ Completes (.holdOff n h) s (fun t =>
        t.slot n h = { s.slot n h with hold := false } ∧ SameBut [.chn] s t) ∧
    ((s.slot n h).holds → (s.slot n h).ops.length < 4 →
      let queued (rung : Nat) (t : State) : Prop := t.slot n h = { s.slot n h with ops := (s.slot n h).ops ++ [rung] } ∧ SameBut [.chn] s t
      Completes (.replay1 n h) s (queued 1) ∧ Completes (.replay2 n h) s (queued 2) ∧ Completes (.replay3 n h) s (queued 3) ∧
        Completes (.replay4 n h) s (queued 4) ∧ Completes (.replay5 n h) s (queued 5)) ∧
    ((s.slot n h).op = none → (s.slot n h).sectors.any (fun q => q.st == .held) → Completes (.release n h) s fun t =>
      (t.slot n h).sectors = removeFirst (fun q => q.st == SecState.held) (s.slot n h).sectors ∧ SameBut [.chn] s t)) ∧
  (∀ w (code : BitVec 8), s.gateOpen (if w then bWPA n else bCHN n) → code.toNat ∉ (if w then
    [0x40, 0x41, 0x42, 0x43, 0x44, 0x45, 0x46, 0x47, 0x48, 0x58, 0x59] else
    [0x10, 0x11, 0x12, 0x13, 0x14, 0x15, 0x16, 0x17, 0x20, 0x21, 0x22, 0x31, 0x32, 0x33, 0x34, 0x35, 0x3F]) →
    (s.reg (mgtViol (4 + n)).addr).toNat + 1 < 2 ^ 32 - 1 → Completes (.unlistedStrobeCode n w h code) s fun t =>
      (t.reg (mgtViol (4 + n)).addr).toNat = (s.reg (mgtViol (4 + n)).addr).toNat + 1 ∧ t.rbit (regAddr bMGT 0x8) 1 ∧
      Only [] [(mgtViol (4 + n)).addr, regAddr bMGT 0x8] s t)

/-- The commands of a read channel's decoding complete (R125 to R153): settings, front end, search, decode and replay. -/
def Obligations.ReadChannelCommandsComplete : Prop :=
  ∀ (n : Fin 4) (s : State),
  (Completes (.chnSoftReset n) s fun t => (t.chnP n).cores = [] ∧ ∀ h < 24, (t.slot n h).sectors = [] ∧ (t.slot n h).armed = false) ∧
  (∀ (h : Fin 24) v, ((upto 24).map fun g => if g = h.val then 0 else s.rfld (chnSlotCfg n g) 4 7).sum + fld v 4 7 ≤ 96 →
    Completes (.chnSlotCfgWrite n h v) s fun t => t.reg (chnSlotCfg n h) = v &&& 0x000F07FF ∧ Only [] [chnSlotCfg n h] s t) ∧
  (∀ (h : Fin 24) v, 96 < ((upto 24).map fun g => if g = h.val then 0 else s.rfld (chnSlotCfg n g) 4 7).sum + fld v 4 7 →
    Completes (.chnSlotCfgWrite n h v) s fun t => t.rbit (chnInt n) 3 ∧ Only [] [chnInt n] s t) ∧
  (∀ h : Fin 24, (s.slot n h).midSector = false → Completes (.chnSettingsApply n h) s fun t => t.slot n h = { s.slot n h with inForce := [] } ∧
    SameBut [.chn] s t) ∧
  (∀ h : Fin 24, (s.slot n h).midSector → Completes (.chnSettingsApply n h) s fun t => t = s) ∧
  (∀ (h : Fin 24) q, (s.slot n h).sectors.find? (fun q => q.st == .arriving) = some q → q.left = 0 → s.slotOn n h →
    let l := if q.old then (s.slot n h).before else ((s.slot n h).acc, (s.slot n h).carry, (s.slot n h).phase)
    let x : Sector := { q with seeds := l.1, carry := l.2.1, phase := l.2.2 }
    let f := frontEnd (s.feCfg n x 0) x.samples x.seeds
    let found := strictSearch (s.strictThr n) (-(winOf q.profCfg : Int)) (x.dists f primaryMark 0)
    Completes (.frontEndDone n h .clean) s fun t => (t.slot n h).sectors.countP (fun q => q.st == .arriving) + 1 = (s.slot n h).sectors.countP (fun q
      => q.st == .arriving) ∧
        (∀ c d, found = some (c, d) → h.val ∈ (t.chnP n).firstWait ∧
          ((t.slot n h).sectors.any fun y => y.st == .awaiting && !y.search && y.anchor == some c && y.anchorKind == 0 && y.dist == d)) ∧
        (found = none → s.relaxEn n →
          ((t.slot n h).sectors.any fun y => y.st == .awaiting && y.search && y.gateId == q.gateId))) ∧
  (∀ (h : Fin 24) q find, (s.slot n h).sectors.find? (fun q => q.st == .arriving) = some q → q.left = 0 → s.slotOn n h → eccBad find →
    Completes (.frontEndDone n h find) s fun t => t.rbit (chnInt n) 4 ∧
      (t.slot n h).sectors.countP (fun q => q.st == .arriving) + 1 = (s.slot n h).sectors.countP (fun q => q.st == .arriving)) ∧
  (∀ (h : Fin 24) q, (s.slot n h).feBusy = false → s.slotOn n h → (s.slot n h).sectors.find? Sector.searches = some q →
    let f := frontEnd (s.feCfg n q 0) q.samples q.seeds
    let relaxed := if s.relaxEn n then relaxedSearch (s.relaxThr n) (-(winOf q.profCfg : Int)) (q.dists f primaryMark 0) else none
    Completes (.relaxedSearchStart n h .clean) s fun t => (t.slot n h).sectors.countP Sector.searches + 1 = (s.slot n h).sectors.countP
      Sector.searches ∧
        (∀ c d, relaxed = some (c, d) → h.val ∈ (t.chnP n).firstWait ∧
          ((t.slot n h).sectors.any fun x => x.st == .awaiting && !x.search && x.anchor == some c && x.anchorKind == 1))) ∧
  (∀ (c : Fin 12) h hs, s.coreOf n c = none → (s.chnP n).firstWait = h :: hs → Completes (.decodeStart n c) s fun t =>
    t.coreOf n c = some { slot := h, replay := false } ∧ (t.chnP n).firstWait = hs ∧ SameBut [.chn] s t) ∧
  (∀ (c : Fin 12) h hs, s.coreOf n c = none → (s.chnP n).firstWait = [] → (s.chnP n).replayWait = h :: hs → Completes (.decodeStart n c) s fun t =>
    t.coreOf n c = some { slot := h, replay := true } ∧ (t.chnP n).replayWait = hs ∧ SameBut [.chn] s t) ∧
  (∀ (c : Fin 12) x, s.coreOf n c = some x → x.yield = false → Completes (.decodeIterationBoundary n c) s fun t =>
    t.coreOf n c = some (if x.loaded then { x with iter := x.iter + 1 } else { x with loaded := true }) ∧ SameBut [.chn] s t) ∧
  (∀ (c : Fin 12) x q, s.coreOf n c = some x → x.replay = false →
    (s.slot n x.slot).sectors.find? (fun q => q.st == .decoding) = some q → Completes (.decodeEnd n c) s fun t => t.coreOf n c = none ∧
      (t.slot n x.slot).sectors.countP (fun q => q.st == .decoding) + 1 =
        (s.slot n x.slot).sectors.countP (fun q => q.st == .decoding)) ∧
  (∀ (h : Fin 24) rung ops q, (s.slot n h).op = none → (s.slot n h).sectors.any (fun q => q.search) = false → (s.slot n h).ops = rung :: ops →
    s.slotOn n h →
    (s.slot n h).sectors.find? (fun q => q.st == .held) = some q → q.first.isSome → rung ≠ 4 → Completes (.replayOperationStart n h) s fun t =>
      (∃ o, (t.slot n h).op = some o ∧ o.rung = rung) ∧ (t.slot n h).ops = ops ∧ SameBut [.chn] s t) ∧
  (∀ (h : Fin 24) o q, (s.slot n h).op = some o → o.fe → o.rung ≠ 2 → s.slotOn n h →
    (s.slot n h).sectors.find? (fun q => q.st == .executing) = some q →
    let c := s.trialCfg n o q
    Completes (.replayFrontEndDone n h .clean) s fun t => (t.chnP n).replayWait = (s.chnP n).replayWait ++ [h.val] ∧
      (t.slot n h).op = some (o.passed q c (frontEnd c q.samples q.seeds)) ∧ SameBut [.chn] s t) ∧
  (∀ (h : Fin 24) find o q, (s.slot n h).op = some o → o.fe → s.slotOn n h → eccBad find →
    (s.slot n h).sectors.find? (fun q => q.st == .executing) = some q → Completes (.replayFrontEndDone n h find) s fun t => t.rbit (chnInt n) 4 ∧
      (t.slot n h).op = none)

/-- The strobes and the registers of the write path complete (R155, R161 to R166, Tables 5.2, 5.4, 5.8, 5.9). -/
def Obligations.WriteStrobesComplete : Prop :=
  ∀ (n : Fin 4) (h : Fin 24) (s : State),
  (s.gateOpen (bWPA n) →
    (∀ (k : Fin 4), s.rbit (wpaCtrl n) 0 → s.wpaSt n h = 1 →
      let armed (b : Bool) (t : State) : Prop := t.wpaSt n h = 2 ∧ t.rfld (wpaHeadStatus n h) 2 2 = k.val ∧ t.rbit (wpaHeadStatus n h) 4 = b ∧
        (t.wpaH n h).warmAt = s.ltime ∧ Only [.wpa, .svo] [wpaHeadStatus n h] s t
      Completes (.warmP n h k) s (armed false) ∧ Completes (.warmPB n h k) s (armed true)) ∧
    (s.wpaSt n h = 2 → s.writeOpen n h = false → Completes (.wdisarm n h) s fun t => t.wpaSt n h = 1 ∧ RegsBut [wpaHeadStatus n h] s t) ∧
    (∀ g, s.wpaSt n h = 2 → s.openWrite n h = some g → Completes (.wdisarm n h) s fun t => (t.wpaH n h).wdisarm = some g.id ∧ SameBut [.wpa] s t) ∧
    (s.wpaSt n h = 1 → s.fhFld n h 0 4 < s.fhFld n h 8 4 → Completes (.fhDown1 n h) s fun t => (t.wpaH n h).fhDown ∧
      t.rfld (wpaHeadStatus n h) 8 4 = t.heaterStep n h % 16 ∧ RegsBut [wpaHeadStatus n h] s t) ∧
    (s.wpaSt n h = 1 → Completes (.fhRestore n h) s fun t => (t.wpaH n h).fhDown = false ∧ t.rbit (wpaHeadStatus n h) 12 = false ∧
      RegsBut [wpaHeadStatus n h] s t)) ∧
  (∀ cause : Fin 5, (s.wpaSt n h = 1 ∨ s.wpaSt n h = 2) → (s.ordP n).gates.filter (fun g => g.isWrite && g.head == h.val && g.sent) = [] →
    Completes (.inhibitCause n h cause) s fun t => t.wpaSt n h = 3 ∧ t.rbit (wpaHeadStatus n h) (16 + cause) ∧ t.rbit (wpaInhibit n) h ∧
    t.rbit (wpaInt n) 4) ∧
  ((s.wpaSt n h = 1 ∨ s.wpaSt n h = 2) → (s.ordP n).gates.filter (fun g => g.isWrite && g.head == h.val && g.sent) = [] →
    Completes (.wpaInhibitSet n (1#24 <<< h.val)) s fun t => t.wpaSt n h = 3 ∧ t.rbit (wpaHeadStatus n h) 20) ∧
  (s.wpaSt n h = 3 → s.rbit (wpaHeadStatus n h) 18 = false → s.rbit (wpaCtrl n) 0 → Completes (.wpaInhibitClear n (1#24 <<< h.val)) s fun t =>
    t.wpaSt n h = 1 ∧ t.wpaCauses n h = 0 ∧ t.rbit (wpaInhibit n) h = false) ∧
  (∀ v, (s.rbit (wpaCtrl n) 0 = false ∨ bitAt v 0) → Completes (.wpaCtrlWrite n v) s fun t => t.reg (wpaCtrl n) = v &&& 1 ∧ Only [] [wpaCtrl n] s t)

/-- The commands of writing and verifying complete (R157 to R159, R168 to R180): data, wedge boundary, verify events, rewind and seal. -/
def Obligations.WriteVerifyCommandsComplete : Prop :=
  ∀ (n : Fin 4) (s : State),
  (∀ (h : Fin 24) g p ps, s.nextWriteGate n h = some g → s.now + 2000 ≤ g.start → s.heads (52 + n) = p :: ps →
    (metaOf (pktBytes p.body) >>> 54) % 2 ^ 7 = 24 * n.val + h.val → s.beyondGuard n g ((metaOf (pktBytes p.body) >>> 22) % 2 ^ 32) = false →
      s.mirrorProtected n (metaOf (pktBytes p.body)) (s.ordP n).dSlots = false →
    let l := firstLane (s.headMap n h)
    s.headMapped n h → s.laneReady n l → l < 24 → Completes (.writeGateData n h) s fun t => (t.txl n l).next = (s.txl n l).next + 78 ∧
      (t.txl n l).held = (s.txl n l).held ++ (upto 78).map (fun k => ((s.txl n l).next + BitVec.ofNat 8 k, mkFlit 8 0 ((s.txl n l).next + BitVec.ofNat
        8 k) false (packBits 60 (((sectorBits (pktBytes p.body) (s.rbit (wpaHeadStatus n h) 4)).drop (480 * k)).take 480)))) ∧
        ((t.ordP n).gates.any fun x => x.id == g.id && x.data)) ∧
  (Completes (.wpaWedgeBoundary n) s fun t => (t.wpaP n).rawcfg = s.reg (wpaRawcfg n) ∧ (t.wpaP n).quiet = (s.wpaP n).quiet + 1 ∧
    ∀ h < 24, (t.wpaH n h).therm = s.reg (wpaTherm n h)) ∧
  (∀ d r g p ps, s.heads (56 + n) = p :: ps → p.body = .sector d r → p.poison = false →
    (s.ordP n).gates.find? (fun g => g.id == r.gateId && g.kind == .raw) = some g → (s.ordP n).writeTwin g = none → passes (s.wpaP n).rawcfg r →
      (s.ordP n).band → g.pass = s.bandPass n → Completes (.verifyEvent n .clean) s fun t => tget (fun _ =>
      0) (t.wpaP n).verified g.stripe = tget (fun _ => 0) (s.wpaP n).verified g.stripe ||| (1 <<< g.gpos) ∧
        (t.wpaP n).quiet = 0 ∧ t.out = .packet (56 + n) p.body false :: s.out) ∧
  (s.rewindSt n = 3 → (s.wpaP n).stopGates → (s.wpaP n).inhibitWait = false → s.oldGateOpen n = false → s.rfld (wpaRewind n) 0 2 ≠ 3 →
    Completes (.rewindGatesEnded n) s fun t => t.reg (wpaPosW n) = s.reg (wpaPosM n) ∧ t.rbit (wpaInt n) 1 ∧
    t.rfld (wpaRewind n) 0 2 = s.rfld (wpaRewind n) 0 2 + 1) ∧
  (s.rewindSt n = 3 → (s.wpaP n).stopGates → (s.wpaP n).inhibitWait = false → s.oldGateOpen n = false → s.rfld (wpaRewind n) 0 2 = 3 →
    Completes (.rewindGatesEnded n) s fun t => t.rewindSt n = 4 ∧ t.reg (wpaPosW n) = s.reg (wpaPosV n) ∧ t.rbit (wpaInt n) 2 ∧
      (t.ordP n).sealed = 0x175) ∧
  ((s.wpaP n).inhibitWait → (s.ordP n).band → Completes (.inhibitWaitTimeout n) s fun t => t.rewindSt n = 4 ∧ t.reg (wpaPosW n) = s.reg (wpaPosV n) ∧
    (t.wpaP n).inhibitWait = false ∧ (t.ordP n).sealed = 0x178) ∧
  (s.verifyPending n → 3 * s.rfld (regAddr bSVO 0x10) 0 10 ≤ (s.wpaP n).quiet → Completes (.verifyStallTimeout n) s fun t => t.rewindSt n = 5 ∧
    t.rbit (wpaInt n) 3 ∧ t.rbit (ordEvtPend n) 17 ∧
      ((s.ordP n).band → t.reg (wpaPosW n) = s.reg (wpaPosM n)))

/-- The servo engine's commands complete (R181 to R204): descriptors and outputs at their instants, SVO_COMMIT, the window, the capture. -/
def Obligations.ServoEngineCommandsComplete : Prop :=
  ∀ s : State,
  (∀ (i : Fin 296) find, 4 ≤ i.val → i.val < 8 → s.rbit (regAddr bSVO 0x0) 0 → s.svo.zeroing = false → s.arrived i → (s.loop i).commit →
    s.descRefused i (s.descAt i) = false → (s.descAt i).enable = false → Completes (.loopUpdate i find) s fun t => (t.loop i).desc = s.descAt i ∧
    (t.loop i).commit = false) ∧
  (∀ (i : Fin 296) find, 4 ≤ i.val → i.val < 8 → s.rbit (regAddr bSVO 0x0) 0 → s.svo.zeroing = false → s.arrived i → (s.loop i).commit = false →
    (s.loop i).desc.enable → (s.loop i).desc.satLimit = 0 → (s.loop i).desc.limLo ≤ (s.loop i).desc.limHi →
      eccBad (s.sramFind 26 (s.loopBadWord i) find) = false → 2 ≤ s.actSt (loopAct i) → s.actSt (loopAct i) ≤ 4 →
      ((s.stackInForce (loopAct i)).loopInput i).isSome → Completes (.loopUpdate i find) s fun t => (t.loop i).pending ∧
      (t.loop i).arrival = s.ltime ∧
      (s.loop i).desc.limLo ≤ lget 0 (t.loop i).taps 4 ∧ lget 0 (t.loop i).taps 4 ≤ (s.loop i).desc.limHi) ∧
  (∀ i : Fin 296, (s.loop i).zeroOut = false → (s.loop i).pending → Completes (.outputLatch i) s fun t => (t.loop i).pending = false ∧
    t.svoWord (descWord i + 6) = BitVec.ofInt 32 (lget 0 (s.loop i).taps 4) ∧
      (loopClass i ≤ 1 → (t.loop i).ready ∧ t.out = s.out) ∧
      (3 ≤ loopClass i → ∃ es, (s.phaseAt i, es) ∈ (t.ulkP (loopAct i)).servoQ ∧ es.getLast? = some (loopHead i, loopClass i - 1, fld (BitVec.ofInt 32
        (lget 0 (s.loop i).taps 4)) 16 16))) ∧
  (∀ v, bitAt v 31 = false → fld v 0 9 < 296 → Completes (.svoCommit v) s fun t => t.loop (fld v 0 9) = { s.loop (fld v 0 9) with commit := true } ∧
    SameBut [.svo] s t) ∧
  (∀ v, bitAt v 31 → Completes (.svoCommit v) s fun t => (∀ i < 296, t.loop i = { s.loop i with commit := true }) ∧ SameBut [.svo] s t) ∧
  (∀ (w : Fin 8192) v, s.rfld (regAddr bSVO 0x1C) 0 4 < 8 → 0x2000 * s.rfld (regAddr bSVO 0x1C) 0 4 + w.val < stateWord 0 →
    s.setActive ((0x2000 * s.rfld (regAddr bSVO 0x1C) 0 4 + w.val) / 96) = false → Completes (.svoWinWrite w v) s fun t =>
    t.svoWord (0x2000 * s.rfld (regAddr bSVO 0x1C) 0 4 + w.val) =
        (if (0x2000 * s.rfld (regAddr bSVO 0x1C) 0 4 + w.val) % 6 = 5 then v &&& 0xFFFFF else v)) ∧
  (∀ (w : Fin 8192) v, 8 ≤ s.rfld (regAddr bSVO 0x1C) 0 4 → s.capSt = 0 ∨ s.capSt = 3 → Completes (.svoWinWrite w v) s fun t => tget (fun _ =>
    0) t.svo.cap (0x2000 * (s.rfld (regAddr bSVO 0x1C) 0 4 - 8) + w.val) = v ∧ t.svo.mem = s.svo.mem) ∧
  (∀ v, bitAt v 0 → Completes (.svoCtrlWrite v) s fun t => t.reg (regAddr bSVO 0x0) = v &&& 1 ∧ Only [] [regAddr bSVO 0x0] s t) ∧
  (Completes .svoMemoryZeroDone s fun t => t.svo = { s.svo with zeroing := false } ∧ SameBut [.svo] s t) ∧
  (Completes .capArm s fun t => t.capSt = 1 ∧ t.svo.capTaken = [] ∧ RegsBut [capStatus] s t) ∧
  (s.rfld capCtrl 4 2 = 0 → s.capSt = 1 → Completes .capForce s fun t => t.capSt = 2 ∧ t.rbit capStatus 2 ∧ RegsBut [capStatus] s t) ∧
  (s.capSt = 1 ∨ s.capSt = 2 → Completes .capStop s fun t => t.capSt = 3 ∧ t.rbit svoInt 5 ∧ RegsBut [capStatus, capFirst, svoInt] s t)

/-- The actuator commands complete (R210, R218 to R238, Tables 7.1, 7.3, 7.5, 7.6). -/
def Obligations.ActuatorCommandsComplete : Prop :=
  ∀ (a : Fin 4) (s : State),
  (s.actSt a = 0 → s.rbit actStatusAll a → Completes (.load a) s fun t => t.actSt a = 1 ∧ t.rbit actStatusAll (4 + a) = false ∧
    (∃ f, t.out = .ampFrame a f :: s.out) ∧ RegsBut [actStatus a, actStatusAll] s t) ∧
  (s.actSt a = 1 → s.mopInFlight a = false → (s.ordP a).gates = [] → Completes (.loadTimeout a) s fun t => t.actSt a = 5 ∧ t.reg (actGang a) = 0 ∧
    (t.loop a).desc.enable = false) ∧
  (s.actSt a = 0 → s.mopInFlight a = false → Completes (.actDisable a) s fun t => t.actSt a = 6) ∧
  (s.actSt a = 6 → Completes (.reenable a) s fun t => t.actSt a = 0 ∧ Only [] [actStatus a] s t) ∧
  (∀ lost, 1 ≤ s.actSt a → s.actSt a ≤ 4 → s.mopInFlight a = false → (s.ordP a).gates = [] → Completes (.actRetract a lost) s fun t => t.actSt a = 5 ∧
    t.reg (actGang a) = 0 ∧ (t.actP a).v = 0 ∧ (t.actP a).heldSeek = none) ∧
  (s.actSt a = 5 → Completes (.retractTimeout a) s fun t => t.actSt a = 6 ∧ t.rbit actStatusAll (4 + a) ∧ t.rbit actInt 1) ∧
  (s.actSt a = 4 → fld (s.actP a).timeoutCfg 8 8 ≤ (s.actP a).settleWedges → Completes (.settleTimeout a) s fun t => t.actSt a = 2 ∧
    (t.actP a).settleWedges = 0 ∧ (s.mopInFlight a → t.rbit (ordEvtPend a) 19)) ∧
  (∀ m : BitVec 4, s.rfld (regAddr bACT 0x0) 0 4 = 0 → Completes (.actLinkEn m) s fun t => t.rfld (regAddr bACT 0x0) 0 4 = m.toNat ∧
    Only [.act] [regAddr bACT 0x0] s t) ∧
  (s.linkOn a → 1 ≤ s.actSt a → s.actSt a ≤ 4 → Completes (.outputFrameSend a) s fun t => (t.loop a).ready = false ∧ (t.loop (4 + a)).ready = false ∧
    (∃ f, t.out = .ampFrame a f :: s.out) ∧ SameBut [.svo, .act, .out] s t) ∧
  (∀ f : BitVec 96, s.linkOn a → (s.actP a).locked → frameCrcOk f → frameSync f → frameFld f 84 4 = 8 → frameFld f 8 24 = 0 → frameFld f 46 2 = 0 →
    s.actSt a ≠ 5 → Completes (.ampStatusFrame a f) s fun t => t.rfld (actStatus a) 4 6 = frameFld f 40 6 ∧ t.actSt a = s.actSt a) ∧
  (∀ f : BitVec 96, s.linkOn a → (s.actP a).locked → frameCrcOk f → frameSync f → frameFld f 84 4 = 9 →
    (s.actP a).ampOut → frameFld f 8 16 = 0 → Completes (.ampRegReply a f) s fun t => t.reg (actReg a 0x28) = BitVec.ofNat 32 (frameFld f 32 32) ∧
      t.rbit (actReg a 0x24) 18 = false ∧ t.rbit (actReg a 0x24) 19 = (frameFld f 24 8 == 1) ∧ RegsBut [actReg a 0x28, actReg a 0x24, actStatusAll] s
      t) ∧
  (s.linkOn a → s.actSt a = 0 → Completes (.linkTimeout a) s fun t => t.rbit actStatusAll a = false ∧ t.rbit actInt 2 ∧
    (t.actP a).locked = false ∧ RegsBut [actInt, actStatusAll] s t) ∧
  (s.rbit (actReg a 0x24) 18 = false → s.linkOn a → Completes (.ampcmdGo a) s fun t => t.rbit (actReg a 0x24) 18 ∧ t.rbit (actReg a 0x24) 19 = false ∧
    (t.actP a).ampOut ∧ (∃ f, t.out = .ampFrame a f :: s.out) ∧ RegsBut [actReg a 0x24] s t) ∧
  (s.rbit (actReg a 0x24) 18 → Completes (.ampcmdTimeout a) s fun t => t.rbit (actReg a 0x24) 18 = false ∧ t.rbit (actReg a 0x24) 19 ∧
    (t.actP a).ampOut = false ∧ RegsBut [actReg a 0x24] s t) ∧
  (∀ v, s.gov = [] → Completes (.govBudgetWrite v) s fun t => t.reg actGovBudget = v &&& 0xFFFF ∧ t.rfld actGovUsed 16 8 = 0 ∧
    RegsBut [actGovBudget, actGovUsed] s t) ∧
  (∀ v, fld v 0 24 &&& s.rfld (actGang a) 0 24 = 0 → Completes (.actHeaddisWrite a v) s fun t => t.reg (actHeaddis a) = v &&& 0xFFFFFF ∧
    RegsBut [actHeaddis a] s t)

/-- The spindle motor's commands complete (R244 to R263, Tables 8.2 and 8.4). -/
def Obligations.SpindleCommandsComplete : Prop :=
  ∀ s : State,
  (∀ nominal : Bool, s.motWriteRefused true (if nominal then 2 else 1) = false → s.motSt = 0 → Completes (.motStartRequest nominal) s fun t =>
    t.motSt = 1 ∧ t.reg motCtrl = (if nominal then 5 else 3) ∧ t.rbit motStatus 6 = false ∧ t.mot.fails = 0) ∧
  (s.motWriteRefused true 0 = false → s.motSt = 5 → Completes .motStopRequest s fun t => t.motSt = 5 ∧ t.mot.stopping ∧ t.reg motCtrl = 1) ∧
  (s.motWriteRefused false (s.rfld motCtrl 1 2) = false → s.rbit motCtrl 0 → s.motSt = 5 → Completes .motDisable s fun t => t.motSt = 6 ∧
    t.mot.gates = 0 ∧ t.rbit motCtrl 0 = false ∧ t.rfld motCtrl 1 2 = s.rfld motCtrl 1 2) ∧
  (∀ nominal : Bool, s.motWriteRefused true (if nominal then 2 else 1) = false → s.rbit motCtrl 0 → s.motSt = 5 →
    Completes (.motTargetChange nominal) s fun t => t.motSt = 5 ∧ t.rbit motCtrl 0 ∧ t.rfld motCtrl 1 2 = (if nominal then 2 else 1)) ∧
  (∀ nominal : Bool, s.motWriteRefused true (if nominal then 2 else 1) → Completes (.motStartRequest nominal) s fun t => t.rbit motInt 6 ∧
    t.rfld motStatus 16 16 = 0x1A4 ∧ Only [] [motInt, motStatus] s t) ∧
  (s.motSt = 7 → s.rpm < s.stopRpm → Completes .motClrFault s fun t => t.motSt = 0 ∧ t.rbit motStatus 5 = false) ∧
  (∀ s1 s2 vm vu vv vw : BitVec 12, s.motSt = 0 → Completes (.pwmPeriod s1 s2 vm vu vv vw) s fun t => t.rfld motVm 0 12 = vm.toNat ∧
    t.mot.clk = s.mot.clk + s.rfld motPwm 0 13) ∧
  (s.motSt = 5 → s.mot.stopping = false → Completes .speedLoopUpdate s fun t => t.mot.loopCfg = s.reg motLoops ∧
    -(rotUnit * s.rfld motLoops 16 12) ≤ t.mot.qRef ∧ t.mot.qRef ≤ rotUnit * s.rfld motLoops 16 12) ∧
  (s.motSt = 1 → Completes .observeEnd s fun t =>
    let mag := emfMean s.mot.vs
    let r := s.emfRpm mag
    (mag < s.stillCodes → t.motSt = 3 ∧ t.mot.startCfg = s.reg motStartReg ∧ t.rfld motRpmReg 0 16 = 0) ∧
      (s.stillCodes ≤ mag → angleChange s.mot.vs < 0 → t.motSt = 2) ∧
      (s.stillCodes ≤ mag → 0 ≤ angleChange s.mot.vs → t.motSt = if 300 ≤ r then 5 else if s.stopRpm ≤ r then 2 else 3)) ∧
  (s.motSt = 2 → s.mot.brake = 1 → Completes .brakePeek s fun t =>
    let r := s.emfRpm (emfMean s.mot.vs)
    t.motSt = (if r < s.stopRpm then 0 else 2) ∧ (r < s.stopRpm → t.mot.gates = 0)) ∧
  (s.motSt = 3 → Completes .alignEnd s fun t => t.motSt = 4 ∧ t.mot.openAt = s.mot.clk ∧ Only [.mot] [motStatus] s t) ∧
  (s.motSt = 4 → s.mot.fails < 2 → Completes .startTimeout s fun t => t.motSt = 6 ∧ t.mot.retry ∧ t.mot.fails = s.mot.fails + 1) ∧
  (s.motSt = 4 → 2 ≤ s.mot.fails → Completes .startTimeout s fun t => t.motSt = 7 ∧ t.rfld motStatus 16 16 = 0x1A0 ∧ t.rbit motInt 1) ∧
  (s.motSt = 6 → s.mot.retry → Completes .startRetry s fun t => t.motSt = 1 ∧ t.mot.retry = false) ∧
  (s.chopBrake = false → Completes .pfailInput s fun t => t.motSt = 6 ∧ t.rbit motStatus 6 ∧ t.rfld motStatus 16 16 = 0x1A3 ∧ t.rbit motInt 5 ∧
    t.alm.ploss ∧ ∀ a < 4, t.rbit actStatusAll (4 + a))

/-- The commands around a MOP complete (R267 to R285): submission, admission, completion, cancel, the store, ticks and the end sequence. -/
def Obligations.SequencerCommandsComplete : Prop :=
  ∀ (n : Fin 4) (s : State),
  (∀ w3, (s.ordP n).used < 64 → (s.ordP n).mop.isSome → Completes (.mopSubmit n w3) s fun t => (t.ordP n).queue.length = (s.ordP n).queue.length + 1 ∧
      ((t.ordP n).queue.getLast?.map fun m => (m.w0, m.w1, m.w2, m.w3)) = some (tget (fun _ => 0) (s.ordP n).submit 0, tget (fun _ =>
        0) (s.ordP n).submit 1, tget (fun _ => 0) (s.ordP n).submit 2, w3) ∧ SameBut [.ord] s t) ∧
  (∀ w3, 64 ≤ (s.ordP n).used → Completes (.mopSubmit n w3) s fun t => (t.ordP n).queue = (s.ordP n).queue ∧ t.rbit (ordInt n) 1 ∧
    RegsBut [ordInt n] s t) ∧
  (∀ find m ms, s.rbit (ordCtrl n) 0 → (s.ordP n).mop = none → (s.ordP n).queue = m :: ms → m.refused = 0 → s.actSt n ≠ 6 → s.disPending n = false →
    s.sramFind (22 + n) (m.opcode / 2) find = .clean → m.replayCells = 0 → fld ((s.ordP n).word m.opcode) 14 2 = 0 →
    s.rfld actGovUsed 0 16 ≤ s.rfld actGovBudget 0 16 → Completes (.mopAdmission n find) s fun t => (t.ordP n).phase = .running ∧
    (t.ordP n).mop = some m ∧ (t.ordP n).queue = ms ∧ (t.ordP n).pc = fld ((s.ordP n).word m.opcode) 0 14 ∧
        (t.ordP n).x = [] ∧ t.reg (ordEvtPend n) = 0) ∧
  (Completes (.ordCplPop n) s fun t => t.ordP n = { s.ordP n with cpls := (s.ordP n).cpls.drop 1 } ∧ SameBut [.ord] s t) ∧
  (∀ run, (run = true ∨ (s.ordP n).phase ≠ .admitting) → Completes (.ordRun n run) s fun t => t.rbit (ordCtrl n) 0 = run ∧ Only [] [ordCtrl n] s t) ∧
  (s.mopInFlight n → Completes (.ordCancel n) s fun t => t.rbit (ordEvtPend n) 20 ∧
    (t.ordP n).fatal = (if (s.ordP n).fatal = 0 then 0x1B5 else (s.ordP n).fatal) ∧ Only [.ord] [ordEvtPend n] s t) ∧
  (s.mopInFlight n = false → Completes (.ordCancel n) s fun t => t = s) ∧
  (Completes (.returnQueued n) s fun t => (t.ordP n).queue = [] ∧ (t.ordP n).cpls.length = (s.ordP n).cpls.length + (s.ordP n).queue.length + (if
    (s.ordP n).phase = .admitting ∧ (s.ordP n).mop.isSome then 1 else 0)) ∧
  (∀ (w : Fin 8192) v, 8192 * s.rfld (regAddr (bORD n) 0x14) 0 1 + w.val < 15360 → s.halted n → Completes (.ordWinWrite n w v) s fun t =>
    (t.ordP n).word (8192 * s.rfld (regAddr (bORD n) 0x14) 0 1 + w.val) = v) ∧
  (∀ (w : Fin 8192) v, 8192 * s.rfld (regAddr (bORD n) 0x14) 0 1 + w.val < 15360 → s.halted n = false → Completes (.ordWinWrite n w v) s fun t =>
    t.rbit (ordInt n) 5 ∧ (t.ordP n).store = (s.ordP n).store ∧ RegsBut [ordInt n] s t) ∧
  ((s.actP n).disableWait = false → s.mopInFlight n = false → Completes (.wedgeTick n) s fun t => (t.ordP n).tickWedge = tget (fun _ =>
    0) s.svo.wedge n ∧ (t.ordP n).budgetTicks = (s.ordP n).budgetTicks + 1 ∧ (t.ordP n).ticked ∧ SameBut [.ord] s t) ∧
  (∀ st k, (s.actP n).disableWait = false → (s.ordP n).phase = .draining st k → Completes (.syntheticTick n) s fun t =>
    (t.ordP n).phase = .draining st (k + 1) ∧ (t.ordP n).budgetTicks = (s.ordP n).budgetTicks + 1 ∧ SameBut [.ord] s t) ∧
  (s.mopInFlight n → (s.ordP n).overrun = true → (s.ordP n).mop.isSome → s.gov = [] → Completes (.pollOverrun n) s fun t =>
    (t.ordP n).phase = .draining 0x1B0 0 ∧ t.rbit (ordInt n) 4) ∧
  (∀ st k m, (s.ordP n).phase = .draining st k → (s.ordP n).mop = some m → (s.ordP n).gates = [] → (s.ordP n).replays = [] → s.disPending n = false →
    (s.ordP n).queue = [] → Completes (.endSequenceDrain n) s fun t => (t.ordP n).phase = .idle ∧ (t.ordP n).mop = none ∧
      (t.ordP n).cpls.length = (s.ordP n).cpls.length + 1) ∧
  (∀ info r p ps g m, s.heads (48 + n) = p :: ps → p.body = .sector info r → (s.ordP n).mop = some m → s.mopStarted n → r.source ≤ 0x10 →
    (s.ordP n).gates.find? (fun g => g.id == r.gateId) = some g → g.kind = .read → Completes (.sectorPacketDispatch n .clean) s fun t =>
      (t.ordP n).gates = (s.ordP n).gates.filter fun x => x.id != g.id) ∧
  (∀ c cs, (s.ordP n).cpls = c :: cs → (s.cq (60 + n)).pkts = [] → s.fw.relocs = [] →
    (s.fw.jobs.find? fun j => j.eng == n.val && j.tag == fld c.c0 0 16) = none → Completes (.firmwareMopCompletion n) s fun t =>
      t.ordP n = { s.ordP n with cpls := cs } ∧ SameBut [.ord] s t) ∧
  ((s.ring n).stage.isEmpty → Completes (.ringCloseTimeout n) s fun t => t = s) ∧
  ((s.ring n).stage.isEmpty = false → (s.ring n).len ≠ 0 → ((s.ring n).h + 1) % (s.ring n).len ≠ (s.ring n).q →
    (s.ring n).stripes.length + (s.ring n).pinned.length + 1 < (s.ring n).len → Completes (.ringCloseTimeout n) s fun t =>
      (t.ring n).h = ((s.ring n).h + 1) % (s.ring n).len ∧ (t.ring n).seq = (s.ring n).seq + 1 ∧
        (t.ring n).stage = (s.ring n).stage.drop ((s.ring n).d - 1) ∧ t.fw.jobs.length = s.fw.jobs.length + 1 ∧ SameBut [.fw] s t) ∧
  (∀ z x g, s.fw.zones.filter (fun e => e.2.st == .implOpen || e.2.st == .explOpen) = [(z, x)] → s.groupOf z = some g →
    Completes .vRecordTimer s fun t => (t.zone z).saved.v = s.liveV g z ∧ SameBut [.fw] s t) ∧
  (∀ m, (s.ordP n).phase = .admitting → (s.ordP n).mop = some m → Completes (.ordRun n false) s fun t => t.rbit (ordCtrl n) 0 = false ∧
    (t.ordP n).mop = none ∧ (t.ordP n).phase = .idle ∧ (t.ordP n).queue = m :: (s.ordP n).queue)

/-- Microwords that compute complete (R284, R286, Table 9.11): the engine's registers, flags and PC are these, and nothing else changes. -/
def Obligations.ComputingMicrowordsComplete : Prop :=
  ∀ (n : Fin 4) (find : EccFind) (s : State), (s.ordP n).phase = .running → (s.ordP n).overrun = false →
    s.sramFind (22 + n) ((s.ordP n).pc / 2) find = .clean →
    let o : Ord := { s.ordP n with pc := ((s.ordP n).pc + 1) % 16384, budgetWords := (s.ordP n).budgetWords + 1 }
    let w : W := (s.ordP n).word (s.ordP n).pc
    let a : W := o.xr (uxa w)
    let b : W := o.xr (uxb w)
    let alu (v : W) : Ord := { o.setX (uxd w) v with z := v == 0, n := v.getLsbD 31 }
    let runs (c : Instr) (code : Nat) (o' : Ord) : Prop := uop w = code → Completes c s fun t => t.ordP n = o' ∧ SameBut [.ord] s t
    runs (.nop n find) 0x00 o ∧ runs (.ldi n find) 0x01 (o.setX (uxd w) (BitVec.ofInt 32 (sext 18 (uimm18 w)))) ∧
      runs (.lui n find) 0x02 (o.setX (uxd w) (setFld (o.xr (uxd w)) 18 14 (uimm18 w))) ∧ runs (.add n find) 0x03 (alu (a + b)) ∧
      runs (.sub n find) 0x04 (alu (a - b)) ∧ runs (.and n find) 0x05 (alu (a &&& b)) ∧ runs (.or n find) 0x06 (alu (a ||| b)) ∧
      runs (.xor n find) 0x07 (alu (a ^^^ b)) ∧ runs (.addi n find) 0x08 (alu (a + uimm w)) ∧ runs (.andi n find) 0x09 (alu (a &&& BitVec.ofNat 32
      (fld w 0 14))) ∧ runs (.shli n find) 0x0A (alu (a <<< fld w 0 5)) ∧ runs (.shri n find) 0x0B (alu (a >>> fld w 0 5)) ∧
      runs (.cmp n find) 0x0C { o with z := a == b, n := a.slt b, c := a.ult b } ∧ runs (.cmpi n find) 0x0D
      { o with z := a == uimm w, n := a.slt (uimm w), c := a.ult (uimm w) } ∧
    (∀ m, o.mop = some m → runs (.ldd n find) 0x0E (o.setX (uxd w) (m.word (fld w 0 2)))) ∧ runs (.ldp n find) 0x0F (o.setX (uxd w) (o.pb (fld w 0
      5))) ∧ runs (.lds n find) 0x10 (o.setX (uxd w) (s.special n (fld w 0 4)))

/-- Microwords that branch, wait, act on the actuator or end the MOP complete (R208, R213, R281 to R289, Table 9.10). -/
def Obligations.ActingMicrowordsComplete : Prop :=
  ∀ (n : Fin 4) (find : EccFind) (s : State), (s.ordP n).phase = .running → (s.ordP n).overrun = false →
    s.sramFind (22 + n) ((s.ordP n).pc / 2) find = .clean →
    let o : Ord := { s.ordP n with pc := ((s.ordP n).pc + 1) % 16384, budgetWords := (s.ordP n).budgetWords + 1 }
    let w : W := (s.ordP n).word (s.ordP n).pc
    let a : W := o.xr (uxa w)
    let runs (c : Instr) (code : Nat) (o' : Ord) : Prop := uop w = code → Completes c s fun t => t.ordP n = o' ∧ SameBut [.ord] s t
    (o.cond (uxd w) = some true → targetOk (fld w 0 14) → runs (.br n find) 0x11 { o with pc := fld w 0 14 }) ∧
    (o.cond (uxd w) = some false → runs (.br n find) 0x11 o) ∧
    (uxd w = 0 → targetOk (fld w 0 14) → o.stack.length < 8 → runs (.call n find) 0x12 { o with stack := o.pc :: o.stack, pc := fld w 0 14 }) ∧
    (∀ r rs, o.stack = r :: rs → runs (.ret n find) 0x13 { o with stack := rs, pc := r }) ∧
    (uop w = 0x14 → o.fatal = 0 → Completes (.poll n find) s fun t => t.ordP n =
      { o.setX (uxd w) (BitVec.ofNat 32 (s.rfld (ordEvtPend n) 0 5)) with z := s.rfld (ordEvtPend n) 0 5 == 0, budgetWords := 0, budgetTicks := 0 } ∧
      t.rfld (ordEvtPend n) 0 5 = 0 ∧ RegsBut [ordEvtPend n] s t) ∧
    (o.fatal = 0 → s.waitCond n (uxd w) a = some true → runs (.wait n find) 0x15 { o with z := true }) ∧
    (o.fatal = 0 → s.waitCond n (uxd w) a = some false → s.rfld (ordEvtPend n) 0 5 = 0 → runs (.wait n find) 0x15
      { o with phase := .waiting (uxd w) a, ticked := false }) ∧
    (uop w = 0x16 → s.actSt n ≤ 1 → Completes (.seek n find) s fun t => (t.actP n).heldSeek = some (65536 * (a.toNat : Int)) ∧
      (t.actP n).settled = false ∧ t.ordP n = o ∧ SameBut [.act, .ord] s t) ∧
    (uop w = 0x16 → 2 ≤ s.actSt n → s.actSt n ≤ 4 → Completes (.seek n find) s fun t => (t.actP n).target = 65536 * (a.toNat : Int) ∧
      (t.actSt n = 3 ∨ t.actSt n = 4) ∧ t.ordP n = o) ∧
    (∀ m p, uop w = 0x17 → o.mop = some m → o.gangPositions a.toNat = [p] → o.gangHead p < 24 →
      ((o.pb (8 + p)).toInt + m.shift).natAbs ≤ 65536 * fld (if 2 ≤ s.actSt n ∧ s.actSt n ≤ 4 then (s.actP n).settleCfg else s.reg (actReg n 0xC)) 24
        8 → s.rbit (actHeaddis n) (o.gangHead p) = false → (s.loop (8 + 24 * n.val + o.gangHead p)).desc.enable → Completes (.gang n find) s fun t =>
        t.rfld (actGang n) 0 24 = 2 ^ o.gangHead p ∧ t.ordP n = o.setX (uxd w) (BitVec.ofNat 32 (2 ^ o.gangHead p)) ∧
        t.reg (regAddr bACT (0x1000 + 0x100 * n + 4 * o.gangHead p)) = BitVec.ofInt 32 ((o.pb (8 + p)).toInt + m.shift)) ∧
    (uop w = 0x18 → bitAt w 17 = false → (fld w 0 8 + fld a 0 8) % 256 = 0x21 → s.gateOpen (bCHN n) → Completes (.strobe n find) s fun t =>
      (∀ h < 24, (t.slot n h).hold = ((s.slot n h).hold || (o.xr (uxd w)).toNat.testBit h)) ∧ t.ordP n = o ∧ SameBut [.ord, .chn] s t) ∧
    (∀ k, gateKind (fld w 12 2) = some k → s.gateRefused n (o.xr (uxb w)).toNat k → runs (.gate n find) 0x19 { o with z := false }) ∧
    (∀ h, uop w = 0x19 → fld w 12 2 = 0 → s.gateRefused n (o.xr (uxb w)).toNat .read = false → maskBits 24 (o.xr (uxd w)).toNat = [h] →
      s.rsvOutcome (48 + n) 17 = .granted → Completes (.gate n find) s fun t => (t.ordP n).z ∧ (t.ordP n).want = (0, 0) ∧
        (t.ordP n).gates = o.gates ++ s.headGates n h a.toNat (o.xr (uxb w)).toNat .read o.nextGate (s.gatePass n (o.xr (uxb w)).toNat .read)) ∧
    (∀ m, o.mop = some m → m.area ≠ 0 → runs (.ldband n find) 0x1A { o with z := true }) ∧
    (∀ m, uop w = 0x1A → o.mop = some m → m.area = 0 → rewindMark o.sPerTrack (o.pb 3).toNat ≤ m.stripe → m.stripe ≤ (o.pb 3).toNat →
      m.stripe < guardBound o.sPerTrack (rewindMark o.sPerTrack (o.pb 3).toNat) → Completes (.ldband n find) s fun t =>
      t.ordP n = { o with band := true, startV := (o.pb 3).toNat, z := false } ∧ t.reg (wpaPosW n) = BitVec.ofNat 32 m.stripe ∧
      t.reg (wpaPosV n) = BitVec.ofNat 32 (o.pb 3).toNat ∧ t.rewindSt n = 0) ∧
    (uop w = 0x1B → o.mop.isSome → s.gov = [] → Completes (.fin n find) s fun t => (t.ordP n).phase = .draining (fld a 0 16) 0) ∧
    (0x1C ≤ uop w → o.mop.isSome → s.gov = [] → Completes (.reservedMicroword n find) s fun t => (t.ordP n).phase = .draining 0x1B3 0 ∧
      t.rbit (ordCtrl n) 0 = false ∧ t.rbit (ordInt n) 3)

/-- A suspended routine goes on when what it waits for holds (R284, Table 9.10). -/
def Obligations.WaitReturnCompletes : Prop :=
  ∀ (n : Fin 4) (s : State) c xa, (s.ordP n).phase = .waiting c xa → (s.ordP n).fatal = 0 → (s.ordP n).overrun = false →
    (s.waitCond n c xa = some true → Completes (.waitReturn n) s fun t => t.ordP n = { s.ordP n with phase := .running, z := true } ∧
      SameBut [.ord] s t) ∧
    (s.waitCond n c xa = some false → ((s.ordP n).ticked ∨ s.rfld (ordEvtPend n) 0 5 ≠ 0) → Completes (.waitReturn n) s fun t =>
      t.ordP n = { s.ordP n with phase := .running, z := false } ∧ SameBut [.ord] s t) ∧
    (s.waitCond n c xa = some false → (s.ordP n).ticked = false → s.rfld (ordEvtPend n) 0 5 = 0 → Completes (.waitReturn n) s fun t => t = s)

/-- The commands of Lantern and the buffer complete (R327, R331 to R345). -/
def Obligations.LanternCommandsComplete : Prop :=
  ∀ s : State,
  (∀ acc : BufAcc, acc.data = none → acc.got = [] → acc.status = 0 → 0 < acc.len → acc.addr % 128 + acc.len ≤ 128 → acc.addr < s.bufLimit →
    acc.addr < spadBase → s.rbit lntStatus 0 = false → s.rbit lntStatus 8 → s.rbit memStatus 0 → s.rbit memStatus 2 = false →
    s.lineCopying (acc.addr / 128) = false → s.wayOf (acc.addr / 128) = none →
    (∀ e ∈ s.lnt.evb, e.line ≠ acc.addr / 128) → Completes (.bufferAccess acc) s fun t =>
      let r := s.memPiece { line := acc.addr / 128, off := acc.addr % 128, data := none, len := acc.len } acc.mem acc.symbol;
      t.out = .bufReply (acc.addr + acc.len) r.2.1 r.2.2 :: r.1.out ∧ t.mem = r.1.mem) ∧
  (∀ acc : BufAcc, acc.data = none → acc.got = [] → acc.status = 0 → 0 < acc.len → acc.addr % 128 + acc.len ≤ 128 → s.bufLimit ≤ acc.addr →
    acc.addr < spadBase → s.rbit lntStatus 0 = false → Completes (.bufferAccess acc) s fun t => t.out = .bufReply (acc.addr + acc.len) 0x13
    (List.replicate acc.len 0) :: s.out ∧ t.rbit bufInt 5 ∧ Only [.out] [bufInt] s t) ∧
  (∀ line e, (s.lnt.evb.find? fun e => e.line == line) = some e → s.lnt.waiting = [] → Completes (.evictionWritebackAck line) s fun t =>
    t.lnt.evb = s.lnt.evb.filter (fun x => x.line != line)) ∧
  (s.rbit lntStatus 0 → s.lnt.waiting = [] → Completes .lntInitDone s fun t => t.rbit lntStatus 0 = false ∧ t.rbit lntInt 0 ∧
    Only [] [lntStatus, lntInt] s t) ∧
  (∀ n : Fin 16, n.val ≤ 12 → n.val ≠ s.spadWays → s.rbit lntStatus 0 = false → s.rbit lntStatus 1 = false → s.rbit lntStatus 8 = false →
    Completes (.lntSpadChange n) s fun t => t.spadWays = n.val ∧ t.rbit lntStatus 1 ∧ t.lnt.changing) ∧
  (∀ n : Fin 16, 12 < n.val → n.val ≠ s.spadWays → Completes (.lntSpadChange n) s fun t => t.rbit lntInt 6 ∧ t.spadWays = s.spadWays) ∧
  (s.lnt.changing → s.lnt.waiting = [] → Completes .lntSpadDone s fun t => t.lnt.changing = false ∧ t.spadActive = s.spadWays ∧
    t.rbit lntStatus 1 = false ∧ t.rbit lntInt 5 ∧ RegsBut [lntStatus, lntInt] s t) ∧
  (s.rbit lntCtrl 0 → s.rbit lntStatus 8 = false → s.rbit lntStatus 0 = false → s.rbit lntStatus 1 = false → Completes .lntDisable s fun t =>
    t.lnt.disabling ∧ t.rbit lntStatus 1) ∧
  (s.lnt.disabling → Completes .lntDisableDone s fun t => t.lnt.disabling = false ∧ t.rbit lntStatus 8 ∧ t.rbit lntCtrl 0 = false ∧ t.rbit lntInt 1) ∧
  (s.rbit lntCtrl 0 = false → s.rbit lntStatus 0 = false → s.rbit lntStatus 1 = false → Completes .lntEnable s fun t => t.rbit lntCtrl 0 ∧
    t.rbit lntStatus 8 = false ∧ RegsBut [lntCtrl, lntStatus] s t) ∧
  (∀ (op : Fin 4) all, op ≠ 0 → s.lnt.rm = none → Completes (.lntRmGo op all) s fun t => t.lnt.rm = some
    { op := op, start := s.rfld (regAddr bLNT 0x10) 0 29, len := s.rfld (regAddr bLNT 0x14) 0 29, all := all } ∧ t.rbit lntStatus 2 ∧
    Only [.lnt] [regAddr bLNT 0x18, lntStatus] s t) ∧
  (∀ r, s.lnt.rm = some r → s.lnt.rmq = none → s.lnt.disabling = false → s.lnt.waiting = [] → Completes .lntRmDone s fun t => t.lnt.rm = none ∧
    t.rbit lntInt 2 ∧ t.rbit lntStatus 2 = false)

/-- The commands of the error-correcting memories and of the parity engine complete (R324, R335 to R337, R346, R349). -/
def Obligations.MemoryCommandsComplete : Prop :=
  ∀ s : State,
  (∀ (g : Fin 32) (e : Fin 8) v, s.rbit (bufRemap g e) 1 = false → (bitAt v 0 = false ∨ ((∀ x < 8, x ≠ e.val → s.bufNames g x (fld v 4 14) = false) ∧
    s.bufNames g e (fld v 4 14) = false)) → Completes (.bufRemapWrite g e v) s fun t => t.reg (bufRemap g e) = putBit (v &&& 0x3FFF1) 1 (bitAt v 0) ∧
    RegsBut [bufRemap g e] s t) ∧
  (∀ (c : Fin 4) (e : Fin 16) v, s.rbit (memRemap c e) 1 = false →
    (bitAt v 0 = false ∨ ∀ x < 16, x ≠ e.val → s.memNames c x (fld v 4 24) = false) → Completes (.memRemapWrite c e v) s fun t =>
      t.rbit (memRemap c e) 0 = bitAt v 0 ∧ t.rfld (memRemap c e) 4 24 = fld v 4 24 ∧ Only [] [memRemap c e] s t) ∧
  (∀ (g : Fin 32) (e : Fin 16), e.val < 8 → s.rbit (bufRemap g e) 1 → s.lnt.waiting = [] → Completes (.remapCopyDone false g e) s fun t =>
    t.rbit (bufRemap g e) 1 = false ∧ RegsBut [bufRemap g e] s t) ∧
  (∀ (c : Fin 32) (e : Fin 16), c.val < 4 → s.rbit (memRemap c e) 1 → s.lnt.waiting = [] → Completes (.remapCopyDone true c e) s fun t =>
    t.rbit (memRemap c e) 1 = false ∧ t.rbit memInt 4) ∧
  (∀ find sy, s.rfld (regAddr bMEM 0x14) 0 16 ≠ 0 → s.rbit memStatus 0 → s.rbit memStatus 2 = false → s.mem.patrol + 1 < s.bufLimit / 64 →
    Completes (.memScrubPatrol find sy) s fun t => t.mem.patrol = s.mem.patrol + 1) ∧
  (Completes .bufEccTestArm s fun t => t.rbit (regAddr bBUF 0x14) 5 ∧ Only [] [regAddr bBUF 0x14] s t) ∧
  (Completes .memEccTestArm s fun t => t.rbit (regAddr bMEM 0x2C) 0 ∧ Only [] [regAddr bMEM 0x2C] s t) ∧
  (s.rbit memStatus 0 = false → Completes .memInit s fun t => t.rbit memStatus 1 ∧ t.rfld memStatus 4 4 = 0 ∧ t.rbit memStatus 3 = false ∧
    t.mem = { s.mem with density := s.rfld (regAddr bMEM 0x10) 0 2 } ∧ RegsBut [memStatus] s t) ∧
  (s.rbit memStatus 0 → Completes .memInit s fun t => t = s) ∧
  (s.rbit memStatus 1 → s.lnt.waiting = [] → Completes (.memTrainingDone 15) s fun t => t.rbit memStatus 0 ∧ t.rbit memStatus 1 = false ∧
    t.rfld memStatus 4 4 = 15 ∧ RegsBut [memStatus] s t) ∧
  (∀ c : BitVec 4, c ≠ 15 → s.rbit memStatus 1 → Completes (.memTrainingDone c) s fun t => t.rbit memStatus 3 ∧ t.rbit memStatus 1 = false ∧
    t.rfld memStatus 4 4 = c.toNat ∧ t.rbit memInt 5 ∧ RegsBut [memStatus, memInt] s t) ∧
  (∀ req, s.buf.par = none → Completes (.parityRequest req) s fun t => t.buf.par = some req ∧ t.buf.parq = s.buf.parq ∧
    t.reg (regAddr bBUF 0x4) = BitVec.ofNat 32 (1 + 2 * s.buf.parq.length) ∧ RegsBut [regAddr bBUF 0x4] s t) ∧
  (∀ req cur, s.buf.par = some cur → s.buf.parq.length < 32 → req.rebuild = false → Completes (.parityRequest req) s fun t => t.buf.par = some cur ∧
    t.buf.parq = s.buf.parq ++ [req] ∧ RegsBut [regAddr bBUF 0x4] s t) ∧
  (∀ find r, s.buf.par = some r → s.parWaits r = false → r.rebuild = false → Completes (.parityDone find) s fun t =>
    ∃ st, t.out.head? = some (.parityResult r.tag false st))

/-- The cell pool's commands complete (R350 to R366). -/
def Obligations.CellPoolCommandsComplete : Prop :=
  ∀ s : State,
  (∀ (q : Fin 1024) body, ¬ (q.val < 32 ∧ s.onChain q) → s.qEnabled q → s.poolUp → (s.cq q).waitPkts = [] → s.qRoom q body.length →
    (s.reg (cplCtr 0).addr).toNat + 1 < 2 ^ 32 - 1 → Completes (.packetWrite q body) s fun t => (t.cq q).pkts = (s.cq q).pkts ++
    [⟨.bytes body, body.length, false⟩] ∧ (t.cq q).resv = (s.cq q).resv - cellsOf body.length ∧
        (t.cq q).pktCount = (s.cq q).pktCount + 1 ∧ (∀ k, k ≠ q.val → t.cq k = s.cq k) ∧
        (t.reg (cplCtr 0).addr).toNat = (s.reg (cplCtr 0).addr).toNat + 1 ∧ Only [.cellq] [(cplCtr 0).addr] s t) ∧
  (∀ (q : Fin 1024) body, 32 ≤ q.val → s.qEnabled q = false → Completes (.packetWrite q body) s fun t => t = s.emit (.poolStatus q 0x21)) ∧
  (∀ (q : Fin 1024) inH p ps, s.heads q = p :: ps → (∀ k, (s.cq k).waitPkts = []) → Completes (.packetTake q .clean inH) s fun t =>
    (t.cq q).pkts = ps ∧ t.out = .packet q (if 40 ≤ q.val ∧ q.val < 44 then s.deciphered p.body else p.body) p.poison :: s.out ∧
    (t.cq q).freedCount = (s.cq q).freedCount + BitVec.ofNat 16 (cellsOf p.bytes) ∧ RegsBut [] s t ∧ SameBut [.cellq, .fw, .out] s t) ∧
  (∀ (a b : Fin 1024) p ps, s.heads a = p :: ps → a ≠ b → (∀ k, (s.cq k).waitPkts = []) → Completes (.packetRelink a b) s fun t =>
    (t.cq a).pkts = ps ∧ (t.cq b).pkts = (s.cq b).pkts ++ [p] ∧ (∀ k, k ≠ a.val → k ≠ b.val → t.cq k = s.cq k) ∧ SameBut [.cellq] s t) ∧
  (∀ (q : Fin 1024) n, s.rsvOutcome q n = .granted → Completes (.reservationRequest q n) s fun t =>
    t.cq q = { s.cq q with resv := (s.cq q).resv + n } ∧ SameBut [.cellq] s t) ∧
  (∀ (q : Fin 1024) n ns, (s.cq q).waitResv = n :: ns → s.poolUp → s.qFits q n → Completes (.reservationGrant q) s fun t =>
    t.cq q = { s.cq q with waitResv := ns, resv := (s.cq q).resv + n } ∧ SameBut [.cellq] s t) ∧
  (∀ (q : Fin 1024) v, s.shareOk q v → (∀ k, (s.cq k).waitPkts = []) → Completes (.cplShareWrite q v) s fun t => t.reg (cplQShare q) = v ∧
    Only [] [cplQShare q] s t) ∧
  (∀ (q : Fin 1024) v, s.shareOk q v = false → Completes (.cplShareWrite q v) s fun t => t.rbit cplInt 5 ∧ Only [] [cplInt] s t) ∧
  (∀ q : Fin 1024, s.qEnabled q = false → (∀ k, (s.cq k).waitPkts = []) → Completes (.cplQueueReset q) s fun t => (t.cq q).pkts = [] ∧
    (t.cq q).resv = 0 ∧
    (t.cq q).pktCount = 0 ∧ (∀ k, k ≠ q.val → t.cq k = s.cq k) ∧ SameBut [.cellq] s t) ∧
  (∀ q : Fin 1024, s.qEnabled q → Completes (.cplQueueReset q) s fun t => t = s) ∧
  (Completes .cplPoolReset s fun t => (∀ q, (t.cq q).pkts = []) ∧ t.rbit cplStatus 0 ∧ t.rbit cplStatus 1 = false ∧ t.rbit cplStatus 2 = false) ∧
  (s.poolInit → (∀ k, (s.cq k).waitPkts = []) → Completes .cplInitDone s fun t => t.rbit cplStatus 0 = false ∧ t.rbit cplStatus 2 ∧ t.rbit cplInt 0 ∧
    Only [] [cplStatus, cplInt] s t) ∧
  (∀ (q : Fin 32) body, s.onChain q → partsOf body.length ≤ 16 → (s.cq q).stages + partsOf body.length ≤ 16 → (s.cq q).waitPkts = [] →
    (s.reg (cplCtr 3).addr).toNat + 1 < 2 ^ 32 - 1 → Completes (.chainItemEnter q body) s fun t =>
      (t.cq q).chain = (s.cq q).chain ++ [⟨.bytes body, body.length, false⟩] ∧ Only [.cellq] [(cplCtr 3).addr] s t) ∧
  (∀ (q : Fin 32) p ps, 6 ≤ q.val → (s.cq q).pkts = [] → (s.cq q).lost = 0 → (s.cq q).chain = p :: ps → (∀ k, (s.cq k).waitPkts = []) →
    Completes (.chainItemTake q) s fun t => (t.cq q).chain = ps ∧ t.out = .packet q p.body p.poison :: s.out ∧ SameBut [.cellq, .out] s t) ∧
  (∀ q : Fin 32, 6 ≤ q.val → (s.cq q).pkts = [] → (s.cq q).lost ≠ 0 → Completes (.chainItemTake q) s fun t => (t.cq q).lost = 0 ∧
    t.out = .lostNotice q (s.cq q).lost :: s.out ∧ SameBut [.cellq, .out] s t)
end

