-- ==== Sys2Proof/Laws/FrameBase.lean ====
section
/-!
SUPPORT. What every operation leaves alone: the parts of the state and the register windows it has nothing to do with, and the
canonical form of the register table. `Fr P r s` says that `s` is `r` as to scope `P` (a part of the state, or the registers of a
block's window), and that the register table, LPDDR6 and the flash of `s` are canonical if those of `r` are; each lemma `<operation>_frame` carries it through
one operation, for every scope outside the set of scopes that the operation touches.
-/
namespace Sys2Proof.Machine

/-- The number of a part in a set of scopes written as a number. -/
def Part.idx : Part → Nat
  | .regs => 0
  | .groups => 1
  | .ulk => 2
  | .ltime => 3
  | .chn => 4
  | .wpa => 5
  | .svo => 6
  | .act => 7
  | .gov => 8
  | .mot => 9
  | .ord => 10
  | .lnt => 11
  | .mem => 12
  | .buf => 13
  | .cellq => 14
  | .hif => 15
  | .ctx => 16
  | .fw => 17
  | .jub => 18
  | .vgl => 19
  | .pwr => 20
  | .clk => 21
  | .fls => 22
  | .sec => 23
  | .dbg => 24
  | .cal => 25
  | .alm => 26
  | .mgt => 27
  | .out => 28
  | .free => 29
  | .pending => 30

/-- The block whose window holds an address. -/
def blkOf (a : Nat) : Nat := (a - 0x10000000) / 0x10000

/-- A part of the state, or the registers of a block's window. -/
inductive Scope where
  | part (p : Part)
  | win (b : Nat)

/-- The scope is the same in two states. -/
def Scope.same (s t : State) : Scope → Prop
  | .part p => p.same s t
  | .win b => ∀ a, blkOf a = b → t.reg a = s.reg a

/-- The scope is not in the set: bit `i` stands for part `i`, bit 0 for any register, bit 31 + b for the window of block b. -/
def Scope.outside (m : Nat) : Scope → Prop
  | .part .regs => m % 2 = 0 ∧ m < 2 ^ 31
  | .part p => m.testBit p.idx = false
  | .win b => m.testBit 0 = false ∧ m.testBit (31 + b) = false

/-- The set of the registers of one block's window. -/
def blkMask (b : Nat) : Nat := 2 ^ (31 + b)

/-- The set of the registers of the window that holds an address. -/
def winMask (a : Nat) : Nat := blkMask (blkOf a)

theorem testBit_sub {m k i : Nat} (hk : (k ||| m) = m) (h : m.testBit i = false) : k.testBit i = false := by
  rw [← hk, Nat.testBit_or, Bool.or_eq_false_iff] at h
  exact h.1

/-- What is outside a set is outside each of its subsets. -/
theorem Scope.outside_mono {P : Scope} {m k : Nat} (hp : P.outside m) (hk : (k ||| m) = m) : P.outside k := by
  have hle : k ≤ m := hk ▸ Nat.left_le_or
  have h0 : m % 2 = 0 → k % 2 = 0 := fun h => by
    have : m.testBit 0 = false := by simp [Nat.testBit_zero, h]
    simpa [Nat.testBit_zero] using testBit_sub hk this
  cases P with
  | win b => exact ⟨testBit_sub hk hp.1, testBit_sub hk hp.2⟩
  | part p => cases p <;> first | exact ⟨h0 hp.1, Nat.lt_of_le_of_lt hle hp.2⟩ | exact testBit_sub hk hp

/-- `s` is `r` as to `P`, and the register table, LPDDR6 and the flash of `s` are canonical if those of `r` are. -/
def Fr (P : Scope) (r s : State) : Prop := P.same r s ∧ (r.RegsOk → s.RegsOk) ∧ (r.MemOk → s.MemOk)

theorem Scope.same_refl (P : Scope) (s : State) : P.same s s := by
  cases P with
  | win b => exact fun _ _ => rfl
  | part p => cases p <;> rfl

theorem Scope.same_trans {P : Scope} {r s t : State} (h : P.same r s) (h' : P.same s t) : P.same r t := by
  cases P with
  | win b => exact fun a ha => (h' a ha).trans (h a ha)
  | part p => cases p <;> exact Eq.trans h' h

@[simp] theorem Fr.refl {P : Scope} (s : State) : Fr P s s := ⟨P.same_refl s, id, id⟩

theorem Fr.trans {P : Scope} {r s t : State} (h : Fr P r s) (h' : Fr P s t) : Fr P r t :=
  ⟨Scope.same_trans h.1 h'.1, fun k => h'.2.1 (h.2.1 k), fun k => h'.2.2 (h.2.2 k)⟩

/-! ## Tables -/

theorem twfFrom_mono {α : Type} [DecidableEq α] (d : Nat → α) : ∀ (t : Tbl α) (a b : Nat), a ≤ b → twfFrom d b t = true → twfFrom d a t = true
  | [], _, _, _, _ => rfl
  | (k, v) :: t, a, b, hab, h => by
    simp only [twfFrom, Bool.and_eq_true, decide_eq_true_eq] at h ⊢
    exact ⟨⟨Nat.le_trans hab h.1.1, h.1.2⟩, h.2⟩

theorem twfFrom_filter {α : Type} [DecidableEq α] (d : Nat → α) (p : Nat × α → Bool) :
    ∀ (t : Tbl α) (lo : Nat), twfFrom d lo t = true → twfFrom d lo (t.filter p) = true
  | [], _, _ => rfl
  | (k, v) :: t, lo, h => by
    simp only [twfFrom, Bool.and_eq_true, decide_eq_true_eq] at h
    rw [List.filter_cons]
    split
    · simp only [twfFrom, Bool.and_eq_true, decide_eq_true_eq]
      exact ⟨h.1, twfFrom_filter d p t (k + 1) h.2⟩
    · exact twfFrom_mono d _ lo (k + 1) (by omega) (twfFrom_filter d p t (k + 1) h.2)

theorem twfFrom_tset {α : Type} [DecidableEq α] (d : Nat → α) :
    ∀ (t : Tbl α) (lo k : Nat) (v : α), lo ≤ k → twfFrom d lo t = true → twfFrom d lo (tset d t k v) = true
  | [], lo, k, v, hk, _ => by
    unfold tset; split
    · rfl
    · simp [twfFrom, *]
  | (k', v') :: t, lo, k, v, hk, h => by
    have h0 := h
    simp only [twfFrom, Bool.and_eq_true, decide_eq_true_eq] at h
    obtain ⟨⟨h1, h2⟩, h3⟩ := h
    unfold tset; split
    · split
      · simp only [twfFrom, Bool.and_eq_true, decide_eq_true_eq]
        exact ⟨⟨h1, h2⟩, twfFrom_filter d _ t (k' + 1) h3⟩
      · rename_i hlt hv
        simp [twfFrom, h2, h3, hk, hv]; omega
    · split
      · rename_i hlt heq
        split
        · exact twfFrom_mono d _ lo (k' + 1) (by omega) (twfFrom_filter d _ t (k' + 1) h3)
        · subst heq; rename_i hv; simp [twfFrom, h1, hv, h3]
      · rename_i hlt hne
        simp only [twfFrom, Bool.and_eq_true, decide_eq_true_eq]
        exact ⟨⟨h1, h2⟩, twfFrom_tset d t (k' + 1) k v (by omega) h3⟩

@[simp] theorem twf_nil {α : Type} [DecidableEq α] (d : Nat → α) : twf d [] = true := rfl

/-- A write keeps the canonical form. -/
theorem twf_tset {α : Type} [DecidableEq α] (d : Nat → α) (t : Tbl α) (k : Nat) (v : α) (h : twf d t = true) : twf d (tset d t k v) = true :=
  twfFrom_tset d t 0 k v (Nat.zero_le _) h

/-- Dropping a range of keys keeps the canonical form. -/
theorem twf_tdrop {α : Type} [DecidableEq α] (d : Nat → α) (t : Tbl α) (lo hi : Nat) (h : twf d t = true) : twf d (tdrop t lo hi) = true :=
  twfFrom_filter d _ t 0 h

theorem tget_filter_same {α : Type} (d : Nat → α) (k : Nat) : ∀ t : Tbl α, tget d (t.filter fun e => e.1 != k) k = d k
  | [] => rfl
  | (k', v') :: t => by
    by_cases h : k' = k
    · simpa [List.filter_cons, h] using tget_filter_same d k t
    · simpa [List.filter_cons, h, tget, Ne.symm h] using tget_filter_same d k t

theorem tget_filter_other {α : Type} (d : Nat → α) (k j : Nat) (h : j ≠ k) :
    ∀ t : Tbl α, tget d (t.filter fun e => e.1 != k) j = tget d t j
  | [] => rfl
  | (k', v') :: t => by
    have ih := tget_filter_other d k j h t
    by_cases hk : k' = k
    · subst hk; simpa [List.filter_cons, tget, h] using ih
    · simp [hk, tget, ih]

/-- What has been written reads back. -/
@[simp] theorem tget_tset_same {α : Type} [DecidableEq α] (d : Nat → α) : ∀ (t : Tbl α) (k : Nat) (v : α), tget d (tset d t k v) k = v
  | [], k, v => by
    unfold tset; split
    · rename_i hv; simp [tget, hv]
    · simp [tget]
  | (k', v') :: t, k, v => by
    unfold tset; split
    · rename_i hlt
      split
      · rename_i hv
        unfold tget; rw [if_neg (by omega), tget_filter_same, hv]
      · simp [tget]
    · split
      · split
        · rename_i hv; rw [tget_filter_same, hv]
        · simp [tget]
      · rename_i hne
        unfold tget; rw [if_neg hne]
        exact tget_tset_same d t k v

/-- A write leaves every other key alone. -/
theorem tget_tset_other {α : Type} [DecidableEq α] (d : Nat → α) : ∀ (t : Tbl α) (k j : Nat) (v : α), j ≠ k → tget d (tset d t k v) j = tget d t j
  | [], k, j, v, h => by
    unfold tset; split
    · rfl
    · simp [tget, h]
  | (k', v') :: t, k, j, v, h => by
    unfold tset; split
    · split
      · simp only [tget]; rw [tget_filter_other d k j h t]
      · simp [tget, h]
    · split
      · rename_i heq; subst heq
        split
        · rw [tget_filter_other d k j h t]; simp [tget, h]
        · simp [tget, h]
      · simp only [tget]
        rw [tget_tset_other d t k j v h]

/-! ## One field, registers, and the combinators -/

@[simp] theorem Fr.with_groups {P : Scope} {r s : State} {v} (hp : P.outside 0x2) (h : Fr P r s) :
    Fr P r { s with groups := v } := by
  refine ⟨?_, h.2⟩
  cases P with
  | win b => exact h.1
  | part p => cases p <;> first | exact h.1 | exact absurd hp (by unfold Scope.outside; decide)

@[simp] theorem Fr.with_ulk {P : Scope} {r s : State} {v} (hp : P.outside 0x4) (h : Fr P r s) :
    Fr P r { s with ulk := v } := by
  refine ⟨?_, h.2⟩
  cases P with
  | win b => exact h.1
  | part p => cases p <;> first | exact h.1 | exact absurd hp (by unfold Scope.outside; decide)

@[simp] theorem Fr.with_ltime {P : Scope} {r s : State} {v} (hp : P.outside 0x8) (h : Fr P r s) :
    Fr P r { s with ltime := v } := by
  refine ⟨?_, h.2⟩
  cases P with
  | win b => exact h.1
  | part p => cases p <;> first | exact h.1 | exact absurd hp (by unfold Scope.outside; decide)

@[simp] theorem Fr.with_chn {P : Scope} {r s : State} {v} (hp : P.outside 0x10) (h : Fr P r s) :
    Fr P r { s with chn := v } := by
  refine ⟨?_, h.2⟩
  cases P with
  | win b => exact h.1
  | part p => cases p <;> first | exact h.1 | exact absurd hp (by unfold Scope.outside; decide)

@[simp] theorem Fr.with_wpa {P : Scope} {r s : State} {v} (hp : P.outside 0x20) (h : Fr P r s) :
    Fr P r { s with wpa := v } := by
  refine ⟨?_, h.2⟩
  cases P with
  | win b => exact h.1
  | part p => cases p <;> first | exact h.1 | exact absurd hp (by unfold Scope.outside; decide)

@[simp] theorem Fr.with_svo {P : Scope} {r s : State} {v} (hp : P.outside 0x40) (h : Fr P r s) :
    Fr P r { s with svo := v } := by
  refine ⟨?_, h.2⟩
  cases P with
  | win b => exact h.1
  | part p => cases p <;> first | exact h.1 | exact absurd hp (by unfold Scope.outside; decide)

@[simp] theorem Fr.with_act {P : Scope} {r s : State} {v} (hp : P.outside 0x80) (h : Fr P r s) :
    Fr P r { s with act := v } := by
  refine ⟨?_, h.2⟩
  cases P with
  | win b => exact h.1
  | part p => cases p <;> first | exact h.1 | exact absurd hp (by unfold Scope.outside; decide)

@[simp] theorem Fr.with_gov {P : Scope} {r s : State} {v} (hp : P.outside 0x100) (h : Fr P r s) :
    Fr P r { s with gov := v } := by
  refine ⟨?_, h.2⟩
  cases P with
  | win b => exact h.1
  | part p => cases p <;> first | exact h.1 | exact absurd hp (by unfold Scope.outside; decide)

@[simp] theorem Fr.with_mot {P : Scope} {r s : State} {v} (hp : P.outside 0x200) (h : Fr P r s) :
    Fr P r { s with mot := v } := by
  refine ⟨?_, h.2⟩
  cases P with
  | win b => exact h.1
  | part p => cases p <;> first | exact h.1 | exact absurd hp (by unfold Scope.outside; decide)

@[simp] theorem Fr.with_ord {P : Scope} {r s : State} {v} (hp : P.outside 0x400) (h : Fr P r s) :
    Fr P r { s with ord := v } := by
  refine ⟨?_, h.2⟩
  cases P with
  | win b => exact h.1
  | part p => cases p <;> first | exact h.1 | exact absurd hp (by unfold Scope.outside; decide)

@[simp] theorem Fr.with_lnt {P : Scope} {r s : State} {v} (hp : P.outside 0x800) (h : Fr P r s) :
    Fr P r { s with lnt := v } := by
  refine ⟨?_, h.2⟩
  cases P with
  | win b => exact h.1
  | part p => cases p <;> first | exact h.1 | exact absurd hp (by unfold Scope.outside; decide)

@[simp] theorem Fr.with_mem {P : Scope} {r s : State} {v} (hp : P.outside 0x1000)
    (hm : twf goodUnit s.mem.units = true → twf goodUnit v.units = true) (h : Fr P r s) :
    Fr P r { s with mem := v } := by
  refine ⟨?_, h.2.1, fun k => ⟨hm (h.2.2 k).1, (h.2.2 k).2⟩⟩
  cases P with
  | win b => exact h.1
  | part p => cases p <;> first | exact h.1 | exact absurd hp (by unfold Scope.outside; decide)

@[simp] theorem Fr.mem_reset {P : Scope} {r s : State} (hp : P.outside 0x1000) (h : Fr P r s) : Fr P r { s with mem := {} } :=
  Fr.with_mem hp (fun _ => rfl) h

@[simp] theorem Fr.with_buf {P : Scope} {r s : State} {v} (hp : P.outside 0x2000) (h : Fr P r s) :
    Fr P r { s with buf := v } := by
  refine ⟨?_, h.2⟩
  cases P with
  | win b => exact h.1
  | part p => cases p <;> first | exact h.1 | exact absurd hp (by unfold Scope.outside; decide)

@[simp] theorem Fr.with_cellq {P : Scope} {r s : State} {v} (hp : P.outside 0x4000) (h : Fr P r s) :
    Fr P r { s with cellq := v } := by
  refine ⟨?_, h.2⟩
  cases P with
  | win b => exact h.1
  | part p => cases p <;> first | exact h.1 | exact absurd hp (by unfold Scope.outside; decide)

@[simp] theorem Fr.with_hif {P : Scope} {r s : State} {v} (hp : P.outside 0x8000) (h : Fr P r s) :
    Fr P r { s with hif := v } := by
  refine ⟨?_, h.2⟩
  cases P with
  | win b => exact h.1
  | part p => cases p <;> first | exact h.1 | exact absurd hp (by unfold Scope.outside; decide)

@[simp] theorem Fr.with_ctx {P : Scope} {r s : State} {v} (hp : P.outside 0x10000) (h : Fr P r s) :
    Fr P r { s with ctx := v } := by
  refine ⟨?_, h.2⟩
  cases P with
  | win b => exact h.1
  | part p => cases p <;> first | exact h.1 | exact absurd hp (by unfold Scope.outside; decide)

@[simp] theorem Fr.with_fw {P : Scope} {r s : State} {v} (hp : P.outside 0x20000) (h : Fr P r s) :
    Fr P r { s with fw := v } := by
  refine ⟨?_, h.2⟩
  cases P with
  | win b => exact h.1
  | part p => cases p <;> first | exact h.1 | exact absurd hp (by unfold Scope.outside; decide)

@[simp] theorem Fr.with_jub {P : Scope} {r s : State} {v} (hp : P.outside 0x40000) (h : Fr P r s) :
    Fr P r { s with jub := v } := by
  refine ⟨?_, h.2⟩
  cases P with
  | win b => exact h.1
  | part p => cases p <;> first | exact h.1 | exact absurd hp (by unfold Scope.outside; decide)

@[simp] theorem Fr.with_vgl {P : Scope} {r s : State} {v} (hp : P.outside 0x80000) (h : Fr P r s) :
    Fr P r { s with vgl := v } := by
  refine ⟨?_, h.2⟩
  cases P with
  | win b => exact h.1
  | part p => cases p <;> first | exact h.1 | exact absurd hp (by unfold Scope.outside; decide)

@[simp] theorem Fr.with_pwr {P : Scope} {r s : State} {v} (hp : P.outside 0x100000) (h : Fr P r s) :
    Fr P r { s with pwr := v } := by
  refine ⟨?_, h.2⟩
  cases P with
  | win b => exact h.1
  | part p => cases p <;> first | exact h.1 | exact absurd hp (by unfold Scope.outside; decide)

@[simp] theorem Fr.with_clk {P : Scope} {r s : State} {v} (hp : P.outside 0x200000) (h : Fr P r s) :
    Fr P r { s with clk := v } := by
  refine ⟨?_, h.2⟩
  cases P with
  | win b => exact h.1
  | part p => cases p <;> first | exact h.1 | exact absurd hp (by unfold Scope.outside; decide)

@[simp] theorem Fr.with_fls {P : Scope} {r s : State} {v} (hp : P.outside 0x400000)
    (hm : twf (fun _ => erasedPage) s.fls.pages = true → twf (fun _ => erasedPage) v.pages = true) (h : Fr P r s) :
    Fr P r { s with fls := v } := by
  refine ⟨?_, h.2.1, fun k => ⟨(h.2.2 k).1, hm (h.2.2 k).2⟩⟩
  cases P with
  | win b => exact h.1
  | part p => cases p <;> first | exact h.1 | exact absurd hp (by unfold Scope.outside; decide)

@[simp] theorem Fr.with_sec {P : Scope} {r s : State} {v} (hp : P.outside 0x800000) (h : Fr P r s) :
    Fr P r { s with sec := v } := by
  refine ⟨?_, h.2⟩
  cases P with
  | win b => exact h.1
  | part p => cases p <;> first | exact h.1 | exact absurd hp (by unfold Scope.outside; decide)

@[simp] theorem Fr.with_dbg {P : Scope} {r s : State} {v} (hp : P.outside 0x1000000) (h : Fr P r s) :
    Fr P r { s with dbg := v } := by
  refine ⟨?_, h.2⟩
  cases P with
  | win b => exact h.1
  | part p => cases p <;> first | exact h.1 | exact absurd hp (by unfold Scope.outside; decide)

@[simp] theorem Fr.with_cal {P : Scope} {r s : State} {v} (hp : P.outside 0x2000000) (h : Fr P r s) :
    Fr P r { s with cal := v } := by
  refine ⟨?_, h.2⟩
  cases P with
  | win b => exact h.1
  | part p => cases p <;> first | exact h.1 | exact absurd hp (by unfold Scope.outside; decide)

@[simp] theorem Fr.with_alm {P : Scope} {r s : State} {v} (hp : P.outside 0x4000000) (h : Fr P r s) :
    Fr P r { s with alm := v } := by
  refine ⟨?_, h.2⟩
  cases P with
  | win b => exact h.1
  | part p => cases p <;> first | exact h.1 | exact absurd hp (by unfold Scope.outside; decide)

@[simp] theorem Fr.with_mgt {P : Scope} {r s : State} {v} (hp : P.outside 0x8000000) (h : Fr P r s) :
    Fr P r { s with mgt := v } := by
  refine ⟨?_, h.2⟩
  cases P with
  | win b => exact h.1
  | part p => cases p <;> first | exact h.1 | exact absurd hp (by unfold Scope.outside; decide)

@[simp] theorem Fr.with_out {P : Scope} {r s : State} {v} (hp : P.outside 0x10000000) (h : Fr P r s) :
    Fr P r { s with out := v } := by
  refine ⟨?_, h.2⟩
  cases P with
  | win b => exact h.1
  | part p => cases p <;> first | exact h.1 | exact absurd hp (by unfold Scope.outside; decide)

@[simp] theorem Fr.with_free {P : Scope} {r s : State} {v} (hp : P.outside 0x20000000) (h : Fr P r s) :
    Fr P r { s with free := v } := by
  refine ⟨?_, h.2⟩
  cases P with
  | win b => exact h.1
  | part p => cases p <;> first | exact h.1 | exact absurd hp (by unfold Scope.outside; decide)

@[simp] theorem Fr.with_pending {P : Scope} {r s : State} {v} (hp : P.outside 0x40000000) (h : Fr P r s) :
    Fr P r { s with pending := v } := by
  refine ⟨?_, h.2⟩
  cases P with
  | win b => exact h.1
  | part p => cases p <;> first | exact h.1 | exact absurd hp (by unfold Scope.outside; decide)

@[simp] theorem Fr.with_act_gov {P : Scope} {r s : State} {v0 v1} (hp : P.outside 0x180) (h : Fr P r s) :
    Fr P r { s with act := v0, gov := v1 } := by
  refine ⟨?_, h.2⟩
  cases P with
  | win b => exact h.1
  | part p => cases p <;> first | exact h.1 | exact absurd hp (by unfold Scope.outside; decide)

@[simp] theorem Fr.with_ltime_vgl {P : Scope} {r s : State} {v0 v1} (hp : P.outside 0x80008) (h : Fr P r s) :
    Fr P r { s with ltime := v0, vgl := v1 } := by
  refine ⟨?_, h.2⟩
  cases P with
  | win b => exact h.1
  | part p => cases p <;> first | exact h.1 | exact absurd hp (by unfold Scope.outside; decide)

@[simp] theorem Fr.with_vgl_pwr {P : Scope} {r s : State} {v0 v1} (hp : P.outside 0x180000) (h : Fr P r s) :
    Fr P r { s with vgl := v0, pwr := v1 } := by
  refine ⟨?_, h.2⟩
  cases P with
  | win b => exact h.1
  | part p => cases p <;> first | exact h.1 | exact absurd hp (by unfold Scope.outside; decide)

@[simp] theorem Fr.with_dbg_cal {P : Scope} {r s : State} {v0 v1} (hp : P.outside 0x3000000) (h : Fr P r s) :
    Fr P r { s with dbg := v0, cal := v1 } := by
  refine ⟨?_, h.2⟩
  cases P with
  | win b => exact h.1
  | part p => cases p <;> first | exact h.1 | exact absurd hp (by unfold Scope.outside; decide)

theorem Fr.regs {P : Scope} {r s : State} {t : Tbl W} (hp : P.outside 0x1) (ht : s.RegsOk → twf regReset t = true) (h : Fr P r s) :
    Fr P r { s with regs := t } := by
  refine ⟨?_, fun k => ht (h.2.1 k), h.2.2⟩
  cases P with
  | win b => exact absurd hp.1 (by decide)
  | part p => cases p <;> first | exact absurd hp (by unfold Scope.outside; decide) | exact h.1

/-- Registers of one window change. -/
theorem Fr.win {P : Scope} {r s : State} {t : Tbl W} (b : Nat) (hp : P.outside (blkMask b)) (ht : s.RegsOk → twf regReset t = true)
    (hb : ∀ a, blkOf a ≠ b → tget regReset t a = s.reg a) (h : Fr P r s) : Fr P r { s with regs := t } := by
  refine ⟨?_, fun k => ht (h.2.1 k), h.2.2⟩
  cases P with
  | win c =>
    intro a ha
    refine (hb a fun e => ?_).trans (h.1 a ha)
    have := hp.2
    rw [← ha, e] at this
    simp [blkMask] at this
  | part p =>
    cases p <;> first
      | exact h.1
      | (have h1 := hp.2
         unfold blkMask at h1
         have h2 : 31 + b < 31 := (Nat.pow_lt_pow_iff_right (by decide)).mp h1
         omega)

@[simp] theorem State.setReg_frame {P : Scope} {r s : State} (a : Nat) (v : W) (hp : P.outside 0x1) (h : Fr P r s) :
    Fr P r (s.setReg a v) := Fr.regs hp (fun k => twf_tset _ _ _ _ k) h

@[simp] theorem State.setReg_frame_win {P : Scope} {r s : State} (a : Nat) (v : W) (hp : P.outside (winMask a)) (h : Fr P r s) :
    Fr P r (s.setReg a v) :=
  Fr.win (blkOf a) hp (fun k => twf_tset _ _ _ _ k) (fun _ hb => tget_tset_other _ _ _ _ _ fun e => hb (e ▸ rfl)) h

theorem tget_tdrop {α : Type} (d : Nat → α) (lo hi a : Nat) : ∀ t : Tbl α,
    tget d (tdrop t lo hi) a = if lo ≤ a ∧ a < hi then d a else tget d t a
  | [] => by simp [tdrop, tget]
  | (k, v) :: t => by
    have ih := tget_tdrop d lo hi a t
    unfold tdrop at *
    by_cases hk : lo ≤ k ∧ k < hi
    · rw [List.filter_cons_of_neg (by simp [hk]), ih]
      by_cases ha : a = k
      · subst ha; simp [hk]
      · simp [tget, ha]
    · rw [List.filter_cons_of_pos (by simp only [Bool.not_eq_true', Bool.and_eq_false_iff, decide_eq_false_iff_not]; omega)]
      by_cases ha : a = k
      · subst ha; simp [tget, hk]
      · simp only [tget, if_neg ha, ih]

@[simp] theorem State.dropRegs_frame {P : Scope} {r s : State} (lo hi : Nat) (hp : P.outside 0x1) (h : Fr P r s) :
    Fr P r (s.dropRegs lo hi) := Fr.regs hp (fun k => twf_tdrop _ _ _ _ k) h

/-- Registers of a range inside one window go back to their reset values. -/
theorem State.dropRegs_frame_win {P : Scope} {r s : State} (b lo hi : Nat) (hl : regAddr b 0 ≤ lo) (hh : hi ≤ regAddr b 0 + 0x10000)
    (hp : P.outside (blkMask b)) (h : Fr P r s) : Fr P r (s.dropRegs lo hi) := by
  refine Fr.win b hp (fun k => twf_tdrop _ _ _ _ k) (fun a hb => ?_) h
  rw [tget_tdrop, if_neg]
  · rfl
  · intro ha
    apply hb
    simp only [regAddr, blkOf] at *
    omega

@[simp] theorem State.clearWindow_frame_win {P : Scope} {r s : State} (b : Nat) (hp : P.outside (blkMask b)) (h : Fr P r s) :
    Fr P r (s.clearWindow b) := State.dropRegs_frame_win b _ _ (Nat.le_refl _) (Nat.le_refl _) hp h

@[simp] theorem State.onlyIf_frame {P : Scope} {r s : State} (c : Bool) {f : State → State}
    (hf : ∀ s, Fr P s (f s)) (h : Fr P r s) : Fr P r (s.onlyIf c f) := by
  unfold State.onlyIf; split
  · exact h.trans (hf s)
  · exact h

@[simp] theorem State.each_frame {P : Scope} {α : Type} {f : State → α → State} (hf : ∀ s x, Fr P s (f s x)) :
    ∀ {r s : State} (l : List α) (_ : Fr P r s), Fr P r (s.each l f)
  | _, _, [], h => h
  | _, _, x :: xs, h => State.each_frame hf xs (h.trans (hf _ x))

@[simp] theorem ite_frame {P : Scope} {r a b : State} (c : Prop) [Decidable c] (ha : Fr P r a) (hb : Fr P r b) :
    Fr P r (if c then a else b) := by
  split <;> assumption

@[simp] theorem cond_frame {P : Scope} {r a b : State} (c : Bool) (ha : Fr P r a) (hb : Fr P r b) :
    Fr P r (bif c then a else b) := by
  cases c <;> assumption

/-- A fold that carries a state first. -/
theorem foldl_frame {P : Scope} {α β : Type} {f : State × β → α → State × β} (hf : ∀ q x, Fr P q.1 (f q x).1) :
    ∀ {r : State} (l : List α) (q : State × β) (_ : Fr P r q.1), Fr P r (l.foldl f q).1
  | _, [], _, h => h
  | _, x :: xs, q, h => foldl_frame hf xs (f q x) (h.trans (hf q x))

/-! ## Blocks and addresses -/

@[simp] theorem blkOf_regAddr (b o : Nat) : blkOf (regAddr b o) = b := by
  unfold blkOf regAddr
  omega

@[simp] theorem winMask_regAddr (b o : Nat) : winMask (regAddr b o) = blkMask b := by
  unfold winMask
  rw [blkOf_regAddr]

@[simp] theorem blkMask_bVGL : blkMask bVGL = 0x80000000 := by decide
@[simp] theorem blkMask_bPWR : blkMask bPWR = 0x100000000 := by decide
@[simp] theorem blkMask_bCLK : blkMask bCLK = 0x200000000 := by decide
@[simp] theorem blkMask_bFLS : blkMask bFLS = 0x400000000 := by decide
@[simp] theorem blkMask_bALM : blkMask bALM = 0x800000000 := by decide
@[simp] theorem blkMask_bMGT : blkMask bMGT = 0x1000000000 := by decide
@[simp] theorem blkMask_bCAL : blkMask bCAL = 0x2000000000 := by decide
@[simp] theorem blkMask_bJUB : blkMask bJUB = 0x80000000000 := by decide
@[simp] theorem blkMask_bQMG : blkMask bQMG = 0x100000000000 := by decide
@[simp] theorem blkMask_bBUF : blkMask bBUF = 0x200000000000 := by decide
@[simp] theorem blkMask_bLNT : blkMask bLNT = 0x400000000000 := by decide
@[simp] theorem blkMask_bMEM : blkMask bMEM = 0x800000000000 := by decide
@[simp] theorem blkMask_bCPL : blkMask bCPL = 0x1000000000000 := by decide
@[simp] theorem blkMask_bSEC : blkMask bSEC = 0x2000000000000 := by decide
@[simp] theorem blkMask_bSVO : blkMask bSVO = 0x8000000000000000 := by decide
@[simp] theorem blkMask_bMOT : blkMask bMOT = 0x10000000000000000 := by decide
@[simp] theorem blkMask_bACT : blkMask bACT = 0x200000000000000000 := by decide
@[simp] theorem blkMask_bDBG : blkMask bDBG = 0x40000000000000000000 := by decide

@[simp] theorem outside_bHIF {P : Scope} (n : Nat) (h : P.outside 0x78000000000) : P.outside (blkMask (bHIF n)) := by
  refine Scope.outside_mono h ?_
  have h4 : n % 4 < 4 := Nat.mod_lt _ (by decide)
  unfold blkMask bHIF
  generalize n % 4 = j at h4
  revert j
  decide

@[simp] theorem outside_bULK {P : Scope} (n : Nat) (h : P.outside 0x78000000000000) : P.outside (blkMask (bULK n)) := by
  refine Scope.outside_mono h ?_
  have h4 : n % 4 < 4 := Nat.mod_lt _ (by decide)
  unfold blkMask bULK
  generalize n % 4 = j at h4
  revert j
  decide

@[simp] theorem outside_bCHN {P : Scope} (n : Nat) (h : P.outside 0x780000000000000) : P.outside (blkMask (bCHN n)) := by
  refine Scope.outside_mono h ?_
  have h4 : n % 4 < 4 := Nat.mod_lt _ (by decide)
  unfold blkMask bCHN
  generalize n % 4 = j at h4
  revert j
  decide

@[simp] theorem outside_bWPA {P : Scope} (n : Nat) (h : P.outside 0x7800000000000000) : P.outside (blkMask (bWPA n)) := by
  refine Scope.outside_mono h ?_
  have h4 : n % 4 < 4 := Nat.mod_lt _ (by decide)
  unfold blkMask bWPA
  generalize n % 4 = j at h4
  revert j
  decide

@[simp] theorem outside_bORD {P : Scope} (n : Nat) (h : P.outside 0x1e0000000000000000) : P.outside (blkMask (bORD n)) := by
  refine Scope.outside_mono h ?_
  have h4 : n % 4 < 4 := Nat.mod_lt _ (by decide)
  unfold blkMask bORD
  generalize n % 4 = j at h4
  revert j
  decide

end Sys2Proof.Machine
end

