-- ==== Sys2Proof/Laws/FrameAddr.lean ====
section
/-!
SUPPORT. The window of every register address and of every counter's registers.
-/
namespace Sys2Proof.Machine

@[simp] theorem winMask_genFreq (g : Nat) : winMask (genFreq g) = blkMask bSVO := winMask_regAddr _ _
@[simp] theorem winMask_memCntScrub_addr : winMask memCntScrub.addr = blkMask bMEM := winMask_regAddr _ _
@[simp] theorem winMask_memCntScrub_sat : winMask memCntScrub.sat = blkMask bMEM := winMask_regAddr _ _
@[simp] theorem winMask_memCntScrub_int : winMask memCntScrub.int = blkMask bMEM := winMask_regAddr _ _
@[simp] theorem winMask_lntCtrl : winMask lntCtrl = blkMask bLNT := winMask_regAddr _ _
@[simp] theorem winMask_chnLive (n : Nat) (h : Nat) (r : Nat) : winMask (chnLive n h r) = blkMask (bCHN n) := winMask_regAddr _ _
@[simp] theorem winMask_clkReset : winMask clkReset = blkMask bCLK := winMask_regAddr _ _
@[simp] theorem winMask_clkCause : winMask clkCause = blkMask bCLK := winMask_regAddr _ _
@[simp] theorem winMask_chnDec (n : Nat) : winMask (chnDec n) = blkMask (bCHN n) := winMask_regAddr _ _
@[simp] theorem winMask_ulkMissCtr_addr (n : Nat) : winMask (ulkMissCtr n).addr = blkMask (bULK n) := winMask_regAddr _ _
@[simp] theorem winMask_ulkMissCtr_sat (n : Nat) : winMask (ulkMissCtr n).sat = blkMask (bULK n) := winMask_regAddr _ _
@[simp] theorem winMask_ulkMissCtr_int (n : Nat) : winMask (ulkMissCtr n).int = blkMask (bULK n) := winMask_regAddr _ _
@[simp] theorem winMask_secInt : winMask secInt = blkMask bSEC := winMask_regAddr _ _
@[simp] theorem winMask_ulkHeadmap (n : Nat) (h : Nat) : winMask (ulkHeadmap n h) = blkMask (bULK n) := winMask_regAddr _ _
@[simp] theorem winMask_jubCfg : winMask jubCfg = blkMask bJUB := winMask_regAddr _ _
@[simp] theorem winMask_motBrake : winMask motBrake = blkMask bMOT := winMask_regAddr _ _
@[simp] theorem winMask_idesExp : winMask idesExp = blkMask bCLK := winMask_regAddr _ _
@[simp] theorem winMask_wpaPosV (n : Nat) : winMask (wpaPosV n) = blkMask (bWPA n) := winMask_regAddr _ _
@[simp] theorem winMask_pwrCtr_addr (i : Nat) : winMask (pwrCtr i).addr = blkMask bPWR := winMask_regAddr _ _
@[simp] theorem winMask_pwrCtr_sat (i : Nat) : winMask (pwrCtr i).sat = blkMask bPWR := winMask_regAddr _ _
@[simp] theorem winMask_pwrCtr_int (i : Nat) : winMask (pwrCtr i).int = blkMask bPWR := winMask_regAddr _ _
@[simp] theorem winMask_capSel (k : Nat) : winMask (capSel k) = blkMask bSVO := winMask_regAddr _ _
@[simp] theorem winMask_wpaHtr (n : Nat) (h : Nat) (k : Nat) : winMask (wpaHtr n h k) = blkMask (bWPA n) := winMask_regAddr _ _
@[simp] theorem winMask_svoCtr_addr (i : Nat) : winMask (svoCtr i).addr = blkMask bSVO := winMask_regAddr _ _
@[simp] theorem winMask_svoCtr_sat (i : Nat) : winMask (svoCtr i).sat = blkMask bSVO := winMask_regAddr _ _
@[simp] theorem winMask_svoCtr_int (i : Nat) : winMask (svoCtr i).int = blkMask bSVO := winMask_regAddr _ _
@[simp] theorem winMask_hifCtrl (p : Nat) : winMask (hifCtrl p) = blkMask (bHIF p) := winMask_regAddr _ _
@[simp] theorem winMask_wpaTherm (n : Nat) (h : Nat) : winMask (wpaTherm n h) = blkMask (bWPA n) := winMask_regAddr _ _
@[simp] theorem winMask_ulkViolCtr_addr (n : Nat) (c : Nat) : winMask (ulkViolCtr n c).addr = blkMask (bULK n) := winMask_regAddr _ _
@[simp] theorem winMask_ulkViolCtr_sat (n : Nat) (c : Nat) : winMask (ulkViolCtr n c).sat = blkMask (bULK n) := winMask_regAddr _ _
@[simp] theorem winMask_ulkViolCtr_int (n : Nat) (c : Nat) : winMask (ulkViolCtr n c).int = blkMask (bULK n) := winMask_regAddr _ _
@[simp] theorem winMask_pwrStatus : winMask pwrStatus = blkMask bPWR := winMask_regAddr _ _
@[simp] theorem winMask_wpaPosW (n : Nat) : winMask (wpaPosW n) = blkMask (bWPA n) := winMask_regAddr _ _
@[simp] theorem winMask_hifStatus (p : Nat) : winMask (hifStatus p) = blkMask (bHIF p) := winMask_regAddr _ _
@[simp] theorem winMask_ulkCrcCtr_addr (n : Nat) (l : Nat) : winMask (ulkCrcCtr n l).addr = blkMask (bULK n) := winMask_regAddr _ _
@[simp] theorem winMask_ulkCrcCtr_sat (n : Nat) (l : Nat) : winMask (ulkCrcCtr n l).sat = blkMask (bULK n) := winMask_regAddr _ _
@[simp] theorem winMask_ulkCrcCtr_int (n : Nat) (l : Nat) : winMask (ulkCrcCtr n l).int = blkMask (bULK n) := winMask_regAddr _ _
@[simp] theorem winMask_wpaCfg (n : Nat) : winMask (wpaCfg n) = blkMask (bWPA n) := winMask_regAddr _ _
@[simp] theorem winMask_mgtCtr_addr (i : Nat) : winMask (mgtCtr i).addr = blkMask bMGT := winMask_regAddr _ _
@[simp] theorem winMask_mgtCtr_sat (i : Nat) : winMask (mgtCtr i).sat = blkMask bMGT := winMask_regAddr _ _
@[simp] theorem winMask_mgtCtr_int (i : Nat) : winMask (mgtCtr i).int = blkMask bMGT := winMask_regAddr _ _
@[simp] theorem winMask_almFlashPage : winMask almFlashPage = blkMask bALM := winMask_regAddr _ _
@[simp] theorem winMask_wpaHeadCfg (n : Nat) (h : Nat) : winMask (wpaHeadCfg n h) = blkMask (bWPA n) := winMask_regAddr _ _
@[simp] theorem winMask_ulkReplayCtr_addr (n : Nat) (l : Nat) : winMask (ulkReplayCtr n l).addr = blkMask (bULK n) := winMask_regAddr _ _
@[simp] theorem winMask_ulkReplayCtr_sat (n : Nat) (l : Nat) : winMask (ulkReplayCtr n l).sat = blkMask (bULK n) := winMask_regAddr _ _
@[simp] theorem winMask_ulkReplayCtr_int (n : Nat) (l : Nat) : winMask (ulkReplayCtr n l).int = blkMask (bULK n) := winMask_regAddr _ _
@[simp] theorem winMask_memUe_addr (c : Nat) : winMask (memUe c).addr = blkMask bMEM := winMask_regAddr _ _
@[simp] theorem winMask_memUe_sat (c : Nat) : winMask (memUe c).sat = blkMask bMEM := winMask_regAddr _ _
@[simp] theorem winMask_memUe_int (c : Nat) : winMask (memUe c).int = blkMask bMEM := winMask_regAddr _ _
@[simp] theorem winMask_calBatch : winMask calBatch = blkMask bCAL := winMask_regAddr _ _
@[simp] theorem winMask_motCtr_addr (i : Nat) : winMask (motCtr i).addr = blkMask bMOT := winMask_regAddr _ _
@[simp] theorem winMask_motCtr_sat (i : Nat) : winMask (motCtr i).sat = blkMask bMOT := winMask_regAddr _ _
@[simp] theorem winMask_motCtr_int (i : Nat) : winMask (motCtr i).int = blkMask bMOT := winMask_regAddr _ _
@[simp] theorem winMask_secStatus : winMask secStatus = blkMask bSEC := winMask_regAddr _ _
@[simp] theorem winMask_almCtr_addr (i : Nat) : winMask (almCtr i).addr = blkMask bALM := winMask_regAddr _ _
@[simp] theorem winMask_almCtr_sat (i : Nat) : winMask (almCtr i).sat = blkMask bALM := winMask_regAddr _ _
@[simp] theorem winMask_almCtr_int (i : Nat) : winMask (almCtr i).int = blkMask bALM := winMask_regAddr _ _
@[simp] theorem winMask_actStatusAll : winMask actStatusAll = blkMask bACT := winMask_regAddr _ _
@[simp] theorem winMask_calInt : winMask calInt = blkMask bCAL := winMask_regAddr _ _
@[simp] theorem winMask_lntInt : winMask lntInt = blkMask bLNT := winMask_regAddr _ _
@[simp] theorem winMask_wpaWcp (n : Nat) (h : Nat) (k : Nat) : winMask (wpaWcp n h k) = blkMask (bWPA n) := winMask_regAddr _ _
@[simp] theorem winMask_chnSync (n : Nat) : winMask (chnSync n) = blkMask (bCHN n) := winMask_regAddr _ _
@[simp] theorem winMask_ordCtr_addr (n : Nat) (i : Nat) : winMask (ordCtr n i).addr = blkMask (bORD n) := winMask_regAddr _ _
@[simp] theorem winMask_ordCtr_sat (n : Nat) (i : Nat) : winMask (ordCtr n i).sat = blkMask (bORD n) := winMask_regAddr _ _
@[simp] theorem winMask_ordCtr_int (n : Nat) (i : Nat) : winMask (ordCtr n i).int = blkMask (bORD n) := winMask_regAddr _ _
@[simp] theorem winMask_vglInt : winMask vglInt = blkMask bVGL := winMask_regAddr _ _
@[simp] theorem winMask_calTlast (a : Nat) : winMask (calTlast a) = blkMask bCAL := winMask_regAddr _ _
@[simp] theorem winMask_chnRef (n : Nat) (h : Nat) (r : Nat) : winMask (chnRef n h r) = blkMask (bCHN n) := winMask_regAddr _ _
@[simp] theorem winMask_ordCfg (n : Nat) : winMask (ordCfg n) = blkMask (bORD n) := winMask_regAddr _ _
@[simp] theorem winMask_ulkRtt (n : Nat) : winMask (ulkRtt n) = blkMask (bULK n) := winMask_regAddr _ _
@[simp] theorem winMask_flsInt : winMask flsInt = blkMask bFLS := winMask_regAddr _ _
@[simp] theorem winMask_motVmFloor : winMask motVmFloor = blkMask bMOT := winMask_regAddr _ _
@[simp] theorem winMask_dbgCtrl : winMask dbgCtrl = blkMask bDBG := winMask_regAddr _ _
@[simp] theorem winMask_ordStatus (n : Nat) : winMask (ordStatus n) = blkMask (bORD n) := winMask_regAddr _ _
@[simp] theorem winMask_jubInt : winMask jubInt = blkMask bJUB := winMask_regAddr _ _
@[simp] theorem winMask_calUpre (n : Nat) (r : Nat) (l : Nat) : winMask (calUpre n r l) = blkMask bCAL := winMask_regAddr _ _
@[simp] theorem winMask_wpaCtr_addr (n : Nat) (i : Nat) : winMask (wpaCtr n i).addr = blkMask (bWPA n) := winMask_regAddr _ _
@[simp] theorem winMask_wpaCtr_sat (n : Nat) (i : Nat) : winMask (wpaCtr n i).sat = blkMask (bWPA n) := winMask_regAddr _ _
@[simp] theorem winMask_wpaCtr_int (n : Nat) (i : Nat) : winMask (wpaCtr n i).int = blkMask (bWPA n) := winMask_regAddr _ _
@[simp] theorem winMask_pwrWakeEn : winMask pwrWakeEn = blkMask bPWR := winMask_regAddr _ _
@[simp] theorem winMask_chnSlotCfg (n : Nat) (h : Nat) : winMask (chnSlotCfg n h) = blkMask (bCHN n) := winMask_regAddr _ _
@[simp] theorem winMask_actInt : winMask actInt = blkMask bACT := winMask_regAddr _ _
@[simp] theorem winMask_svoStatus : winMask svoStatus = blkMask bSVO := winMask_regAddr _ _
@[simp] theorem winMask_wpaAssist (n : Nat) (h : Nat) : winMask (wpaAssist n h) = blkMask (bWPA n) := winMask_regAddr _ _
@[simp] theorem winMask_ulkInt (n : Nat) : winMask (ulkInt n) = blkMask (bULK n) := winMask_regAddr _ _
@[simp] theorem winMask_memInt : winMask memInt = blkMask bMEM := winMask_regAddr _ _
@[simp] theorem winMask_calTrig : winMask calTrig = blkMask bCAL := winMask_regAddr _ _
@[simp] theorem winMask_almStatus : winMask almStatus = blkMask bALM := winMask_regAddr _ _
@[simp] theorem winMask_sramCe_addr (g : Nat) : winMask (sramCe g).addr = blkMask bBUF := winMask_regAddr _ _
@[simp] theorem winMask_sramCe_sat (g : Nat) : winMask (sramCe g).sat = blkMask bBUF := winMask_regAddr _ _
@[simp] theorem winMask_sramCe_int (g : Nat) : winMask (sramCe g).int = blkMask bBUF := winMask_regAddr _ _
@[simp] theorem winMask_hifQlimit (p : Nat) : winMask (hifQlimit p) = blkMask (bHIF p) := winMask_regAddr _ _
@[simp] theorem winMask_vglStatus : winMask vglStatus = blkMask bVGL := winMask_regAddr _ _
@[simp] theorem winMask_lntCtr_addr (i : Nat) : winMask (lntCtr i).addr = blkMask bLNT := winMask_regAddr _ _
@[simp] theorem winMask_lntCtr_sat (i : Nat) : winMask (lntCtr i).sat = blkMask bLNT := winMask_regAddr _ _
@[simp] theorem winMask_lntCtr_int (i : Nat) : winMask (lntCtr i).int = blkMask bLNT := winMask_regAddr _ _
@[simp] theorem winMask_capStatus : winMask capStatus = blkMask bSVO := winMask_regAddr _ _
@[simp] theorem winMask_motVmChop : winMask motVmChop = blkMask bMOT := winMask_regAddr _ _
@[simp] theorem winMask_svoTwMin : winMask svoTwMin = blkMask bSVO := winMask_regAddr _ _
@[simp] theorem winMask_actGovCost : winMask actGovCost = blkMask bACT := winMask_regAddr _ _
@[simp] theorem winMask_lntStatus : winMask lntStatus = blkMask bLNT := winMask_regAddr _ _
@[simp] theorem winMask_actHeaddis (a : Nat) : winMask (actHeaddis a) = blkMask bACT := winMask_regAddr _ _
@[simp] theorem winMask_pwrSaveCfg : winMask pwrSaveCfg = blkMask bPWR := winMask_regAddr _ _
@[simp] theorem winMask_memStatus : winMask memStatus = blkMask bMEM := winMask_regAddr _ _
@[simp] theorem winMask_ulkSvcfg (n : Nat) : winMask (ulkSvcfg n) = blkMask (bULK n) := winMask_regAddr _ _
@[simp] theorem winMask_mgtViol_addr (v : Nat) : winMask (mgtViol v).addr = blkMask bMGT := winMask_regAddr _ _
@[simp] theorem winMask_mgtViol_sat (v : Nat) : winMask (mgtViol v).sat = blkMask bMGT := winMask_regAddr _ _
@[simp] theorem winMask_mgtViol_int (v : Nat) : winMask (mgtViol v).int = blkMask bMGT := winMask_regAddr _ _
@[simp] theorem winMask_mgtInt : winMask mgtInt = blkMask bMGT := winMask_regAddr _ _
@[simp] theorem winMask_svoEvt : winMask svoEvt = blkMask bSVO := winMask_regAddr _ _
@[simp] theorem winMask_actStatus (a : Nat) : winMask (actStatus a) = blkMask bACT := winMask_regAddr _ _
@[simp] theorem winMask_secCmdReg : winMask secCmdReg = blkMask bSEC := winMask_regAddr _ _
@[simp] theorem winMask_hifLattol (p : Nat) : winMask (hifLattol p) = blkMask bVGL := winMask_regAddr _ _
@[simp] theorem winMask_flsCtr_addr (i : Nat) : winMask (flsCtr i).addr = blkMask bFLS := winMask_regAddr _ _
@[simp] theorem winMask_flsCtr_sat (i : Nat) : winMask (flsCtr i).sat = blkMask bFLS := winMask_regAddr _ _
@[simp] theorem winMask_flsCtr_int (i : Nat) : winMask (flsCtr i).int = blkMask bFLS := winMask_regAddr _ _
@[simp] theorem winMask_hifInt (p : Nat) : winMask (hifInt p) = blkMask (bHIF p) := winMask_regAddr _ _
@[simp] theorem winMask_clkBoot : winMask clkBoot = blkMask bVGL := winMask_regAddr _ _
@[simp] theorem winMask_calTemp (a : Nat) : winMask (calTemp a) = blkMask bCAL := winMask_regAddr _ _
@[simp] theorem winMask_motShunt : winMask motShunt = blkMask bMOT := winMask_regAddr _ _
@[simp] theorem winMask_clkInt : winMask clkInt = blkMask bCLK := winMask_regAddr _ _
@[simp] theorem winMask_capFirst : winMask capFirst = blkMask bSVO := winMask_regAddr _ _
@[simp] theorem winMask_calStatus : winMask calStatus = blkMask bCAL := winMask_regAddr _ _
@[simp] theorem winMask_hifCtr_addr (p : Nat) (i : Nat) : winMask (hifCtr p i).addr = blkMask (bHIF p) := winMask_regAddr _ _
@[simp] theorem winMask_hifCtr_sat (p : Nat) (i : Nat) : winMask (hifCtr p i).sat = blkMask (bHIF p) := winMask_regAddr _ _
@[simp] theorem winMask_hifCtr_int (p : Nat) (i : Nat) : winMask (hifCtr p i).int = blkMask (bHIF p) := winMask_regAddr _ _
@[simp] theorem winMask_chnProfCfg (n : Nat) (p : Nat) : winMask (chnProfCfg n p) = blkMask (bCHN n) := winMask_regAddr _ _
@[simp] theorem winMask_hifWakeCode (p : Nat) : winMask (hifWakeCode p) = blkMask bVGL := winMask_regAddr _ _
@[simp] theorem winMask_motVm : winMask motVm = blkMask bMOT := winMask_regAddr _ _
@[simp] theorem winMask_actReg (a : Nat) (o : Nat) : winMask (actReg a o) = blkMask bACT := winMask_regAddr _ _
@[simp] theorem winMask_cplInt : winMask cplInt = blkMask bCPL := winMask_regAddr _ _
@[simp] theorem winMask_flsCmdReg : winMask flsCmdReg = blkMask bFLS := winMask_regAddr _ _
@[simp] theorem winMask_capTrig : winMask capTrig = blkMask bSVO := winMask_regAddr _ _
@[simp] theorem winMask_ulkStatus (n : Nat) : winMask (ulkStatus n) = blkMask (bULK n) := winMask_regAddr _ _
@[simp] theorem winMask_sramUe_addr (g : Nat) : winMask (sramUe g).addr = blkMask bBUF := winMask_regAddr _ _
@[simp] theorem winMask_sramUe_sat (g : Nat) : winMask (sramUe g).sat = blkMask bBUF := winMask_regAddr _ _
@[simp] theorem winMask_sramUe_int (g : Nat) : winMask (sramUe g).int = blkMask bBUF := winMask_regAddr _ _
@[simp] theorem winMask_motMotor : winMask motMotor = blkMask bMOT := winMask_regAddr _ _
@[simp] theorem winMask_svoOutlead (a : Nat) : winMask (svoOutlead a) = blkMask bSVO := winMask_regAddr _ _
@[simp] theorem winMask_qmgCtrl : winMask qmgCtrl = blkMask bQMG := winMask_regAddr _ _
@[simp] theorem winMask_wpaCtrl (n : Nat) : winMask (wpaCtrl n) = blkMask (bWPA n) := winMask_regAddr _ _
@[simp] theorem winMask_bankAddr (n : Nat) : winMask (bankAddr n) = blkMask bVGL := winMask_regAddr _ _
@[simp] theorem winMask_wpaInt (n : Nat) : winMask (wpaInt n) = blkMask (bWPA n) := winMask_regAddr _ _
@[simp] theorem winMask_hifWakeCtrl (p : Nat) : winMask (hifWakeCtrl p) = blkMask bVGL := winMask_regAddr _ _
@[simp] theorem winMask_cplCtrl : winMask cplCtrl = blkMask bCPL := winMask_regAddr _ _
@[simp] theorem winMask_mgtStatus : winMask mgtStatus = blkMask bMGT := winMask_regAddr _ _
@[simp] theorem winMask_mgtCtrl : winMask mgtCtrl = blkMask bMGT := winMask_regAddr _ _
@[simp] theorem winMask_chnTr (n : Nat) (h : Nat) : winMask (chnTr n h) = blkMask (bCHN n) := winMask_regAddr _ _
@[simp] theorem winMask_calAdcoff (n : Nat) (h : Nat) : winMask (calAdcoff n h) = blkMask bCAL := winMask_regAddr _ _
@[simp] theorem winMask_motLoops : winMask motLoops = blkMask bMOT := winMask_regAddr _ _
@[simp] theorem winMask_wpaInhibit (n : Nat) : winMask (wpaInhibit n) = blkMask (bWPA n) := winMask_regAddr _ _
@[simp] theorem winMask_svoInt : winMask svoInt = blkMask bSVO := winMask_regAddr _ _
@[simp] theorem winMask_ordEvtPend (n : Nat) : winMask (ordEvtPend n) = blkMask (bORD n) := winMask_regAddr _ _
@[simp] theorem winMask_cplBufMax (p : Nat) : winMask (cplBufMax p) = blkMask bCPL := winMask_regAddr _ _
@[simp] theorem winMask_memRemap (c : Nat) (e : Nat) : winMask (memRemap c e) = blkMask bMEM := winMask_regAddr _ _
@[simp] theorem winMask_chnProfTime (n : Nat) (p : Nat) : winMask (chnProfTime n p) = blkMask (bCHN n) := winMask_regAddr _ _
@[simp] theorem winMask_motSpeedReg : winMask motSpeedReg = blkMask bMOT := winMask_regAddr _ _
@[simp] theorem winMask_jubStatus : winMask jubStatus = blkMask bJUB := winMask_regAddr _ _
@[simp] theorem winMask_bufRemap (g : Nat) (e : Nat) : winMask (bufRemap g e) = blkMask bBUF := winMask_regAddr _ _
@[simp] theorem winMask_qmgInt : winMask qmgInt = blkMask bQMG := winMask_regAddr _ _
@[simp] theorem winMask_bufInt : winMask bufInt = blkMask bBUF := winMask_regAddr _ _
@[simp] theorem winMask_genCfg (g : Nat) : winMask (genCfg g) = blkMask bSVO := winMask_regAddr _ _
@[simp] theorem winMask_calCtrl : winMask calCtrl = blkMask bCAL := winMask_regAddr _ _
@[simp] theorem winMask_wpaRewind (n : Nat) : winMask (wpaRewind n) = blkMask (bWPA n) := winMask_regAddr _ _
@[simp] theorem winMask_clkStatus : winMask clkStatus = blkMask bCLK := winMask_regAddr _ _
@[simp] theorem winMask_ordCtrl (n : Nat) : winMask (ordCtrl n) = blkMask (bORD n) := winMask_regAddr _ _
@[simp] theorem winMask_mgtLock : winMask mgtLock = blkMask bMGT := winMask_regAddr _ _
@[simp] theorem winMask_chnCtrl (n : Nat) : winMask (chnCtrl n) = blkMask (bCHN n) := winMask_regAddr _ _
@[simp] theorem winMask_calShadow (b : Nat) (e : Nat) (i : Nat) : winMask (calShadow b e i) = blkMask bCAL := winMask_regAddr _ _
@[simp] theorem winMask_motStartReg : winMask motStartReg = blkMask bMOT := winMask_regAddr _ _
@[simp] theorem winMask_vglWakeSrc : winMask vglWakeSrc = blkMask bVGL := winMask_regAddr _ _
@[simp] theorem winMask_jubL (k : Nat) (off : Nat) : winMask (jubL k off) = blkMask bJUB := winMask_regAddr _ _
@[simp] theorem winMask_pwrInt : winMask pwrInt = blkMask bPWR := winMask_regAddr _ _
@[simp] theorem winMask_motRamp : winMask motRamp = blkMask bMOT := winMask_regAddr _ _
@[simp] theorem winMask_chnInt (n : Nat) : winMask (chnInt n) = blkMask (bCHN n) := winMask_regAddr _ _
@[simp] theorem winMask_idesCfg : winMask idesCfg = blkMask bCLK := winMask_regAddr _ _
@[simp] theorem winMask_jubCtr_addr (k : Nat) (i : Nat) : winMask (jubCtr k i).addr = blkMask bJUB := winMask_regAddr _ _
@[simp] theorem winMask_jubCtr_sat (k : Nat) (i : Nat) : winMask (jubCtr k i).sat = blkMask bJUB := winMask_regAddr _ _
@[simp] theorem winMask_jubCtr_int (k : Nat) (i : Nat) : winMask (jubCtr k i).int = blkMask bJUB := winMask_regAddr _ _
@[simp] theorem winMask_flsLastErr : winMask flsLastErr = blkMask bFLS := winMask_regAddr _ _
@[simp] theorem winMask_cplBufTotal : winMask cplBufTotal = blkMask bCPL := winMask_regAddr _ _
@[simp] theorem winMask_memCtrl : winMask memCtrl = blkMask bMEM := winMask_regAddr _ _
@[simp] theorem winMask_motPwm : winMask motPwm = blkMask bMOT := winMask_regAddr _ _
@[simp] theorem winMask_jubCtrl : winMask jubCtrl = blkMask bJUB := winMask_regAddr _ _
@[simp] theorem winMask_cplQCfg (q : Nat) : winMask (cplQCfg q) = blkMask bCPL := winMask_regAddr _ _
@[simp] theorem winMask_qmgCtr_addr (i : Nat) : winMask (qmgCtr i).addr = blkMask bQMG := winMask_regAddr _ _
@[simp] theorem winMask_qmgCtr_sat (i : Nat) : winMask (qmgCtr i).sat = blkMask bQMG := winMask_regAddr _ _
@[simp] theorem winMask_qmgCtr_int (i : Nat) : winMask (qmgCtr i).int = blkMask bQMG := winMask_regAddr _ _
@[simp] theorem winMask_hifMode (p : Nat) : winMask (hifMode p) = blkMask (bHIF p) := winMask_regAddr _ _
@[simp] theorem winMask_ordInt (n : Nat) : winMask (ordInt n) = blkMask (bORD n) := winMask_regAddr _ _
@[simp] theorem winMask_pwrIdle (n : Nat) : winMask (pwrIdle n) = blkMask bPWR := winMask_regAddr _ _
@[simp] theorem winMask_motVmLim : winMask motVmLim = blkMask bMOT := winMask_regAddr _ _
@[simp] theorem winMask_ulkLaneUp (n : Nat) : winMask (ulkLaneUp n) = blkMask (bULK n) := winMask_regAddr _ _
@[simp] theorem winMask_actGovUsed : winMask actGovUsed = blkMask bACT := winMask_regAddr _ _
@[simp] theorem winMask_wpaPosS (n : Nat) : winMask (wpaPosS n) = blkMask (bWPA n) := winMask_regAddr _ _
@[simp] theorem winMask_motItrip : winMask motItrip = blkMask bMOT := winMask_regAddr _ _
@[simp] theorem winMask_calRange (k : Nat) : winMask (calRange k) = blkMask bCAL := winMask_regAddr _ _
@[simp] theorem winMask_calCtr_addr (i : Nat) : winMask (calCtr i).addr = blkMask bCAL := winMask_regAddr _ _
@[simp] theorem winMask_calCtr_sat (i : Nat) : winMask (calCtr i).sat = blkMask bCAL := winMask_regAddr _ _
@[simp] theorem winMask_calCtr_int (i : Nat) : winMask (calCtr i).int = blkMask bCAL := winMask_regAddr _ _
@[simp] theorem winMask_actGang (a : Nat) : winMask (actGang a) = blkMask bACT := winMask_regAddr _ _
@[simp] theorem winMask_pwrCtrl : winMask pwrCtrl = blkMask bPWR := winMask_regAddr _ _
@[simp] theorem winMask_wpaRawcfg (n : Nat) : winMask (wpaRawcfg n) = blkMask (bWPA n) := winMask_regAddr _ _
@[simp] theorem winMask_motStatus : winMask motStatus = blkMask bMOT := winMask_regAddr _ _
@[simp] theorem winMask_netWord (p : Nat) (i : Nat) : winMask (netWord p i) = blkMask bVGL := winMask_regAddr _ _
@[simp] theorem winMask_capCtrl : winMask capCtrl = blkMask bSVO := winMask_regAddr _ _
@[simp] theorem winMask_genAmp (g : Nat) : winMask (genAmp g) = blkMask bSVO := winMask_regAddr _ _
@[simp] theorem winMask_motInt : winMask motInt = blkMask bMOT := winMask_regAddr _ _
@[simp] theorem winMask_ulkCtrl (n : Nat) : winMask (ulkCtrl n) = blkMask (bULK n) := winMask_regAddr _ _
@[simp] theorem winMask_cplStatus : winMask cplStatus = blkMask bCPL := winMask_regAddr _ _
@[simp] theorem winMask_cplQShare (q : Nat) : winMask (cplQShare q) = blkMask bCPL := winMask_regAddr _ _
@[simp] theorem winMask_flsMargin : winMask flsMargin = blkMask bFLS := winMask_regAddr _ _
@[simp] theorem winMask_wpaHeadStatus (n : Nat) (h : Nat) : winMask (wpaHeadStatus n h) = blkMask (bWPA n) := winMask_regAddr _ _
@[simp] theorem winMask_motCtrl : winMask motCtrl = blkMask bMOT := winMask_regAddr _ _
@[simp] theorem winMask_actCtr_addr (a : Nat) (i : Nat) : winMask (actCtr a i).addr = blkMask bACT := winMask_regAddr _ _
@[simp] theorem winMask_actCtr_sat (a : Nat) (i : Nat) : winMask (actCtr a i).sat = blkMask bACT := winMask_regAddr _ _
@[simp] theorem winMask_actCtr_int (a : Nat) (i : Nat) : winMask (actCtr a i).int = blkMask bACT := winMask_regAddr _ _
@[simp] theorem winMask_clkBlkrst (i : Nat) : winMask (clkBlkrst i) = blkMask bCLK := winMask_regAddr _ _
@[simp] theorem winMask_flsStatus : winMask flsStatus = blkMask bFLS := winMask_regAddr _ _
@[simp] theorem winMask_bufCtr_addr (i : Nat) : winMask (bufCtr i).addr = blkMask bBUF := winMask_regAddr _ _
@[simp] theorem winMask_bufCtr_sat (i : Nat) : winMask (bufCtr i).sat = blkMask bBUF := winMask_regAddr _ _
@[simp] theorem winMask_bufCtr_int (i : Nat) : winMask (bufCtr i).int = blkMask bBUF := winMask_regAddr _ _
@[simp] theorem winMask_calBatchStatus : winMask calBatchStatus = blkMask bCAL := winMask_regAddr _ _
@[simp] theorem winMask_actGovBudget : winMask actGovBudget = blkMask bACT := winMask_regAddr _ _
@[simp] theorem winMask_memCe_addr (c : Nat) : winMask (memCe c).addr = blkMask bMEM := winMask_regAddr _ _
@[simp] theorem winMask_memCe_sat (c : Nat) : winMask (memCe c).sat = blkMask bMEM := winMask_regAddr _ _
@[simp] theorem winMask_memCe_int (c : Nat) : winMask (memCe c).int = blkMask bMEM := winMask_regAddr _ _
@[simp] theorem winMask_ordPblkHeld (n : Nat) : winMask (ordPblkHeld n) = blkMask (bORD n) := winMask_regAddr _ _
@[simp] theorem winMask_almMirrorMark (a : Nat) : winMask (almMirrorMark a) = blkMask bALM := winMask_regAddr _ _
@[simp] theorem winMask_cplCtr_addr (i : Nat) : winMask (cplCtr i).addr = blkMask bCPL := winMask_regAddr _ _
@[simp] theorem winMask_cplCtr_sat (i : Nat) : winMask (cplCtr i).sat = blkMask bCPL := winMask_regAddr _ _
@[simp] theorem winMask_cplCtr_int (i : Nat) : winMask (cplCtr i).int = blkMask bCPL := winMask_regAddr _ _
@[simp] theorem winMask_almInt : winMask almInt = blkMask bALM := winMask_regAddr _ _
@[simp] theorem winMask_wpaFh (n : Nat) (h : Nat) : winMask (wpaFh n h) = blkMask (bWPA n) := winMask_regAddr _ _
@[simp] theorem winMask_chnCtr_addr (n : Nat) (i : Nat) : winMask (chnCtr n i).addr = blkMask (bCHN n) := winMask_regAddr _ _
@[simp] theorem winMask_chnCtr_sat (n : Nat) (i : Nat) : winMask (chnCtr n i).sat = blkMask (bCHN n) := winMask_regAddr _ _
@[simp] theorem winMask_chnCtr_int (n : Nat) (i : Nat) : winMask (chnCtr n i).int = blkMask (bCHN n) := winMask_regAddr _ _
@[simp] theorem winMask_motRpmReg : winMask motRpmReg = blkMask bMOT := winMask_regAddr _ _
@[simp] theorem winMask_calJpre (r : Nat) (l : Nat) : winMask (calJpre r l) = blkMask bCAL := winMask_regAddr _ _
@[simp] theorem winMask_wpaPosM (n : Nat) : winMask (wpaPosM n) = blkMask (bWPA n) := winMask_regAddr _ _
@[simp] theorem winMask_flsCtrl : winMask flsCtrl = blkMask bFLS := winMask_regAddr _ _
@[simp] theorem winMask_svoStack (a : Nat) : winMask (svoStack a) = blkMask bSVO := winMask_regAddr _ _
@[simp] theorem winMask_chnEq (n h set k : Nat) : winMask (chnEq n h set k) = blkMask (bCHN n) := winMask_regAddr _ _

end Sys2Proof.Machine
end

