-- ==== Sys2Proof/Laws/FrameFlags.lean ====
section
/-! SUPPORT. What each operation of Machine/Flags.lean leaves alone. -/
set_option linter.unusedSimpArgs false
set_option linter.unusedTactic false
set_option linter.unreachableTactic false
set_option linter.unnecessarySeqFocus false
namespace Sys2Proof.Machine
set_option Elab.async false

@[simp] theorem State.setRfld_frame {P : Scope} {r s : State} (a lo len v : Nat) (hp : P.outside (winMask a)) (h : Fr P r s) :
    Fr P r (s.setRfld a lo len v) := State.setReg_frame_win _ _ hp h

@[simp] theorem State.setRfld_frame_any {P : Scope} {r s : State} (a lo len v : Nat) (hp : P.outside 0x1) (h : Fr P r s) :
    Fr P r (s.setRfld a lo len v) := State.setReg_frame _ _ hp h

@[simp] theorem State.setRbit_frame {P : Scope} {r s : State} (a i : Nat) (b : Bool) (hp : P.outside (winMask a)) (h : Fr P r s) :
    Fr P r (s.setRbit a i b) := State.setReg_frame_win _ _ hp h

@[simp] theorem State.setRbit_frame_any {P : Scope} {r s : State} (a i : Nat) (b : Bool) (hp : P.outside 0x1) (h : Fr P r s) :
    Fr P r (s.setRbit a i b) := State.setReg_frame _ _ hp h

@[simp] theorem State.raise_frame {P : Scope} {r s : State} (a i : Nat) (hp : P.outside (winMask a)) (h : Fr P r s) :
    Fr P r (s.raise a i) := State.setReg_frame_win _ _ hp h

@[simp] theorem State.raise_frame_any {P : Scope} {r s : State} (a i : Nat) (hp : P.outside 0x1) (h : Fr P r s) :
    Fr P r (s.raise a i) := State.setReg_frame _ _ hp h

@[simp] theorem State.clearWindow_frame_any {P : Scope} {r s : State} (b : Nat) (hp : P.outside 0x1) (h : Fr P r s) :
    Fr P r (s.clearWindow b) := State.dropRegs_frame _ _ hp h

@[simp] theorem State.drawn_frame {P : Scope} {r s : State} (h : Fr P r s)
    (hp : P.outside 0x20000000 := by exact Scope.outside_mono (by assumption) (by decide)) :
    Fr P r (State.drawn s) := by
  have hs := fun k => Scope.outside_mono (k := k) hp
  simp (maxDischargeDepth := 99) [State.drawn, h, hs]

@[simp] theorem State.emit_frame {P : Scope} {r s : State} (x1) (h : Fr P r s)
    (hp : P.outside 0x10000000 := by exact Scope.outside_mono (by assumption) (by decide)) :
    Fr P r (State.emit s x1) := by
  have hs := fun k => Scope.outside_mono (k := k) hp
  simp (maxDischargeDepth := 99) [State.emit, h, hs]

@[simp] theorem State.calWait_frame {P : Scope} {r s : State} (a : Nat) (busy : Bool) (v : W) (hw : P.outside (winMask a))
    (hp : P.outside 0x2000000) (h : Fr P r s) : Fr P r (s.calWait a busy v) := by
  unfold State.calWait
  refine State.setReg_frame_win _ _ hw (State.onlyIf_frame _ (fun s => ?_) h)
  exact Fr.with_cal hp (Fr.refl s)

@[simp] theorem State.calWait_frame_any {P : Scope} {r s : State} (a : Nat) (busy : Bool) (v : W) (hw : P.outside 0x1)
    (hp : P.outside 0x2000000) (h : Fr P r s) : Fr P r (s.calWait a busy v) := by
  unfold State.calWait
  refine State.setReg_frame _ _ hw (State.onlyIf_frame _ (fun s => ?_) h)
  exact Fr.with_cal hp (Fr.refl s)

@[simp] theorem State.calTaken_frame {P : Scope} {r s : State} (x1) (h : Fr P r s)
    (hp : P.outside 0x2000000 := by exact Scope.outside_mono (by assumption) (by decide)) :
    Fr P r (State.calTaken s x1) := by
  have hs := fun k => Scope.outside_mono (k := k) hp
  simp (maxDischargeDepth := 99) [State.calTaken, h, hs]

@[simp] theorem State.storePresets_frame {P : Scope} {r s : State} (addr : Nat → Nat) (lanes : List Nat)
    (hw : ∀ l, P.outside (winMask (addr l))) (hp : P.outside 0x22000000) (h : Fr P r s) : Fr P r (s.storePresets addr lanes) := by
  have hs := fun k => Scope.outside_mono (k := k) hp
  unfold State.storePresets
  exact State.each_frame (fun s l => by simp (maxDischargeDepth := 99) [State.drawn, hw, hs]) _ h

end Sys2Proof.Machine
end

