-- ==== Sys2Proof/Laws/FrameOps.lean ====
section
/-! SUPPORT. What each operation of Machine/Ops.lean leaves alone. -/
set_option linter.unusedSimpArgs false
set_option linter.unusedTactic false
set_option linter.unreachableTactic false
set_option linter.unnecessarySeqFocus false
namespace Sys2Proof.Machine
set_option Elab.async false

@[simp] theorem State.setCq_frame {P : Scope} {r s : State} (x1) (x2) (h : Fr P r s)
    (hp : P.outside 0x4000 := by exact Scope.outside_mono (by assumption) (by decide)) :
    Fr P r (State.setCq s x1 x2) := by
  have hs := fun k => Scope.outside_mono (k := k) hp
  simp (maxDischargeDepth := 99) [State.setCq, h, hs]

@[simp] theorem State.bump_frame {P : Scope} {r s : State} (c : Ctr) (h1 : P.outside (winMask c.addr)) (h2 : P.outside (winMask c.sat))
    (h3 : P.outside (winMask c.int)) (h : Fr P r s) : Fr P r (s.bump c).1 := by
  unfold State.bump
  dsimp only
  (repeat' split) <;> simp (maxDischargeDepth := 99) [h, h1, h2, h3]

@[simp] theorem State.bump_frame_any {P : Scope} {r s : State} (c : Ctr) (hp : P.outside 0x1) (h : Fr P r s) : Fr P r (s.bump c).1 := by
  unfold State.bump
  dsimp only
  (repeat' split) <;> simp (maxDischargeDepth := 99) [h, hp]

@[simp] theorem State.bumpBy_frame {P : Scope} {r s : State} (c : Ctr) (n : Nat) (h1 : P.outside (winMask c.addr))
    (h2 : P.outside (winMask c.sat)) (h3 : P.outside (winMask c.int)) (h : Fr P r s) : Fr P r (s.bumpBy c n).1 := by
  unfold State.bumpBy
  dsimp only
  (repeat' split) <;> simp (maxDischargeDepth := 99) [h, h1, h2, h3]

@[simp] theorem State.bumpBy_frame_any {P : Scope} {r s : State} (c : Ctr) (n : Nat) (hp : P.outside 0x1) (h : Fr P r s) :
    Fr P r (s.bumpBy c n).1 := by
  unfold State.bumpBy
  dsimp only
  (repeat' split) <;> simp (maxDischargeDepth := 99) [h, hp]

@[simp] theorem State.enterPkt_frame {P : Scope} {r s : State} (x1) (x2) (h : Fr P r s)
    (hp : P.outside 0x4000 := by exact Scope.outside_mono (by assumption) (by decide)) :
    Fr P r (State.enterPkt s x1 x2) := by
  have hs := fun k => Scope.outside_mono (k := k) hp
  simp (maxDischargeDepth := 99) [State.enterPkt, h, hs]

@[simp] theorem State.enterChain_frame {P : Scope} {r s : State} (x1) (x2) (h : Fr P r s)
    (hp : P.outside 0x1000000004000 := by exact Scope.outside_mono (by assumption) (by decide)) :
    Fr P r (State.enterChain s x1 x2).1 := by
  have hs := fun k => Scope.outside_mono (k := k) hp
  unfold State.enterChain
  repeat' first
    | (simp (maxDischargeDepth := 99) [h, hs]; done)
    | split
    | refine State.each_frame (fun s x => ?_) _ ?_
    | refine State.onlyIf_frame _ (fun s => ?_) ?_
    | simp (maxDischargeDepth := 99) [h, hs]

@[simp] theorem State.putPkt_frame {P : Scope} {r s : State} (x1) (x2) (h : Fr P r s)
    (hp : P.outside 0x1000000004000 := by exact Scope.outside_mono (by assumption) (by decide)) :
    Fr P r (State.putPkt s x1 x2).1 := by
  have hs := fun k => Scope.outside_mono (k := k) hp
  unfold State.putPkt
  (repeat' split) <;> simp (maxDischargeDepth := 99) [h, hs]

@[simp] theorem State.submit_frame {P : Scope} {r s : State} (x1) (x2) (h : Fr P r s)
    (hp : P.outside 0x1000000004000 := by exact Scope.outside_mono (by assumption) (by decide)) :
    Fr P r (State.submit s x1 x2) := by
  have hs := fun k => Scope.outside_mono (k := k) hp
  simp (maxDischargeDepth := 99) [State.submit, h, hs]

@[simp] theorem State.almanac_frame {P : Scope} {r s : State} (x1) (x2) (x3) (x4) (h : Fr P r s)
    (hp : P.outside 0x1000000004000 := by exact Scope.outside_mono (by assumption) (by decide)) :
    Fr P r (State.almanac s x1 x2 x3 x4) := by
  have hs := fun k => Scope.outside_mono (k := k) hp
  simp (maxDischargeDepth := 99) [State.almanac, h, hs]

@[simp] theorem State.count_frame {P : Scope} {r s : State} (c : Ctr) (h1 : P.outside (winMask c.addr)) (h2 : P.outside (winMask c.sat))
    (h3 : P.outside (winMask c.int)) (hp : P.outside 0x1000000004000) (h : Fr P r s) : Fr P r (s.count c) := by
  have hs := fun k => Scope.outside_mono (k := k) hp
  unfold State.count
  dsimp only
  (repeat' split) <;> simp (maxDischargeDepth := 99) [h, h1, h2, h3, hs]

@[simp] theorem State.count_frame_any {P : Scope} {r s : State} (c : Ctr) (hp : P.outside 0x7fffffffffff80004001) (h : Fr P r s) : Fr P r (s.count c) := by
  have hs := fun k => Scope.outside_mono (k := k) hp
  unfold State.count
  dsimp only
  (repeat' split) <;> simp (maxDischargeDepth := 99) [h, hs]

@[simp] theorem State.countBy_frame {P : Scope} {r s : State} (c : Ctr) (n : Nat) (h1 : P.outside (winMask c.addr))
    (h2 : P.outside (winMask c.sat)) (h3 : P.outside (winMask c.int)) (hp : P.outside 0x1000000004000) (h : Fr P r s) :
    Fr P r (s.countBy c n) := by
  have hs := fun k => Scope.outside_mono (k := k) hp
  unfold State.countBy
  dsimp only
  (repeat' split) <;> simp (maxDischargeDepth := 99) [h, h1, h2, h3, hs]

@[simp] theorem State.violate_frame {P : Scope} {r s : State} (c : Ctr) (int bit : Nat) (h1 : P.outside (winMask c.addr))
    (h2 : P.outside (winMask c.sat)) (h3 : P.outside (winMask c.int)) (h4 : P.outside (winMask int)) (hp : P.outside 0x1000000004000)
    (h : Fr P r s) : Fr P r (s.violate c int bit) := by
  unfold State.violate
  simp (maxDischargeDepth := 99) [h, h1, h2, h3, h4, hp]

@[simp] theorem State.mgtViolate_frame {P : Scope} {r s : State} (x1) (h : Fr P r s)
    (hp : P.outside 0x1001000004000 := by exact Scope.outside_mono (by assumption) (by decide)) :
    Fr P r (State.mgtViolate s x1) := by
  have hs := fun k => Scope.outside_mono (k := k) hp
  simp (maxDischargeDepth := 99) [State.mgtViolate, h, hs]

@[simp] theorem State.put_frame {P : Scope} {r s : State} (x1) (x2) (h : Fr P r s)
    (hp : P.outside 0x1000000004000 := by exact Scope.outside_mono (by assumption) (by decide)) :
    Fr P r (State.put s x1 x2) := by
  have hs := fun k => Scope.outside_mono (k := k) hp
  simp (maxDischargeDepth := 99) [State.put, h, hs]

@[simp] theorem State.event_frame {P : Scope} {r s : State} (x1) (x2) (x3) (h : Fr P r s)
    (hp : P.outside 0x1000000004000 := by exact Scope.outside_mono (by assumption) (by decide)) :
    Fr P r (State.event s x1 x2 x3) := by
  have hs := fun k => Scope.outside_mono (k := k) hp
  simp (maxDischargeDepth := 99) [State.event, h, hs]

@[simp] theorem State.sramError_frame {P : Scope} {r s : State} (x1) (x2) (x3) (h : Fr P r s)
    (hp : P.outside 0x1200000004000 := by exact Scope.outside_mono (by assumption) (by decide)) :
    Fr P r (State.sramError s x1 x2 x3) := by
  have hs := fun k => Scope.outside_mono (k := k) hp
  unfold State.sramError
  (repeat' split) <;> simp (maxDischargeDepth := 99) [h, hs]

@[simp] theorem State.setLline_frame {P : Scope} {r s : State} (x1) (x2) (h : Fr P r s)
    (hp : P.outside 0x800 := by exact Scope.outside_mono (by assumption) (by decide)) :
    Fr P r (State.setLline s x1 x2) := by
  have hs := fun k => Scope.outside_mono (k := k) hp
  simp (maxDischargeDepth := 99) [State.setLline, h, hs]

@[simp] theorem State.sramSomewhere_frame {P : Scope} {r s : State} (x1) (x2) (h : Fr P r s)
    (hp : P.outside 0x1200020004000 := by exact Scope.outside_mono (by assumption) (by decide)) :
    Fr P r (State.sramSomewhere s x1 x2) := by
  have hs := fun k => Scope.outside_mono (k := k) hp
  simp (maxDischargeDepth := 99) [State.sramSomewhere, h, hs]

@[simp] theorem State.setSramMark_frame {P : Scope} {r s : State} (x1) (x2) (x3) (h : Fr P r s)
    (hp : P.outside 0x2000 := by exact Scope.outside_mono (by assumption) (by decide)) :
    Fr P r (State.setSramMark s x1 x2 x3) := by
  have hs := fun k => Scope.outside_mono (k := k) hp
  simp (maxDischargeDepth := 99) [State.setSramMark, h, hs]

@[simp] theorem State.sramTake_frame {P : Scope} {r s : State} (x1) (x2) (x3) (h : Fr P r s)
    (hp : P.outside 0x1200000006000 := by exact Scope.outside_mono (by assumption) (by decide)) :
    Fr P r (State.sramTake s x1 x2 x3).1 := by
  have hs := fun k => Scope.outside_mono (k := k) hp
  simp (maxDischargeDepth := 99) [State.sramTake, h, hs]

@[simp] theorem State.bufCopyDone_frame {P : Scope} {r s : State} (x1) (x2) (h : Fr P r s)
    (hp : P.outside 0x1200000006000 := by exact Scope.outside_mono (by assumption) (by decide)) :
    Fr P r (State.bufCopyDone s x1 x2) := by
  have hs := fun k => Scope.outside_mono (k := k) hp
  simp (maxDischargeDepth := 99) [State.bufCopyDone, h, hs]

@[simp] theorem State.sramSettle_frame {P : Scope} {r s : State} (x1) (x2) (h : Fr P r s)
    (hp : P.outside 0x1200000006000 := by exact Scope.outside_mono (by assumption) (by decide)) :
    Fr P r (State.sramSettle s x1 x2) := by
  have hs := fun k => Scope.outside_mono (k := k) hp
  simp (maxDischargeDepth := 99) [State.sramSettle, h, hs]

@[simp] theorem State.sramRead_frame {P : Scope} {r s : State} (x1) (x2) (x3) (h : Fr P r s)
    (hp : P.outside 0x1200000006000 := by exact Scope.outside_mono (by assumption) (by decide)) :
    Fr P r (State.sramRead s x1 x2 x3).1 := by
  have hs := fun k => Scope.outside_mono (k := k) hp
  simp (maxDischargeDepth := 99) [State.sramRead, h, hs]

@[simp] theorem State.sramWrote_frame {P : Scope} {r s : State} (x1) (x2) (h : Fr P r s)
    (hp : P.outside 0x1200000006000 := by exact Scope.outside_mono (by assumption) (by decide)) :
    Fr P r (State.sramWrote s x1 x2) := by
  have hs := fun k => Scope.outside_mono (k := k) hp
  unfold State.sramWrote
  repeat' first
    | (simp (maxDischargeDepth := 99) [h, hs]; done)
    | split
    | refine State.each_frame (fun s x => ?_) _ ?_
    | refine State.onlyIf_frame _ (fun s => ?_) ?_
    | simp (maxDischargeDepth := 99) [h, hs]

@[simp] theorem State.sramSwept_frame {P : Scope} {r s : State} (x1) (x2) (x3) (h : Fr P r s)
    (hp : P.outside 0x1200000006000 := by exact Scope.outside_mono (by assumption) (by decide)) :
    Fr P r (State.sramSwept s x1 x2 x3) := by
  have hs := fun k => Scope.outside_mono (k := k) hp
  simp (maxDischargeDepth := 99) [State.sramSwept, h, hs]

@[simp] theorem State.setBank_frame {P : Scope} {r s : State} (x1) (x2) (h : Fr P r s)
    (hp : P.outside 0x7fffffffffff80006001 := by exact Scope.outside_mono (by assumption) (by decide)) :
    Fr P r (State.setBank s x1 x2) := by
  have hs := fun k => Scope.outside_mono (k := k) hp
  simp (maxDischargeDepth := 99) [State.setBank, h, hs]

@[simp] theorem State.setBankBit_frame {P : Scope} {r s : State} (x1) (x2) (x3) (h : Fr P r s)
    (hp : P.outside 0x7fffffffffff80006001 := by exact Scope.outside_mono (by assumption) (by decide)) :
    Fr P r (State.setBankBit s x1 x2 x3) := by
  have hs := fun k => Scope.outside_mono (k := k) hp
  simp (maxDischargeDepth := 99) [State.setBankBit, h, hs]

@[simp] theorem State.setBankFld_frame {P : Scope} {r s : State} (x1) (x2) (x3) (x4) (h : Fr P r s)
    (hp : P.outside 0x7fffffffffff80006001 := by exact Scope.outside_mono (by assumption) (by decide)) :
    Fr P r (State.setBankFld s x1 x2 x3 x4) := by
  have hs := fun k => Scope.outside_mono (k := k) hp
  simp (maxDischargeDepth := 99) [State.setBankFld, h, hs]

end Sys2Proof.Machine
end

