-- ==== Sys2Proof/Laws/FramePool.lean ====
section
/-! SUPPORT. What each operation of Machine/Pool.lean leaves alone. -/
set_option linter.unusedSimpArgs false
set_option linter.unusedTactic false
set_option linter.unreachableTactic false
set_option linter.unnecessarySeqFocus false
namespace Sys2Proof.Machine
set_option Elab.async false

@[simp] theorem execPacketWrite_frame {P : Scope} {r s : State} (x1) (x2) (h : Fr P r s)
    (hp : P.outside 0x1000010004000 := by exact Scope.outside_mono (by assumption) (by decide)) :
    ∃ t, execPacketWrite x1 x2 s = .next t ∧ Fr P r t := by
  have hs := fun k => Scope.outside_mono (k := k) hp
  exact ⟨_, rfl, by simp (maxDischargeDepth := 99) [h, hs]⟩

@[simp] theorem State.drainWaiters_frame {P : Scope} {r s : State} (x1) (x2) (h : Fr P r s)
    (hp : P.outside 0x1000000004000 := by exact Scope.outside_mono (by assumption) (by decide)) :
    Fr P r (State.drainWaiters s x1 x2) := by
  have hs := fun k => Scope.outside_mono (k := k) hp
  fun_induction State.drainWaiters <;> simp_all (maxDischargeDepth := 99)

@[simp] theorem State.admitQueue_frame {P : Scope} {r s : State} (x1) (h : Fr P r s)
    (hp : P.outside 0x1000000004000 := by exact Scope.outside_mono (by assumption) (by decide)) :
    Fr P r (State.admitQueue s x1) := by
  have hs := fun k => Scope.outside_mono (k := k) hp
  simp (maxDischargeDepth := 99) [State.admitQueue, h, hs]

@[simp] theorem State.admitWaiters_frame {P : Scope} {r s : State} (x1) (h : Fr P r s)
    (hp : P.outside 0x1000000004000 := by exact Scope.outside_mono (by assumption) (by decide)) :
    Fr P r (State.admitWaiters s x1) := by
  have hs := fun k => Scope.outside_mono (k := k) hp
  simp (maxDischargeDepth := 99) [State.admitWaiters, h, hs]

@[simp] theorem State.takeHead_frame {P : Scope} {r s : State} (x1) (x2) (x3) (x4) (h : Fr P r s)
    (hp : P.outside 0x1000010004000 := by exact Scope.outside_mono (by assumption) (by decide)) :
    Fr P r (State.takeHead s x1 x2 x3 x4) := by
  have hs := fun k => Scope.outside_mono (k := k) hp
  simp (maxDischargeDepth := 99) [State.takeHead, h, hs]

@[simp] theorem State.poolBroken_frame {P : Scope} {r s : State} (x1) (h : Fr P r s)
    (hp : P.outside 0x1000000004000 := by exact Scope.outside_mono (by assumption) (by decide)) :
    Fr P r (State.poolBroken s x1) := by
  have hs := fun k => Scope.outside_mono (k := k) hp
  simp (maxDischargeDepth := 99) [State.poolBroken, h, hs]

@[simp] theorem State.intake_frame {P : Scope} {r s : State} (x1) (x2) (x3) (h : Fr P r s)
    (hp : P.outside 0x20000 := by exact Scope.outside_mono (by assumption) (by decide)) :
    Fr P r (State.intake s x1 x2 x3) := by
  have hs := fun k => Scope.outside_mono (k := k) hp
  unfold State.intake
  (repeat' split) <;> simp (maxDischargeDepth := 99) [h, hs]

@[simp] theorem execPacketTake_frame {P : Scope} {r s : State} (x1) (x2) (x3) (h : Fr P r s)
    (hp : P.outside 0x1200030024000 := by exact Scope.outside_mono (by assumption) (by decide)) :
    ∃ t, execPacketTake x1 x2 x3 s = .next t ∧ Fr P r t := by
  have hs := fun k => Scope.outside_mono (k := k) hp
  refine ⟨_, rfl, ?_⟩
  (repeat' split) <;> simp (maxDischargeDepth := 99) [h, hs]

@[simp] theorem State.relink_frame {P : Scope} {r s : State} (x1) (x2) (h : Fr P r s)
    (hp : P.outside 0x1000000004000 := by exact Scope.outside_mono (by assumption) (by decide)) :
    Fr P r (State.relink s x1 x2) := by
  have hs := fun k => Scope.outside_mono (k := k) hp
  unfold State.relink
  (repeat' split) <;> simp (maxDischargeDepth := 99) [h, hs]

@[simp] theorem execPacketRelink_frame {P : Scope} {r s : State} (x1) (x2) (h : Fr P r s)
    (hp : P.outside 0x1000000004000 := by exact Scope.outside_mono (by assumption) (by decide)) :
    ∃ t, execPacketRelink x1 x2 s = .next t ∧ Fr P r t := by
  have hs := fun k => Scope.outside_mono (k := k) hp
  exact ⟨_, rfl, by simp (maxDischargeDepth := 99) [h, hs]⟩

@[simp] theorem State.reserve_frame {P : Scope} {r s : State} (x1) (x2) (h : Fr P r s)
    (hp : P.outside 0x4000 := by exact Scope.outside_mono (by assumption) (by decide)) :
    Fr P r (State.reserve s x1 x2) := by
  have hs := fun k => Scope.outside_mono (k := k) hp
  simp (maxDischargeDepth := 99) [State.reserve, h, hs]

@[simp] theorem State.unreserve_frame {P : Scope} {r s : State} (x1) (x2) (h : Fr P r s)
    (hp : P.outside 0x1000000004000 := by exact Scope.outside_mono (by assumption) (by decide)) :
    Fr P r (State.unreserve s x1 x2) := by
  have hs := fun k => Scope.outside_mono (k := k) hp
  simp (maxDischargeDepth := 99) [State.unreserve, h, hs]

@[simp] theorem execReservationRequest_frame {P : Scope} {r s : State} (x1) (x2) (h : Fr P r s)
    (hp : P.outside 0x1000010004000 := by exact Scope.outside_mono (by assumption) (by decide)) :
    ∃ t, execReservationRequest x1 x2 s = .next t ∧ Fr P r t := by
  have hs := fun k => Scope.outside_mono (k := k) hp
  refine ⟨_, rfl, ?_⟩
  (repeat' split) <;> simp (maxDischargeDepth := 99) [h, hs]

@[simp] theorem execReservationGrant_frame {P : Scope} {r s : State} (x1) (h : Fr P r s)
    (hp : P.outside 0x4000 := by exact Scope.outside_mono (by assumption) (by decide)) :
    ∃ t, execReservationGrant x1 s = .next t ∧ Fr P r t := by
  have hs := fun k => Scope.outside_mono (k := k) hp
  refine ⟨_, rfl, ?_⟩
  (repeat' split) <;> simp (maxDischargeDepth := 99) [h, hs]

@[simp] theorem State.shareWrite_frame {P : Scope} {r s : State} (x1) (x2) (h : Fr P r s)
    (hp : P.outside 0x1000000004000 := by exact Scope.outside_mono (by assumption) (by decide)) :
    Fr P r (State.shareWrite s x1 x2) := by
  have hs := fun k => Scope.outside_mono (k := k) hp
  simp (maxDischargeDepth := 99) [State.shareWrite, h, hs]

@[simp] theorem execCplShareWrite_frame {P : Scope} {r s : State} (x1) (x2) (h : Fr P r s)
    (hp : P.outside 0x1000000004000 := by exact Scope.outside_mono (by assumption) (by decide)) :
    ∃ t, execCplShareWrite x1 x2 s = .next t ∧ Fr P r t := by
  have hs := fun k => Scope.outside_mono (k := k) hp
  exact ⟨_, rfl, by simp (maxDischargeDepth := 99) [h, hs]⟩

@[simp] theorem State.queueReset_frame {P : Scope} {r s : State} (x1) (h : Fr P r s)
    (hp : P.outside 0x1000000004000 := by exact Scope.outside_mono (by assumption) (by decide)) :
    Fr P r (State.queueReset s x1) := by
  have hs := fun k => Scope.outside_mono (k := k) hp
  simp (maxDischargeDepth := 99) [State.queueReset, h, hs]

@[simp] theorem execCplQueueReset_frame {P : Scope} {r s : State} (x1) (h : Fr P r s)
    (hp : P.outside 0x1000000004000 := by exact Scope.outside_mono (by assumption) (by decide)) :
    ∃ t, execCplQueueReset x1 s = .next t ∧ Fr P r t := by
  have hs := fun k => Scope.outside_mono (k := k) hp
  exact ⟨_, rfl, by simp (maxDischargeDepth := 99) [h, hs]⟩

@[simp] theorem State.poolReset_frame {P : Scope} {r s : State} (h : Fr P r s)
    (hp : P.outside 0x1000000004000 := by exact Scope.outside_mono (by assumption) (by decide)) :
    Fr P r (State.poolReset s) := by
  have hs := fun k => Scope.outside_mono (k := k) hp
  simp (maxDischargeDepth := 99) [State.poolReset, h, hs]

@[simp] theorem execCplPoolReset_frame {P : Scope} {r s : State} (h : Fr P r s)
    (hp : P.outside 0x1000000004000 := by exact Scope.outside_mono (by assumption) (by decide)) :
    ∃ t, execCplPoolReset s = .next t ∧ Fr P r t := by
  have hs := fun k => Scope.outside_mono (k := k) hp
  exact ⟨_, rfl, by simp (maxDischargeDepth := 99) [h, hs]⟩

@[simp] theorem execCplInitDone_frame {P : Scope} {r s : State} (h : Fr P r s)
    (hp : P.outside 0x1000000004000 := by exact Scope.outside_mono (by assumption) (by decide)) :
    ∃ t, execCplInitDone s = .next t ∧ Fr P r t := by
  have hs := fun k => Scope.outside_mono (k := k) hp
  exact ⟨_, rfl, by simp (maxDischargeDepth := 99) [h, hs]⟩

@[simp] theorem execChainItemEnter_frame {P : Scope} {r s : State} (x1) (x2) (h : Fr P r s)
    (hp : P.outside 0x1000000004000 := by exact Scope.outside_mono (by assumption) (by decide)) :
    ∃ t, execChainItemEnter x1 x2 s = .next t ∧ Fr P r t := by
  have hs := fun k => Scope.outside_mono (k := k) hp
  exact ⟨_, rfl, by simp (maxDischargeDepth := 99) [h, hs]⟩

@[simp] theorem State.chainTake_frame {P : Scope} {r s : State} (x1) (h : Fr P r s)
    (hp : P.outside 0x1000010004000 := by exact Scope.outside_mono (by assumption) (by decide)) :
    Fr P r (State.chainTake s x1).1 := by
  have hs := fun k => Scope.outside_mono (k := k) hp
  unfold State.chainTake
  repeat' first
    | (simp (maxDischargeDepth := 99) [h, hs]; done)
    | split
    | refine State.each_frame (fun s x => ?_) _ ?_
    | refine State.onlyIf_frame _ (fun s => ?_) ?_
    | simp (maxDischargeDepth := 99) [h, hs]

end Sys2Proof.Machine
end

