-- ==== Sys2Proof/Laws/FrameSlice.lean ====
section
/-! SUPPORT. What each operation of Machine/Slice.lean leaves alone. -/
set_option linter.unusedSimpArgs false
set_option linter.unusedTactic false
set_option linter.unreachableTactic false
set_option linter.unnecessarySeqFocus false
namespace Sys2Proof.Machine
set_option Elab.async false

@[simp] theorem State.setUlk_frame {P : Scope} {r s : State} (x1) (x2) (h : Fr P r s)
    (hp : P.outside 0x4 := by exact Scope.outside_mono (by assumption) (by decide)) :
    Fr P r (State.setUlk s x1 x2) := by
  have hs := fun k => Scope.outside_mono (k := k) hp
  simp (maxDischargeDepth := 99) [State.setUlk, h, hs]

@[simp] theorem State.setChn_frame {P : Scope} {r s : State} (x1) (x2) (h : Fr P r s)
    (hp : P.outside 0x10 := by exact Scope.outside_mono (by assumption) (by decide)) :
    Fr P r (State.setChn s x1 x2) := by
  have hs := fun k => Scope.outside_mono (k := k) hp
  simp (maxDischargeDepth := 99) [State.setChn, h, hs]

@[simp] theorem State.setSlot_frame {P : Scope} {r s : State} (x1) (x2) (x3) (h : Fr P r s)
    (hp : P.outside 0x10 := by exact Scope.outside_mono (by assumption) (by decide)) :
    Fr P r (State.setSlot s x1 x2 x3) := by
  have hs := fun k => Scope.outside_mono (k := k) hp
  simp (maxDischargeDepth := 99) [State.setSlot, h, hs]

@[simp] theorem State.setWpa_frame {P : Scope} {r s : State} (x1) (x2) (h : Fr P r s)
    (hp : P.outside 0x20 := by exact Scope.outside_mono (by assumption) (by decide)) :
    Fr P r (State.setWpa s x1 x2) := by
  have hs := fun k => Scope.outside_mono (k := k) hp
  simp (maxDischargeDepth := 99) [State.setWpa, h, hs]

@[simp] theorem State.setWpaH_frame {P : Scope} {r s : State} (x1) (x2) (x3) (h : Fr P r s)
    (hp : P.outside 0x20 := by exact Scope.outside_mono (by assumption) (by decide)) :
    Fr P r (State.setWpaH s x1 x2 x3) := by
  have hs := fun k => Scope.outside_mono (k := k) hp
  simp (maxDischargeDepth := 99) [State.setWpaH, h, hs]

@[simp] theorem State.setLoop_frame {P : Scope} {r s : State} (x1) (x2) (h : Fr P r s)
    (hp : P.outside 0x40 := by exact Scope.outside_mono (by assumption) (by decide)) :
    Fr P r (State.setLoop s x1 x2) := by
  have hs := fun k => Scope.outside_mono (k := k) hp
  simp (maxDischargeDepth := 99) [State.setLoop, h, hs]

@[simp] theorem State.setAct_frame {P : Scope} {r s : State} (x1) (x2) (h : Fr P r s)
    (hp : P.outside 0x80 := by exact Scope.outside_mono (by assumption) (by decide)) :
    Fr P r (State.setAct s x1 x2) := by
  have hs := fun k => Scope.outside_mono (k := k) hp
  simp (maxDischargeDepth := 99) [State.setAct, h, hs]

@[simp] theorem State.setOrd_frame {P : Scope} {r s : State} (x1) (x2) (h : Fr P r s)
    (hp : P.outside 0x400 := by exact Scope.outside_mono (by assumption) (by decide)) :
    Fr P r (State.setOrd s x1 x2) := by
  have hs := fun k => Scope.outside_mono (k := k) hp
  simp (maxDischargeDepth := 99) [State.setOrd, h, hs]

@[simp] theorem State.modOrd_frame {P : Scope} {r s : State} (x1) (x2) (h : Fr P r s)
    (hp : P.outside 0x400 := by exact Scope.outside_mono (by assumption) (by decide)) :
    Fr P r (State.modOrd s x1 x2) := by
  have hs := fun k => Scope.outside_mono (k := k) hp
  simp (maxDischargeDepth := 99) [State.modOrd, h, hs]

@[simp] theorem State.setActSt_frame {P : Scope} {r s : State} (x1) (x2) (h : Fr P r s)
    (hp : P.outside 0x200000000000000000 := by exact Scope.outside_mono (by assumption) (by decide)) :
    Fr P r (State.setActSt s x1 x2) := by
  have hs := fun k => Scope.outside_mono (k := k) hp
  simp (maxDischargeDepth := 99) [State.setActSt, h, hs]

@[simp] theorem State.putSvoWord_frame {P : Scope} {r s : State} (x1) (x2) (h : Fr P r s)
    (hp : P.outside 0x40 := by exact Scope.outside_mono (by assumption) (by decide)) :
    Fr P r (State.putSvoWord s x1 x2) := by
  have hs := fun k => Scope.outside_mono (k := k) hp
  simp (maxDischargeDepth := 99) [State.putSvoWord, h, hs]

@[simp] theorem State.setSvoWord_frame {P : Scope} {r s : State} (x1) (x2) (h : Fr P r s)
    (hp : P.outside 0x1200000006040 := by exact Scope.outside_mono (by assumption) (by decide)) :
    Fr P r (State.setSvoWord s x1 x2) := by
  have hs := fun k => Scope.outside_mono (k := k) hp
  simp (maxDischargeDepth := 99) [State.setSvoWord, h, hs]

@[simp] theorem State.zeroState_frame {P : Scope} {r s : State} (x1) (h : Fr P r s)
    (hp : P.outside 0x1200000006040 := by exact Scope.outside_mono (by assumption) (by decide)) :
    Fr P r (State.zeroState s x1) := by
  have hs := fun k => Scope.outside_mono (k := k) hp
  simp (maxDischargeDepth := 99) [State.zeroState, h, hs]

@[simp] theorem State.setSatCount_frame {P : Scope} {r s : State} (x1) (x2) (h : Fr P r s)
    (hp : P.outside 0x1200000006040 := by exact Scope.outside_mono (by assumption) (by decide)) :
    Fr P r (State.setSatCount s x1 x2) := by
  have hs := fun k => Scope.outside_mono (k := k) hp
  simp (maxDischargeDepth := 99) [State.setSatCount, h, hs]

@[simp] theorem State.notice_frame {P : Scope} {r s : State} (x1) (x2) (h : Fr P r s)
    (hp : P.outside 0x1e0000000000000000 := by exact Scope.outside_mono (by assumption) (by decide)) :
    Fr P r (State.notice s x1 x2) := by
  have hs := fun k => Scope.outside_mono (k := k) hp
  simp (maxDischargeDepth := 99) [State.notice, h, hs]

@[simp] theorem State.fatalEvent_frame {P : Scope} {r s : State} (x1) (x2) (x3) (h : Fr P r s)
    (hp : P.outside 0x1e0000000000000400 := by exact Scope.outside_mono (by assumption) (by decide)) :
    Fr P r (State.fatalEvent s x1 x2 x3) := by
  have hs := fun k => Scope.outside_mono (k := k) hp
  simp (maxDischargeDepth := 99) [State.fatalEvent, h, hs]

@[simp] theorem State.sectorPacket_frame {P : Scope} {r s : State} (x1) (x2) (x3) (h : Fr P r s)
    (hp : P.outside 0x1000000004000 := by exact Scope.outside_mono (by assumption) (by decide)) :
    Fr P r (State.sectorPacket s x1 x2 x3) := by
  have hs := fun k => Scope.outside_mono (k := k) hp
  simp (maxDischargeDepth := 99) [State.sectorPacket, h, hs]

@[simp] theorem State.replayLost_frame {P : Scope} {r s : State} (x1) (x2) (x3) (x4) (h : Fr P r s)
    (hp : P.outside 0x1000000004000 := by exact Scope.outside_mono (by assumption) (by decide)) :
    Fr P r (State.replayLost s x1 x2 x3 x4) := by
  have hs := fun k => Scope.outside_mono (k := k) hp
  simp (maxDischargeDepth := 99) [State.replayLost, h, hs]

@[simp] theorem State.setLoops_frame {P : Scope} {r s : State} (x1) (x2) (x3) (h : Fr P r s)
    (hp : P.outside 0x780000000000010 := by exact Scope.outside_mono (by assumption) (by decide)) :
    Fr P r (State.setLoops s x1 x2 x3) := by
  have hs := fun k => Scope.outside_mono (k := k) hp
  simp (maxDischargeDepth := 99) [State.setLoops, h, hs]

@[simp] theorem State.loadSeeds_frame {P : Scope} {r s : State} (x1) (x2) (h : Fr P r s)
    (hp : P.outside 0x780000000000010 := by exact Scope.outside_mono (by assumption) (by decide)) :
    Fr P r (State.loadSeeds s x1 x2) := by
  have hs := fun k => Scope.outside_mono (k := k) hp
  simp (maxDischargeDepth := 99) [State.loadSeeds, h, hs]

@[simp] theorem State.armSlot_frame {P : Scope} {r s : State} (x1) (x2) (x3) (h : Fr P r s)
    (hp : P.outside 0x780000000000010 := by exact Scope.outside_mono (by assumption) (by decide)) :
    Fr P r (State.armSlot s x1 x2 x3) := by
  have hs := fun k => Scope.outside_mono (k := k) hp
  simp (maxDischargeDepth := 99) [State.armSlot, h, hs]

@[simp] theorem State.sectorBoundary_frame {P : Scope} {r s : State} (x1) (x2) (h : Fr P r s)
    (hp : P.outside 0x780000000000010 := by exact Scope.outside_mono (by assumption) (by decide)) :
    Fr P r (State.sectorBoundary s x1 x2) := by
  have hs := fun k => Scope.outside_mono (k := k) hp
  unfold State.sectorBoundary
  repeat' first
    | (simp (maxDischargeDepth := 99) [h, hs]; done)
    | split
    | refine State.each_frame (fun s x => ?_) _ ?_
    | refine State.onlyIf_frame _ (fun s => ?_) ?_
    | simp (maxDischargeDepth := 99) [h, hs]

@[simp] theorem State.strobeArm_frame {P : Scope} {r s : State} (x1) (x2) (x3) (h : Fr P r s)
    (hp : P.outside 0x780000000000010 := by exact Scope.outside_mono (by assumption) (by decide)) :
    Fr P r (State.strobeArm s x1 x2 x3) := by
  have hs := fun k => Scope.outside_mono (k := k) hp
  simp (maxDischargeDepth := 99) [State.strobeArm, h, hs]

@[simp] theorem State.strobeDisarm_frame {P : Scope} {r s : State} (x1) (x2) (h : Fr P r s)
    (hp : P.outside 0x10 := by exact Scope.outside_mono (by assumption) (by decide)) :
    Fr P r (State.strobeDisarm s x1 x2) := by
  have hs := fun k => Scope.outside_mono (k := k) hp
  simp (maxDischargeDepth := 99) [State.strobeDisarm, h, hs]

@[simp] theorem State.strobeHold_frame {P : Scope} {r s : State} (x1) (x2) (x3) (h : Fr P r s)
    (hp : P.outside 0x10 := by exact Scope.outside_mono (by assumption) (by decide)) :
    Fr P r (State.strobeHold s x1 x2 x3) := by
  have hs := fun k => Scope.outside_mono (k := k) hp
  simp (maxDischargeDepth := 99) [State.strobeHold, h, hs]

@[simp] theorem State.strobeReplay_frame {P : Scope} {r s : State} (x1) (x2) (x3) (h : Fr P r s)
    (hp : P.outside 0x1000000004010 := by exact Scope.outside_mono (by assumption) (by decide)) :
    Fr P r (State.strobeReplay s x1 x2 x3) := by
  have hs := fun k => Scope.outside_mono (k := k) hp
  simp (maxDischargeDepth := 99) [State.strobeReplay, h, hs]

@[simp] theorem State.strobeRelease_frame {P : Scope} {r s : State} (x1) (x2) (h : Fr P r s)
    (hp : P.outside 0x10 := by exact Scope.outside_mono (by assumption) (by decide)) :
    Fr P r (State.strobeRelease s x1 x2) := by
  have hs := fun k => Scope.outside_mono (k := k) hp
  unfold State.strobeRelease
  repeat' first
    | (simp (maxDischargeDepth := 99) [h, hs]; done)
    | split
    | refine State.each_frame (fun s x => ?_) _ ?_
    | refine State.onlyIf_frame _ (fun s => ?_) ?_
    | simp (maxDischargeDepth := 99) [h, hs]

@[simp] theorem State.zeroDrive_frame {P : Scope} {r s : State} (x1) (h : Fr P r s)
    (hp : P.outside 0x40 := by exact Scope.outside_mono (by assumption) (by decide)) :
    Fr P r (State.zeroDrive s x1) := by
  have hs := fun k => Scope.outside_mono (k := k) hp
  simp (maxDischargeDepth := 99) [State.zeroDrive, h, hs]

@[simp] theorem State.holdReset_frame {P : Scope} {r s : State} (x1) (h : Fr P r s)
    (hp : P.outside 0x1200000006040 := by exact Scope.outside_mono (by assumption) (by decide)) :
    Fr P r (State.holdReset s x1) := by
  have hs := fun k => Scope.outside_mono (k := k) hp
  simp (maxDischargeDepth := 99) [State.holdReset, h, hs]

@[simp] theorem State.setWpaSt_frame {P : Scope} {r s : State} (x1) (x2) (x3) (h : Fr P r s)
    (hp : P.outside 0x7801200000006040 := by exact Scope.outside_mono (by assumption) (by decide)) :
    Fr P r (State.setWpaSt s x1 x2 x3) := by
  have hs := fun k => Scope.outside_mono (k := k) hp
  simp (maxDischargeDepth := 99) [State.setWpaSt, h, hs]

@[simp] theorem State.wpaSettle_frame {P : Scope} {r s : State} (x1) (x2) (h : Fr P r s)
    (hp : P.outside 0x7800000000000000 := by exact Scope.outside_mono (by assumption) (by decide)) :
    Fr P r (State.wpaSettle s x1 x2) := by
  have hs := fun k => Scope.outside_mono (k := k) hp
  simp (maxDischargeDepth := 99) [State.wpaSettle, h, hs]

@[simp] theorem State.strobeWarm_frame {P : Scope} {r s : State} (x1) (x2) (x3) (x4) (h : Fr P r s)
    (hp : P.outside 0x7801200000006060 := by exact Scope.outside_mono (by assumption) (by decide)) :
    Fr P r (State.strobeWarm s x1 x2 x3 x4) := by
  have hs := fun k => Scope.outside_mono (k := k) hp
  simp (maxDischargeDepth := 99) [State.strobeWarm, h, hs]

@[simp] theorem State.strobeWdisarm_frame {P : Scope} {r s : State} (x1) (x2) (h : Fr P r s)
    (hp : P.outside 0x7801200000006060 := by exact Scope.outside_mono (by assumption) (by decide)) :
    Fr P r (State.strobeWdisarm s x1 x2) := by
  have hs := fun k => Scope.outside_mono (k := k) hp
  unfold State.strobeWdisarm
  (repeat' split) <;> simp (maxDischargeDepth := 99) [h, hs]

@[simp] theorem State.strobeFhDown_frame {P : Scope} {r s : State} (x1) (x2) (h : Fr P r s)
    (hp : P.outside 0x7800000000000020 := by exact Scope.outside_mono (by assumption) (by decide)) :
    Fr P r (State.strobeFhDown s x1 x2) := by
  have hs := fun k => Scope.outside_mono (k := k) hp
  simp (maxDischargeDepth := 99) [State.strobeFhDown, h, hs]

@[simp] theorem State.strobeFhRestore_frame {P : Scope} {r s : State} (x1) (x2) (h : Fr P r s)
    (hp : P.outside 0x7800000000000020 := by exact Scope.outside_mono (by assumption) (by decide)) :
    Fr P r (State.strobeFhRestore s x1 x2) := by
  have hs := fun k => Scope.outside_mono (k := k) hp
  simp (maxDischargeDepth := 99) [State.strobeFhRestore, h, hs]

@[simp] theorem State.chnStrobe_frame {P : Scope} {r s : State} (x1) (x2) (x3) (h : Fr P r s)
    (hp : P.outside 0x781001000004010 := by exact Scope.outside_mono (by assumption) (by decide)) :
    Fr P r (State.chnStrobe s x1 x2 x3) := by
  have hs := fun k => Scope.outside_mono (k := k) hp
  simp (maxDischargeDepth := 99) [State.chnStrobe, h, hs]

@[simp] theorem State.wpaStrobe_frame {P : Scope} {r s : State} (x1) (x2) (x3) (h : Fr P r s)
    (hp : P.outside 0x7801201000006060 := by exact Scope.outside_mono (by assumption) (by decide)) :
    Fr P r (State.wpaStrobe s x1 x2 x3) := by
  have hs := fun k => Scope.outside_mono (k := k) hp
  simp (maxDischargeDepth := 99) [State.wpaStrobe, h, hs]

end Sys2Proof.Machine
end

