-- ==== Sys2Proof/Laws/FrameFlit.lean ====
section
/-! SUPPORT. What each operation of Machine/Flit.lean leaves alone. -/
set_option linter.unusedSimpArgs false
set_option linter.unusedTactic false
set_option linter.unreachableTactic false
set_option linter.unnecessarySeqFocus false
namespace Sys2Proof.Machine
set_option Elab.async false

@[simp] theorem State.setLanesUp_frame {P : Scope} {r s : State} (x1) (x2) (h : Fr P r s)
    (hp : P.outside 0x78000000000000 := by exact Scope.outside_mono (by assumption) (by decide)) :
    Fr P r (State.setLanesUp s x1 x2) := by
  have hs := fun k => Scope.outside_mono (k := k) hp
  simp (maxDischargeDepth := 99) [State.setLanesUp, h, hs]

@[simp] theorem State.updateMapErr_frame {P : Scope} {r s : State} (x1) (h : Fr P r s)
    (hp : P.outside 0x78000000000000 := by exact Scope.outside_mono (by assumption) (by decide)) :
    Fr P r (State.updateMapErr s x1) := by
  have hs := fun k => Scope.outside_mono (k := k) hp
  simp (maxDischargeDepth := 99) [State.updateMapErr, h, hs]

@[simp] theorem State.setRxl_frame {P : Scope} {r s : State} (x1) (x2) (x3) (h : Fr P r s)
    (hp : P.outside 0x4 := by exact Scope.outside_mono (by assumption) (by decide)) :
    Fr P r (State.setRxl s x1 x2 x3) := by
  have hs := fun k => Scope.outside_mono (k := k) hp
  simp (maxDischargeDepth := 99) [State.setRxl, h, hs]

@[simp] theorem State.setTxl_frame {P : Scope} {r s : State} (x1) (x2) (x3) (h : Fr P r s)
    (hp : P.outside 0x4 := by exact Scope.outside_mono (by assumption) (by decide)) :
    Fr P r (State.setTxl s x1 x2 x3) := by
  have hs := fun k => Scope.outside_mono (k := k) hp
  simp (maxDischargeDepth := 99) [State.setTxl, h, hs]

@[simp] theorem State.sendPlain_frame {P : Scope} {r s : State} (x1) (x2) (x3) (x4) (h : Fr P r s)
    (hp : P.outside 0x10000000 := by exact Scope.outside_mono (by assumption) (by decide)) :
    Fr P r (State.sendPlain s x1 x2 x3 x4) := by
  have hs := fun k => Scope.outside_mono (k := k) hp
  simp (maxDischargeDepth := 99) [State.sendPlain, h, hs]

@[simp] theorem State.sendLink_frame {P : Scope} {r s : State} (x1) (x2) (x3) (x4) (h : Fr P r s)
    (hp : P.outside 0x10000000 := by exact Scope.outside_mono (by assumption) (by decide)) :
    Fr P r (State.sendLink s x1 x2 x3 x4) := by
  have hs := fun k => Scope.outside_mono (k := k) hp
  simp (maxDischargeDepth := 99) [State.sendLink, h, hs]

@[simp] theorem State.sendTime_frame {P : Scope} {r s : State} (x1) (x2) (x3) (h : Fr P r s)
    (hp : P.outside 0x10000000 := by exact Scope.outside_mono (by assumption) (by decide)) :
    Fr P r (State.sendTime s x1 x2 x3) := by
  have hs := fun k => Scope.outside_mono (k := k) hp
  simp (maxDischargeDepth := 99) [State.sendTime, h, hs]

@[simp] theorem State.setUlkSt_frame {P : Scope} {r s : State} (x1) (x2) (h : Fr P r s)
    (hp : P.outside 0x78000000000000 := by exact Scope.outside_mono (by assumption) (by decide)) :
    Fr P r (State.setUlkSt s x1 x2) := by
  have hs := fun k => Scope.outside_mono (k := k) hp
  simp (maxDischargeDepth := 99) [State.setUlkSt, h, hs]

@[simp] theorem State.sendSeq_frame {P : Scope} {r s : State} (x1) (x2) (x3) (x4) (h : Fr P r s)
    (hp : P.outside 0x10000004 := by exact Scope.outside_mono (by assumption) (by decide)) :
    Fr P r (State.sendSeq s x1 x2 x3 x4) := by
  have hs := fun k => Scope.outside_mono (k := k) hp
  simp (maxDischargeDepth := 99) [State.sendSeq, h, hs]

@[simp] theorem State.emitFlits_frame {P : Scope} {r s : State} (x1) (x2) (x3) (x4) (h : Fr P r s)
    (hp : P.outside 0x10000000 := by exact Scope.outside_mono (by assumption) (by decide)) :
    Fr P r (State.emitFlits s x1 x2 x3 x4) := by
  have hs := fun k => Scope.outside_mono (k := k) hp
  simp (maxDischargeDepth := 99) [State.emitFlits, h, hs]

@[simp] theorem State.sendCmd_frame {P : Scope} {r s : State} (x1) (x2) (x3) (h : Fr P r s)
    (hp : P.outside 0x10000004 := by exact Scope.outside_mono (by assumption) (by decide)) :
    Fr P r (State.sendCmd s x1 x2 x3) := by
  have hs := fun k => Scope.outside_mono (k := k) hp
  simp (maxDischargeDepth := 99) [State.sendCmd, h, hs]

@[simp] theorem State.sendRegRead_frame {P : Scope} {r s : State} (x1) (x2) (x3) (h : Fr P r s)
    (hp : P.outside 0x10000004 := by exact Scope.outside_mono (by assumption) (by decide)) :
    Fr P r (State.sendRegRead s x1 x2 x3) := by
  have hs := fun k => Scope.outside_mono (k := k) hp
  simp (maxDischargeDepth := 99) [State.sendRegRead, h, hs]

@[simp] theorem State.sendWriteData_frame {P : Scope} {r s : State} (x1) (x2) (x3) (h : Fr P r s)
    (hp : P.outside 0x10000004 := by exact Scope.outside_mono (by assumption) (by decide)) :
    Fr P r (State.sendWriteData s x1 x2 x3) := by
  have hs := fun k => Scope.outside_mono (k := k) hp
  simp (maxDischargeDepth := 99) [State.sendWriteData, h, hs]

@[simp] theorem State.flushServo_frame {P : Scope} {r s : State} (x1) (h : Fr P r s)
    (hp : P.outside 0x10000004 := by exact Scope.outside_mono (by assumption) (by decide)) :
    Fr P r (State.flushServo s x1) := by
  have hs := fun k => Scope.outside_mono (k := k) hp
  unfold State.flushServo
  (repeat' split) <;> simp (maxDischargeDepth := 99) [h, hs]

@[simp] theorem State.servoOut_frame {P : Scope} {r s : State} (x1) (x2) (x3) (h : Fr P r s)
    (hp : P.outside 0x4 := by exact Scope.outside_mono (by assumption) (by decide)) :
    Fr P r (State.servoOut s x1 x2 x3) := by
  have hs := fun k => Scope.outside_mono (k := k) hp
  unfold State.servoOut
  (repeat' split) <;> simp (maxDischargeDepth := 99) [h, hs]

end Sys2Proof.Machine
end

