-- ==== Sys2Proof/Laws/FrameBand.lean ====
section
/-! SUPPORT. What each operation of Machine/Band.lean leaves alone. -/
set_option linter.unusedSimpArgs false
set_option linter.unusedTactic false
set_option linter.unreachableTactic false
set_option linter.unnecessarySeqFocus false
namespace Sys2Proof.Machine
set_option Elab.async false

@[simp] theorem State.modFw_frame {P : Scope} {r s : State} (x1) (h : Fr P r s)
    (hp : P.outside 0x20000 := by exact Scope.outside_mono (by assumption) (by decide)) :
    Fr P r (State.modFw s x1) := by
  have hs := fun k => Scope.outside_mono (k := k) hp
  simp (maxDischargeDepth := 99) [State.modFw, h, hs]

@[simp] theorem State.setRing_frame {P : Scope} {r s : State} (x1) (x2) (h : Fr P r s)
    (hp : P.outside 0x20000 := by exact Scope.outside_mono (by assumption) (by decide)) :
    Fr P r (State.setRing s x1 x2) := by
  have hs := fun k => Scope.outside_mono (k := k) hp
  simp (maxDischargeDepth := 99) [State.setRing, h, hs]

@[simp] theorem State.setZone_frame {P : Scope} {r s : State} (x1) (x2) (h : Fr P r s)
    (hp : P.outside 0x20000 := by exact Scope.outside_mono (by assumption) (by decide)) :
    Fr P r (State.setZone s x1 x2) := by
  have hs := fun k => Scope.outside_mono (k := k) hp
  simp (maxDischargeDepth := 99) [State.setZone, h, hs]

@[simp] theorem State.modZone_frame {P : Scope} {r s : State} (x1) (x2) (h : Fr P r s)
    (hp : P.outside 0x20000 := by exact Scope.outside_mono (by assumption) (by decide)) :
    Fr P r (State.modZone s x1 x2) := by
  have hs := fun k => Scope.outside_mono (k := k) hp
  simp (maxDischargeDepth := 99) [State.modZone, h, hs]

@[simp] theorem State.postCpl_frame {P : Scope} {r s : State} (x1) (x2) (h : Fr P r s)
    (hp : P.outside 0x1e0000000000000400 := by exact Scope.outside_mono (by assumption) (by decide)) :
    Fr P r (State.postCpl s x1 x2) := by
  have hs := fun k => Scope.outside_mono (k := k) hp
  simp (maxDischargeDepth := 99) [State.postCpl, h, hs]

@[simp] theorem State.returnMop_frame {P : Scope} {r s : State} (x1) (x2) (x3) (h : Fr P r s)
    (hp : P.outside 0x1e0001000000004400 := by exact Scope.outside_mono (by assumption) (by decide)) :
    Fr P r (State.returnMop s x1 x2 x3) := by
  have hs := fun k => Scope.outside_mono (k := k) hp
  simp (maxDischargeDepth := 99) [State.returnMop, h, hs]

@[simp] theorem State.flushRefused_frame {P : Scope} {r s : State} (x1) (x2) (h : Fr P r s)
    (hp : P.outside 0x1e0001000000004400 := by exact Scope.outside_mono (by assumption) (by decide)) :
    Fr P r (State.flushRefused s x1 x2) := by
  have hs := fun k => Scope.outside_mono (k := k) hp
  fun_induction State.flushRefused <;> simp_all (maxDischargeDepth := 99)

@[simp] theorem State.startMop_frame {P : Scope} {r s : State} (x1) (x2) (x3) (h : Fr P r s)
    (hp : P.outside 0x3e00010000000044a0 := by exact Scope.outside_mono (by assumption) (by decide)) :
    Fr P r (State.startMop s x1 x2 x3) := by
  have hs := fun k => Scope.outside_mono (k := k) hp
  simp (maxDischargeDepth := 99) [State.startMop, h, hs]

@[simp] theorem State.govTooSmall_frame {P : Scope} {r s : State} (x1) (h : Fr P r s)
    (hp : P.outside 0x1e0001000000004400 := by exact Scope.outside_mono (by assumption) (by decide)) :
    Fr P r (State.govTooSmall s x1) := by
  have hs := fun k => Scope.outside_mono (k := k) hp
  unfold State.govTooSmall
  (repeat' split) <;> simp (maxDischargeDepth := 99) [h, hs]

@[simp] theorem State.govAhead_frame {P : Scope} {r s : State} (x1) (h : Fr P r s)
    (hp : P.outside 0x100 := by exact Scope.outside_mono (by assumption) (by decide)) :
    Fr P r (State.govAhead s x1) := by
  have hs := fun k => Scope.outside_mono (k := k) hp
  simp (maxDischargeDepth := 99) [State.govAhead, h, hs]

@[simp] theorem State.govBehind_frame {P : Scope} {r s : State} (x1) (h : Fr P r s)
    (hp : P.outside 0x3e00010000000045a0 := by exact Scope.outside_mono (by assumption) (by decide)) :
    Fr P r (State.govBehind s x1) := by
  have hs := fun k => Scope.outside_mono (k := k) hp
  fun_induction State.govBehind <;> simp_all (maxDischargeDepth := 99)

@[simp] theorem State.govDecide_frame {P : Scope} {r s : State} (x1) (h : Fr P r s)
    (hp : P.outside 0x3e00010000000045a0 := by exact Scope.outside_mono (by assumption) (by decide)) :
    Fr P r (State.govDecide s x1) := by
  have hs := fun k => Scope.outside_mono (k := k) hp
  fun_induction State.govDecide <;> simp_all (maxDischargeDepth := 99)

@[simp] theorem State.govAdmit_frame {P : Scope} {r s : State} (h : Fr P r s)
    (hp : P.outside 0x3e00010000000045a0 := by exact Scope.outside_mono (by assumption) (by decide)) :
    Fr P r (State.govAdmit s) := by
  have hs := fun k => Scope.outside_mono (k := k) hp
  simp (maxDischargeDepth := 99) [State.govAdmit, h, hs]

@[simp] theorem State.govRelease_frame {P : Scope} {r s : State} (x1) (h : Fr P r s)
    (hp : P.outside 0x3e00010000000045a0 := by exact Scope.outside_mono (by assumption) (by decide)) :
    Fr P r (State.govRelease s x1) := by
  have hs := fun k => Scope.outside_mono (k := k) hp
  simp (maxDischargeDepth := 99) [State.govRelease, h, hs]

@[simp] theorem State.dropPacket_frame {P : Scope} {r s : State} (x1) (x2) (h : Fr P r s)
    (hp : P.outside 0x1000000004000 := by exact Scope.outside_mono (by assumption) (by decide)) :
    Fr P r (State.dropPacket s x1 x2) := by
  have hs := fun k => Scope.outside_mono (k := k) hp
  unfold State.dropPacket
  repeat' first
    | (simp (maxDischargeDepth := 99) [h, hs]; done)
    | split
    | refine State.each_frame (fun s x => ?_) _ ?_
    | refine State.onlyIf_frame _ (fun s => ?_) ?_
    | simp (maxDischargeDepth := 99) [h, hs]

@[simp] theorem State.withdraw_frame {P : Scope} {r s : State} (x1) (x2) (h : Fr P r s)
    (hp : P.outside 0x1000000004400 := by exact Scope.outside_mono (by assumption) (by decide)) :
    Fr P r (State.withdraw s x1 x2) := by
  have hs := fun k => Scope.outside_mono (k := k) hp
  simp (maxDischargeDepth := 99) [State.withdraw, h, hs]

@[simp] theorem State.strobeMask_frame {P : Scope} {r s : State} (mask : Nat) {f : State → Nat → State}
    (hf : ∀ s x, Fr P s (f s x)) (h : Fr P r s) :
    Fr P r (s.strobeMask mask f) := State.each_frame hf _ h

@[simp] theorem State.abortWrites_frame {P : Scope} {r s : State} (x1) (h : Fr P r s)
    (hp : P.outside 0x10000404 := by exact Scope.outside_mono (by assumption) (by decide)) :
    Fr P r (State.abortWrites s x1) := by
  have hs := fun k => Scope.outside_mono (k := k) hp
  simp (maxDischargeDepth := 99) [State.abortWrites, h, hs]

@[simp] theorem State.stopReads_frame {P : Scope} {r s : State} (x1) (h : Fr P r s)
    (hp : P.outside 0x10000004 := by exact Scope.outside_mono (by assumption) (by decide)) :
    Fr P r (State.stopReads s x1) := by
  have hs := fun k => Scope.outside_mono (k := k) hp
  simp (maxDischargeDepth := 99) [State.stopReads, h, hs]

@[simp] theorem State.releaseGateCells_frame {P : Scope} {r s : State} (x1) (h : Fr P r s)
    (hp : P.outside 0x1000000004000 := by exact Scope.outside_mono (by assumption) (by decide)) :
    Fr P r (State.releaseGateCells s x1) := by
  have hs := fun k => Scope.outside_mono (k := k) hp
  simp (maxDischargeDepth := 99) [State.releaseGateCells, h, hs]

@[simp] theorem State.mopEnd_frame {P : Scope} {r s : State} (x1) (x2) (h : Fr P r s)
    (hp : P.outside 0x3e7f812010100065f4 := by exact Scope.outside_mono (by assumption) (by decide)) :
    Fr P r (State.mopEnd s x1 x2) := by
  have hs := fun k => Scope.outside_mono (k := k) hp
  unfold State.mopEnd
  repeat' first
    | (simp (maxDischargeDepth := 99) [h, hs]; done)
    | split
    | refine State.each_frame (fun s x => ?_) _ ?_
    | refine State.onlyIf_frame _ (fun s => ?_) ?_
    | simp (maxDischargeDepth := 99) [h, hs]

@[simp] theorem State.mopEndNow_frame {P : Scope} {r s : State} (x1) (x2) (h : Fr P r s)
    (hp : P.outside 0x3e7f812010100065f4 := by exact Scope.outside_mono (by assumption) (by decide)) :
    Fr P r (State.mopEndNow s x1 x2) := by
  have hs := fun k => Scope.outside_mono (k := k) hp
  simp (maxDischargeDepth := 99) [State.mopEndNow, h, hs]

@[simp] theorem State.keepV_frame {P : Scope} {r s : State} (x1) (h : Fr P r s)
    (hp : P.outside 0x20000 := by exact Scope.outside_mono (by assumption) (by decide)) :
    Fr P r (State.keepV s x1) := by
  have hs := fun k => Scope.outside_mono (k := k) hp
  unfold State.keepV
  repeat' first
    | (simp (maxDischargeDepth := 99) [h, hs]; done)
    | split
    | refine State.each_frame (fun s x => ?_) _ ?_
    | refine State.onlyIf_frame _ (fun s => ?_) ?_
    | simp (maxDischargeDepth := 99) [h, hs]

@[simp] theorem State.mopFinish_frame {P : Scope} {r s : State} (x1) (x2) (h : Fr P r s)
    (hp : P.outside 0x1e7801000000024400 := by exact Scope.outside_mono (by assumption) (by decide)) :
    Fr P r (State.mopFinish s x1 x2) := by
  have hs := fun k => Scope.outside_mono (k := k) hp
  unfold State.mopFinish
  repeat' first
    | (simp (maxDischargeDepth := 99) [h, hs]; done)
    | split
    | refine State.each_frame (fun s x => ?_) _ ?_
    | refine State.onlyIf_frame _ (fun s => ?_) ?_
    | simp (maxDischargeDepth := 99) [h, hs]

@[simp] theorem State.setRewindSt_frame {P : Scope} {r s : State} (x1) (x2) (h : Fr P r s)
    (hp : P.outside 0x7800000000000000 := by exact Scope.outside_mono (by assumption) (by decide)) :
    Fr P r (State.setRewindSt s x1 x2) := by
  have hs := fun k => Scope.outside_mono (k := k) hp
  simp (maxDischargeDepth := 99) [State.setRewindSt, h, hs]

@[simp] theorem State.dropGates_frame {P : Scope} {r s : State} (x1) (x2) (x3) (x4) (h : Fr P r s)
    (hp : P.outside 0x1000000004400 := by exact Scope.outside_mono (by assumption) (by decide)) :
    Fr P r (State.dropGates s x1 x2 x3 x4) := by
  have hs := fun k => Scope.outside_mono (k := k) hp
  simp (maxDischargeDepth := 99) [State.dropGates, h, hs]

@[simp] theorem State.markMirror_frame {P : Scope} {r s : State} (x1) (x2) (x3) (x4) (h : Fr P r s)
    (hp : P.outside 0x800000000 := by exact Scope.outside_mono (by assumption) (by decide)) :
    Fr P r (State.markMirror s x1 x2 x3 x4) := by
  have hs := fun k => Scope.outside_mono (k := k) hp
  unfold State.markMirror
  (repeat' split) <;> simp (maxDischargeDepth := 99) [h, hs]

@[simp] theorem State.dropBelow_frame {P : Scope} {r s : State} (x1) (x2) (h : Fr P r s)
    (hp : P.outside 0x20000 := by exact Scope.outside_mono (by assumption) (by decide)) :
    Fr P r (State.dropBelow s x1 x2) := by
  have hs := fun k => Scope.outside_mono (k := k) hp
  simp (maxDischargeDepth := 99) [State.dropBelow, h, hs]

@[simp] theorem State.verifyPass_frame {P : Scope} {r s : State} (x1) (x2) (x3) (h : Fr P r s)
    (hp : P.outside 0x7800000800020420 := by exact Scope.outside_mono (by assumption) (by decide)) :
    Fr P r (State.verifyPass s x1 x2 x3) := by
  have hs := fun k => Scope.outside_mono (k := k) hp
  unfold State.verifyPass
  repeat' first
    | (simp (maxDischargeDepth := 99) [h, hs]; done)
    | split
    | refine State.each_frame (fun s x => ?_) _ ?_
    | refine State.onlyIf_frame _ (fun s => ?_) ?_
    | simp (maxDischargeDepth := 99) [h, hs]

@[simp] theorem State.sealBand_frame {P : Scope} {r s : State} (x1) (x2) (h : Fr P r s)
    (hp : P.outside 0x1e7801000000004420 := by exact Scope.outside_mono (by assumption) (by decide)) :
    Fr P r (State.sealBand s x1 x2) := by
  have hs := fun k => Scope.outside_mono (k := k) hp
  simp (maxDischargeDepth := 99) [State.sealBand, h, hs]

@[simp] theorem State.verifyCount_frame {P : Scope} {r s : State} (x1) (x2) (x3) (x4) (h : Fr P r s)
    (hp : P.outside 0x7801000000004420 := by exact Scope.outside_mono (by assumption) (by decide)) :
    Fr P r (State.verifyCount s x1 x2 x3 x4) := by
  have hs := fun k => Scope.outside_mono (k := k) hp
  simp (maxDischargeDepth := 99) [State.verifyCount, h, hs]

@[simp] theorem State.verifyFail_frame {P : Scope} {r s : State} (x1) (x2) (x3) (x4) (x5) (x6) (x7) (h : Fr P r s)
    (hp : P.outside 0x3e7f812010100065f4 := by exact Scope.outside_mono (by assumption) (by decide)) :
    Fr P r (State.verifyFail s x1 x2 x3 x4 x5 x6 x7) := by
  have hs := fun k => Scope.outside_mono (k := k) hp
  simp (maxDischargeDepth := 99) [State.verifyFail, h, hs]

@[simp] theorem State.firstPassFail_frame {P : Scope} {r s : State} (x1) (x2) (h : Fr P r s)
    (hp : P.outside 0x781000000004000 := by exact Scope.outside_mono (by assumption) (by decide)) :
    Fr P r (State.firstPassFail s x1 x2) := by
  have hs := fun k => Scope.outside_mono (k := k) hp
  simp (maxDischargeDepth := 99) [State.firstPassFail, h, hs]

@[simp] theorem State.failArriving_frame {P : Scope} {r s : State} (x1) (x2) (x3) (x4) (h : Fr P r s)
    (hp : P.outside 0x781000000004010 := by exact Scope.outside_mono (by assumption) (by decide)) :
    Fr P r (State.failArriving s x1 x2 x3 x4) := by
  have hs := fun k => Scope.outside_mono (k := k) hp
  simp (maxDischargeDepth := 99) [State.failArriving, h, hs]

@[simp] theorem State.markFailed_frame {P : Scope} {r s : State} (x1) (x2) (x3) (h : Fr P r s)
    (hp : P.outside 0x400 := by exact Scope.outside_mono (by assumption) (by decide)) :
    Fr P r (State.markFailed s x1 x2 x3) := by
  have hs := fun k => Scope.outside_mono (k := k) hp
  simp (maxDischargeDepth := 99) [State.markFailed, h, hs]

@[simp] theorem State.failGate_frame {P : Scope} {r s : State} (x1) (x2) (x3) (h : Fr P r s)
    (hp : P.outside 0x3e7f812010100065f4 := by exact Scope.outside_mono (by assumption) (by decide)) :
    Fr P r (State.failGate s x1 x2 x3) := by
  have hs := fun k => Scope.outside_mono (k := k) hp
  simp (maxDischargeDepth := 99) [State.failGate, h, hs]

@[simp] theorem State.failGates_frame {P : Scope} {r s : State} (x1) (x2) (x3) (h : Fr P r s)
    (hp : P.outside 0x3e7f812010100065f4 := by exact Scope.outside_mono (by assumption) (by decide)) :
    Fr P r (State.failGates s x1 x2 x3) := by
  have hs := fun k => Scope.outside_mono (k := k) hp
  simp (maxDischargeDepth := 99) [State.failGates, h, hs]

@[simp] theorem State.inhibitHead_frame {P : Scope} {r s : State} (x1) (x2) (x3) (h : Fr P r s)
    (hp : P.outside 0x3e7f812010100065f4 := by exact Scope.outside_mono (by assumption) (by decide)) :
    Fr P r (State.inhibitHead s x1 x2 x3) := by
  have hs := fun k => Scope.outside_mono (k := k) hp
  simp (maxDischargeDepth := 99) [State.inhibitHead, h, hs]

@[simp] theorem State.rewindResume_frame {P : Scope} {r s : State} (x1) (h : Fr P r s)
    (hp : P.outside 0x1e0000000000000020 := by exact Scope.outside_mono (by assumption) (by decide)) :
    Fr P r (State.rewindResume s x1) := by
  have hs := fun k => Scope.outside_mono (k := k) hp
  simp (maxDischargeDepth := 99) [State.rewindResume, h, hs]

@[simp] theorem State.uninhibit_frame {P : Scope} {r s : State} (x1) (x2) (x3) (h : Fr P r s)
    (hp : P.outside 0x1e7801200000006060 := by exact Scope.outside_mono (by assumption) (by decide)) :
    Fr P r (State.uninhibit s x1 x2 x3) := by
  have hs := fun k => Scope.outside_mono (k := k) hp
  simp (maxDischargeDepth := 99) [State.uninhibit, h, hs]

@[simp] theorem State.wpaRamp_frame {P : Scope} {r s : State} (x1) (x2) (h : Fr P r s)
    (hp : P.outside 0x7801200000006040 := by exact Scope.outside_mono (by assumption) (by decide)) :
    Fr P r (State.wpaRamp s x1 x2) := by
  have hs := fun k => Scope.outside_mono (k := k) hp
  simp (maxDischargeDepth := 99) [State.wpaRamp, h, hs]

@[simp] theorem State.disableLoop_frame {P : Scope} {r s : State} (x1) (h : Fr P r s)
    (hp : P.outside 0x1200000006040 := by exact Scope.outside_mono (by assumption) (by decide)) :
    Fr P r (State.disableLoop s x1) := by
  have hs := fun k => Scope.outside_mono (k := k) hp
  simp (maxDischargeDepth := 99) [State.disableLoop, h, hs]

@[simp] theorem State.dropHead_frame {P : Scope} {r s : State} (x1) (x2) (h : Fr P r s)
    (hp : P.outside 0x3e7f812010100065f4 := by exact Scope.outside_mono (by assumption) (by decide)) :
    Fr P r (State.dropHead s x1 x2) := by
  have hs := fun k => Scope.outside_mono (k := k) hp
  simp (maxDischargeDepth := 99) [State.dropHead, h, hs]

@[simp] theorem State.sendAmp_frame {P : Scope} {r s : State} (x1) (x2) (x3) (h : Fr P r s)
    (hp : P.outside 0x10000080 := by exact Scope.outside_mono (by assumption) (by decide)) :
    Fr P r (State.sendAmp s x1 x2 x3) := by
  have hs := fun k => Scope.outside_mono (k := k) hp
  simp (maxDischargeDepth := 99) [State.sendAmp, h, hs]

@[simp] theorem State.leaveBand_frame {P : Scope} {r s : State} (x1) (x2) (h : Fr P r s)
    (hp : P.outside 0x7800000000000400 := by exact Scope.outside_mono (by assumption) (by decide)) :
    Fr P r (State.leaveBand s x1 x2) := by
  have hs := fun k => Scope.outside_mono (k := k) hp
  simp (maxDischargeDepth := 99) [State.leaveBand, h, hs]

@[simp] theorem State.calAbandon_frame {P : Scope} {r s : State} (x1) (h : Fr P r s)
    (hp : P.outside 0x1002102004000 := by exact Scope.outside_mono (by assumption) (by decide)) :
    Fr P r (State.calAbandon s x1) := by
  have hs := fun k => Scope.outside_mono (k := k) hp
  simp (maxDischargeDepth := 99) [State.calAbandon, h, hs]

@[simp] theorem State.cutWrites_frame {P : Scope} {r s : State} (x1) (h : Fr P r s)
    (hp : P.outside 0x7801000010004424 := by exact Scope.outside_mono (by assumption) (by decide)) :
    Fr P r (State.cutWrites s x1) := by
  have hs := fun k => Scope.outside_mono (k := k) hp
  simp (maxDischargeDepth := 99) [State.cutWrites, h, hs]

@[simp] theorem State.cutGates_frame {P : Scope} {r s : State} (x1) (x2) (h : Fr P r s)
    (hp : P.outside 0x3e7f812010100065f4 := by exact Scope.outside_mono (by assumption) (by decide)) :
    Fr P r (State.cutGates s x1 x2) := by
  have hs := fun k => Scope.outside_mono (k := k) hp
  simp (maxDischargeDepth := 99) [State.cutGates, h, hs]

@[simp] theorem State.retract_frame {P : Scope} {r s : State} (x1) (x2) (h : Fr P r s)
    (hp : P.outside 0x3e7f812031120065f4 := by exact Scope.outside_mono (by assumption) (by decide)) :
    Fr P r (State.retract s x1 x2) := by
  have hs := fun k => Scope.outside_mono (k := k) hp
  simp (maxDischargeDepth := 99) [State.retract, h, hs]

@[simp] theorem State.calTrigger_frame {P : Scope} {r s : State} (x1) (x2) (h : Fr P r s)
    (hp : P.outside 0x2002000000 := by exact Scope.outside_mono (by assumption) (by decide)) :
    Fr P r (State.calTrigger s x1 x2) := by
  have hs := fun k => Scope.outside_mono (k := k) hp
  simp (maxDischargeDepth := 99) [State.calTrigger, h, hs]

@[simp] theorem State.sensorCheck_frame {P : Scope} {r s : State} (x1) (x2) (h : Fr P r s)
    (hp : P.outside 0x1002002004000 := by exact Scope.outside_mono (by assumption) (by decide)) :
    Fr P r (State.sensorCheck s x1 x2) := by
  have hs := fun k => Scope.outside_mono (k := k) hp
  simp (maxDischargeDepth := 99) [State.sensorCheck, h, hs]

@[simp] theorem State.cyselTemp_frame {P : Scope} {r s : State} (x1) (x2) (h : Fr P r s)
    (hp : P.outside 0x1002002004000 := by exact Scope.outside_mono (by assumption) (by decide)) :
    Fr P r (State.cyselTemp s x1 x2) := by
  have hs := fun k => Scope.outside_mono (k := k) hp
  simp (maxDischargeDepth := 99) [State.cyselTemp, h, hs]

end Sys2Proof.Machine
end

