-- ==== Sys2Proof/Laws/FrameUlk.lean ====
section
/-! SUPPORT. What each operation of Machine/Ulk.lean leaves alone. -/
set_option linter.unusedSimpArgs false
set_option linter.unusedTactic false
set_option linter.unreachableTactic false
set_option linter.unnecessarySeqFocus false
namespace Sys2Proof.Machine
set_option Elab.async false

@[simp] theorem State.servoLost_frame {P : Scope} {r s : State} (x1) (h : Fr P r s)
    (hp : P.outside 0x3efff92031120065f4 := by exact Scope.outside_mono (by assumption) (by decide)) :
    Fr P r (State.servoLost s x1) := by
  have hs := fun k => Scope.outside_mono (k := k) hp
  simp (maxDischargeDepth := 99) [State.servoLost, h, hs]

@[simp] theorem State.portLost_frame {P : Scope} {r s : State} (x1) (h : Fr P r s)
    (hp : P.outside 0x3efff92031120065f4 := by exact Scope.outside_mono (by assumption) (by decide)) :
    Fr P r (State.portLost s x1) := by
  have hs := fun k => Scope.outside_mono (k := k) hp
  simp (maxDischargeDepth := 99) [State.portLost, h, hs]

@[simp] theorem State.laneDown_frame {P : Scope} {r s : State} (x1) (x2) (h : Fr P r s)
    (hp : P.outside 0x3efff92031120065f4 := by exact Scope.outside_mono (by assumption) (by decide)) :
    Fr P r (State.laneDown s x1 x2) := by
  have hs := fun k => Scope.outside_mono (k := k) hp
  simp (maxDischargeDepth := 99) [State.laneDown, h, hs]

@[simp] theorem State.portFailed_frame {P : Scope} {r s : State} (x1) (h : Fr P r s)
    (hp : P.outside 0x3efff92031120065f4 := by exact Scope.outside_mono (by assumption) (by decide)) :
    Fr P r (State.portFailed s x1) := by
  have hs := fun k => Scope.outside_mono (k := k) hp
  simp (maxDischargeDepth := 99) [State.portFailed, h, hs]

@[simp] theorem State.trainFrom_frame {P : Scope} {r s : State} (x1) (x2) (h : Fr P r s)
    (hp : P.outside 0x78000000000004 := by exact Scope.outside_mono (by assumption) (by decide)) :
    Fr P r (State.trainFrom s x1 x2) := by
  have hs := fun k => Scope.outside_mono (k := k) hp
  simp (maxDischargeDepth := 99) [State.trainFrom, h, hs]

@[simp] theorem State.startTraining_frame {P : Scope} {r s : State} (x1) (h : Fr P r s)
    (hp : P.outside 0x3efff92031120065f4 := by exact Scope.outside_mono (by assumption) (by decide)) :
    Fr P r (State.startTraining s x1) := by
  have hs := fun k => Scope.outside_mono (k := k) hp
  simp (maxDischargeDepth := 99) [State.startTraining, h, hs]

@[simp] theorem State.stopPort_frame {P : Scope} {r s : State} (x1) (h : Fr P r s)
    (hp : P.outside 0x78000000000004 := by exact Scope.outside_mono (by assumption) (by decide)) :
    Fr P r (State.stopPort s x1) := by
  have hs := fun k => Scope.outside_mono (k := k) hp
  simp (maxDischargeDepth := 99) [State.stopPort, h, hs]

@[simp] theorem State.portEn_frame {P : Scope} {r s : State} (x1) (x2) (h : Fr P r s)
    (hp : P.outside 0x3efff92031120065f4 := by exact Scope.outside_mono (by assumption) (by decide)) :
    Fr P r (State.portEn s x1 x2) := by
  have hs := fun k => Scope.outside_mono (k := k) hp
  simp (maxDischargeDepth := 99) [State.portEn, h, hs]

@[simp] theorem execUlkPortEn_frame {P : Scope} {r s : State} (x1) (x2) (h : Fr P r s)
    (hp : P.outside 0x3efff92031120065f4 := by exact Scope.outside_mono (by assumption) (by decide)) :
    ∃ t, execUlkPortEn x1 x2 s = .next t ∧ Fr P r t := by
  have hs := fun k => Scope.outside_mono (k := k) hp
  exact ⟨_, rfl, by simp (maxDischargeDepth := 99) [h, hs]⟩

@[simp] theorem State.attemptFailed_frame {P : Scope} {r s : State} (x1) (h : Fr P r s)
    (hp : P.outside 0x3efff92031120065f4 := by exact Scope.outside_mono (by assumption) (by decide)) :
    Fr P r (State.attemptFailed s x1) := by
  have hs := fun k => Scope.outside_mono (k := k) hp
  simp (maxDischargeDepth := 99) [State.attemptFailed, h, hs]

@[simp] theorem State.portActive_frame {P : Scope} {r s : State} (x1) (h : Fr P r s)
    (hp : P.outside 0x78000000000004 := by exact Scope.outside_mono (by assumption) (by decide)) :
    Fr P r (State.portActive s x1) := by
  have hs := fun k => Scope.outside_mono (k := k) hp
  simp (maxDischargeDepth := 99) [State.portActive, h, hs]

@[simp] theorem State.echoRequest_frame {P : Scope} {r s : State} (x1) (h : Fr P r s)
    (hp : P.outside 0x10000004 := by exact Scope.outside_mono (by assumption) (by decide)) :
    Fr P r (State.echoRequest s x1) := by
  have hs := fun k => Scope.outside_mono (k := k) hp
  simp (maxDischargeDepth := 99) [State.echoRequest, h, hs]

@[simp] theorem State.trainStep_frame {P : Scope} {r s : State} (x1) (x2) (h : Fr P r s)
    (hp : P.outside 0x3efff92031320065f4 := by exact Scope.outside_mono (by assumption) (by decide)) :
    Fr P r (State.trainStep s x1 x2) := by
  have hs := fun k => Scope.outside_mono (k := k) hp
  simp (maxDischargeDepth := 99) [State.trainStep, h, hs]

@[simp] theorem execTrainingStepDone_frame {P : Scope} {r s : State} (x1) (x2) (h : Fr P r s)
    (hp : P.outside 0x3efff92031320065f4 := by exact Scope.outside_mono (by assumption) (by decide)) :
    ∃ t, execTrainingStepDone x1 x2 s = .next t ∧ Fr P r t := by
  have hs := fun k => Scope.outside_mono (k := k) hp
  exact ⟨_, rfl, by simp (maxDischargeDepth := 99) [h, hs]⟩

@[simp] theorem execTrainingAttemptTimeout_frame {P : Scope} {r s : State} (x1) (h : Fr P r s)
    (hp : P.outside 0x3efff92031120065f4 := by exact Scope.outside_mono (by assumption) (by decide)) :
    ∃ t, execTrainingAttemptTimeout x1 s = .next t ∧ Fr P r t := by
  have hs := fun k => Scope.outside_mono (k := k) hp
  exact ⟨_, rfl, by simp (maxDischargeDepth := 99) [h, hs]⟩

@[simp] theorem State.echoReply_frame {P : Scope} {r s : State} (x1) (h : Fr P r s)
    (hp : P.outside 0x78000010000000 := by exact Scope.outside_mono (by assumption) (by decide)) :
    Fr P r (State.echoReply s x1) := by
  have hs := fun k => Scope.outside_mono (k := k) hp
  simp (maxDischargeDepth := 99) [State.echoReply, h, hs]

@[simp] theorem execTimeEchoReply_frame {P : Scope} {r s : State} (x1) (h : Fr P r s)
    (hp : P.outside 0x78000010000000 := by exact Scope.outside_mono (by assumption) (by decide)) :
    ∃ t, execTimeEchoReply x1 s = .next t ∧ Fr P r t := by
  have hs := fun k => Scope.outside_mono (k := k) hp
  exact ⟨_, rfl, by simp (maxDischargeDepth := 99) [h, hs]⟩

@[simp] theorem State.rateTry_frame {P : Scope} {r s : State} (x1) (h : Fr P r s)
    (hp : P.outside 0x10000004 := by exact Scope.outside_mono (by assumption) (by decide)) :
    Fr P r (State.rateTry s x1) := by
  have hs := fun k => Scope.outside_mono (k := k) hp
  unfold State.rateTry
  (repeat' split) <;> simp (maxDischargeDepth := 99) [h, hs]

@[simp] theorem State.askSwitch_frame {P : Scope} {r s : State} (x1) (x2) (h : Fr P r s)
    (hp : P.outside 0x10000004 := by exact Scope.outside_mono (by assumption) (by decide)) :
    Fr P r (State.askSwitch s x1 x2) := by
  have hs := fun k => Scope.outside_mono (k := k) hp
  simp (maxDischargeDepth := 99) [State.askSwitch, h, hs]

@[simp] theorem State.rateRequest_frame {P : Scope} {r s : State} (x1) (h : Fr P r s)
    (hp : P.outside 0x78000010000004 := by exact Scope.outside_mono (by assumption) (by decide)) :
    Fr P r (State.rateRequest s x1) := by
  have hs := fun k => Scope.outside_mono (k := k) hp
  simp (maxDischargeDepth := 99) [State.rateRequest, h, hs]

@[simp] theorem execRateReq_frame {P : Scope} {r s : State} (x1) (h : Fr P r s)
    (hp : P.outside 0x78000010000004 := by exact Scope.outside_mono (by assumption) (by decide)) :
    ∃ t, execRateReq x1 s = .next t ∧ Fr P r t := by
  have hs := fun k => Scope.outside_mono (k := k) hp
  exact ⟨_, rfl, by simp (maxDischargeDepth := 99) [h, hs]⟩

@[simp] theorem State.switchNow_frame {P : Scope} {r s : State} (x1) (h : Fr P r s)
    (hp : P.outside 0x78000000000000 := by exact Scope.outside_mono (by assumption) (by decide)) :
    Fr P r (State.switchNow s x1) := by
  have hs := fun k => Scope.outside_mono (k := k) hp
  unfold State.switchNow
  (repeat' split) <;> simp (maxDischargeDepth := 99) [h, hs]

@[simp] theorem execRateSwitchInstant_frame {P : Scope} {r s : State} (x1) (h : Fr P r s)
    (hp : P.outside 0x78000000000000 := by exact Scope.outside_mono (by assumption) (by decide)) :
    ∃ t, execRateSwitchInstant x1 s = .next t ∧ Fr P r t := by
  have hs := fun k => Scope.outside_mono (k := k) hp
  refine ⟨_, rfl, ?_⟩
  (repeat' split) <;> simp (maxDischargeDepth := 99) [h, hs]

@[simp] theorem State.switchedGates_frame {P : Scope} {r s : State} (x1) (h : Fr P r s)
    (hp : P.outside 0x400 := by exact Scope.outside_mono (by assumption) (by decide)) :
    Fr P r (State.switchedGates s x1) := by
  have hs := fun k => Scope.outside_mono (k := k) hp
  simp (maxDischargeDepth := 99) [State.switchedGates, h, hs]

@[simp] theorem State.switchDone_frame {P : Scope} {r s : State} (x1) (x2) (h : Fr P r s)
    (hp : P.outside 0x3efff92031120065f4 := by exact Scope.outside_mono (by assumption) (by decide)) :
    Fr P r (State.switchDone s x1 x2) := by
  have hs := fun k => Scope.outside_mono (k := k) hp
  simp (maxDischargeDepth := 99) [State.switchDone, h, hs]

@[simp] theorem execRateSwitchLockCheck_frame {P : Scope} {r s : State} (x1) (x2) (h : Fr P r s)
    (hp : P.outside 0x3efff92031120065f4 := by exact Scope.outside_mono (by assumption) (by decide)) :
    ∃ t, execRateSwitchLockCheck x1 x2 s = .next t ∧ Fr P r t := by
  have hs := fun k => Scope.outside_mono (k := k) hp
  exact ⟨_, rfl, by simp (maxDischargeDepth := 99) [h, hs]⟩

@[simp] theorem State.ulkRetrain_frame {P : Scope} {r s : State} (x1) (h : Fr P r s)
    (hp : P.outside 0x3efff92031120065f4 := by exact Scope.outside_mono (by assumption) (by decide)) :
    Fr P r (State.ulkRetrain s x1) := by
  have hs := fun k => Scope.outside_mono (k := k) hp
  simp (maxDischargeDepth := 99) [State.ulkRetrain, h, hs]

@[simp] theorem execUlkRetrain_frame {P : Scope} {r s : State} (x1) (h : Fr P r s)
    (hp : P.outside 0x3efff92031120065f4 := by exact Scope.outside_mono (by assumption) (by decide)) :
    ∃ t, execUlkRetrain x1 s = .next t ∧ Fr P r t := by
  have hs := fun k => Scope.outside_mono (k := k) hp
  exact ⟨_, rfl, by simp (maxDischargeDepth := 99) [h, hs]⟩

@[simp] theorem execLaneRetrainDone_frame {P : Scope} {r s : State} (x1) (x2) (x3) (h : Fr P r s)
    (hp : P.outside 0x78000000000004 := by exact Scope.outside_mono (by assumption) (by decide)) :
    ∃ t, execLaneRetrainDone x1 x2 x3 s = .next t ∧ Fr P r t := by
  have hs := fun k => Scope.outside_mono (k := k) hp
  exact ⟨_, rfl, by simp (maxDischargeDepth := 99) [h, hs]⟩

@[simp] theorem State.sleepReq_frame {P : Scope} {r s : State} (x1) (h : Fr P r s)
    (hp : P.outside 0x10000004 := by exact Scope.outside_mono (by assumption) (by decide)) :
    Fr P r (State.sleepReq s x1) := by
  have hs := fun k => Scope.outside_mono (k := k) hp
  simp (maxDischargeDepth := 99) [State.sleepReq, h, hs]

@[simp] theorem execSleepReq_frame {P : Scope} {r s : State} (x1) (h : Fr P r s)
    (hp : P.outside 0x10000004 := by exact Scope.outside_mono (by assumption) (by decide)) :
    ∃ t, execSleepReq x1 s = .next t ∧ Fr P r t := by
  have hs := fun k => Scope.outside_mono (k := k) hp
  exact ⟨_, rfl, by simp (maxDischargeDepth := 99) [h, hs]⟩

@[simp] theorem State.sleepNow_frame {P : Scope} {r s : State} (x1) (h : Fr P r s)
    (hp : P.outside 0x78000000000004 := by exact Scope.outside_mono (by assumption) (by decide)) :
    Fr P r (State.sleepNow s x1) := by
  have hs := fun k => Scope.outside_mono (k := k) hp
  simp (maxDischargeDepth := 99) [State.sleepNow, h, hs]

@[simp] theorem State.sleepAck_frame {P : Scope} {r s : State} (x1) (x2) (h : Fr P r s)
    (hp : P.outside 0x78000000000004 := by exact Scope.outside_mono (by assumption) (by decide)) :
    Fr P r (State.sleepAck s x1 x2) := by
  have hs := fun k => Scope.outside_mono (k := k) hp
  unfold State.sleepAck
  (repeat' split) <;> simp (maxDischargeDepth := 99) [h, hs]

@[simp] theorem execSleepAck_frame {P : Scope} {r s : State} (x1) (x2) (h : Fr P r s)
    (hp : P.outside 0x78000000000004 := by exact Scope.outside_mono (by assumption) (by decide)) :
    ∃ t, execSleepAck x1 x2 s = .next t ∧ Fr P r t := by
  have hs := fun k => Scope.outside_mono (k := k) hp
  refine ⟨_, rfl, ?_⟩
  (repeat' split) <;> simp (maxDischargeDepth := 99) [h, hs]

@[simp] theorem State.sleepFailed_frame {P : Scope} {r s : State} (x1) (h : Fr P r s)
    (hp : P.outside 0x79000000004004 := by exact Scope.outside_mono (by assumption) (by decide)) :
    Fr P r (State.sleepFailed s x1) := by
  have hs := fun k => Scope.outside_mono (k := k) hp
  simp (maxDischargeDepth := 99) [State.sleepFailed, h, hs]

@[simp] theorem execSleepAckTimeout_frame {P : Scope} {r s : State} (x1) (h : Fr P r s)
    (hp : P.outside 0x79000010004004 := by exact Scope.outside_mono (by assumption) (by decide)) :
    ∃ t, execSleepAckTimeout x1 s = .next t ∧ Fr P r t := by
  have hs := fun k => Scope.outside_mono (k := k) hp
  refine ⟨_, rfl, ?_⟩
  (repeat' split) <;> simp (maxDischargeDepth := 99) [h, hs]

@[simp] theorem State.wakeReq_frame {P : Scope} {r s : State} (x1) (h : Fr P r s)
    (hp : P.outside 0x78000010000004 := by exact Scope.outside_mono (by assumption) (by decide)) :
    Fr P r (State.wakeReq s x1) := by
  have hs := fun k => Scope.outside_mono (k := k) hp
  simp (maxDischargeDepth := 99) [State.wakeReq, h, hs]

@[simp] theorem execWakeReq_frame {P : Scope} {r s : State} (x1) (h : Fr P r s)
    (hp : P.outside 0x78000010000004 := by exact Scope.outside_mono (by assumption) (by decide)) :
    ∃ t, execWakeReq x1 s = .next t ∧ Fr P r t := by
  have hs := fun k => Scope.outside_mono (k := k) hp
  exact ⟨_, rfl, by simp (maxDischargeDepth := 99) [h, hs]⟩

@[simp] theorem State.ulkWakes_frame {P : Scope} {r s : State} (x1) (h : Fr P r s)
    (hp : P.outside 0x78000000000004 := by exact Scope.outside_mono (by assumption) (by decide)) :
    Fr P r (State.ulkWakes s x1) := by
  have hs := fun k => Scope.outside_mono (k := k) hp
  simp (maxDischargeDepth := 99) [State.ulkWakes, h, hs]

@[simp] theorem State.ulkCount_frame {P : Scope} {r s : State} (n : Nat) (c : Ctr) (h1 : P.outside (winMask c.addr))
    (h2 : P.outside (winMask c.sat)) (h3 : P.outside (winMask c.int)) (hp : P.outside 0x79000000004000) (h : Fr P r s) :
    Fr P r (s.ulkCount n c) := by
  have hs := fun k => Scope.outside_mono (k := k) hp
  unfold State.ulkCount
  simp (maxDischargeDepth := 99) [h, h1, h2, h3, hs]

@[simp] theorem State.sendNak_frame {P : Scope} {r s : State} (x1) (x2) (h : Fr P r s)
    (hp : P.outside 0x10000004 := by exact Scope.outside_mono (by assumption) (by decide)) :
    Fr P r (State.sendNak s x1 x2) := by
  have hs := fun k => Scope.outside_mono (k := k) hp
  simp (maxDischargeDepth := 99) [State.sendNak, h, hs]

@[simp] theorem State.linkAck_frame {P : Scope} {r s : State} (x1) (x2) (x3) (h : Fr P r s)
    (hp : P.outside 0x10000004 := by exact Scope.outside_mono (by assumption) (by decide)) :
    Fr P r (State.linkAck s x1 x2 x3) := by
  have hs := fun k => Scope.outside_mono (k := k) hp
  simp (maxDischargeDepth := 99) [State.linkAck, h, hs]

@[simp] theorem execLinkAck_frame {P : Scope} {r s : State} (x1) (x2) (x3) (h : Fr P r s)
    (hp : P.outside 0x10000004 := by exact Scope.outside_mono (by assumption) (by decide)) :
    ∃ t, execLinkAck x1 x2 x3 s = .next t ∧ Fr P r t := by
  have hs := fun k => Scope.outside_mono (k := k) hp
  exact ⟨_, rfl, by simp (maxDischargeDepth := 99) [h, hs]⟩

@[simp] theorem State.linkNak_frame {P : Scope} {r s : State} (x1) (x2) (x3) (h : Fr P r s)
    (hp : P.outside 0x3efff92031120065f4 := by exact Scope.outside_mono (by assumption) (by decide)) :
    Fr P r (State.linkNak s x1 x2 x3) := by
  have hs := fun k => Scope.outside_mono (k := k) hp
  simp (maxDischargeDepth := 99) [State.linkNak, h, hs]

@[simp] theorem execLinkNak_frame {P : Scope} {r s : State} (x1) (x2) (x3) (h : Fr P r s)
    (hp : P.outside 0x3efff92031120065f4 := by exact Scope.outside_mono (by assumption) (by decide)) :
    ∃ t, execLinkNak x1 x2 x3 s = .next t ∧ Fr P r t := by
  have hs := fun k => Scope.outside_mono (k := k) hp
  exact ⟨_, rfl, by simp (maxDischargeDepth := 99) [h, hs]⟩

@[simp] theorem State.nakAgain_frame {P : Scope} {r s : State} (x1) (x2) (h : Fr P r s)
    (hp : P.outside 0x3efff92031120065f4 := by exact Scope.outside_mono (by assumption) (by decide)) :
    Fr P r (State.nakAgain s x1 x2) := by
  have hs := fun k => Scope.outside_mono (k := k) hp
  simp (maxDischargeDepth := 99) [State.nakAgain, h, hs]

@[simp] theorem execNakTimeout_frame {P : Scope} {r s : State} (x1) (x2) (h : Fr P r s)
    (hp : P.outside 0x3efff92031120065f4 := by exact Scope.outside_mono (by assumption) (by decide)) :
    ∃ t, execNakTimeout x1 x2 s = .next t ∧ Fr P r t := by
  have hs := fun k => Scope.outside_mono (k := k) hp
  exact ⟨_, rfl, by simp (maxDischargeDepth := 99) [h, hs]⟩

@[simp] theorem State.evictHeld_frame {P : Scope} {r s : State} (x1) (x2) (h : Fr P r s)
    (hp : P.outside 0x781000000004010 := by exact Scope.outside_mono (by assumption) (by decide)) :
    Fr P r (State.evictHeld s x1 x2) := by
  have hs := fun k => Scope.outside_mono (k := k) hp
  simp (maxDischargeDepth := 99) [State.evictHeld, h, hs]

@[simp] theorem State.makeRoom_frame {P : Scope} {r s : State} (x1) (x2) (x3) (x4) (h : Fr P r s)
    (hp : P.outside 0x781000000004010 := by exact Scope.outside_mono (by assumption) (by decide)) :
    Fr P r (State.makeRoom s x1 x2 x3 x4).1 := by
  have hs := fun k => Scope.outside_mono (k := k) hp
  fun_induction State.makeRoom <;> simp_all (maxDischargeDepth := 99)

@[simp] theorem State.discardSamples_frame {P : Scope} {r s : State} (x1) (x2) (x3) (h : Fr P r s)
    (hp : P.outside 0x781000000004410 := by exact Scope.outside_mono (by assumption) (by decide)) :
    Fr P r (State.discardSamples s x1 x2 x3) := by
  have hs := fun k => Scope.outside_mono (k := k) hp
  simp (maxDischargeDepth := 99) [State.discardSamples, h, hs]

@[simp] theorem State.storeSamples_frame {P : Scope} {r s : State} (x1) (x2) (x3) (x4) (h : Fr P r s)
    (hp : P.outside 0x781000000004410 := by exact Scope.outside_mono (by assumption) (by decide)) :
    Fr P r (State.storeSamples s x1 x2 x3 x4) := by
  have hs := fun k => Scope.outside_mono (k := k) hp
  unfold State.storeSamples
  (repeat' split) <;> simp (maxDischargeDepth := 99) [h, hs]

@[simp] theorem State.setBursts_frame {P : Scope} {r s : State} (x1) (x2) (x3) (h : Fr P r s)
    (hp : P.outside 0x4 := by exact Scope.outside_mono (by assumption) (by decide)) :
    Fr P r (State.setBursts s x1 x2 x3) := by
  have hs := fun k => Scope.outside_mono (k := k) hp
  simp (maxDischargeDepth := 99) [State.setBursts, h, hs]

@[simp] theorem State.burstStored_frame {P : Scope} {r s : State} (x1) (x2) (x3) (h : Fr P r s)
    (hp : P.outside 0x10 := by exact Scope.outside_mono (by assumption) (by decide)) :
    Fr P r (State.burstStored s x1 x2 x3) := by
  have hs := fun k => Scope.outside_mono (k := k) hp
  simp (maxDischargeDepth := 99) [State.burstStored, h, hs]

@[simp] theorem State.drainBurst_frame {P : Scope} {r s : State} (x1) (x2) (x3) (h : Fr P r s)
    (hp : P.outside 0x781000000004414 := by exact Scope.outside_mono (by assumption) (by decide)) :
    Fr P r (State.drainBurst s x1 x2 x3) := by
  have hs := fun k => Scope.outside_mono (k := k) hp
  fun_induction State.drainBurst <;> simp_all (maxDischargeDepth := 99)

@[simp] theorem State.takeSample_frame {P : Scope} {r s : State} (x1) (x2) (x3) (x4) (h : Fr P r s)
    (hp : P.outside 0x781000000004414 := by exact Scope.outside_mono (by assumption) (by decide)) :
    Fr P r (State.takeSample s x1 x2 x3 x4) := by
  have hs := fun k => Scope.outside_mono (k := k) hp
  unfold State.takeSample
  (repeat' split) <;> simp (maxDischargeDepth := 99) [h, hs]

@[simp] theorem execSample_frame {P : Scope} {r s : State} (x1) (x2) (x3) (x4) (h : Fr P r s)
    (hp : P.outside 0x781000000004414 := by exact Scope.outside_mono (by assumption) (by decide)) :
    ∃ t, execSample x1 x2 x3 x4 s = .next t ∧ Fr P r t := by
  have hs := fun k => Scope.outside_mono (k := k) hp
  exact ⟨_, rfl, by simp (maxDischargeDepth := 99) [h, hs]⟩

@[simp] theorem State.setAhead_frame {P : Scope} {r s : State} (x1) (x2) (x3) (h : Fr P r s)
    (hp : P.outside 0x4 := by exact Scope.outside_mono (by assumption) (by decide)) :
    Fr P r (State.setAhead s x1 x2 x3) := by
  have hs := fun k => Scope.outside_mono (k := k) hp
  simp (maxDischargeDepth := 99) [State.setAhead, h, hs]

@[simp] theorem State.sampleOnLane_frame {P : Scope} {r s : State} (x1) (x2) (x3) (x4) (x5) (h : Fr P r s)
    (hp : P.outside 0x781000000004414 := by exact Scope.outside_mono (by assumption) (by decide)) :
    Fr P r (State.sampleOnLane s x1 x2 x3 x4 x5) := by
  have hs := fun k => Scope.outside_mono (k := k) hp
  unfold State.sampleOnLane
  (repeat' split) <;> simp (maxDischargeDepth := 99) [h, hs]

@[simp] theorem State.openSector_frame {P : Scope} {r s : State} (x1) (x2) (x3) (x4) (x5) (h : Fr P r s)
    (hp : P.outside 0x10 := by exact Scope.outside_mono (by assumption) (by decide)) :
    Fr P r (State.openSector s x1 x2 x3 x4 x5) := by
  have hs := fun k => Scope.outside_mono (k := k) hp
  simp (maxDischargeDepth := 99) [State.openSector, h, hs]

@[simp] theorem State.newBurst_frame {P : Scope} {r s : State} (x1) (x2) (x3) (x4) (x5) (x6) (h : Fr P r s)
    (hp : P.outside 0x404 := by exact Scope.outside_mono (by assumption) (by decide)) :
    Fr P r (State.newBurst s x1 x2 x3 x4 x5 x6) := by
  have hs := fun k => Scope.outside_mono (k := k) hp
  simp (maxDischargeDepth := 99) [State.newBurst, h, hs]

@[simp] theorem State.noSlot_frame {P : Scope} {r s : State} (x1) (x2) (x3) (h : Fr P r s)
    (hp : P.outside 0x781000000004410 := by exact Scope.outside_mono (by assumption) (by decide)) :
    Fr P r (State.noSlot s x1 x2 x3) := by
  have hs := fun k => Scope.outside_mono (k := k) hp
  simp (maxDischargeDepth := 99) [State.noSlot, h, hs]

@[simp] theorem State.burstStart_frame {P : Scope} {r s : State} (x1) (x2) (x3) (x4) (x5) (x6) (h : Fr P r s)
    (hp : P.outside 0x781000000004414 := by exact Scope.outside_mono (by assumption) (by decide)) :
    Fr P r (State.burstStart s x1 x2 x3 x4 x5 x6) := by
  have hs := fun k => Scope.outside_mono (k := k) hp
  simp (maxDischargeDepth := 99) [State.burstStart, h, hs]

@[simp] theorem State.burstEnd_frame {P : Scope} {r s : State} (x1) (x2) (x3) (x4) (x5) (x6) (x7) (h : Fr P r s)
    (hp : P.outside 0x781000000004414 := by exact Scope.outside_mono (by assumption) (by decide)) :
    Fr P r (State.burstEnd s x1 x2 x3 x4 x5 x6 x7) := by
  have hs := fun k => Scope.outside_mono (k := k) hp
  unfold State.burstEnd
  (repeat' split) <;> simp (maxDischargeDepth := 99) [h, hs]

@[simp] theorem State.takeMark_frame {P : Scope} {r s : State} (x1) (x2) (x3) (x4) (x5) (x6) (x7) (x8) (x9) (x10) (x11) (h : Fr P r s)
    (hp : P.outside 0x781000000004414 := by exact Scope.outside_mono (by assumption) (by decide)) :
    Fr P r (State.takeMark s x1 x2 x3 x4 x5 x6 x7 x8 x9 x10 x11) := by
  have hs := fun k => Scope.outside_mono (k := k) hp
  simp (maxDischargeDepth := 99) [State.takeMark, h, hs]

@[simp] theorem execSampleMark_frame {P : Scope} {r s : State} (x1) (x2) (x3) (x4) (x5) (x6) (x7) (x8) (x9) (x10) (x11) (h : Fr P r s)
    (hp : P.outside 0x781000000004414 := by exact Scope.outside_mono (by assumption) (by decide)) :
    ∃ t, execSampleMark x1 x2 x3 x4 x5 x6 x7 x8 x9 x10 x11 s = .next t ∧ Fr P r t := by
  have hs := fun k => Scope.outside_mono (k := k) hp
  exact ⟨_, rfl, by simp (maxDischargeDepth := 99) [h, hs]⟩

@[simp] theorem State.setFieldRx_frame {P : Scope} {r s : State} (x1) (x2) (x3) (h : Fr P r s)
    (hp : P.outside 0x4 := by exact Scope.outside_mono (by assumption) (by decide)) :
    Fr P r (State.setFieldRx s x1 x2 x3) := by
  have hs := fun k => Scope.outside_mono (k := k) hp
  simp (maxDischargeDepth := 99) [State.setFieldRx, h, hs]

@[simp] theorem State.takeFrag_frame {P : Scope} {r s : State} (x1) (x2) (x3) (x4) (x5) (x6) (x7) (x8) (h : Fr P r s)
    (hp : P.outside 0x79000000004004 := by exact Scope.outside_mono (by assumption) (by decide)) :
    Fr P r (State.takeFrag s x1 x2 x3 x4 x5 x6 x7 x8) := by
  have hs := fun k => Scope.outside_mono (k := k) hp
  simp (maxDischargeDepth := 99) [State.takeFrag, h, hs]

@[simp] theorem execServoField_frame {P : Scope} {r s : State} (x1) (x2) (x3) (x4) (x5) (x6) (x7) (x8) (h : Fr P r s)
    (hp : P.outside 0x79000000004004 := by exact Scope.outside_mono (by assumption) (by decide)) :
    ∃ t, execServoField x1 x2 x3 x4 x5 x6 x7 x8 s = .next t ∧ Fr P r t := by
  have hs := fun k => Scope.outside_mono (k := k) hp
  exact ⟨_, rfl, by simp (maxDischargeDepth := 99) [h, hs]⟩

@[simp] theorem State.loadField_frame {P : Scope} {r s : State} (x1) (x2) (h : Fr P r s)
    (hp : P.outside 0x20f8012000000060c0 := by exact Scope.outside_mono (by assumption) (by decide)) :
    Fr P r (State.loadField s x1 x2) := by
  have hs := fun k => Scope.outside_mono (k := k) hp
  simp (maxDischargeDepth := 99) [State.loadField, h, hs]

@[simp] theorem State.fieldGood_frame {P : Scope} {r s : State} (x1) (x2) (x3) (x4) (h : Fr P r s)
    (hp : P.outside 0x20f8012000000060c4 := by exact Scope.outside_mono (by assumption) (by decide)) :
    Fr P r (State.fieldGood s x1 x2 x3 x4) := by
  have hs := fun k => Scope.outside_mono (k := k) hp
  simp (maxDischargeDepth := 99) [State.fieldGood, h, hs]

@[simp] theorem State.fieldMissed_frame {P : Scope} {r s : State} (x1) (x2) (h : Fr P r s)
    (hp : P.outside 0x3efff92031120065f4 := by exact Scope.outside_mono (by assumption) (by decide)) :
    Fr P r (State.fieldMissed s x1 x2) := by
  have hs := fun k => Scope.outside_mono (k := k) hp
  simp (maxDischargeDepth := 99) [State.fieldMissed, h, hs]

@[simp] theorem State.handoff_frame {P : Scope} {r s : State} (x1) (x2) (x3) (x4) (h : Fr P r s)
    (hp : P.outside 0x3efff92031120065f4 := by exact Scope.outside_mono (by assumption) (by decide)) :
    Fr P r (State.handoff s x1 x2 x3 x4) := by
  have hs := fun k => Scope.outside_mono (k := k) hp
  simp (maxDischargeDepth := 99) [State.handoff, h, hs]

@[simp] theorem execServoFieldHandoff_frame {P : Scope} {r s : State} (x1) (x2) (x3) (x4) (h : Fr P r s)
    (hp : P.outside 0x3efff92031120065f4 := by exact Scope.outside_mono (by assumption) (by decide)) :
    ∃ t, execServoFieldHandoff x1 x2 x3 x4 s = .next t ∧ Fr P r t := by
  have hs := fun k => Scope.outside_mono (k := k) hp
  exact ⟨_, rfl, by simp (maxDischargeDepth := 99) [h, hs]⟩

@[simp] theorem State.newTelemetry_frame {P : Scope} {r s : State} (x1) (x2) (x3) (x4) (x5) (x6) (x7) (x8) (h : Fr P r s)
    (hp : P.outside 0x3e7ff92030120065f4 := by exact Scope.outside_mono (by assumption) (by decide)) :
    Fr P r (State.newTelemetry s x1 x2 x3 x4 x5 x6 x7 x8) := by
  have hs := fun k => Scope.outside_mono (k := k) hp
  simp (maxDischargeDepth := 99) [State.newTelemetry, h, hs]

@[simp] theorem State.takeTelemetry_frame {P : Scope} {r s : State} (x1) (x2) (x3) (x4) (x5) (x6) (x7) (x8) (x9) (h : Fr P r s)
    (hp : P.outside 0x3e7ff92030120065f4 := by exact Scope.outside_mono (by assumption) (by decide)) :
    Fr P r (State.takeTelemetry s x1 x2 x3 x4 x5 x6 x7 x8 x9) := by
  have hs := fun k => Scope.outside_mono (k := k) hp
  simp (maxDischargeDepth := 99) [State.takeTelemetry, h, hs]

@[simp] theorem execTelemetry_frame {P : Scope} {r s : State} (x1) (x2) (x3) (x4) (x5) (x6) (x7) (x8) (x9) (h : Fr P r s)
    (hp : P.outside 0x3e7ff92030120065f4 := by exact Scope.outside_mono (by assumption) (by decide)) :
    ∃ t, execTelemetry x1 x2 x3 x4 x5 x6 x7 x8 x9 s = .next t ∧ Fr P r t := by
  have hs := fun k => Scope.outside_mono (k := k) hp
  exact ⟨_, rfl, by simp (maxDischargeDepth := 99) [h, hs]⟩

@[simp] theorem State.headReply_frame {P : Scope} {r s : State} (x1) (x2) (x3) (x4) (x5) (h : Fr P r s)
    (hp : P.outside 0x10000004 := by exact Scope.outside_mono (by assumption) (by decide)) :
    Fr P r (State.headReply s x1 x2 x3 x4 x5) := by
  have hs := fun k => Scope.outside_mono (k := k) hp
  simp (maxDischargeDepth := 99) [State.headReply, h, hs]

@[simp] theorem execHeadReply_frame {P : Scope} {r s : State} (x1) (x2) (x3) (x4) (x5) (h : Fr P r s)
    (hp : P.outside 0x10000004 := by exact Scope.outside_mono (by assumption) (by decide)) :
    ∃ t, execHeadReply x1 x2 x3 x4 x5 s = .next t ∧ Fr P r t := by
  have hs := fun k => Scope.outside_mono (k := k) hp
  exact ⟨_, rfl, by simp (maxDischargeDepth := 99) [h, hs]⟩

@[simp] theorem execHeadmapApply_frame {P : Scope} {r s : State} (x1) (x2) (h : Fr P r s)
    (hp : P.outside 0x78000000000004 := by exact Scope.outside_mono (by assumption) (by decide)) :
    ∃ t, execHeadmapApply x1 x2 s = .next t ∧ Fr P r t := by
  have hs := fun k => Scope.outside_mono (k := k) hp
  exact ⟨_, rfl, by simp (maxDischargeDepth := 99) [h, hs]⟩

@[simp] theorem State.sendProfile_frame {P : Scope} {r s : State} (x1) (x2) (h : Fr P r s)
    (hp : P.outside 0x10000024 := by exact Scope.outside_mono (by assumption) (by decide)) :
    Fr P r (State.sendProfile s x1 x2) := by
  have hs := fun k => Scope.outside_mono (k := k) hp
  simp (maxDischargeDepth := 99) [State.sendProfile, h, hs]

@[simp] theorem State.markSent_frame {P : Scope} {r s : State} (x1) (x2) (h : Fr P r s)
    (hp : P.outside 0x400 := by exact Scope.outside_mono (by assumption) (by decide)) :
    Fr P r (State.markSent s x1 x2) := by
  have hs := fun k => Scope.outside_mono (k := k) hp
  simp (maxDischargeDepth := 99) [State.markSent, h, hs]

@[simp] theorem State.sendGate_frame {P : Scope} {r s : State} (x1) (x2) (x3) (h : Fr P r s)
    (hp : P.outside 0x10000004 := by exact Scope.outside_mono (by assumption) (by decide)) :
    Fr P r (State.sendGate s x1 x2 x3) := by
  have hs := fun k => Scope.outside_mono (k := k) hp
  simp (maxDischargeDepth := 99) [State.sendGate, h, hs]

@[simp] theorem State.gateSend_frame {P : Scope} {r s : State} (x1) (x2) (h : Fr P r s)
    (hp : P.outside 0x3e7f812010100065f4 := by exact Scope.outside_mono (by assumption) (by decide)) :
    Fr P r (State.gateSend s x1 x2) := by
  have hs := fun k => Scope.outside_mono (k := k) hp
  unfold State.gateSend
  (repeat' split) <;> simp (maxDischargeDepth := 99) [h, hs]

@[simp] theorem execGateSend_frame {P : Scope} {r s : State} (x1) (x2) (h : Fr P r s)
    (hp : P.outside 0x3e7f812010100065f4 := by exact Scope.outside_mono (by assumption) (by decide)) :
    ∃ t, execGateSend x1 x2 s = .next t ∧ Fr P r t := by
  have hs := fun k => Scope.outside_mono (k := k) hp
  exact ⟨_, rfl, by simp (maxDischargeDepth := 99) [h, hs]⟩

@[simp] theorem State.noBurst_frame {P : Scope} {r s : State} (x1) (h : Fr P r s)
    (hp : P.outside 0x3e7f812010100065f4 := by exact Scope.outside_mono (by assumption) (by decide)) :
    Fr P r (State.noBurst s x1) := by
  have hs := fun k => Scope.outside_mono (k := k) hp
  simp (maxDischargeDepth := 99) [State.noBurst, h, hs]

@[simp] theorem State.actFlit_frame {P : Scope} {r s : State} (x1) (x2) (x3) (h : Fr P r s)
    (hp : P.outside 0x3efff92031120065f4 := by exact Scope.outside_mono (by assumption) (by decide)) :
    Fr P r (State.actFlit s x1 x2 x3) := by
  have hs := fun k => Scope.outside_mono (k := k) hp
  simp (maxDischargeDepth := 99) [State.actFlit, h, hs]

@[simp] theorem State.takeFlit_frame {P : Scope} {r s : State} (x1) (x2) (x3) (h : Fr P r s)
    (hp : P.outside 0x3efff92031120065f4 := by exact Scope.outside_mono (by assumption) (by decide)) :
    Fr P r (State.takeFlit s x1 x2 x3) := by
  have hs := fun k => Scope.outside_mono (k := k) hp
  unfold State.takeFlit
  (repeat' split) <;> simp (maxDischargeDepth := 99) [h, hs]

@[simp] theorem State.onFlit_frame {P : Scope} {r s : State} (x1) (x2) (x3) (h : Fr P r s)
    (hp : P.outside 0x3efff92031120065f4 := by exact Scope.outside_mono (by assumption) (by decide)) :
    Fr P r (State.onFlit s x1 x2 x3) := by
  have hs := fun k => Scope.outside_mono (k := k) hp
  unfold State.onFlit
  repeat' first
    | (simp (maxDischargeDepth := 99) [h, hs]; done)
    | split
    | refine State.each_frame (fun s x => ?_) _ ?_
    | refine State.onlyIf_frame _ (fun s => ?_) ?_
    | simp (maxDischargeDepth := 99) [h, hs]

@[simp] theorem execFlitReceived_frame {P : Scope} {r s : State} (x1) (x2) (x3) (h : Fr P r s)
    (hp : P.outside 0x3efff92031120065f4 := by exact Scope.outside_mono (by assumption) (by decide)) :
    ∃ t, execFlitReceived x1 x2 x3 s = .next t ∧ Fr P r t := by
  have hs := fun k => Scope.outside_mono (k := k) hp
  exact ⟨_, rfl, by simp (maxDischargeDepth := 99) [h, hs]⟩

end Sys2Proof.Machine
end

