-- ==== Sys2Proof/Laws/FrameChn.lean ====
section
/-! SUPPORT. What each operation of Machine/Chn.lean leaves alone. -/
set_option linter.unusedSimpArgs false
set_option linter.unusedTactic false
set_option linter.unreachableTactic false
set_option linter.unnecessarySeqFocus false
namespace Sys2Proof.Machine
set_option Elab.async false

@[simp] theorem execArmP_frame {P : Scope} {r s : State} (x1) (x2) (x3) (h : Fr P r s)
    (hp : P.outside 0x781001000004010 := by exact Scope.outside_mono (by assumption) (by decide)) :
    ∃ t, execArmP x1 x2 x3 s = .next t ∧ Fr P r t := by
  have hs := fun k => Scope.outside_mono (k := k) hp
  exact ⟨_, rfl, by simp (maxDischargeDepth := 99) [h, hs]⟩

@[simp] theorem execDisarm_frame {P : Scope} {r s : State} (x1) (x2) (h : Fr P r s)
    (hp : P.outside 0x781001000004010 := by exact Scope.outside_mono (by assumption) (by decide)) :
    ∃ t, execDisarm x1 x2 s = .next t ∧ Fr P r t := by
  have hs := fun k => Scope.outside_mono (k := k) hp
  exact ⟨_, rfl, by simp (maxDischargeDepth := 99) [h, hs]⟩

@[simp] theorem execHoldOn_frame {P : Scope} {r s : State} (x1) (x2) (h : Fr P r s)
    (hp : P.outside 0x781001000004010 := by exact Scope.outside_mono (by assumption) (by decide)) :
    ∃ t, execHoldOn x1 x2 s = .next t ∧ Fr P r t := by
  have hs := fun k => Scope.outside_mono (k := k) hp
  exact ⟨_, rfl, by simp (maxDischargeDepth := 99) [h, hs]⟩

@[simp] theorem execHoldOff_frame {P : Scope} {r s : State} (x1) (x2) (h : Fr P r s)
    (hp : P.outside 0x781001000004010 := by exact Scope.outside_mono (by assumption) (by decide)) :
    ∃ t, execHoldOff x1 x2 s = .next t ∧ Fr P r t := by
  have hs := fun k => Scope.outside_mono (k := k) hp
  exact ⟨_, rfl, by simp (maxDischargeDepth := 99) [h, hs]⟩

@[simp] theorem execReplay1_frame {P : Scope} {r s : State} (x1) (x2) (h : Fr P r s)
    (hp : P.outside 0x781001000004010 := by exact Scope.outside_mono (by assumption) (by decide)) :
    ∃ t, execReplay1 x1 x2 s = .next t ∧ Fr P r t := by
  have hs := fun k => Scope.outside_mono (k := k) hp
  exact ⟨_, rfl, by simp (maxDischargeDepth := 99) [h, hs]⟩

@[simp] theorem execReplay2_frame {P : Scope} {r s : State} (x1) (x2) (h : Fr P r s)
    (hp : P.outside 0x781001000004010 := by exact Scope.outside_mono (by assumption) (by decide)) :
    ∃ t, execReplay2 x1 x2 s = .next t ∧ Fr P r t := by
  have hs := fun k => Scope.outside_mono (k := k) hp
  exact ⟨_, rfl, by simp (maxDischargeDepth := 99) [h, hs]⟩

@[simp] theorem execReplay3_frame {P : Scope} {r s : State} (x1) (x2) (h : Fr P r s)
    (hp : P.outside 0x781001000004010 := by exact Scope.outside_mono (by assumption) (by decide)) :
    ∃ t, execReplay3 x1 x2 s = .next t ∧ Fr P r t := by
  have hs := fun k => Scope.outside_mono (k := k) hp
  exact ⟨_, rfl, by simp (maxDischargeDepth := 99) [h, hs]⟩

@[simp] theorem execReplay4_frame {P : Scope} {r s : State} (x1) (x2) (h : Fr P r s)
    (hp : P.outside 0x781001000004010 := by exact Scope.outside_mono (by assumption) (by decide)) :
    ∃ t, execReplay4 x1 x2 s = .next t ∧ Fr P r t := by
  have hs := fun k => Scope.outside_mono (k := k) hp
  exact ⟨_, rfl, by simp (maxDischargeDepth := 99) [h, hs]⟩

@[simp] theorem execReplay5_frame {P : Scope} {r s : State} (x1) (x2) (h : Fr P r s)
    (hp : P.outside 0x781001000004010 := by exact Scope.outside_mono (by assumption) (by decide)) :
    ∃ t, execReplay5 x1 x2 s = .next t ∧ Fr P r t := by
  have hs := fun k => Scope.outside_mono (k := k) hp
  exact ⟨_, rfl, by simp (maxDischargeDepth := 99) [h, hs]⟩

@[simp] theorem execRelease_frame {P : Scope} {r s : State} (x1) (x2) (h : Fr P r s)
    (hp : P.outside 0x781001000004010 := by exact Scope.outside_mono (by assumption) (by decide)) :
    ∃ t, execRelease x1 x2 s = .next t ∧ Fr P r t := by
  have hs := fun k => Scope.outside_mono (k := k) hp
  exact ⟨_, rfl, by simp (maxDischargeDepth := 99) [h, hs]⟩

@[simp] theorem execUnlistedStrobeCode_frame {P : Scope} {r s : State} (x1) (x2) (x3) (x4) (h : Fr P r s)
    (hp : P.outside 0x7f81201000006070 := by exact Scope.outside_mono (by assumption) (by decide)) :
    ∃ t, execUnlistedStrobeCode x1 x2 x3 x4 s = .next t ∧ Fr P r t := by
  have hs := fun k => Scope.outside_mono (k := k) hp
  exact ⟨_, rfl, by simp (maxDischargeDepth := 99) [h, hs]⟩

@[simp] theorem State.modSector_frame {P : Scope} {r s : State} (x1) (x2) (x3) (x4) (h : Fr P r s)
    (hp : P.outside 0x10 := by exact Scope.outside_mono (by assumption) (by decide)) :
    Fr P r (State.modSector s x1 x2 x3 x4) := by
  have hs := fun k => Scope.outside_mono (k := k) hp
  simp (maxDischargeDepth := 99) [State.modSector, h, hs]

@[simp] theorem State.freeSector_frame {P : Scope} {r s : State} (x1) (x2) (x3) (h : Fr P r s)
    (hp : P.outside 0x10 := by exact Scope.outside_mono (by assumption) (by decide)) :
    Fr P r (State.freeSector s x1 x2 x3) := by
  have hs := fun k => Scope.outside_mono (k := k) hp
  simp (maxDischargeDepth := 99) [State.freeSector, h, hs]

@[simp] theorem State.firstPassEnd_frame {P : Scope} {r s : State} (x1) (x2) (x3) (x4) (x5) (x6) (x7) (h : Fr P r s)
    (hp : P.outside 0x781000000004010 := by exact Scope.outside_mono (by assumption) (by decide)) :
    Fr P r (State.firstPassEnd s x1 x2 x3 x4 x5 x6 x7) := by
  have hs := fun k => Scope.outside_mono (k := k) hp
  simp (maxDischargeDepth := 99) [State.firstPassEnd, h, hs]

@[simp] theorem State.replayEcc_frame {P : Scope} {r s : State} (x1) (x2) (h : Fr P r s)
    (hp : P.outside 0x1200020004000 := by exact Scope.outside_mono (by assumption) (by decide)) :
    Fr P r (State.replayEcc s x1 x2) := by
  have hs := fun k => Scope.outside_mono (k := k) hp
  simp (maxDischargeDepth := 99) [State.replayEcc, h, hs]

@[simp] theorem State.setCore_frame {P : Scope} {r s : State} (x1) (x2) (x3) (h : Fr P r s)
    (hp : P.outside 0x10 := by exact Scope.outside_mono (by assumption) (by decide)) :
    Fr P r (State.setCore s x1 x2 x3) := by
  have hs := fun k => Scope.outside_mono (k := k) hp
  simp (maxDischargeDepth := 99) [State.setCore, h, hs]

@[simp] theorem State.askYield_frame {P : Scope} {r s : State} (x1) (x2) (h : Fr P r s)
    (hp : P.outside 0x10 := by exact Scope.outside_mono (by assumption) (by decide)) :
    Fr P r (State.askYield s x1 x2) := by
  have hs := fun k => Scope.outside_mono (k := k) hp
  fun_induction State.askYield <;> simp_all (maxDischargeDepth := 99)

@[simp] theorem State.queueFirst_frame {P : Scope} {r s : State} (x1) (x2) (h : Fr P r s)
    (hp : P.outside 0x10 := by exact Scope.outside_mono (by assumption) (by decide)) :
    Fr P r (State.queueFirst s x1 x2) := by
  have hs := fun k => Scope.outside_mono (k := k) hp
  unfold State.queueFirst
  repeat' first
    | (simp (maxDischargeDepth := 99) [h, hs]; done)
    | split
    | refine State.each_frame (fun s x => ?_) _ ?_
    | refine State.onlyIf_frame _ (fun s => ?_) ?_
    | simp (maxDischargeDepth := 99) [h, hs]

@[simp] theorem State.decodeStart_frame {P : Scope} {r s : State} (x1) (x2) (h : Fr P r s)
    (hp : P.outside 0x10 := by exact Scope.outside_mono (by assumption) (by decide)) :
    Fr P r (State.decodeStart s x1 x2) := by
  have hs := fun k => Scope.outside_mono (k := k) hp
  unfold State.decodeStart
  repeat' first
    | (simp (maxDischargeDepth := 99) [h, hs]; done)
    | split
    | refine State.each_frame (fun s x => ?_) _ ?_
    | refine State.onlyIf_frame _ (fun s => ?_) ?_
    | simp (maxDischargeDepth := 99) [h, hs]

@[simp] theorem execDecodeStart_frame {P : Scope} {r s : State} (x1) (x2) (h : Fr P r s)
    (hp : P.outside 0x10 := by exact Scope.outside_mono (by assumption) (by decide)) :
    ∃ t, execDecodeStart x1 x2 s = .next t ∧ Fr P r t := by
  have hs := fun k => Scope.outside_mono (k := k) hp
  exact ⟨_, rfl, by simp (maxDischargeDepth := 99) [h, hs]⟩

@[simp] theorem State.decodeBoundary_frame {P : Scope} {r s : State} (x1) (x2) (h : Fr P r s)
    (hp : P.outside 0x781000000004010 := by exact Scope.outside_mono (by assumption) (by decide)) :
    Fr P r (State.decodeBoundary s x1 x2) := by
  have hs := fun k => Scope.outside_mono (k := k) hp
  unfold State.decodeBoundary
  (repeat' split) <;> simp (maxDischargeDepth := 99) [h, hs]

@[simp] theorem execDecodeIterationBoundary_frame {P : Scope} {r s : State} (x1) (x2) (h : Fr P r s)
    (hp : P.outside 0x781000000004010 := by exact Scope.outside_mono (by assumption) (by decide)) :
    ∃ t, execDecodeIterationBoundary x1 x2 s = .next t ∧ Fr P r t := by
  have hs := fun k => Scope.outside_mono (k := k) hp
  exact ⟨_, rfl, by simp (maxDischargeDepth := 99) [h, hs]⟩

@[simp] theorem State.replayEnd_frame {P : Scope} {r s : State} (x1) (x2) (x3) (x4) (x5) (h : Fr P r s)
    (hp : P.outside 0x1000000004010 := by exact Scope.outside_mono (by assumption) (by decide)) :
    Fr P r (State.replayEnd s x1 x2 x3 x4 x5) := by
  have hs := fun k => Scope.outside_mono (k := k) hp
  simp (maxDischargeDepth := 99) [State.replayEnd, h, hs]

@[simp] theorem State.trialEnd_frame {P : Scope} {r s : State} (x1) (x2) (x3) (x4) (x5) (x6) (x7) (h : Fr P r s)
    (hp : P.outside 0x1000000004010 := by exact Scope.outside_mono (by assumption) (by decide)) :
    Fr P r (State.trialEnd s x1 x2 x3 x4 x5 x6 x7) := by
  have hs := fun k => Scope.outside_mono (k := k) hp
  unfold State.trialEnd
  (repeat' split) <;> simp (maxDischargeDepth := 99) [h, hs]

@[simp] theorem State.decodeEnd_frame {P : Scope} {r s : State} (x1) (x2) (h : Fr P r s)
    (hp : P.outside 0x781000000004010 := by exact Scope.outside_mono (by assumption) (by decide)) :
    Fr P r (State.decodeEnd s x1 x2) := by
  have hs := fun k => Scope.outside_mono (k := k) hp
  unfold State.decodeEnd
  repeat' first
    | (simp (maxDischargeDepth := 99) [h, hs]; done)
    | split
    | refine State.each_frame (fun s x => ?_) _ ?_
    | refine State.onlyIf_frame _ (fun s => ?_) ?_
    | simp (maxDischargeDepth := 99) [h, hs]

@[simp] theorem execDecodeEnd_frame {P : Scope} {r s : State} (x1) (x2) (h : Fr P r s)
    (hp : P.outside 0x781000000004010 := by exact Scope.outside_mono (by assumption) (by decide)) :
    ∃ t, execDecodeEnd x1 x2 s = .next t ∧ Fr P r t := by
  have hs := fun k => Scope.outside_mono (k := k) hp
  exact ⟨_, rfl, by simp (maxDischargeDepth := 99) [h, hs]⟩

@[simp] theorem State.firstSearch_frame {P : Scope} {r s : State} (x1) (x2) (x3) (x4) (x5) (x6) (h : Fr P r s)
    (hp : P.outside 0x781000000004010 := by exact Scope.outside_mono (by assumption) (by decide)) :
    Fr P r (State.firstSearch s x1 x2 x3 x4 x5 x6) := by
  have hs := fun k => Scope.outside_mono (k := k) hp
  unfold State.firstSearch
  (repeat' split) <;> simp (maxDischargeDepth := 99) [h, hs]

@[simp] theorem State.loopsLeft_frame {P : Scope} {r s : State} (x1) (x2) (x3) (x4) (h : Fr P r s)
    (hp : P.outside 0x780000000000010 := by exact Scope.outside_mono (by assumption) (by decide)) :
    Fr P r (State.loopsLeft s x1 x2 x3 x4) := by
  have hs := fun k => Scope.outside_mono (k := k) hp
  simp (maxDischargeDepth := 99) [State.loopsLeft, h, hs]

@[simp] theorem State.firstFront_frame {P : Scope} {r s : State} (x1) (x2) (x3) (x4) (h : Fr P r s)
    (hp : P.outside 0x781000000004010 := by exact Scope.outside_mono (by assumption) (by decide)) :
    Fr P r (State.firstFront s x1 x2 x3 x4) := by
  have hs := fun k => Scope.outside_mono (k := k) hp
  simp (maxDischargeDepth := 99) [State.firstFront, h, hs]

@[simp] theorem State.frontEndDone_frame {P : Scope} {r s : State} (x1) (x2) (x3) (h : Fr P r s)
    (hp : P.outside 0x781200020004010 := by exact Scope.outside_mono (by assumption) (by decide)) :
    Fr P r (State.frontEndDone s x1 x2 x3) := by
  have hs := fun k => Scope.outside_mono (k := k) hp
  unfold State.frontEndDone
  repeat' first
    | (simp (maxDischargeDepth := 99) [h, hs]; done)
    | split
    | refine State.each_frame (fun s x => ?_) _ ?_
    | refine State.onlyIf_frame _ (fun s => ?_) ?_
    | simp (maxDischargeDepth := 99) [h, hs]

@[simp] theorem execFrontEndDone_frame {P : Scope} {r s : State} (x1) (x2) (x3) (h : Fr P r s)
    (hp : P.outside 0x781200020004010 := by exact Scope.outside_mono (by assumption) (by decide)) :
    ∃ t, execFrontEndDone x1 x2 x3 s = .next t ∧ Fr P r t := by
  have hs := fun k => Scope.outside_mono (k := k) hp
  exact ⟨_, rfl, by simp (maxDischargeDepth := 99) [h, hs]⟩

@[simp] theorem State.laterSearch_frame {P : Scope} {r s : State} (x1) (x2) (x3) (h : Fr P r s)
    (hp : P.outside 0x781000000004010 := by exact Scope.outside_mono (by assumption) (by decide)) :
    Fr P r (State.laterSearch s x1 x2 x3) := by
  have hs := fun k => Scope.outside_mono (k := k) hp
  unfold State.laterSearch
  repeat' first
    | (simp (maxDischargeDepth := 99) [h, hs]; done)
    | split
    | refine State.each_frame (fun s x => ?_) _ ?_
    | refine State.onlyIf_frame _ (fun s => ?_) ?_
    | simp (maxDischargeDepth := 99) [h, hs]

@[simp] theorem State.relaxedSearchStart_frame {P : Scope} {r s : State} (x1) (x2) (x3) (h : Fr P r s)
    (hp : P.outside 0x781200020004010 := by exact Scope.outside_mono (by assumption) (by decide)) :
    Fr P r (State.relaxedSearchStart s x1 x2 x3) := by
  have hs := fun k => Scope.outside_mono (k := k) hp
  unfold State.relaxedSearchStart
  repeat' first
    | (simp (maxDischargeDepth := 99) [h, hs]; done)
    | split
    | refine State.each_frame (fun s x => ?_) _ ?_
    | refine State.onlyIf_frame _ (fun s => ?_) ?_
    | simp (maxDischargeDepth := 99) [h, hs]

@[simp] theorem execRelaxedSearchStart_frame {P : Scope} {r s : State} (x1) (x2) (x3) (h : Fr P r s)
    (hp : P.outside 0x781200020004010 := by exact Scope.outside_mono (by assumption) (by decide)) :
    ∃ t, execRelaxedSearchStart x1 x2 x3 s = .next t ∧ Fr P r t := by
  have hs := fun k => Scope.outside_mono (k := k) hp
  exact ⟨_, rfl, by simp (maxDischargeDepth := 99) [h, hs]⟩

@[simp] theorem State.replayOpStart_frame {P : Scope} {r s : State} (x1) (x2) (h : Fr P r s)
    (hp : P.outside 0x1000000004010 := by exact Scope.outside_mono (by assumption) (by decide)) :
    Fr P r (State.replayOpStart s x1 x2) := by
  have hs := fun k => Scope.outside_mono (k := k) hp
  unfold State.replayOpStart
  repeat' first
    | (simp (maxDischargeDepth := 99) [h, hs]; done)
    | split
    | refine State.each_frame (fun s x => ?_) _ ?_
    | refine State.onlyIf_frame _ (fun s => ?_) ?_
    | simp (maxDischargeDepth := 99) [h, hs]

@[simp] theorem execReplayOperationStart_frame {P : Scope} {r s : State} (x1) (x2) (h : Fr P r s)
    (hp : P.outside 0x1000000004010 := by exact Scope.outside_mono (by assumption) (by decide)) :
    ∃ t, execReplayOperationStart x1 x2 s = .next t ∧ Fr P r t := by
  have hs := fun k => Scope.outside_mono (k := k) hp
  exact ⟨_, rfl, by simp (maxDischargeDepth := 99) [h, hs]⟩

@[simp] theorem State.trialFront_frame {P : Scope} {r s : State} (x1) (x2) (x3) (x4) (h : Fr P r s)
    (hp : P.outside 0x1000000004010 := by exact Scope.outside_mono (by assumption) (by decide)) :
    Fr P r (State.trialFront s x1 x2 x3 x4) := by
  have hs := fun k => Scope.outside_mono (k := k) hp
  simp (maxDischargeDepth := 99) [State.trialFront, h, hs]

@[simp] theorem State.replayFeDone_frame {P : Scope} {r s : State} (x1) (x2) (x3) (h : Fr P r s)
    (hp : P.outside 0x781200020004010 := by exact Scope.outside_mono (by assumption) (by decide)) :
    Fr P r (State.replayFeDone s x1 x2 x3) := by
  have hs := fun k => Scope.outside_mono (k := k) hp
  unfold State.replayFeDone
  repeat' first
    | (simp (maxDischargeDepth := 99) [h, hs]; done)
    | split
    | refine State.each_frame (fun s x => ?_) _ ?_
    | refine State.onlyIf_frame _ (fun s => ?_) ?_
    | simp (maxDischargeDepth := 99) [h, hs]

@[simp] theorem execReplayFrontEndDone_frame {P : Scope} {r s : State} (x1) (x2) (x3) (h : Fr P r s)
    (hp : P.outside 0x781200020004010 := by exact Scope.outside_mono (by assumption) (by decide)) :
    ∃ t, execReplayFrontEndDone x1 x2 x3 s = .next t ∧ Fr P r t := by
  have hs := fun k => Scope.outside_mono (k := k) hp
  exact ⟨_, rfl, by simp (maxDischargeDepth := 99) [h, hs]⟩

@[simp] theorem State.softResetSlot_frame {P : Scope} {r s : State} (x1) (x2) (h : Fr P r s)
    (hp : P.outside 0x781000000004010 := by exact Scope.outside_mono (by assumption) (by decide)) :
    Fr P r (State.softResetSlot s x1 x2) := by
  have hs := fun k => Scope.outside_mono (k := k) hp
  unfold State.softResetSlot
  repeat' first
    | (simp (maxDischargeDepth := 99) [h, hs]; done)
    | split
    | refine State.each_frame (fun s x => ?_) _ ?_
    | refine State.onlyIf_frame _ (fun s => ?_) ?_
    | simp (maxDischargeDepth := 99) [h, hs]

@[simp] theorem State.chnSoftReset_frame {P : Scope} {r s : State} (x1) (h : Fr P r s)
    (hp : P.outside 0x781000000004010 := by exact Scope.outside_mono (by assumption) (by decide)) :
    Fr P r (State.chnSoftReset s x1) := by
  have hs := fun k => Scope.outside_mono (k := k) hp
  simp (maxDischargeDepth := 99) [State.chnSoftReset, h, hs]

@[simp] theorem execChnSoftReset_frame {P : Scope} {r s : State} (x1) (h : Fr P r s)
    (hp : P.outside 0x781000000004010 := by exact Scope.outside_mono (by assumption) (by decide)) :
    ∃ t, execChnSoftReset x1 s = .next t ∧ Fr P r t := by
  have hs := fun k => Scope.outside_mono (k := k) hp
  exact ⟨_, rfl, by simp (maxDischargeDepth := 99) [h, hs]⟩

@[simp] theorem State.slotCfgWrite_frame {P : Scope} {r s : State} (x1) (x2) (x3) (h : Fr P r s)
    (hp : P.outside 0x780000000000000 := by exact Scope.outside_mono (by assumption) (by decide)) :
    Fr P r (State.slotCfgWrite s x1 x2 x3) := by
  have hs := fun k => Scope.outside_mono (k := k) hp
  simp (maxDischargeDepth := 99) [State.slotCfgWrite, h, hs]

@[simp] theorem execChnSlotCfgWrite_frame {P : Scope} {r s : State} (x1) (x2) (x3) (h : Fr P r s)
    (hp : P.outside 0x780000000000000 := by exact Scope.outside_mono (by assumption) (by decide)) :
    ∃ t, execChnSlotCfgWrite x1 x2 x3 s = .next t ∧ Fr P r t := by
  have hs := fun k => Scope.outside_mono (k := k) hp
  exact ⟨_, rfl, by simp (maxDischargeDepth := 99) [h, hs]⟩

@[simp] theorem State.chnSettingWrite_frame {P : Scope} {r s : State} (n hd a : Nat) (v : W) (hw : P.outside (winMask a))
    (hp : P.outside 0x10) (h : Fr P r s) : Fr P r (s.chnSettingWrite n hd a v) := by
  have hs := fun k => Scope.outside_mono (k := k) hp
  unfold State.chnSettingWrite
  dsimp only
  split <;> simp (maxDischargeDepth := 99) [h, hw, hs]

@[simp] theorem State.chnSettingWrite_frame_any {P : Scope} {r s : State} (n hd a : Nat) (v : W) (hw : P.outside 0x1)
    (hp : P.outside 0x10) (h : Fr P r s) : Fr P r (s.chnSettingWrite n hd a v) := by
  have hs := fun k => Scope.outside_mono (k := k) hp
  unfold State.chnSettingWrite
  dsimp only
  split <;> simp (maxDischargeDepth := 99) [h, hw, hs]

@[simp] theorem execChnSettingsApply_frame {P : Scope} {r s : State} (x1) (x2) (h : Fr P r s)
    (hp : P.outside 0x10 := by exact Scope.outside_mono (by assumption) (by decide)) :
    ∃ t, execChnSettingsApply x1 x2 s = .next t ∧ Fr P r t := by
  have hs := fun k => Scope.outside_mono (k := k) hp
  exact ⟨_, rfl, by simp (maxDischargeDepth := 99) [h, hs]⟩

end Sys2Proof.Machine
end

