-- ==== Sys2Proof/Laws/FrameWpa.lean ====
section
/-! SUPPORT. What each operation of Machine/Wpa.lean leaves alone. -/
set_option linter.unusedSimpArgs false
set_option linter.unusedTactic false
set_option linter.unreachableTactic false
set_option linter.unnecessarySeqFocus false
namespace Sys2Proof.Machine
set_option Elab.async false

@[simp] theorem execWarmP_frame {P : Scope} {r s : State} (x1) (x2) (x3) (h : Fr P r s)
    (hp : P.outside 0x7801201000006060 := by exact Scope.outside_mono (by assumption) (by decide)) :
    ∃ t, execWarmP x1 x2 x3 s = .next t ∧ Fr P r t := by
  have hs := fun k => Scope.outside_mono (k := k) hp
  exact ⟨_, rfl, by simp (maxDischargeDepth := 99) [h, hs]⟩

@[simp] theorem execWarmPB_frame {P : Scope} {r s : State} (x1) (x2) (x3) (h : Fr P r s)
    (hp : P.outside 0x7801201000006060 := by exact Scope.outside_mono (by assumption) (by decide)) :
    ∃ t, execWarmPB x1 x2 x3 s = .next t ∧ Fr P r t := by
  have hs := fun k => Scope.outside_mono (k := k) hp
  exact ⟨_, rfl, by simp (maxDischargeDepth := 99) [h, hs]⟩

@[simp] theorem execWdisarm_frame {P : Scope} {r s : State} (x1) (x2) (h : Fr P r s)
    (hp : P.outside 0x7801201000006060 := by exact Scope.outside_mono (by assumption) (by decide)) :
    ∃ t, execWdisarm x1 x2 s = .next t ∧ Fr P r t := by
  have hs := fun k => Scope.outside_mono (k := k) hp
  exact ⟨_, rfl, by simp (maxDischargeDepth := 99) [h, hs]⟩

@[simp] theorem execFhDown1_frame {P : Scope} {r s : State} (x1) (x2) (h : Fr P r s)
    (hp : P.outside 0x7801201000006060 := by exact Scope.outside_mono (by assumption) (by decide)) :
    ∃ t, execFhDown1 x1 x2 s = .next t ∧ Fr P r t := by
  have hs := fun k => Scope.outside_mono (k := k) hp
  exact ⟨_, rfl, by simp (maxDischargeDepth := 99) [h, hs]⟩

@[simp] theorem execFhRestore_frame {P : Scope} {r s : State} (x1) (x2) (h : Fr P r s)
    (hp : P.outside 0x7801201000006060 := by exact Scope.outside_mono (by assumption) (by decide)) :
    ∃ t, execFhRestore x1 x2 s = .next t ∧ Fr P r t := by
  have hs := fun k => Scope.outside_mono (k := k) hp
  exact ⟨_, rfl, by simp (maxDischargeDepth := 99) [h, hs]⟩

@[simp] theorem State.modGate_frame {P : Scope} {r s : State} (x1) (x2) (x3) (h : Fr P r s)
    (hp : P.outside 0x400 := by exact Scope.outside_mono (by assumption) (by decide)) :
    Fr P r (State.modGate s x1 x2 x3) := by
  have hs := fun k => Scope.outside_mono (k := k) hp
  simp (maxDischargeDepth := 99) [State.modGate, h, hs]

@[simp] theorem State.guardHold_frame {P : Scope} {r s : State} (x1) (x2) (h : Fr P r s)
    (hp : P.outside 0x1e7800000000000400 := by exact Scope.outside_mono (by assumption) (by decide)) :
    Fr P r (State.guardHold s x1 x2) := by
  have hs := fun k => Scope.outside_mono (k := k) hp
  simp (maxDischargeDepth := 99) [State.guardHold, h, hs]

@[simp] theorem State.takeWritePacket_frame {P : Scope} {r s : State} (x1) (x2) (x3) (x4) (x5) (h : Fr P r s)
    (hp : P.outside 0x3e7f812010100065f4 := by exact Scope.outside_mono (by assumption) (by decide)) :
    Fr P r (State.takeWritePacket s x1 x2 x3 x4 x5) := by
  have hs := fun k => Scope.outside_mono (k := k) hp
  simp (maxDischargeDepth := 99) [State.takeWritePacket, h, hs]

@[simp] theorem State.writeGateData_frame {P : Scope} {r s : State} (x1) (x2) (h : Fr P r s)
    (hp : P.outside 0x3e7f812010100065f4 := by exact Scope.outside_mono (by assumption) (by decide)) :
    Fr P r (State.writeGateData s x1 x2) := by
  have hs := fun k => Scope.outside_mono (k := k) hp
  unfold State.writeGateData
  (repeat' split) <;> simp (maxDischargeDepth := 99) [h, hs]

@[simp] theorem execWriteGateData_frame {P : Scope} {r s : State} (x1) (x2) (h : Fr P r s)
    (hp : P.outside 0x3e7f812010100065f4 := by exact Scope.outside_mono (by assumption) (by decide)) :
    ∃ t, execWriteGateData x1 x2 s = .next t ∧ Fr P r t := by
  have hs := fun k => Scope.outside_mono (k := k) hp
  exact ⟨_, rfl, by simp (maxDischargeDepth := 99) [h, hs]⟩

@[simp] theorem State.guardRelease_frame {P : Scope} {r s : State} (x1) (h : Fr P r s)
    (hp : P.outside 0x7800000000000400 := by exact Scope.outside_mono (by assumption) (by decide)) :
    Fr P r (State.guardRelease s x1) := by
  have hs := fun k => Scope.outside_mono (k := k) hp
  simp (maxDischargeDepth := 99) [State.guardRelease, h, hs]

@[simp] theorem State.wpaBoundary_frame {P : Scope} {r s : State} (x1) (h : Fr P r s)
    (hp : P.outside 0x1e7800000000000420 := by exact Scope.outside_mono (by assumption) (by decide)) :
    Fr P r (State.wpaBoundary s x1) := by
  have hs := fun k => Scope.outside_mono (k := k) hp
  simp (maxDischargeDepth := 99) [State.wpaBoundary, h, hs]

@[simp] theorem execWpaWedgeBoundary_frame {P : Scope} {r s : State} (x1) (h : Fr P r s)
    (hp : P.outside 0x1e7800000000000420 := by exact Scope.outside_mono (by assumption) (by decide)) :
    ∃ t, execWpaWedgeBoundary x1 s = .next t ∧ Fr P r t := by
  have hs := fun k => Scope.outside_mono (k := k) hp
  exact ⟨_, rfl, by simp (maxDischargeDepth := 99) [h, hs]⟩

@[simp] theorem execInhibitCause_frame {P : Scope} {r s : State} (x1) (x2) (x3) (h : Fr P r s)
    (hp : P.outside 0x3e7f812010100065f4 := by exact Scope.outside_mono (by assumption) (by decide)) :
    ∃ t, execInhibitCause x1 x2 x3 s = .next t ∧ Fr P r t := by
  have hs := fun k => Scope.outside_mono (k := k) hp
  exact ⟨_, rfl, by simp (maxDischargeDepth := 99) [h, hs]⟩

@[simp] theorem State.inhibitClear_frame {P : Scope} {r s : State} (x1) (x2) (h : Fr P r s)
    (hp : P.outside 0x1e7801200000006060 := by exact Scope.outside_mono (by assumption) (by decide)) :
    Fr P r (State.inhibitClear s x1 x2) := by
  have hs := fun k => Scope.outside_mono (k := k) hp
  simp (maxDischargeDepth := 99) [State.inhibitClear, h, hs]

@[simp] theorem execWpaInhibitClear_frame {P : Scope} {r s : State} (x1) (x2) (h : Fr P r s)
    (hp : P.outside 0x1e7801200000006060 := by exact Scope.outside_mono (by assumption) (by decide)) :
    ∃ t, execWpaInhibitClear x1 x2 s = .next t ∧ Fr P r t := by
  have hs := fun k => Scope.outside_mono (k := k) hp
  exact ⟨_, rfl, by simp (maxDischargeDepth := 99) [h, hs]⟩

@[simp] theorem State.inhibitSet_frame {P : Scope} {r s : State} (x1) (x2) (h : Fr P r s)
    (hp : P.outside 0x3e7f812010100065f4 := by exact Scope.outside_mono (by assumption) (by decide)) :
    Fr P r (State.inhibitSet s x1 x2) := by
  have hs := fun k => Scope.outside_mono (k := k) hp
  simp (maxDischargeDepth := 99) [State.inhibitSet, h, hs]

@[simp] theorem execWpaInhibitSet_frame {P : Scope} {r s : State} (x1) (x2) (h : Fr P r s)
    (hp : P.outside 0x3e7f812010100065f4 := by exact Scope.outside_mono (by assumption) (by decide)) :
    ∃ t, execWpaInhibitSet x1 x2 s = .next t ∧ Fr P r t := by
  have hs := fun k => Scope.outside_mono (k := k) hp
  exact ⟨_, rfl, by simp (maxDischargeDepth := 99) [h, hs]⟩

@[simp] theorem State.wpaCtrlWrite_frame {P : Scope} {r s : State} (x1) (x2) (h : Fr P r s)
    (hp : P.outside 0x3e7f812010100065f4 := by exact Scope.outside_mono (by assumption) (by decide)) :
    Fr P r (State.wpaCtrlWrite s x1 x2) := by
  have hs := fun k => Scope.outside_mono (k := k) hp
  simp (maxDischargeDepth := 99) [State.wpaCtrlWrite, h, hs]

@[simp] theorem execWpaCtrlWrite_frame {P : Scope} {r s : State} (x1) (x2) (h : Fr P r s)
    (hp : P.outside 0x3e7f812010100065f4 := by exact Scope.outside_mono (by assumption) (by decide)) :
    ∃ t, execWpaCtrlWrite x1 x2 s = .next t ∧ Fr P r t := by
  have hs := fun k => Scope.outside_mono (k := k) hp
  exact ⟨_, rfl, by simp (maxDischargeDepth := 99) [h, hs]⟩

@[simp] theorem State.wdisarmGo_frame {P : Scope} {r s : State} (x1) (h : Fr P r s)
    (hp : P.outside 0x7801200000006060 := by exact Scope.outside_mono (by assumption) (by decide)) :
    Fr P r (State.wdisarmGo s x1) := by
  have hs := fun k => Scope.outside_mono (k := k) hp
  simp (maxDischargeDepth := 99) [State.wdisarmGo, h, hs]

@[simp] theorem State.verifyRecord_frame {P : Scope} {r s : State} (x1) (x2) (h : Fr P r s)
    (hp : P.outside 0x3e7f812018100265f4 := by exact Scope.outside_mono (by assumption) (by decide)) :
    Fr P r (State.verifyRecord s x1 x2) := by
  have hs := fun k => Scope.outside_mono (k := k) hp
  unfold State.verifyRecord
  repeat' first
    | (simp (maxDischargeDepth := 99) [h, hs]; done)
    | split
    | refine State.each_frame (fun s x => ?_) _ ?_
    | refine State.onlyIf_frame _ (fun s => ?_) ?_
    | simp (maxDischargeDepth := 99) [h, hs]

@[simp] theorem State.verifyEvent_frame {P : Scope} {r s : State} (x1) (x2) (h : Fr P r s)
    (hp : P.outside 0x3e7f812018300265f4 := by exact Scope.outside_mono (by assumption) (by decide)) :
    Fr P r (State.verifyEvent s x1 x2) := by
  have hs := fun k => Scope.outside_mono (k := k) hp
  unfold State.verifyEvent
  (repeat' split) <;> simp (maxDischargeDepth := 99) [h, hs]

@[simp] theorem execVerifyEvent_frame {P : Scope} {r s : State} (x1) (x2) (h : Fr P r s)
    (hp : P.outside 0x3e7f812018300265f4 := by exact Scope.outside_mono (by assumption) (by decide)) :
    ∃ t, execVerifyEvent x1 x2 s = .next t ∧ Fr P r t := by
  have hs := fun k => Scope.outside_mono (k := k) hp
  exact ⟨_, rfl, by simp (maxDischargeDepth := 99) [h, hs]⟩

@[simp] theorem State.rewindGatesEnded_frame {P : Scope} {r s : State} (x1) (h : Fr P r s)
    (hp : P.outside 0x1e7801000000004420 := by exact Scope.outside_mono (by assumption) (by decide)) :
    Fr P r (State.rewindGatesEnded s x1) := by
  have hs := fun k => Scope.outside_mono (k := k) hp
  simp (maxDischargeDepth := 99) [State.rewindGatesEnded, h, hs]

@[simp] theorem execRewindGatesEnded_frame {P : Scope} {r s : State} (x1) (h : Fr P r s)
    (hp : P.outside 0x1e7801000000004420 := by exact Scope.outside_mono (by assumption) (by decide)) :
    ∃ t, execRewindGatesEnded x1 s = .next t ∧ Fr P r t := by
  have hs := fun k => Scope.outside_mono (k := k) hp
  exact ⟨_, rfl, by simp (maxDischargeDepth := 99) [h, hs]⟩

@[simp] theorem State.inhibitWaitTimeout_frame {P : Scope} {r s : State} (x1) (h : Fr P r s)
    (hp : P.outside 0x3e7f812010100065f4 := by exact Scope.outside_mono (by assumption) (by decide)) :
    Fr P r (State.inhibitWaitTimeout s x1) := by
  have hs := fun k => Scope.outside_mono (k := k) hp
  simp (maxDischargeDepth := 99) [State.inhibitWaitTimeout, h, hs]

@[simp] theorem execInhibitWaitTimeout_frame {P : Scope} {r s : State} (x1) (h : Fr P r s)
    (hp : P.outside 0x3e7f812010100065f4 := by exact Scope.outside_mono (by assumption) (by decide)) :
    ∃ t, execInhibitWaitTimeout x1 s = .next t ∧ Fr P r t := by
  have hs := fun k => Scope.outside_mono (k := k) hp
  exact ⟨_, rfl, by simp (maxDischargeDepth := 99) [h, hs]⟩

@[simp] theorem State.verifyStall_frame {P : Scope} {r s : State} (x1) (h : Fr P r s)
    (hp : P.outside 0x1e7801200010006444 := by exact Scope.outside_mono (by assumption) (by decide)) :
    Fr P r (State.verifyStall s x1) := by
  have hs := fun k => Scope.outside_mono (k := k) hp
  simp (maxDischargeDepth := 99) [State.verifyStall, h, hs]

@[simp] theorem execVerifyStallTimeout_frame {P : Scope} {r s : State} (x1) (h : Fr P r s)
    (hp : P.outside 0x1e7801200010006444 := by exact Scope.outside_mono (by assumption) (by decide)) :
    ∃ t, execVerifyStallTimeout x1 s = .next t ∧ Fr P r t := by
  have hs := fun k => Scope.outside_mono (k := k) hp
  exact ⟨_, rfl, by simp (maxDischargeDepth := 99) [h, hs]⟩

end Sys2Proof.Machine
end

