-- ==== Sys2Proof/Laws/FrameSvo.lean ====
section
/-! SUPPORT. What each operation of Machine/Svo.lean leaves alone. -/
set_option linter.unusedSimpArgs false
set_option linter.unusedTactic false
set_option linter.unreachableTactic false
set_option linter.unnecessarySeqFocus false
namespace Sys2Proof.Machine
set_option Elab.async false

@[simp] theorem State.setActed_frame {P : Scope} {r s : State} (x1) (x2) (h : Fr P r s)
    (hp : P.outside 0x1200000006040 := by exact Scope.outside_mono (by assumption) (by decide)) :
    Fr P r (State.setActed s x1 x2) := by
  have hs := fun k => Scope.outside_mono (k := k) hp
  simp (maxDischargeDepth := 99) [State.setActed, h, hs]

@[simp] theorem State.svoEvent_frame {P : Scope} {r s : State} (x1) (x2) (h : Fr P r s)
    (hp : P.outside 0x8000000000000000 := by exact Scope.outside_mono (by assumption) (by decide)) :
    Fr P r (State.svoEvent s x1 x2) := by
  have hs := fun k => Scope.outside_mono (k := k) hp
  simp (maxDischargeDepth := 99) [State.svoEvent, h, hs]

@[simp] theorem State.copyDesc_frame {P : Scope} {r s : State} (x1) (h : Fr P r s)
    (hp : P.outside 0x8001200000006040 := by exact Scope.outside_mono (by assumption) (by decide)) :
    Fr P r (State.copyDesc s x1) := by
  have hs := fun k => Scope.outside_mono (k := k) hp
  simp (maxDischargeDepth := 99) [State.copyDesc, h, hs]

@[simp] theorem State.runSection_frame {P : Scope} {r s : State} (x1) (x2) (x3) (x4) (h : Fr P r s)
    (hp : P.outside 0x1200000006040 := by exact Scope.outside_mono (by assumption) (by decide)) :
    Fr P r (State.runSection s x1 x2 x3 x4).1 := by
  have hs := fun k => Scope.outside_mono (k := k) hp
  simp (maxDischargeDepth := 99) [State.runSection, h, hs]

@[simp] theorem State.cascade_frame {P : Scope} {r : State} (hp : P.outside 0x1200000006040) (i k : Nat) : ∀ {s : State} (n j : Nat) (v : Int) (_ : Fr P r s),
    Fr P r (s.cascade i k n j v).1
  | _, 0, _, _, h => h
  | s, n + 1, j, v, h => by
    have hs := fun k => Scope.outside_mono (k := k) hp
    unfold State.cascade
    exact State.cascade_frame hp i k n (j + 1) _ (State.runSection_frame i k j v h)

@[simp] theorem State.setGen_frame {P : Scope} {r s : State} (x1) (x2) (h : Fr P r s)
    (hp : P.outside 0x40 := by exact Scope.outside_mono (by assumption) (by decide)) :
    Fr P r (State.setGen s x1 x2) := by
  have hs := fun k => Scope.outside_mono (k := k) hp
  simp (maxDischargeDepth := 99) [State.setGen, h, hs]

@[simp] theorem State.gensAdvance_frame {P : Scope} {r s : State} (x1) (h : Fr P r s)
    (hp : P.outside 0x40 := by exact Scope.outside_mono (by assumption) (by decide)) :
    Fr P r (State.gensAdvance s x1) := by
  have hs := fun k => Scope.outside_mono (k := k) hp
  simp (maxDischargeDepth := 99) [State.gensAdvance, h, hs]

@[simp] theorem State.genStart_frame {P : Scope} {r s : State} (x1) (h : Fr P r s)
    (hp : P.outside 0x40 := by exact Scope.outside_mono (by assumption) (by decide)) :
    Fr P r (State.genStart s x1) := by
  have hs := fun k => Scope.outside_mono (k := k) hp
  simp (maxDischargeDepth := 99) [State.genStart, h, hs]

@[simp] theorem State.capTrigger_frame {P : Scope} {r s : State} (h : Fr P r s)
    (hp : P.outside 0x8000000000000040 := by exact Scope.outside_mono (by assumption) (by decide)) :
    Fr P r (State.capTrigger s) := by
  have hs := fun k => Scope.outside_mono (k := k) hp
  simp (maxDischargeDepth := 99) [State.capTrigger, h, hs]

@[simp] theorem State.capEnd_frame {P : Scope} {r s : State} (h : Fr P r s)
    (hp : P.outside 0x8000000000000000 := by exact Scope.outside_mono (by assumption) (by decide)) :
    Fr P r (State.capEnd s) := by
  have hs := fun k => Scope.outside_mono (k := k) hp
  simp (maxDischargeDepth := 99) [State.capEnd, h, hs]

@[simp] theorem State.putCapWord_frame {P : Scope} {r s : State} (x1) (x2) (h : Fr P r s)
    (hp : P.outside 0x1200000006040 := by exact Scope.outside_mono (by assumption) (by decide)) :
    Fr P r (State.putCapWord s x1 x2) := by
  have hs := fun k => Scope.outside_mono (k := k) hp
  simp (maxDischargeDepth := 99) [State.putCapWord, h, hs]

@[simp] theorem State.capSample_frame {P : Scope} {r s : State} (x1) (x2) (h : Fr P r s)
    (hp : P.outside 0x1200000006040 := by exact Scope.outside_mono (by assumption) (by decide)) :
    Fr P r (State.capSample s x1 x2) := by
  have hs := fun k => Scope.outside_mono (k := k) hp
  simp (maxDischargeDepth := 99) [State.capSample, h, hs]

@[simp] theorem State.capLatch_frame {P : Scope} {r s : State} (x1) (h : Fr P r s)
    (hp : P.outside 0x8001200000006040 := by exact Scope.outside_mono (by assumption) (by decide)) :
    Fr P r (State.capLatch s x1) := by
  have hs := fun k => Scope.outside_mono (k := k) hp
  simp (maxDischargeDepth := 99) [State.capLatch, h, hs]

@[simp] theorem State.capArm_frame {P : Scope} {r s : State} (h : Fr P r s)
    (hp : P.outside 0x8000000000000040 := by exact Scope.outside_mono (by assumption) (by decide)) :
    Fr P r (State.capArm s) := by
  have hs := fun k => Scope.outside_mono (k := k) hp
  simp (maxDischargeDepth := 99) [State.capArm, h, hs]

@[simp] theorem execCapArm_frame {P : Scope} {r s : State} (h : Fr P r s)
    (hp : P.outside 0x8000000000000040 := by exact Scope.outside_mono (by assumption) (by decide)) :
    ∃ t, execCapArm s = .next t ∧ Fr P r t := by
  have hs := fun k => Scope.outside_mono (k := k) hp
  exact ⟨_, rfl, by simp (maxDischargeDepth := 99) [h, hs]⟩

@[simp] theorem execCapForce_frame {P : Scope} {r s : State} (h : Fr P r s)
    (hp : P.outside 0x8000000000000040 := by exact Scope.outside_mono (by assumption) (by decide)) :
    ∃ t, execCapForce s = .next t ∧ Fr P r t := by
  have hs := fun k => Scope.outside_mono (k := k) hp
  exact ⟨_, rfl, by simp (maxDischargeDepth := 99) [h, hs]⟩

@[simp] theorem execCapStop_frame {P : Scope} {r s : State} (h : Fr P r s)
    (hp : P.outside 0x8000000000000000 := by exact Scope.outside_mono (by assumption) (by decide)) :
    ∃ t, execCapStop s = .next t ∧ Fr P r t := by
  have hs := fun k => Scope.outside_mono (k := k) hp
  exact ⟨_, rfl, by simp (maxDischargeDepth := 99) [h, hs]⟩

@[simp] theorem State.seekTo_frame {P : Scope} {r s : State} (x1) (x2) (h : Fr P r s)
    (hp : P.outside 0x200001000000004080 := by exact Scope.outside_mono (by assumption) (by decide)) :
    Fr P r (State.seekTo s x1 x2) := by
  have hs := fun k => Scope.outside_mono (k := k) hp
  simp (maxDischargeDepth := 99) [State.seekTo, h, hs]

@[simp] theorem State.settleReport_frame {P : Scope} {r s : State} (x1) (h : Fr P r s)
    (hp : P.outside 0x3e00010000000045a0 := by exact Scope.outside_mono (by assumption) (by decide)) :
    Fr P r (State.settleReport s x1) := by
  have hs := fun k => Scope.outside_mono (k := k) hp
  simp (maxDischargeDepth := 99) [State.settleReport, h, hs]

@[simp] theorem State.settleWedge_frame {P : Scope} {r s : State} (x1) (h : Fr P r s)
    (hp : P.outside 0x3e00010000000045a0 := by exact Scope.outside_mono (by assumption) (by decide)) :
    Fr P r (State.settleWedge s x1) := by
  have hs := fun k => Scope.outside_mono (k := k) hp
  simp (maxDischargeDepth := 99) [State.settleWedge, h, hs]

@[simp] theorem State.stackInForce_frame {P : Scope} {r s : State} (x1) (h : Fr P r s)
    (hp : P.outside 0x40 := by exact Scope.outside_mono (by assumption) (by decide)) :
    Fr P r (State.stackInForce s x1) := by
  have hs := fun k => Scope.outside_mono (k := k) hp
  simp (maxDischargeDepth := 99) [State.stackInForce, h, hs]

@[simp] theorem State.actBoundary_frame {P : Scope} {r s : State} (x1) (h : Fr P r s)
    (hp : P.outside 0x3e00010000000045e0 := by exact Scope.outside_mono (by assumption) (by decide)) :
    Fr P r (State.actBoundary s x1) := by
  have hs := fun k => Scope.outside_mono (k := k) hp
  unfold State.actBoundary
  repeat' first
    | (simp (maxDischargeDepth := 99) [h, hs]; done)
    | split
    | refine State.each_frame (fun s x => ?_) _ ?_
    | refine State.onlyIf_frame _ (fun s => ?_) ?_
    | simp (maxDischargeDepth := 99) [h, hs]

@[simp] theorem State.measureTw_frame {P : Scope} {r s : State} (x1) (h : Fr P r s)
    (hp : P.outside 0x8000000000000040 := by exact Scope.outside_mono (by assumption) (by decide)) :
    Fr P r (State.measureTw s x1) := by
  have hs := fun k => Scope.outside_mono (k := k) hp
  simp (maxDischargeDepth := 99) [State.measureTw, h, hs]

@[simp] theorem State.loopAction_frame {P : Scope} {r s : State} (x1) (x2) (x3) (x4) (h : Fr P r s)
    (hp : P.outside 0x3eff812031120065f4 := by exact Scope.outside_mono (by assumption) (by decide)) :
    Fr P r (State.loopAction s x1 x2 x3 x4) := by
  have hs := fun k => Scope.outside_mono (k := k) hp
  simp (maxDischargeDepth := 99) [State.loopAction, h, hs]

@[simp] theorem State.supervise_frame {P : Scope} {r s : State} (x1) (x2) (x3) (x4) (h : Fr P r s)
    (hp : P.outside 0x3eff812031120065f4 := by exact Scope.outside_mono (by assumption) (by decide)) :
    Fr P r (State.supervise s x1 x2 x3 x4) := by
  have hs := fun k => Scope.outside_mono (k := k) hp
  simp (maxDischargeDepth := 99) [State.supervise, h, hs]

@[simp] theorem State.updateLoop_frame {P : Scope} {r s : State} (x1) (x2) (x3) (x4) (x5) (h : Fr P r s)
    (hp : P.outside 0x3eff812031120065f4 := by exact Scope.outside_mono (by assumption) (by decide)) :
    Fr P r (State.updateLoop s x1 x2 x3 x4 x5) := by
  have hs := fun k => Scope.outside_mono (k := k) hp
  simp (maxDischargeDepth := 99) [State.updateLoop, h, hs]

@[simp] theorem State.microCheck_frame {P : Scope} {r s : State} (x1) (h : Fr P r s)
    (hp : P.outside 0x3e7f812010100065f4 := by exact Scope.outside_mono (by assumption) (by decide)) :
    Fr P r (State.microCheck s x1) := by
  have hs := fun k => Scope.outside_mono (k := k) hp
  simp (maxDischargeDepth := 99) [State.microCheck, h, hs]

@[simp] theorem State.thermCheck_frame {P : Scope} {r s : State} (x1) (x2) (h : Fr P r s)
    (hp : P.outside 0x3e7f812010100065f4 := by exact Scope.outside_mono (by assumption) (by decide)) :
    Fr P r (State.thermCheck s x1 x2) := by
  have hs := fun k => Scope.outside_mono (k := k) hp
  simp (maxDischargeDepth := 99) [State.thermCheck, h, hs]

@[simp] theorem State.holdLoop_frame {P : Scope} {r s : State} (x1) (h : Fr P r s)
    (hp : P.outside 0x1200000006040 := by exact Scope.outside_mono (by assumption) (by decide)) :
    Fr P r (State.holdLoop s x1) := by
  have hs := fun k => Scope.outside_mono (k := k) hp
  simp (maxDischargeDepth := 99) [State.holdLoop, h, hs]

@[simp] theorem State.freshLoop_frame {P : Scope} {r s : State} (x1) (h : Fr P r s)
    (hp : P.outside 0x1200000006040 := by exact Scope.outside_mono (by assumption) (by decide)) :
    Fr P r (State.freshLoop s x1) := by
  have hs := fun k => Scope.outside_mono (k := k) hp
  simp (maxDischargeDepth := 99) [State.freshLoop, h, hs]

@[simp] theorem State.skipLoop_frame {P : Scope} {r s : State} (x1) (h : Fr P r s)
    (hp : P.outside 0x8001000000004000 := by exact Scope.outside_mono (by assumption) (by decide)) :
    Fr P r (State.skipLoop s x1) := by
  have hs := fun k => Scope.outside_mono (k := k) hp
  simp (maxDischargeDepth := 99) [State.skipLoop, h, hs]

@[simp] theorem State.runLoop_frame {P : Scope} {r s : State} (x1) (h : Fr P r s)
    (hp : P.outside 0x3eff812031120065f4 := by exact Scope.outside_mono (by assumption) (by decide)) :
    Fr P r (State.runLoop s x1) := by
  have hs := fun k => Scope.outside_mono (k := k) hp
  unfold State.runLoop
  (repeat' split) <;> simp (maxDischargeDepth := 99) [h, hs]

@[simp] theorem State.capWedge_frame {P : Scope} {r s : State} (x1) (h : Fr P r s)
    (hp : P.outside 0x8000000000000040 := by exact Scope.outside_mono (by assumption) (by decide)) :
    Fr P r (State.capWedge s x1) := by
  have hs := fun k => Scope.outside_mono (k := k) hp
  simp (maxDischargeDepth := 99) [State.capWedge, h, hs]

@[simp] theorem State.loopMissed_frame {P : Scope} {r s : State} (x1) (h : Fr P r s)
    (hp : P.outside 0x80010000000040a0 := by exact Scope.outside_mono (by assumption) (by decide)) :
    Fr P r (State.loopMissed s x1) := by
  have hs := fun k => Scope.outside_mono (k := k) hp
  simp (maxDischargeDepth := 99) [State.loopMissed, h, hs]

@[simp] theorem State.takeFh_frame {P : Scope} {r s : State} (x1) (h : Fr P r s)
    (hp : P.outside 0x7800000000000020 := by exact Scope.outside_mono (by assumption) (by decide)) :
    Fr P r (State.takeFh s x1) := by
  have hs := fun k => Scope.outside_mono (k := k) hp
  simp (maxDischargeDepth := 99) [State.takeFh, h, hs]

@[simp] theorem State.loopArrival_frame {P : Scope} {r s : State} (x1) (x2) (h : Fr P r s)
    (hp : P.outside 0x3eff812031120065f4 := by exact Scope.outside_mono (by assumption) (by decide)) :
    Fr P r (State.loopArrival s x1 x2) := by
  have hs := fun k => Scope.outside_mono (k := k) hp
  simp (maxDischargeDepth := 99) [State.loopArrival, h, hs]

@[simp] theorem State.loopUpdate_frame {P : Scope} {r s : State} (x1) (x2) (h : Fr P r s)
    (hp : P.outside 0x3eff812031120065f4 := by exact Scope.outside_mono (by assumption) (by decide)) :
    Fr P r (State.loopUpdate s x1 x2) := by
  have hs := fun k => Scope.outside_mono (k := k) hp
  simp (maxDischargeDepth := 99) [State.loopUpdate, h, hs]

@[simp] theorem execLoopUpdate_frame {P : Scope} {r s : State} (x1) (x2) (h : Fr P r s)
    (hp : P.outside 0x3eff812031120065f4 := by exact Scope.outside_mono (by assumption) (by decide)) :
    ∃ t, execLoopUpdate x1 x2 s = .next t ∧ Fr P r t := by
  have hs := fun k => Scope.outside_mono (k := k) hp
  exact ⟨_, rfl, by simp (maxDischargeDepth := 99) [h, hs]⟩

@[simp] theorem State.driveOut_frame {P : Scope} {r s : State} (x1) (x2) (x3) (h : Fr P r s)
    (hp : P.outside 0x44 := by exact Scope.outside_mono (by assumption) (by decide)) :
    Fr P r (State.driveOut s x1 x2 x3) := by
  have hs := fun k => Scope.outside_mono (k := k) hp
  simp (maxDischargeDepth := 99) [State.driveOut, h, hs]

@[simp] theorem State.latchResult_frame {P : Scope} {r s : State} (x1) (h : Fr P r s)
    (hp : P.outside 0x8001200000006040 := by exact Scope.outside_mono (by assumption) (by decide)) :
    Fr P r (State.latchResult s x1) := by
  have hs := fun k => Scope.outside_mono (k := k) hp
  simp (maxDischargeDepth := 99) [State.latchResult, h, hs]

@[simp] theorem State.outputLatch_frame {P : Scope} {r s : State} (x1) (h : Fr P r s)
    (hp : P.outside 0x8001200000006044 := by exact Scope.outside_mono (by assumption) (by decide)) :
    Fr P r (State.outputLatch s x1) := by
  have hs := fun k => Scope.outside_mono (k := k) hp
  simp (maxDischargeDepth := 99) [State.outputLatch, h, hs]

@[simp] theorem execOutputLatch_frame {P : Scope} {r s : State} (x1) (h : Fr P r s)
    (hp : P.outside 0x8001200000006044 := by exact Scope.outside_mono (by assumption) (by decide)) :
    ∃ t, execOutputLatch x1 s = .next t ∧ Fr P r t := by
  have hs := fun k => Scope.outside_mono (k := k) hp
  exact ⟨_, rfl, by simp (maxDischargeDepth := 99) [h, hs]⟩

@[simp] theorem State.svoCommit_frame {P : Scope} {r s : State} (x1) (h : Fr P r s)
    (hp : P.outside 0x40 := by exact Scope.outside_mono (by assumption) (by decide)) :
    Fr P r (State.svoCommit s x1) := by
  have hs := fun k => Scope.outside_mono (k := k) hp
  simp (maxDischargeDepth := 99) [State.svoCommit, h, hs]

@[simp] theorem execSvoCommit_frame {P : Scope} {r s : State} (x1) (h : Fr P r s)
    (hp : P.outside 0x40 := by exact Scope.outside_mono (by assumption) (by decide)) :
    ∃ t, execSvoCommit x1 s = .next t ∧ Fr P r t := by
  have hs := fun k => Scope.outside_mono (k := k) hp
  exact ⟨_, rfl, by simp (maxDischargeDepth := 99) [h, hs]⟩

@[simp] theorem State.svoMemWrite_frame {P : Scope} {r s : State} (x1) (x2) (h : Fr P r s)
    (hp : P.outside 0x8001200000006040 := by exact Scope.outside_mono (by assumption) (by decide)) :
    Fr P r (State.svoMemWrite s x1 x2) := by
  have hs := fun k => Scope.outside_mono (k := k) hp
  simp (maxDischargeDepth := 99) [State.svoMemWrite, h, hs]

@[simp] theorem State.svoWinWrite_frame {P : Scope} {r s : State} (x1) (x2) (h : Fr P r s)
    (hp : P.outside 0x8001200000006040 := by exact Scope.outside_mono (by assumption) (by decide)) :
    Fr P r (State.svoWinWrite s x1 x2) := by
  have hs := fun k => Scope.outside_mono (k := k) hp
  simp (maxDischargeDepth := 99) [State.svoWinWrite, h, hs]

@[simp] theorem execSvoWinWrite_frame {P : Scope} {r s : State} (x1) (x2) (h : Fr P r s)
    (hp : P.outside 0x8001200000006040 := by exact Scope.outside_mono (by assumption) (by decide)) :
    ∃ t, execSvoWinWrite x1 x2 s = .next t ∧ Fr P r t := by
  have hs := fun k => Scope.outside_mono (k := k) hp
  exact ⟨_, rfl, by simp (maxDischargeDepth := 99) [h, hs]⟩

@[simp] theorem State.svoCtrlWrite_frame {P : Scope} {r s : State} (x1) (h : Fr P r s)
    (hp : P.outside 0x8000000000000000 := by exact Scope.outside_mono (by assumption) (by decide)) :
    Fr P r (State.svoCtrlWrite s x1) := by
  have hs := fun k => Scope.outside_mono (k := k) hp
  simp (maxDischargeDepth := 99) [State.svoCtrlWrite, h, hs]

@[simp] theorem execSvoCtrlWrite_frame {P : Scope} {r s : State} (x1) (h : Fr P r s)
    (hp : P.outside 0x8000000000000000 := by exact Scope.outside_mono (by assumption) (by decide)) :
    ∃ t, execSvoCtrlWrite x1 s = .next t ∧ Fr P r t := by
  have hs := fun k => Scope.outside_mono (k := k) hp
  exact ⟨_, rfl, by simp (maxDischargeDepth := 99) [h, hs]⟩

@[simp] theorem execSvoMemoryZeroDone_frame {P : Scope} {r s : State} (h : Fr P r s)
    (hp : P.outside 0x1200000006040 := by exact Scope.outside_mono (by assumption) (by decide)) :
    ∃ t, execSvoMemoryZeroDone s = .next t ∧ Fr P r t := by
  have hs := fun k => Scope.outside_mono (k := k) hp
  exact ⟨_, rfl, by simp (maxDischargeDepth := 99) [h, hs]⟩

end Sys2Proof.Machine
end

