-- ==== Sys2Proof/Laws/FrameAct.lean ====
section
/-! SUPPORT. What each operation of Machine/Act.lean leaves alone. -/
set_option linter.unusedSimpArgs false
set_option linter.unusedTactic false
set_option linter.unreachableTactic false
set_option linter.unnecessarySeqFocus false
namespace Sys2Proof.Machine
set_option Elab.async false

@[simp] theorem State.groupsReadOnly_frame {P : Scope} {r s : State} (x1) (h : Fr P r s)
    (hp : P.outside 0x2 := by exact Scope.outside_mono (by assumption) (by decide)) :
    Fr P r (State.groupsReadOnly s x1) := by
  have hs := fun k => Scope.outside_mono (k := k) hp
  simp (maxDischargeDepth := 99) [State.groupsReadOnly, h, hs]

@[simp] theorem State.returnQueued_frame {P : Scope} {r s : State} (x1) (x2) (h : Fr P r s)
    (hp : P.outside 0x1e0001000000004400 := by exact Scope.outside_mono (by assumption) (by decide)) :
    Fr P r (State.returnQueued s x1 x2) := by
  have hs := fun k => Scope.outside_mono (k := k) hp
  simp (maxDischargeDepth := 99) [State.returnQueued, h, hs]

@[simp] theorem State.leaveGov_frame {P : Scope} {r s : State} (x1) (f : State → Mop → State) (hf : ∀ s m, Fr P s (f s m)) (h : Fr P r s)
    (hp : P.outside 0x3e00010000000045a0 := by exact Scope.outside_mono (by assumption) (by decide)) :
    Fr P r (State.leaveGov s x1 f) := by
  have hs := fun k => Scope.outside_mono (k := k) hp
  unfold State.leaveGov
  split
  · exact State.govAdmit_frame ((State.releaseGateCells_frame _ (by simp (maxDischargeDepth := 99) [h, hs]) (hs _ (by decide))).trans (hf _ _)) (hs _ (by decide))
  · exact h

@[simp] theorem State.returnAdmitting_frame {P : Scope} {r s : State} (x1) (x2) (h : Fr P r s)
    (hp : P.outside 0x3e00010000000045a0 := by exact Scope.outside_mono (by assumption) (by decide)) :
    Fr P r (State.returnAdmitting s x1 x2) := by
  have hs := fun k => Scope.outside_mono (k := k) hp
  unfold State.returnAdmitting
  (repeat' split) <;> simp (maxDischargeDepth := 99) [h, hs]

@[simp] theorem State.enterDisabled_frame {P : Scope} {r s : State} (x1) (h : Fr P r s)
    (hp : P.outside 0x3e00010000000045a2 := by exact Scope.outside_mono (by assumption) (by decide)) :
    Fr P r (State.enterDisabled s x1) := by
  have hs := fun k => Scope.outside_mono (k := k) hp
  simp (maxDischargeDepth := 99) [State.enterDisabled, h, hs]

@[simp] theorem State.disableGo_frame {P : Scope} {r s : State} (x1) (h : Fr P r s)
    (hp : P.outside 0x3e7f812031120065f6 := by exact Scope.outside_mono (by assumption) (by decide)) :
    Fr P r (State.disableGo s x1) := by
  have hs := fun k => Scope.outside_mono (k := k) hp
  simp (maxDischargeDepth := 99) [State.disableGo, h, hs]

@[simp] theorem State.disableContinue_frame {P : Scope} {r s : State} (x1) (h : Fr P r s)
    (hp : P.outside 0x3e7f812031120065f6 := by exact Scope.outside_mono (by assumption) (by decide)) :
    Fr P r (State.disableContinue s x1) := by
  have hs := fun k => Scope.outside_mono (k := k) hp
  simp (maxDischargeDepth := 99) [State.disableContinue, h, hs]

@[simp] theorem State.disableNotice_frame {P : Scope} {r s : State} (x1) (h : Fr P r s)
    (hp : P.outside 0x1e7800000000000400 := by exact Scope.outside_mono (by assumption) (by decide)) :
    Fr P r (State.disableNotice s x1) := by
  have hs := fun k => Scope.outside_mono (k := k) hp
  simp (maxDischargeDepth := 99) [State.disableNotice, h, hs]

@[simp] theorem State.disableStep_frame {P : Scope} {r s : State} (x1) (h : Fr P r s)
    (hp : P.outside 0x3e7f812031120065f6 := by exact Scope.outside_mono (by assumption) (by decide)) :
    Fr P r (State.disableStep s x1) := by
  have hs := fun k => Scope.outside_mono (k := k) hp
  simp (maxDischargeDepth := 99) [State.disableStep, h, hs]

@[simp] theorem State.actDisable_frame {P : Scope} {r s : State} (x1) (h : Fr P r s)
    (hp : P.outside 0x3e7f812031120065f6 := by exact Scope.outside_mono (by assumption) (by decide)) :
    Fr P r (State.actDisable s x1) := by
  have hs := fun k => Scope.outside_mono (k := k) hp
  simp (maxDischargeDepth := 99) [State.actDisable, h, hs]

@[simp] theorem execActDisable_frame {P : Scope} {r s : State} (x1) (h : Fr P r s)
    (hp : P.outside 0x3e7f812031120065f6 := by exact Scope.outside_mono (by assumption) (by decide)) :
    ∃ t, execActDisable x1 s = .next t ∧ Fr P r t := by
  have hs := fun k => Scope.outside_mono (k := k) hp
  exact ⟨_, rfl, by simp (maxDischargeDepth := 99) [h, hs]⟩

@[simp] theorem State.disableAfterRewind_frame {P : Scope} {r s : State} (x1) (h : Fr P r s)
    (hp : P.outside 0x3e7f812031120065f6 := by exact Scope.outside_mono (by assumption) (by decide)) :
    Fr P r (State.disableAfterRewind s x1) := by
  have hs := fun k => Scope.outside_mono (k := k) hp
  simp (maxDischargeDepth := 99) [State.disableAfterRewind, h, hs]

@[simp] theorem execReenable_frame {P : Scope} {r s : State} (x1) (h : Fr P r s)
    (hp : P.outside 0x200000000000000000 := by exact Scope.outside_mono (by assumption) (by decide)) :
    ∃ t, execReenable x1 s = .next t ∧ Fr P r t := by
  have hs := fun k => Scope.outside_mono (k := k) hp
  exact ⟨_, rfl, by simp (maxDischargeDepth := 99) [h, hs]⟩

@[simp] theorem State.actLoad_frame {P : Scope} {r s : State} (x1) (h : Fr P r s)
    (hp : P.outside 0x200000000010000080 := by exact Scope.outside_mono (by assumption) (by decide)) :
    Fr P r (State.actLoad s x1) := by
  have hs := fun k => Scope.outside_mono (k := k) hp
  simp (maxDischargeDepth := 99) [State.actLoad, h, hs]

@[simp] theorem execLoad_frame {P : Scope} {r s : State} (x1) (h : Fr P r s)
    (hp : P.outside 0x200000000010000080 := by exact Scope.outside_mono (by assumption) (by decide)) :
    ∃ t, execLoad x1 s = .next t ∧ Fr P r t := by
  have hs := fun k => Scope.outside_mono (k := k) hp
  exact ⟨_, rfl, by simp (maxDischargeDepth := 99) [h, hs]⟩

@[simp] theorem execLoadTimeout_frame {P : Scope} {r s : State} (x1) (h : Fr P r s)
    (hp : P.outside 0x3e7f812031120065f4 := by exact Scope.outside_mono (by assumption) (by decide)) :
    ∃ t, execLoadTimeout x1 s = .next t ∧ Fr P r t := by
  have hs := fun k => Scope.outside_mono (k := k) hp
  exact ⟨_, rfl, by simp (maxDischargeDepth := 99) [h, hs]⟩

@[simp] theorem execActRetract_frame {P : Scope} {r s : State} (x1) (x2) (h : Fr P r s)
    (hp : P.outside 0x3e7f812031120065f4 := by exact Scope.outside_mono (by assumption) (by decide)) :
    ∃ t, execActRetract x1 x2 s = .next t ∧ Fr P r t := by
  have hs := fun k => Scope.outside_mono (k := k) hp
  exact ⟨_, rfl, by simp (maxDischargeDepth := 99) [h, hs]⟩

@[simp] theorem State.stopLink_frame {P : Scope} {r s : State} (x1) (h : Fr P r s)
    (hp : P.outside 0x200000000000000080 := by exact Scope.outside_mono (by assumption) (by decide)) :
    Fr P r (State.stopLink s x1) := by
  have hs := fun k => Scope.outside_mono (k := k) hp
  simp (maxDischargeDepth := 99) [State.stopLink, h, hs]

@[simp] theorem State.retractEnded_frame {P : Scope} {r s : State} (x1) (h : Fr P r s)
    (hp : P.outside 0x3e00010000100045a2 := by exact Scope.outside_mono (by assumption) (by decide)) :
    Fr P r (State.retractEnded s x1) := by
  have hs := fun k => Scope.outside_mono (k := k) hp
  simp (maxDischargeDepth := 99) [State.retractEnded, h, hs]

@[simp] theorem State.retractTimeout_frame {P : Scope} {r s : State} (x1) (h : Fr P r s)
    (hp : P.outside 0x3e00010000000045a2 := by exact Scope.outside_mono (by assumption) (by decide)) :
    Fr P r (State.retractTimeout s x1) := by
  have hs := fun k => Scope.outside_mono (k := k) hp
  simp (maxDischargeDepth := 99) [State.retractTimeout, h, hs]

@[simp] theorem execRetractTimeout_frame {P : Scope} {r s : State} (x1) (h : Fr P r s)
    (hp : P.outside 0x3e00010000000045a2 := by exact Scope.outside_mono (by assumption) (by decide)) :
    ∃ t, execRetractTimeout x1 s = .next t ∧ Fr P r t := by
  have hs := fun k => Scope.outside_mono (k := k) hp
  exact ⟨_, rfl, by simp (maxDischargeDepth := 99) [h, hs]⟩

@[simp] theorem State.settleTimeout_frame {P : Scope} {r s : State} (x1) (h : Fr P r s)
    (hp : P.outside 0x3e0000000000000480 := by exact Scope.outside_mono (by assumption) (by decide)) :
    Fr P r (State.settleTimeout s x1) := by
  have hs := fun k => Scope.outside_mono (k := k) hp
  simp (maxDischargeDepth := 99) [State.settleTimeout, h, hs]

@[simp] theorem execSettleTimeout_frame {P : Scope} {r s : State} (x1) (h : Fr P r s)
    (hp : P.outside 0x3e0000000000000480 := by exact Scope.outside_mono (by assumption) (by decide)) :
    ∃ t, execSettleTimeout x1 s = .next t ∧ Fr P r t := by
  have hs := fun k => Scope.outside_mono (k := k) hp
  exact ⟨_, rfl, by simp (maxDischargeDepth := 99) [h, hs]⟩

@[simp] theorem State.powerLossRetract_frame {P : Scope} {r s : State} (h : Fr P r s)
    (hp : P.outside 0x207801000010004424 := by exact Scope.outside_mono (by assumption) (by decide)) :
    Fr P r (State.powerLossRetract s) := by
  have hs := fun k => Scope.outside_mono (k := k) hp
  simp (maxDischargeDepth := 99) [State.powerLossRetract, h, hs]

@[simp] theorem State.actLinkEn_frame {P : Scope} {r s : State} (x1) (h : Fr P r s)
    (hp : P.outside 0x3e7f812031120065f4 := by exact Scope.outside_mono (by assumption) (by decide)) :
    Fr P r (State.actLinkEn s x1) := by
  have hs := fun k => Scope.outside_mono (k := k) hp
  simp (maxDischargeDepth := 99) [State.actLinkEn, h, hs]

@[simp] theorem execActLinkEn_frame {P : Scope} {r s : State} (x1) (h : Fr P r s)
    (hp : P.outside 0x3e7f812031120065f4 := by exact Scope.outside_mono (by assumption) (by decide)) :
    ∃ t, execActLinkEn x1 s = .next t ∧ Fr P r t := by
  have hs := fun k => Scope.outside_mono (k := k) hp
  exact ⟨_, rfl, by simp (maxDischargeDepth := 99) [h, hs]⟩

@[simp] theorem State.outputFrame_frame {P : Scope} {r s : State} (x1) (h : Fr P r s)
    (hp : P.outside 0x100000c0 := by exact Scope.outside_mono (by assumption) (by decide)) :
    Fr P r (State.outputFrame s x1) := by
  have hs := fun k => Scope.outside_mono (k := k) hp
  simp (maxDischargeDepth := 99) [State.outputFrame, h, hs]

@[simp] theorem execOutputFrameSend_frame {P : Scope} {r s : State} (x1) (h : Fr P r s)
    (hp : P.outside 0x100000c0 := by exact Scope.outside_mono (by assumption) (by decide)) :
    ∃ t, execOutputFrameSend x1 s = .next t ∧ Fr P r t := by
  have hs := fun k => Scope.outside_mono (k := k) hp
  exact ⟨_, rfl, by simp (maxDischargeDepth := 99) [h, hs]⟩

@[simp] theorem State.actViolation_frame {P : Scope} {r s : State} (x1) (h : Fr P r s)
    (hp : P.outside 0x200001000000004000 := by exact Scope.outside_mono (by assumption) (by decide)) :
    Fr P r (State.actViolation s x1) := by
  have hs := fun k => Scope.outside_mono (k := k) hp
  simp (maxDischargeDepth := 99) [State.actViolation, h, hs]

@[simp] theorem State.ampStatus_frame {P : Scope} {r s : State} (x1) (x2) (h : Fr P r s)
    (hp : P.outside 0x3e00010020120045a2 := by exact Scope.outside_mono (by assumption) (by decide)) :
    Fr P r (State.ampStatus s x1 x2) := by
  have hs := fun k => Scope.outside_mono (k := k) hp
  simp (maxDischargeDepth := 99) [State.ampStatus, h, hs]

@[simp] theorem State.ampReply_frame {P : Scope} {r s : State} (x1) (x2) (h : Fr P r s)
    (hp : P.outside 0x200000000000000080 := by exact Scope.outside_mono (by assumption) (by decide)) :
    Fr P r (State.ampReply s x1 x2) := by
  have hs := fun k => Scope.outside_mono (k := k) hp
  simp (maxDischargeDepth := 99) [State.ampReply, h, hs]

@[simp] theorem State.ampLock_frame {P : Scope} {r s : State} (x1) (x2) (h : Fr P r s)
    (hp : P.outside 0x200000000000000080 := by exact Scope.outside_mono (by assumption) (by decide)) :
    Fr P r (State.ampLock s x1 x2) := by
  have hs := fun k => Scope.outside_mono (k := k) hp
  simp (maxDischargeDepth := 99) [State.ampLock, h, hs]

@[simp] theorem State.upFrame_frame {P : Scope} {r s : State} (x1) (x2) (h : Fr P r s)
    (hp : P.outside 0x3e00010020120045a2 := by exact Scope.outside_mono (by assumption) (by decide)) :
    Fr P r (State.upFrame s x1 x2) := by
  have hs := fun k => Scope.outside_mono (k := k) hp
  simp (maxDischargeDepth := 99) [State.upFrame, h, hs]

@[simp] theorem execAmpStatusFrame_frame {P : Scope} {r s : State} (x1) (x2) (h : Fr P r s)
    (hp : P.outside 0x3e00010020120045a2 := by exact Scope.outside_mono (by assumption) (by decide)) :
    ∃ t, execAmpStatusFrame x1 x2 s = .next t ∧ Fr P r t := by
  have hs := fun k => Scope.outside_mono (k := k) hp
  exact ⟨_, rfl, by simp (maxDischargeDepth := 99) [h, hs]⟩

@[simp] theorem execAmpRegReply_frame {P : Scope} {r s : State} (x1) (x2) (h : Fr P r s)
    (hp : P.outside 0x3e00010020120045a2 := by exact Scope.outside_mono (by assumption) (by decide)) :
    ∃ t, execAmpRegReply x1 x2 s = .next t ∧ Fr P r t := by
  have hs := fun k => Scope.outside_mono (k := k) hp
  exact ⟨_, rfl, by simp (maxDischargeDepth := 99) [h, hs]⟩

@[simp] theorem State.linkLost_frame {P : Scope} {r s : State} (x1) (h : Fr P r s)
    (hp : P.outside 0x3e7f812031120065f4 := by exact Scope.outside_mono (by assumption) (by decide)) :
    Fr P r (State.linkLost s x1) := by
  have hs := fun k => Scope.outside_mono (k := k) hp
  simp (maxDischargeDepth := 99) [State.linkLost, h, hs]

@[simp] theorem execLinkTimeout_frame {P : Scope} {r s : State} (x1) (h : Fr P r s)
    (hp : P.outside 0x3e7f812031120065f4 := by exact Scope.outside_mono (by assumption) (by decide)) :
    ∃ t, execLinkTimeout x1 s = .next t ∧ Fr P r t := by
  have hs := fun k => Scope.outside_mono (k := k) hp
  exact ⟨_, rfl, by simp (maxDischargeDepth := 99) [h, hs]⟩

@[simp] theorem State.ampcmdGo_frame {P : Scope} {r s : State} (x1) (h : Fr P r s)
    (hp : P.outside 0x200000000010000080 := by exact Scope.outside_mono (by assumption) (by decide)) :
    Fr P r (State.ampcmdGo s x1) := by
  have hs := fun k => Scope.outside_mono (k := k) hp
  simp (maxDischargeDepth := 99) [State.ampcmdGo, h, hs]

@[simp] theorem execAmpcmdGo_frame {P : Scope} {r s : State} (x1) (h : Fr P r s)
    (hp : P.outside 0x200000000010000080 := by exact Scope.outside_mono (by assumption) (by decide)) :
    ∃ t, execAmpcmdGo x1 s = .next t ∧ Fr P r t := by
  have hs := fun k => Scope.outside_mono (k := k) hp
  exact ⟨_, rfl, by simp (maxDischargeDepth := 99) [h, hs]⟩

@[simp] theorem State.ampcmdTimeout_frame {P : Scope} {r s : State} (x1) (h : Fr P r s)
    (hp : P.outside 0x200000000000000080 := by exact Scope.outside_mono (by assumption) (by decide)) :
    Fr P r (State.ampcmdTimeout s x1) := by
  have hs := fun k => Scope.outside_mono (k := k) hp
  simp (maxDischargeDepth := 99) [State.ampcmdTimeout, h, hs]

@[simp] theorem execAmpcmdTimeout_frame {P : Scope} {r s : State} (x1) (h : Fr P r s)
    (hp : P.outside 0x200000000000000080 := by exact Scope.outside_mono (by assumption) (by decide)) :
    ∃ t, execAmpcmdTimeout x1 s = .next t ∧ Fr P r t := by
  have hs := fun k => Scope.outside_mono (k := k) hp
  exact ⟨_, rfl, by simp (maxDischargeDepth := 99) [h, hs]⟩

@[simp] theorem execGovBudgetWrite_frame {P : Scope} {r s : State} (x1) (h : Fr P r s)
    (hp : P.outside 0x3e00010000000045a0 := by exact Scope.outside_mono (by assumption) (by decide)) :
    ∃ t, execGovBudgetWrite x1 s = .next t ∧ Fr P r t := by
  have hs := fun k => Scope.outside_mono (k := k) hp
  exact ⟨_, rfl, by simp (maxDischargeDepth := 99) [h, hs]⟩

@[simp] theorem State.headdisWrite_frame {P : Scope} {r s : State} (x1) (x2) (h : Fr P r s)
    (hp : P.outside 0x3e7f812010100065f6 := by exact Scope.outside_mono (by assumption) (by decide)) :
    Fr P r (State.headdisWrite s x1 x2) := by
  have hs := fun k => Scope.outside_mono (k := k) hp
  simp (maxDischargeDepth := 99) [State.headdisWrite, h, hs]

@[simp] theorem execActHeaddisWrite_frame {P : Scope} {r s : State} (x1) (x2) (h : Fr P r s)
    (hp : P.outside 0x3e7f812010100065f6 := by exact Scope.outside_mono (by assumption) (by decide)) :
    ∃ t, execActHeaddisWrite x1 x2 s = .next t ∧ Fr P r t := by
  have hs := fun k => Scope.outside_mono (k := k) hp
  exact ⟨_, rfl, by simp (maxDischargeDepth := 99) [h, hs]⟩

end Sys2Proof.Machine
end

