-- ==== Sys2Proof/Laws/FrameAlm.lean ====
section
/-! SUPPORT. What each operation of Machine/Alm.lean leaves alone. -/
set_option linter.unusedSimpArgs false
set_option linter.unusedTactic false
set_option linter.unreachableTactic false
set_option linter.unnecessarySeqFocus false
namespace Sys2Proof.Machine
set_option Elab.async false

@[simp] theorem State.closePage_frame {P : Scope} {r s : State} (h : Fr P r s)
    (hp : P.outside 0x804000000 := by exact Scope.outside_mono (by assumption) (by decide)) :
    Fr P r (State.closePage s) := by
  have hs := fun k => Scope.outside_mono (k := k) hp
  simp (maxDischargeDepth := 99) [State.closePage, h, hs]

@[simp] theorem State.almKick_frame {P : Scope} {r s : State} (h : Fr P r s)
    (hp : P.outside 0x400400000 := by exact Scope.outside_mono (by assumption) (by decide)) :
    Fr P r (State.almKick s) := by
  have hs := fun k => Scope.outside_mono (k := k) hp
  unfold State.almKick
  (repeat' split) <;> simp (maxDischargeDepth := 99) [h, hs]

@[simp] theorem State.putBytes_frame {P : Scope} {r : State} (hp : P.outside 0x804000000) : ∀ {s : State} (n : Nat) (first : Bool) (bs : List Byte) (_ : Fr P r s),
    Fr P r (s.putBytes n first bs).1
  | _, 0, _, _, h => h
  | s, n + 1, first, bs, h => by
    have hs := fun k => Scope.outside_mono (k := k) hp
    unfold State.putBytes
    dsimp only
    split
    · exact h
    · split
      · simp (maxDischargeDepth := 99) [h, hs]
      · exact State.putBytes_frame hp n false _ (by simp (maxDischargeDepth := 99) [h, hs])

@[simp] theorem State.almTake_frame {P : Scope} {r s : State} (x1) (x2) (x3) (h : Fr P r s)
    (hp : P.outside 0x1000c04404000 := by exact Scope.outside_mono (by assumption) (by decide)) :
    Fr P r (State.almTake s x1 x2 x3) := by
  have hs := fun k => Scope.outside_mono (k := k) hp
  unfold State.almTake
  repeat' first
    | (simp (maxDischargeDepth := 99) [h, hs]; done)
    | split
    | refine State.each_frame (fun s x => ?_) _ ?_
    | refine State.onlyIf_frame _ (fun s => ?_) ?_
    | simp (maxDischargeDepth := 99) [h, hs]

@[simp] theorem State.almAccept_frame {P : Scope} {r s : State} (x1) (x2) (h : Fr P r s)
    (hp : P.outside 0x1000c04404000 := by exact Scope.outside_mono (by assumption) (by decide)) :
    Fr P r (State.almAccept s x1 x2) := by
  have hs := fun k => Scope.outside_mono (k := k) hp
  simp (maxDischargeDepth := 99) [State.almAccept, h, hs]

@[simp] theorem State.appendHead_frame {P : Scope} {r s : State} (x1) (h : Fr P r s)
    (hp : P.outside 0x1000010004000 := by exact Scope.outside_mono (by assumption) (by decide)) :
    Fr P r (State.appendHead s x1).1 := by
  have hs := fun k => Scope.outside_mono (k := k) hp
  unfold State.appendHead
  (repeat' split) <;> simp (maxDischargeDepth := 99) [h, hs]

theorem execAlmanacSubmit_frame {P : Scope} {r s : State} (x1) (h : Fr P r s)
    (hp : P.outside 0x1000c14404000 := by exact Scope.outside_mono (by assumption) (by decide)) :
    ∃ t, execAlmanacSubmit x1 s = .next t ∧ Fr P r t := by
  have hs := fun k => Scope.outside_mono (k := k) hp
  have h1 := State.appendHead_frame x1 h
  refine ⟨_, rfl, ?_⟩
  generalize s.appendHead x1 = e at h1 ⊢
  obtain ⟨s', o⟩ := e
  cases o with
  | none => exact h1
  | some p => dsimp only at h1 ⊢; split <;> simp (maxDischargeDepth := 99) [h1, hs]

@[simp] theorem execAlmAppGo_frame {P : Scope} {r s : State} (x1) (h : Fr P r s)
    (hp : P.outside 0x1000c04404000 := by exact Scope.outside_mono (by assumption) (by decide)) :
    ∃ t, execAlmAppGo x1 s = .next t ∧ Fr P r t := by
  have hs := fun k => Scope.outside_mono (k := k) hp
  exact ⟨_, rfl, by simp (maxDischargeDepth := 99) [h, hs]⟩

@[simp] theorem State.flush_frame {P : Scope} {r s : State} (h : Fr P r s)
    (hp : P.outside 0xc04400000 := by exact Scope.outside_mono (by assumption) (by decide)) :
    Fr P r (State.flush s) := by
  have hs := fun k => Scope.outside_mono (k := k) hp
  simp (maxDischargeDepth := 99) [State.flush, h, hs]

@[simp] theorem execAlmFlush_frame {P : Scope} {r s : State} (h : Fr P r s)
    (hp : P.outside 0xc04400000 := by exact Scope.outside_mono (by assumption) (by decide)) :
    ∃ t, execAlmFlush s = .next t ∧ Fr P r t := by
  have hs := fun k => Scope.outside_mono (k := k) hp
  exact ⟨_, rfl, by simp (maxDischargeDepth := 99) [h, hs]⟩

@[simp] theorem execAlmFlushTimer_frame {P : Scope} {r s : State} (h : Fr P r s)
    (hp : P.outside 0xc04400000 := by exact Scope.outside_mono (by assumption) (by decide)) :
    ∃ t, execAlmFlushTimer s = .next t ∧ Fr P r t := by
  have hs := fun k => Scope.outside_mono (k := k) hp
  exact ⟨_, rfl, by simp (maxDischargeDepth := 99) [h, hs]⟩

@[simp] theorem execPlossWindowClose_frame {P : Scope} {r s : State} (h : Fr P r s)
    (hp : P.outside 0xc04400000 := by exact Scope.outside_mono (by assumption) (by decide)) :
    ∃ t, execPlossWindowClose s = .next t ∧ Fr P r t := by
  have hs := fun k => Scope.outside_mono (k := k) hp
  exact ⟨_, rfl, by simp (maxDischargeDepth := 99) [h, hs]⟩

@[simp] theorem State.almPageDone_frame {P : Scope} {r s : State} (h : Fr P r s)
    (hp : P.outside 0x1000804004000 := by exact Scope.outside_mono (by assumption) (by decide)) :
    Fr P r (State.almPageDone s) := by
  have hs := fun k => Scope.outside_mono (k := k) hp
  simp (maxDischargeDepth := 99) [State.almPageDone, h, hs]

@[simp] theorem execAlmBootScan_frame {P : Scope} {r s : State} (x1) (x2) (h : Fr P r s)
    (hp : P.outside 0x1000804004000 := by exact Scope.outside_mono (by assumption) (by decide)) :
    ∃ t, execAlmBootScan x1 x2 s = .next t ∧ Fr P r t := by
  have hs := fun k => Scope.outside_mono (k := k) hp
  exact ⟨_, rfl, by simp (maxDischargeDepth := 99) [h, hs]⟩

@[simp] theorem execAlmSeqLoRead_frame {P : Scope} {r s : State} (h : Fr P r s)
    (hp : P.outside 0x4000000 := by exact Scope.outside_mono (by assumption) (by decide)) :
    ∃ t, execAlmSeqLoRead s = .next t ∧ Fr P r t := by
  have hs := fun k => Scope.outside_mono (k := k) hp
  exact ⟨_, rfl, by simp (maxDischargeDepth := 99) [h, hs]⟩

end Sys2Proof.Machine
end

