-- ==== Sys2Proof/Laws/FrameMem.lean ====
section
/-! SUPPORT. What each operation of Machine/Mem.lean leaves alone. -/
set_option linter.unusedSimpArgs false
set_option linter.unusedTactic false
set_option linter.unreachableTactic false
set_option linter.unnecessarySeqFocus false
namespace Sys2Proof.Machine
set_option Elab.async false

@[simp] theorem State.setUnit_frame {P : Scope} {r s : State} (k : Nat) (u : MemUnit) (h : Fr P r s)
    (hp : P.outside 0x1000 := by exact Scope.outside_mono (by assumption) (by decide)) :
    Fr P r (s.setUnit k u) := Fr.with_mem hp (fun k => twf_tset _ _ _ _ k) h

@[simp] theorem State.memError_frame {P : Scope} {r s : State} (x1) (x2) (h : Fr P r s)
    (hp : P.outside 0x1800000004000 := by exact Scope.outside_mono (by assumption) (by decide)) :
    Fr P r (State.memError s x1 x2) := by
  have hs := fun k => Scope.outside_mono (k := k) hp
  unfold State.memError
  (repeat' split) <;> simp (maxDischargeDepth := 99) [h, hs]

@[simp] theorem State.bufferFound_frame {P : Scope} {r s : State} (x1) (h : Fr P r s)
    (hp : P.outside 0x1a00020004000 := by exact Scope.outside_mono (by assumption) (by decide)) :
    Fr P r (State.bufferFound s x1) := by
  have hs := fun k => Scope.outside_mono (k := k) hp
  simp (maxDischargeDepth := 99) [State.bufferFound, h, hs]

@[simp] theorem State.storeUnit_frame {P : Scope} {r s : State} (x1) (x2) (x3) (x4) (h : Fr P r s)
    (hp : P.outside 0x800000001000 := by exact Scope.outside_mono (by assumption) (by decide)) :
    Fr P r (State.storeUnit s x1 x2 x3 x4) := by
  have hs := fun k => Scope.outside_mono (k := k) hp
  simp (maxDischargeDepth := 99) [State.storeUnit, h, hs]

@[simp] theorem State.takeUnit_frame {P : Scope} {r s : State} (x1) (x2) (x3) (x4) (h : Fr P r s)
    (hp : P.outside 0x1800000005000 := by exact Scope.outside_mono (by assumption) (by decide)) :
    Fr P r (State.takeUnit s x1 x2 x3 x4).1 := by
  have hs := fun k => Scope.outside_mono (k := k) hp
  simp (maxDischargeDepth := 99) [State.takeUnit, h, hs]

@[simp] theorem State.readUnit_frame {P : Scope} {r s : State} (x1) (x2) (x3) (h : Fr P r s)
    (hp : P.outside 0x1800000005000 := by exact Scope.outside_mono (by assumption) (by decide)) :
    Fr P r (State.readUnit s x1 x2 x3).1 := by
  have hs := fun k => Scope.outside_mono (k := k) hp
  simp (maxDischargeDepth := 99) [State.readUnit, h, hs]

@[simp] theorem State.writeUnit_frame {P : Scope} {r s : State} (x1) (x2) (x3) (h : Fr P r s)
    (hp : P.outside 0x800000001000 := by exact Scope.outside_mono (by assumption) (by decide)) :
    Fr P r (State.writeUnit s x1 x2 x3) := by
  have hs := fun k => Scope.outside_mono (k := k) hp
  simp (maxDischargeDepth := 99) [State.writeUnit, h, hs]

@[simp] theorem State.writePart_frame {P : Scope} {r s : State} (x1) (x2) (x3) (x4) (x5) (h : Fr P r s)
    (hp : P.outside 0x1800000005000 := by exact Scope.outside_mono (by assumption) (by decide)) :
    Fr P r (State.writePart s x1 x2 x3 x4 x5).1 := by
  have hs := fun k => Scope.outside_mono (k := k) hp
  unfold State.writePart
  repeat' first
    | (simp (maxDischargeDepth := 99) [h, hs]; done)
    | split
    | refine State.each_frame (fun s x => ?_) _ ?_
    | refine State.onlyIf_frame _ (fun s => ?_) ?_
    | simp (maxDischargeDepth := 99) [h, hs]

@[simp] theorem State.memRemapWrite_frame {P : Scope} {r s : State} (x1) (x2) (x3) (h : Fr P r s)
    (hp : P.outside 0x800000000000 := by exact Scope.outside_mono (by assumption) (by decide)) :
    Fr P r (State.memRemapWrite s x1 x2 x3) := by
  have hs := fun k => Scope.outside_mono (k := k) hp
  simp (maxDischargeDepth := 99) [State.memRemapWrite, h, hs]

@[simp] theorem execMemRemapWrite_frame {P : Scope} {r s : State} (x1) (x2) (x3) (h : Fr P r s)
    (hp : P.outside 0x800000000000 := by exact Scope.outside_mono (by assumption) (by decide)) :
    ∃ t, execMemRemapWrite x1 x2 x3 s = .next t ∧ Fr P r t := by
  have hs := fun k => Scope.outside_mono (k := k) hp
  exact ⟨_, rfl, by simp (maxDischargeDepth := 99) [h, hs]⟩

@[simp] theorem State.memCopyDone_frame {P : Scope} {r s : State} (x1) (x2) (h : Fr P r s)
    (hp : P.outside 0x1800000005000 := by exact Scope.outside_mono (by assumption) (by decide)) :
    Fr P r (State.memCopyDone s x1 x2) := by
  have hs := fun k => Scope.outside_mono (k := k) hp
  simp (maxDischargeDepth := 99) [State.memCopyDone, h, hs]

@[simp] theorem State.scrubPatrol_frame {P : Scope} {r s : State} (x1) (x2) (h : Fr P r s)
    (hp : P.outside 0x1800000005000 := by exact Scope.outside_mono (by assumption) (by decide)) :
    Fr P r (State.scrubPatrol s x1 x2) := by
  have hs := fun k => Scope.outside_mono (k := k) hp
  simp (maxDischargeDepth := 99) [State.scrubPatrol, h, hs]

@[simp] theorem execMemScrubPatrol_frame {P : Scope} {r s : State} (x1) (x2) (h : Fr P r s)
    (hp : P.outside 0x1800000005000 := by exact Scope.outside_mono (by assumption) (by decide)) :
    ∃ t, execMemScrubPatrol x1 x2 s = .next t ∧ Fr P r t := by
  have hs := fun k => Scope.outside_mono (k := k) hp
  exact ⟨_, rfl, by simp (maxDischargeDepth := 99) [h, hs]⟩

@[simp] theorem execMemEccTestArm_frame {P : Scope} {r s : State} (h : Fr P r s)
    (hp : P.outside 0x800000000000 := by exact Scope.outside_mono (by assumption) (by decide)) :
    ∃ t, execMemEccTestArm s = .next t ∧ Fr P r t := by
  have hs := fun k => Scope.outside_mono (k := k) hp
  exact ⟨_, rfl, by simp (maxDischargeDepth := 99) [h, hs]⟩

@[simp] theorem State.memInit_frame {P : Scope} {r s : State} (h : Fr P r s)
    (hp : P.outside 0x800000001000 := by exact Scope.outside_mono (by assumption) (by decide)) :
    Fr P r (State.memInit s) := by
  have hs := fun k => Scope.outside_mono (k := k) hp
  simp (maxDischargeDepth := 99) [State.memInit, h, hs]

@[simp] theorem execMemInit_frame {P : Scope} {r s : State} (h : Fr P r s)
    (hp : P.outside 0x800000001000 := by exact Scope.outside_mono (by assumption) (by decide)) :
    ∃ t, execMemInit s = .next t ∧ Fr P r t := by
  have hs := fun k => Scope.outside_mono (k := k) hp
  exact ⟨_, rfl, by simp (maxDischargeDepth := 99) [h, hs]⟩

end Sys2Proof.Machine
end

