-- ==== Sys2Proof/Laws/FrameLnt.lean ====
section
/-! SUPPORT. What each operation of Machine/Lnt.lean leaves alone. -/
set_option linter.unusedSimpArgs false
set_option linter.unusedTactic false
set_option linter.unreachableTactic false
set_option linter.unnecessarySeqFocus false
namespace Sys2Proof.Machine
set_option Elab.async false

/-- What a piece leaves alone. -/
def PieceRes.Fr (P : Scope) (r : State) : PieceRes → Prop
  | .waits s => Machine.Fr P r s
  | .done s _ _ => Machine.Fr P r s

@[simp] theorem State.setTagged_frame {P : Scope} {r s : State} (x1) (x2) (h : Fr P r s)
    (hp : P.outside 0x1200000006800 := by exact Scope.outside_mono (by assumption) (by decide)) :
    Fr P r (State.setTagged s x1 x2) := by
  have hs := fun k => Scope.outside_mono (k := k) hp
  simp (maxDischargeDepth := 99) [State.setTagged, h, hs]

@[simp] theorem State.touch_frame {P : Scope} {r s : State} (x1) (x2) (h : Fr P r s)
    (hp : P.outside 0x800 := by exact Scope.outside_mono (by assumption) (by decide)) :
    Fr P r (State.touch s x1 x2) := by
  have hs := fun k => Scope.outside_mono (k := k) hp
  simp (maxDischargeDepth := 99) [State.touch, h, hs]

@[simp] theorem State.readOut_frame {P : Scope} {r s : State} (x1) (x2) (h : Fr P r s)
    (hp : P.outside 0x1200000006000 := by exact Scope.outside_mono (by assumption) (by decide)) :
    Fr P r (State.readOut s x1 x2).1 := by
  have hs := fun k => Scope.outside_mono (k := k) hp
  unfold State.readOut
  dsimp only
  refine foldl_frame ?_ _ _ h
  intro p x
  simp [hs]

@[simp] theorem State.storeLine_frame {P : Scope} {r s : State} (x1) (x2) (x3) (h : Fr P r s)
    (hp : P.outside 0x800000001000 := by exact Scope.outside_mono (by assumption) (by decide)) :
    Fr P r (State.storeLine s x1 x2 x3) := by
  have hs := fun k => Scope.outside_mono (k := k) hp
  simp (maxDischargeDepth := 99) [State.storeLine, h, hs]

@[simp] theorem State.cleanLine_frame {P : Scope} {r s : State} (x1) (x2) (h : Fr P r s)
    (hp : P.outside 0x1a00000007800 := by exact Scope.outside_mono (by assumption) (by decide)) :
    Fr P r (State.cleanLine s x1 x2) := by
  have hs := fun k => Scope.outside_mono (k := k) hp
  simp (maxDischargeDepth := 99) [State.cleanLine, h, hs]

@[simp] theorem State.fillLine_frame {P : Scope} {r s : State} (x1) (x2) (x3) (x4) (h : Fr P r s)
    (hp : P.outside 0x1200000006800 := by exact Scope.outside_mono (by assumption) (by decide)) :
    Fr P r (State.fillLine s x1 x2 x3 x4) := by
  have hs := fun k => Scope.outside_mono (k := k) hp
  simp (maxDischargeDepth := 99) [State.fillLine, h, hs]

@[simp] theorem State.measure_frame {P : Scope} {r s : State} (x1) (h : Fr P r s)
    (hp : P.outside 0x1400000004000 := by exact Scope.outside_mono (by assumption) (by decide)) :
    Fr P r (State.measure s x1) := by
  have hs := fun k => Scope.outside_mono (k := k) hp
  simp (maxDischargeDepth := 99) [State.measure, h, hs]

@[simp] theorem State.readWords_frame {P : Scope} {r s : State} (x1) (x2) (x3) (x4) (h : Fr P r s)
    (hp : P.outside 0x1200000006000 := by exact Scope.outside_mono (by assumption) (by decide)) :
    Fr P r (State.readWords s x1 x2 x3 x4).1 := by
  have hs := fun k => Scope.outside_mono (k := k) hp
  unfold State.readWords
  dsimp only
  refine foldl_frame ?_ _ _ h
  intro p x
  simp [hs]

@[simp] theorem State.hitPiece_frame {P : Scope} {r s : State} (x1) (x2) (x3) (h : Fr P r s)
    (hp : P.outside 0x1e00000007800 := by exact Scope.outside_mono (by assumption) (by decide)) :
    Fr P r (State.hitPiece s x1 x2 x3).1 := by
  have hs := fun k => Scope.outside_mono (k := k) hp
  unfold State.hitPiece
  repeat' first
    | (simp (maxDischargeDepth := 99) [h, hs]; done)
    | split
    | refine State.each_frame (fun s x => ?_) _ ?_
    | refine State.onlyIf_frame _ (fun s => ?_) ?_
    | simp (maxDischargeDepth := 99) [h, hs]

@[simp] theorem State.memPiece_frame {P : Scope} {r s : State} (x1) (x2) (x3) (h : Fr P r s)
    (hp : P.outside 0x1800000005000 := by exact Scope.outside_mono (by assumption) (by decide)) :
    Fr P r (State.memPiece s x1 x2 x3).1 := by
  have hs := fun k => Scope.outside_mono (k := k) hp
  unfold State.memPiece
  repeat' first
    | (simp (maxDischargeDepth := 99) [h, hs]; done)
    | split
    | refine State.each_frame (fun s x => ?_) _ ?_
    | refine State.onlyIf_frame _ (fun s => ?_) ?_
    | simp (maxDischargeDepth := 99) [h, hs]

@[simp] theorem State.missPiece_frame {P : Scope} {r s : State} (x1) (x2) (x3) (h : Fr P r s)
    (hp : P.outside 0x1e00000007800 := by exact Scope.outside_mono (by assumption) (by decide)) :
    Fr P r (State.missPiece s x1 x2 x3).1 := by
  have hs := fun k => Scope.outside_mono (k := k) hp
  unfold State.missPiece
  repeat' first
    | (simp (maxDischargeDepth := 99) [h, hs]; done)
    | split
    | refine State.each_frame (fun s x => ?_) _ ?_
    | refine State.onlyIf_frame _ (fun s => ?_) ?_
    | simp (maxDischargeDepth := 99) [h, hs]

@[simp] theorem State.evbPiece_frame {P : Scope} {r s : State} (x1) (x2) (h : Fr P r s)
    (hp : P.outside 0x1400000004800 := by exact Scope.outside_mono (by assumption) (by decide)) :
    Fr P r (State.evbPiece s x1 x2).1 := by
  have hs := fun k => Scope.outside_mono (k := k) hp
  unfold State.evbPiece
  (repeat' split) <;> simp (maxDischargeDepth := 99) [h, hs]

@[simp] theorem State.readTags_frame {P : Scope} {r s : State} (x1) (h : Fr P r s)
    (hp : P.outside 0x1200000006000 := by exact Scope.outside_mono (by assumption) (by decide)) :
    Fr P r (State.readTags s x1).1 := by
  unfold State.readTags
  split
  · exact h
  · refine foldl_frame (fun q x => ?_) _ (s, 0) h
    exact State.sramRead_frame _ _ _ (Fr.refl q.1) hp

theorem State.bufPiece_frame {P : Scope} {r s : State} (p : Piece) (a : BufAcc) (h : Fr P r s)
    (hp : P.outside 0x1e00000007800 := by exact Scope.outside_mono (by assumption) (by decide)) : PieceRes.Fr P r (s.bufPiece p a) := by
  have hs := fun k => Scope.outside_mono (k := k) hp
  unfold State.bufPiece
  dsimp only
  (repeat' split) <;> simp (maxDischargeDepth := 99) [PieceRes.Fr, h, hs]

theorem State.spadPiece_frame {P : Scope} {r s : State} (x1) (x2) (x3) (h : Fr P r s)
    (hp : P.outside 0x1600000006800 := by exact Scope.outside_mono (by assumption) (by decide)) : PieceRes.Fr P r (s.spadPiece x1 x2 x3) := by
  have hs := fun k => Scope.outside_mono (k := k) hp
  unfold State.spadPiece
  dsimp only
  (repeat' split) <;> simp (maxDischargeDepth := 99) [PieceRes.Fr, h, hs]

@[simp] theorem State.serve_frame {P : Scope} {r : State} (hp : P.outside 0x1e00010007800) : ∀ {s : State} (n : Nat) (a : BufAcc) (_ : Fr P r s),
    Fr P r (s.serve n a)
  | _, 0, _, h => h
  | s, n + 1, a, h => by
    have hs := fun k => Scope.outside_mono (k := k) hp
    unfold State.serve
    dsimp only
    split
    · simp (maxDischargeDepth := 99) [h, hs]
    · split
      · rename_i t heq
        have k : PieceRes.Fr P r (.waits t) := heq ▸ (by split; exact State.spadPiece_frame _ _ _ h; exact State.bufPiece_frame _ _ h)
        exact Fr.with_lnt (hs _ (by decide)) k
      · rename_i t st b heq
        have k : PieceRes.Fr P r (.done t st b) := heq ▸ (by split; exact State.spadPiece_frame _ _ _ h; exact State.bufPiece_frame _ _ h)
        exact State.serve_frame hp n _ k

@[simp] theorem execBufferAccess_frame {P : Scope} {r s : State} (x1) (h : Fr P r s)
    (hp : P.outside 0x1e00010007800 := by exact Scope.outside_mono (by assumption) (by decide)) :
    ∃ t, execBufferAccess x1 s = .next t ∧ Fr P r t := by
  have hs := fun k => Scope.outside_mono (k := k) hp
  exact ⟨_, rfl, by simp (maxDischargeDepth := 99) [h, hs]⟩

@[simp] theorem State.serveWaiting_frame {P : Scope} {r s : State} (h : Fr P r s)
    (hp : P.outside 0x1e00010007800 := by exact Scope.outside_mono (by assumption) (by decide)) :
    Fr P r (State.serveWaiting s) := by
  have hs := fun k => Scope.outside_mono (k := k) hp
  simp (maxDischargeDepth := 99) [State.serveWaiting, h, hs]

@[simp] theorem execEvictionWritebackAck_frame {P : Scope} {r s : State} (x1) (h : Fr P r s)
    (hp : P.outside 0x1e00010007800 := by exact Scope.outside_mono (by assumption) (by decide)) :
    ∃ t, execEvictionWritebackAck x1 s = .next t ∧ Fr P r t := by
  have hs := fun k => Scope.outside_mono (k := k) hp
  refine ⟨_, rfl, ?_⟩
  (repeat' split) <;> simp (maxDischargeDepth := 99) [h, hs]

@[simp] theorem State.evictionsLeave_frame {P : Scope} {r s : State} (h : Fr P r s)
    (hp : P.outside 0x800 := by exact Scope.outside_mono (by assumption) (by decide)) :
    Fr P r (State.evictionsLeave s) := by
  have hs := fun k => Scope.outside_mono (k := k) hp
  simp (maxDischargeDepth := 99) [State.evictionsLeave, h, hs]

@[simp] theorem execLntInitDone_frame {P : Scope} {r s : State} (h : Fr P r s)
    (hp : P.outside 0x1e00010007800 := by exact Scope.outside_mono (by assumption) (by decide)) :
    ∃ t, execLntInitDone s = .next t ∧ Fr P r t := by
  have hs := fun k => Scope.outside_mono (k := k) hp
  exact ⟨_, rfl, by simp (maxDischargeDepth := 99) [h, hs]⟩

@[simp] theorem State.dropWays_frame {P : Scope} {r s : State} (x1) (x2) (h : Fr P r s)
    (hp : P.outside 0x1a00000007800 := by exact Scope.outside_mono (by assumption) (by decide)) :
    Fr P r (State.dropWays s x1 x2) := by
  have hs := fun k => Scope.outside_mono (k := k) hp
  simp (maxDischargeDepth := 99) [State.dropWays, h, hs]

@[simp] theorem State.lntCtrlWrite_frame {P : Scope} {r s : State} (x1) (h : Fr P r s)
    (hp : P.outside 0x1e00000007800 := by exact Scope.outside_mono (by assumption) (by decide)) :
    Fr P r (State.lntCtrlWrite s x1) := by
  have hs := fun k => Scope.outside_mono (k := k) hp
  simp (maxDischargeDepth := 99) [State.lntCtrlWrite, h, hs]

@[simp] theorem execLntSpadChange_frame {P : Scope} {r s : State} (x1) (h : Fr P r s)
    (hp : P.outside 0x1e00000007800 := by exact Scope.outside_mono (by assumption) (by decide)) :
    ∃ t, execLntSpadChange x1 s = .next t ∧ Fr P r t := by
  have hs := fun k => Scope.outside_mono (k := k) hp
  exact ⟨_, rfl, by simp (maxDischargeDepth := 99) [h, hs]⟩

@[simp] theorem execLntSpadDone_frame {P : Scope} {r s : State} (h : Fr P r s)
    (hp : P.outside 0x1e00010007800 := by exact Scope.outside_mono (by assumption) (by decide)) :
    ∃ t, execLntSpadDone s = .next t ∧ Fr P r t := by
  have hs := fun k => Scope.outside_mono (k := k) hp
  exact ⟨_, rfl, by simp (maxDischargeDepth := 99) [h, hs]⟩

@[simp] theorem execLntDisable_frame {P : Scope} {r s : State} (h : Fr P r s)
    (hp : P.outside 0x1e00000007800 := by exact Scope.outside_mono (by assumption) (by decide)) :
    ∃ t, execLntDisable s = .next t ∧ Fr P r t := by
  have hs := fun k => Scope.outside_mono (k := k) hp
  exact ⟨_, rfl, by simp (maxDischargeDepth := 99) [h, hs]⟩

@[simp] theorem execLntEnable_frame {P : Scope} {r s : State} (h : Fr P r s)
    (hp : P.outside 0x1e00000007800 := by exact Scope.outside_mono (by assumption) (by decide)) :
    ∃ t, execLntEnable s = .next t ∧ Fr P r t := by
  have hs := fun k => Scope.outside_mono (k := k) hp
  exact ⟨_, rfl, by simp (maxDischargeDepth := 99) [h, hs]⟩

@[simp] theorem execLntDisableDone_frame {P : Scope} {r s : State} (h : Fr P r s)
    (hp : P.outside 0x1e00000007800 := by exact Scope.outside_mono (by assumption) (by decide)) :
    ∃ t, execLntDisableDone s = .next t ∧ Fr P r t := by
  have hs := fun k => Scope.outside_mono (k := k) hp
  exact ⟨_, rfl, by simp (maxDischargeDepth := 99) [h, hs]⟩

@[simp] theorem State.rmGo_frame {P : Scope} {r s : State} (x1) (x2) (h : Fr P r s)
    (hp : P.outside 0x400000000800 := by exact Scope.outside_mono (by assumption) (by decide)) :
    Fr P r (State.rmGo s x1 x2) := by
  have hs := fun k => Scope.outside_mono (k := k) hp
  unfold State.rmGo
  (repeat' split) <;> simp (maxDischargeDepth := 99) [h, hs]

@[simp] theorem State.rmCmdWrite_frame {P : Scope} {r s : State} (x1) (h : Fr P r s)
    (hp : P.outside 0x400000000800 := by exact Scope.outside_mono (by assumption) (by decide)) :
    Fr P r (State.rmCmdWrite s x1) := by
  have hs := fun k => Scope.outside_mono (k := k) hp
  simp (maxDischargeDepth := 99) [State.rmCmdWrite, h, hs]

@[simp] theorem execLntRmGo_frame {P : Scope} {r s : State} (x1) (x2) (h : Fr P r s)
    (hp : P.outside 0x400000000800 := by exact Scope.outside_mono (by assumption) (by decide)) :
    ∃ t, execLntRmGo x1 x2 s = .next t ∧ Fr P r t := by
  have hs := fun k => Scope.outside_mono (k := k) hp
  exact ⟨_, rfl, by simp (maxDischargeDepth := 99) [h, hs]⟩

@[simp] theorem State.rmLine_frame {P : Scope} {r s : State} (x1) (x2) (h : Fr P r s)
    (hp : P.outside 0x1a00000007800 := by exact Scope.outside_mono (by assumption) (by decide)) :
    Fr P r (State.rmLine s x1 x2) := by
  have hs := fun k => Scope.outside_mono (k := k) hp
  simp (maxDischargeDepth := 99) [State.rmLine, h, hs]

@[simp] theorem State.rmEvb_frame {P : Scope} {r s : State} (x1) (h : Fr P r s)
    (hp : P.outside 0x800000001800 := by exact Scope.outside_mono (by assumption) (by decide)) :
    Fr P r (State.rmEvb s x1) := by
  have hs := fun k => Scope.outside_mono (k := k) hp
  simp (maxDischargeDepth := 99) [State.rmEvb, h, hs]

@[simp] theorem execLntRmDone_frame {P : Scope} {r s : State} (h : Fr P r s)
    (hp : P.outside 0x1e00010007800 := by exact Scope.outside_mono (by assumption) (by decide)) :
    ∃ t, execLntRmDone s = .next t ∧ Fr P r t := by
  have hs := fun k => Scope.outside_mono (k := k) hp
  refine ⟨_, rfl, ?_⟩
  (repeat' split) <;> simp (maxDischargeDepth := 99) [h, hs]

@[simp] theorem State.setSramWord_frame {P : Scope} {r s : State} (x1) (x2) (x3) (h : Fr P r s)
    (hp : P.outside 0x80080c40 := by exact Scope.outside_mono (by assumption) (by decide)) :
    Fr P r (State.setSramWord s x1 x2 x3) := by
  have hs := fun k => Scope.outside_mono (k := k) hp
  simp (maxDischargeDepth := 99) [State.setSramWord, h, hs]

@[simp] theorem State.unmapRow_frame {P : Scope} {r s : State} (x1) (x2) (h : Fr P r s)
    (hp : P.outside 0x80082c40 := by exact Scope.outside_mono (by assumption) (by decide)) :
    Fr P r (State.unmapRow s x1 x2) := by
  have hs := fun k => Scope.outside_mono (k := k) hp
  simp (maxDischargeDepth := 99) [State.unmapRow, h, hs]

@[simp] theorem State.bufRemapWrite_frame {P : Scope} {r s : State} (x1) (x2) (x3) (h : Fr P r s)
    (hp : P.outside 0x200080082c40 := by exact Scope.outside_mono (by assumption) (by decide)) :
    Fr P r (State.bufRemapWrite s x1 x2 x3) := by
  have hs := fun k => Scope.outside_mono (k := k) hp
  simp (maxDischargeDepth := 99) [State.bufRemapWrite, h, hs]

@[simp] theorem execBufRemapWrite_frame {P : Scope} {r s : State} (x1) (x2) (x3) (h : Fr P r s)
    (hp : P.outside 0x200080082c40 := by exact Scope.outside_mono (by assumption) (by decide)) :
    ∃ t, execBufRemapWrite x1 x2 x3 s = .next t ∧ Fr P r t := by
  have hs := fun k => Scope.outside_mono (k := k) hp
  exact ⟨_, rfl, by simp (maxDischargeDepth := 99) [h, hs]⟩

@[simp] theorem execRemapCopyDone_frame {P : Scope} {r s : State} (x1) (x2) (x3) (h : Fr P r s)
    (hp : P.outside 0x1e00010007800 := by exact Scope.outside_mono (by assumption) (by decide)) :
    ∃ t, execRemapCopyDone x1 x2 x3 s = .next t ∧ Fr P r t := by
  have hs := fun k => Scope.outside_mono (k := k) hp
  exact ⟨_, rfl, by simp (maxDischargeDepth := 99) [h, hs]⟩

@[simp] theorem execBufEccTestArm_frame {P : Scope} {r s : State} (h : Fr P r s)
    (hp : P.outside 0x200000000000 := by exact Scope.outside_mono (by assumption) (by decide)) :
    ∃ t, execBufEccTestArm s = .next t ∧ Fr P r t := by
  have hs := fun k => Scope.outside_mono (k := k) hp
  exact ⟨_, rfl, by simp (maxDischargeDepth := 99) [h, hs]⟩

@[simp] theorem execMemTrainingDone_frame {P : Scope} {r s : State} (x1) (h : Fr P r s)
    (hp : P.outside 0x1e00010007800 := by exact Scope.outside_mono (by assumption) (by decide)) :
    ∃ t, execMemTrainingDone x1 s = .next t ∧ Fr P r t := by
  have hs := fun k => Scope.outside_mono (k := k) hp
  exact ⟨_, rfl, by simp (maxDischargeDepth := 99) [h, hs]⟩

@[simp] theorem State.readSlots_frame {P : Scope} {r s : State} (x1) (x2) (x3) (h : Fr P r s)
    (hp : P.outside 0x1e00000007800 := by exact Scope.outside_mono (by assumption) (by decide)) :
    Fr P r (State.readSlots s x1 x2 x3).1 := by
  have hs := fun k => Scope.outside_mono (k := k) hp
  unfold State.readSlots
  refine foldl_frame ?_ _ _ h
  intro p x
  split
  · exact Fr.refl _
  refine foldl_frame ?_ _ _ (Fr.refl _)
  intro q y
  dsimp only
  split
  · rename_i t heq
    have k := State.bufPiece_frame (p := { line := lget 0 x1.slots x / 128 + y, off := 0, data := none, len := 128 })
      (a := { addr := lget 0 x1.slots x + 128 * y, len := 128, lnt := if x = 0 && y = 0 then x3 else .clean }) (Fr.refl q.1)
    rw [heq] at k; exact k
  · rename_i t st b heq
    have k := State.bufPiece_frame (p := { line := lget 0 x1.slots x / 128 + y, off := 0, data := none, len := 128 })
      (a := { addr := lget 0 x1.slots x + 128 * y, len := 128, lnt := if x = 0 && y = 0 then x3 else .clean }) (Fr.refl q.1)
    rw [heq] at k; exact k

@[simp] theorem State.writeSlot_frame {P : Scope} {r s : State} (x1) (x2) (x3) (h : Fr P r s)
    (hp : P.outside 0x1e00010007800 := by exact Scope.outside_mono (by assumption) (by decide)) :
    Fr P r (State.writeSlot s x1 x2 x3) := by
  have hs := fun k => Scope.outside_mono (k := k) hp
  simp (maxDischargeDepth := 99) [State.writeSlot, h, hs]

@[simp] theorem State.parStatus_frame {P : Scope} {r s : State} (h : Fr P r s)
    (hp : P.outside 0x200000000000 := by exact Scope.outside_mono (by assumption) (by decide)) :
    Fr P r (State.parStatus s) := by
  have hs := fun k => Scope.outside_mono (k := k) hp
  simp (maxDischargeDepth := 99) [State.parStatus, h, hs]

@[simp] theorem execParityRequest_frame {P : Scope} {r s : State} (x1) (h : Fr P r s)
    (hp : P.outside 0x200000002000 := by exact Scope.outside_mono (by assumption) (by decide)) :
    ∃ t, execParityRequest x1 s = .next t ∧ Fr P r t := by
  have hs := fun k => Scope.outside_mono (k := k) hp
  refine ⟨_, rfl, ?_⟩
  (repeat' split) <;> simp (maxDischargeDepth := 99) [h, hs]

@[simp] theorem State.parityRun_frame {P : Scope} {r s : State} (x1) (x2) (h : Fr P r s)
    (hp : P.outside 0x1e00010007800 := by exact Scope.outside_mono (by assumption) (by decide)) :
    Fr P r (State.parityRun s x1 x2).1 := by
  have hs := fun k => Scope.outside_mono (k := k) hp
  have h1 := State.readSlots_frame x1 (parSources x1) x2 h
  unfold State.parityRun
  dsimp only
  (repeat' split) <;> simp (maxDischargeDepth := 99) [-List.reduceReplicate, h1, hs]

end Sys2Proof.Machine
end

