-- ==== Sys2Proof/Laws/FramePwrCore.lean ====
section
/-! SUPPORT. What each operation of Machine/PwrCore.lean leaves alone. -/
set_option linter.unusedSimpArgs false
set_option linter.unusedTactic false
set_option linter.unreachableTactic false
set_option linter.unnecessarySeqFocus false
namespace Sys2Proof.Machine
set_option Elab.async false

@[simp] theorem State.setCtx_frame {P : Scope} {r s : State} (x1) (x2) (h : Fr P r s)
    (hp : P.outside 0x10000 := by exact Scope.outside_mono (by assumption) (by decide)) :
    Fr P r (State.setCtx s x1 x2) := by
  have hs := fun k => Scope.outside_mono (k := k) hp
  simp (maxDischargeDepth := 99) [State.setCtx, h, hs]

@[simp] theorem State.setHif_frame {P : Scope} {r s : State} (x1) (x2) (h : Fr P r s)
    (hp : P.outside 0x8000 := by exact Scope.outside_mono (by assumption) (by decide)) :
    Fr P r (State.setHif s x1 x2) := by
  have hs := fun k => Scope.outside_mono (k := k) hp
  simp (maxDischargeDepth := 99) [State.setHif, h, hs]

@[simp] theorem State.pwrShow_frame {P : Scope} {r s : State} (h : Fr P r s)
    (hp : P.outside 0x100000000 := by exact Scope.outside_mono (by assumption) (by decide)) :
    Fr P r (State.pwrShow s) := by
  have hs := fun k => Scope.outside_mono (k := k) hp
  simp (maxDischargeDepth := 99) [State.pwrShow, h, hs]

@[simp] theorem State.beginExit_frame {P : Scope} {r s : State} (x1) (x2) (h : Fr P r s)
    (hp : P.outside 0x100100000 := by exact Scope.outside_mono (by assumption) (by decide)) :
    Fr P r (State.beginExit s x1 x2) := by
  have hs := fun k => Scope.outside_mono (k := k) hp
  simp (maxDischargeDepth := 99) [State.beginExit, h, hs]

@[simp] theorem State.beginEntry_frame {P : Scope} {r s : State} (x1) (h : Fr P r s)
    (hp : P.outside 0x180100000 := by exact Scope.outside_mono (by assumption) (by decide)) :
    Fr P r (State.beginEntry s x1) := by
  have hs := fun k => Scope.outside_mono (k := k) hp
  simp (maxDischargeDepth := 99) [State.beginEntry, h, hs]

@[simp] theorem State.pwrRecompute_frame {P : Scope} {r s : State} (h : Fr P r s)
    (hp : P.outside 0x180100000 := by exact Scope.outside_mono (by assumption) (by decide)) :
    Fr P r (State.pwrRecompute s) := by
  have hs := fun k => Scope.outside_mono (k := k) hp
  simp (maxDischargeDepth := 99) [State.pwrRecompute, h, hs]

@[simp] theorem State.pwrEvent_frame {P : Scope} {r s : State} (h : Fr P r s)
    (hp : P.outside 0x1000100104000 := by exact Scope.outside_mono (by assumption) (by decide)) :
    Fr P r (State.pwrEvent s) := by
  have hs := fun k => Scope.outside_mono (k := k) hp
  unfold State.pwrEvent
  (repeat' split) <;> simp (maxDischargeDepth := 99) [h, hs]

@[simp] theorem State.wakeBy_frame {P : Scope} {r s : State} (x1) (h : Fr P r s)
    (hp : P.outside 0x1000180184000 := by exact Scope.outside_mono (by assumption) (by decide)) :
    Fr P r (State.wakeBy s x1) := by
  have hs := fun k => Scope.outside_mono (k := k) hp
  simp (maxDischargeDepth := 99) [State.wakeBy, h, hs]

end Sys2Proof.Machine
end

