-- ==== Sys2Proof/Laws/FrameFls.lean ====
section
/-! SUPPORT. What each operation of Machine/Fls.lean leaves alone. -/
set_option linter.unusedSimpArgs false
set_option linter.unusedTactic false
set_option linter.unreachableTactic false
set_option linter.unnecessarySeqFocus false
namespace Sys2Proof.Machine
set_option Elab.async false

@[simp] theorem State.modFls_frame {P : Scope} {r s : State} (f : Fls → Fls) (hp : P.outside 0x400000)
    (hm : twf (fun _ => erasedPage) s.fls.pages = true → twf (fun _ => erasedPage) (f s.fls).pages = true) (h : Fr P r s) :
    Fr P r (s.modFls f) := Fr.with_fls hp hm h

@[simp] theorem State.storePage_frame {P : Scope} {r s : State} (block page : Nat) (data : List Byte) (h : Fr P r s)
    (hp : P.outside 0x400000 := by exact Scope.outside_mono (by assumption) (by decide)) :
    Fr P r (s.storePage block page data) := Fr.with_fls hp (fun k => twf_tset _ _ _ _ k) h

@[simp] theorem State.clearBlock_frame {P : Scope} {r s : State} (block : Nat) (h : Fr P r s)
    (hp : P.outside 0x400000 := by exact Scope.outside_mono (by assumption) (by decide)) :
    Fr P r (s.clearBlock block) := Fr.with_fls hp (fun k => twf_tdrop _ _ _ _ k) h

@[simp] theorem State.eraseBlock_frame {P : Scope} {r s : State} (x1) (h : Fr P r s)
    (hp : P.outside 0x1000400404000 := by exact Scope.outside_mono (by assumption) (by decide)) :
    Fr P r (State.eraseBlock s x1) := by
  have hs := fun k => Scope.outside_mono (k := k) hp
  simp (maxDischargeDepth := 99) [State.eraseBlock, h, hs]

@[simp] theorem State.writePage_frame {P : Scope} {r s : State} (x1) (x2) (x3) (h : Fr P r s)
    (hp : P.outside 0x1000400404000 := by exact Scope.outside_mono (by assumption) (by decide)) :
    Fr P r (State.writePage s x1 x2 x3) := by
  have hs := fun k => Scope.outside_mono (k := k) hp
  simp (maxDischargeDepth := 99) [State.writePage, h, hs]

@[simp] theorem State.rebuildTop_frame {P : Scope} {r s : State} (h : Fr P r s)
    (hp : P.outside 0x400000 := by exact Scope.outside_mono (by assumption) (by decide)) :
    Fr P r (State.rebuildTop s) := by
  have hs := fun k => Scope.outside_mono (k := k) hp
  simp (maxDischargeDepth := 99) [State.rebuildTop, h, hs]

@[simp] theorem State.flashFound_frame {P : Scope} {r s : State} (x1) (h : Fr P r s)
    (hp : P.outside 0x1000400004000 := by exact Scope.outside_mono (by assumption) (by decide)) :
    Fr P r (State.flashFound s x1) := by
  have hs := fun k => Scope.outside_mono (k := k) hp
  simp (maxDischargeDepth := 99) [State.flashFound, h, hs]

@[simp] theorem State.flashFetched_frame {P : Scope} {r s : State} (x1) (h : Fr P r s)
    (hp : P.outside 0x400000 := by exact Scope.outside_mono (by assumption) (by decide)) :
    Fr P r (State.flashFetched s x1) := by
  have hs := fun k => Scope.outside_mono (k := k) hp
  unfold State.flashFetched
  (repeat' split) <;> simp (maxDischargeDepth := 99) [h, hs]

@[simp] theorem State.flashReturn_frame {P : Scope} {r s : State} (x1) (h : Fr P r s)
    (hp : P.outside 0x30000000 := by exact Scope.outside_mono (by assumption) (by decide)) :
    Fr P r (State.flashReturn s x1) := by
  have hs := fun k => Scope.outside_mono (k := k) hp
  simp (maxDischargeDepth := 99) [State.flashReturn, h, hs]

@[simp] theorem State.flashServe_frame {P : Scope} {r s : State} (x1) (h : Fr P r s)
    (hp : P.outside 0x1000430404000 := by exact Scope.outside_mono (by assumption) (by decide)) :
    Fr P r (State.flashServe s x1) := by
  have hs := fun k => Scope.outside_mono (k := k) hp
  simp (maxDischargeDepth := 99) [State.flashServe, h, hs]

@[simp] theorem State.flashAsk_frame {P : Scope} {r s : State} (x1) (h : Fr P r s)
    (hp : P.outside 0x1000430404000 := by exact Scope.outside_mono (by assumption) (by decide)) :
    Fr P r (State.flashAsk s x1) := by
  have hs := fun k => Scope.outside_mono (k := k) hp
  simp (maxDischargeDepth := 99) [State.flashAsk, h, hs]

@[simp] theorem State.flashServeAll_frame {P : Scope} {r s : State} (h : Fr P r s)
    (hp : P.outside 0x1000430404000 := by exact Scope.outside_mono (by assumption) (by decide)) :
    Fr P r (State.flashServeAll s) := by
  have hs := fun k => Scope.outside_mono (k := k) hp
  simp (maxDischargeDepth := 99) [State.flashServeAll, h, hs]

@[simp] theorem State.flsReset_frame {P : Scope} {r s : State} (h : Fr P r s)
    (hp : P.outside 0x400400000 := by exact Scope.outside_mono (by assumption) (by decide)) :
    Fr P r (State.flsReset s) := by
  have hs := fun k => Scope.outside_mono (k := k) hp
  simp (maxDischargeDepth := 99) [State.flsReset, h, hs]

@[simp] theorem State.flsFree_frame {P : Scope} {r s : State} (h : Fr P r s)
    (hp : P.outside 0x1000630604000 := by exact Scope.outside_mono (by assumption) (by decide)) :
    Fr P r (State.flsFree s) := by
  have hs := fun k => Scope.outside_mono (k := k) hp
  simp (maxDischargeDepth := 99) [State.flsFree, h, hs]

@[simp] theorem State.flsRefuse_frame {P : Scope} {r s : State} (x1) (h : Fr P r s)
    (hp : P.outside 0x1000400004000 := by exact Scope.outside_mono (by assumption) (by decide)) :
    Fr P r (State.flsRefuse s x1) := by
  have hs := fun k => Scope.outside_mono (k := k) hp
  simp (maxDischargeDepth := 99) [State.flsRefuse, h, hs]

@[simp] theorem State.flsCmdShow_frame {P : Scope} {r s : State} (x1) (x2) (x3) (h : Fr P r s)
    (hp : P.outside 0x400000000 := by exact Scope.outside_mono (by assumption) (by decide)) :
    Fr P r (State.flsCmdShow s x1 x2 x3) := by
  have hs := fun k => Scope.outside_mono (k := k) hp
  simp (maxDischargeDepth := 99) [State.flsCmdShow, h, hs]

@[simp] theorem State.flsStart_frame {P : Scope} {r s : State} (x1) (x2) (h : Fr P r s)
    (hp : P.outside 0x400400000 := by exact Scope.outside_mono (by assumption) (by decide)) :
    Fr P r (State.flsStart s x1 x2) := by
  have hs := fun k => Scope.outside_mono (k := k) hp
  simp (maxDischargeDepth := 99) [State.flsStart, h, hs]

@[simp] theorem State.otpSet_frame {P : Scope} {r s : State} (x1) (x2) (h : Fr P r s)
    (hp : P.outside 0x400000 := by exact Scope.outside_mono (by assumption) (by decide)) :
    Fr P r (State.otpSet s x1 x2) := by
  have hs := fun k => Scope.outside_mono (k := k) hp
  simp (maxDischargeDepth := 99) [State.otpSet, h, hs]

@[simp] theorem State.flsGo_frame {P : Scope} {r s : State} (x1) (x2) (x3) (x4) (x5) (h : Fr P r s)
    (hp : P.outside 0x1000400404000 := by exact Scope.outside_mono (by assumption) (by decide)) :
    Fr P r (State.flsGo s x1 x2 x3 x4 x5) := by
  have hs := fun k => Scope.outside_mono (k := k) hp
  unfold State.flsGo
  (repeat' split) <;> simp (maxDischargeDepth := 99) [h, hs]

@[simp] theorem State.flsCmd_frame {P : Scope} {r s : State} (x1) (x2) (x3) (x4) (x5) (x6) (h : Fr P r s)
    (hp : P.outside 0x1000400404000 := by exact Scope.outside_mono (by assumption) (by decide)) :
    Fr P r (State.flsCmd s x1 x2 x3 x4 x5 x6) := by
  have hs := fun k => Scope.outside_mono (k := k) hp
  simp (maxDischargeDepth := 99) [State.flsCmd, h, hs]

@[simp] theorem execFlsProgram_frame {P : Scope} {r s : State} (x1) (x2) (x3) (h : Fr P r s)
    (hp : P.outside 0x1000400404000 := by exact Scope.outside_mono (by assumption) (by decide)) :
    ∃ t, execFlsProgram x1 x2 x3 s = .next t ∧ Fr P r t := by
  have hs := fun k => Scope.outside_mono (k := k) hp
  exact ⟨_, rfl, by simp (maxDischargeDepth := 99) [h, hs]⟩

@[simp] theorem execFlsErase_frame {P : Scope} {r s : State} (x1) (x2) (h : Fr P r s)
    (hp : P.outside 0x1000400404000 := by exact Scope.outside_mono (by assumption) (by decide)) :
    ∃ t, execFlsErase x1 x2 s = .next t ∧ Fr P r t := by
  have hs := fun k => Scope.outside_mono (k := k) hp
  exact ⟨_, rfl, by simp (maxDischargeDepth := 99) [h, hs]⟩

@[simp] theorem execFlsResume_frame {P : Scope} {r s : State} (x1) (h : Fr P r s)
    (hp : P.outside 0x1000400404000 := by exact Scope.outside_mono (by assumption) (by decide)) :
    ∃ t, execFlsResume x1 s = .next t ∧ Fr P r t := by
  have hs := fun k => Scope.outside_mono (k := k) hp
  exact ⟨_, rfl, by simp (maxDischargeDepth := 99) [h, hs]⟩

@[simp] theorem execFlsMarginRead_frame {P : Scope} {r s : State} (x1) (x2) (x3) (x4) (h : Fr P r s)
    (hp : P.outside 0x1000400404000 := by exact Scope.outside_mono (by assumption) (by decide)) :
    ∃ t, execFlsMarginRead x1 x2 x3 x4 s = .next t ∧ Fr P r t := by
  have hs := fun k => Scope.outside_mono (k := k) hp
  exact ⟨_, rfl, by simp (maxDischargeDepth := 99) [h, hs]⟩

@[simp] theorem execFlsOtpProgram_frame {P : Scope} {r s : State} (x1) (h : Fr P r s)
    (hp : P.outside 0x1000400404000 := by exact Scope.outside_mono (by assumption) (by decide)) :
    ∃ t, execFlsOtpProgram x1 s = .next t ∧ Fr P r t := by
  have hs := fun k => Scope.outside_mono (k := k) hp
  exact ⟨_, rfl, by simp (maxDischargeDepth := 99) [h, hs]⟩

@[simp] theorem State.flsSuspendNow_frame {P : Scope} {r s : State} (h : Fr P r s)
    (hp : P.outside 0x1000430404000 := by exact Scope.outside_mono (by assumption) (by decide)) :
    Fr P r (State.flsSuspendNow s) := by
  have hs := fun k => Scope.outside_mono (k := k) hp
  unfold State.flsSuspendNow
  (repeat' split) <;> simp (maxDischargeDepth := 99) [h, hs]

@[simp] theorem State.flsSuspend_frame {P : Scope} {r s : State} (h : Fr P r s)
    (hp : P.outside 0x1000430404000 := by exact Scope.outside_mono (by assumption) (by decide)) :
    Fr P r (State.flsSuspend s) := by
  have hs := fun k => Scope.outside_mono (k := k) hp
  unfold State.flsSuspend
  (repeat' split) <;> simp (maxDischargeDepth := 99) [h, hs]

@[simp] theorem execFlsSuspend_frame {P : Scope} {r s : State} (h : Fr P r s)
    (hp : P.outside 0x1000430404000 := by exact Scope.outside_mono (by assumption) (by decide)) :
    ∃ t, execFlsSuspend s = .next t ∧ Fr P r t := by
  have hs := fun k => Scope.outside_mono (k := k) hp
  exact ⟨_, rfl, by simp (maxDischargeDepth := 99) [h, hs]⟩

@[simp] theorem execFlsSuspendDeferred_frame {P : Scope} {r s : State} (h : Fr P r s)
    (hp : P.outside 0x1000430404000 := by exact Scope.outside_mono (by assumption) (by decide)) :
    ∃ t, execFlsSuspendDeferred s = .next t ∧ Fr P r t := by
  have hs := fun k => Scope.outside_mono (k := k) hp
  exact ⟨_, rfl, by simp (maxDischargeDepth := 99) [h, hs]⟩

@[simp] theorem State.almPageFailed_frame {P : Scope} {r s : State} (h : Fr P r s)
    (hp : P.outside 0x804000000 := by exact Scope.outside_mono (by assumption) (by decide)) :
    Fr P r (State.almPageFailed s) := by
  have hs := fun k => Scope.outside_mono (k := k) hp
  simp (maxDischargeDepth := 99) [State.almPageFailed, h, hs]

@[simp] theorem State.flsProgramDone_frame {P : Scope} {r s : State} (x1) (x2) (h : Fr P r s)
    (hp : P.outside 0x1000e34604000 := by exact Scope.outside_mono (by assumption) (by decide)) :
    Fr P r (State.flsProgramDone s x1 x2) := by
  have hs := fun k => Scope.outside_mono (k := k) hp
  unfold State.flsProgramDone
  repeat' first
    | (simp (maxDischargeDepth := 99) [h, hs]; done)
    | split
    | refine State.each_frame (fun s x => ?_) _ ?_
    | refine State.onlyIf_frame _ (fun s => ?_) ?_
    | simp (maxDischargeDepth := 99) [h, hs]

@[simp] theorem execFlsProgramDone_frame {P : Scope} {r s : State} (x1) (x2) (h : Fr P r s)
    (hp : P.outside 0x1000e34604000 := by exact Scope.outside_mono (by assumption) (by decide)) :
    ∃ t, execFlsProgramDone x1 x2 s = .next t ∧ Fr P r t := by
  have hs := fun k => Scope.outside_mono (k := k) hp
  refine ⟨_, rfl, ?_⟩
  (repeat' split) <;> simp (maxDischargeDepth := 99) [h, hs]

@[simp] theorem execFlsEraseDone_frame {P : Scope} {r s : State} (x1) (x2) (h : Fr P r s)
    (hp : P.outside 0x1000630604000 := by exact Scope.outside_mono (by assumption) (by decide)) :
    ∃ t, execFlsEraseDone x1 x2 s = .next t ∧ Fr P r t := by
  have hs := fun k => Scope.outside_mono (k := k) hp
  refine ⟨_, rfl, ?_⟩
  (repeat' split) <;> simp (maxDischargeDepth := 99) [h, hs]

@[simp] theorem execFlsInitDone_frame {P : Scope} {r s : State} (x1) (h : Fr P r s)
    (hp : P.outside 0x1000400404000 := by exact Scope.outside_mono (by assumption) (by decide)) :
    ∃ t, execFlsInitDone x1 s = .next t ∧ Fr P r t := by
  have hs := fun k => Scope.outside_mono (k := k) hp
  refine ⟨_, rfl, ?_⟩
  repeat' first
    | (simp (maxDischargeDepth := 99) [h, hs]; done)
    | split
    | refine State.each_frame (fun s x => ?_) _ ?_
    | refine State.onlyIf_frame _ (fun s => ?_) ?_
    | simp (maxDischargeDepth := 99) [h, hs]

@[simp] theorem execFlashRead_frame {P : Scope} {r s : State} (x1) (x2) (x3) (x4) (x5) (h : Fr P r s)
    (hp : P.outside 0x1000430404000 := by exact Scope.outside_mono (by assumption) (by decide)) :
    ∃ t, execFlashRead x1 x2 x3 x4 x5 s = .next t ∧ Fr P r t := by
  have hs := fun k => Scope.outside_mono (k := k) hp
  refine ⟨_, rfl, ?_⟩
  (repeat' split) <;> simp (maxDischargeDepth := 99) [h, hs]

@[simp] theorem State.commitWrite_frame {P : Scope} {r s : State} (x1) (x2) (h : Fr P r s)
    (hp : P.outside 0x1000400404000 := by exact Scope.outside_mono (by assumption) (by decide)) :
    Fr P r (State.commitWrite s x1 x2) := by
  have hs := fun k => Scope.outside_mono (k := k) hp
  unfold State.commitWrite
  dsimp only
  exact State.almanac_frame _ _ _ _ (ite_frame _ (State.writePage_frame _ _ _ h) (State.eraseBlock_frame _ (State.writePage_frame _ _ _ h)))

@[simp] theorem State.writePages_frame {P : Scope} {r s : State} (x1) (x2) (h : Fr P r s)
    (hp : P.outside 0x1000400404000 := by exact Scope.outside_mono (by assumption) (by decide)) :
    Fr P r (State.writePages s x1 x2) := by
  have hs := fun k => Scope.outside_mono (k := k) hp
  fun_induction State.writePages <;> simp_all (maxDischargeDepth := 99)

@[simp] theorem State.writeImage_frame {P : Scope} {r s : State} (x1) (x2) (x3) (h : Fr P r s)
    (hp : P.outside 0x1000400404000 := by exact Scope.outside_mono (by assumption) (by decide)) :
    Fr P r (State.writeImage s x1 x2 x3) := by
  have hs := fun k => Scope.outside_mono (k := k) hp
  simp (maxDischargeDepth := 99) [State.writeImage, h, hs]

@[simp] theorem State.clusterReset_frame {P : Scope} {r s : State} (h : Fr P r s)
    (hp : P.outside 0x40000000000200600000 := by exact Scope.outside_mono (by assumption) (by decide)) :
    Fr P r (State.clusterReset s) := by
  have hs := fun k => Scope.outside_mono (k := k) hp
  simp (maxDischargeDepth := 99) [State.clusterReset, h, hs]

@[simp] theorem State.modSec_frame {P : Scope} {r s : State} (x1) (h : Fr P r s)
    (hp : P.outside 0x800000 := by exact Scope.outside_mono (by assumption) (by decide)) :
    Fr P r (State.modSec s x1) := by
  have hs := fun k => Scope.outside_mono (k := k) hp
  simp (maxDischargeDepth := 99) [State.modSec, h, hs]

@[simp] theorem State.drawKey_frame {P : Scope} {r s : State} (h : Fr P r s)
    (hp : P.outside 0x20000000 := by exact Scope.outside_mono (by assumption) (by decide)) :
    Fr P r (State.drawKey s).1 := by
  have hs := fun k => Scope.outside_mono (k := k) hp
  simp (maxDischargeDepth := 99) [State.drawKey, h, hs]

@[simp] theorem State.secShow_frame {P : Scope} {r s : State} (h : Fr P r s)
    (hp : P.outside 0x2000000000000 := by exact Scope.outside_mono (by assumption) (by decide)) :
    Fr P r (State.secShow s) := by
  have hs := fun k => Scope.outside_mono (k := k) hp
  simp (maxDischargeDepth := 99) [State.secShow, h, hs]

@[simp] theorem State.setKeySlot_frame {P : Scope} {r s : State} (x1) (x2) (h : Fr P r s)
    (hp : P.outside 0x2000000800000 := by exact Scope.outside_mono (by assumption) (by decide)) :
    Fr P r (State.setKeySlot s x1 x2) := by
  have hs := fun k => Scope.outside_mono (k := k) hp
  simp (maxDischargeDepth := 99) [State.setKeySlot, h, hs]

@[simp] theorem State.secStart_frame {P : Scope} {r s : State} (x1) (x2) (x3) (h : Fr P r s)
    (hp : P.outside 0x2000000800000 := by exact Scope.outside_mono (by assumption) (by decide)) :
    Fr P r (State.secStart s x1 x2 x3) := by
  have hs := fun k => Scope.outside_mono (k := k) hp
  simp (maxDischargeDepth := 99) [State.secStart, h, hs]

@[simp] theorem State.secGenerate_frame {P : Scope} {r s : State} (x1) (x2) (h : Fr P r s)
    (hp : P.outside 0x2000020800000 := by exact Scope.outside_mono (by assumption) (by decide)) :
    Fr P r (State.secGenerate s x1 x2) := by
  have hs := fun k => Scope.outside_mono (k := k) hp
  simp (maxDischargeDepth := 99) [State.secGenerate, h, hs]

@[simp] theorem execSecGenerate_frame {P : Scope} {r s : State} (x1) (x2) (h : Fr P r s)
    (hp : P.outside 0x2000020800000 := by exact Scope.outside_mono (by assumption) (by decide)) :
    ∃ t, execSecGenerate x1 x2 s = .next t ∧ Fr P r t := by
  have hs := fun k => Scope.outside_mono (k := k) hp
  exact ⟨_, rfl, by simp (maxDischargeDepth := 99) [h, hs]⟩

@[simp] theorem State.secUnwrap_frame {P : Scope} {r s : State} (x1) (x2) (x3) (h : Fr P r s)
    (hp : P.outside 0x3000000804000 := by exact Scope.outside_mono (by assumption) (by decide)) :
    Fr P r (State.secUnwrap s x1 x2 x3) := by
  have hs := fun k => Scope.outside_mono (k := k) hp
  simp (maxDischargeDepth := 99) [State.secUnwrap, h, hs]

@[simp] theorem execSecUnwrap_frame {P : Scope} {r s : State} (x1) (x2) (x3) (h : Fr P r s)
    (hp : P.outside 0x3000000804000 := by exact Scope.outside_mono (by assumption) (by decide)) :
    ∃ t, execSecUnwrap x1 x2 x3 s = .next t ∧ Fr P r t := by
  have hs := fun k => Scope.outside_mono (k := k) hp
  exact ⟨_, rfl, by simp (maxDischargeDepth := 99) [h, hs]⟩

@[simp] theorem State.secClear_frame {P : Scope} {r s : State} (x1) (x2) (h : Fr P r s)
    (hp : P.outside 0x2000000800000 := by exact Scope.outside_mono (by assumption) (by decide)) :
    Fr P r (State.secClear s x1 x2) := by
  have hs := fun k => Scope.outside_mono (k := k) hp
  simp (maxDischargeDepth := 99) [State.secClear, h, hs]

@[simp] theorem execSecClear_frame {P : Scope} {r s : State} (x1) (x2) (h : Fr P r s)
    (hp : P.outside 0x2000000800000 := by exact Scope.outside_mono (by assumption) (by decide)) :
    ∃ t, execSecClear x1 x2 s = .next t ∧ Fr P r t := by
  have hs := fun k => Scope.outside_mono (k := k) hp
  exact ⟨_, rfl, by simp (maxDischargeDepth := 99) [h, hs]⟩

@[simp] theorem execSecCmdDone_frame {P : Scope} {r s : State} (h : Fr P r s)
    (hp : P.outside 0x2000000800000 := by exact Scope.outside_mono (by assumption) (by decide)) :
    ∃ t, execSecCmdDone s = .next t ∧ Fr P r t := by
  have hs := fun k => Scope.outside_mono (k := k) hp
  refine ⟨_, rfl, ?_⟩
  (repeat' split) <;> simp (maxDischargeDepth := 99) [h, hs]

end Sys2Proof.Machine
end

