-- ==== Sys2Proof/Laws/FrameFwCore.lean ====
section
/-! SUPPORT. What each operation of Machine/FwCore.lean leaves alone. -/
set_option linter.unusedSimpArgs false
set_option linter.unusedTactic false
set_option linter.unreachableTactic false
set_option linter.unnecessarySeqFocus false
namespace Sys2Proof.Machine
set_option Elab.async false

@[simp] theorem State.modSpace_frame {P : Scope} {r s : State} (x1) (x2) (h : Fr P r s)
    (hp : P.outside 0x20000 := by exact Scope.outside_mono (by assumption) (by decide)) :
    Fr P r (State.modSpace s x1 x2) := by
  have hs := fun k => Scope.outside_mono (k := k) hp
  simp (maxDischargeDepth := 99) [State.modSpace, h, hs]

@[simp] theorem State.dropPackets_frame {P : Scope} {r s : State} (x1) (h : Fr P r s)
    (hp : P.outside 0x20000 := by exact Scope.outside_mono (by assumption) (by decide)) :
    Fr P r (State.dropPackets s x1) := by
  have hs := fun k => Scope.outside_mono (k := k) hp
  simp (maxDischargeDepth := 99) [State.dropPackets, h, hs]

@[simp] theorem State.issue_frame {P : Scope} {r s : State} (x1) (h : Fr P r s)
    (hp : P.outside 0x20000 := by exact Scope.outside_mono (by assumption) (by decide)) :
    Fr P r (State.issue s x1) := by
  have hs := fun k => Scope.outside_mono (k := k) hp
  simp (maxDischargeDepth := 99) [State.issue, h, hs]

@[simp] theorem State.modReloc_frame {P : Scope} {r s : State} (x1) (x2) (x3) (h : Fr P r s)
    (hp : P.outside 0x20000 := by exact Scope.outside_mono (by assumption) (by decide)) :
    Fr P r (State.modReloc s x1 x2 x3) := by
  have hs := fun k => Scope.outside_mono (k := k) hp
  simp (maxDischargeDepth := 99) [State.modReloc, h, hs]

@[simp] theorem State.readJob_frame {P : Scope} {r s : State} (x1) (x2) (x3) (x4) (x5) (h : Fr P r s)
    (hp : P.outside 0x20000 := by exact Scope.outside_mono (by assumption) (by decide)) :
    Fr P r (State.readJob s x1 x2 x3 x4 x5) := by
  have hs := fun k => Scope.outside_mono (k := k) hp
  simp (maxDischargeDepth := 99) [State.readJob, h, hs]

@[simp] theorem State.modLadder_frame {P : Scope} {r s : State} (x1) (x2) (x3) (h : Fr P r s)
    (hp : P.outside 0x20000 := by exact Scope.outside_mono (by assumption) (by decide)) :
    Fr P r (State.modLadder s x1 x2 x3) := by
  have hs := fun k => Scope.outside_mono (k := k) hp
  simp (maxDischargeDepth := 99) [State.modLadder, h, hs]

@[simp] theorem State.joinLadder_frame {P : Scope} {r s : State} (x1) (x2) (x3) (x4) (x5) (h : Fr P r s)
    (hp : P.outside 0x20000 := by exact Scope.outside_mono (by assumption) (by decide)) :
    Fr P r (State.joinLadder s x1 x2 x3 x4 x5) := by
  have hs := fun k => Scope.outside_mono (k := k) hp
  simp (maxDischargeDepth := 99) [State.joinLadder, h, hs]

@[simp] theorem State.readFor_frame {P : Scope} {r s : State} (x1) (x2) (x3) (x4) (x5) (h : Fr P r s)
    (hp : P.outside 0x20000 := by exact Scope.outside_mono (by assumption) (by decide)) :
    Fr P r (State.readFor s x1 x2 x3 x4 x5) := by
  have hs := fun k => Scope.outside_mono (k := k) hp
  simp (maxDischargeDepth := 99) [State.readFor, h, hs]

end Sys2Proof.Machine
end

