-- ==== Sys2Proof/Laws/FrameQmg.lean ====
section
/-! SUPPORT. What each operation of Machine/Qmg.lean leaves alone. -/
set_option linter.unusedSimpArgs false
set_option linter.unusedTactic false
set_option linter.unreachableTactic false
set_option linter.unnecessarySeqFocus false
namespace Sys2Proof.Machine
set_option Elab.async false

@[simp] theorem State.idleRose_frame {P : Scope} {r s : State} (x1) (h : Fr P r s)
    (hp : P.outside 0x100000000000 := by exact Scope.outside_mono (by assumption) (by decide)) :
    Fr P r (State.idleRose s x1) := by
  have hs := fun k => Scope.outside_mono (k := k) hp
  simp (maxDischargeDepth := 99) [State.idleRose, h, hs]

@[simp] theorem State.freeCtx_frame {P : Scope} {r s : State} (x1) (h : Fr P r s)
    (hp : P.outside 0x100000018000 := by exact Scope.outside_mono (by assumption) (by decide)) :
    Fr P r (State.freeCtx s x1) := by
  have hs := fun k => Scope.outside_mono (k := k) hp
  unfold State.freeCtx
  (repeat' split) <;> simp (maxDischargeDepth := 99) [h, hs]

@[simp] theorem State.trimClean_frame {P : Scope} {r s : State} (h : Fr P r s)
    (hp : P.outside 0x20000 := by exact Scope.outside_mono (by assumption) (by decide)) :
    Fr P r (State.trimClean s) := by
  have hs := fun k => Scope.outside_mono (k := k) hp
  simp (maxDischargeDepth := 99) [State.trimClean, h, hs]

@[simp] theorem State.releaseCtx_frame {P : Scope} {r s : State} (x1) (x2) (h : Fr P r s)
    (hp : P.outside 0x1000000014000 := by exact Scope.outside_mono (by assumption) (by decide)) :
    Fr P r (State.releaseCtx s x1 x2) := by
  have hs := fun k => Scope.outside_mono (k := k) hp
  unfold State.releaseCtx
  dsimp only
  repeat' first
    | exact h
    | (simp (maxDischargeDepth := 99) [h, hs]; done)
    | split
    | refine State.each_frame (fun s x => ?_) _ ?_
    | refine State.onlyIf_frame _ (fun s => ?_) ?_
    | refine State.setCtx_frame _ _ ?_
    | refine State.setHif_frame _ _ ?_
    | refine State.setCq_frame _ _ ?_
    | refine State.modFw_frame _ ?_
    | refine State.setChn_frame _ _ ?_
    | refine State.setUlk_frame _ _ ?_
    | refine State.setOrd_frame _ _ ?_
    | refine State.setAct_frame _ _ ?_
    | refine State.almanac_frame _ _ _ _ ?_
    | refine State.setJub_frame _ _ ?_
    | refine State.settle_frame ?_
    | refine State.setReg_frame_win _ _ (by simp (maxDischargeDepth := 99) [hs]) ?_
    | refine State.setRfld_frame _ _ _ _ (by simp (maxDischargeDepth := 99) [hs]) ?_
    | refine State.setRbit_frame _ _ _ (by simp (maxDischargeDepth := 99) [hs]) ?_
    | refine State.raise_frame _ _ (by simp (maxDischargeDepth := 99) [hs]) ?_
    | simp (maxDischargeDepth := 99) [h, hs]

@[simp] theorem State.logError_frame {P : Scope} {r s : State} (x1) (x2) (x3) (h : Fr P r s)
    (hp : P.outside 0x8000 := by exact Scope.outside_mono (by assumption) (by decide)) :
    Fr P r (State.logError s x1 x2 x3) := by
  have hs := fun k => Scope.outside_mono (k := k) hp
  unfold State.logError
  (repeat' split) <;> simp (maxDischargeDepth := 99) [h, hs]

@[simp] theorem State.commitCtx_frame {P : Scope} {r s : State} (x1) (x2) (h : Fr P r s)
    (hp : P.outside 0x110000001c000 := by exact Scope.outside_mono (by assumption) (by decide)) :
    Fr P r (State.commitCtx s x1 x2) := by
  have hs := fun k => Scope.outside_mono (k := k) hp
  unfold State.commitCtx
  (repeat' split) <;> simp (maxDischargeDepth := 99) [h, hs]

@[simp] theorem State.endCtx_frame {P : Scope} {r s : State} (x1) (x2) (h : Fr P r s)
    (hp : P.outside 0x110000001c000 := by exact Scope.outside_mono (by assumption) (by decide)) :
    Fr P r (State.endCtx s x1 x2) := by
  have hs := fun k => Scope.outside_mono (k := k) hp
  simp (maxDischargeDepth := 99) [State.endCtx, h, hs]

@[simp] theorem State.markEnded_frame {P : Scope} {r s : State} (x1) (h : Fr P r s)
    (hp : P.outside 0x10000 := by exact Scope.outside_mono (by assumption) (by decide)) :
    Fr P r (State.markEnded s x1) := by
  have hs := fun k => Scope.outside_mono (k := k) hp
  unfold State.markEnded
  (repeat' split) <;> simp (maxDischargeDepth := 99) [h, hs]

@[simp] theorem State.fwComplete_frame {P : Scope} {r s : State} (x1) (x2) (h : Fr P r s)
    (hp : P.outside 0x1000000014000 := by exact Scope.outside_mono (by assumption) (by decide)) :
    Fr P r (State.fwComplete s x1 x2) := by
  have hs := fun k => Scope.outside_mono (k := k) hp
  simp (maxDischargeDepth := 99) [State.fwComplete, h, hs]

@[simp] theorem State.bufComplete_frame {P : Scope} {r s : State} (x1) (x2) (h : Fr P r s)
    (hp : P.outside 0x1000000014000 := by exact Scope.outside_mono (by assumption) (by decide)) :
    Fr P r (State.bufComplete s x1 x2) := by
  have hs := fun k => Scope.outside_mono (k := k) hp
  simp (maxDischargeDepth := 99) [State.bufComplete, h, hs]

@[simp] theorem State.classTake_frame {P : Scope} {r s : State} (x1) (h : Fr P r s)
    (hp : P.outside 0x1000010004000 := by exact Scope.outside_mono (by assumption) (by decide)) :
    Fr P r (State.classTake s x1).1 := by
  have hs := fun k => Scope.outside_mono (k := k) hp
  unfold State.classTake
  (repeat' split) <;> simp (maxDischargeDepth := 99) [h, hs]

@[simp] theorem State.qmgTakeCpl_frame {P : Scope} {r s : State} (x1) (h : Fr P r s)
    (hp : P.outside 0x110001001c000 := by exact Scope.outside_mono (by assumption) (by decide)) :
    Fr P r (State.qmgTakeCpl s x1) := by
  have hs := fun k => Scope.outside_mono (k := k) hp
  have h1 := State.classTake_frame x1 h
  unfold State.qmgTakeCpl
  generalize s.classTake x1 = e at h1 ⊢
  obtain ⟨s', o, b⟩ := e
  cases o with
  | none => exact h1
  | some p => dsimp only at h1 ⊢; split <;> simp (maxDischargeDepth := 99) [h1, hs]

@[simp] theorem execCompletionCommit_frame {P : Scope} {r s : State} (x1) (h : Fr P r s)
    (hp : P.outside 0x110001001c000 := by exact Scope.outside_mono (by assumption) (by decide)) :
    ∃ t, execCompletionCommit x1 s = .next t ∧ Fr P r t := by
  have hs := fun k => Scope.outside_mono (k := k) hp
  exact ⟨_, rfl, by simp (maxDischargeDepth := 99) [h, hs]⟩

@[simp] theorem State.resend_frame {P : Scope} {r s : State} (x1) (h : Fr P r s)
    (hp : P.outside 0x1100000004000 := by exact Scope.outside_mono (by assumption) (by decide)) :
    Fr P r (State.resend s x1) := by
  have hs := fun k => Scope.outside_mono (k := k) hp
  unfold State.resend
  repeat' first
    | (simp (maxDischargeDepth := 99) [h, hs]; done)
    | split
    | refine State.each_frame (fun s x => ?_) _ ?_
    | refine State.onlyIf_frame _ (fun s => ?_) ?_
    | simp (maxDischargeDepth := 99) [h, hs]

@[simp] theorem State.hifSend_frame {P : Scope} {r s : State} (x1) (h : Fr P r s)
    (hp : P.outside 0x110001001c000 := by exact Scope.outside_mono (by assumption) (by decide)) :
    Fr P r (State.hifSend s x1) := by
  have hs := fun k => Scope.outside_mono (k := k) hp
  have h1 := State.classTake_frame x1 h
  unfold State.hifSend
  generalize s.classTake x1 = e at h1 ⊢
  obtain ⟨s', o, b⟩ := e
  cases o with
  | none => dsimp only at h1 ⊢; simp (maxDischargeDepth := 99) [h1, hs]
  | some p => dsimp only at h1 ⊢; split <;> simp (maxDischargeDepth := 99) [h1, hs]

@[simp] theorem execCompletionSent_frame {P : Scope} {r s : State} (x1) (h : Fr P r s)
    (hp : P.outside 0x110001001c000 := by exact Scope.outside_mono (by assumption) (by decide)) :
    ∃ t, execCompletionSent x1 s = .next t ∧ Fr P r t := by
  have hs := fun k => Scope.outside_mono (k := k) hp
  exact ⟨_, rfl, by simp (maxDischargeDepth := 99) [h, hs]⟩

theorem execChainItemTake_frame {P : Scope} {r s : State} (x1) (h : Fr P r s)
    (hp : P.outside 0x110001001c000 := by exact Scope.outside_mono (by assumption) (by decide)) :
    ∃ t, execChainItemTake x1 s = .next t ∧ Fr P r t := by
  have hs := fun k => Scope.outside_mono (k := k) hp
  have h1 := State.chainTake_frame x1.val h
  refine ⟨_, rfl, ?_⟩
  generalize s.chainTake x1.val = e at h1 ⊢
  obtain ⟨s', o⟩ := e
  cases o <;> simp (maxDischargeDepth := 99) [h, hs] at h1 ⊢ <;> (repeat' split) <;> simp (maxDischargeDepth := 99) [h, h1, hs]

@[simp] theorem State.acceptWrite_frame {P : Scope} {r s : State} (x1) (h : Fr P r s)
    (hp : P.outside 0x20000 := by exact Scope.outside_mono (by assumption) (by decide)) :
    Fr P r (State.acceptWrite s x1).1 := by
  have hs := fun k => Scope.outside_mono (k := k) hp
  unfold State.acceptWrite
  (repeat' split) <;> simp (maxDischargeDepth := 99) [h, hs]

@[simp] theorem State.unhold_frame {P : Scope} {r s : State} (h : Fr P r s)
    (hp : P.outside 0x10000 := by exact Scope.outside_mono (by assumption) (by decide)) :
    Fr P r (State.unhold s) := by
  have hs := fun k => Scope.outside_mono (k := k) hp
  simp (maxDischargeDepth := 99) [State.unhold, h, hs]

@[simp] theorem State.capsulePut_frame {P : Scope} {r s : State} (x1) (x2) (h : Fr P r s)
    (hp : P.outside 0x100000000c000 := by exact Scope.outside_mono (by assumption) (by decide)) :
    Fr P r (State.capsulePut s x1 x2) := by
  have hs := fun k => Scope.outside_mono (k := k) hp
  simp (maxDischargeDepth := 99) [State.capsulePut, h, hs]

@[simp] theorem State.capsuleGone_frame {P : Scope} {r s : State} (x1) (x2) (h : Fr P r s)
    (hp : P.outside 0x8000 := by exact Scope.outside_mono (by assumption) (by decide)) :
    Fr P r (State.capsuleGone s x1 x2) := by
  have hs := fun k => Scope.outside_mono (k := k) hp
  simp (maxDischargeDepth := 99) [State.capsuleGone, h, hs]

@[simp] theorem State.capsulesIn_frame {P : Scope} {r s : State} (x1) (x2) (h : Fr P r s)
    (hp : P.outside 0x100000000c000 := by exact Scope.outside_mono (by assumption) (by decide)) :
    Fr P r (State.capsulesIn s x1 x2) := by
  have hs := fun k => Scope.outside_mono (k := k) hp
  fun_induction State.capsulesIn <;> simp_all (maxDischargeDepth := 99)

@[simp] theorem State.capsuleTake_frame {P : Scope} {r s : State} (x1) (h : Fr P r s)
    (hp : P.outside 0x110011013c000 := by exact Scope.outside_mono (by assumption) (by decide)) :
    Fr P r (State.capsuleTake s x1) := by
  have hs := fun k => Scope.outside_mono (k := k) hp
  unfold State.capsuleTake
  repeat' first
    | (simp (maxDischargeDepth := 99) [h, hs]; done)
    | split
    | refine State.each_frame (fun s x => ?_) _ ?_
    | refine State.onlyIf_frame _ (fun s => ?_) ?_
    | simp (maxDischargeDepth := 99) [h, hs]

@[simp] theorem execCapsuleTake_frame {P : Scope} {r s : State} (x1) (h : Fr P r s)
    (hp : P.outside 0x110011013c000 := by exact Scope.outside_mono (by assumption) (by decide)) :
    ∃ t, execCapsuleTake x1 s = .next t ∧ Fr P r t := by
  have hs := fun k => Scope.outside_mono (k := k) hp
  exact ⟨_, rfl, by simp (maxDischargeDepth := 99) [h, hs]⟩

@[simp] theorem State.admitCmd_frame {P : Scope} {r s : State} (x1) (x2) (h : Fr P r s)
    (hp : P.outside 0x34000 := by exact Scope.outside_mono (by assumption) (by decide)) :
    Fr P r (State.admitCmd s x1 x2) := by
  have hs := fun k => Scope.outside_mono (k := k) hp
  unfold State.admitCmd
  (repeat' split) <;> simp (maxDischargeDepth := 99) [h, hs]

@[simp] theorem State.holdAdmit_frame {P : Scope} {r s : State} (x1) (h : Fr P r s)
    (hp : P.outside 0x100000010000 := by exact Scope.outside_mono (by assumption) (by decide)) :
    Fr P r (State.holdAdmit s x1) := by
  have hs := fun k => Scope.outside_mono (k := k) hp
  simp (maxDischargeDepth := 99) [State.holdAdmit, h, hs]

@[simp] theorem execQmgHoldAdmit_frame {P : Scope} {r s : State} (x1) (h : Fr P r s)
    (hp : P.outside 0x100000010000 := by exact Scope.outside_mono (by assumption) (by decide)) :
    ∃ t, execQmgHoldAdmit x1 s = .next t ∧ Fr P r t := by
  have hs := fun k => Scope.outside_mono (k := k) hp
  exact ⟨_, rfl, by simp (maxDischargeDepth := 99) [h, hs]⟩

end Sys2Proof.Machine
end

