-- ==== Sys2Proof/Laws/FrameRw.lean ====
section
/-! SUPPORT. What each operation of Machine/Rw.lean leaves alone. -/
set_option linter.unusedSimpArgs false
set_option linter.unusedTactic false
set_option linter.unreachableTactic false
set_option linter.unnecessarySeqFocus false
namespace Sys2Proof.Machine
set_option Elab.async false

@[simp] theorem State.settle_frame {P : Scope} {r s : State} (h : Fr P r s)
    (hp : P.outside 0x1000000014000 := by exact Scope.outside_mono (by assumption) (by decide)) :
    Fr P r (State.settle s) := by
  have hs := fun k => Scope.outside_mono (k := k) hp
  unfold State.settle
  repeat' first
    | (simp (maxDischargeDepth := 99) [h, hs]; done)
    | split
    | refine State.each_frame (fun s x => ?_) _ ?_
    | refine State.onlyIf_frame _ (fun s => ?_) ?_
    | simp (maxDischargeDepth := 99) [h, hs]

@[simp] theorem State.failCtx_frame {P : Scope} {r s : State} (x1) (x2) (h : Fr P r s)
    (hp : P.outside 0x10000 := by exact Scope.outside_mono (by assumption) (by decide)) :
    Fr P r (State.failCtx s x1 x2) := by
  have hs := fun k => Scope.outside_mono (k := k) hp
  unfold State.failCtx
  (repeat' split) <;> simp (maxDischargeDepth := 99) [h, hs]

@[simp] theorem State.ctxEnd_frame {P : Scope} {r s : State} (x1) (x2) (h : Fr P r s)
    (hp : P.outside 0x1000000014000 := by exact Scope.outside_mono (by assumption) (by decide)) :
    Fr P r (State.ctxEnd s x1 x2) := by
  have hs := fun k => Scope.outside_mono (k := k) hp
  unfold State.ctxEnd
  (repeat' split) <;> simp (maxDischargeDepth := 99) [h, hs]

@[simp] theorem State.verifiedIf_frame {P : Scope} {r s : State} (x1) (h : Fr P r s)
    (hp : P.outside 0x10000 := by exact Scope.outside_mono (by assumption) (by decide)) :
    Fr P r (State.verifiedIf s x1) := by
  have hs := fun k => Scope.outside_mono (k := k) hp
  unfold State.verifiedIf
  repeat' first
    | (simp (maxDischargeDepth := 99) [h, hs]; done)
    | split
    | refine State.each_frame (fun s x => ?_) _ ?_
    | refine State.onlyIf_frame _ (fun s => ?_) ?_
    | simp (maxDischargeDepth := 99) [h, hs]

@[simp] theorem State.verifiedKeys_frame {P : Scope} {r s : State} (x1) (h : Fr P r s)
    (hp : P.outside 0x10000 := by exact Scope.outside_mono (by assumption) (by decide)) :
    Fr P r (State.verifiedKeys s x1) := by
  have hs := fun k => Scope.outside_mono (k := k) hp
  simp (maxDischargeDepth := 99) [State.verifiedKeys, h, hs]

@[simp] theorem State.dropBufs_frame {P : Scope} {r s : State} (x1) (h : Fr P r s)
    (hp : P.outside 0x20000 := by exact Scope.outside_mono (by assumption) (by decide)) :
    Fr P r (State.dropBufs s x1) := by
  have hs := fun k => Scope.outside_mono (k := k) hp
  simp (maxDischargeDepth := 99) [State.dropBufs, h, hs]

@[simp] theorem State.cleanKey_frame {P : Scope} {r s : State} (x1) (x2) (h : Fr P r s)
    (hp : P.outside 0x20000 := by exact Scope.outside_mono (by assumption) (by decide)) :
    Fr P r (State.cleanKey s x1 x2) := by
  have hs := fun k => Scope.outside_mono (k := k) hp
  unfold State.cleanKey
  (repeat' split) <;> simp (maxDischargeDepth := 99) [h, hs]

@[simp] theorem State.dropRing_frame {P : Scope} {r s : State} (x1) (x2) (x3) (h : Fr P r s)
    (hp : P.outside 0x20000 := by exact Scope.outside_mono (by assumption) (by decide)) :
    Fr P r (State.dropRing s x1 x2 x3) := by
  have hs := fun k => Scope.outside_mono (k := k) hp
  simp (maxDischargeDepth := 99) [State.dropRing, h, hs]

@[simp] theorem State.ringWrite_frame {P : Scope} {r s : State} (x1) (h : Fr P r s)
    (hp : P.outside 0x20000 := by exact Scope.outside_mono (by assumption) (by decide)) :
    Fr P r (State.ringWrite s x1) := by
  have hs := fun k => Scope.outside_mono (k := k) hp
  simp (maxDischargeDepth := 99) [State.ringWrite, h, hs]

@[simp] theorem State.stageKeys_frame {P : Scope} {r : State} (hp : P.outside 0x20000) (a : Nat) : ∀ {s : State} (l : List (Nat × Nat)) (_ : Fr P r s),
    Fr P r (s.stageKeys a l)
  | _, [], h => h
  | s, k :: ks, h => by
    have hs := fun k => Scope.outside_mono (k := k) hp
    unfold State.stageKeys
    exact State.stageKeys_frame hp a ks (by simp (maxDischargeDepth := 99) [h, hs])

@[simp] theorem State.ringAdvance_frame {P : Scope} {r s : State} (x1) (h : Fr P r s)
    (hp : P.outside 0x20000 := by exact Scope.outside_mono (by assumption) (by decide)) :
    Fr P r (State.ringAdvance s x1) := by
  have hs := fun k => Scope.outside_mono (k := k) hp
  simp (maxDischargeDepth := 99) [State.ringAdvance, h, hs]

@[simp] theorem State.bufferKey_frame {P : Scope} {r s : State} (x1) (x2) (x3) (h : Fr P r s)
    (hp : P.outside 0x20000 := by exact Scope.outside_mono (by assumption) (by decide)) :
    Fr P r (State.bufferKey s x1 x2 x3) := by
  have hs := fun k => Scope.outside_mono (k := k) hp
  simp (maxDischargeDepth := 99) [State.bufferKey, h, hs]

@[simp] theorem State.holdSpare_frame {P : Scope} {r s : State} (x1) (h : Fr P r s)
    (hp : P.outside 0x20000 := by exact Scope.outside_mono (by assumption) (by decide)) :
    Fr P r (State.holdSpare s x1) := by
  have hs := fun k => Scope.outside_mono (k := k) hp
  simp (maxDischargeDepth := 99) [State.holdSpare, h, hs]

@[simp] theorem State.bandJob_frame {P : Scope} {r s : State} (x1) (x2) (x3) (x4) (x5) (h : Fr P r s)
    (hp : P.outside 0x20000 := by exact Scope.outside_mono (by assumption) (by decide)) :
    Fr P r (State.bandJob s x1 x2 x3 x4 x5) := by
  have hs := fun k => Scope.outside_mono (k := k) hp
  simp (maxDischargeDepth := 99) [State.bandJob, h, hs]

@[simp] theorem State.placeBand_frame {P : Scope} {r : State} (hp : P.outside 0x20000) (g : Group) (z : Nat) : ∀ {s : State} (k : Nat) (_ : Fr P r s),
    Fr P r (s.placeBand g z k)
  | _, 0, h => h
  | s, k + 1, h => by
    have hs := fun k => Scope.outside_mono (k := k) hp
    unfold State.placeBand
    dsimp only
    split
    · exact h
    · exact State.placeBand_frame hp g z k (by simp (maxDischargeDepth := 99) [h, hs])

@[simp] theorem State.convJob_frame {P : Scope} {r s : State} (x1) (x2) (x3) (x4) (h : Fr P r s)
    (hp : P.outside 0x20000 := by exact Scope.outside_mono (by assumption) (by decide)) :
    Fr P r (State.convJob s x1 x2 x3 x4) := by
  have hs := fun k => Scope.outside_mono (k := k) hp
  simp (maxDischargeDepth := 99) [State.convJob, h, hs]

@[simp] theorem State.destage_frame {P : Scope} {r s : State} (x1) (x2) (x3) (h : Fr P r s)
    (hp : P.outside 0x20000 := by exact Scope.outside_mono (by assumption) (by decide)) :
    Fr P r (State.destage s x1 x2 x3) := by
  have hs := fun k => Scope.outside_mono (k := k) hp
  simp (maxDischargeDepth := 99) [State.destage, h, hs]

@[simp] theorem State.placeKeys_frame {P : Scope} {r s : State} (x1) (x2) (x3) (h : Fr P r s)
    (hp : P.outside 0x20000 := by exact Scope.outside_mono (by assumption) (by decide)) :
    Fr P r (State.placeKeys s x1 x2 x3) := by
  have hs := fun k => Scope.outside_mono (k := k) hp
  unfold State.placeKeys
  (repeat' split) <;> simp (maxDischargeDepth := 99) [h, hs]

@[simp] theorem State.lateWrite_frame {P : Scope} {r s : State} (x1) (h : Fr P r s)
    (hp : P.outside 0x1080000004000 := by exact Scope.outside_mono (by assumption) (by decide)) :
    Fr P r (State.lateWrite s x1) := by
  have hs := fun k => Scope.outside_mono (k := k) hp
  unfold State.lateWrite
  (repeat' split) <;> simp (maxDischargeDepth := 99) [h, hs]

@[simp] theorem State.jubRewrite_frame {P : Scope} {r s : State} (x1) (x2) (h : Fr P r s)
    (hp : P.outside 0x40000 := by exact Scope.outside_mono (by assumption) (by decide)) :
    Fr P r (State.jubRewrite s x1 x2) := by
  have hs := fun k => Scope.outside_mono (k := k) hp
  simp (maxDischargeDepth := 99) [State.jubRewrite, h, hs]

@[simp] theorem State.hostData_frame {P : Scope} {r s : State} (x1) (x2) (x3) (h : Fr P r s)
    (hp : P.outside 0x1000010004000 := by exact Scope.outside_mono (by assumption) (by decide)) :
    Fr P r (State.hostData s x1 x2 x3) := by
  have hs := fun k => Scope.outside_mono (k := k) hp
  induction x3 generalizing s with
  | nil => exact h
  | cons e es ih =>
    rw [State.hostData]
    refine ih ?_
    split <;> simp (maxDischargeDepth := 99) [h, hs]

@[simp] theorem State.writeKeys_frame {P : Scope} {r s : State} (x1) (x2) (x3) (x4) (x5) (h : Fr P r s)
    (hp : P.outside 0x1080000074000 := by exact Scope.outside_mono (by assumption) (by decide)) :
    Fr P r (State.writeKeys s x1 x2 x3 x4 x5) := by
  have hs := fun k => Scope.outside_mono (k := k) hp
  unfold State.writeKeys
  repeat' first
    | (simp (maxDischargeDepth := 99) [h, hs]; done)
    | split
    | refine State.each_frame (fun s x => ?_) _ ?_
    | refine State.onlyIf_frame _ (fun s => ?_) ?_
    | simp (maxDischargeDepth := 99) [h, hs]

@[simp] theorem State.dropAbove_frame {P : Scope} {r s : State} (x1) (x2) (x3) (h : Fr P r s)
    (hp : P.outside 0x20000 := by exact Scope.outside_mono (by assumption) (by decide)) :
    Fr P r (State.dropAbove s x1 x2 x3) := by
  have hs := fun k => Scope.outside_mono (k := k) hp
  simp (maxDischargeDepth := 99) [State.dropAbove, h, hs]

@[simp] theorem State.replace_frame {P : Scope} {r : State} (hp : P.outside 0x118000007c000) (g : Group) (z : Nat) : ∀ {s : State} (l : List (Nat × Ctx)) (_ : Fr P r s),
    Fr P r (s.replace g z l)
  | _, [], h => h
  | s, (c, x) :: es, h => by
    have hs := fun k => Scope.outside_mono (k := k) hp
    have ih : ∀ {s : State}, Fr P r s → Fr P r (s.replace g z es) :=
      fun k => State.replace_frame hp g z es k
    unfold State.replace
    dsimp only
    (repeat' split) <;> first
      | exact ih h
      | (refine ih ?_; (repeat' split) <;> simp (maxDischargeDepth := 99) [h, hs])

@[simp] theorem State.streamResume_frame {P : Scope} {r s : State} (x1) (h : Fr P r s)
    (hp : P.outside 0x118000007c000 := by exact Scope.outside_mono (by assumption) (by decide)) :
    Fr P r (State.streamResume s x1) := by
  have hs := fun k => Scope.outside_mono (k := k) hp
  unfold State.streamResume
  (repeat' split) <;> simp (maxDischargeDepth := 99) [h, hs]

@[simp] theorem State.stageRest_frame {P : Scope} {r s : State} (x1) (x2) (h : Fr P r s)
    (hp : P.outside 0x20000 := by exact Scope.outside_mono (by assumption) (by decide)) :
    Fr P r (State.stageRest s x1 x2) := by
  have hs := fun k => Scope.outside_mono (k := k) hp
  simp (maxDischargeDepth := 99) [State.stageRest, h, hs]

@[simp] theorem State.streamStop_frame {P : Scope} {r s : State} (x1) (x2) (h : Fr P r s)
    (hp : P.outside 0x3e000118000007c5a0 := by exact Scope.outside_mono (by assumption) (by decide)) :
    Fr P r (State.streamStop s x1 x2) := by
  have hs := fun k => Scope.outside_mono (k := k) hp
  unfold State.streamStop
  (repeat' split) <;> simp (maxDischargeDepth := 99) [h, hs]

@[simp] theorem State.toHost_frame {P : Scope} {r s : State} (x1) (x2) (x3) (h : Fr P r s)
    (hp : P.outside 0x1000000004000 := by exact Scope.outside_mono (by assumption) (by decide)) :
    Fr P r (State.toHost s x1 x2 x3) := by
  have hs := fun k => Scope.outside_mono (k := k) hp
  simp (maxDischargeDepth := 99) [State.toHost, h, hs]

@[simp] theorem State.dataToHost_frame {P : Scope} {r s : State} (x1) (x2) (x3) (x4) (x5) (x6) (x7) (h : Fr P r s)
    (hp : P.outside 0x1000000004000 := by exact Scope.outside_mono (by assumption) (by decide)) :
    Fr P r (State.dataToHost s x1 x2 x3 x4 x5 x6 x7) := by
  have hs := fun k => Scope.outside_mono (k := k) hp
  unfold State.dataToHost
  (repeat' split) <;> simp (maxDischargeDepth := 99) [h, hs]

@[simp] theorem State.transfer_frame {P : Scope} {r s : State} (x1) (x2) (x3) (x4) (x5) (h : Fr P r s)
    (hp : P.outside 0x1000000014000 := by exact Scope.outside_mono (by assumption) (by decide)) :
    Fr P r (State.transfer s x1 x2 x3 x4 x5) := by
  have hs := fun k => Scope.outside_mono (k := k) hp
  unfold State.transfer
  (repeat' split) <;> simp (maxDischargeDepth := 99) [h, hs]

@[simp] theorem State.serveKeys_frame {P : Scope} {r : State} (hp : P.outside 0x1000000034000) (c : Nat) (x : Ctx) (n : Nspace) : ∀ {s : State} (l left : List Nat) (_ : Fr P r s),
    Fr P r (s.serveKeys c x n l left)
  | s, [], left, h => by
    have hs := fun k => Scope.outside_mono (k := k) hp
    unfold State.serveKeys
    split <;> simp (maxDischargeDepth := 99) [h, hs]
  | s, k :: ks, left, h => by
    have hs := fun k => Scope.outside_mono (k := k) hp
    have ih : ∀ {s : State} {left : List Nat}, Fr P r s →
        Fr P r (s.serveKeys c x n ks left) := fun k => State.serveKeys_frame hp c x n ks _ k
    unfold State.serveKeys
    dsimp only
    (repeat' split) <;> first | exact h | (refine ih ?_; simp (maxDischargeDepth := 99) [h, hs])

@[simp] theorem State.serveCtx_frame {P : Scope} {r s : State} (x1) (h : Fr P r s)
    (hp : P.outside 0x1000000034000 := by exact Scope.outside_mono (by assumption) (by decide)) :
    Fr P r (State.serveCtx s x1) := by
  have hs := fun k => Scope.outside_mono (k := k) hp
  unfold State.serveCtx
  repeat' first
    | (simp (maxDischargeDepth := 99) [h, hs]; done)
    | split
    | refine State.each_frame (fun s x => ?_) _ ?_
    | refine State.onlyIf_frame _ (fun s => ?_) ?_
    | simp (maxDischargeDepth := 99) [h, hs]

@[simp] theorem State.beginRead_frame {P : Scope} {r s : State} (x1) (x2) (x3) (x4) (h : Fr P r s)
    (hp : P.outside 0x1000000034000 := by exact Scope.outside_mono (by assumption) (by decide)) :
    Fr P r (State.beginRead s x1 x2 x3 x4) := by
  have hs := fun k => Scope.outside_mono (k := k) hp
  unfold State.beginRead
  repeat' first
    | (simp (maxDischargeDepth := 99) [h, hs]; done)
    | split
    | refine State.each_frame (fun s x => ?_) _ ?_
    | refine State.onlyIf_frame _ (fun s => ?_) ?_
    | simp (maxDischargeDepth := 99) [h, hs]

@[simp] theorem State.bufferBad_frame {P : Scope} {r s : State} (x1) (x2) (h : Fr P r s)
    (hp : P.outside 0x1a00020024000 := by exact Scope.outside_mono (by assumption) (by decide)) :
    Fr P r (State.bufferBad s x1 x2).1 := by
  have hs := fun k => Scope.outside_mono (k := k) hp
  unfold State.bufferBad
  repeat' first
    | (simp (maxDischargeDepth := 99) [h, hs]; done)
    | split
    | refine State.each_frame (fun s x => ?_) _ ?_
    | refine State.onlyIf_frame _ (fun s => ?_) ?_
    | simp (maxDischargeDepth := 99) [h, hs]

@[simp] theorem State.readCmd_frame {P : Scope} {r s : State} (x1) (x2) (x3) (h : Fr P r s)
    (hp : P.outside 0x1a00020034000 := by exact Scope.outside_mono (by assumption) (by decide)) :
    Fr P r (State.readCmd s x1 x2 x3) := by
  have hs := fun k => Scope.outside_mono (k := k) hp
  unfold State.readCmd
  (repeat' split) <;> simp (maxDischargeDepth := 99) [h, hs]

@[simp] theorem execRead_frame {P : Scope} {r s : State} (x1) (x2) (h : Fr P r s)
    (hp : P.outside 0x1a00020034000 := by exact Scope.outside_mono (by assumption) (by decide)) :
    ∃ t, execRead x1 x2 s = .next t ∧ Fr P r t := by
  have hs := fun k => Scope.outside_mono (k := k) hp
  exact ⟨_, rfl, by simp (maxDischargeDepth := 99) [h, hs]⟩

@[simp] theorem execCompare_frame {P : Scope} {r s : State} (x1) (x2) (h : Fr P r s)
    (hp : P.outside 0x1a00020034000 := by exact Scope.outside_mono (by assumption) (by decide)) :
    ∃ t, execCompare x1 x2 s = .next t ∧ Fr P r t := by
  have hs := fun k => Scope.outside_mono (k := k) hp
  exact ⟨_, rfl, by simp (maxDischargeDepth := 99) [h, hs]⟩

@[simp] theorem State.writeCmd_frame {P : Scope} {r s : State} (x1) (x2) (x3) (h : Fr P r s)
    (hp : P.outside 0x3e0001b8003007c5a0 := by exact Scope.outside_mono (by assumption) (by decide)) :
    Fr P r (State.writeCmd s x1 x2 x3) := by
  have hs := fun k => Scope.outside_mono (k := k) hp
  unfold State.writeCmd
  repeat' first
    | (simp (maxDischargeDepth := 99) [h, hs]; done)
    | split
    | refine State.each_frame (fun s x => ?_) _ ?_
    | refine State.onlyIf_frame _ (fun s => ?_) ?_
    | simp (maxDischargeDepth := 99) [h, hs]

@[simp] theorem execWrite_frame {P : Scope} {r s : State} (x1) (x2) (h : Fr P r s)
    (hp : P.outside 0x3e0001b8003007c5a0 := by exact Scope.outside_mono (by assumption) (by decide)) :
    ∃ t, execWrite x1 x2 s = .next t ∧ Fr P r t := by
  have hs := fun k => Scope.outside_mono (k := k) hp
  exact ⟨_, rfl, by simp (maxDischargeDepth := 99) [h, hs]⟩

@[simp] theorem execWriteZeroes_frame {P : Scope} {r s : State} (x1) (h : Fr P r s)
    (hp : P.outside 0x3e0001b8003007c5a0 := by exact Scope.outside_mono (by assumption) (by decide)) :
    ∃ t, execWriteZeroes x1 s = .next t ∧ Fr P r t := by
  have hs := fun k => Scope.outside_mono (k := k) hp
  exact ⟨_, rfl, by simp (maxDischargeDepth := 99) [h, hs]⟩

@[simp] theorem execZoneAppend_frame {P : Scope} {r s : State} (x1) (x2) (h : Fr P r s)
    (hp : P.outside 0x3e0001b8003007c5a0 := by exact Scope.outside_mono (by assumption) (by decide)) :
    ∃ t, execZoneAppend x1 x2 s = .next t ∧ Fr P r t := by
  have hs := fun k => Scope.outside_mono (k := k) hp
  exact ⟨_, rfl, by simp (maxDischargeDepth := 99) [h, hs]⟩

@[simp] theorem execFlush_frame {P : Scope} {r s : State} (x1) (h : Fr P r s)
    (hp : P.outside 0x1000000014000 := by exact Scope.outside_mono (by assumption) (by decide)) :
    ∃ t, execFlush x1 s = .next t ∧ Fr P r t := by
  have hs := fun k => Scope.outside_mono (k := k) hp
  refine ⟨_, rfl, ?_⟩
  (repeat' split) <;> simp (maxDischargeDepth := 99) [h, hs]

@[simp] theorem execRingCloseTimeout_frame {P : Scope} {r s : State} (x1) (h : Fr P r s)
    (hp : P.outside 0x20000 := by exact Scope.outside_mono (by assumption) (by decide)) :
    ∃ t, execRingCloseTimeout x1 s = .next t ∧ Fr P r t := by
  have hs := fun k => Scope.outside_mono (k := k) hp
  exact ⟨_, rfl, by simp (maxDischargeDepth := 99) [h, hs]⟩

@[simp] theorem State.recordV_frame {P : Scope} {r s : State} (x1) (h : Fr P r s)
    (hp : P.outside 0x20000 := by exact Scope.outside_mono (by assumption) (by decide)) :
    Fr P r (State.recordV s x1) := by
  have hs := fun k => Scope.outside_mono (k := k) hp
  unfold State.recordV
  (repeat' split) <;> simp (maxDischargeDepth := 99) [h, hs]

@[simp] theorem execVRecordTimer_frame {P : Scope} {r s : State} (h : Fr P r s)
    (hp : P.outside 0x20000 := by exact Scope.outside_mono (by assumption) (by decide)) :
    ∃ t, execVRecordTimer s = .next t ∧ Fr P r t := by
  have hs := fun k => Scope.outside_mono (k := k) hp
  exact ⟨_, rfl, by simp (maxDischargeDepth := 99) [h, hs]⟩

end Sys2Proof.Machine
end

