-- ==== Sys2Proof/Laws/FrameZones.lean ====
section
/-! SUPPORT. What each operation of Machine/Zones.lean leaves alone. -/
set_option linter.unusedSimpArgs false
set_option linter.unusedTactic false
set_option linter.unreachableTactic false
set_option linter.unnecessarySeqFocus false
namespace Sys2Proof.Machine
set_option Elab.async false

@[simp] theorem State.dropRelocs_frame {P : Scope} {r s : State} (x1) (h : Fr P r s)
    (hp : P.outside 0x20000 := by exact Scope.outside_mono (by assumption) (by decide)) :
    Fr P r (State.dropRelocs s x1) := by
  have hs := fun k => Scope.outside_mono (k := k) hp
  simp (maxDischargeDepth := 99) [State.dropRelocs, h, hs]

@[simp] theorem State.zoneChanged_frame {P : Scope} {r s : State} (x1) (h : Fr P r s)
    (hp : P.outside 0x20000 := by exact Scope.outside_mono (by assumption) (by decide)) :
    Fr P r (State.zoneChanged s x1) := by
  have hs := fun k => Scope.outside_mono (k := k) hp
  simp (maxDischargeDepth := 99) [State.zoneChanged, h, hs]

@[simp] theorem State.jubRestart_frame {P : Scope} {r s : State} (x1) (h : Fr P r s)
    (hp : P.outside 0x40000 := by exact Scope.outside_mono (by assumption) (by decide)) :
    Fr P r (State.jubRestart s x1) := by
  have hs := fun k => Scope.outside_mono (k := k) hp
  simp (maxDischargeDepth := 99) [State.jubRestart, h, hs]

@[simp] theorem State.stopRefresh_frame {P : Scope} {r s : State} (x1) (h : Fr P r s)
    (hp : P.outside 0x20000 := by exact Scope.outside_mono (by assumption) (by decide)) :
    Fr P r (State.stopRefresh s x1) := by
  have hs := fun k => Scope.outside_mono (k := k) hp
  simp (maxDischargeDepth := 99) [State.stopRefresh, h, hs]

@[simp] theorem State.resetZone_frame {P : Scope} {r s : State} (x1) (h : Fr P r s)
    (hp : P.outside 0x118000007c000 := by exact Scope.outside_mono (by assumption) (by decide)) :
    Fr P r (State.resetZone s x1) := by
  have hs := fun k => Scope.outside_mono (k := k) hp
  unfold State.resetZone
  (repeat' split) <;> simp (maxDischargeDepth := 99) [h, hs]

@[simp] theorem State.jubReset_frame {P : Scope} {r s : State} (x1) (h : Fr P r s)
    (hp : P.outside 0x118000007c000 := by exact Scope.outside_mono (by assumption) (by decide)) :
    Fr P r (State.jubReset s x1) := by
  have hs := fun k => Scope.outside_mono (k := k) hp
  simp (maxDischargeDepth := 99) [State.jubReset, h, hs]

@[simp] theorem State.releaseZones_frame {P : Scope} {r s : State} (h : Fr P r s)
    (hp : P.outside 0x118000007c000 := by exact Scope.outside_mono (by assumption) (by decide)) :
    Fr P r (State.releaseZones s) := by
  have hs := fun k => Scope.outside_mono (k := k) hp
  simp (maxDischargeDepth := 99) [State.releaseZones, h, hs]

@[simp] theorem State.openZone_frame {P : Scope} {r s : State} (x1) (x2) (h : Fr P r s)
    (hp : P.outside 0x20000 := by exact Scope.outside_mono (by assumption) (by decide)) :
    Fr P r (State.openZone s x1 x2).1 := by
  have hs := fun k => Scope.outside_mono (k := k) hp
  unfold State.openZone
  repeat' first
    | (simp (maxDischargeDepth := 99) [h, hs]; done)
    | split
    | refine State.each_frame (fun s x => ?_) _ ?_
    | refine State.onlyIf_frame _ (fun s => ?_) ?_
    | simp (maxDischargeDepth := 99) [h, hs]

@[simp] theorem State.closeZone_frame {P : Scope} {r s : State} (x1) (h : Fr P r s)
    (hp : P.outside 0x20000 := by exact Scope.outside_mono (by assumption) (by decide)) :
    Fr P r (State.closeZone s x1).1 := by
  have hs := fun k => Scope.outside_mono (k := k) hp
  unfold State.closeZone
  repeat' first
    | (simp (maxDischargeDepth := 99) [h, hs]; done)
    | split
    | refine State.each_frame (fun s x => ?_) _ ?_
    | refine State.onlyIf_frame _ (fun s => ?_) ?_
    | simp (maxDischargeDepth := 99) [h, hs]

@[simp] theorem State.finished_frame {P : Scope} {r s : State} (x1) (x2) (h : Fr P r s)
    (hp : P.outside 0x1000000014000 := by exact Scope.outside_mono (by assumption) (by decide)) :
    Fr P r (State.finished s x1 x2) := by
  have hs := fun k => Scope.outside_mono (k := k) hp
  unfold State.finished
  (repeat' split) <;> simp (maxDischargeDepth := 99) [h, hs]

@[simp] theorem State.detachFinish_frame {P : Scope} {r s : State} (x1) (h : Fr P r s)
    (hp : P.outside 0x20000 := by exact Scope.outside_mono (by assumption) (by decide)) :
    Fr P r (State.detachFinish s x1) := by
  have hs := fun k => Scope.outside_mono (k := k) hp
  simp (maxDischargeDepth := 99) [State.detachFinish, h, hs]

@[simp] theorem State.finishFail_frame {P : Scope} {r s : State} (x1) (x2) (h : Fr P r s)
    (hp : P.outside 0x1000000034000 := by exact Scope.outside_mono (by assumption) (by decide)) :
    Fr P r (State.finishFail s x1 x2) := by
  have hs := fun k => Scope.outside_mono (k := k) hp
  simp (maxDischargeDepth := 99) [State.finishFail, h, hs]

@[simp] theorem State.finishCheck_frame {P : Scope} {r s : State} (x1) (h : Fr P r s)
    (hp : P.outside 0x1000000034000 := by exact Scope.outside_mono (by assumption) (by decide)) :
    Fr P r (State.finishCheck s x1) := by
  have hs := fun k => Scope.outside_mono (k := k) hp
  unfold State.finishCheck
  (repeat' split) <;> simp (maxDischargeDepth := 99) [h, hs]

@[simp] theorem State.tailJob_frame {P : Scope} {r s : State} (x1) (x2) (h : Fr P r s)
    (hp : P.outside 0x20000 := by exact Scope.outside_mono (by assumption) (by decide)) :
    Fr P r (State.tailJob s x1 x2) := by
  have hs := fun k => Scope.outside_mono (k := k) hp
  simp (maxDischargeDepth := 99) [State.tailJob, h, hs]

@[simp] theorem State.finishStream_frame {P : Scope} {r s : State} (x1) (x2) (h : Fr P r s)
    (hp : P.outside 0x110000003c000 := by exact Scope.outside_mono (by assumption) (by decide)) :
    Fr P r (State.finishStream s x1 x2) := by
  have hs := fun k => Scope.outside_mono (k := k) hp
  simp (maxDischargeDepth := 99) [State.finishStream, h, hs]

@[simp] theorem State.finishZone_frame {P : Scope} {r s : State} (x1) (x2) (h : Fr P r s)
    (hp : P.outside 0x110000003c000 := by exact Scope.outside_mono (by assumption) (by decide)) :
    Fr P r (State.finishZone s x1 x2).1 := by
  have hs := fun k => Scope.outside_mono (k := k) hp
  unfold State.finishZone
  repeat' first
    | (simp (maxDischargeDepth := 99) [h, hs]; done)
    | split
    | refine State.each_frame (fun s x => ?_) _ ?_
    | refine State.onlyIf_frame _ (fun s => ?_) ?_
    | simp (maxDischargeDepth := 99) [h, hs]

@[simp] theorem State.zoneSend_frame {P : Scope} {r s : State} (c action : Nat) {f : State → Nspace → Nat → State × Nat} (sel : ZSt → Bool)
    (hf : ∀ s n z, Fr P s (f s n z).1) (h : Fr P r s)
    (hp : P.outside 0x1000000014000 := by exact Scope.outside_mono (by assumption) (by decide)) :
    Fr P r (s.zoneSend c action f sel) := by
  have hs := fun k => Scope.outside_mono (k := k) hp
  unfold State.zoneSend
  dsimp only
  (repeat' split) <;> first
    | exact h
    | (simp (maxDischargeDepth := 99) [h, hs]; done)
    | (refine State.ctxEnd_frame _ _ (foldl_frame ?_ _ _ h); intro p x; split <;> first | exact Fr.refl _ | exact hf _ _ _)

@[simp] theorem execZoneOpen_frame {P : Scope} {r s : State} (x1) (h : Fr P r s)
    (hp : P.outside 0x1000000034000 := by exact Scope.outside_mono (by assumption) (by decide)) :
    ∃ t, execZoneOpen x1 s = .next t ∧ Fr P r t := by
  have hs := fun k => Scope.outside_mono (k := k) hp
  exact ⟨_, rfl, by simp (maxDischargeDepth := 99) [h, hs]⟩

@[simp] theorem execZoneClose_frame {P : Scope} {r s : State} (x1) (h : Fr P r s)
    (hp : P.outside 0x1000000034000 := by exact Scope.outside_mono (by assumption) (by decide)) :
    ∃ t, execZoneClose x1 s = .next t ∧ Fr P r t := by
  have hs := fun k => Scope.outside_mono (k := k) hp
  exact ⟨_, rfl, by simp (maxDischargeDepth := 99) [h, hs]⟩

@[simp] theorem State.finishAll_frame {P : Scope} {r s : State} (x1) (x2) (h : Fr P r s)
    (hp : P.outside 0x110000003c000 := by exact Scope.outside_mono (by assumption) (by decide)) :
    Fr P r (State.finishAll s x1 x2) := by
  have hs := fun k => Scope.outside_mono (k := k) hp
  induction x2 generalizing s x1 with
  | nil => exact h
  | cons z zs ih =>
    rw [State.finishAll]
    split
    · exact ih _ (by simp (maxDischargeDepth := 99) [h, hs])
    split
    · exact ih _ (by simp (maxDischargeDepth := 99) [h, hs])
    · exact ih _ (by simp (maxDischargeDepth := 99) [h, hs])

@[simp] theorem execZoneFinish_frame {P : Scope} {r s : State} (x1) (h : Fr P r s)
    (hp : P.outside 0x110000003c000 := by exact Scope.outside_mono (by assumption) (by decide)) :
    ∃ t, execZoneFinish x1 s = .next t ∧ Fr P r t := by
  have hs := fun k => Scope.outside_mono (k := k) hp
  refine ⟨_, rfl, ?_⟩
  repeat' first
    | (simp (maxDischargeDepth := 99) [h, hs]; done)
    | split
    | refine State.zoneSend_frame _ _ _ (fun s n z => ?_) ?_
    | refine State.each_frame (fun s x => ?_) _ ?_
    | refine State.onlyIf_frame _ (fun s => ?_) ?_
    | simp (maxDischargeDepth := 99) [h, hs]

@[simp] theorem execZoneReset_frame {P : Scope} {r s : State} (x1) (h : Fr P r s)
    (hp : P.outside 0x118000007c000 := by exact Scope.outside_mono (by assumption) (by decide)) :
    ∃ t, execZoneReset x1 s = .next t ∧ Fr P r t := by
  have hs := fun k => Scope.outside_mono (k := k) hp
  refine ⟨_, rfl, ?_⟩
  repeat' first
    | (simp (maxDischargeDepth := 99) [h, hs]; done)
    | split
    | refine State.zoneSend_frame _ _ _ (fun s n z => ?_) ?_
    | refine State.each_frame (fun s x => ?_) _ ?_
    | refine State.onlyIf_frame _ (fun s => ?_) ?_
    | simp (maxDischargeDepth := 99) [h, hs]

@[simp] theorem execReportZones_frame {P : Scope} {r s : State} (x1) (h : Fr P r s)
    (hp : P.outside 0x1000000014000 := by exact Scope.outside_mono (by assumption) (by decide)) :
    ∃ t, execReportZones x1 s = .next t ∧ Fr P r t := by
  have hs := fun k => Scope.outside_mono (k := k) hp
  refine ⟨_, rfl, ?_⟩
  (repeat' split) <;> simp (maxDischargeDepth := 99) [h, hs]

end Sys2Proof.Machine
end

