-- ==== Sys2Proof/Laws/FrameLadder.lean ====
section
/-! SUPPORT. What each operation of Machine/Ladder.lean leaves alone. -/
set_option linter.unusedSimpArgs false
set_option linter.unusedTactic false
set_option linter.unreachableTactic false
set_option linter.unnecessarySeqFocus false
namespace Sys2Proof.Machine
set_option Elab.async false

@[simp] theorem State.fwRecord_frame {P : Scope} {r s : State} (x1) (x2) (x3) (h : Fr P r s)
    (hp : P.outside 0x1000000004000 := by exact Scope.outside_mono (by assumption) (by decide)) :
    Fr P r (State.fwRecord s x1 x2 x3) := by
  have hs := fun k => Scope.outside_mono (k := k) hp
  simp (maxDischargeDepth := 99) [State.fwRecord, h, hs]

@[simp] theorem State.asyncEvent_frame {P : Scope} {r s : State} (x1) (x2) (h : Fr P r s)
    (hp : P.outside 0x1000000034000 := by exact Scope.outside_mono (by assumption) (by decide)) :
    Fr P r (State.asyncEvent s x1 x2) := by
  have hs := fun k => Scope.outside_mono (k := k) hp
  unfold State.asyncEvent
  (repeat' split) <;> simp (maxDischargeDepth := 99) [h, hs]

@[simp] theorem State.takeRx_frame {P : Scope} {r s : State} (x1) (x2) (h : Fr P r s)
    (hp : P.outside 0x20000 := by exact Scope.outside_mono (by assumption) (by decide)) :
    Fr P r (State.takeRx s x1 x2).1 := by
  have hs := fun k => Scope.outside_mono (k := k) hp
  simp (maxDischargeDepth := 99) [State.takeRx, h, hs]

@[simp] theorem State.fillClean_frame {P : Scope} {r s : State} (x1) (x2) (x3) (x4) (x5) (h : Fr P r s)
    (hp : P.outside 0x20000 := by exact Scope.outside_mono (by assumption) (by decide)) :
    Fr P r (State.fillClean s x1 x2 x3 x4 x5) := by
  have hs := fun k => Scope.outside_mono (k := k) hp
  simp (maxDischargeDepth := 99) [State.fillClean, h, hs]

@[simp] theorem State.serveAll_frame {P : Scope} {r s : State} (h : Fr P r s)
    (hp : P.outside 0x1000000034000 := by exact Scope.outside_mono (by assumption) (by decide)) :
    Fr P r (State.serveAll s) := by
  have hs := fun k => Scope.outside_mono (k := k) hp
  simp (maxDischargeDepth := 99) [State.serveAll, h, hs]

@[simp] theorem State.toHarvest_frame {P : Scope} {r s : State} (x1) (x2) (x3) (h : Fr P r s)
    (hp : P.outside 0x20000 := by exact Scope.outside_mono (by assumption) (by decide)) :
    Fr P r (State.toHarvest s x1 x2 x3) := by
  have hs := fun k => Scope.outside_mono (k := k) hp
  simp (maxDischargeDepth := 99) [State.toHarvest, h, hs]

@[simp] theorem State.freshRead_frame {P : Scope} {r s : State} (x1) (x2) (h : Fr P r s)
    (hp : P.outside 0x20000 := by exact Scope.outside_mono (by assumption) (by decide)) :
    Fr P r (State.freshRead s x1 x2) := by
  have hs := fun k => Scope.outside_mono (k := k) hp
  simp (maxDischargeDepth := 99) [State.freshRead, h, hs]

@[simp] theorem State.freshTake_frame {P : Scope} {r s : State} (x1) (x2) (x3) (x4) (h : Fr P r s)
    (hp : P.outside 0x20000 := by exact Scope.outside_mono (by assumption) (by decide)) :
    Fr P r (State.freshTake s x1 x2 x3 x4) := by
  have hs := fun k => Scope.outside_mono (k := k) hp
  simp (maxDischargeDepth := 99) [State.freshTake, h, hs]

@[simp] theorem State.freshDrop_frame {P : Scope} {r s : State} (x1) (x2) (h : Fr P r s)
    (hp : P.outside 0x20000 := by exact Scope.outside_mono (by assumption) (by decide)) :
    Fr P r (State.freshDrop s x1 x2) := by
  have hs := fun k => Scope.outside_mono (k := k) hp
  simp (maxDischargeDepth := 99) [State.freshDrop, h, hs]

@[simp] theorem State.failWrite_frame {P : Scope} {r s : State} (x1) (x2) (h : Fr P r s)
    (hp : P.outside 0x3e000118000007c5a0 := by exact Scope.outside_mono (by assumption) (by decide)) :
    Fr P r (State.failWrite s x1 x2) := by
  have hs := fun k => Scope.outside_mono (k := k) hp
  unfold State.failWrite
  repeat' first
    | (simp (maxDischargeDepth := 99) [h, hs]; done)
    | split
    | refine State.each_frame (fun s x => ?_) _ ?_
    | refine State.onlyIf_frame _ (fun s => ?_) ?_
    | simp (maxDischargeDepth := 99) [h, hs]

@[simp] theorem State.ringBroken_frame {P : Scope} {r s : State} (x1) (x2) (h : Fr P r s)
    (hp : P.outside 0x20000 := by exact Scope.outside_mono (by assumption) (by decide)) :
    Fr P r (State.ringBroken s x1 x2) := by
  have hs := fun k => Scope.outside_mono (k := k) hp
  simp (maxDischargeDepth := 99) [State.ringBroken, h, hs]

@[simp] theorem State.pinTail_frame {P : Scope} {r s : State} (x1) (x2) (h : Fr P r s)
    (hp : P.outside 0x20000 := by exact Scope.outside_mono (by assumption) (by decide)) :
    Fr P r (State.pinTail s x1 x2) := by
  have hs := fun k => Scope.outside_mono (k := k) hp
  simp (maxDischargeDepth := 99) [State.pinTail, h, hs]

@[simp] theorem State.writeLost_frame {P : Scope} {r s : State} (x1) (x2) (x3) (h : Fr P r s)
    (hp : P.outside 0x3e000118000007c5a0 := by exact Scope.outside_mono (by assumption) (by decide)) :
    Fr P r (State.writeLost s x1 x2 x3) := by
  have hs := fun k => Scope.outside_mono (k := k) hp
  unfold State.writeLost
  (repeat' split) <;> simp (maxDischargeDepth := 99) [h, hs]

@[simp] theorem State.writeAgain_frame {P : Scope} {r s : State} (x1) (x2) (x3) (h : Fr P r s)
    (hp : P.outside 0x20000 := by exact Scope.outside_mono (by assumption) (by decide)) :
    Fr P r (State.writeAgain s x1 x2 x3) := by
  have hs := fun k => Scope.outside_mono (k := k) hp
  simp (maxDischargeDepth := 99) [State.writeAgain, h, hs]

@[simp] theorem State.dropReloc_frame {P : Scope} {r s : State} (x1) (x2) (h : Fr P r s)
    (hp : P.outside 0x3e000118000007c5a0 := by exact Scope.outside_mono (by assumption) (by decide)) :
    Fr P r (State.dropReloc s x1 x2) := by
  have hs := fun k => Scope.outside_mono (k := k) hp
  unfold State.dropReloc
  repeat' first
    | (simp (maxDischargeDepth := 99) [h, hs]; done)
    | split
    | refine State.each_frame (fun s x => ?_) _ ?_
    | refine State.onlyIf_frame _ (fun s => ?_) ?_
    | simp (maxDischargeDepth := 99) [h, hs]

@[simp] theorem State.abandonReloc_frame {P : Scope} {r s : State} (x1) (x2) (h : Fr P r s)
    (hp : P.outside 0x3e000118000007c5a0 := by exact Scope.outside_mono (by assumption) (by decide)) :
    Fr P r (State.abandonReloc s x1 x2) := by
  have hs := fun k => Scope.outside_mono (k := k) hp
  unfold State.abandonReloc
  repeat' first
    | (simp (maxDischargeDepth := 99) [h, hs]; done)
    | split
    | refine State.each_frame (fun s x => ?_) _ ?_
    | refine State.onlyIf_frame _ (fun s => ?_) ?_
    | simp (maxDischargeDepth := 99) [h, hs]

@[simp] theorem State.relocSpare_frame {P : Scope} {r s : State} (x1) (x2) (h : Fr P r s)
    (hp : P.outside 0x3e000118000007c5a0 := by exact Scope.outside_mono (by assumption) (by decide)) :
    Fr P r (State.relocSpare s x1 x2) := by
  have hs := fun k => Scope.outside_mono (k := k) hp
  simp (maxDischargeDepth := 99) [State.relocSpare, h, hs]

@[simp] theorem State.relocPool_frame {P : Scope} {r s : State} (x1) (x2) (h : Fr P r s)
    (hp : P.outside 0x3e000118000007c5a0 := by exact Scope.outside_mono (by assumption) (by decide)) :
    Fr P r (State.relocPool s x1 x2) := by
  have hs := fun k => Scope.outside_mono (k := k) hp
  unfold State.relocPool
  repeat' first
    | (simp (maxDischargeDepth := 99) [h, hs]; done)
    | split
    | refine State.each_frame (fun s x => ?_) _ ?_
    | refine State.onlyIf_frame _ (fun s => ?_) ?_
    | simp (maxDischargeDepth := 99) [h, hs]

@[simp] theorem State.relocWrite_frame {P : Scope} {r s : State} (x1) (x2) (h : Fr P r s)
    (hp : P.outside 0x3e000118000007c5a0 := by exact Scope.outside_mono (by assumption) (by decide)) :
    Fr P r (State.relocWrite s x1 x2) := by
  have hs := fun k => Scope.outside_mono (k := k) hp
  unfold State.relocWrite
  repeat' first
    | (simp (maxDischargeDepth := 99) [h, hs]; done)
    | split
    | refine State.each_frame (fun s x => ?_) _ ?_
    | refine State.onlyIf_frame _ (fun s => ?_) ?_
    | simp (maxDischargeDepth := 99) [h, hs]

@[simp] theorem State.relocNext_frame {P : Scope} {r s : State} (x1) (x2) (h : Fr P r s)
    (hp : P.outside 0x3e000118000007c5a0 := by exact Scope.outside_mono (by assumption) (by decide)) :
    Fr P r (State.relocNext s x1 x2) := by
  have hs := fun k => Scope.outside_mono (k := k) hp
  induction x2 generalizing s with
  | zero => exact h
  | succ n ih =>
    rw [State.relocNext]
    split
    · exact h
    split
    · refine ih ?_
      split <;> simp (maxDischargeDepth := 99) [h, hs]
    · exact h

@[simp] theorem State.relocate_frame {P : Scope} {r s : State} (x1) (x2) (x3) (x4) (x5) (x6) (x7) (x8) (h : Fr P r s)
    (hp : P.outside 0x3e000118000007c5a0 := by exact Scope.outside_mono (by assumption) (by decide)) :
    Fr P r (State.relocate s x1 x2 x3 x4 x5 x6 x7 x8) := by
  have hs := fun k => Scope.outside_mono (k := k) hp
  unfold State.relocate
  (repeat' split) <;> simp (maxDischargeDepth := 99) [h, hs]

@[simp] theorem State.findNext_frame {P : Scope} {r s : State} (x1) (x2) (x3) (h : Fr P r s)
    (hp : P.outside 0x20000 := by exact Scope.outside_mono (by assumption) (by decide)) :
    Fr P r (State.findNext s x1 x2 x3) := by
  have hs := fun k => Scope.outside_mono (k := k) hp
  simp (maxDischargeDepth := 99) [State.findNext, h, hs]

@[simp] theorem State.refound_frame {P : Scope} {r s : State} (x1) (x2) (x3) (x4) (h : Fr P r s)
    (hp : P.outside 0x20000 := by exact Scope.outside_mono (by assumption) (by decide)) :
    Fr P r (State.refound s x1 x2 x3 x4) := by
  have hs := fun k => Scope.outside_mono (k := k) hp
  simp (maxDischargeDepth := 99) [State.refound, h, hs]

@[simp] theorem State.findAll_frame {P : Scope} {r s : State} (h : Fr P r s)
    (hp : P.outside 0x20000 := by exact Scope.outside_mono (by assumption) (by decide)) :
    Fr P r (State.findAll s) := by
  have hs := fun k => Scope.outside_mono (k := k) hp
  unfold State.findAll
  repeat' first
    | (simp (maxDischargeDepth := 99) [h, hs]; done)
    | split
    | refine State.each_frame (fun s x => ?_) _ ?_
    | refine State.onlyIf_frame _ (fun s => ?_) ?_
    | simp (maxDischargeDepth := 99) [h, hs]

@[simp] theorem State.setLadder_frame {P : Scope} {r s : State} (x1) (h : Fr P r s)
    (hp : P.outside 0x20000 := by exact Scope.outside_mono (by assumption) (by decide)) :
    Fr P r (State.setLadder s x1) := by
  have hs := fun k => Scope.outside_mono (k := k) hp
  simp (maxDischargeDepth := 99) [State.setLadder, h, hs]

@[simp] theorem State.ladderWait_frame {P : Scope} {r s : State} (x1) (x2) (h : Fr P r s)
    (hp : P.outside 0x20000 := by exact Scope.outside_mono (by assumption) (by decide)) :
    Fr P r (State.ladderWait s x1 x2) := by
  have hs := fun k => Scope.outside_mono (k := k) hp
  simp (maxDischargeDepth := 99) [State.ladderWait, h, hs]

@[simp] theorem State.ladderGone_frame {P : Scope} {r s : State} (x1) (h : Fr P r s)
    (hp : P.outside 0x20000 := by exact Scope.outside_mono (by assumption) (by decide)) :
    Fr P r (State.ladderGone s x1) := by
  have hs := fun k => Scope.outside_mono (k := k) hp
  simp (maxDischargeDepth := 99) [State.ladderGone, h, hs]

@[simp] theorem State.ladderRecord_frame {P : Scope} {r s : State} (x1) (x2) (h : Fr P r s)
    (hp : P.outside 0x1000000004000 := by exact Scope.outside_mono (by assumption) (by decide)) :
    Fr P r (State.ladderRecord s x1 x2) := by
  have hs := fun k => Scope.outside_mono (k := k) hp
  simp (maxDischargeDepth := 99) [State.ladderRecord, h, hs]

@[simp] theorem State.jubStripe_frame {P : Scope} {r s : State} (x1) (x2) (x3) (x4) (x5) (h : Fr P r s)
    (hp : P.outside 0x40000 := by exact Scope.outside_mono (by assumption) (by decide)) :
    Fr P r (State.jubStripe s x1 x2 x3 x4 x5) := by
  have hs := fun k => Scope.outside_mono (k := k) hp
  simp (maxDischargeDepth := 99) [State.jubStripe, h, hs]

@[simp] theorem State.rewriteInner_frame {P : Scope} {r s : State} (x1) (x2) (x3) (x4) (h : Fr P r s)
    (hp : P.outside 0x20000 := by exact Scope.outside_mono (by assumption) (by decide)) :
    Fr P r (State.rewriteInner s x1 x2 x3 x4) := by
  have hs := fun k => Scope.outside_mono (k := k) hp
  simp (maxDischargeDepth := 99) [State.rewriteInner, h, hs]

@[simp] theorem State.ladderMove_frame {P : Scope} {r s : State} (x1) (x2) (x3) (h : Fr P r s)
    (hp : P.outside 0x3e000118000007c5a0 := by exact Scope.outside_mono (by assumption) (by decide)) :
    Fr P r (State.ladderMove s x1 x2 x3) := by
  have hs := fun k => Scope.outside_mono (k := k) hp
  simp (maxDischargeDepth := 99) [State.ladderMove, h, hs]

@[simp] theorem State.keepGood_frame {P : Scope} {r s : State} (x1) (x2) (h : Fr P r s)
    (hp : P.outside 0x20000 := by exact Scope.outside_mono (by assumption) (by decide)) :
    Fr P r (State.keepGood s x1 x2) := by
  have hs := fun k => Scope.outside_mono (k := k) hp
  unfold State.keepGood
  (repeat' split) <;> simp (maxDischargeDepth := 99) [h, hs]

@[simp] theorem State.ladderOk_frame {P : Scope} {r s : State} (x1) (x2) (x3) (h : Fr P r s)
    (hp : P.outside 0x3e000118000007c5a0 := by exact Scope.outside_mono (by assumption) (by decide)) :
    Fr P r (State.ladderOk s x1 x2 x3) := by
  have hs := fun k => Scope.outside_mono (k := k) hp
  unfold State.ladderOk
  repeat' first
    | (simp (maxDischargeDepth := 99) [h, hs]; done)
    | split
    | refine State.each_frame (fun s x => ?_) _ ?_
    | refine State.onlyIf_frame _ (fun s => ?_) ?_
    | simp (maxDischargeDepth := 99) [h, hs]

@[simp] theorem State.loseLbas_frame {P : Scope} {r s : State} (x1) (x2) (x3) (h : Fr P r s)
    (hp : P.outside 0x10000 := by exact Scope.outside_mono (by assumption) (by decide)) :
    Fr P r (State.loseLbas s x1 x2 x3) := by
  have hs := fun k => Scope.outside_mono (k := k) hp
  unfold State.loseLbas
  (repeat' split) <;> simp (maxDischargeDepth := 99) [h, hs]

@[simp] theorem State.loseJubStripe_frame {P : Scope} {r s : State} (x1) (h : Fr P r s)
    (hp : P.outside 0x40000 := by exact Scope.outside_mono (by assumption) (by decide)) :
    Fr P r (State.loseJubStripe s x1) := by
  have hs := fun k => Scope.outside_mono (k := k) hp
  unfold State.loseJubStripe
  (repeat' split) <;> simp (maxDischargeDepth := 99) [h, hs]

@[simp] theorem State.ladderFail_frame {P : Scope} {r s : State} (x1) (x2) (h : Fr P r s)
    (hp : P.outside 0x1000000074000 := by exact Scope.outside_mono (by assumption) (by decide)) :
    Fr P r (State.ladderFail s x1 x2) := by
  have hs := fun k => Scope.outside_mono (k := k) hp
  simp (maxDischargeDepth := 99) [State.ladderFail, h, hs]

@[simp] theorem State.ladderRelease_frame {P : Scope} {r s : State} (x1) (x2) (x3) (x4) (x5) (h : Fr P r s)
    (hp : P.outside 0x20000 := by exact Scope.outside_mono (by assumption) (by decide)) :
    Fr P r (State.ladderRelease s x1 x2 x3 x4 x5) := by
  have hs := fun k => Scope.outside_mono (k := k) hp
  simp (maxDischargeDepth := 99) [State.ladderRelease, h, hs]

@[simp] theorem State.ladderEnd_frame {P : Scope} {r s : State} (x1) (x2) (x3) (h : Fr P r s)
    (hp : P.outside 0x3e000118000007c5a0 := by exact Scope.outside_mono (by assumption) (by decide)) :
    Fr P r (State.ladderEnd s x1 x2 x3) := by
  have hs := fun k => Scope.outside_mono (k := k) hp
  simp (maxDischargeDepth := 99) [State.ladderEnd, h, hs]

@[simp] theorem State.ladderGo_frame {P : Scope} {r s : State} (x1) (x2) (x3) (x4) (h : Fr P r s)
    (hp : P.outside 0x3e000118000007c5a0 := by exact Scope.outside_mono (by assumption) (by decide)) :
    Fr P r (State.ladderGo s x1 x2 x3 x4) := by
  have hs := fun k => Scope.outside_mono (k := k) hp
  fun_induction State.ladderGo <;> simp_all (maxDischargeDepth := 99)

@[simp] theorem State.ladderTurn_frame {P : Scope} {r s : State} (x1) (x2) (x3) (h : Fr P r s)
    (hp : P.outside 0x3e000118000007c5a0 := by exact Scope.outside_mono (by assumption) (by decide)) :
    Fr P r (State.ladderTurn s x1 x2 x3) := by
  have hs := fun k => Scope.outside_mono (k := k) hp
  simp (maxDischargeDepth := 99) [State.ladderTurn, h, hs]

@[simp] theorem State.ladderWake_frame {P : Scope} {r s : State} (h : Fr P r s)
    (hp : P.outside 0x3e000118000007c5a0 := by exact Scope.outside_mono (by assumption) (by decide)) :
    Fr P r (State.ladderWake s) := by
  have hs := fun k => Scope.outside_mono (k := k) hp
  unfold State.ladderWake
  repeat' first
    | (simp (maxDischargeDepth := 99) [h, hs]; done)
    | split
    | refine State.each_frame (fun s x => ?_) _ ?_
    | refine State.onlyIf_frame _ (fun s => ?_) ?_
    | simp (maxDischargeDepth := 99) [h, hs]

@[simp] theorem State.ladderMerge_frame {P : Scope} {r s : State} (x1) (x2) (x3) (x4) (x5) (h : Fr P r s)
    (hp : P.outside 0x20000 := by exact Scope.outside_mono (by assumption) (by decide)) :
    Fr P r (State.ladderMerge s x1 x2 x3 x4 x5) := by
  have hs := fun k => Scope.outside_mono (k := k) hp
  simp (maxDischargeDepth := 99) [State.ladderMerge, h, hs]

@[simp] theorem State.ladderStart_frame {P : Scope} {r s : State} (x1) (x2) (x3) (x4) (x5) (x6) (h : Fr P r s)
    (hp : P.outside 0x3e000118000007c5a0 := by exact Scope.outside_mono (by assumption) (by decide)) :
    Fr P r (State.ladderStart s x1 x2 x3 x4 x5 x6) := by
  have hs := fun k => Scope.outside_mono (k := k) hp
  simp (maxDischargeDepth := 99) [State.ladderStart, h, hs]

@[simp] theorem State.rungDone_frame {P : Scope} {r s : State} (x1) (x2) (x3) (x4) (h : Fr P r s)
    (hp : P.outside 0x3e000118000007c5a0 := by exact Scope.outside_mono (by assumption) (by decide)) :
    Fr P r (State.rungDone s x1 x2 x3 x4) := by
  have hs := fun k => Scope.outside_mono (k := k) hp
  unfold State.rungDone
  repeat' first
    | (simp (maxDischargeDepth := 99) [h, hs]; done)
    | split
    | refine State.each_frame (fun s x => ?_) _ ?_
    | refine State.onlyIf_frame _ (fun s => ?_) ?_
    | simp (maxDischargeDepth := 99) [h, hs]

@[simp] theorem State.ladderRebuilt_frame {P : Scope} {r s : State} (x1) (x2) (h : Fr P r s)
    (hp : P.outside 0x3e000118000007c5a0 := by exact Scope.outside_mono (by assumption) (by decide)) :
    Fr P r (State.ladderRebuilt s x1 x2) := by
  have hs := fun k => Scope.outside_mono (k := k) hp
  unfold State.ladderRebuilt
  (repeat' split) <;> simp (maxDischargeDepth := 99) [h, hs]

@[simp] theorem execParityDone_frame {P : Scope} {r s : State} (x1) (h : Fr P r s)
    (hp : P.outside 0x3e0001f8001007fda0 := by exact Scope.outside_mono (by assumption) (by decide)) :
    ∃ t, execParityDone x1 s = .next t ∧ Fr P r t := by
  have hs := fun k => Scope.outside_mono (k := k) hp
  refine ⟨_, rfl, ?_⟩
  split
  · exact h
  split
  · exact h
  dsimp only
  have h1 := State.parityRun_frame (P := P) (r := r) (s := s) ‹_› x1 h (hs _ (by decide))
  simp (maxDischargeDepth := 99) [h1, hs]

end Sys2Proof.Machine
end

