-- ==== Sys2Proof/Laws/FrameDone.lean ====
section
/-! SUPPORT. What each operation of Machine/Done.lean leaves alone. -/
set_option linter.unusedSimpArgs false
set_option linter.unusedTactic false
set_option linter.unreachableTactic false
set_option linter.unnecessarySeqFocus false
namespace Sys2Proof.Machine
set_option Elab.async false

@[simp] theorem State.setHarv_frame {P : Scope} {r s : State} (x1) (x2) (h : Fr P r s)
    (hp : P.outside 0x20000 := by exact Scope.outside_mono (by assumption) (by decide)) :
    Fr P r (State.setHarv s x1 x2) := by
  have hs := fun k => Scope.outside_mono (k := k) hp
  simp (maxDischargeDepth := 99) [State.setHarv, h, hs]

@[simp] theorem State.recordClass_frame {P : Scope} {r s : State} (x1) (x2) (x3) (x4) (x5) (h : Fr P r s)
    (hp : P.outside 0x20000 := by exact Scope.outside_mono (by assumption) (by decide)) :
    Fr P r (State.recordClass s x1 x2 x3 x4 x5) := by
  have hs := fun k => Scope.outside_mono (k := k) hp
  simp (maxDischargeDepth := 99) [State.recordClass, h, hs]

@[simp] theorem State.refreshDue_frame {P : Scope} {r s : State} (x1) (h : Fr P r s)
    (hp : P.outside 0x1000000024000 := by exact Scope.outside_mono (by assumption) (by decide)) :
    Fr P r (State.refreshDue s x1) := by
  have hs := fun k => Scope.outside_mono (k := k) hp
  unfold State.refreshDue
  repeat' first
    | (simp (maxDischargeDepth := 99) [h, hs]; done)
    | split
    | refine State.each_frame (fun s x => ?_) _ ?_
    | refine State.onlyIf_frame _ (fun s => ?_) ?_
    | simp (maxDischargeDepth := 99) [h, hs]

@[simp] theorem State.weakConv_frame {P : Scope} {r s : State} (x1) (x2) (x3) (x4) (h : Fr P r s)
    (hp : P.outside 0x20000 := by exact Scope.outside_mono (by assumption) (by decide)) :
    Fr P r (State.weakConv s x1 x2 x3 x4) := by
  have hs := fun k => Scope.outside_mono (k := k) hp
  simp (maxDischargeDepth := 99) [State.weakConv, h, hs]

@[simp] theorem State.reissue_frame {P : Scope} {r s : State} (x1) (h : Fr P r s)
    (hp : P.outside 0x20000 := by exact Scope.outside_mono (by assumption) (by decide)) :
    Fr P r (State.reissue s x1) := by
  have hs := fun k => Scope.outside_mono (k := k) hp
  simp (maxDischargeDepth := 99) [State.reissue, h, hs]

@[simp] theorem State.readNoted_frame {P : Scope} {r s : State} (x1) (x2) (x3) (x4) (x5) (h : Fr P r s)
    (hp : P.outside 0x20000 := by exact Scope.outside_mono (by assumption) (by decide)) :
    Fr P r (State.readNoted s x1 x2 x3 x4 x5) := by
  have hs := fun k => Scope.outside_mono (k := k) hp
  simp (maxDischargeDepth := 99) [State.readNoted, h, hs]

@[simp] theorem State.readGood_frame {P : Scope} {r s : State} (x1) (x2) (x3) (x4) (x5) (h : Fr P r s)
    (hp : P.outside 0x1000000074000 := by exact Scope.outside_mono (by assumption) (by decide)) :
    Fr P r (State.readGood s x1 x2 x3 x4 x5) := by
  have hs := fun k => Scope.outside_mono (k := k) hp
  unfold State.readGood
  (repeat' split) <;> simp (maxDischargeDepth := 99) [h, hs]

@[simp] theorem State.readEnded_frame {P : Scope} {r s : State} (x1) (x2) (x3) (x4) (h : Fr P r s)
    (hp : P.outside 0x3e000118000007c5a0 := by exact Scope.outside_mono (by assumption) (by decide)) :
    Fr P r (State.readEnded s x1 x2 x3 x4) := by
  have hs := fun k => Scope.outside_mono (k := k) hp
  simp (maxDischargeDepth := 99) [State.readEnded, h, hs]

@[simp] theorem State.readDone_frame {P : Scope} {r s : State} (x1) (x2) (h : Fr P r s)
    (hp : P.outside 0x3e000118000007c5a0 := by exact Scope.outside_mono (by assumption) (by decide)) :
    Fr P r (State.readDone s x1 x2) := by
  have hs := fun k => Scope.outside_mono (k := k) hp
  unfold State.readDone
  repeat' first
    | (simp (maxDischargeDepth := 99) [h, hs]; done)
    | split
    | refine State.each_frame (fun s x => ?_) _ ?_
    | refine State.onlyIf_frame _ (fun s => ?_) ?_
    | simp (maxDischargeDepth := 99) [h, hs]

@[simp] theorem State.releaseBelow_frame {P : Scope} {r s : State} (x1) (x2) (x3) (h : Fr P r s)
    (hp : P.outside 0x20000 := by exact Scope.outside_mono (by assumption) (by decide)) :
    Fr P r (State.releaseBelow s x1 x2 x3) := by
  have hs := fun k => Scope.outside_mono (k := k) hp
  simp (maxDischargeDepth := 99) [State.releaseBelow, h, hs]

@[simp] theorem State.bandVerified_frame {P : Scope} {r s : State} (x1) (x2) (x3) (x4) (h : Fr P r s)
    (hp : P.outside 0x30000 := by exact Scope.outside_mono (by assumption) (by decide)) :
    Fr P r (State.bandVerified s x1 x2 x3 x4) := by
  have hs := fun k => Scope.outside_mono (k := k) hp
  simp (maxDischargeDepth := 99) [State.bandVerified, h, hs]

@[simp] theorem State.failWriters_frame {P : Scope} {r s : State} (x1) (x2) (x3) (h : Fr P r s)
    (hp : P.outside 0x110000001c000 := by exact Scope.outside_mono (by assumption) (by decide)) :
    Fr P r (State.failWriters s x1 x2 x3) := by
  have hs := fun k => Scope.outside_mono (k := k) hp
  simp (maxDischargeDepth := 99) [State.failWriters, h, hs]

@[simp] theorem State.sealZone_frame {P : Scope} {r s : State} (x1) (x2) (x3) (h : Fr P r s)
    (hp : P.outside 0x3e000118000007c5a0 := by exact Scope.outside_mono (by assumption) (by decide)) :
    Fr P r (State.sealZone s x1 x2 x3) := by
  have hs := fun k => Scope.outside_mono (k := k) hp
  unfold State.sealZone
  repeat' first
    | (simp (maxDischargeDepth := 99) [h, hs]; done)
    | split
    | refine State.each_frame (fun s x => ?_) _ ?_
    | refine State.onlyIf_frame _ (fun s => ?_) ?_
    | simp (maxDischargeDepth := 99) [h, hs]

@[simp] theorem State.bandRelocated_frame {P : Scope} {r s : State} (x1) (x2) (x3) (x4) (h : Fr P r s)
    (hp : P.outside 0x3e000118000007c5a0 := by exact Scope.outside_mono (by assumption) (by decide)) :
    Fr P r (State.bandRelocated s x1 x2 x3 x4) := by
  have hs := fun k => Scope.outside_mono (k := k) hp
  simp (maxDischargeDepth := 99) [State.bandRelocated, h, hs]

@[simp] theorem State.reloadHeads_frame {P : Scope} {r s : State} (x1) (h : Fr P r s)
    (hp : P.outside 0x200000000010000080 := by exact Scope.outside_mono (by assumption) (by decide)) :
    Fr P r (State.reloadHeads s x1) := by
  have hs := fun k => Scope.outside_mono (k := k) hp
  simp (maxDischargeDepth := 99) [State.reloadHeads, h, hs]

@[simp] theorem State.bandDone_frame {P : Scope} {r s : State} (x1) (x2) (x3) (h : Fr P r s)
    (hp : P.outside 0x3e7f8138311207e5f6 := by exact Scope.outside_mono (by assumption) (by decide)) :
    Fr P r (State.bandDone s x1 x2 x3) := by
  have hs := fun k => Scope.outside_mono (k := k) hp
  unfold State.bandDone
  (repeat' split) <;> simp (maxDischargeDepth := 99) [h, hs]

@[simp] theorem State.keysVerified_frame {P : Scope} {r s : State} (x1) (h : Fr P r s)
    (hp : P.outside 0x30000 := by exact Scope.outside_mono (by assumption) (by decide)) :
    Fr P r (State.keysVerified s x1) := by
  have hs := fun k => Scope.outside_mono (k := k) hp
  simp (maxDischargeDepth := 99) [State.keysVerified, h, hs]

@[simp] theorem State.renewed_frame {P : Scope} {r s : State} (x1) (x2) (x3) (x4) (h : Fr P r s)
    (hp : P.outside 0x20000 := by exact Scope.outside_mono (by assumption) (by decide)) :
    Fr P r (State.renewed s x1 x2 x3 x4) := by
  have hs := fun k => Scope.outside_mono (k := k) hp
  simp (maxDischargeDepth := 99) [State.renewed, h, hs]

@[simp] theorem State.convVerified_frame {P : Scope} {r s : State} (x1) (x2) (x3) (x4) (x5) (h : Fr P r s)
    (hp : P.outside 0x1000000034000 := by exact Scope.outside_mono (by assumption) (by decide)) :
    Fr P r (State.convVerified s x1 x2 x3 x4 x5) := by
  have hs := fun k => Scope.outside_mono (k := k) hp
  simp (maxDischargeDepth := 99) [State.convVerified, h, hs]

@[simp] theorem State.ringVerified_frame {P : Scope} {r s : State} (x1) (x2) (x3) (h : Fr P r s)
    (hp : P.outside 0x1000000034000 := by exact Scope.outside_mono (by assumption) (by decide)) :
    Fr P r (State.ringVerified s x1 x2 x3) := by
  have hs := fun k => Scope.outside_mono (k := k) hp
  unfold State.ringVerified
  dsimp only
  refine State.settle_frame (State.ringAdvance_frame _ (State.each_frame (fun s x => ?_) _ ?_) (hs _ (by decide))) (hs _ (by decide))
  · split
    · refine State.onlyIf_frame _ (fun s => ?_) (Fr.refl _)
      simp (maxDischargeDepth := 99) [hs]
    · exact Fr.refl _
  · simp (maxDischargeDepth := 99) [h, hs]

@[simp] theorem State.writeRefused_frame {P : Scope} {r s : State} (x1) (x2) (h : Fr P r s)
    (hp : P.outside 0x3e000118000007c5a0 := by exact Scope.outside_mono (by assumption) (by decide)) :
    Fr P r (State.writeRefused s x1 x2) := by
  have hs := fun k => Scope.outside_mono (k := k) hp
  simp (maxDischargeDepth := 99) [State.writeRefused, h, hs]

@[simp] theorem State.convDone_frame {P : Scope} {r s : State} (x1) (x2) (h : Fr P r s)
    (hp : P.outside 0x3e000118000007c5a0 := by exact Scope.outside_mono (by assumption) (by decide)) :
    Fr P r (State.convDone s x1 x2) := by
  have hs := fun k => Scope.outside_mono (k := k) hp
  unfold State.convDone
  (repeat' split) <;> simp (maxDischargeDepth := 99) [h, hs]

@[simp] theorem State.ringDone_frame {P : Scope} {r s : State} (x1) (x2) (h : Fr P r s)
    (hp : P.outside 0x3e000118000007c5a0 := by exact Scope.outside_mono (by assumption) (by decide)) :
    Fr P r (State.ringDone s x1 x2) := by
  have hs := fun k => Scope.outside_mono (k := k) hp
  simp (maxDischargeDepth := 99) [State.ringDone, h, hs]

@[simp] theorem State.freshSave_frame {P : Scope} {r s : State} (x1) (x2) (h : Fr P r s)
    (hp : P.outside 0x20000 := by exact Scope.outside_mono (by assumption) (by decide)) :
    Fr P r (State.freshSave s x1 x2) := by
  have hs := fun k => Scope.outside_mono (k := k) hp
  simp (maxDischargeDepth := 99) [State.freshSave, h, hs]

@[simp] theorem State.copySaved_frame {P : Scope} {r s : State} (x1) (x2) (x3) (h : Fr P r s)
    (hp : P.outside 0x20000 := by exact Scope.outside_mono (by assumption) (by decide)) :
    Fr P r (State.copySaved s x1 x2 x3) := by
  have hs := fun k => Scope.outside_mono (k := k) hp
  simp (maxDischargeDepth := 99) [State.copySaved, h, hs]

@[simp] theorem State.copyDone_frame {P : Scope} {r s : State} (x1) (x2) (h : Fr P r s)
    (hp : P.outside 0x3e000118000007c5a0 := by exact Scope.outside_mono (by assumption) (by decide)) :
    Fr P r (State.copyDone s x1 x2) := by
  have hs := fun k => Scope.outside_mono (k := k) hp
  unfold State.copyDone
  (repeat' split) <;> simp (maxDischargeDepth := 99) [h, hs]

@[simp] theorem State.mirrorSafe_frame {P : Scope} {r s : State} (x1) (x2) (h : Fr P r s)
    (hp : P.outside 0x4000000 := by exact Scope.outside_mono (by assumption) (by decide)) :
    Fr P r (State.mirrorSafe s x1 x2) := by
  have hs := fun k => Scope.outside_mono (k := k) hp
  simp (maxDischargeDepth := 99) [State.mirrorSafe, h, hs]

@[simp] theorem State.relocated_frame {P : Scope} {r s : State} (x1) (x2) (h : Fr P r s)
    (hp : P.outside 0x20000 := by exact Scope.outside_mono (by assumption) (by decide)) :
    Fr P r (State.relocated s x1 x2) := by
  have hs := fun k => Scope.outside_mono (k := k) hp
  unfold State.relocated
  (repeat' split) <;> simp (maxDischargeDepth := 99) [h, hs]

@[simp] theorem State.relocServed_frame {P : Scope} {r s : State} (x1) (x2) (x3) (h : Fr P r s)
    (hp : P.outside 0x1000004034000 := by exact Scope.outside_mono (by assumption) (by decide)) :
    Fr P r (State.relocServed s x1 x2 x3) := by
  have hs := fun k => Scope.outside_mono (k := k) hp
  unfold State.relocServed
  (repeat' split) <;> simp (maxDischargeDepth := 99) [h, hs]

@[simp] theorem State.relocDone_frame {P : Scope} {r s : State} (x1) (x2) (h : Fr P r s)
    (hp : P.outside 0x3e000118000407c5a0 := by exact Scope.outside_mono (by assumption) (by decide)) :
    Fr P r (State.relocDone s x1 x2) := by
  have hs := fun k => Scope.outside_mono (k := k) hp
  unfold State.relocDone
  (repeat' split) <;> simp (maxDischargeDepth := 99) [h, hs]

@[simp] theorem State.refreshDone_frame {P : Scope} {r s : State} (x1) (x2) (x3) (h : Fr P r s)
    (hp : P.outside 0x1000000024000 := by exact Scope.outside_mono (by assumption) (by decide)) :
    Fr P r (State.refreshDone s x1 x2 x3) := by
  have hs := fun k => Scope.outside_mono (k := k) hp
  unfold State.refreshDone
  (repeat' split) <;> simp (maxDischargeDepth := 99) [h, hs]

@[simp] theorem State.drainSectors_frame {P : Scope} {r s : State} (x1) (x2) (h : Fr P r s)
    (hp : P.outside 0x1000010024000 := by exact Scope.outside_mono (by assumption) (by decide)) :
    Fr P r (State.drainSectors s x1 x2) := by
  have hs := fun k => Scope.outside_mono (k := k) hp
  fun_induction State.drainSectors <;> simp_all (maxDischargeDepth := 99)

@[simp] theorem State.dutySpent_frame {P : Scope} {r s : State} (x1) (h : Fr P r s)
    (hp : P.outside 0x20000 := by exact Scope.outside_mono (by assumption) (by decide)) :
    Fr P r (State.dutySpent s x1) := by
  have hs := fun k => Scope.outside_mono (k := k) hp
  simp (maxDischargeDepth := 99) [State.dutySpent, h, hs]

@[simp] theorem State.refCapture_frame {P : Scope} {r s : State} (x1) (x2) (h : Fr P r s)
    (hp : P.outside 0x2020000 := by exact Scope.outside_mono (by assumption) (by decide)) :
    Fr P r (State.refCapture s x1 x2) := by
  have hs := fun k => Scope.outside_mono (k := k) hp
  unfold State.refCapture
  repeat' first
    | (simp (maxDischargeDepth := 99) [h, hs]; done)
    | split
    | refine State.each_frame (fun s x => ?_) _ ?_
    | refine State.onlyIf_frame _ (fun s => ?_) ?_
    | simp (maxDischargeDepth := 99) [h, hs]

@[simp] theorem State.jobDone_frame {P : Scope} {r s : State} (x1) (x2) (h : Fr P r s)
    (hp : P.outside 0x3e7f8138311607e5f6 := by exact Scope.outside_mono (by assumption) (by decide)) :
    Fr P r (State.jobDone s x1 x2) := by
  have hs := fun k => Scope.outside_mono (k := k) hp
  unfold State.jobDone
  repeat' first
    | (simp (maxDischargeDepth := 99) [h, hs]; done)
    | split
    | refine State.each_frame (fun s x => ?_) _ ?_
    | refine State.onlyIf_frame _ (fun s => ?_) ?_
    | simp (maxDischargeDepth := 99) [h, hs]

@[simp] theorem execFirmwareMopCompletion_frame {P : Scope} {r s : State} (x1) (h : Fr P r s)
    (hp : P.outside 0x3e7f8138311607e5f6 := by exact Scope.outside_mono (by assumption) (by decide)) :
    ∃ t, execFirmwareMopCompletion x1 s = .next t ∧ Fr P r t := by
  have hs := fun k => Scope.outside_mono (k := k) hp
  refine ⟨_, rfl, ?_⟩
  repeat' first
    | (simp (maxDischargeDepth := 99) [h, hs]; done)
    | split
    | refine State.each_frame (fun s x => ?_) _ ?_
    | refine State.onlyIf_frame _ (fun s => ?_) ?_
    | simp (maxDischargeDepth := 99) [h, hs]

@[simp] theorem State.passEnd_frame {P : Scope} {r s : State} (x1) (h : Fr P r s)
    (hp : P.outside 0x1000000024000 := by exact Scope.outside_mono (by assumption) (by decide)) :
    Fr P r (State.passEnd s x1) := by
  have hs := fun k => Scope.outside_mono (k := k) hp
  simp (maxDischargeDepth := 99) [State.passEnd, h, hs]

end Sys2Proof.Machine
end

