-- ==== Sys2Proof/Laws/FrameHarvest.lean ====
section
/-! SUPPORT. What each operation of Machine/Harvest.lean leaves alone. -/
set_option linter.unusedSimpArgs false
set_option linter.unusedTactic false
set_option linter.unreachableTactic false
set_option linter.unnecessarySeqFocus false
namespace Sys2Proof.Machine
set_option Elab.async false

@[simp] theorem State.setJub_frame {P : Scope} {r s : State} (x1) (x2) (h : Fr P r s)
    (hp : P.outside 0x40000 := by exact Scope.outside_mono (by assumption) (by decide)) :
    Fr P r (State.setJub s x1 x2) := by
  have hs := fun k => Scope.outside_mono (k := k) hp
  simp (maxDischargeDepth := 99) [State.setJub, h, hs]

@[simp] theorem State.modJub_frame {P : Scope} {r s : State} (x1) (x2) (h : Fr P r s)
    (hp : P.outside 0x40000 := by exact Scope.outside_mono (by assumption) (by decide)) :
    Fr P r (State.modJub s x1 x2) := by
  have hs := fun k => Scope.outside_mono (k := k) hp
  simp (maxDischargeDepth := 99) [State.modJub, h, hs]

@[simp] theorem State.catchupAlarm_frame {P : Scope} {r s : State} (h : Fr P r s)
    (hp : P.outside 0x7fffffffffff80006001 := by exact Scope.outside_mono (by assumption) (by decide)) :
    Fr P r (State.catchupAlarm s) := by
  have hs := fun k => Scope.outside_mono (k := k) hp
  simp (maxDischargeDepth := 99) [State.catchupAlarm, h, hs]

@[simp] theorem State.captureJob_frame {P : Scope} {r s : State} (x1) (x2) (h : Fr P r s)
    (hp : P.outside 0x20000 := by exact Scope.outside_mono (by assumption) (by decide)) :
    Fr P r (State.captureJob s x1 x2) := by
  have hs := fun k => Scope.outside_mono (k := k) hp
  simp (maxDischargeDepth := 99) [State.captureJob, h, hs]

@[simp] theorem State.loadRefs_frame {P : Scope} {r s : State} (x1) (x2) (h : Fr P r s)
    (hp : P.outside 0x780000000000010 := by exact Scope.outside_mono (by assumption) (by decide)) :
    Fr P r (State.loadRefs s x1 x2) := by
  have hs := fun k => Scope.outside_mono (k := k) hp
  unfold State.loadRefs
  (repeat' split) <;> simp (maxDischargeDepth := 99) [h, hs]

@[simp] theorem State.harvestRead_frame {P : Scope} {r s : State} (x1) (x2) (x3) (x4) (h : Fr P r s)
    (hp : P.outside 0x780000000020010 := by exact Scope.outside_mono (by assumption) (by decide)) :
    Fr P r (State.harvestRead s x1 x2 x3 x4) := by
  have hs := fun k => Scope.outside_mono (k := k) hp
  simp (maxDischargeDepth := 99) [State.harvestRead, h, hs]

@[simp] theorem State.deferredDue_frame {P : Scope} {r s : State} (x1) (h : Fr P r s)
    (hp : P.outside 0x1000000024000 := by exact Scope.outside_mono (by assumption) (by decide)) :
    Fr P r (State.deferredDue s x1) := by
  have hs := fun k => Scope.outside_mono (k := k) hp
  simp (maxDischargeDepth := 99) [State.deferredDue, h, hs]

@[simp] theorem State.harvestNext_frame {P : Scope} {r s : State} (x1) (h : Fr P r s)
    (hp : P.outside 0x781000000024010 := by exact Scope.outside_mono (by assumption) (by decide)) :
    Fr P r (State.harvestNext s x1) := by
  have hs := fun k => Scope.outside_mono (k := k) hp
  unfold State.harvestNext
  repeat' first
    | (simp (maxDischargeDepth := 99) [h, hs]; done)
    | split
    | refine State.each_frame (fun s x => ?_) _ ?_
    | refine State.onlyIf_frame _ (fun s => ?_) ?_
    | simp (maxDischargeDepth := 99) [h, hs]

@[simp] theorem execHarvestReadIssue_frame {P : Scope} {r s : State} (x1) (h : Fr P r s)
    (hp : P.outside 0x7fffffffffff80026011 := by exact Scope.outside_mono (by assumption) (by decide)) :
    ∃ t, execHarvestReadIssue x1 s = .next t ∧ Fr P r t := by
  have hs := fun k => Scope.outside_mono (k := k) hp
  refine ⟨_, rfl, ?_⟩
  repeat' first
    | (simp (maxDischargeDepth := 99) [h, hs]; done)
    | split
    | refine State.each_frame (fun s x => ?_) _ ?_
    | refine State.onlyIf_frame _ (fun s => ?_) ?_
    | simp (maxDischargeDepth := 99) [h, hs]

@[simp] theorem execHarvestPassOverdue_frame {P : Scope} {r s : State} (x1) (h : Fr P r s)
    (hp : P.outside 0x1000000024000 := by exact Scope.outside_mono (by assumption) (by decide)) :
    ∃ t, execHarvestPassOverdue x1 s = .next t ∧ Fr P r t := by
  have hs := fun k => Scope.outside_mono (k := k) hp
  exact ⟨_, rfl, by simp (maxDischargeDepth := 99) [h, hs]⟩

@[simp] theorem State.refreshOver_frame {P : Scope} {r s : State} (x1) (x2) (h : Fr P r s)
    (hp : P.outside 0x20000 := by exact Scope.outside_mono (by assumption) (by decide)) :
    Fr P r (State.refreshOver s x1 x2) := by
  have hs := fun k => Scope.outside_mono (k := k) hp
  simp (maxDischargeDepth := 99) [State.refreshOver, h, hs]

@[simp] theorem execRefreshStepDone_frame {P : Scope} {r s : State} (x1) (h : Fr P r s)
    (hp : P.outside 0x20000 := by exact Scope.outside_mono (by assumption) (by decide)) :
    ∃ t, execRefreshStepDone x1 s = .next t ∧ Fr P r t := by
  have hs := fun k => Scope.outside_mono (k := k) hp
  refine ⟨_, rfl, ?_⟩
  (repeat' split) <;> simp (maxDischargeDepth := 99) [h, hs]

@[simp] theorem State.mirrorWrite_frame {P : Scope} {r s : State} (x1) (x2) (h : Fr P r s)
    (hp : P.outside 0x1000800024000 := by exact Scope.outside_mono (by assumption) (by decide)) :
    Fr P r (State.mirrorWrite s x1 x2) := by
  have hs := fun k => Scope.outside_mono (k := k) hp
  unfold State.mirrorWrite
  repeat' first
    | (simp (maxDischargeDepth := 99) [h, hs]; done)
    | split
    | refine State.each_frame (fun s x => ?_) _ ?_
    | refine State.onlyIf_frame _ (fun s => ?_) ?_
    | simp (maxDischargeDepth := 99) [h, hs]

@[simp] theorem execMirrorWriteTimer_frame {P : Scope} {r s : State} (x1) (x2) (h : Fr P r s)
    (hp : P.outside 0x1000800024000 := by exact Scope.outside_mono (by assumption) (by decide)) :
    ∃ t, execMirrorWriteTimer x1 x2 s = .next t ∧ Fr P r t := by
  have hs := fun k => Scope.outside_mono (k := k) hp
  exact ⟨_, rfl, by simp (maxDischargeDepth := 99) [h, hs]⟩

end Sys2Proof.Machine
end

