-- ==== Sys2Proof/Laws/FrameJub.lean ====
section
/-! SUPPORT. What each operation of Machine/Jub.lean leaves alone. -/
set_option linter.unusedSimpArgs false
set_option linter.unusedTactic false
set_option linter.unreachableTactic false
set_option linter.unnecessarySeqFocus false
namespace Sys2Proof.Machine
set_option Elab.async false

@[simp] theorem State.setJubLink_frame {P : Scope} {r s : State} (x1) (x2) (h : Fr P r s)
    (hp : P.outside 0x80000000000 := by exact Scope.outside_mono (by assumption) (by decide)) :
    Fr P r (State.setJubLink s x1 x2) := by
  have hs := fun k => Scope.outside_mono (k := k) hp
  simp (maxDischargeDepth := 99) [State.setJubLink, h, hs]

@[simp] theorem State.setJubSt_frame {P : Scope} {r s : State} (x1) (x2) (h : Fr P r s)
    (hp : P.outside 0x80000000000 := by exact Scope.outside_mono (by assumption) (by decide)) :
    Fr P r (State.setJubSt s x1 x2) := by
  have hs := fun k => Scope.outside_mono (k := k) hp
  simp (maxDischargeDepth := 99) [State.setJubSt, h, hs]

@[simp] theorem State.jubLast_frame {P : Scope} {r s : State} (x1) (x2) (h : Fr P r s)
    (hp : P.outside 0x80000000000 := by exact Scope.outside_mono (by assumption) (by decide)) :
    Fr P r (State.jubLast s x1 x2) := by
  have hs := fun k => Scope.outside_mono (k := k) hp
  simp (maxDischargeDepth := 99) [State.jubLast, h, hs]

@[simp] theorem State.setJubZones_frame {P : Scope} {r s : State} (x1) (x2) (h : Fr P r s)
    (hp : P.outside 0x80000040000 := by exact Scope.outside_mono (by assumption) (by decide)) :
    Fr P r (State.setJubZones s x1 x2) := by
  have hs := fun k => Scope.outside_mono (k := k) hp
  simp (maxDischargeDepth := 99) [State.setJubZones, h, hs]

@[simp] theorem State.modJubZone_frame {P : Scope} {r s : State} (x1) (x2) (x3) (h : Fr P r s)
    (hp : P.outside 0x40000 := by exact Scope.outside_mono (by assumption) (by decide)) :
    Fr P r (State.modJubZone s x1 x2 x3) := by
  have hs := fun k => Scope.outside_mono (k := k) hp
  simp (maxDischargeDepth := 99) [State.modJubZone, h, hs]

@[simp] theorem State.dropJubZone_frame {P : Scope} {r s : State} (x1) (x2) (h : Fr P r s)
    (hp : P.outside 0x80000040000 := by exact Scope.outside_mono (by assumption) (by decide)) :
    Fr P r (State.dropJubZone s x1 x2) := by
  have hs := fun k => Scope.outside_mono (k := k) hp
  simp (maxDischargeDepth := 99) [State.dropJubZone, h, hs]

@[simp] theorem State.jubFlit_frame {P : Scope} {r s : State} (x1) (x2) (x3) (x4) (h : Fr P r s)
    (hp : P.outside 0x10040000 := by exact Scope.outside_mono (by assumption) (by decide)) :
    Fr P r (State.jubFlit s x1 x2 x3 x4) := by
  have hs := fun k => Scope.outside_mono (k := k) hp
  simp (maxDischargeDepth := 99) [State.jubFlit, h, hs]

@[simp] theorem State.jubSendLink_frame {P : Scope} {r s : State} (x1) (x2) (x3) (x4) (h : Fr P r s)
    (hp : P.outside 0x10000000 := by exact Scope.outside_mono (by assumption) (by decide)) :
    Fr P r (State.jubSendLink s x1 x2 x3 x4) := by
  have hs := fun k => Scope.outside_mono (k := k) hp
  simp (maxDischargeDepth := 99) [State.jubSendLink, h, hs]

@[simp] theorem State.jubSend_frame {P : Scope} {r s : State} (x1) (x2) (x3) (x4) (h : Fr P r s)
    (hp : P.outside 0x10040000 := by exact Scope.outside_mono (by assumption) (by decide)) :
    Fr P r (State.jubSend s x1 x2 x3 x4) := by
  have hs := fun k => Scope.outside_mono (k := k) hp
  simp (maxDischargeDepth := 99) [State.jubSend, h, hs]

@[simp] theorem State.jubTrained_frame {P : Scope} {r s : State} (x1) (x2) (h : Fr P r s)
    (hp : P.outside 0x82022040000 := by exact Scope.outside_mono (by assumption) (by decide)) :
    Fr P r (State.jubTrained s x1 x2) := by
  have hs := fun k => Scope.outside_mono (k := k) hp
  simp (maxDischargeDepth := 99) [State.jubTrained, h, hs]

@[simp] theorem State.jubDown_frame {P : Scope} {r s : State} (x1) (h : Fr P r s)
    (hp : P.outside 0x80000040000 := by exact Scope.outside_mono (by assumption) (by decide)) :
    Fr P r (State.jubDown s x1) := by
  have hs := fun k => Scope.outside_mono (k := k) hp
  simp (maxDischargeDepth := 99) [State.jubDown, h, hs]

@[simp] theorem execJubEnergyDetect_frame {P : Scope} {r s : State} (x1) (x2) (h : Fr P r s)
    (hp : P.outside 0x10821a21c4000 := by exact Scope.outside_mono (by assumption) (by decide)) :
    ∃ t, execJubEnergyDetect x1 x2 s = .next t ∧ Fr P r t := by
  have hs := fun k => Scope.outside_mono (k := k) hp
  exact ⟨_, rfl, by simp (maxDischargeDepth := 99) [h, hs]⟩

@[simp] theorem execJubRetrain_frame {P : Scope} {r s : State} (x1) (x2) (h : Fr P r s)
    (hp : P.outside 0x82022040000 := by exact Scope.outside_mono (by assumption) (by decide)) :
    ∃ t, execJubRetrain x1 x2 s = .next t ∧ Fr P r t := by
  have hs := fun k => Scope.outside_mono (k := k) hp
  exact ⟨_, rfl, by simp (maxDischargeDepth := 99) [h, hs]⟩

@[simp] theorem execJubLinkDown_frame {P : Scope} {r s : State} (x1) (h : Fr P r s)
    (hp : P.outside 0x80000040000 := by exact Scope.outside_mono (by assumption) (by decide)) :
    ∃ t, execJubLinkDown x1 s = .next t ∧ Fr P r t := by
  have hs := fun k => Scope.outside_mono (k := k) hp
  exact ⟨_, rfl, by simp (maxDischargeDepth := 99) [h, hs]⟩

@[simp] theorem execJubLinkRetry_frame {P : Scope} {r s : State} (x1) (x2) (h : Fr P r s)
    (hp : P.outside 0x82022040000 := by exact Scope.outside_mono (by assumption) (by decide)) :
    ∃ t, execJubLinkRetry x1 x2 s = .next t ∧ Fr P r t := by
  have hs := fun k => Scope.outside_mono (k := k) hp
  exact ⟨_, rfl, by simp (maxDischargeDepth := 99) [h, hs]⟩

@[simp] theorem State.setReceiving_frame {P : Scope} {r s : State} (x1) (x2) (h : Fr P r s)
    (hp : P.outside 0x20000 := by exact Scope.outside_mono (by assumption) (by decide)) :
    Fr P r (State.setReceiving s x1 x2) := by
  have hs := fun k => Scope.outside_mono (k := k) hp
  unfold State.setReceiving
  repeat' first
    | (simp (maxDischargeDepth := 99) [h, hs]; done)
    | split
    | refine State.each_frame (fun s x => ?_) _ ?_
    | refine State.onlyIf_frame _ (fun s => ?_) ?_
    | simp (maxDischargeDepth := 99) [h, hs]

@[simp] theorem State.creditHold_frame {P : Scope} {r s : State} (x1) (h : Fr P r s)
    (hp : P.outside 0x20000 := by exact Scope.outside_mono (by assumption) (by decide)) :
    Fr P r (State.creditHold s x1) := by
  have hs := fun k => Scope.outside_mono (k := k) hp
  simp (maxDischargeDepth := 99) [State.creditHold, h, hs]

@[simp] theorem State.jubClosed_frame {P : Scope} {r s : State} (x1) (x2) (h : Fr P r s)
    (hp : P.outside 0x80000060000 := by exact Scope.outside_mono (by assumption) (by decide)) :
    Fr P r (State.jubClosed s x1 x2) := by
  have hs := fun k => Scope.outside_mono (k := k) hp
  simp (maxDischargeDepth := 99) [State.jubClosed, h, hs]

@[simp] theorem State.jubClose_frame {P : Scope} {r s : State} (x1) (x2) (h : Fr P r s)
    (hp : P.outside 0x80010060000 := by exact Scope.outside_mono (by assumption) (by decide)) :
    Fr P r (State.jubClose s x1 x2) := by
  have hs := fun k => Scope.outside_mono (k := k) hp
  simp (maxDischargeDepth := 99) [State.jubClose, h, hs]

@[simp] theorem State.jubBadMsg_frame {P : Scope} {r s : State} (x1) (h : Fr P r s)
    (hp : P.outside 0x80010060000 := by exact Scope.outside_mono (by assumption) (by decide)) :
    Fr P r (State.jubBadMsg s x1) := by
  have hs := fun k => Scope.outside_mono (k := k) hp
  simp (maxDischargeDepth := 99) [State.jubBadMsg, h, hs]

@[simp] theorem execJubStart_frame {P : Scope} {r s : State} (x1) (h : Fr P r s)
    (hp : P.outside 0x80000040000 := by exact Scope.outside_mono (by assumption) (by decide)) :
    ∃ t, execJubStart x1 s = .next t ∧ Fr P r t := by
  have hs := fun k => Scope.outside_mono (k := k) hp
  exact ⟨_, rfl, by simp (maxDischargeDepth := 99) [h, hs]⟩

@[simp] theorem execJubAbort_frame {P : Scope} {r s : State} (x1) (h : Fr P r s)
    (hp : P.outside 0x80010060000 := by exact Scope.outside_mono (by assumption) (by decide)) :
    ∃ t, execJubAbort x1 s = .next t ∧ Fr P r t := by
  have hs := fun k => Scope.outside_mono (k := k) hp
  exact ⟨_, rfl, by simp (maxDischargeDepth := 99) [h, hs]⟩

@[simp] theorem execJubPause_frame {P : Scope} {r s : State} (x1) (x2) (h : Fr P r s)
    (hp : P.outside 0x80000000000 := by exact Scope.outside_mono (by assumption) (by decide)) :
    ∃ t, execJubPause x1 x2 s = .next t ∧ Fr P r t := by
  have hs := fun k => Scope.outside_mono (k := k) hp
  exact ⟨_, rfl, by simp (maxDischargeDepth := 99) [h, hs]⟩

@[simp] theorem execJubLinkHoldExpiry_frame {P : Scope} {r s : State} (x1) (h : Fr P r s)
    (hp : P.outside 0x80000060000 := by exact Scope.outside_mono (by assumption) (by decide)) :
    ∃ t, execJubLinkHoldExpiry x1 s = .next t ∧ Fr P r t := by
  have hs := fun k => Scope.outside_mono (k := k) hp
  exact ⟨_, rfl, by simp (maxDischargeDepth := 99) [h, hs]⟩

@[simp] theorem State.jubRun_frame {P : Scope} {r s : State} (x1) (h : Fr P r s)
    (hp : P.outside 0x80000000000 := by exact Scope.outside_mono (by assumption) (by decide)) :
    Fr P r (State.jubRun s x1) := by
  have hs := fun k => Scope.outside_mono (k := k) hp
  simp (maxDischargeDepth := 99) [State.jubRun, h, hs]

@[simp] theorem State.jubGreeted_frame {P : Scope} {r s : State} (x1) (h : Fr P r s)
    (hp : P.outside 0x118001007c000 := by exact Scope.outside_mono (by assumption) (by decide)) :
    Fr P r (State.jubGreeted s x1) := by
  have hs := fun k => Scope.outside_mono (k := k) hp
  unfold State.jubGreeted
  dsimp only
  repeat' first
    | exact h
    | (simp (maxDischargeDepth := 99) [h, hs]; done)
    | split
    | refine State.jubRun_frame _ (State.modJub_frame _ _ (State.setReceiving_frame _ _ (State.each_frame (fun s x => ?_) _ h)))

@[simp] theorem execHello_frame {P : Scope} {r s : State} (x1) (x2) (h : Fr P r s)
    (hp : P.outside 0x118001007c000 := by exact Scope.outside_mono (by assumption) (by decide)) :
    ∃ t, execHello x1 x2 s = .next t ∧ Fr P r t := by
  have hs := fun k => Scope.outside_mono (k := k) hp
  refine ⟨_, rfl, ?_⟩
  (repeat' split) <;> simp (maxDischargeDepth := 99) [h, hs]

@[simp] theorem State.jubRecord_frame {P : Scope} {r s : State} (x1) (x2) (h : Fr P r s)
    (hp : P.outside 0x80000040000 := by exact Scope.outside_mono (by assumption) (by decide)) :
    Fr P r (State.jubRecord s x1 x2) := by
  have hs := fun k => Scope.outside_mono (k := k) hp
  simp (maxDischargeDepth := 99) [State.jubRecord, h, hs]

@[simp] theorem execPlan_frame {P : Scope} {r s : State} (x1) (x2) (x3) (h : Fr P r s)
    (hp : P.outside 0x80010060000 := by exact Scope.outside_mono (by assumption) (by decide)) :
    ∃ t, execPlan x1 x2 x3 s = .next t ∧ Fr P r t := by
  have hs := fun k => Scope.outside_mono (k := k) hp
  refine ⟨_, rfl, ?_⟩
  (repeat' split) <;> simp (maxDischargeDepth := 99) [h, hs]

@[simp] theorem execPlanReply_frame {P : Scope} {r s : State} (x1) (x2) (h : Fr P r s)
    (hp : P.outside 0x80010060000 := by exact Scope.outside_mono (by assumption) (by decide)) :
    ∃ t, execPlanReply x1 x2 s = .next t ∧ Fr P r t := by
  have hs := fun k => Scope.outside_mono (k := k) hp
  exact ⟨_, rfl, by simp (maxDischargeDepth := 99) [h, hs]⟩

@[simp] theorem execCredit_frame {P : Scope} {r s : State} (x1) (x2) (h : Fr P r s)
    (hp : P.outside 0x10060000 := by exact Scope.outside_mono (by assumption) (by decide)) :
    ∃ t, execCredit x1 x2 s = .next t ∧ Fr P r t := by
  have hs := fun k => Scope.outside_mono (k := k) hp
  exact ⟨_, rfl, by simp (maxDischargeDepth := 99) [h, hs]⟩

@[simp] theorem State.beginMsg_frame {P : Scope} {r s : State} (x1) (x2) (x3) (x4) (h : Fr P r s)
    (hp : P.outside 0x80010040000 := by exact Scope.outside_mono (by assumption) (by decide)) :
    Fr P r (State.beginMsg s x1 x2 x3 x4) := by
  have hs := fun k => Scope.outside_mono (k := k) hp
  simp (maxDischargeDepth := 99) [State.beginMsg, h, hs]

@[simp] theorem State.nextBegin_frame {P : Scope} {r s : State} (x1) (h : Fr P r s)
    (hp : P.outside 0x80010040000 := by exact Scope.outside_mono (by assumption) (by decide)) :
    Fr P r (State.nextBegin s x1) := by
  have hs := fun k => Scope.outside_mono (k := k) hp
  unfold State.nextBegin
  repeat' first
    | (simp (maxDischargeDepth := 99) [h, hs]; done)
    | split
    | refine State.each_frame (fun s x => ?_) _ ?_
    | refine State.onlyIf_frame _ (fun s => ?_) ?_
    | simp (maxDischargeDepth := 99) [h, hs]

@[simp] theorem State.sendStripe_frame {P : Scope} {r s : State} (x1) (x2) (x3) (x4) (x5) (h : Fr P r s)
    (hp : P.outside 0x1080010044000 := by exact Scope.outside_mono (by assumption) (by decide)) :
    Fr P r (State.sendStripe s x1 x2 x3 x4 x5) := by
  have hs := fun k => Scope.outside_mono (k := k) hp
  simp (maxDischargeDepth := 99) [State.sendStripe, h, hs]

@[simp] theorem State.stripeSend_frame {P : Scope} {r s : State} (x1) (x2) (x3) (h : Fr P r s)
    (hp : P.outside 0x781080010064010 := by exact Scope.outside_mono (by assumption) (by decide)) :
    Fr P r (State.stripeSend s x1 x2 x3) := by
  have hs := fun k => Scope.outside_mono (k := k) hp
  unfold State.stripeSend
  (repeat' split) <;> simp (maxDischargeDepth := 99) [h, hs]

@[simp] theorem execJubStripeSend_frame {P : Scope} {r s : State} (x1) (x2) (h : Fr P r s)
    (hp : P.outside 0x781080010064010 := by exact Scope.outside_mono (by assumption) (by decide)) :
    ∃ t, execJubStripeSend x1 x2 s = .next t ∧ Fr P r t := by
  have hs := fun k => Scope.outside_mono (k := k) hp
  refine ⟨_, rfl, ?_⟩
  (repeat' split) <;> simp (maxDischargeDepth := 99) [h, hs]

@[simp] theorem State.endMsg_frame {P : Scope} {r s : State} (x1) (x2) (x3) (h : Fr P r s)
    (hp : P.outside 0x10040000 := by exact Scope.outside_mono (by assumption) (by decide)) :
    Fr P r (State.endMsg s x1 x2 x3) := by
  have hs := fun k => Scope.outside_mono (k := k) hp
  simp (maxDischargeDepth := 99) [State.endMsg, h, hs]

@[simp] theorem execStripeNak_frame {P : Scope} {r s : State} (x1) (x2) (x3) (x4) (x5) (h : Fr P r s)
    (hp : P.outside 0x1080010064000 := by exact Scope.outside_mono (by assumption) (by decide)) :
    ∃ t, execStripeNak x1 x2 x3 x4 x5 s = .next t ∧ Fr P r t := by
  have hs := fun k => Scope.outside_mono (k := k) hp
  refine ⟨_, rfl, ?_⟩
  (repeat' split) <;> simp (maxDischargeDepth := 99) [h, hs]

@[simp] theorem State.begun_frame {P : Scope} {r s : State} (x1) (x2) (h : Fr P r s)
    (hp : P.outside 0x80010060000 := by exact Scope.outside_mono (by assumption) (by decide)) :
    Fr P r (State.begun s x1 x2) := by
  have hs := fun k => Scope.outside_mono (k := k) hp
  unfold State.begun
  repeat' first
    | (simp (maxDischargeDepth := 99) [h, hs]; done)
    | split
    | refine State.each_frame (fun s x => ?_) _ ?_
    | refine State.onlyIf_frame _ (fun s => ?_) ?_
    | simp (maxDischargeDepth := 99) [h, hs]

@[simp] theorem execZoneBegin_frame {P : Scope} {r s : State} (x1) (x2) (h : Fr P r s)
    (hp : P.outside 0x80010060000 := by exact Scope.outside_mono (by assumption) (by decide)) :
    ∃ t, execZoneBegin x1 x2 s = .next t ∧ Fr P r t := by
  have hs := fun k => Scope.outside_mono (k := k) hp
  refine ⟨_, rfl, ?_⟩
  (repeat' split) <;> simp (maxDischargeDepth := 99) [h, hs]

@[simp] theorem State.jubWrite_frame {P : Scope} {r : State} (hp : P.outside 0x60000) (k idx : Nat) : ∀ {s : State} (n : Nat) (_ : Fr P r s),
    Fr P r (s.jubWrite k idx n)
  | _, 0, h => h
  | s, n + 1, h => by
    have hs := fun k => Scope.outside_mono (k := k) hp
    unfold State.jubWrite
    dsimp only
    (repeat' split) <;> first
      | exact h
      | (refine State.jubWrite_frame hp k idx n ?_; simp (maxDischargeDepth := 99) [h, hs])

@[simp] theorem State.jubChain_frame {P : Scope} {r s : State} (x1) (x2) (h : Fr P r s)
    (hp : P.outside 0x60000 := by exact Scope.outside_mono (by assumption) (by decide)) :
    Fr P r (State.jubChain s x1 x2) := by
  have hs := fun k => Scope.outside_mono (k := k) hp
  unfold State.jubChain
  (repeat' split) <;> simp (maxDischargeDepth := 99) [h, hs]

@[simp] theorem execStripe_frame {P : Scope} {r s : State} (x1) (x2) (h : Fr P r s)
    (hp : P.outside 0x1080010064000 := by exact Scope.outside_mono (by assumption) (by decide)) :
    ∃ t, execStripe x1 x2 s = .next t ∧ Fr P r t := by
  have hs := fun k => Scope.outside_mono (k := k) hp
  refine ⟨_, rfl, ?_⟩
  (repeat' split) <;> simp (maxDischargeDepth := 99) [h, hs]

@[simp] theorem execZoneEnd_frame {P : Scope} {r s : State} (x1) (x2) (x3) (h : Fr P r s)
    (hp : P.outside 0x80010060000 := by exact Scope.outside_mono (by assumption) (by decide)) :
    ∃ t, execZoneEnd x1 x2 x3 s = .next t ∧ Fr P r t := by
  have hs := fun k => Scope.outside_mono (k := k) hp
  refine ⟨_, rfl, ?_⟩
  (repeat' split) <;> simp (maxDischargeDepth := 99) [h, hs]

@[simp] theorem execJubZoneCommit_frame {P : Scope} {r s : State} (x1) (x2) (h : Fr P r s)
    (hp : P.outside 0x118000007c000 := by exact Scope.outside_mono (by assumption) (by decide)) :
    ∃ t, execJubZoneCommit x1 x2 s = .next t ∧ Fr P r t := by
  have hs := fun k => Scope.outside_mono (k := k) hp
  refine ⟨_, rfl, ?_⟩
  (repeat' split) <;> simp (maxDischargeDepth := 99) [h, hs]

@[simp] theorem State.acked_frame {P : Scope} {r s : State} (x1) (x2) (h : Fr P r s)
    (hp : P.outside 0x118000007c000 := by exact Scope.outside_mono (by assumption) (by decide)) :
    Fr P r (State.acked s x1 x2) := by
  have hs := fun k => Scope.outside_mono (k := k) hp
  simp (maxDischargeDepth := 99) [State.acked, h, hs]

@[simp] theorem execZoneAck_frame {P : Scope} {r s : State} (x1) (x2) (h : Fr P r s)
    (hp : P.outside 0x118001007c000 := by exact Scope.outside_mono (by assumption) (by decide)) :
    ∃ t, execZoneAck x1 x2 s = .next t ∧ Fr P r t := by
  have hs := fun k => Scope.outside_mono (k := k) hp
  exact ⟨_, rfl, by simp (maxDischargeDepth := 99) [h, hs]⟩

@[simp] theorem State.zoneFailed_frame {P : Scope} {r s : State} (x1) (x2) (x3) (h : Fr P r s)
    (hp : P.outside 0x118000007c000 := by exact Scope.outside_mono (by assumption) (by decide)) :
    Fr P r (State.zoneFailed s x1 x2 x3) := by
  have hs := fun k => Scope.outside_mono (k := k) hp
  simp (maxDischargeDepth := 99) [State.zoneFailed, h, hs]

@[simp] theorem execZoneFail_frame {P : Scope} {r s : State} (x1) (x2) (x3) (h : Fr P r s)
    (hp : P.outside 0x118001007c000 := by exact Scope.outside_mono (by assumption) (by decide)) :
    ∃ t, execZoneFail x1 x2 x3 s = .next t ∧ Fr P r t := by
  have hs := fun k => Scope.outside_mono (k := k) hp
  refine ⟨_, rfl, ?_⟩
  (repeat' split) <;> simp (maxDischargeDepth := 99) [h, hs]

@[simp] theorem execClose_frame {P : Scope} {r s : State} (x1) (x2) (h : Fr P r s)
    (hp : P.outside 0x80010060000 := by exact Scope.outside_mono (by assumption) (by decide)) :
    ∃ t, execClose x1 x2 s = .next t ∧ Fr P r t := by
  have hs := fun k => Scope.outside_mono (k := k) hp
  refine ⟨_, rfl, ?_⟩
  (repeat' split) <;> simp (maxDischargeDepth := 99) [h, hs]

@[simp] theorem State.jubViolate_frame {P : Scope} {r s : State} (x1) (h : Fr P r s)
    (hp : P.outside 0x1080000004000 := by exact Scope.outside_mono (by assumption) (by decide)) :
    Fr P r (State.jubViolate s x1) := by
  have hs := fun k => Scope.outside_mono (k := k) hp
  simp (maxDischargeDepth := 99) [State.jubViolate, h, hs]

@[simp] theorem State.jubLinkFlit_frame {P : Scope} {r s : State} (x1) (x2) (x3) (h : Fr P r s)
    (hp : P.outside 0x80010040000 := by exact Scope.outside_mono (by assumption) (by decide)) :
    Fr P r (State.jubLinkFlit s x1 x2 x3) := by
  have hs := fun k => Scope.outside_mono (k := k) hp
  simp (maxDischargeDepth := 99) [State.jubLinkFlit, h, hs]

@[simp] theorem State.jubOrdered_frame {P : Scope} {r s : State} (x1) (x2) (h : Fr P r s)
    (hp : P.outside 0x1080000044000 := by exact Scope.outside_mono (by assumption) (by decide)) :
    Fr P r (State.jubOrdered s x1 x2) := by
  have hs := fun k => Scope.outside_mono (k := k) hp
  simp (maxDischargeDepth := 99) [State.jubOrdered, h, hs]

@[simp] theorem State.jubDeliver_frame {P : Scope} {r s : State} (x1) (x2) (h : Fr P r s)
    (hp : P.outside 0x1080000044000 := by exact Scope.outside_mono (by assumption) (by decide)) :
    Fr P r (State.jubDeliver s x1 x2) := by
  have hs := fun k => Scope.outside_mono (k := k) hp
  fun_induction State.jubDeliver <;> simp_all (maxDischargeDepth := 99)

@[simp] theorem State.jubNak_frame {P : Scope} {r s : State} (x1) (x2) (h : Fr P r s)
    (hp : P.outside 0x10040000 := by exact Scope.outside_mono (by assumption) (by decide)) :
    Fr P r (State.jubNak s x1 x2) := by
  have hs := fun k => Scope.outside_mono (k := k) hp
  simp (maxDischargeDepth := 99) [State.jubNak, h, hs]

@[simp] theorem State.jubOnFlit_frame {P : Scope} {r s : State} (x1) (x2) (x3) (h : Fr P r s)
    (hp : P.outside 0x1080010044000 := by exact Scope.outside_mono (by assumption) (by decide)) :
    Fr P r (State.jubOnFlit s x1 x2 x3) := by
  have hs := fun k => Scope.outside_mono (k := k) hp
  simp (maxDischargeDepth := 99) [State.jubOnFlit, h, hs]

@[simp] theorem execJubFlitReceived_frame {P : Scope} {r s : State} (x1) (x2) (x3) (h : Fr P r s)
    (hp : P.outside 0x1080010044000 := by exact Scope.outside_mono (by assumption) (by decide)) :
    ∃ t, execJubFlitReceived x1 x2 x3 s = .next t ∧ Fr P r t := by
  have hs := fun k => Scope.outside_mono (k := k) hp
  exact ⟨_, rfl, by simp (maxDischargeDepth := 99) [h, hs]⟩

end Sys2Proof.Machine
end

