-- ==== Sys2Proof/Laws/FrameMot.lean ====
section
/-! SUPPORT. What each operation of Machine/Mot.lean leaves alone. -/
set_option linter.unusedSimpArgs false
set_option linter.unusedTactic false
set_option linter.unreachableTactic false
set_option linter.unnecessarySeqFocus false
namespace Sys2Proof.Machine
set_option Elab.async false

@[simp] theorem State.setMotSt_frame {P : Scope} {r s : State} (x1) (h : Fr P r s)
    (hp : P.outside 0x10000000000000000 := by exact Scope.outside_mono (by assumption) (by decide)) :
    Fr P r (State.setMotSt s x1) := by
  have hs := fun k => Scope.outside_mono (k := k) hp
  simp (maxDischargeDepth := 99) [State.setMotSt, h, hs]

@[simp] theorem State.modMot_frame {P : Scope} {r s : State} (x1) (h : Fr P r s)
    (hp : P.outside 0x200 := by exact Scope.outside_mono (by assumption) (by decide)) :
    Fr P r (State.modMot s x1) := by
  have hs := fun k => Scope.outside_mono (k := k) hp
  simp (maxDischargeDepth := 99) [State.modMot, h, hs]

@[simp] theorem State.setRpm_frame {P : Scope} {r s : State} (x1) (x2) (h : Fr P r s)
    (hp : P.outside 0x10000000000000000 := by exact Scope.outside_mono (by assumption) (by decide)) :
    Fr P r (State.setRpm s x1 x2) := by
  have hs := fun k => Scope.outside_mono (k := k) hp
  simp (maxDischargeDepth := 99) [State.setRpm, h, hs]

@[simp] theorem State.motCode_frame {P : Scope} {r s : State} (x1) (h : Fr P r s)
    (hp : P.outside 0x10000000000000000 := by exact Scope.outside_mono (by assumption) (by decide)) :
    Fr P r (State.motCode s x1) := by
  have hs := fun k => Scope.outside_mono (k := k) hp
  simp (maxDischargeDepth := 99) [State.motCode, h, hs]

@[simp] theorem State.motRefuse_frame {P : Scope} {r s : State} (h : Fr P r s)
    (hp : P.outside 0x10000000000000000 := by exact Scope.outside_mono (by assumption) (by decide)) :
    Fr P r (State.motRefuse s) := by
  have hs := fun k => Scope.outside_mono (k := k) hp
  simp (maxDischargeDepth := 99) [State.motRefuse, h, hs]

@[simp] theorem State.setAtSpeed_frame {P : Scope} {r s : State} (x1) (h : Fr P r s)
    (hp : P.outside 0x10000000000000000 := by exact Scope.outside_mono (by assumption) (by decide)) :
    Fr P r (State.setAtSpeed s x1) := by
  have hs := fun k => Scope.outside_mono (k := k) hp
  simp (maxDischargeDepth := 99) [State.setAtSpeed, h, hs]

@[simp] theorem State.motEnter_frame {P : Scope} {r s : State} (x1) (x2) (h : Fr P r s)
    (hp : P.outside 0x10000000000000200 := by exact Scope.outside_mono (by assumption) (by decide)) :
    Fr P r (State.motEnter s x1 x2) := by
  have hs := fun k => Scope.outside_mono (k := k) hp
  simp (maxDischargeDepth := 99) [State.motEnter, h, hs]

@[simp] theorem State.motObserve_frame {P : Scope} {r s : State} (h : Fr P r s)
    (hp : P.outside 0x10001000000004200 := by exact Scope.outside_mono (by assumption) (by decide)) :
    Fr P r (State.motObserve s) := by
  have hs := fun k => Scope.outside_mono (k := k) hp
  simp (maxDischargeDepth := 99) [State.motObserve, h, hs]

@[simp] theorem State.retractAll_frame {P : Scope} {r s : State} (h : Fr P r s)
    (hp : P.outside 0x3e7f812031120065f4 := by exact Scope.outside_mono (by assumption) (by decide)) :
    Fr P r (State.retractAll s) := by
  have hs := fun k => Scope.outside_mono (k := k) hp
  simp (maxDischargeDepth := 99) [State.retractAll, h, hs]

@[simp] theorem State.rampFrom_frame {P : Scope} {r s : State} (h : Fr P r s)
    (hp : P.outside 0x200 := by exact Scope.outside_mono (by assumption) (by decide)) :
    Fr P r (State.rampFrom s) := by
  have hs := fun k => Scope.outside_mono (k := k) hp
  simp (maxDischargeDepth := 99) [State.rampFrom, h, hs]

@[simp] theorem State.motGo_frame {P : Scope} {r s : State} (h : Fr P r s)
    (hp : P.outside 0x10001000000004200 := by exact Scope.outside_mono (by assumption) (by decide)) :
    Fr P r (State.motGo s) := by
  have hs := fun k => Scope.outside_mono (k := k) hp
  simp (maxDischargeDepth := 99) [State.motGo, h, hs]

@[simp] theorem State.motHalt_frame {P : Scope} {r s : State} (h : Fr P r s)
    (hp : P.outside 0x10000000000000200 := by exact Scope.outside_mono (by assumption) (by decide)) :
    Fr P r (State.motHalt s) := by
  have hs := fun k => Scope.outside_mono (k := k) hp
  simp (maxDischargeDepth := 99) [State.motHalt, h, hs]

@[simp] theorem State.motOff_frame {P : Scope} {r s : State} (h : Fr P r s)
    (hp : P.outside 0x10000000000000200 := by exact Scope.outside_mono (by assumption) (by decide)) :
    Fr P r (State.motOff s) := by
  have hs := fun k => Scope.outside_mono (k := k) hp
  simp (maxDischargeDepth := 99) [State.motOff, h, hs]

@[simp] theorem State.motClear_frame {P : Scope} {r s : State} (h : Fr P r s)
    (hp : P.outside 0x10000000000000200 := by exact Scope.outside_mono (by assumption) (by decide)) :
    Fr P r (State.motClear s) := by
  have hs := fun k => Scope.outside_mono (k := k) hp
  simp (maxDischargeDepth := 99) [State.motClear, h, hs]

@[simp] theorem State.motClrFault_frame {P : Scope} {r s : State} (h : Fr P r s)
    (hp : P.outside 0x10000000000000200 := by exact Scope.outside_mono (by assumption) (by decide)) :
    Fr P r (State.motClrFault s) := by
  have hs := fun k => Scope.outside_mono (k := k) hp
  simp (maxDischargeDepth := 99) [State.motClrFault, h, hs]

@[simp] theorem State.motCtrlWrite_frame {P : Scope} {r s : State} (x1) (h : Fr P r s)
    (hp : P.outside 0x10001000000004200 := by exact Scope.outside_mono (by assumption) (by decide)) :
    Fr P r (State.motCtrlWrite s x1) := by
  have hs := fun k => Scope.outside_mono (k := k) hp
  simp (maxDischargeDepth := 99) [State.motCtrlWrite, h, hs]

@[simp] theorem execMotStartRequest_frame {P : Scope} {r s : State} (x1) (h : Fr P r s)
    (hp : P.outside 0x10001000000004200 := by exact Scope.outside_mono (by assumption) (by decide)) :
    ∃ t, execMotStartRequest x1 s = .next t ∧ Fr P r t := by
  have hs := fun k => Scope.outside_mono (k := k) hp
  exact ⟨_, rfl, by simp (maxDischargeDepth := 99) [h, hs]⟩

@[simp] theorem execMotStopRequest_frame {P : Scope} {r s : State} (h : Fr P r s)
    (hp : P.outside 0x10001000000004200 := by exact Scope.outside_mono (by assumption) (by decide)) :
    ∃ t, execMotStopRequest s = .next t ∧ Fr P r t := by
  have hs := fun k => Scope.outside_mono (k := k) hp
  exact ⟨_, rfl, by simp (maxDischargeDepth := 99) [h, hs]⟩

@[simp] theorem execMotDisable_frame {P : Scope} {r s : State} (h : Fr P r s)
    (hp : P.outside 0x10001000000004200 := by exact Scope.outside_mono (by assumption) (by decide)) :
    ∃ t, execMotDisable s = .next t ∧ Fr P r t := by
  have hs := fun k => Scope.outside_mono (k := k) hp
  exact ⟨_, rfl, by simp (maxDischargeDepth := 99) [h, hs]⟩

@[simp] theorem execMotTargetChange_frame {P : Scope} {r s : State} (x1) (h : Fr P r s)
    (hp : P.outside 0x10001000000004200 := by exact Scope.outside_mono (by assumption) (by decide)) :
    ∃ t, execMotTargetChange x1 s = .next t ∧ Fr P r t := by
  have hs := fun k => Scope.outside_mono (k := k) hp
  exact ⟨_, rfl, by simp (maxDischargeDepth := 99) [h, hs]⟩

@[simp] theorem execMotClrFault_frame {P : Scope} {r s : State} (h : Fr P r s)
    (hp : P.outside 0x10000000000000200 := by exact Scope.outside_mono (by assumption) (by decide)) :
    ∃ t, execMotClrFault s = .next t ∧ Fr P r t := by
  have hs := fun k => Scope.outside_mono (k := k) hp
  exact ⟨_, rfl, by simp (maxDischargeDepth := 99) [h, hs]⟩

@[simp] theorem State.motAlign_frame {P : Scope} {r s : State} (h : Fr P r s)
    (hp : P.outside 0x10000000000000200 := by exact Scope.outside_mono (by assumption) (by decide)) :
    Fr P r (State.motAlign s) := by
  have hs := fun k => Scope.outside_mono (k := k) hp
  simp (maxDischargeDepth := 99) [State.motAlign, h, hs]

@[simp] theorem State.motSync_frame {P : Scope} {r s : State} (x1) (h : Fr P r s)
    (hp : P.outside 0x10000000000000200 := by exact Scope.outside_mono (by assumption) (by decide)) :
    Fr P r (State.motSync s x1) := by
  have hs := fun k => Scope.outside_mono (k := k) hp
  simp (maxDischargeDepth := 99) [State.motSync, h, hs]

@[simp] theorem State.observeEnd_frame {P : Scope} {r s : State} (x1) (x2) (h : Fr P r s)
    (hp : P.outside 0x10000000000000200 := by exact Scope.outside_mono (by assumption) (by decide)) :
    Fr P r (State.observeEnd s x1 x2) := by
  have hs := fun k => Scope.outside_mono (k := k) hp
  simp (maxDischargeDepth := 99) [State.observeEnd, h, hs]

@[simp] theorem execObserveEnd_frame {P : Scope} {r s : State} (h : Fr P r s)
    (hp : P.outside 0x10000000000000200 := by exact Scope.outside_mono (by assumption) (by decide)) :
    ∃ t, execObserveEnd s = .next t ∧ Fr P r t := by
  have hs := fun k => Scope.outside_mono (k := k) hp
  exact ⟨_, rfl, by simp (maxDischargeDepth := 99) [h, hs]⟩

@[simp] theorem State.brakeGates_frame {P : Scope} {r s : State} (h : Fr P r s)
    (hp : P.outside 0x200 := by exact Scope.outside_mono (by assumption) (by decide)) :
    Fr P r (State.brakeGates s) := by
  have hs := fun k => Scope.outside_mono (k := k) hp
  simp (maxDischargeDepth := 99) [State.brakeGates, h, hs]

@[simp] theorem State.peekWindow_frame {P : Scope} {r s : State} (h : Fr P r s)
    (hp : P.outside 0x200 := by exact Scope.outside_mono (by assumption) (by decide)) :
    Fr P r (State.peekWindow s) := by
  have hs := fun k => Scope.outside_mono (k := k) hp
  simp (maxDischargeDepth := 99) [State.peekWindow, h, hs]

@[simp] theorem State.brakePeek_frame {P : Scope} {r s : State} (x1) (h : Fr P r s)
    (hp : P.outside 0x10000000000000200 := by exact Scope.outside_mono (by assumption) (by decide)) :
    Fr P r (State.brakePeek s x1) := by
  have hs := fun k => Scope.outside_mono (k := k) hp
  simp (maxDischargeDepth := 99) [State.brakePeek, h, hs]

@[simp] theorem execBrakePeek_frame {P : Scope} {r s : State} (h : Fr P r s)
    (hp : P.outside 0x10000000000000200 := by exact Scope.outside_mono (by assumption) (by decide)) :
    ∃ t, execBrakePeek s = .next t ∧ Fr P r t := by
  have hs := fun k => Scope.outside_mono (k := k) hp
  exact ⟨_, rfl, by simp (maxDischargeDepth := 99) [h, hs]⟩

@[simp] theorem execAlignEnd_frame {P : Scope} {r s : State} (h : Fr P r s)
    (hp : P.outside 0x10000000000000200 := by exact Scope.outside_mono (by assumption) (by decide)) :
    ∃ t, execAlignEnd s = .next t ∧ Fr P r t := by
  have hs := fun k => Scope.outside_mono (k := k) hp
  exact ⟨_, rfl, by simp (maxDischargeDepth := 99) [h, hs]⟩

@[simp] theorem State.startTimeout_frame {P : Scope} {r s : State} (h : Fr P r s)
    (hp : P.outside 0x10001000000004200 := by exact Scope.outside_mono (by assumption) (by decide)) :
    Fr P r (State.startTimeout s) := by
  have hs := fun k => Scope.outside_mono (k := k) hp
  simp (maxDischargeDepth := 99) [State.startTimeout, h, hs]

@[simp] theorem execStartTimeout_frame {P : Scope} {r s : State} (h : Fr P r s)
    (hp : P.outside 0x10001000000004200 := by exact Scope.outside_mono (by assumption) (by decide)) :
    ∃ t, execStartTimeout s = .next t ∧ Fr P r t := by
  have hs := fun k => Scope.outside_mono (k := k) hp
  exact ⟨_, rfl, by simp (maxDischargeDepth := 99) [h, hs]⟩

@[simp] theorem execStartRetry_frame {P : Scope} {r s : State} (h : Fr P r s)
    (hp : P.outside 0x10001000000004200 := by exact Scope.outside_mono (by assumption) (by decide)) :
    ∃ t, execStartRetry s = .next t ∧ Fr P r t := by
  have hs := fun k => Scope.outside_mono (k := k) hp
  exact ⟨_, rfl, by simp (maxDischargeDepth := 99) [h, hs]⟩

@[simp] theorem State.loopsTaken_frame {P : Scope} {r s : State} (h : Fr P r s)
    (hp : P.outside 0x200 := by exact Scope.outside_mono (by assumption) (by decide)) :
    Fr P r (State.loopsTaken s) := by
  have hs := fun k => Scope.outside_mono (k := k) hp
  simp (maxDischargeDepth := 99) [State.loopsTaken, h, hs]

@[simp] theorem State.rampStep_frame {P : Scope} {r s : State} (h : Fr P r s)
    (hp : P.outside 0x200 := by exact Scope.outside_mono (by assumption) (by decide)) :
    Fr P r (State.rampStep s) := by
  have hs := fun k => Scope.outside_mono (k := k) hp
  simp (maxDischargeDepth := 99) [State.rampStep, h, hs]

@[simp] theorem State.speedLoop_frame {P : Scope} {r s : State} (h : Fr P r s)
    (hp : P.outside 0x200 := by exact Scope.outside_mono (by assumption) (by decide)) :
    Fr P r (State.speedLoop s) := by
  have hs := fun k => Scope.outside_mono (k := k) hp
  simp (maxDischargeDepth := 99) [State.speedLoop, h, hs]

@[simp] theorem State.speedUpdate_frame {P : Scope} {r s : State} (h : Fr P r s)
    (hp : P.outside 0x10000000000000200 := by exact Scope.outside_mono (by assumption) (by decide)) :
    Fr P r (State.speedUpdate s) := by
  have hs := fun k => Scope.outside_mono (k := k) hp
  simp (maxDischargeDepth := 99) [State.speedUpdate, h, hs]

@[simp] theorem execSpeedLoopUpdate_frame {P : Scope} {r s : State} (h : Fr P r s)
    (hp : P.outside 0x10000000000000200 := by exact Scope.outside_mono (by assumption) (by decide)) :
    ∃ t, execSpeedLoopUpdate s = .next t ∧ Fr P r t := by
  have hs := fun k => Scope.outside_mono (k := k) hp
  exact ⟨_, rfl, by simp (maxDischargeDepth := 99) [h, hs]⟩

@[simp] theorem State.overcurrent_frame {P : Scope} {r s : State} (h : Fr P r s)
    (hp : P.outside 0x3f7f812031120067f4 := by exact Scope.outside_mono (by assumption) (by decide)) :
    Fr P r (State.overcurrent s) := by
  have hs := fun k => Scope.outside_mono (k := k) hp
  simp (maxDischargeDepth := 99) [State.overcurrent, h, hs]

@[simp] theorem State.chopperFault_frame {P : Scope} {r s : State} (x1) (h : Fr P r s)
    (hp : P.outside 0x3f7f812031120067f4 := by exact Scope.outside_mono (by assumption) (by decide)) :
    Fr P r (State.chopperFault s x1) := by
  have hs := fun k => Scope.outside_mono (k := k) hp
  simp (maxDischargeDepth := 99) [State.chopperFault, h, hs]

@[simp] theorem State.powerLoss_frame {P : Scope} {r s : State} (x1) (h : Fr P r s)
    (hp : P.outside 0x217801000014004624 := by exact Scope.outside_mono (by assumption) (by decide)) :
    Fr P r (State.powerLoss s x1) := by
  have hs := fun k => Scope.outside_mono (k := k) hp
  simp (maxDischargeDepth := 99) [State.powerLoss, h, hs]

@[simp] theorem execPfailInput_frame {P : Scope} {r s : State} (h : Fr P r s)
    (hp : P.outside 0x217801000014004624 := by exact Scope.outside_mono (by assumption) (by decide)) :
    ∃ t, execPfailInput s = .next t ∧ Fr P r t := by
  have hs := fun k => Scope.outside_mono (k := k) hp
  exact ⟨_, rfl, by simp (maxDischargeDepth := 99) [h, hs]⟩

@[simp] theorem State.vmSample_frame {P : Scope} {r s : State} (x1) (h : Fr P r s)
    (hp : P.outside 0x3f7f812031160067f4 := by exact Scope.outside_mono (by assumption) (by decide)) :
    Fr P r (State.vmSample s x1) := by
  have hs := fun k => Scope.outside_mono (k := k) hp
  simp (maxDischargeDepth := 99) [State.vmSample, h, hs]

@[simp] theorem State.retractHold_frame {P : Scope} {r s : State} (x1) (h : Fr P r s)
    (hp : P.outside 0x10000000000000200 := by exact Scope.outside_mono (by assumption) (by decide)) :
    Fr P r (State.retractHold s x1) := by
  have hs := fun k => Scope.outside_mono (k := k) hp
  simp (maxDischargeDepth := 99) [State.retractHold, h, hs]

@[simp] theorem State.pwmCompares_frame {P : Scope} {r s : State} (h : Fr P r s)
    (hp : P.outside 0x200 := by exact Scope.outside_mono (by assumption) (by decide)) :
    Fr P r (State.pwmCompares s) := by
  have hs := fun k => Scope.outside_mono (k := k) hp
  simp (maxDischargeDepth := 99) [State.pwmCompares, h, hs]

@[simp] theorem State.shuntSamples_frame {P : Scope} {r s : State} (x1) (x2) (h : Fr P r s)
    (hp : P.outside 0x3f7f812031120067f4 := by exact Scope.outside_mono (by assumption) (by decide)) :
    Fr P r (State.shuntSamples s x1 x2) := by
  have hs := fun k => Scope.outside_mono (k := k) hp
  simp (maxDischargeDepth := 99) [State.shuntSamples, h, hs]

@[simp] theorem State.motObserver_frame {P : Scope} {r s : State} (x1) (h : Fr P r s)
    (hp : P.outside 0x10000000000000200 := by exact Scope.outside_mono (by assumption) (by decide)) :
    Fr P r (State.motObserver s x1) := by
  have hs := fun k => Scope.outside_mono (k := k) hp
  simp (maxDischargeDepth := 99) [State.motObserver, h, hs]

@[simp] theorem State.currentLoop_frame {P : Scope} {r s : State} (x1) (h : Fr P r s)
    (hp : P.outside 0x200 := by exact Scope.outside_mono (by assumption) (by decide)) :
    Fr P r (State.currentLoop s x1) := by
  have hs := fun k => Scope.outside_mono (k := k) hp
  simp (maxDischargeDepth := 99) [State.currentLoop, h, hs]

@[simp] theorem State.handover_frame {P : Scope} {r s : State} (h : Fr P r s)
    (hp : P.outside 0x10000000000000200 := by exact Scope.outside_mono (by assumption) (by decide)) :
    Fr P r (State.handover s) := by
  have hs := fun k => Scope.outside_mono (k := k) hp
  simp (maxDischargeDepth := 99) [State.handover, h, hs]

@[simp] theorem State.sampleVs_frame {P : Scope} {r s : State} (x1) (h : Fr P r s)
    (hp : P.outside 0x200 := by exact Scope.outside_mono (by assumption) (by decide)) :
    Fr P r (State.sampleVs s x1) := by
  have hs := fun k => Scope.outside_mono (k := k) hp
  simp (maxDischargeDepth := 99) [State.sampleVs, h, hs]

@[simp] theorem State.pwmPeriod_frame {P : Scope} {r s : State} (x1) (x2) (x3) (x4) (h : Fr P r s)
    (hp : P.outside 0x3f7f812031160067f4 := by exact Scope.outside_mono (by assumption) (by decide)) :
    Fr P r (State.pwmPeriod s x1 x2 x3 x4) := by
  have hs := fun k => Scope.outside_mono (k := k) hp
  simp (maxDischargeDepth := 99) [State.pwmPeriod, h, hs]

@[simp] theorem execPwmPeriod_frame {P : Scope} {r s : State} (x1) (x2) (x3) (x4) (x5) (x6) (h : Fr P r s)
    (hp : P.outside 0x3f7f812031160067f4 := by exact Scope.outside_mono (by assumption) (by decide)) :
    ∃ t, execPwmPeriod x1 x2 x3 x4 x5 x6 s = .next t ∧ Fr P r t := by
  have hs := fun k => Scope.outside_mono (k := k) hp
  exact ⟨_, rfl, by simp (maxDischargeDepth := 99) [h, hs]⟩

end Sys2Proof.Machine
end

