-- ==== Sys2Proof/Laws/FrameCal.lean ====
section
/-! SUPPORT. What each operation of Machine/Cal.lean leaves alone. -/
set_option linter.unusedSimpArgs false
set_option linter.unusedTactic false
set_option linter.unreachableTactic false
set_option linter.unnecessarySeqFocus false
namespace Sys2Proof.Machine
set_option Elab.async false

@[simp] theorem State.modCal_frame {P : Scope} {r s : State} (x1) (h : Fr P r s)
    (hp : P.outside 0x2000000 := by exact Scope.outside_mono (by assumption) (by decide)) :
    Fr P r (State.modCal s x1) := by
  have hs := fun k => Scope.outside_mono (k := k) hp
  simp (maxDischargeDepth := 99) [State.modCal, h, hs]

@[simp] theorem execCalRunReq_frame {P : Scope} {r s : State} (x1) (h : Fr P r s)
    (hp : P.outside 0x2002000000 := by exact Scope.outside_mono (by assumption) (by decide)) :
    ∃ t, execCalRunReq x1 s = .next t ∧ Fr P r t := by
  have hs := fun k => Scope.outside_mono (k := k) hp
  exact ⟨_, rfl, by simp (maxDischargeDepth := 99) [h, hs]⟩

@[simp] theorem execCalHold_frame {P : Scope} {r s : State} (x1) (h : Fr P r s)
    (hp : P.outside 0x2000000000 := by exact Scope.outside_mono (by assumption) (by decide)) :
    ∃ t, execCalHold x1 s = .next t ∧ Fr P r t := by
  have hs := fun k => Scope.outside_mono (k := k) hp
  exact ⟨_, rfl, by simp (maxDischargeDepth := 99) [h, hs]⟩

@[simp] theorem execCalRunStart_frame {P : Scope} {r s : State} (x1) (h : Fr P r s)
    (hp : P.outside 0x2102000000 := by exact Scope.outside_mono (by assumption) (by decide)) :
    ∃ t, execCalRunStart x1 s = .next t ∧ Fr P r t := by
  have hs := fun k => Scope.outside_mono (k := k) hp
  exact ⟨_, rfl, by simp (maxDischargeDepth := 99) [h, hs]⟩

@[simp] theorem execCalRunEnd_frame {P : Scope} {r s : State} (x1) (h : Fr P r s)
    (hp : P.outside 0x1002102004000 := by exact Scope.outside_mono (by assumption) (by decide)) :
    ∃ t, execCalRunEnd x1 s = .next t ∧ Fr P r t := by
  have hs := fun k => Scope.outside_mono (k := k) hp
  exact ⟨_, rfl, by simp (maxDischargeDepth := 99) [h, hs]⟩

@[simp] theorem State.calShadowWrite_frame {P : Scope} {r s : State} (x1) (x2) (x3) (x4) (h : Fr P r s)
    (hp : P.outside 0x2000000000 := by exact Scope.outside_mono (by assumption) (by decide)) :
    Fr P r (State.calShadowWrite s x1 x2 x3 x4) := by
  have hs := fun k => Scope.outside_mono (k := k) hp
  simp (maxDischargeDepth := 99) [State.calShadowWrite, h, hs]

@[simp] theorem execCalShadowWrite_frame {P : Scope} {r s : State} (x1) (x2) (x3) (x4) (h : Fr P r s)
    (hp : P.outside 0x2000000000 := by exact Scope.outside_mono (by assumption) (by decide)) :
    ∃ t, execCalShadowWrite x1 x2 x3 x4 s = .next t ∧ Fr P r t := by
  have hs := fun k => Scope.outside_mono (k := k) hp
  exact ⟨_, rfl, by simp (maxDischargeDepth := 99) [h, hs]⟩

@[simp] theorem State.calBatchWrite_frame {P : Scope} {r s : State} (x1) (x2) (x3) (h : Fr P r s)
    (hp : P.outside 0x2002000000 := by exact Scope.outside_mono (by assumption) (by decide)) :
    Fr P r (State.calBatchWrite s x1 x2 x3) := by
  have hs := fun k => Scope.outside_mono (k := k) hp
  simp (maxDischargeDepth := 99) [State.calBatchWrite, h, hs]

@[simp] theorem execCalBatchCommit_frame {P : Scope} {r s : State} (x1) (x2) (h : Fr P r s)
    (hp : P.outside 0x2002000000 := by exact Scope.outside_mono (by assumption) (by decide)) :
    ∃ t, execCalBatchCommit x1 x2 s = .next t ∧ Fr P r t := by
  have hs := fun k => Scope.outside_mono (k := k) hp
  exact ⟨_, rfl, by simp (maxDischargeDepth := 99) [h, hs]⟩

@[simp] theorem State.adcoffWrite_frame {P : Scope} {r s : State} (x1) (x2) (x3) (h : Fr P r s)
    (hp : P.outside 0x2000000000 := by exact Scope.outside_mono (by assumption) (by decide)) :
    Fr P r (State.adcoffWrite s x1 x2 x3) := by
  have hs := fun k => Scope.outside_mono (k := k) hp
  simp (maxDischargeDepth := 99) [State.adcoffWrite, h, hs]

@[simp] theorem execCalAdcoffSend_frame {P : Scope} {r s : State} (x1) (x2) (h : Fr P r s)
    (hp : P.outside 0x2010000004 := by exact Scope.outside_mono (by assumption) (by decide)) :
    ∃ t, execCalAdcoffSend x1 x2 s = .next t ∧ Fr P r t := by
  have hs := fun k => Scope.outside_mono (k := k) hp
  exact ⟨_, rfl, by simp (maxDischargeDepth := 99) [h, hs]⟩

@[simp] theorem State.upreWrite_frame {P : Scope} {r s : State} (x1) (x2) (x3) (x4) (h : Fr P r s)
    (hp : P.outside 0x2012000004 := by exact Scope.outside_mono (by assumption) (by decide)) :
    Fr P r (State.upreWrite s x1 x2 x3 x4) := by
  have hs := fun k => Scope.outside_mono (k := k) hp
  unfold State.upreWrite
  repeat' first
    | (simp (maxDischargeDepth := 99) [h, hs]; done)
    | split
    | refine State.each_frame (fun s x => ?_) _ ?_
    | refine State.onlyIf_frame _ (fun s => ?_) ?_
    | simp (maxDischargeDepth := 99) [h, hs]

@[simp] theorem State.jpreWrite_frame {P : Scope} {r s : State} (x1) (x2) (x3) (h : Fr P r s)
    (hp : P.outside 0x2002000000 := by exact Scope.outside_mono (by assumption) (by decide)) :
    Fr P r (State.jpreWrite s x1 x2 x3) := by
  have hs := fun k => Scope.outside_mono (k := k) hp
  simp (maxDischargeDepth := 99) [State.jpreWrite, h, hs]

@[simp] theorem State.calSettle_frame {P : Scope} {r s : State} (h : Fr P r s)
    (hp : P.outside 0x2000000 := by exact Scope.outside_mono (by assumption) (by decide)) :
    Fr P r (State.calSettle s) := by
  have hs := fun k => Scope.outside_mono (k := k) hp
  simp (maxDischargeDepth := 99) [State.calSettle, h, hs]

@[simp] theorem execDieTempUpdate_frame {P : Scope} {r s : State} (x1) (h : Fr P r s)
    (hp : P.outside 0x1002002004000 := by exact Scope.outside_mono (by assumption) (by decide)) :
    ∃ t, execDieTempUpdate x1 s = .next t ∧ Fr P r t := by
  have hs := fun k => Scope.outside_mono (k := k) hp
  exact ⟨_, rfl, by simp (maxDischargeDepth := 99) [h, hs]⟩

@[simp] theorem execThermalTrip_frame {P : Scope} {r s : State} (h : Fr P r s)
    (hp : P.outside 0x3f7f81203d164067f4 := by exact Scope.outside_mono (by assumption) (by decide)) :
    ∃ t, execThermalTrip s = .next t ∧ Fr P r t := by
  have hs := fun k => Scope.outside_mono (k := k) hp
  exact ⟨_, rfl, by simp (maxDischargeDepth := 99) [h, hs]⟩

end Sys2Proof.Machine
end

