-- ==== Sys2Proof/Laws/FrameDbg.lean ====
section
/-! SUPPORT. What each operation of Machine/Dbg.lean leaves alone. -/
set_option linter.unusedSimpArgs false
set_option linter.unusedTactic false
set_option linter.unreachableTactic false
set_option linter.unnecessarySeqFocus false
namespace Sys2Proof.Machine
set_option Elab.async false

@[simp] theorem State.modDbg_frame {P : Scope} {r s : State} (x1) (h : Fr P r s)
    (hp : P.outside 0x1000000 := by exact Scope.outside_mono (by assumption) (by decide)) :
    Fr P r (State.modDbg s x1) := by
  have hs := fun k => Scope.outside_mono (k := k) hp
  simp (maxDischargeDepth := 99) [State.modDbg, h, hs]

@[simp] theorem State.tapLoad_frame {P : Scope} {r s : State} (x1) (x2) (h : Fr P r s)
    (hp : P.outside 0x1000000 := by exact Scope.outside_mono (by assumption) (by decide)) :
    Fr P r (State.tapLoad s x1 x2) := by
  have hs := fun k => Scope.outside_mono (k := k) hp
  simp (maxDischargeDepth := 99) [State.tapLoad, h, hs]

@[simp] theorem execExtest_frame {P : Scope} {r s : State} (h : Fr P r s)
    (hp : P.outside 0x1000000 := by exact Scope.outside_mono (by assumption) (by decide)) :
    ∃ t, execExtest s = .next t ∧ Fr P r t := by
  have hs := fun k => Scope.outside_mono (k := k) hp
  exact ⟨_, rfl, by simp (maxDischargeDepth := 99) [h, hs]⟩

@[simp] theorem execSamplePreload_frame {P : Scope} {r s : State} (x1) (h : Fr P r s)
    (hp : P.outside 0x1000000 := by exact Scope.outside_mono (by assumption) (by decide)) :
    ∃ t, execSamplePreload x1 s = .next t ∧ Fr P r t := by
  have hs := fun k => Scope.outside_mono (k := k) hp
  exact ⟨_, rfl, by simp (maxDischargeDepth := 99) [h, hs]⟩

@[simp] theorem execIdcode_frame {P : Scope} {r s : State} (h : Fr P r s)
    (hp : P.outside 0x1000000 := by exact Scope.outside_mono (by assumption) (by decide)) :
    ∃ t, execIdcode s = .next t ∧ Fr P r t := by
  have hs := fun k => Scope.outside_mono (k := k) hp
  exact ⟨_, rfl, by simp (maxDischargeDepth := 99) [h, hs]⟩

@[simp] theorem execExtestPulse_frame {P : Scope} {r s : State} (h : Fr P r s)
    (hp : P.outside 0x1000000 := by exact Scope.outside_mono (by assumption) (by decide)) :
    ∃ t, execExtestPulse s = .next t ∧ Fr P r t := by
  have hs := fun k => Scope.outside_mono (k := k) hp
  exact ⟨_, rfl, by simp (maxDischargeDepth := 99) [h, hs]⟩

@[simp] theorem execExtestTrain_frame {P : Scope} {r s : State} (h : Fr P r s)
    (hp : P.outside 0x1000000 := by exact Scope.outside_mono (by assumption) (by decide)) :
    ∃ t, execExtestTrain s = .next t ∧ Fr P r t := by
  have hs := fun k => Scope.outside_mono (k := k) hp
  exact ⟨_, rfl, by simp (maxDischargeDepth := 99) [h, hs]⟩

@[simp] theorem execHighz_frame {P : Scope} {r s : State} (h : Fr P r s)
    (hp : P.outside 0x1000000 := by exact Scope.outside_mono (by assumption) (by decide)) :
    ∃ t, execHighz s = .next t ∧ Fr P r t := by
  have hs := fun k => Scope.outside_mono (k := k) hp
  exact ⟨_, rfl, by simp (maxDischargeDepth := 99) [h, hs]⟩

@[simp] theorem execClamp_frame {P : Scope} {r s : State} (h : Fr P r s)
    (hp : P.outside 0x1000000 := by exact Scope.outside_mono (by assumption) (by decide)) :
    ∃ t, execClamp s = .next t ∧ Fr P r t := by
  have hs := fun k => Scope.outside_mono (k := k) hp
  exact ⟨_, rfl, by simp (maxDischargeDepth := 99) [h, hs]⟩

@[simp] theorem execScan_frame {P : Scope} {r s : State} (h : Fr P r s)
    (hp : P.outside 0x1000000 := by exact Scope.outside_mono (by assumption) (by decide)) :
    ∃ t, execScan s = .next t ∧ Fr P r t := by
  have hs := fun k => Scope.outside_mono (k := k) hp
  exact ⟨_, rfl, by simp (maxDischargeDepth := 99) [h, hs]⟩

@[simp] theorem execBypass_frame {P : Scope} {r s : State} (h : Fr P r s)
    (hp : P.outside 0x1000000 := by exact Scope.outside_mono (by assumption) (by decide)) :
    ∃ t, execBypass s = .next t ∧ Fr P r t := by
  have hs := fun k => Scope.outside_mono (k := k) hp
  exact ⟨_, rfl, by simp (maxDischargeDepth := 99) [h, hs]⟩

@[simp] theorem State.haltWrite_frame {P : Scope} {r s : State} (x1) (h : Fr P r s)
    (hp : P.outside 0x40000000000000000000 := by exact Scope.outside_mono (by assumption) (by decide)) :
    Fr P r (State.haltWrite s x1) := by
  have hs := fun k => Scope.outside_mono (k := k) hp
  simp (maxDischargeDepth := 99) [State.haltWrite, h, hs]

@[simp] theorem execDbgHalt_frame {P : Scope} {r s : State} (x1) (h : Fr P r s)
    (hp : P.outside 0x40000000000000000000 := by exact Scope.outside_mono (by assumption) (by decide)) :
    ∃ t, execDbgHalt x1 s = .next t ∧ Fr P r t := by
  have hs := fun k => Scope.outside_mono (k := k) hp
  exact ⟨_, rfl, by simp (maxDischargeDepth := 99) [h, hs]⟩

@[simp] theorem State.lockSet_frame {P : Scope} {r s : State} (h : Fr P r s)
    (hp : P.outside 0x40000000000000000000 := by exact Scope.outside_mono (by assumption) (by decide)) :
    Fr P r (State.lockSet s) := by
  have hs := fun k => Scope.outside_mono (k := k) hp
  simp (maxDischargeDepth := 99) [State.lockSet, h, hs]

@[simp] theorem execDbgLock_frame {P : Scope} {r s : State} (h : Fr P r s)
    (hp : P.outside 0x40000000000000000000 := by exact Scope.outside_mono (by assumption) (by decide)) :
    ∃ t, execDbgLock s = .next t ∧ Fr P r t := by
  have hs := fun k => Scope.outside_mono (k := k) hp
  exact ⟨_, rfl, by simp (maxDischargeDepth := 99) [h, hs]⟩

end Sys2Proof.Machine
end

