-- ==== Sys2Proof/Laws/FrameHif.lean ====
section
/-! SUPPORT. What each operation of Machine/Hif.lean leaves alone. -/
set_option linter.unusedSimpArgs false
set_option linter.unusedTactic false
set_option linter.unreachableTactic false
set_option linter.unnecessarySeqFocus false
namespace Sys2Proof.Machine
set_option Elab.async false

@[simp] theorem State.unstage_frame {P : Scope} {r s : State} (x1) (h : Fr P r s)
    (hp : P.outside 0x20000 := by exact Scope.outside_mono (by assumption) (by decide)) :
    Fr P r (State.unstage s x1) := by
  have hs := fun k => Scope.outside_mono (k := k) hp
  simp (maxDischargeDepth := 99) [State.unstage, h, hs]

@[simp] theorem State.endRunning_frame {P : Scope} {r s : State} (x1) (h : Fr P r s)
    (hp : P.outside 0x3e000118000007c5a0 := by exact Scope.outside_mono (by assumption) (by decide)) :
    Fr P r (State.endRunning s x1) := by
  have hs := fun k => Scope.outside_mono (k := k) hp
  unfold State.endRunning
  repeat' first
    | (simp (maxDischargeDepth := 99) [h, hs]; done)
    | split
    | refine State.each_frame (fun s x => ?_) _ ?_
    | refine State.onlyIf_frame _ (fun s => ?_) ?_
    | simp (maxDischargeDepth := 99) [h, hs]

@[simp] theorem State.endWaiting_frame {P : Scope} {r s : State} (x1) (x2) (h : Fr P r s)
    (hp : P.outside 0x3e000118000007c5a0 := by exact Scope.outside_mono (by assumption) (by decide)) :
    Fr P r (State.endWaiting s x1 x2) := by
  have hs := fun k => Scope.outside_mono (k := k) hp
  unfold State.endWaiting
  repeat' first
    | (simp (maxDischargeDepth := 99) [h, hs]; done)
    | split
    | refine State.each_frame (fun s x => ?_) _ ?_
    | refine State.onlyIf_frame _ (fun s => ?_) ?_
    | simp (maxDischargeDepth := 99) [h, hs]

@[simp] theorem execCommandAdmission_frame {P : Scope} {r s : State} (h : Fr P r s)
    (hp : P.outside 0x3e000118000007c5a0 := by exact Scope.outside_mono (by assumption) (by decide)) :
    ∃ t, execCommandAdmission s = .next t ∧ Fr P r t := by
  have hs := fun k => Scope.outside_mono (k := k) hp
  refine ⟨_, rfl, ?_⟩
  (repeat' split) <;> simp (maxDischargeDepth := 99) [h, hs]

@[simp] theorem State.dropCpls_frame {P : Scope} {r s : State} (x1) (h : Fr P r s)
    (hp : P.outside 0x4000 := by exact Scope.outside_mono (by assumption) (by decide)) :
    Fr P r (State.dropCpls s x1) := by
  have hs := fun k => Scope.outside_mono (k := k) hp
  simp (maxDischargeDepth := 99) [State.dropCpls, h, hs]

@[simp] theorem State.assocEnd_frame {P : Scope} {r s : State} (x1) (h : Fr P r s)
    (hp : P.outside 0x3e00011f818017c5a0 := by exact Scope.outside_mono (by assumption) (by decide)) :
    Fr P r (State.assocEnd s x1) := by
  have hs := fun k => Scope.outside_mono (k := k) hp
  simp (maxDischargeDepth := 99) [State.assocEnd, h, hs]

@[simp] theorem execKeepAliveExpiry_frame {P : Scope} {r s : State} (x1) (h : Fr P r s)
    (hp : P.outside 0x3e00011f818017c5a0 := by exact Scope.outside_mono (by assumption) (by decide)) :
    ∃ t, execKeepAliveExpiry x1 s = .next t ∧ Fr P r t := by
  have hs := fun k => Scope.outside_mono (k := k) hp
  refine ⟨_, rfl, ?_⟩
  (repeat' split) <;> simp (maxDischargeDepth := 99) [h, hs]

@[simp] theorem State.hifDrop_frame {P : Scope} {r s : State} (x1) (x2) (h : Fr P r s)
    (hp : P.outside 0x78000008000 := by exact Scope.outside_mono (by assumption) (by decide)) :
    Fr P r (State.hifDrop s x1 x2) := by
  have hs := fun k => Scope.outside_mono (k := k) hp
  simp (maxDischargeDepth := 99) [State.hifDrop, h, hs]

@[simp] theorem State.hifPortEn_frame {P : Scope} {r s : State} (x1) (x2) (h : Fr P r s)
    (hp : P.outside 0x3e00011f818017c5a0 := by exact Scope.outside_mono (by assumption) (by decide)) :
    Fr P r (State.hifPortEn s x1 x2) := by
  have hs := fun k => Scope.outside_mono (k := k) hp
  simp (maxDischargeDepth := 99) [State.hifPortEn, h, hs]

@[simp] theorem execHifPortEn_frame {P : Scope} {r s : State} (x1) (x2) (h : Fr P r s)
    (hp : P.outside 0x3e00011f818017c5a0 := by exact Scope.outside_mono (by assumption) (by decide)) :
    ∃ t, execHifPortEn x1 x2 s = .next t ∧ Fr P r t := by
  have hs := fun k => Scope.outside_mono (k := k) hp
  exact ⟨_, rfl, by simp (maxDischargeDepth := 99) [h, hs]⟩

@[simp] theorem State.hifRestart_frame {P : Scope} {r s : State} (x1) (h : Fr P r s)
    (hp : P.outside 0x78000008000 := by exact Scope.outside_mono (by assumption) (by decide)) :
    Fr P r (State.hifRestart s x1) := by
  have hs := fun k => Scope.outside_mono (k := k) hp
  simp (maxDischargeDepth := 99) [State.hifRestart, h, hs]

@[simp] theorem execHifRestartAn_frame {P : Scope} {r s : State} (x1) (h : Fr P r s)
    (hp : P.outside 0x78000008000 := by exact Scope.outside_mono (by assumption) (by decide)) :
    ∃ t, execHifRestartAn x1 s = .next t ∧ Fr P r t := by
  have hs := fun k => Scope.outside_mono (k := k) hp
  exact ⟨_, rfl, by simp (maxDischargeDepth := 99) [h, hs]⟩

@[simp] theorem State.hifModeWrite_frame {P : Scope} {r s : State} (x1) (x2) (x3) (h : Fr P r s)
    (hp : P.outside 0x78000000000 := by exact Scope.outside_mono (by assumption) (by decide)) :
    Fr P r (State.hifModeWrite s x1 x2 x3) := by
  have hs := fun k => Scope.outside_mono (k := k) hp
  simp (maxDischargeDepth := 99) [State.hifModeWrite, h, hs]

@[simp] theorem execHifModeWrite_frame {P : Scope} {r s : State} (x1) (x2) (x3) (h : Fr P r s)
    (hp : P.outside 0x78000000000 := by exact Scope.outside_mono (by assumption) (by decide)) :
    ∃ t, execHifModeWrite x1 x2 x3 s = .next t ∧ Fr P r t := by
  have hs := fun k => Scope.outside_mono (k := k) hp
  exact ⟨_, rfl, by simp (maxDischargeDepth := 99) [h, hs]⟩

@[simp] theorem State.hifQlimitWrite_frame {P : Scope} {r s : State} (x1) (x2) (h : Fr P r s)
    (hp : P.outside 0x78000000000 := by exact Scope.outside_mono (by assumption) (by decide)) :
    Fr P r (State.hifQlimitWrite s x1 x2) := by
  have hs := fun k => Scope.outside_mono (k := k) hp
  simp (maxDischargeDepth := 99) [State.hifQlimitWrite, h, hs]

@[simp] theorem execHifQlimitWrite_frame {P : Scope} {r s : State} (x1) (x2) (h : Fr P r s)
    (hp : P.outside 0x78000000000 := by exact Scope.outside_mono (by assumption) (by decide)) :
    ∃ t, execHifQlimitWrite x1 x2 s = .next t ∧ Fr P r t := by
  have hs := fun k => Scope.outside_mono (k := k) hp
  exact ⟨_, rfl, by simp (maxDischargeDepth := 99) [h, hs]⟩

@[simp] theorem State.hifLattolWrite_frame {P : Scope} {r s : State} (x1) (x2) (h : Fr P r s)
    (hp : P.outside 0x7fffffffffff80106001 := by exact Scope.outside_mono (by assumption) (by decide)) :
    Fr P r (State.hifLattolWrite s x1 x2) := by
  have hs := fun k => Scope.outside_mono (k := k) hp
  simp (maxDischargeDepth := 99) [State.hifLattolWrite, h, hs]

@[simp] theorem execHifLattolWrite_frame {P : Scope} {r s : State} (x1) (x2) (h : Fr P r s)
    (hp : P.outside 0x7fffffffffff80106001 := by exact Scope.outside_mono (by assumption) (by decide)) :
    ∃ t, execHifLattolWrite x1 x2 s = .next t ∧ Fr P r t := by
  have hs := fun k => Scope.outside_mono (k := k) hp
  exact ⟨_, rfl, by simp (maxDischargeDepth := 99) [h, hs]⟩

@[simp] theorem execAnAttemptDone_frame {P : Scope} {r s : State} (x1) (x2) (h : Fr P r s)
    (hp : P.outside 0x78000008000 := by exact Scope.outside_mono (by assumption) (by decide)) :
    ∃ t, execAnAttemptDone x1 x2 s = .next t ∧ Fr P r t := by
  have hs := fun k => Scope.outside_mono (k := k) hp
  refine ⟨_, rfl, ?_⟩
  (repeat' split) <;> simp (maxDischargeDepth := 99) [h, hs]

@[simp] theorem execAnRetryTimer_frame {P : Scope} {r s : State} (x1) (h : Fr P r s)
    (hp : P.outside 0x8000 := by exact Scope.outside_mono (by assumption) (by decide)) :
    ∃ t, execAnRetryTimer x1 s = .next t ∧ Fr P r t := by
  have hs := fun k => Scope.outside_mono (k := k) hp
  exact ⟨_, rfl, by simp (maxDischargeDepth := 99) [h, hs]⟩

@[simp] theorem execHifLinkDown_frame {P : Scope} {r s : State} (x1) (h : Fr P r s)
    (hp : P.outside 0x78000008000 := by exact Scope.outside_mono (by assumption) (by decide)) :
    ∃ t, execHifLinkDown x1 s = .next t ∧ Fr P r t := by
  have hs := fun k => Scope.outside_mono (k := k) hp
  exact ⟨_, rfl, by simp (maxDischargeDepth := 99) [h, hs]⟩

@[simp] theorem execTcpConnectionOpen_frame {P : Scope} {r s : State} (x1) (x2) (x3) (x4) (h : Fr P r s)
    (hp : P.outside 0x8000 := by exact Scope.outside_mono (by assumption) (by decide)) :
    ∃ t, execTcpConnectionOpen x1 x2 x3 x4 s = .next t ∧ Fr P r t := by
  have hs := fun k => Scope.outside_mono (k := k) hp
  exact ⟨_, rfl, by simp (maxDischargeDepth := 99) [h, hs]⟩

@[simp] theorem State.hifViolate_frame {P : Scope} {r s : State} (x1) (h : Fr P r s)
    (hp : P.outside 0x1078000004000 := by exact Scope.outside_mono (by assumption) (by decide)) :
    Fr P r (State.hifViolate s x1) := by
  have hs := fun k => Scope.outside_mono (k := k) hp
  simp (maxDischargeDepth := 99) [State.hifViolate, h, hs]

@[simp] theorem State.backPressure_frame {P : Scope} {r s : State} (x1) (h : Fr P r s)
    (hp : P.outside 0x107800000c000 := by exact Scope.outside_mono (by assumption) (by decide)) :
    Fr P r (State.backPressure s x1) := by
  have hs := fun k => Scope.outside_mono (k := k) hp
  simp (maxDischargeDepth := 99) [State.backPressure, h, hs]

@[simp] theorem State.tcpCapsule_frame {P : Scope} {r s : State} (x1) (x2) (x3) (h : Fr P r s)
    (hp : P.outside 0x107800000c000 := by exact Scope.outside_mono (by assumption) (by decide)) :
    Fr P r (State.tcpCapsule s x1 x2 x3) := by
  have hs := fun k => Scope.outside_mono (k := k) hp
  unfold State.tcpCapsule
  (repeat' split) <;> simp (maxDischargeDepth := 99) [h, hs]

@[simp] theorem State.roceSend_frame {P : Scope} {r s : State} (x1) (x2) (x3) (h : Fr P r s)
    (hp : P.outside 0x107801000c000 := by exact Scope.outside_mono (by assumption) (by decide)) :
    Fr P r (State.roceSend s x1 x2 x3) := by
  have hs := fun k => Scope.outside_mono (k := k) hp
  simp (maxDischargeDepth := 99) [State.roceSend, h, hs]

@[simp] theorem State.wakeFrame_frame {P : Scope} {r s : State} (x1) (x2) (x3) (x4) (x5) (x6) (x7) (h : Fr P r s)
    (hp : P.outside 0x1078180184000 := by exact Scope.outside_mono (by assumption) (by decide)) :
    Fr P r (State.wakeFrame s x1 x2 x3 x4 x5 x6 x7) := by
  have hs := fun k => Scope.outside_mono (k := k) hp
  simp (maxDischargeDepth := 99) [State.wakeFrame, h, hs]

@[simp] theorem State.framePay_frame {P : Scope} {r s : State} (x1) (x2) (h : Fr P r s)
    (hp : P.outside 0x107819018c000 := by exact Scope.outside_mono (by assumption) (by decide)) :
    Fr P r (State.framePay s x1 x2) := by
  have hs := fun k => Scope.outside_mono (k := k) hp
  unfold State.framePay
  (repeat' split) <;> simp (maxDischargeDepth := 99) [h, hs]

@[simp] theorem execEthFrameRx_frame {P : Scope} {r s : State} (x1) (x2) (h : Fr P r s)
    (hp : P.outside 0x107819018c000 := by exact Scope.outside_mono (by assumption) (by decide)) :
    ∃ t, execEthFrameRx x1 x2 s = .next t ∧ Fr P r t := by
  have hs := fun k => Scope.outside_mono (k := k) hp
  exact ⟨_, rfl, by simp (maxDischargeDepth := 99) [h, hs]⟩

end Sys2Proof.Machine
end

