-- ==== Sys2Proof/Laws/FrameNvme.lean ====
section
/-! SUPPORT. What each operation of Machine/Nvme.lean leaves alone. -/
set_option linter.unusedSimpArgs false
set_option linter.unusedTactic false
set_option linter.unreachableTactic false
set_option linter.unnecessarySeqFocus false
namespace Sys2Proof.Machine
set_option Elab.async false

@[simp] theorem State.adminRow_frame {P : Scope} {r s : State} (c : Nat) {f : State → Ctx → HostOp → Option AdminRes}
    (hf : ∀ s x o y, f s x o = some y → Fr P s y.1) (h : Fr P r s)
    (hp : P.outside 0x1000000014000 := by exact Scope.outside_mono (by assumption) (by decide)) :
    Fr P r (s.adminRow c f) := by
  have hs := fun k => Scope.outside_mono (k := k) hp
  unfold State.adminRow
  split
  · exact h
  · split
    · exact h
    · rename_i heq
      have k := h.trans (hf _ _ _ _ heq)
      refine State.ctxEnd_frame _ _ ?_
      split <;> simp (maxDischargeDepth := 99) [k, hs]

theorem State.connectCmd_frame {P : Scope} {s : State} (x : Ctx) (o : HostOp) {y : AdminRes} (hy : s.connectCmd x o = some y)
    (hp : P.outside 0x78180108000 := by exact Scope.outside_mono (by assumption) (by decide)) : Fr P s y.1 := by
  have hs := fun k => Scope.outside_mono (k := k) hp
  unfold State.connectCmd at hy
  dsimp only at hy
  (repeat' split at hy) <;> first | (cases hy; done) | (cases hy; simp (maxDischargeDepth := 99) [hs])

@[simp] theorem execConnect_frame {P : Scope} {r s : State} (x1) (h : Fr P r s)
    (hp : P.outside 0x107818011c000 := by exact Scope.outside_mono (by assumption) (by decide)) :
    ∃ t, execConnect x1 s = .next t ∧ Fr P r t := by
  have hs := fun k => Scope.outside_mono (k := k) hp
  refine ⟨_, rfl, ?_⟩
  repeat' first
    | (simp (maxDischargeDepth := 99) [h, hs]; done)
    | split
    | refine State.adminRow_frame _ (fun s x o y hy => ?_) ?_
    | split at hy
    | (cases hy; done)
    | cases hy
    | exact State.connectCmd_frame _ _ hy
    | refine State.each_frame (fun s x => ?_) _ ?_
    | refine State.onlyIf_frame _ (fun s => ?_) ?_
    | simp (maxDischargeDepth := 99) [h, hs]

@[simp] theorem execDisconnect_frame {P : Scope} {r s : State} (x1) (h : Fr P r s)
    (hp : P.outside 0x100000001c000 := by exact Scope.outside_mono (by assumption) (by decide)) :
    ∃ t, execDisconnect x1 s = .next t ∧ Fr P r t := by
  have hs := fun k => Scope.outside_mono (k := k) hp
  refine ⟨_, rfl, ?_⟩
  repeat' first
    | (simp (maxDischargeDepth := 99) [h, hs]; done)
    | split
    | refine State.adminRow_frame _ (fun s x o y hy => ?_) ?_
    | split at hy
    | (cases hy; done)
    | cases hy
    | exact State.connectCmd_frame _ _ hy
    | refine State.each_frame (fun s x => ?_) _ ?_
    | refine State.onlyIf_frame _ (fun s => ?_) ?_
    | simp (maxDischargeDepth := 99) [h, hs]

@[simp] theorem execPropertyGet_frame {P : Scope} {r s : State} (x1) (h : Fr P r s)
    (hp : P.outside 0x1000000014000 := by exact Scope.outside_mono (by assumption) (by decide)) :
    ∃ t, execPropertyGet x1 s = .next t ∧ Fr P r t := by
  have hs := fun k => Scope.outside_mono (k := k) hp
  refine ⟨_, rfl, ?_⟩
  repeat' first
    | (simp (maxDischargeDepth := 99) [h, hs]; done)
    | split
    | refine State.adminRow_frame _ (fun s x o y hy => ?_) ?_
    | split at hy
    | (cases hy; done)
    | cases hy
    | exact State.connectCmd_frame _ _ hy
    | refine State.each_frame (fun s x => ?_) _ ?_
    | refine State.onlyIf_frame _ (fun s => ?_) ?_
    | simp (maxDischargeDepth := 99) [h, hs]

@[simp] theorem State.resetDone_frame {P : Scope} {r s : State} (x1) (h : Fr P r s)
    (hp : P.outside 0x8000 := by exact Scope.outside_mono (by assumption) (by decide)) :
    Fr P r (State.resetDone s x1) := by
  have hs := fun k => Scope.outside_mono (k := k) hp
  simp (maxDischargeDepth := 99) [State.resetDone, h, hs]

@[simp] theorem State.activateStart_frame {P : Scope} {r s : State} (x1) (x2) (h : Fr P r s)
    (hp : P.outside 0x100000030000 := by exact Scope.outside_mono (by assumption) (by decide)) :
    Fr P r (State.activateStart s x1 x2) := by
  have hs := fun k => Scope.outside_mono (k := k) hp
  simp (maxDischargeDepth := 99) [State.activateStart, h, hs]

@[simp] theorem State.resetEngines_frame {P : Scope} {r s : State} (h : Fr P r s)
    (hp : P.outside 0x3e00010000000045a0 := by exact Scope.outside_mono (by assumption) (by decide)) :
    Fr P r (State.resetEngines s) := by
  have hs := fun k => Scope.outside_mono (k := k) hp
  unfold State.resetEngines
  repeat' first
    | (simp (maxDischargeDepth := 99) [h, hs]; done)
    | split
    | refine State.each_frame (fun s x => ?_) _ ?_
    | refine State.onlyIf_frame _ (fun s => ?_) ?_
    | simp (maxDischargeDepth := 99) [h, hs]

@[simp] theorem State.ctrlReset_frame {P : Scope} {r s : State} (x1) (x2) (h : Fr P r s)
    (hp : P.outside 0x3e000118000007c5a0 := by exact Scope.outside_mono (by assumption) (by decide)) :
    Fr P r (State.ctrlReset s x1 x2) := by
  have hs := fun k => Scope.outside_mono (k := k) hp
  unfold State.ctrlReset
  dsimp only
  repeat' first
    | (simp (maxDischargeDepth := 99) [h, hs]; done)
    | split
    | refine State.each_frame (fun s x => ?_) _ ?_
    | refine State.onlyIf_frame _ (fun s => ?_) ?_
    | simp (maxDischargeDepth := 99) [h, hs]

@[simp] theorem execControllerReset_frame {P : Scope} {r s : State} (x1) (h : Fr P r s)
    (hp : P.outside 0x3e000118000007c5a0 := by exact Scope.outside_mono (by assumption) (by decide)) :
    ∃ t, execControllerReset x1 s = .next t ∧ Fr P r t := by
  have hs := fun k => Scope.outside_mono (k := k) hp
  refine ⟨_, rfl, ?_⟩
  (repeat' split) <;> simp (maxDischargeDepth := 99) [h, hs]

@[simp] theorem State.shutdownStep_frame {P : Scope} {r s : State} (x1) (x2) (h : Fr P r s)
    (hp : P.outside 0x28000 := by exact Scope.outside_mono (by assumption) (by decide)) :
    Fr P r (State.shutdownStep s x1 x2) := by
  have hs := fun k => Scope.outside_mono (k := k) hp
  simp (maxDischargeDepth := 99) [State.shutdownStep, h, hs]

@[simp] theorem State.shutdownStart_frame {P : Scope} {r s : State} (x1) (x2) (h : Fr P r s)
    (hp : P.outside 0x8000 := by exact Scope.outside_mono (by assumption) (by decide)) :
    Fr P r (State.shutdownStart s x1 x2) := by
  have hs := fun k => Scope.outside_mono (k := k) hp
  simp (maxDischargeDepth := 99) [State.shutdownStart, h, hs]

@[simp] theorem execControllerShutdown_frame {P : Scope} {r s : State} (x1) (h : Fr P r s)
    (hp : P.outside 0x28000 := by exact Scope.outside_mono (by assumption) (by decide)) :
    ∃ t, execControllerShutdown x1 s = .next t ∧ Fr P r t := by
  have hs := fun k => Scope.outside_mono (k := k) hp
  refine ⟨_, rfl, ?_⟩
  (repeat' split) <;> simp (maxDischargeDepth := 99) [h, hs]

@[simp] theorem execPropertySet_frame {P : Scope} {r s : State} (x1) (h : Fr P r s)
    (hp : P.outside 0x3e000118000007c5a0 := by exact Scope.outside_mono (by assumption) (by decide)) :
    ∃ t, execPropertySet x1 s = .next t ∧ Fr P r t := by
  have hs := fun k => Scope.outside_mono (k := k) hp
  refine ⟨_, rfl, ?_⟩
  (repeat' split) <;> simp (maxDischargeDepth := 99) [h, hs]

@[simp] theorem execIdentify_frame {P : Scope} {r s : State} (x1) (h : Fr P r s)
    (hp : P.outside 0x1000000014000 := by exact Scope.outside_mono (by assumption) (by decide)) :
    ∃ t, execIdentify x1 s = .next t ∧ Fr P r t := by
  have hs := fun k => Scope.outside_mono (k := k) hp
  refine ⟨_, rfl, ?_⟩
  repeat' first
    | (simp (maxDischargeDepth := 99) [h, hs]; done)
    | split
    | refine State.adminRow_frame _ (fun s x o y hy => ?_) ?_
    | split at hy
    | (cases hy; done)
    | cases hy
    | exact State.connectCmd_frame _ _ hy
    | refine State.each_frame (fun s x => ?_) _ ?_
    | refine State.onlyIf_frame _ (fun s => ?_) ?_
    | simp (maxDischargeDepth := 99) [h, hs]

@[simp] theorem State.logRead_frame {P : Scope} {r s : State} (x1) (x2) (x3) (h : Fr P r s)
    (hp : P.outside 0x20000 := by exact Scope.outside_mono (by assumption) (by decide)) :
    Fr P r (State.logRead s x1 x2 x3) := by
  have hs := fun k => Scope.outside_mono (k := k) hp
  unfold State.logRead
  (repeat' split) <;> simp (maxDischargeDepth := 99) [h, hs]

@[simp] theorem State.logPageCmd_frame {P : Scope} {r s : State} (x1) (x2) (x3) (h : Fr P r s)
    (hp : P.outside 0x20000 := by exact Scope.outside_mono (by assumption) (by decide)) :
    Fr P r (State.logPageCmd s x1 x2 x3).1 := by
  have hs := fun k => Scope.outside_mono (k := k) hp
  unfold State.logPageCmd
  repeat' first
    | (simp (maxDischargeDepth := 99) [h, hs]; done)
    | split
    | refine State.each_frame (fun s x => ?_) _ ?_
    | refine State.onlyIf_frame _ (fun s => ?_) ?_
    | simp (maxDischargeDepth := 99) [h, hs]

@[simp] theorem execGetLogPage_frame {P : Scope} {r s : State} (x1) (h : Fr P r s)
    (hp : P.outside 0x1000000034000 := by exact Scope.outside_mono (by assumption) (by decide)) :
    ∃ t, execGetLogPage x1 s = .next t ∧ Fr P r t := by
  have hs := fun k => Scope.outside_mono (k := k) hp
  refine ⟨_, rfl, ?_⟩
  repeat' first
    | (simp (maxDischargeDepth := 99) [h, hs]; done)
    | split
    | refine State.adminRow_frame _ (fun s x o y hy => ?_) ?_
    | split at hy
    | (cases hy; done)
    | cases hy
    | exact State.connectCmd_frame _ _ hy
    | refine State.each_frame (fun s x => ?_) _ ?_
    | refine State.onlyIf_frame _ (fun s => ?_) ?_
    | simp (maxDischargeDepth := 99) [h, hs]

@[simp] theorem State.applyApst_frame {P : Scope} {r s : State} (x1) (h : Fr P r s)
    (hp : P.outside 0x100000000 := by exact Scope.outside_mono (by assumption) (by decide)) :
    Fr P r (State.applyApst s x1) := by
  have hs := fun k => Scope.outside_mono (k := k) hp
  simp (maxDischargeDepth := 99) [State.applyApst, h, hs]

@[simp] theorem State.setFeature_frame {P : Scope} {r s : State} (x1) (x2) (x3) (x4) (h : Fr P r s)
    (hp : P.outside 0x7fffffffffff8010e001 := by exact Scope.outside_mono (by assumption) (by decide)) :
    Fr P r (State.setFeature s x1 x2 x3 x4).1 := by
  have hs := fun k => Scope.outside_mono (k := k) hp
  unfold State.setFeature
  (repeat' split) <;> simp (maxDischargeDepth := 99) [h, hs]

@[simp] theorem execSetFeatures_frame {P : Scope} {r s : State} (x1) (h : Fr P r s)
    (hp : P.outside 0x7fffffffffff8011e001 := by exact Scope.outside_mono (by assumption) (by decide)) :
    ∃ t, execSetFeatures x1 s = .next t ∧ Fr P r t := by
  have hs := fun k => Scope.outside_mono (k := k) hp
  refine ⟨_, rfl, ?_⟩
  repeat' first
    | (simp (maxDischargeDepth := 99) [h, hs]; done)
    | split
    | refine State.adminRow_frame _ (fun s x o y hy => ?_) ?_
    | split at hy
    | (cases hy; done)
    | cases hy
    | exact State.connectCmd_frame _ _ hy
    | refine State.each_frame (fun s x => ?_) _ ?_
    | refine State.onlyIf_frame _ (fun s => ?_) ?_
    | simp (maxDischargeDepth := 99) [h, hs]

@[simp] theorem execGetFeatures_frame {P : Scope} {r s : State} (x1) (h : Fr P r s)
    (hp : P.outside 0x1000000014000 := by exact Scope.outside_mono (by assumption) (by decide)) :
    ∃ t, execGetFeatures x1 s = .next t ∧ Fr P r t := by
  have hs := fun k => Scope.outside_mono (k := k) hp
  refine ⟨_, rfl, ?_⟩
  repeat' first
    | (simp (maxDischargeDepth := 99) [h, hs]; done)
    | split
    | refine State.adminRow_frame _ (fun s x o y hy => ?_) ?_
    | split at hy
    | (cases hy; done)
    | cases hy
    | exact State.connectCmd_frame _ _ hy
    | refine State.each_frame (fun s x => ?_) _ ?_
    | refine State.onlyIf_frame _ (fun s => ?_) ?_
    | simp (maxDischargeDepth := 99) [h, hs]

@[simp] theorem State.abortCmd_frame {P : Scope} {r s : State} (x1) (x2) (x3) (h : Fr P r s)
    (hp : P.outside 0x3e000118000007c5a0 := by exact Scope.outside_mono (by assumption) (by decide)) :
    Fr P r (State.abortCmd s x1 x2 x3).1 := by
  have hs := fun k => Scope.outside_mono (k := k) hp
  unfold State.abortCmd
  (repeat' split) <;> simp (maxDischargeDepth := 99) [h, hs]

@[simp] theorem execAbort_frame {P : Scope} {r s : State} (x1) (h : Fr P r s)
    (hp : P.outside 0x3e000118000007c5a0 := by exact Scope.outside_mono (by assumption) (by decide)) :
    ∃ t, execAbort x1 s = .next t ∧ Fr P r t := by
  have hs := fun k => Scope.outside_mono (k := k) hp
  refine ⟨_, rfl, ?_⟩
  (repeat' split) <;> simp (maxDischargeDepth := 99) [h, hs]

@[simp] theorem execAsynchronousEventRequest_frame {P : Scope} {r s : State} (x1) (h : Fr P r s)
    (hp : P.outside 0x1100000034000 := by exact Scope.outside_mono (by assumption) (by decide)) :
    ∃ t, execAsynchronousEventRequest x1 s = .next t ∧ Fr P r t := by
  have hs := fun k => Scope.outside_mono (k := k) hp
  refine ⟨_, rfl, ?_⟩
  repeat' first
    | (simp (maxDischargeDepth := 99) [h, hs]; done)
    | split
    | refine State.adminRow_frame _ (fun s x o y hy => ?_) ?_
    | split at hy
    | (cases hy; done)
    | cases hy
    | exact State.connectCmd_frame _ _ hy
    | refine State.each_frame (fun s x => ?_) _ ?_
    | refine State.onlyIf_frame _ (fun s => ?_) ?_
    | simp (maxDischargeDepth := 99) [h, hs]

@[simp] theorem execKeepAlive_frame {P : Scope} {r s : State} (x1) (h : Fr P r s)
    (hp : P.outside 0x110000001c000 := by exact Scope.outside_mono (by assumption) (by decide)) :
    ∃ t, execKeepAlive x1 s = .next t ∧ Fr P r t := by
  have hs := fun k => Scope.outside_mono (k := k) hp
  refine ⟨_, rfl, ?_⟩
  (repeat' split) <;> simp (maxDischargeDepth := 99) [h, hs]

@[simp] theorem State.dropPool_frame {P : Scope} {r s : State} (x1) (h : Fr P r s)
    (hp : P.outside 0x20000 := by exact Scope.outside_mono (by assumption) (by decide)) :
    Fr P r (State.dropPool s x1) := by
  have hs := fun k => Scope.outside_mono (k := k) hp
  simp (maxDischargeDepth := 99) [State.dropPool, h, hs]

@[simp] theorem State.formatSpace_frame {P : Scope} {r s : State} (x1) (h : Fr P r s)
    (hp : P.outside 0x118000007c002 := by exact Scope.outside_mono (by assumption) (by decide)) :
    Fr P r (State.formatSpace s x1) := by
  have hs := fun k => Scope.outside_mono (k := k) hp
  simp (maxDischargeDepth := 99) [State.formatSpace, h, hs]

@[simp] theorem State.newKey_frame {P : Scope} {r s : State} (x1) (x2) (h : Fr P r s)
    (hp : P.outside 0x2000020800000 := by exact Scope.outside_mono (by assumption) (by decide)) :
    Fr P r (State.newKey s x1 x2) := by
  have hs := fun k => Scope.outside_mono (k := k) hp
  simp (maxDischargeDepth := 99) [State.newKey, h, hs]

@[simp] theorem execFormatNvm_frame {P : Scope} {r s : State} (x1) (x2) (h : Fr P r s)
    (hp : P.outside 0x318002087c002 := by exact Scope.outside_mono (by assumption) (by decide)) :
    ∃ t, execFormatNvm x1 x2 s = .next t ∧ Fr P r t := by
  have hs := fun k => Scope.outside_mono (k := k) hp
  refine ⟨_, rfl, ?_⟩
  (repeat' split) <;> simp (maxDischargeDepth := 99) [h, hs]

@[simp] theorem State.stagePut_frame {P : Scope} {r s : State} (x1) (x2) (x3) (h : Fr P r s)
    (hp : P.outside 0x20000 := by exact Scope.outside_mono (by assumption) (by decide)) :
    Fr P r (State.stagePut s x1 x2 x3) := by
  have hs := fun k => Scope.outside_mono (k := k) hp
  simp (maxDischargeDepth := 99) [State.stagePut, h, hs]

@[simp] theorem State.stageDrop_frame {P : Scope} {r s : State} (h : Fr P r s)
    (hp : P.outside 0x20000 := by exact Scope.outside_mono (by assumption) (by decide)) :
    Fr P r (State.stageDrop s) := by
  have hs := fun k => Scope.outside_mono (k := k) hp
  simp (maxDischargeDepth := 99) [State.stageDrop, h, hs]

@[simp] theorem State.downloadCmd_frame {P : Scope} {r s : State} (x1) (x2) (x3) (h : Fr P r s)
    (hp : P.outside 0x20000 := by exact Scope.outside_mono (by assumption) (by decide)) :
    Fr P r (State.downloadCmd s x1 x2 x3).1 := by
  have hs := fun k => Scope.outside_mono (k := k) hp
  unfold State.downloadCmd
  (repeat' split) <;> simp (maxDischargeDepth := 99) [h, hs]

@[simp] theorem execFirmwareImageDownload_frame {P : Scope} {r s : State} (x1) (h : Fr P r s)
    (hp : P.outside 0x1000000034000 := by exact Scope.outside_mono (by assumption) (by decide)) :
    ∃ t, execFirmwareImageDownload x1 s = .next t ∧ Fr P r t := by
  have hs := fun k => Scope.outside_mono (k := k) hp
  refine ⟨_, rfl, ?_⟩
  repeat' first
    | (simp (maxDischargeDepth := 99) [h, hs]; done)
    | split
    | refine State.adminRow_frame _ (fun s x o y hy => ?_) ?_
    | split at hy
    | (cases hy; done)
    | cases hy
    | exact State.connectCmd_frame _ _ hy
    | refine State.each_frame (fun s x => ?_) _ ?_
    | refine State.onlyIf_frame _ (fun s => ?_) ?_
    | simp (maxDischargeDepth := 99) [h, hs]

@[simp] theorem State.commitAct_frame {P : Scope} {r s : State} (x1) (x2) (x3) (x4) (h : Fr P r s)
    (hp : P.outside 0x1000400424000 := by exact Scope.outside_mono (by assumption) (by decide)) :
    Fr P r (State.commitAct s x1 x2 x3 x4).1 := by
  have hs := fun k => Scope.outside_mono (k := k) hp
  unfold State.commitAct
  repeat' first
    | (simp (maxDischargeDepth := 99) [h, hs]; done)
    | split
    | refine State.each_frame (fun s x => ?_) _ ?_
    | refine State.onlyIf_frame _ (fun s => ?_) ?_
    | simp (maxDischargeDepth := 99) [h, hs]

@[simp] theorem execFirmwareCommit_frame {P : Scope} {r s : State} (x1) (x2) (h : Fr P r s)
    (hp : P.outside 0x40000001100600634000 := by exact Scope.outside_mono (by assumption) (by decide)) :
    ∃ t, execFirmwareCommit x1 x2 s = .next t ∧ Fr P r t := by
  have hs := fun k => Scope.outside_mono (k := k) hp
  refine ⟨_, rfl, ?_⟩
  (repeat' split) <;> simp (maxDischargeDepth := 99) [h, hs]

@[simp] theorem State.activateEnd_frame {P : Scope} {r s : State} (x1) (x2) (h : Fr P r s)
    (hp : P.outside 0x1100000034000 := by exact Scope.outside_mono (by assumption) (by decide)) :
    Fr P r (State.activateEnd s x1 x2) := by
  have hs := fun k => Scope.outside_mono (k := k) hp
  simp (maxDischargeDepth := 99) [State.activateEnd, h, hs]

@[simp] theorem execActivationIdle_frame {P : Scope} {r s : State} (h : Fr P r s)
    (hp : P.outside 0x40000001100200634000 := by exact Scope.outside_mono (by assumption) (by decide)) :
    ∃ t, execActivationIdle s = .next t ∧ Fr P r t := by
  have hs := fun k => Scope.outside_mono (k := k) hp
  refine ⟨_, rfl, ?_⟩
  (repeat' split) <;> simp (maxDischargeDepth := 99) [h, hs]

@[simp] theorem execActivationTimeout_frame {P : Scope} {r s : State} (h : Fr P r s)
    (hp : P.outside 0x1100000034000 := by exact Scope.outside_mono (by assumption) (by decide)) :
    ∃ t, execActivationTimeout s = .next t ∧ Fr P r t := by
  have hs := fun k => Scope.outside_mono (k := k) hp
  refine ⟨_, rfl, ?_⟩
  (repeat' split) <;> simp (maxDischargeDepth := 99) [h, hs]

@[simp] theorem execStore_frame {P : Scope} {r s : State} (x1) (x2) (h : Fr P r s)
    (hp : P.outside 0x1a80030074000 := by exact Scope.outside_mono (by assumption) (by decide)) :
    ∃ t, execStore x1 x2 s = .next t ∧ Fr P r t := by
  have hs := fun k => Scope.outside_mono (k := k) hp
  refine ⟨_, rfl, ?_⟩
  (repeat' split) <;> simp (maxDischargeDepth := 99) [h, hs]

@[simp] theorem execRetrieve_frame {P : Scope} {r s : State} (x1) (x2) (h : Fr P r s)
    (hp : P.outside 0x1a00020034000 := by exact Scope.outside_mono (by assumption) (by decide)) :
    ∃ t, execRetrieve x1 x2 s = .next t ∧ Fr P r t := by
  have hs := fun k => Scope.outside_mono (k := k) hp
  refine ⟨_, rfl, ?_⟩
  (repeat' split) <;> simp (maxDischargeDepth := 99) [h, hs]

@[simp] theorem execDelete_frame {P : Scope} {r s : State} (x1) (h : Fr P r s)
    (hp : P.outside 0x1000000034000 := by exact Scope.outside_mono (by assumption) (by decide)) :
    ∃ t, execDelete x1 s = .next t ∧ Fr P r t := by
  have hs := fun k => Scope.outside_mono (k := k) hp
  refine ⟨_, rfl, ?_⟩
  repeat' first
    | (simp (maxDischargeDepth := 99) [h, hs]; done)
    | split
    | refine State.adminRow_frame _ (fun s x o y hy => ?_) ?_
    | split at hy
    | (cases hy; done)
    | cases hy
    | exact State.connectCmd_frame _ _ hy
    | refine State.each_frame (fun s x => ?_) _ ?_
    | refine State.onlyIf_frame _ (fun s => ?_) ?_
    | simp (maxDischargeDepth := 99) [h, hs]

@[simp] theorem execExist_frame {P : Scope} {r s : State} (x1) (h : Fr P r s)
    (hp : P.outside 0x1000000014000 := by exact Scope.outside_mono (by assumption) (by decide)) :
    ∃ t, execExist x1 s = .next t ∧ Fr P r t := by
  have hs := fun k => Scope.outside_mono (k := k) hp
  refine ⟨_, rfl, ?_⟩
  repeat' first
    | (simp (maxDischargeDepth := 99) [h, hs]; done)
    | split
    | refine State.adminRow_frame _ (fun s x o y hy => ?_) ?_
    | split at hy
    | (cases hy; done)
    | cases hy
    | exact State.connectCmd_frame _ _ hy
    | refine State.each_frame (fun s x => ?_) _ ?_
    | refine State.onlyIf_frame _ (fun s => ?_) ?_
    | simp (maxDischargeDepth := 99) [h, hs]

@[simp] theorem execList_frame {P : Scope} {r s : State} (x1) (h : Fr P r s)
    (hp : P.outside 0x1000000014000 := by exact Scope.outside_mono (by assumption) (by decide)) :
    ∃ t, execList x1 s = .next t ∧ Fr P r t := by
  have hs := fun k => Scope.outside_mono (k := k) hp
  refine ⟨_, rfl, ?_⟩
  repeat' first
    | (simp (maxDischargeDepth := 99) [h, hs]; done)
    | split
    | refine State.adminRow_frame _ (fun s x o y hy => ?_) ?_
    | split at hy
    | (cases hy; done)
    | cases hy
    | exact State.connectCmd_frame _ _ hy
    | refine State.each_frame (fun s x => ?_) _ ?_
    | refine State.onlyIf_frame _ (fun s => ?_) ?_
    | simp (maxDischargeDepth := 99) [h, hs]

@[simp] theorem State.setRsv_frame {P : Scope} {r s : State} (x1) (h : Fr P r s)
    (hp : P.outside 0x20000 := by exact Scope.outside_mono (by assumption) (by decide)) :
    Fr P r (State.setRsv s x1) := by
  have hs := fun k => Scope.outside_mono (k := k) hp
  simp (maxDischargeDepth := 99) [State.setRsv, h, hs]

@[simp] theorem State.rsvNotice_frame {P : Scope} {r s : State} (x1) (x2) (x3) (h : Fr P r s)
    (hp : P.outside 0x1000000034000 := by exact Scope.outside_mono (by assumption) (by decide)) :
    Fr P r (State.rsvNotice s x1 x2 x3) := by
  have hs := fun k => Scope.outside_mono (k := k) hp
  simp (maxDischargeDepth := 99) [State.rsvNotice, h, hs]

@[simp] theorem execReservationRegister_frame {P : Scope} {r s : State} (x1) (h : Fr P r s)
    (hp : P.outside 0x1000000034000 := by exact Scope.outside_mono (by assumption) (by decide)) :
    ∃ t, execReservationRegister x1 s = .next t ∧ Fr P r t := by
  have hs := fun k => Scope.outside_mono (k := k) hp
  refine ⟨_, rfl, ?_⟩
  dsimp only
  repeat' first
    | (simp (maxDischargeDepth := 99) [h, hs]; done)
    | split
    | refine State.adminRow_frame _ (fun s x o y hy => ?_) ?_
    | split at hy
    | (cases hy; done)
    | cases hy
    | exact State.connectCmd_frame _ _ hy
    | refine State.each_frame (fun s x => ?_) _ ?_
    | refine State.onlyIf_frame _ (fun s => ?_) ?_
    | simp (maxDischargeDepth := 99) [h, hs]

@[simp] theorem execReservationReport_frame {P : Scope} {r s : State} (x1) (h : Fr P r s)
    (hp : P.outside 0x1000000014000 := by exact Scope.outside_mono (by assumption) (by decide)) :
    ∃ t, execReservationReport x1 s = .next t ∧ Fr P r t := by
  have hs := fun k => Scope.outside_mono (k := k) hp
  refine ⟨_, rfl, ?_⟩
  repeat' first
    | (simp (maxDischargeDepth := 99) [h, hs]; done)
    | split
    | refine State.adminRow_frame _ (fun s x o y hy => ?_) ?_
    | split at hy
    | (cases hy; done)
    | cases hy
    | exact State.connectCmd_frame _ _ hy
    | refine State.each_frame (fun s x => ?_) _ ?_
    | refine State.onlyIf_frame _ (fun s => ?_) ?_
    | simp (maxDischargeDepth := 99) [h, hs]

@[simp] theorem State.abortHosts_frame {P : Scope} {r s : State} (x1) (x2) (h : Fr P r s)
    (hp : P.outside 0x3e000118000007c5a0 := by exact Scope.outside_mono (by assumption) (by decide)) :
    Fr P r (State.abortHosts s x1 x2) := by
  have hs := fun k => Scope.outside_mono (k := k) hp
  simp (maxDischargeDepth := 99) [State.abortHosts, h, hs]

@[simp] theorem execReservationAcquire_frame {P : Scope} {r s : State} (x1) (h : Fr P r s)
    (hp : P.outside 0x3e000118000007c5a0 := by exact Scope.outside_mono (by assumption) (by decide)) :
    ∃ t, execReservationAcquire x1 s = .next t ∧ Fr P r t := by
  have hs := fun k => Scope.outside_mono (k := k) hp
  refine ⟨_, rfl, ?_⟩
  dsimp only
  repeat' first
    | (simp (maxDischargeDepth := 99) [h, hs]; done)
    | split
    | refine State.adminRow_frame _ (fun s x o y hy => ?_) ?_
    | split at hy
    | (cases hy; done)
    | cases hy
    | exact State.connectCmd_frame _ _ hy
    | refine State.each_frame (fun s x => ?_) _ ?_
    | refine State.onlyIf_frame _ (fun s => ?_) ?_
    | simp (maxDischargeDepth := 99) [h, hs]

@[simp] theorem execReservationRelease_frame {P : Scope} {r s : State} (x1) (h : Fr P r s)
    (hp : P.outside 0x1000000034000 := by exact Scope.outside_mono (by assumption) (by decide)) :
    ∃ t, execReservationRelease x1 s = .next t ∧ Fr P r t := by
  have hs := fun k => Scope.outside_mono (k := k) hp
  refine ⟨_, rfl, ?_⟩
  dsimp only
  repeat' first
    | (simp (maxDischargeDepth := 99) [h, hs]; done)
    | split
    | refine State.adminRow_frame _ (fun s x o y hy => ?_) ?_
    | split at hy
    | (cases hy; done)
    | cases hy
    | exact State.connectCmd_frame _ _ hy
    | refine State.each_frame (fun s x => ?_) _ ?_
    | refine State.onlyIf_frame _ (fun s => ?_) ?_
    | simp (maxDischargeDepth := 99) [h, hs]

@[simp] theorem execUnsupportedCommand_frame {P : Scope} {r s : State} (x1) (h : Fr P r s)
    (hp : P.outside 0x1000000014000 := by exact Scope.outside_mono (by assumption) (by decide)) :
    ∃ t, execUnsupportedCommand x1 s = .next t ∧ Fr P r t := by
  have hs := fun k => Scope.outside_mono (k := k) hp
  refine ⟨_, rfl, ?_⟩
  repeat' first
    | (simp (maxDischargeDepth := 99) [h, hs]; done)
    | split
    | refine State.adminRow_frame _ (fun s x o y hy => ?_) ?_
    | split at hy
    | (cases hy; done)
    | cases hy
    | exact State.connectCmd_frame _ _ hy
    | refine State.each_frame (fun s x => ?_) _ ?_
    | refine State.onlyIf_frame _ (fun s => ?_) ?_
    | simp (maxDischargeDepth := 99) [h, hs]

end Sys2Proof.Machine
end

