-- ==== Sys2Proof/Laws/FrameVigil.lean ====
section
/-! SUPPORT. What each operation of Machine/Vigil.lean leaves alone. -/
set_option linter.unusedSimpArgs false
set_option linter.unusedTactic false
set_option linter.unreachableTactic false
set_option linter.unnecessarySeqFocus false
namespace Sys2Proof.Machine
set_option Elab.async false

@[simp] theorem State.modVgl_frame {P : Scope} {r s : State} (x1) (h : Fr P r s)
    (hp : P.outside 0x80000 := by exact Scope.outside_mono (by assumption) (by decide)) :
    Fr P r (State.modVgl s x1) := by
  have hs := fun k => Scope.outside_mono (k := k) hp
  simp (maxDischargeDepth := 99) [State.modVgl, h, hs]

@[simp] theorem State.modPwr_frame {P : Scope} {r s : State} (x1) (h : Fr P r s)
    (hp : P.outside 0x100000 := by exact Scope.outside_mono (by assumption) (by decide)) :
    Fr P r (State.modPwr s x1) := by
  have hs := fun k => Scope.outside_mono (k := k) hp
  simp (maxDischargeDepth := 99) [State.modPwr, h, hs]

@[simp] theorem execIdleTimerExpiry_frame {P : Scope} {r s : State} (x1) (h : Fr P r s)
    (hp : P.outside 0x180100000 := by exact Scope.outside_mono (by assumption) (by decide)) :
    ∃ t, execIdleTimerExpiry x1 s = .next t ∧ Fr P r t := by
  have hs := fun k => Scope.outside_mono (k := k) hp
  exact ⟨_, rfl, by simp (maxDischargeDepth := 99) [h, hs]⟩

@[simp] theorem State.pwrRefuse_frame {P : Scope} {r s : State} (x1) (h : Fr P r s)
    (hp : P.outside 0x100000000 := by exact Scope.outside_mono (by assumption) (by decide)) :
    Fr P r (State.pwrRefuse s x1) := by
  have hs := fun k => Scope.outside_mono (k := k) hp
  simp (maxDischargeDepth := 99) [State.pwrRefuse, h, hs]

@[simp] theorem State.pl5Request_frame {P : Scope} {r s : State} (h : Fr P r s)
    (hp : P.outside 0x180100000 := by exact Scope.outside_mono (by assumption) (by decide)) :
    Fr P r (State.pl5Request s) := by
  have hs := fun k => Scope.outside_mono (k := k) hp
  unfold State.pl5Request
  (repeat' split) <;> simp (maxDischargeDepth := 99) [h, hs]

@[simp] theorem execPl5Req_frame {P : Scope} {r s : State} (x1) (h : Fr P r s)
    (hp : P.outside 0x180100000 := by exact Scope.outside_mono (by assumption) (by decide)) :
    ∃ t, execPl5Req x1 s = .next t ∧ Fr P r t := by
  have hs := fun k => Scope.outside_mono (k := k) hp
  exact ⟨_, rfl, by simp (maxDischargeDepth := 99) [h, hs]⟩

@[simp] theorem execPwrWake_frame {P : Scope} {r s : State} (x1) (h : Fr P r s)
    (hp : P.outside 0x1000180184000 := by exact Scope.outside_mono (by assumption) (by decide)) :
    ∃ t, execPwrWake x1 s = .next t ∧ Fr P r t := by
  have hs := fun k => Scope.outside_mono (k := k) hp
  exact ⟨_, rfl, by simp (maxDischargeDepth := 99) [h, hs]⟩

@[simp] theorem execWakeSource_frame {P : Scope} {r s : State} (x1) (h : Fr P r s)
    (hp : P.outside 0x100018018c000 := by exact Scope.outside_mono (by assumption) (by decide)) :
    ∃ t, execWakeSource x1 s = .next t ∧ Fr P r t := by
  have hs := fun k => Scope.outside_mono (k := k) hp
  refine ⟨_, rfl, ?_⟩
  (repeat' split) <;> simp (maxDischargeDepth := 99) [h, hs]

@[simp] theorem execWakePatternRx_frame {P : Scope} {r s : State} (x1) (h : Fr P r s)
    (hp : P.outside 0x79000180184004 := by exact Scope.outside_mono (by assumption) (by decide)) :
    ∃ t, execWakePatternRx x1 s = .next t ∧ Fr P r t := by
  have hs := fun k => Scope.outside_mono (k := k) hp
  exact ⟨_, rfl, by simp (maxDischargeDepth := 99) [h, hs]⟩

@[simp] theorem execVglWakeNInput_frame {P : Scope} {r s : State} (h : Fr P r s)
    (hp : P.outside 0x1000180184000 := by exact Scope.outside_mono (by assumption) (by decide)) :
    ∃ t, execVglWakeNInput s = .next t ∧ Fr P r t := by
  have hs := fun k => Scope.outside_mono (k := k) hp
  exact ⟨_, rfl, by simp (maxDischargeDepth := 99) [h, hs]⟩

@[simp] theorem execHostLaneEnergyDetectorArm_frame {P : Scope} {r s : State} (x1) (x2) (h : Fr P r s)
    (hp : P.outside 0x8000 := by exact Scope.outside_mono (by assumption) (by decide)) :
    ∃ t, execHostLaneEnergyDetectorArm x1 x2 s = .next t ∧ Fr P r t := by
  have hs := fun k => Scope.outside_mono (k := k) hp
  exact ⟨_, rfl, by simp (maxDischargeDepth := 99) [h, hs]⟩

@[simp] theorem execVigilAlarm_frame {P : Scope} {r s : State} (x1) (h : Fr P r s)
    (hp : P.outside 0x7fffffffffff80186001 := by exact Scope.outside_mono (by assumption) (by decide)) :
    ∃ t, execVigilAlarm x1 s = .next t ∧ Fr P r t := by
  have hs := fun k => Scope.outside_mono (k := k) hp
  exact ⟨_, rfl, by simp (maxDischargeDepth := 99) [h, hs]⟩

@[simp] theorem execVbatMeasure_frame {P : Scope} {r s : State} (x1) (h : Fr P r s)
    (hp : P.outside 0x80000000 := by exact Scope.outside_mono (by assumption) (by decide)) :
    ∃ t, execVbatMeasure x1 s = .next t ∧ Fr P r t := by
  have hs := fun k => Scope.outside_mono (k := k) hp
  exact ⟨_, rfl, by simp (maxDischargeDepth := 99) [h, hs]⟩

@[simp] theorem execVigilSupplyMonitorFall_frame {P : Scope} {r s : State} (h : Fr P r s)
    (hp : P.outside 0x80080000 := by exact Scope.outside_mono (by assumption) (by decide)) :
    ∃ t, execVigilSupplyMonitorFall s = .next t ∧ Fr P r t := by
  have hs := fun k => Scope.outside_mono (k := k) hp
  exact ⟨_, rfl, by simp (maxDischargeDepth := 99) [h, hs]⟩

@[simp] theorem State.latchAnchor_frame {P : Scope} {r s : State} (h : Fr P r s)
    (hp : P.outside 0x80080000 := by exact Scope.outside_mono (by assumption) (by decide)) :
    Fr P r (State.latchAnchor s) := by
  have hs := fun k => Scope.outside_mono (k := k) hp
  simp (maxDischargeDepth := 99) [State.latchAnchor, h, hs]

@[simp] theorem State.holdRequest_frame {P : Scope} {r s : State} (h : Fr P r s)
    (hp : P.outside 0x1000180184000 := by exact Scope.outside_mono (by assumption) (by decide)) :
    Fr P r (State.holdRequest s) := by
  have hs := fun k => Scope.outside_mono (k := k) hp
  simp (maxDischargeDepth := 99) [State.holdRequest, h, hs]

@[simp] theorem execHoldReq_frame {P : Scope} {r s : State} (x1) (h : Fr P r s)
    (hp : P.outside 0x1000180184000 := by exact Scope.outside_mono (by assumption) (by decide)) :
    ∃ t, execHoldReq x1 s = .next t ∧ Fr P r t := by
  have hs := fun k => Scope.outside_mono (k := k) hp
  exact ⟨_, rfl, by simp (maxDischargeDepth := 99) [h, hs]⟩

@[simp] theorem State.leapStep_frame {P : Scope} {r s : State} (h : Fr P r s)
    (hp : P.outside 0x7fffffffffff80086001 := by exact Scope.outside_mono (by assumption) (by decide)) :
    Fr P r (State.leapStep s) := by
  have hs := fun k => Scope.outside_mono (k := k) hp
  unfold State.leapStep
  (repeat' split) <;> simp (maxDischargeDepth := 99) [h, hs]

@[simp] theorem execEpochTick_frame {P : Scope} {r s : State} (h : Fr P r s)
    (hp : P.outside 0x7fffffffffff80086001 := by exact Scope.outside_mono (by assumption) (by decide)) :
    ∃ t, execEpochTick s = .next t ∧ Fr P r t := by
  have hs := fun k => Scope.outside_mono (k := k) hp
  exact ⟨_, rfl, by simp (maxDischargeDepth := 99) [h, hs]⟩

@[simp] theorem State.epochLoad_frame {P : Scope} {r s : State} (x1) (h : Fr P r s)
    (hp : P.outside 0x80080000 := by exact Scope.outside_mono (by assumption) (by decide)) :
    Fr P r (State.epochLoad s x1) := by
  have hs := fun k => Scope.outside_mono (k := k) hp
  simp (maxDischargeDepth := 99) [State.epochLoad, h, hs]

@[simp] theorem execEpochLoad_frame {P : Scope} {r s : State} (x1) (h : Fr P r s)
    (hp : P.outside 0x80080000 := by exact Scope.outside_mono (by assumption) (by decide)) :
    ∃ t, execEpochLoad x1 s = .next t ∧ Fr P r t := by
  have hs := fun k => Scope.outside_mono (k := k) hp
  exact ⟨_, rfl, by simp (maxDischargeDepth := 99) [h, hs]⟩

@[simp] theorem execVglEpochLoRead_frame {P : Scope} {r s : State} (h : Fr P r s)
    (hp : P.outside 0x80000 := by exact Scope.outside_mono (by assumption) (by decide)) :
    ∃ t, execVglEpochLoRead s = .next t ∧ Fr P r t := by
  have hs := fun k => Scope.outside_mono (k := k) hp
  exact ⟨_, rfl, by simp (maxDischargeDepth := 99) [h, hs]⟩

@[simp] theorem execPwrTickLoRead_frame {P : Scope} {r s : State} (h : Fr P r s)
    (hp : P.outside 0x80000 := by exact Scope.outside_mono (by assumption) (by decide)) :
    ∃ t, execPwrTickLoRead s = .next t ∧ Fr P r t := by
  have hs := fun k => Scope.outside_mono (k := k) hp
  exact ⟨_, rfl, by simp (maxDischargeDepth := 99) [h, hs]⟩

@[simp] theorem execUlkLtimeLoRead_frame {P : Scope} {r s : State} (x1) (h : Fr P r s)
    (hp : P.outside 0x4 := by exact Scope.outside_mono (by assumption) (by decide)) :
    ∃ t, execUlkLtimeLoRead x1 s = .next t ∧ Fr P r t := by
  have hs := fun k => Scope.outside_mono (k := k) hp
  exact ⟨_, rfl, by simp (maxDischargeDepth := 99) [h, hs]⟩

end Sys2Proof.Machine
end

