-- ==== Sys2Proof/Laws/FrameMgt.lean ====
section
/-! SUPPORT. What each operation of Machine/Mgt.lean leaves alone. -/
set_option linter.unusedSimpArgs false
set_option linter.unusedTactic false
set_option linter.unreachableTactic false
set_option linter.unnecessarySeqFocus false
namespace Sys2Proof.Machine
set_option Elab.async false

@[simp] theorem State.modMgt_frame {P : Scope} {r s : State} (x1) (h : Fr P r s)
    (hp : P.outside 0x8000000 := by exact Scope.outside_mono (by assumption) (by decide)) :
    Fr P r (State.modMgt s x1) := by
  have hs := fun k => Scope.outside_mono (k := k) hp
  simp (maxDischargeDepth := 99) [State.modMgt, h, hs]

@[simp] theorem State.mgtSend_frame {P : Scope} {r s : State} (x1) (x2) (x3) (x4) (h : Fr P r s)
    (hp : P.outside 0x1001018004000 := by exact Scope.outside_mono (by assumption) (by decide)) :
    Fr P r (State.mgtSend s x1 x2 x3 x4) := by
  have hs := fun k => Scope.outside_mono (k := k) hp
  simp (maxDischargeDepth := 99) [State.mgtSend, h, hs]

@[simp] theorem State.mctpRx_frame {P : Scope} {r s : State} (x1) (h : Fr P r s)
    (hp : P.outside 0x1001008004000 := by exact Scope.outside_mono (by assumption) (by decide)) :
    Fr P r (State.mctpRx s x1) := by
  have hs := fun k => Scope.outside_mono (k := k) hp
  unfold State.mctpRx
  dsimp only
  repeat' first
    | exact h
    | refine ite_frame _ ?_ ?_
    | (simp (maxDischargeDepth := 99) [h, hs]; done)
    | split

@[simp] theorem execMctpPacketRx_frame {P : Scope} {r s : State} (x1) (h : Fr P r s)
    (hp : P.outside 0x1001008004000 := by exact Scope.outside_mono (by assumption) (by decide)) :
    ∃ t, execMctpPacketRx x1 s = .next t ∧ Fr P r t := by
  have hs := fun k => Scope.outside_mono (k := k) hp
  exact ⟨_, rfl, by simp (maxDischargeDepth := 99) [h, hs]⟩

@[simp] theorem execSetEndpointId_frame {P : Scope} {r s : State} (x1) (x2) (h : Fr P r s)
    (hp : P.outside 0x1001018004000 := by exact Scope.outside_mono (by assumption) (by decide)) :
    ∃ t, execSetEndpointId x1 x2 s = .next t ∧ Fr P r t := by
  have hs := fun k => Scope.outside_mono (k := k) hp
  exact ⟨_, rfl, by simp (maxDischargeDepth := 99) [h, hs]⟩

@[simp] theorem execGetEndpointId_frame {P : Scope} {r s : State} (x1) (h : Fr P r s)
    (hp : P.outside 0x1001018004000 := by exact Scope.outside_mono (by assumption) (by decide)) :
    ∃ t, execGetEndpointId x1 s = .next t ∧ Fr P r t := by
  have hs := fun k => Scope.outside_mono (k := k) hp
  exact ⟨_, rfl, by simp (maxDischargeDepth := 99) [h, hs]⟩

@[simp] theorem execGetEndpointUuid_frame {P : Scope} {r s : State} (x1) (h : Fr P r s)
    (hp : P.outside 0x1001018004000 := by exact Scope.outside_mono (by assumption) (by decide)) :
    ∃ t, execGetEndpointUuid x1 s = .next t ∧ Fr P r t := by
  have hs := fun k => Scope.outside_mono (k := k) hp
  exact ⟨_, rfl, by simp (maxDischargeDepth := 99) [h, hs]⟩

@[simp] theorem execGetMctpVersionSupport_frame {P : Scope} {r s : State} (x1) (h : Fr P r s)
    (hp : P.outside 0x1001018004000 := by exact Scope.outside_mono (by assumption) (by decide)) :
    ∃ t, execGetMctpVersionSupport x1 s = .next t ∧ Fr P r t := by
  have hs := fun k => Scope.outside_mono (k := k) hp
  exact ⟨_, rfl, by simp (maxDischargeDepth := 99) [h, hs]⟩

@[simp] theorem execGetMessageTypeSupport_frame {P : Scope} {r s : State} (x1) (h : Fr P r s)
    (hp : P.outside 0x1001018004000 := by exact Scope.outside_mono (by assumption) (by decide)) :
    ∃ t, execGetMessageTypeSupport x1 s = .next t ∧ Fr P r t := by
  have hs := fun k => Scope.outside_mono (k := k) hp
  exact ⟨_, rfl, by simp (maxDischargeDepth := 99) [h, hs]⟩

@[simp] theorem execGetVendorDefinedMessageSupport_frame {P : Scope} {r s : State} (x1) (h : Fr P r s)
    (hp : P.outside 0x1001018004000 := by exact Scope.outside_mono (by assumption) (by decide)) :
    ∃ t, execGetVendorDefinedMessageSupport x1 s = .next t ∧ Fr P r t := by
  have hs := fun k => Scope.outside_mono (k := k) hp
  exact ⟨_, rfl, by simp (maxDischargeDepth := 99) [h, hs]⟩

@[simp] theorem execUnsupportedMctpControl_frame {P : Scope} {r s : State} (x1) (h : Fr P r s)
    (hp : P.outside 0x1001018004000 := by exact Scope.outside_mono (by assumption) (by decide)) :
    ∃ t, execUnsupportedMctpControl x1 s = .next t ∧ Fr P r t := by
  have hs := fun k => Scope.outside_mono (k := k) hp
  exact ⟨_, rfl, by simp (maxDischargeDepth := 99) [h, hs]⟩

@[simp] theorem execReadNvmeMiDataStructure_frame {P : Scope} {r s : State} (x1) (x2) (x3) (x4) (h : Fr P r s)
    (hp : P.outside 0x1001018004000 := by exact Scope.outside_mono (by assumption) (by decide)) :
    ∃ t, execReadNvmeMiDataStructure x1 x2 x3 x4 s = .next t ∧ Fr P r t := by
  have hs := fun k => Scope.outside_mono (k := k) hp
  exact ⟨_, rfl, by simp (maxDischargeDepth := 99) [h, hs]⟩

@[simp] theorem execNvmSubsystemHealthStatusPoll_frame {P : Scope} {r s : State} (x1) (h : Fr P r s)
    (hp : P.outside 0x1001018004000 := by exact Scope.outside_mono (by assumption) (by decide)) :
    ∃ t, execNvmSubsystemHealthStatusPoll x1 s = .next t ∧ Fr P r t := by
  have hs := fun k => Scope.outside_mono (k := k) hp
  exact ⟨_, rfl, by simp (maxDischargeDepth := 99) [h, hs]⟩

@[simp] theorem execControllerHealthStatusPoll_frame {P : Scope} {r s : State} (x1) (h : Fr P r s)
    (hp : P.outside 0x1001018004000 := by exact Scope.outside_mono (by assumption) (by decide)) :
    ∃ t, execControllerHealthStatusPoll x1 s = .next t ∧ Fr P r t := by
  have hs := fun k => Scope.outside_mono (k := k) hp
  exact ⟨_, rfl, by simp (maxDischargeDepth := 99) [h, hs]⟩

@[simp] theorem execConfigurationGet_frame {P : Scope} {r s : State} (x1) (x2) (h : Fr P r s)
    (hp : P.outside 0x1001018004000 := by exact Scope.outside_mono (by assumption) (by decide)) :
    ∃ t, execConfigurationGet x1 x2 s = .next t ∧ Fr P r t := by
  have hs := fun k => Scope.outside_mono (k := k) hp
  exact ⟨_, rfl, by simp (maxDischargeDepth := 99) [h, hs]⟩

@[simp] theorem execConfigurationSet_frame {P : Scope} {r s : State} (x1) (x2) (x3) (h : Fr P r s)
    (hp : P.outside 0x1001018004000 := by exact Scope.outside_mono (by assumption) (by decide)) :
    ∃ t, execConfigurationSet x1 x2 x3 s = .next t ∧ Fr P r t := by
  have hs := fun k => Scope.outside_mono (k := k) hp
  exact ⟨_, rfl, by simp (maxDischargeDepth := 99) [h, hs]⟩

@[simp] theorem execVpdRead_frame {P : Scope} {r s : State} (x1) (x2) (x3) (h : Fr P r s)
    (hp : P.outside 0x1001018004000 := by exact Scope.outside_mono (by assumption) (by decide)) :
    ∃ t, execVpdRead x1 x2 x3 s = .next t ∧ Fr P r t := by
  have hs := fun k => Scope.outside_mono (k := k) hp
  exact ⟨_, rfl, by simp (maxDischargeDepth := 99) [h, hs]⟩

@[simp] theorem execMiTunnelledAdmin_frame {P : Scope} {r s : State} (x1) (x2) (x3) (h : Fr P r s)
    (hp : P.outside 0x7fffffffffff9873e001 := by exact Scope.outside_mono (by assumption) (by decide)) :
    ∃ t, execMiTunnelledAdmin x1 x2 x3 s = .next t ∧ Fr P r t := by
  have hs := fun k => Scope.outside_mono (k := k) hp
  refine ⟨_, rfl, ?_⟩
  repeat' first
    | (simp (maxDischargeDepth := 99) [h, hs]; done)
    | split
    | refine State.mgtReq_frame _ _ _ (fun s => ?_) ?_
    | refine State.each_frame (fun s x => ?_) _ ?_
    | refine State.onlyIf_frame _ (fun s => ?_) ?_
    | simp (maxDischargeDepth := 99) [h, hs]

@[simp] theorem execMiAbort_frame {P : Scope} {r s : State} (x1) (h : Fr P r s)
    (hp : P.outside 0x1001018004000 := by exact Scope.outside_mono (by assumption) (by decide)) :
    ∃ t, execMiAbort x1 s = .next t ∧ Fr P r t := by
  have hs := fun k => Scope.outside_mono (k := k) hp
  exact ⟨_, rfl, by simp (maxDischargeDepth := 99) [h, hs]⟩

@[simp] theorem execMiGetState_frame {P : Scope} {r s : State} (x1) (h : Fr P r s)
    (hp : P.outside 0x1001010004000 := by exact Scope.outside_mono (by assumption) (by decide)) :
    ∃ t, execMiGetState x1 s = .next t ∧ Fr P r t := by
  have hs := fun k => Scope.outside_mono (k := k) hp
  exact ⟨_, rfl, by simp (maxDischargeDepth := 99) [h, hs]⟩

@[simp] theorem State.mgtReq_frame {P : Scope} {r s : State} (hd : MgtHdr) (lock : Option Nat) (params : Bool) {f : State → State × Nat × List Byte}
    (hf : ∀ s, Fr P s (f s).1) (h : Fr P r s)
    (hp : P.outside 0x1001018004000 := by exact Scope.outside_mono (by assumption) (by decide)) :
    Fr P r (s.mgtReq hd lock params f) := by
  have hs := fun k => Scope.outside_mono (k := k) hp
  have k := h.trans (hf s)
  unfold State.mgtReq
  dsimp only
  (repeat' split) <;> simp (maxDischargeDepth := 99) [h, k, hs]

@[simp] theorem execMgtUnlistedOpcode_frame {P : Scope} {r s : State} (x1) (h : Fr P r s)
    (hp : P.outside 0x1001018004000 := by exact Scope.outside_mono (by assumption) (by decide)) :
    ∃ t, execMgtUnlistedOpcode x1 s = .next t ∧ Fr P r t := by
  have hs := fun k => Scope.outside_mono (k := k) hp
  exact ⟨_, rfl, by simp (maxDischargeDepth := 99) [h, hs]⟩

@[simp] theorem execGetInfo_frame {P : Scope} {r s : State} (x1) (h : Fr P r s)
    (hp : P.outside 0x1001018004000 := by exact Scope.outside_mono (by assumption) (by decide)) :
    ∃ t, execGetInfo x1 s = .next t ∧ Fr P r t := by
  have hs := fun k => Scope.outside_mono (k := k) hp
  exact ⟨_, rfl, by simp (maxDischargeDepth := 99) [h, hs]⟩

@[simp] theorem execAlmInfo_frame {P : Scope} {r s : State} (x1) (h : Fr P r s)
    (hp : P.outside 0x1001018004000 := by exact Scope.outside_mono (by assumption) (by decide)) :
    ∃ t, execAlmInfo x1 s = .next t ∧ Fr P r t := by
  have hs := fun k => Scope.outside_mono (k := k) hp
  exact ⟨_, rfl, by simp (maxDischargeDepth := 99) [h, hs]⟩

@[simp] theorem execAlmRead_frame {P : Scope} {r s : State} (x1) (x2) (x3) (h : Fr P r s)
    (hp : P.outside 0x1001018004000 := by exact Scope.outside_mono (by assumption) (by decide)) :
    ∃ t, execAlmRead x1 x2 x3 s = .next t ∧ Fr P r t := by
  have hs := fun k => Scope.outside_mono (k := k) hp
  refine ⟨_, rfl, ?_⟩
  repeat' first
    | (simp (maxDischargeDepth := 99) [h, hs]; done)
    | split
    | refine State.mgtReq_frame _ _ _ (fun s => ?_) ?_
    | refine State.each_frame (fun s x => ?_) _ ?_
    | refine State.onlyIf_frame _ (fun s => ?_) ?_
    | simp (maxDischargeDepth := 99) [h, hs]

@[simp] theorem execAlmAppend_frame {P : Scope} {r s : State} (x1) (x2) (x3) (h : Fr P r s)
    (hp : P.outside 0x1001c1c404000 := by exact Scope.outside_mono (by assumption) (by decide)) :
    ∃ t, execAlmAppend x1 x2 x3 s = .next t ∧ Fr P r t := by
  have hs := fun k => Scope.outside_mono (k := k) hp
  exact ⟨_, rfl, by simp (maxDischargeDepth := 99) [h, hs]⟩

@[simp] theorem execImageWrite_frame {P : Scope} {r s : State} (x1) (x2) (x3) (x4) (h : Fr P r s)
    (hp : P.outside 0x1001018024000 := by exact Scope.outside_mono (by assumption) (by decide)) :
    ∃ t, execImageWrite x1 x2 x3 x4 s = .next t ∧ Fr P r t := by
  have hs := fun k => Scope.outside_mono (k := k) hp
  refine ⟨_, rfl, ?_⟩
  repeat' first
    | (simp (maxDischargeDepth := 99) [h, hs]; done)
    | split
    | refine State.mgtReq_frame _ _ _ (fun s => ?_) ?_
    | refine State.each_frame (fun s x => ?_) _ ?_
    | refine State.onlyIf_frame _ (fun s => ?_) ?_
    | simp (maxDischargeDepth := 99) [h, hs]

@[simp] theorem State.imageAct_frame {P : Scope} {r s : State} (x1) (x2) (x3) (h : Fr P r s)
    (hp : P.outside 0x1000400424000 := by exact Scope.outside_mono (by assumption) (by decide)) :
    Fr P r (State.imageAct s x1 x2 x3).1 := by
  have hs := fun k => Scope.outside_mono (k := k) hp
  unfold State.imageAct
  (repeat' split) <;> simp (maxDischargeDepth := 99) [h, hs]

@[simp] theorem execImageCommit_frame {P : Scope} {r s : State} (x1) (x2) (x3) (x4) (h : Fr P r s)
    (hp : P.outside 0x40000001101618634000 := by exact Scope.outside_mono (by assumption) (by decide)) :
    ∃ t, execImageCommit x1 x2 x3 x4 s = .next t ∧ Fr P r t := by
  have hs := fun k => Scope.outside_mono (k := k) hp
  exact ⟨_, rfl, by simp (maxDischargeDepth := 99) [h, hs]⟩

@[simp] theorem execStagingTimeout_frame {P : Scope} {r s : State} (h : Fr P r s)
    (hp : P.outside 0x20000 := by exact Scope.outside_mono (by assumption) (by decide)) :
    ∃ t, execStagingTimeout s = .next t ∧ Fr P r t := by
  have hs := fun k => Scope.outside_mono (k := k) hp
  exact ⟨_, rfl, by simp (maxDischargeDepth := 99) [h, hs]⟩

@[simp] theorem State.mgtConfig_frame {P : Scope} {r s : State} (x1) (x2) (h : Fr P r s)
    (hp : P.outside 0x1000000004000 := by exact Scope.outside_mono (by assumption) (by decide)) :
    Fr P r (State.mgtConfig s x1 x2) := by
  have hs := fun k => Scope.outside_mono (k := k) hp
  unfold State.mgtConfig
  simp (maxDischargeDepth := 99) [h, hs]

@[simp] theorem execNetSet_frame {P : Scope} {r s : State} (x1) (x2) (x3) (h : Fr P r s)
    (hp : P.outside 0x7fffffffffff98006001 := by exact Scope.outside_mono (by assumption) (by decide)) :
    ∃ t, execNetSet x1 x2 x3 s = .next t ∧ Fr P r t := by
  have hs := fun k => Scope.outside_mono (k := k) hp
  exact ⟨_, rfl, by simp (maxDischargeDepth := 99) [h, hs]⟩

@[simp] theorem execNetGet_frame {P : Scope} {r s : State} (x1) (x2) (x3) (x4) (h : Fr P r s)
    (hp : P.outside 0x1001018004000 := by exact Scope.outside_mono (by assumption) (by decide)) :
    ∃ t, execNetGet x1 x2 x3 x4 s = .next t ∧ Fr P r t := by
  have hs := fun k => Scope.outside_mono (k := k) hp
  exact ⟨_, rfl, by simp (maxDischargeDepth := 99) [h, hs]⟩

@[simp] theorem execPskSet_frame {P : Scope} {r s : State} (x1) (x2) (x3) (x4) (x5) (x6) (h : Fr P r s)
    (hp : P.outside 0x1001038804000 := by exact Scope.outside_mono (by assumption) (by decide)) :
    ∃ t, execPskSet x1 x2 x3 x4 x5 x6 s = .next t ∧ Fr P r t := by
  have hs := fun k => Scope.outside_mono (k := k) hp
  refine ⟨_, rfl, ?_⟩
  (repeat' split) <;> simp (maxDischargeDepth := 99) [h, hs]

@[simp] theorem execPskClear_frame {P : Scope} {r s : State} (x1) (x2) (h : Fr P r s)
    (hp : P.outside 0x1001018804000 := by exact Scope.outside_mono (by assumption) (by decide)) :
    ∃ t, execPskClear x1 x2 s = .next t ∧ Fr P r t := by
  have hs := fun k => Scope.outside_mono (k := k) hp
  exact ⟨_, rfl, by simp (maxDischargeDepth := 99) [h, hs]⟩

@[simp] theorem execJubPlan_frame {P : Scope} {r s : State} (x1) (x2) (x3) (h : Fr P r s)
    (hp : P.outside 0x1081018044000 := by exact Scope.outside_mono (by assumption) (by decide)) :
    ∃ t, execJubPlan x1 x2 x3 s = .next t ∧ Fr P r t := by
  have hs := fun k => Scope.outside_mono (k := k) hp
  refine ⟨_, rfl, ?_⟩
  repeat' first
    | (simp (maxDischargeDepth := 99) [h, hs]; done)
    | split
    | refine State.mgtReq_frame _ _ _ (fun s => ?_) ?_
    | refine State.each_frame (fun s x => ?_) _ ?_
    | refine State.onlyIf_frame _ (fun s => ?_) ?_
    | simp (maxDischargeDepth := 99) [h, hs]

@[simp] theorem execOtpProgram_frame {P : Scope} {r s : State} (x1) (x2) (x3) (h : Fr P r s)
    (hp : P.outside 0x1001018404000 := by exact Scope.outside_mono (by assumption) (by decide)) :
    ∃ t, execOtpProgram x1 x2 x3 s = .next t ∧ Fr P r t := by
  have hs := fun k => Scope.outside_mono (k := k) hp
  refine ⟨_, rfl, ?_⟩
  repeat' first
    | (simp (maxDischargeDepth := 99) [h, hs]; done)
    | split
    | refine State.mgtReq_frame _ _ _ (fun s => ?_) ?_
    | refine State.each_frame (fun s x => ?_) _ ?_
    | refine State.onlyIf_frame _ (fun s => ?_) ?_
    | simp (maxDischargeDepth := 99) [h, hs]

@[simp] theorem execOtpRead_frame {P : Scope} {r s : State} (x1) (x2) (x3) (h : Fr P r s)
    (hp : P.outside 0x1001018004000 := by exact Scope.outside_mono (by assumption) (by decide)) :
    ∃ t, execOtpRead x1 x2 x3 s = .next t ∧ Fr P r t := by
  have hs := fun k => Scope.outside_mono (k := k) hp
  exact ⟨_, rfl, by simp (maxDischargeDepth := 99) [h, hs]⟩

@[simp] theorem execPowerReq_frame {P : Scope} {r s : State} (x1) (x2) (h : Fr P r s)
    (hp : P.outside 0x1001198184000 := by exact Scope.outside_mono (by assumption) (by decide)) :
    ∃ t, execPowerReq x1 x2 s = .next t ∧ Fr P r t := by
  have hs := fun k => Scope.outside_mono (k := k) hp
  exact ⟨_, rfl, by simp (maxDischargeDepth := 99) [h, hs]⟩

@[simp] theorem execDynamicAddressAssignment_frame {P : Scope} {r s : State} (x1) (h : Fr P r s)
    (hp : P.outside 0x1000000000 := by exact Scope.outside_mono (by assumption) (by decide)) :
    ∃ t, execDynamicAddressAssignment x1 s = .next t ∧ Fr P r t := by
  have hs := fun k => Scope.outside_mono (k := k) hp
  exact ⟨_, rfl, by simp (maxDischargeDepth := 99) [h, hs]⟩

@[simp] theorem execManagementPortReady_frame {P : Scope} {r s : State} (h : Fr P r s)
    (hp : P.outside 0x1000000000 := by exact Scope.outside_mono (by assumption) (by decide)) :
    ∃ t, execManagementPortReady s = .next t ∧ Fr P r t := by
  have hs := fun k => Scope.outside_mono (k := k) hp
  exact ⟨_, rfl, by simp (maxDischargeDepth := 99) [h, hs]⟩

end Sys2Proof.Machine
end

