-- ==== Sys2Proof/Laws/FrameOrd.lean ====
section
/-! SUPPORT. What each operation of Machine/Ord.lean leaves alone. -/
set_option linter.unusedSimpArgs false
set_option linter.unusedTactic false
set_option linter.unreachableTactic false
set_option linter.unnecessarySeqFocus false
namespace Sys2Proof.Machine
set_option Elab.async false

@[simp] theorem State.flushIfIdle_frame {P : Scope} {r s : State} (x1) (h : Fr P r s)
    (hp : P.outside 0x1e0001000000004400 := by exact Scope.outside_mono (by assumption) (by decide)) :
    Fr P r (State.flushIfIdle s x1) := by
  have hs := fun k => Scope.outside_mono (k := k) hp
  simp (maxDischargeDepth := 99) [State.flushIfIdle, h, hs]

@[simp] theorem State.mopSubmit_frame {P : Scope} {r s : State} (x1) (x2) (h : Fr P r s)
    (hp : P.outside 0x1e0001000000004400 := by exact Scope.outside_mono (by assumption) (by decide)) :
    Fr P r (State.mopSubmit s x1 x2) := by
  have hs := fun k => Scope.outside_mono (k := k) hp
  simp (maxDischargeDepth := 99) [State.mopSubmit, h, hs]

@[simp] theorem execMopSubmit_frame {P : Scope} {r s : State} (x1) (x2) (h : Fr P r s)
    (hp : P.outside 0x1e0001000000004400 := by exact Scope.outside_mono (by assumption) (by decide)) :
    ∃ t, execMopSubmit x1 x2 s = .next t ∧ Fr P r t := by
  have hs := fun k => Scope.outside_mono (k := k) hp
  exact ⟨_, rfl, by simp (maxDischargeDepth := 99) [h, hs]⟩

@[simp] theorem execOrdCplPop_frame {P : Scope} {r s : State} (x1) (h : Fr P r s)
    (hp : P.outside 0x400 := by exact Scope.outside_mono (by assumption) (by decide)) :
    ∃ t, execOrdCplPop x1 s = .next t ∧ Fr P r t := by
  have hs := fun k => Scope.outside_mono (k := k) hp
  exact ⟨_, rfl, by simp (maxDischargeDepth := 99) [h, hs]⟩

@[simp] theorem State.ordRun_frame {P : Scope} {r s : State} (x1) (x2) (h : Fr P r s)
    (hp : P.outside 0x3e00010000000045a0 := by exact Scope.outside_mono (by assumption) (by decide)) :
    Fr P r (State.ordRun s x1 x2) := by
  have hs := fun k => Scope.outside_mono (k := k) hp
  simp (maxDischargeDepth := 99) [State.ordRun, h, hs]

@[simp] theorem execOrdRun_frame {P : Scope} {r s : State} (x1) (x2) (h : Fr P r s)
    (hp : P.outside 0x3e00010000000045a0 := by exact Scope.outside_mono (by assumption) (by decide)) :
    ∃ t, execOrdRun x1 x2 s = .next t ∧ Fr P r t := by
  have hs := fun k => Scope.outside_mono (k := k) hp
  exact ⟨_, rfl, by simp (maxDischargeDepth := 99) [h, hs]⟩

@[simp] theorem execOrdCancel_frame {P : Scope} {r s : State} (x1) (h : Fr P r s)
    (hp : P.outside 0x1e0000000000000400 := by exact Scope.outside_mono (by assumption) (by decide)) :
    ∃ t, execOrdCancel x1 s = .next t ∧ Fr P r t := by
  have hs := fun k => Scope.outside_mono (k := k) hp
  exact ⟨_, rfl, by simp (maxDischargeDepth := 99) [h, hs]⟩

@[simp] theorem execReturnQueued_frame {P : Scope} {r s : State} (x1) (h : Fr P r s)
    (hp : P.outside 0x3e00010000000045a0 := by exact Scope.outside_mono (by assumption) (by decide)) :
    ∃ t, execReturnQueued x1 s = .next t ∧ Fr P r t := by
  have hs := fun k => Scope.outside_mono (k := k) hp
  exact ⟨_, rfl, by simp (maxDischargeDepth := 99) [h, hs]⟩

@[simp] theorem State.ordFaultSeen_frame {P : Scope} {r s : State} (x1) (x2) (h : Fr P r s)
    (hp : P.outside 0x1e0000000000000000 := by exact Scope.outside_mono (by assumption) (by decide)) :
    Fr P r (State.ordFaultSeen s x1 x2) := by
  have hs := fun k => Scope.outside_mono (k := k) hp
  simp (maxDischargeDepth := 99) [State.ordFaultSeen, h, hs]

@[simp] theorem State.ordFault_frame {P : Scope} {r s : State} (x1) (x2) (h : Fr P r s)
    (hp : P.outside 0x3e7f812010100065f4 := by exact Scope.outside_mono (by assumption) (by decide)) :
    Fr P r (State.ordFault s x1 x2) := by
  have hs := fun k => Scope.outside_mono (k := k) hp
  simp (maxDischargeDepth := 99) [State.ordFault, h, hs]

@[simp] theorem State.toGovernor_frame {P : Scope} {r s : State} (x1) (x2) (h : Fr P r s)
    (hp : P.outside 0x3e00010000000045a0 := by exact Scope.outside_mono (by assumption) (by decide)) :
    Fr P r (State.toGovernor s x1 x2) := by
  have hs := fun k => Scope.outside_mono (k := k) hp
  simp (maxDischargeDepth := 99) [State.toGovernor, h, hs]

@[simp] theorem State.pblkRead_frame {P : Scope} {r s : State} (x1) (x2) (h : Fr P r s)
    (hp : P.outside 0x1200000006000 := by exact Scope.outside_mono (by assumption) (by decide)) :
    Fr P r (State.pblkRead s x1 x2).1 := by
  unfold State.pblkRead
  refine foldl_frame (fun q x => ?_) _ _ h
  exact State.sramRead_frame _ _ _ (Fr.refl _) (Scope.outside_mono hp (by decide))

@[simp] theorem State.mopAdmission_frame {P : Scope} {r s : State} (x1) (x2) (h : Fr P r s)
    (hp : P.outside 0x3e00012000000065a0 := by exact Scope.outside_mono (by assumption) (by decide)) :
    Fr P r (State.mopAdmission s x1 x2) := by
  have hs := fun k => Scope.outside_mono (k := k) hp
  unfold State.mopAdmission
  repeat' first
    | (simp (maxDischargeDepth := 99) [h, hs]; done)
    | split
    | refine State.each_frame (fun s x => ?_) _ ?_
    | refine State.onlyIf_frame _ (fun s => ?_) ?_
    | simp (maxDischargeDepth := 99) [h, hs]

@[simp] theorem execMopAdmission_frame {P : Scope} {r s : State} (x1) (x2) (h : Fr P r s)
    (hp : P.outside 0x3e00012000000065a0 := by exact Scope.outside_mono (by assumption) (by decide)) :
    ∃ t, execMopAdmission x1 x2 s = .next t ∧ Fr P r t := by
  have hs := fun k => Scope.outside_mono (k := k) hp
  exact ⟨_, rfl, by simp (maxDischargeDepth := 99) [h, hs]⟩

@[simp] theorem State.putStore_frame {P : Scope} {r s : State} (x1) (x2) (x3) (h : Fr P r s)
    (hp : P.outside 0x1200000006400 := by exact Scope.outside_mono (by assumption) (by decide)) :
    Fr P r (State.putStore s x1 x2 x3) := by
  have hs := fun k => Scope.outside_mono (k := k) hp
  simp (maxDischargeDepth := 99) [State.putStore, h, hs]

@[simp] theorem State.storeWrite_frame {P : Scope} {r s : State} (x1) (x2) (x3) (h : Fr P r s)
    (hp : P.outside 0x1e0001200000006400 := by exact Scope.outside_mono (by assumption) (by decide)) :
    Fr P r (State.storeWrite s x1 x2 x3) := by
  have hs := fun k => Scope.outside_mono (k := k) hp
  simp (maxDischargeDepth := 99) [State.storeWrite, h, hs]

@[simp] theorem execOrdWinWrite_frame {P : Scope} {r s : State} (x1) (x2) (x3) (h : Fr P r s)
    (hp : P.outside 0x1e0001200000006400 := by exact Scope.outside_mono (by assumption) (by decide)) :
    ∃ t, execOrdWinWrite x1 x2 x3 s = .next t ∧ Fr P r t := by
  have hs := fun k => Scope.outside_mono (k := k) hp
  exact ⟨_, rfl, by simp (maxDischargeDepth := 99) [h, hs]⟩

@[simp] theorem State.pollOverrun_frame {P : Scope} {r s : State} (x1) (h : Fr P r s)
    (hp : P.outside 0x3e7f812010100065f4 := by exact Scope.outside_mono (by assumption) (by decide)) :
    Fr P r (State.pollOverrun s x1) := by
  have hs := fun k => Scope.outside_mono (k := k) hp
  simp (maxDischargeDepth := 99) [State.pollOverrun, h, hs]

@[simp] theorem State.microword_frame {P : Scope} {r s : State} (n : Nat) (find : EccFind) (ok : Nat → Bool) {f : State → W → State}
    (hf : ∀ s w, Fr P s (f s w)) (h : Fr P r s)
    (hp : P.outside 0x3e7f812010100065f4 := by exact Scope.outside_mono (by assumption) (by decide)) :
    Fr P r (s.microword n find ok f) := by
  have hs := fun k => Scope.outside_mono (k := k) hp
  unfold State.microword
  dsimp only
  (repeat' split) <;> first
    | (simp (maxDischargeDepth := 99) [h, hs]; done)
    | exact Fr.trans (by simp (maxDischargeDepth := 99) [h, hs]) (hf _ _)

@[simp] theorem State.uFault_frame {P : Scope} {r s : State} (x1) (h : Fr P r s)
    (hp : P.outside 0x3e7f812010100065f4 := by exact Scope.outside_mono (by assumption) (by decide)) :
    Fr P r (State.uFault s x1) := by
  have hs := fun k => Scope.outside_mono (k := k) hp
  simp (maxDischargeDepth := 99) [State.uFault, h, hs]

@[simp] theorem State.uSet_frame {P : Scope} {r s : State} (x1) (x2) (x3) (h : Fr P r s)
    (hp : P.outside 0x400 := by exact Scope.outside_mono (by assumption) (by decide)) :
    Fr P r (State.uSet s x1 x2 x3) := by
  have hs := fun k => Scope.outside_mono (k := k) hp
  simp (maxDischargeDepth := 99) [State.uSet, h, hs]

@[simp] theorem State.uAlu_frame {P : Scope} {r s : State} (x1) (x2) (x3) (h : Fr P r s)
    (hp : P.outside 0x400 := by exact Scope.outside_mono (by assumption) (by decide)) :
    Fr P r (State.uAlu s x1 x2 x3) := by
  have hs := fun k => Scope.outside_mono (k := k) hp
  simp (maxDischargeDepth := 99) [State.uAlu, h, hs]

@[simp] theorem State.uCmp_frame {P : Scope} {r s : State} (x1) (x2) (x3) (h : Fr P r s)
    (hp : P.outside 0x400 := by exact Scope.outside_mono (by assumption) (by decide)) :
    Fr P r (State.uCmp s x1 x2 x3) := by
  have hs := fun k => Scope.outside_mono (k := k) hp
  simp (maxDischargeDepth := 99) [State.uCmp, h, hs]

@[simp] theorem State.uZ_frame {P : Scope} {r s : State} (x1) (x2) (h : Fr P r s)
    (hp : P.outside 0x400 := by exact Scope.outside_mono (by assumption) (by decide)) :
    Fr P r (State.uZ s x1 x2) := by
  have hs := fun k => Scope.outside_mono (k := k) hp
  simp (maxDischargeDepth := 99) [State.uZ, h, hs]

@[simp] theorem execNop_frame {P : Scope} {r s : State} (x1) (x2) (h : Fr P r s)
    (hp : P.outside 0x3e7f812010100065f4 := by exact Scope.outside_mono (by assumption) (by decide)) :
    ∃ t, execNop x1 x2 s = .next t ∧ Fr P r t := by
  have hs := fun k => Scope.outside_mono (k := k) hp
  exact ⟨_, rfl, by simp (maxDischargeDepth := 99) [h, hs]⟩

@[simp] theorem execLdi_frame {P : Scope} {r s : State} (x1) (x2) (h : Fr P r s)
    (hp : P.outside 0x3e7f812010100065f4 := by exact Scope.outside_mono (by assumption) (by decide)) :
    ∃ t, execLdi x1 x2 s = .next t ∧ Fr P r t := by
  have hs := fun k => Scope.outside_mono (k := k) hp
  exact ⟨_, rfl, by simp (maxDischargeDepth := 99) [h, hs]⟩

@[simp] theorem execLui_frame {P : Scope} {r s : State} (x1) (x2) (h : Fr P r s)
    (hp : P.outside 0x3e7f812010100065f4 := by exact Scope.outside_mono (by assumption) (by decide)) :
    ∃ t, execLui x1 x2 s = .next t ∧ Fr P r t := by
  have hs := fun k => Scope.outside_mono (k := k) hp
  exact ⟨_, rfl, by simp (maxDischargeDepth := 99) [h, hs]⟩

@[simp] theorem execAdd_frame {P : Scope} {r s : State} (x1) (x2) (h : Fr P r s)
    (hp : P.outside 0x3e7f812010100065f4 := by exact Scope.outside_mono (by assumption) (by decide)) :
    ∃ t, execAdd x1 x2 s = .next t ∧ Fr P r t := by
  have hs := fun k => Scope.outside_mono (k := k) hp
  exact ⟨_, rfl, by simp (maxDischargeDepth := 99) [h, hs]⟩

@[simp] theorem execSub_frame {P : Scope} {r s : State} (x1) (x2) (h : Fr P r s)
    (hp : P.outside 0x3e7f812010100065f4 := by exact Scope.outside_mono (by assumption) (by decide)) :
    ∃ t, execSub x1 x2 s = .next t ∧ Fr P r t := by
  have hs := fun k => Scope.outside_mono (k := k) hp
  exact ⟨_, rfl, by simp (maxDischargeDepth := 99) [h, hs]⟩

@[simp] theorem execAnd_frame {P : Scope} {r s : State} (x1) (x2) (h : Fr P r s)
    (hp : P.outside 0x3e7f812010100065f4 := by exact Scope.outside_mono (by assumption) (by decide)) :
    ∃ t, execAnd x1 x2 s = .next t ∧ Fr P r t := by
  have hs := fun k => Scope.outside_mono (k := k) hp
  exact ⟨_, rfl, by simp (maxDischargeDepth := 99) [h, hs]⟩

@[simp] theorem execOr_frame {P : Scope} {r s : State} (x1) (x2) (h : Fr P r s)
    (hp : P.outside 0x3e7f812010100065f4 := by exact Scope.outside_mono (by assumption) (by decide)) :
    ∃ t, execOr x1 x2 s = .next t ∧ Fr P r t := by
  have hs := fun k => Scope.outside_mono (k := k) hp
  exact ⟨_, rfl, by simp (maxDischargeDepth := 99) [h, hs]⟩

@[simp] theorem execXor_frame {P : Scope} {r s : State} (x1) (x2) (h : Fr P r s)
    (hp : P.outside 0x3e7f812010100065f4 := by exact Scope.outside_mono (by assumption) (by decide)) :
    ∃ t, execXor x1 x2 s = .next t ∧ Fr P r t := by
  have hs := fun k => Scope.outside_mono (k := k) hp
  exact ⟨_, rfl, by simp (maxDischargeDepth := 99) [h, hs]⟩

@[simp] theorem execAddi_frame {P : Scope} {r s : State} (x1) (x2) (h : Fr P r s)
    (hp : P.outside 0x3e7f812010100065f4 := by exact Scope.outside_mono (by assumption) (by decide)) :
    ∃ t, execAddi x1 x2 s = .next t ∧ Fr P r t := by
  have hs := fun k => Scope.outside_mono (k := k) hp
  exact ⟨_, rfl, by simp (maxDischargeDepth := 99) [h, hs]⟩

@[simp] theorem execAndi_frame {P : Scope} {r s : State} (x1) (x2) (h : Fr P r s)
    (hp : P.outside 0x3e7f812010100065f4 := by exact Scope.outside_mono (by assumption) (by decide)) :
    ∃ t, execAndi x1 x2 s = .next t ∧ Fr P r t := by
  have hs := fun k => Scope.outside_mono (k := k) hp
  exact ⟨_, rfl, by simp (maxDischargeDepth := 99) [h, hs]⟩

@[simp] theorem execShli_frame {P : Scope} {r s : State} (x1) (x2) (h : Fr P r s)
    (hp : P.outside 0x3e7f812010100065f4 := by exact Scope.outside_mono (by assumption) (by decide)) :
    ∃ t, execShli x1 x2 s = .next t ∧ Fr P r t := by
  have hs := fun k => Scope.outside_mono (k := k) hp
  exact ⟨_, rfl, by simp (maxDischargeDepth := 99) [h, hs]⟩

@[simp] theorem execShri_frame {P : Scope} {r s : State} (x1) (x2) (h : Fr P r s)
    (hp : P.outside 0x3e7f812010100065f4 := by exact Scope.outside_mono (by assumption) (by decide)) :
    ∃ t, execShri x1 x2 s = .next t ∧ Fr P r t := by
  have hs := fun k => Scope.outside_mono (k := k) hp
  exact ⟨_, rfl, by simp (maxDischargeDepth := 99) [h, hs]⟩

@[simp] theorem execCmp_frame {P : Scope} {r s : State} (x1) (x2) (h : Fr P r s)
    (hp : P.outside 0x3e7f812010100065f4 := by exact Scope.outside_mono (by assumption) (by decide)) :
    ∃ t, execCmp x1 x2 s = .next t ∧ Fr P r t := by
  have hs := fun k => Scope.outside_mono (k := k) hp
  exact ⟨_, rfl, by simp (maxDischargeDepth := 99) [h, hs]⟩

@[simp] theorem execCmpi_frame {P : Scope} {r s : State} (x1) (x2) (h : Fr P r s)
    (hp : P.outside 0x3e7f812010100065f4 := by exact Scope.outside_mono (by assumption) (by decide)) :
    ∃ t, execCmpi x1 x2 s = .next t ∧ Fr P r t := by
  have hs := fun k => Scope.outside_mono (k := k) hp
  exact ⟨_, rfl, by simp (maxDischargeDepth := 99) [h, hs]⟩

@[simp] theorem execLdd_frame {P : Scope} {r s : State} (x1) (x2) (h : Fr P r s)
    (hp : P.outside 0x3e7f812010100065f4 := by exact Scope.outside_mono (by assumption) (by decide)) :
    ∃ t, execLdd x1 x2 s = .next t ∧ Fr P r t := by
  have hs := fun k => Scope.outside_mono (k := k) hp
  refine ⟨_, rfl, ?_⟩
  repeat' first
    | (simp (maxDischargeDepth := 99) [h, hs]; done)
    | split
    | refine State.microword_frame _ _ _ (fun s w => ?_) ?_
    | refine State.each_frame (fun s x => ?_) _ ?_
    | refine State.onlyIf_frame _ (fun s => ?_) ?_
    | simp (maxDischargeDepth := 99) [h, hs]

@[simp] theorem execLdp_frame {P : Scope} {r s : State} (x1) (x2) (h : Fr P r s)
    (hp : P.outside 0x3e7f812010100065f4 := by exact Scope.outside_mono (by assumption) (by decide)) :
    ∃ t, execLdp x1 x2 s = .next t ∧ Fr P r t := by
  have hs := fun k => Scope.outside_mono (k := k) hp
  exact ⟨_, rfl, by simp (maxDischargeDepth := 99) [h, hs]⟩

@[simp] theorem execLds_frame {P : Scope} {r s : State} (x1) (x2) (h : Fr P r s)
    (hp : P.outside 0x3e7f812010100065f4 := by exact Scope.outside_mono (by assumption) (by decide)) :
    ∃ t, execLds x1 x2 s = .next t ∧ Fr P r t := by
  have hs := fun k => Scope.outside_mono (k := k) hp
  exact ⟨_, rfl, by simp (maxDischargeDepth := 99) [h, hs]⟩

@[simp] theorem execBr_frame {P : Scope} {r s : State} (x1) (x2) (h : Fr P r s)
    (hp : P.outside 0x3e7f812010100065f4 := by exact Scope.outside_mono (by assumption) (by decide)) :
    ∃ t, execBr x1 x2 s = .next t ∧ Fr P r t := by
  have hs := fun k => Scope.outside_mono (k := k) hp
  refine ⟨_, rfl, ?_⟩
  repeat' first
    | (simp (maxDischargeDepth := 99) [h, hs]; done)
    | split
    | refine State.microword_frame _ _ _ (fun s w => ?_) ?_
    | refine State.each_frame (fun s x => ?_) _ ?_
    | refine State.onlyIf_frame _ (fun s => ?_) ?_
    | simp (maxDischargeDepth := 99) [h, hs]

@[simp] theorem execCall_frame {P : Scope} {r s : State} (x1) (x2) (h : Fr P r s)
    (hp : P.outside 0x3e7f812010100065f4 := by exact Scope.outside_mono (by assumption) (by decide)) :
    ∃ t, execCall x1 x2 s = .next t ∧ Fr P r t := by
  have hs := fun k => Scope.outside_mono (k := k) hp
  exact ⟨_, rfl, by simp (maxDischargeDepth := 99) [h, hs]⟩

@[simp] theorem execRet_frame {P : Scope} {r s : State} (x1) (x2) (h : Fr P r s)
    (hp : P.outside 0x3e7f812010100065f4 := by exact Scope.outside_mono (by assumption) (by decide)) :
    ∃ t, execRet x1 x2 s = .next t ∧ Fr P r t := by
  have hs := fun k => Scope.outside_mono (k := k) hp
  refine ⟨_, rfl, ?_⟩
  repeat' first
    | (simp (maxDischargeDepth := 99) [h, hs]; done)
    | split
    | refine State.microword_frame _ _ _ (fun s w => ?_) ?_
    | refine State.each_frame (fun s x => ?_) _ ?_
    | refine State.onlyIf_frame _ (fun s => ?_) ?_
    | simp (maxDischargeDepth := 99) [h, hs]

@[simp] theorem State.poll_frame {P : Scope} {r s : State} (x1) (x2) (h : Fr P r s)
    (hp : P.outside 0x3e7f812010100065f4 := by exact Scope.outside_mono (by assumption) (by decide)) :
    Fr P r (State.poll s x1 x2) := by
  have hs := fun k => Scope.outside_mono (k := k) hp
  simp (maxDischargeDepth := 99) [State.poll, h, hs]

@[simp] theorem execPoll_frame {P : Scope} {r s : State} (x1) (x2) (h : Fr P r s)
    (hp : P.outside 0x3e7f812010100065f4 := by exact Scope.outside_mono (by assumption) (by decide)) :
    ∃ t, execPoll x1 x2 s = .next t ∧ Fr P r t := by
  have hs := fun k => Scope.outside_mono (k := k) hp
  exact ⟨_, rfl, by simp (maxDischargeDepth := 99) [h, hs]⟩

@[simp] theorem State.uWait_frame {P : Scope} {r s : State} (x1) (x2) (x3) (h : Fr P r s)
    (hp : P.outside 0x3e7f812010100065f4 := by exact Scope.outside_mono (by assumption) (by decide)) :
    Fr P r (State.uWait s x1 x2 x3) := by
  have hs := fun k => Scope.outside_mono (k := k) hp
  unfold State.uWait
  (repeat' split) <;> simp (maxDischargeDepth := 99) [h, hs]

@[simp] theorem execWait_frame {P : Scope} {r s : State} (x1) (x2) (h : Fr P r s)
    (hp : P.outside 0x3e7f812010100065f4 := by exact Scope.outside_mono (by assumption) (by decide)) :
    ∃ t, execWait x1 x2 s = .next t ∧ Fr P r t := by
  have hs := fun k => Scope.outside_mono (k := k) hp
  exact ⟨_, rfl, by simp (maxDischargeDepth := 99) [h, hs]⟩

@[simp] theorem State.resume_frame {P : Scope} {r s : State} (x1) (x2) (h : Fr P r s)
    (hp : P.outside 0x400 := by exact Scope.outside_mono (by assumption) (by decide)) :
    Fr P r (State.resume s x1 x2) := by
  have hs := fun k => Scope.outside_mono (k := k) hp
  simp (maxDischargeDepth := 99) [State.resume, h, hs]

@[simp] theorem State.waitReturn_frame {P : Scope} {r s : State} (x1) (h : Fr P r s)
    (hp : P.outside 0x3e7f812010100065f4 := by exact Scope.outside_mono (by assumption) (by decide)) :
    Fr P r (State.waitReturn s x1) := by
  have hs := fun k => Scope.outside_mono (k := k) hp
  unfold State.waitReturn
  (repeat' split) <;> simp (maxDischargeDepth := 99) [h, hs]

@[simp] theorem execWaitReturn_frame {P : Scope} {r s : State} (x1) (h : Fr P r s)
    (hp : P.outside 0x3e7f812010100065f4 := by exact Scope.outside_mono (by assumption) (by decide)) :
    ∃ t, execWaitReturn x1 s = .next t ∧ Fr P r t := by
  have hs := fun k => Scope.outside_mono (k := k) hp
  exact ⟨_, rfl, by simp (maxDischargeDepth := 99) [h, hs]⟩

@[simp] theorem State.uSeek_frame {P : Scope} {r s : State} (x1) (x2) (h : Fr P r s)
    (hp : P.outside 0x3e7f812010100065f4 := by exact Scope.outside_mono (by assumption) (by decide)) :
    Fr P r (State.uSeek s x1 x2) := by
  have hs := fun k => Scope.outside_mono (k := k) hp
  simp (maxDischargeDepth := 99) [State.uSeek, h, hs]

@[simp] theorem execSeek_frame {P : Scope} {r s : State} (x1) (x2) (h : Fr P r s)
    (hp : P.outside 0x3e7f812010100065f4 := by exact Scope.outside_mono (by assumption) (by decide)) :
    ∃ t, execSeek x1 x2 s = .next t ∧ Fr P r t := by
  have hs := fun k => Scope.outside_mono (k := k) hp
  exact ⟨_, rfl, by simp (maxDischargeDepth := 99) [h, hs]⟩

@[simp] theorem State.uGang_frame {P : Scope} {r s : State} (x1) (x2) (x3) (h : Fr P r s)
    (hp : P.outside 0x3e7f812010100065f4 := by exact Scope.outside_mono (by assumption) (by decide)) :
    Fr P r (State.uGang s x1 x2 x3) := by
  have hs := fun k => Scope.outside_mono (k := k) hp
  unfold State.uGang
  repeat' first
    | (simp (maxDischargeDepth := 99) [h, hs]; done)
    | split
    | refine State.each_frame (fun s x => ?_) _ ?_
    | refine State.onlyIf_frame _ (fun s => ?_) ?_
    | simp (maxDischargeDepth := 99) [h, hs]

@[simp] theorem execGang_frame {P : Scope} {r s : State} (x1) (x2) (h : Fr P r s)
    (hp : P.outside 0x3e7f812010100065f4 := by exact Scope.outside_mono (by assumption) (by decide)) :
    ∃ t, execGang x1 x2 s = .next t ∧ Fr P r t := by
  have hs := fun k => Scope.outside_mono (k := k) hp
  exact ⟨_, rfl, by simp (maxDischargeDepth := 99) [h, hs]⟩

@[simp] theorem State.uStrobe_frame {P : Scope} {r s : State} (x1) (x2) (x3) (x4) (h : Fr P r s)
    (hp : P.outside 0x7f81201000006470 := by exact Scope.outside_mono (by assumption) (by decide)) :
    Fr P r (State.uStrobe s x1 x2 x3 x4) := by
  have hs := fun k => Scope.outside_mono (k := k) hp
  simp (maxDischargeDepth := 99) [State.uStrobe, h, hs]

@[simp] theorem execStrobe_frame {P : Scope} {r s : State} (x1) (x2) (h : Fr P r s)
    (hp : P.outside 0x3e7f812010100065f4 := by exact Scope.outside_mono (by assumption) (by decide)) :
    ∃ t, execStrobe x1 x2 s = .next t ∧ Fr P r t := by
  have hs := fun k => Scope.outside_mono (k := k) hp
  exact ⟨_, rfl, by simp (maxDischargeDepth := 99) [h, hs]⟩

@[simp] theorem State.queuePackets_frame {P : Scope} {r s : State} (x1) (x2) (x3) (h : Fr P r s)
    (hp : P.outside 0x1000000004000 := by exact Scope.outside_mono (by assumption) (by decide)) :
    Fr P r (State.queuePackets s x1 x2 x3) := by
  have hs := fun k => Scope.outside_mono (k := k) hp
  unfold State.queuePackets
  (repeat' split) <;> simp (maxDischargeDepth := 99) [h, hs]

@[simp] theorem State.placeGates_frame {P : Scope} {r s : State} (x1) (x2) (x3) (x4) (x5) (h : Fr P r s)
    (hp : P.outside 0x1000000004400 := by exact Scope.outside_mono (by assumption) (by decide)) :
    Fr P r (State.placeGates s x1 x2 x3 x4 x5) := by
  have hs := fun k => Scope.outside_mono (k := k) hp
  simp (maxDischargeDepth := 99) [State.placeGates, h, hs]

@[simp] theorem State.uGate_frame {P : Scope} {r s : State} (x1) (x2) (x3) (x4) (x5) (h : Fr P r s)
    (hp : P.outside 0x3e7f812010100065f4 := by exact Scope.outside_mono (by assumption) (by decide)) :
    Fr P r (State.uGate s x1 x2 x3 x4 x5) := by
  have hs := fun k => Scope.outside_mono (k := k) hp
  simp (maxDischargeDepth := 99) [State.uGate, h, hs]

@[simp] theorem execGate_frame {P : Scope} {r s : State} (x1) (x2) (h : Fr P r s)
    (hp : P.outside 0x3e7f812010100065f4 := by exact Scope.outside_mono (by assumption) (by decide)) :
    ∃ t, execGate x1 x2 s = .next t ∧ Fr P r t := by
  have hs := fun k => Scope.outside_mono (k := k) hp
  refine ⟨_, rfl, ?_⟩
  repeat' first
    | (simp (maxDischargeDepth := 99) [h, hs]; done)
    | split
    | refine State.microword_frame _ _ _ (fun s w => ?_) ?_
    | refine State.each_frame (fun s x => ?_) _ ?_
    | refine State.onlyIf_frame _ (fun s => ?_) ?_
    | simp (maxDischargeDepth := 99) [h, hs]

@[simp] theorem State.rewriteInPlace_frame {P : Scope} {r s : State} (x1) (x2) (h : Fr P r s)
    (hp : P.outside 0x1000000004420 := by exact Scope.outside_mono (by assumption) (by decide)) :
    Fr P r (State.rewriteInPlace s x1 x2) := by
  have hs := fun k => Scope.outside_mono (k := k) hp
  unfold State.rewriteInPlace
  repeat' first
    | (simp (maxDischargeDepth := 99) [h, hs]; done)
    | split
    | refine State.each_frame (fun s x => ?_) _ ?_
    | refine State.onlyIf_frame _ (fun s => ?_) ?_
    | simp (maxDischargeDepth := 99) [h, hs]

@[simp] theorem State.uLdband_frame {P : Scope} {r s : State} (x1) (h : Fr P r s)
    (hp : P.outside 0x3e7f812010100065f4 := by exact Scope.outside_mono (by assumption) (by decide)) :
    Fr P r (State.uLdband s x1) := by
  have hs := fun k => Scope.outside_mono (k := k) hp
  unfold State.uLdband
  repeat' first
    | (simp (maxDischargeDepth := 99) [h, hs]; done)
    | split
    | refine State.each_frame (fun s x => ?_) _ ?_
    | refine State.onlyIf_frame _ (fun s => ?_) ?_
    | simp (maxDischargeDepth := 99) [h, hs]

@[simp] theorem execLdband_frame {P : Scope} {r s : State} (x1) (x2) (h : Fr P r s)
    (hp : P.outside 0x3e7f812010100065f4 := by exact Scope.outside_mono (by assumption) (by decide)) :
    ∃ t, execLdband x1 x2 s = .next t ∧ Fr P r t := by
  have hs := fun k => Scope.outside_mono (k := k) hp
  exact ⟨_, rfl, by simp (maxDischargeDepth := 99) [h, hs]⟩

@[simp] theorem execFin_frame {P : Scope} {r s : State} (x1) (x2) (h : Fr P r s)
    (hp : P.outside 0x3e7f812010100065f4 := by exact Scope.outside_mono (by assumption) (by decide)) :
    ∃ t, execFin x1 x2 s = .next t ∧ Fr P r t := by
  have hs := fun k => Scope.outside_mono (k := k) hp
  exact ⟨_, rfl, by simp (maxDischargeDepth := 99) [h, hs]⟩

@[simp] theorem execReservedMicroword_frame {P : Scope} {r s : State} (x1) (x2) (h : Fr P r s)
    (hp : P.outside 0x3e7f812010100065f4 := by exact Scope.outside_mono (by assumption) (by decide)) :
    ∃ t, execReservedMicroword x1 x2 s = .next t ∧ Fr P r t := by
  have hs := fun k => Scope.outside_mono (k := k) hp
  exact ⟨_, rfl, by simp (maxDischargeDepth := 99) [h, hs]⟩

@[simp] theorem State.tick_frame {P : Scope} {r s : State} (x1) (h : Fr P r s)
    (hp : P.outside 0x3e7f812031120065f6 := by exact Scope.outside_mono (by assumption) (by decide)) :
    Fr P r (State.tick s x1) := by
  have hs := fun k => Scope.outside_mono (k := k) hp
  simp (maxDischargeDepth := 99) [State.tick, h, hs]

@[simp] theorem execWedgeTick_frame {P : Scope} {r s : State} (x1) (h : Fr P r s)
    (hp : P.outside 0x3e7f812031120065f6 := by exact Scope.outside_mono (by assumption) (by decide)) :
    ∃ t, execWedgeTick x1 s = .next t ∧ Fr P r t := by
  have hs := fun k => Scope.outside_mono (k := k) hp
  exact ⟨_, rfl, by simp (maxDischargeDepth := 99) [h, hs]⟩

@[simp] theorem execSyntheticTick_frame {P : Scope} {r s : State} (x1) (h : Fr P r s)
    (hp : P.outside 0x3e7f812031120065f6 := by exact Scope.outside_mono (by assumption) (by decide)) :
    ∃ t, execSyntheticTick x1 s = .next t ∧ Fr P r t := by
  have hs := fun k => Scope.outside_mono (k := k) hp
  exact ⟨_, rfl, by simp (maxDischargeDepth := 99) [h, hs]⟩

@[simp] theorem execPollOverrun_frame {P : Scope} {r s : State} (x1) (h : Fr P r s)
    (hp : P.outside 0x3e7f812010100065f4 := by exact Scope.outside_mono (by assumption) (by decide)) :
    ∃ t, execPollOverrun x1 s = .next t ∧ Fr P r t := by
  have hs := fun k => Scope.outside_mono (k := k) hp
  exact ⟨_, rfl, by simp (maxDischargeDepth := 99) [h, hs]⟩

@[simp] theorem State.endDrain_frame {P : Scope} {r s : State} (x1) (h : Fr P r s)
    (hp : P.outside 0x3e7f812031120265f6 := by exact Scope.outside_mono (by assumption) (by decide)) :
    Fr P r (State.endDrain s x1) := by
  have hs := fun k => Scope.outside_mono (k := k) hp
  unfold State.endDrain
  repeat' first
    | (simp (maxDischargeDepth := 99) [h, hs]; done)
    | split
    | refine State.each_frame (fun s x => ?_) _ ?_
    | refine State.onlyIf_frame _ (fun s => ?_) ?_
    | simp (maxDischargeDepth := 99) [h, hs]

@[simp] theorem execEndSequenceDrain_frame {P : Scope} {r s : State} (x1) (h : Fr P r s)
    (hp : P.outside 0x3e7f812031120265f6 := by exact Scope.outside_mono (by assumption) (by decide)) :
    ∃ t, execEndSequenceDrain x1 s = .next t ∧ Fr P r t := by
  have hs := fun k => Scope.outside_mono (k := k) hp
  exact ⟨_, rfl, by simp (maxDischargeDepth := 99) [h, hs]⟩

@[simp] theorem State.relinkAs_frame {P : Scope} {r s : State} (x1) (x2) (x3) (x4) (h : Fr P r s)
    (hp : P.outside 0x1000000004000 := by exact Scope.outside_mono (by assumption) (by decide)) :
    Fr P r (State.relinkAs s x1 x2 x3 x4) := by
  have hs := fun k => Scope.outside_mono (k := k) hp
  unfold State.relinkAs
  (repeat' split) <;> simp (maxDischargeDepth := 99) [h, hs]

@[simp] theorem State.latePacket_frame {P : Scope} {r s : State} (x1) (x2) (x3) (h : Fr P r s)
    (hp : P.outside 0x1e0001000010004000 := by exact Scope.outside_mono (by assumption) (by decide)) :
    Fr P r (State.latePacket s x1 x2 x3) := by
  have hs := fun k => Scope.outside_mono (k := k) hp
  simp (maxDischargeDepth := 99) [State.latePacket, h, hs]

@[simp] theorem State.dispatchPacket_frame {P : Scope} {r s : State} (x1) (x2) (h : Fr P r s)
    (hp : P.outside 0x1e0001200030004400 := by exact Scope.outside_mono (by assumption) (by decide)) :
    Fr P r (State.dispatchPacket s x1 x2) := by
  have hs := fun k => Scope.outside_mono (k := k) hp
  unfold State.dispatchPacket
  repeat' first
    | (simp (maxDischargeDepth := 99) [h, hs]; done)
    | split
    | refine State.each_frame (fun s x => ?_) _ ?_
    | refine State.onlyIf_frame _ (fun s => ?_) ?_
    | simp (maxDischargeDepth := 99) [h, hs]

@[simp] theorem execSectorPacketDispatch_frame {P : Scope} {r s : State} (x1) (x2) (h : Fr P r s)
    (hp : P.outside 0x1e0001200030004400 := by exact Scope.outside_mono (by assumption) (by decide)) :
    ∃ t, execSectorPacketDispatch x1 x2 s = .next t ∧ Fr P r t := by
  have hs := fun k => Scope.outside_mono (k := k) hp
  exact ⟨_, rfl, by simp (maxDischargeDepth := 99) [h, hs]⟩

@[simp] theorem State.openGate_frame {P : Scope} {r s : State} (x1) (x2) (h : Fr P r s)
    (hp : P.outside 0x7800000000000400 := by exact Scope.outside_mono (by assumption) (by decide)) :
    Fr P r (State.openGate s x1 x2) := by
  have hs := fun k => Scope.outside_mono (k := k) hp
  simp (maxDischargeDepth := 99) [State.openGate, h, hs]

@[simp] theorem State.openGates_frame {P : Scope} {r s : State} (x1) (h : Fr P r s)
    (hp : P.outside 0x7801000000004400 := by exact Scope.outside_mono (by assumption) (by decide)) :
    Fr P r (State.openGates s x1) := by
  have hs := fun k => Scope.outside_mono (k := k) hp
  simp (maxDischargeDepth := 99) [State.openGates, h, hs]

end Sys2Proof.Machine
end

