-- ==== Sys2Proof/Laws/FrameReset.lean ====
section
/-! SUPPORT. What each operation of Machine/Reset.lean leaves alone. -/
set_option linter.unusedSimpArgs false
set_option linter.unusedTactic false
set_option linter.unreachableTactic false
set_option linter.unnecessarySeqFocus false
namespace Sys2Proof.Machine
set_option Elab.async false

@[simp] theorem State.modClk_frame {P : Scope} {r s : State} (x1) (h : Fr P r s)
    (hp : P.outside 0x200000 := by exact Scope.outside_mono (by assumption) (by decide)) :
    Fr P r (State.modClk s x1) := by
  have hs := fun k => Scope.outside_mono (k := k) hp
  simp (maxDischargeDepth := 99) [State.modClk, h, hs]

@[simp] theorem State.setResetting_frame {P : Scope} {r s : State} (x1) (h : Fr P r s)
    (hp : P.outside 0x200000000 := by exact Scope.outside_mono (by assumption) (by decide)) :
    Fr P r (State.setResetting s x1) := by
  have hs := fun k => Scope.outside_mono (k := k) hp
  simp (maxDischargeDepth := 99) [State.setResetting, h, hs]

@[simp] theorem State.dropAlmDram_frame {P : Scope} {r s : State} (h : Fr P r s)
    (hp : P.outside 0x4000000 := by exact Scope.outside_mono (by assumption) (by decide)) :
    Fr P r (State.dropAlmDram s) := by
  have hs := fun k => Scope.outside_mono (k := k) hp
  simp (maxDischargeDepth := 99) [State.dropAlmDram, h, hs]

@[simp] theorem State.bufferLost_frame {P : Scope} {r s : State} (h : Fr P r s)
    (hp : P.outside 0x4020000 := by exact Scope.outside_mono (by assumption) (by decide)) :
    Fr P r (State.bufferLost s) := by
  have hs := fun k => Scope.outside_mono (k := k) hp
  simp (maxDischargeDepth := 99) [State.bufferLost, h, hs]

@[simp] theorem State.almReset_frame {P : Scope} {r s : State} (h : Fr P r s)
    (hp : P.outside 0x804200000 := by exact Scope.outside_mono (by assumption) (by decide)) :
    Fr P r (State.almReset s) := by
  have hs := fun k => Scope.outside_mono (k := k) hp
  simp (maxDischargeDepth := 99) [State.almReset, h, hs]

@[simp] theorem State.ordForget_frame {P : Scope} {r s : State} (x1) (h : Fr P r s)
    (hp : P.outside 0x3e00010000000045a0 := by exact Scope.outside_mono (by assumption) (by decide)) :
    Fr P r (State.ordForget s x1) := by
  have hs := fun k => Scope.outside_mono (k := k) hp
  simp (maxDischargeDepth := 99) [State.ordForget, h, hs]

@[simp] theorem State.ordReset_frame {P : Scope} {r s : State} (x1) (h : Fr P r s)
    (hp : P.outside 0x3e00010000000245a0 := by exact Scope.outside_mono (by assumption) (by decide)) :
    Fr P r (State.ordReset s x1) := by
  have hs := fun k => Scope.outside_mono (k := k) hp
  simp (maxDischargeDepth := 99) [State.ordReset, h, hs]

@[simp] theorem State.jubClear_frame {P : Scope} {r s : State} (h : Fr P r s)
    (hp : P.outside 0x80000040000 := by exact Scope.outside_mono (by assumption) (by decide)) :
    Fr P r (State.jubClear s) := by
  have hs := fun k => Scope.outside_mono (k := k) hp
  simp (maxDischargeDepth := 99) [State.jubClear, h, hs]

@[simp] theorem State.calReset_frame {P : Scope} {r s : State} (h : Fr P r s)
    (hp : P.outside 0x2002000000 := by exact Scope.outside_mono (by assumption) (by decide)) :
    Fr P r (State.calReset s) := by
  have hs := fun k => Scope.outside_mono (k := k) hp
  simp (maxDischargeDepth := 99) [State.calReset, h, hs]

@[simp] theorem State.dbgReset_frame {P : Scope} {r s : State} (h : Fr P r s)
    (hp : P.outside 0x40000000000001000000 := by exact Scope.outside_mono (by assumption) (by decide)) :
    Fr P r (State.dbgReset s) := by
  have hs := fun k => Scope.outside_mono (k := k) hp
  simp (maxDischargeDepth := 99) [State.dbgReset, h, hs]

@[simp] theorem State.resetFront_frame {P : Scope} {r s : State} (x1) (h : Fr P r s)
    (hp : P.outside 0x7fffffffffff8e348001 := by exact Scope.outside_mono (by assumption) (by decide)) :
    Fr P r (State.resetFront s x1) := by
  have hs := fun k => Scope.outside_mono (k := k) hp
  simp (maxDischargeDepth := 99) [State.resetFront, h, hs]

@[simp] theorem State.resetFabric_frame {P : Scope} {r s : State} (x1) (h : Fr P r s)
    (hp : P.outside 0x7fffffffffff84837801 := by exact Scope.outside_mono (by assumption) (by decide)) :
    Fr P r (State.resetFabric s x1) := by
  have hs := fun k => Scope.outside_mono (k := k) hp
  simp (maxDischargeDepth := 99) [State.resetFabric, h, hs]

@[simp] theorem State.resetSlice_frame {P : Scope} {r s : State} (x1) (h : Fr P r s)
    (hp : P.outside 0x7fffffffffff810247f5 := by exact Scope.outside_mono (by assumption) (by decide)) :
    Fr P r (State.resetSlice s x1) := by
  have hs := fun k => Scope.outside_mono (k := k) hp
  simp (maxDischargeDepth := 99) [State.resetSlice, h, hs]

@[simp] theorem State.resetBlock_frame {P : Scope} {r s : State} (x1) (h : Fr P r s)
    (hp : P.outside 0x7fffffffffff8fb7fff5 := by exact Scope.outside_mono (by assumption) (by decide)) :
    Fr P r (State.resetBlock s x1) := by
  have hs := fun k => Scope.outside_mono (k := k) hp
  simp (maxDischargeDepth := 99) [State.resetBlock, h, hs]

@[simp] theorem State.clkClear_frame {P : Scope} {r s : State} (x1) (h : Fr P r s)
    (hp : P.outside 0x200200000 := by exact Scope.outside_mono (by assumption) (by decide)) :
    Fr P r (State.clkClear s x1) := by
  have hs := fun k => Scope.outside_mono (k := k) hp
  simp (maxDischargeDepth := 99) [State.clkClear, h, hs]

@[simp] theorem State.wideReset_frame {P : Scope} {r s : State} (h : Fr P r s)
    (hp : P.outside 0x7fffffffffff8fbffffd := by exact Scope.outside_mono (by assumption) (by decide)) :
    Fr P r (State.wideReset s) := by
  have hs := fun k => Scope.outside_mono (k := k) hp
  simp (maxDischargeDepth := 99) [State.wideReset, h, hs]

@[simp] theorem State.flsCut_frame {P : Scope} {r s : State} (h : Fr P r s)
    (hp : P.outside 0x820400000 := by exact Scope.outside_mono (by assumption) (by decide)) :
    Fr P r (State.flsCut s) := by
  have hs := fun k => Scope.outside_mono (k := k) hp
  unfold State.flsCut
  repeat' first
    | (simp (maxDischargeDepth := 99) [h, hs]; done)
    | split
    | refine State.each_frame (fun s x => ?_) _ ?_
    | refine State.onlyIf_frame _ (fun s => ?_) ?_
    | simp (maxDischargeDepth := 99) [h, hs]

@[simp] theorem State.almCut_frame {P : Scope} {r s : State} (h : Fr P r s)
    (hp : P.outside 0x4000000 := by exact Scope.outside_mono (by assumption) (by decide)) :
    Fr P r (State.almCut s) := by
  have hs := fun k => Scope.outside_mono (k := k) hp
  simp (maxDischargeDepth := 99) [State.almCut, h, hs]

@[simp] theorem State.hardReset_frame {P : Scope} {r s : State} (x1) (x2) (x3) (h : Fr P r s)
    (hp : P.outside 0x7fffffffffffaffffffd := by exact Scope.outside_mono (by assumption) (by decide)) :
    Fr P r (State.hardReset s x1 x2 x3) := by
  have hs := fun k => Scope.outside_mono (k := k) hp
  simp (maxDischargeDepth := 99) [State.hardReset, h, hs]

@[simp] theorem execVigilPowerOnReset_frame {P : Scope} {r s : State} (h : Fr P r s)
    (hp : P.outside 0x80080000 := by exact Scope.outside_mono (by assumption) (by decide)) :
    ∃ t, execVigilPowerOnReset s = .next t ∧ Fr P r t := by
  have hs := fun k => Scope.outside_mono (k := k) hp
  exact ⟨_, rfl, by simp (maxDischargeDepth := 99) [h, hs]⟩

@[simp] theorem execPowerOnReset_frame {P : Scope} {r s : State} (x1) (x2) (h : Fr P r s)
    (hp : P.outside 0x7fffffffffffaffffffd := by exact Scope.outside_mono (by assumption) (by decide)) :
    ∃ t, execPowerOnReset x1 x2 s = .next t ∧ Fr P r t := by
  have hs := fun k => Scope.outside_mono (k := k) hp
  have h1 := State.hardReset_frame (P := P) (r := r) (s := s) 0 x1 x2 h (hs _ (by decide))
  unfold execPowerOnReset
  generalize State.hardReset s 0 x1 x2 = t at h1 ⊢
  refine ⟨_, rfl, State.onlyIf_frame _ (fun s => ?_) (State.onlyIf_frame _ (fun s => ?_) ?_)⟩
  · simp (maxDischargeDepth := 99) [hs]
  · simp (maxDischargeDepth := 99) [hs]
  · exact Fr.with_cal (s := { t with ord := [] }) (v := { t.cal with tripped := false }) (hs _ (by decide)) (Fr.with_ord (hs _ (by decide)) h1)

@[simp] theorem execPinReset_frame {P : Scope} {r s : State} (x1) (x2) (h : Fr P r s)
    (hp : P.outside 0x7fffffffffffaffffffd := by exact Scope.outside_mono (by assumption) (by decide)) :
    ∃ t, execPinReset x1 x2 s = .next t ∧ Fr P r t := by
  have hs := fun k => Scope.outside_mono (k := k) hp
  exact ⟨_, rfl, by simp (maxDischargeDepth := 99) [h, hs]⟩

@[simp] theorem execMainRailLoss_frame {P : Scope} {r s : State} (h : Fr P r s)
    (hp : P.outside 0x100000 := by exact Scope.outside_mono (by assumption) (by decide)) :
    ∃ t, execMainRailLoss s = .next t ∧ Fr P r t := by
  have hs := fun k => Scope.outside_mono (k := k) hp
  exact ⟨_, rfl, by simp (maxDischargeDepth := 99) [h, hs]⟩

@[simp] theorem execVigilSupplySwitch_frame {P : Scope} {r s : State} (x1) (h : Fr P r s)
    (hp : P.outside 0x80000000 := by exact Scope.outside_mono (by assumption) (by decide)) :
    ∃ t, execVigilSupplySwitch x1 s = .next t ∧ Fr P r t := by
  have hs := fun k => Scope.outside_mono (k := k) hp
  exact ⟨_, rfl, by simp (maxDischargeDepth := 99) [h, hs]⟩

@[simp] theorem State.resetRetract_frame {P : Scope} {r s : State} (h : Fr P r s)
    (hp : P.outside 0x3e7f812031120065f4 := by exact Scope.outside_mono (by assumption) (by decide)) :
    Fr P r (State.resetRetract s) := by
  have hs := fun k => Scope.outside_mono (k := k) hp
  simp (maxDischargeDepth := 99) [State.resetRetract, h, hs]

@[simp] theorem State.flsEraseOn_frame {P : Scope} {r s : State} (h : Fr P r s)
    (hp : P.outside 0x400400000 := by exact Scope.outside_mono (by assumption) (by decide)) :
    Fr P r (State.flsEraseOn s) := by
  have hs := fun k => Scope.outside_mono (k := k) hp
  unfold State.flsEraseOn
  (repeat' split) <;> simp (maxDischargeDepth := 99) [h, hs]

@[simp] theorem State.flsControl_frame {P : Scope} {r s : State} (h : Fr P r s)
    (hp : P.outside 0x600600000 := by exact Scope.outside_mono (by assumption) (by decide)) :
    Fr P r (State.flsControl s) := by
  have hs := fun k => Scope.outside_mono (k := k) hp
  simp (maxDischargeDepth := 99) [State.flsControl, h, hs]

@[simp] theorem State.wideWaited_frame {P : Scope} {r s : State} (x1) (h : Fr P r s)
    (hp : P.outside 0x7fffffffffff8ffffffd := by exact Scope.outside_mono (by assumption) (by decide)) :
    Fr P r (State.wideWaited s x1) := by
  have hs := fun k => Scope.outside_mono (k := k) hp
  simp (maxDischargeDepth := 99) [State.wideWaited, h, hs]

@[simp] theorem State.waitedReset_frame {P : Scope} {r s : State} (h : Fr P r s)
    (hp : P.outside 0x7fffffffffff8ffffffd := by exact Scope.outside_mono (by assumption) (by decide)) :
    Fr P r (State.waitedReset s) := by
  have hs := fun k => Scope.outside_mono (k := k) hp
  unfold State.waitedReset
  (repeat' split) <;> simp (maxDischargeDepth := 99) [h, hs]

@[simp] theorem State.beginWide_frame {P : Scope} {r s : State} (x1) (h : Fr P r s)
    (hp : P.outside 0x7fffffffffff9ffffffd := by exact Scope.outside_mono (by assumption) (by decide)) :
    Fr P r (State.beginWide s x1) := by
  have hs := fun k => Scope.outside_mono (k := k) hp
  simp (maxDischargeDepth := 99) [State.beginWide, h, hs]

@[simp] theorem State.warmReset_frame {P : Scope} {r s : State} (x1) (h : Fr P r s)
    (hp : P.outside 0x7fffffffffff9ffffffd := by exact Scope.outside_mono (by assumption) (by decide)) :
    Fr P r (State.warmReset s x1) := by
  have hs := fun k => Scope.outside_mono (k := k) hp
  simp (maxDischargeDepth := 99) [State.warmReset, h, hs]

@[simp] theorem execWarmRst_frame {P : Scope} {r s : State} (x1) (h : Fr P r s)
    (hp : P.outside 0x7fffffffffff9ffffffd := by exact Scope.outside_mono (by assumption) (by decide)) :
    ∃ t, execWarmRst x1 s = .next t ∧ Fr P r t := by
  have hs := fun k => Scope.outside_mono (k := k) hp
  exact ⟨_, rfl, by simp (maxDischargeDepth := 99) [h, hs]⟩

@[simp] theorem execResetRetractDone_frame {P : Scope} {r s : State} (h : Fr P r s)
    (hp : P.outside 0x7fffffffffff8ffffffd := by exact Scope.outside_mono (by assumption) (by decide)) :
    ∃ t, execResetRetractDone s = .next t ∧ Fr P r t := by
  have hs := fun k => Scope.outside_mono (k := k) hp
  exact ⟨_, rfl, by simp (maxDischargeDepth := 99) [h, hs]⟩

@[simp] theorem State.ordStop_frame {P : Scope} {r s : State} (x1) (h : Fr P r s)
    (hp : P.outside 0x3e00010000000045a0 := by exact Scope.outside_mono (by assumption) (by decide)) :
    Fr P r (State.ordStop s x1) := by
  have hs := fun k => Scope.outside_mono (k := k) hp
  simp (maxDischargeDepth := 99) [State.ordStop, h, hs]

@[simp] theorem State.dropLinks_frame {P : Scope} {r s : State} (h : Fr P r s)
    (hp : P.outside 0x3e00011f818017c5a0 := by exact Scope.outside_mono (by assumption) (by decide)) :
    Fr P r (State.dropLinks s) := by
  have hs := fun k => Scope.outside_mono (k := k) hp
  simp (maxDischargeDepth := 99) [State.dropLinks, h, hs]

@[simp] theorem State.controlReset_frame {P : Scope} {r s : State} (x1) (h : Fr P r s)
    (hp : P.outside 0x403e00011f878077c5a0 := by exact Scope.outside_mono (by assumption) (by decide)) :
    Fr P r (State.controlReset s x1) := by
  have hs := fun k => Scope.outside_mono (k := k) hp
  simp (maxDischargeDepth := 99) [State.controlReset, h, hs]

@[simp] theorem State.controlRst_frame {P : Scope} {r s : State} (x1) (h : Fr P r s)
    (hp : P.outside 0x403e00011f878077c5a0 := by exact Scope.outside_mono (by assumption) (by decide)) :
    Fr P r (State.controlRst s x1) := by
  have hs := fun k => Scope.outside_mono (k := k) hp
  simp (maxDischargeDepth := 99) [State.controlRst, h, hs]

@[simp] theorem execCtrlRst_frame {P : Scope} {r s : State} (x1) (h : Fr P r s)
    (hp : P.outside 0x403e00011f878077c5a0 := by exact Scope.outside_mono (by assumption) (by decide)) :
    ∃ t, execCtrlRst x1 s = .next t ∧ Fr P r t := by
  have hs := fun k => Scope.outside_mono (k := k) hp
  exact ⟨_, rfl, by simp (maxDischargeDepth := 99) [h, hs]⟩

@[simp] theorem execControlResetHalted_frame {P : Scope} {r s : State} (h : Fr P r s)
    (hp : P.outside 0x7fffffffffff8ff7fff5 := by exact Scope.outside_mono (by assumption) (by decide)) :
    ∃ t, execControlResetHalted s = .next t ∧ Fr P r t := by
  have hs := fun k => Scope.outside_mono (k := k) hp
  exact ⟨_, rfl, by simp (maxDischargeDepth := 99) [h, hs]⟩

@[simp] theorem State.cpuRst_frame {P : Scope} {r s : State} (x1) (h : Fr P r s)
    (hp : P.outside 0x40000000000200600000 := by exact Scope.outside_mono (by assumption) (by decide)) :
    Fr P r (State.cpuRst s x1) := by
  have hs := fun k => Scope.outside_mono (k := k) hp
  simp (maxDischargeDepth := 99) [State.cpuRst, h, hs]

@[simp] theorem execCpuRst_frame {P : Scope} {r s : State} (x1) (h : Fr P r s)
    (hp : P.outside 0x40000000000200600000 := by exact Scope.outside_mono (by assumption) (by decide)) :
    ∃ t, execCpuRst x1 s = .next t ∧ Fr P r t := by
  have hs := fun k => Scope.outside_mono (k := k) hp
  exact ⟨_, rfl, by simp (maxDischargeDepth := 99) [h, hs]⟩

@[simp] theorem State.almResetGo_frame {P : Scope} {r s : State} (h : Fr P r s)
    (hp : P.outside 0xa04200000 := by exact Scope.outside_mono (by assumption) (by decide)) :
    Fr P r (State.almResetGo s) := by
  have hs := fun k => Scope.outside_mono (k := k) hp
  simp (maxDischargeDepth := 99) [State.almResetGo, h, hs]

@[simp] theorem State.blockRst_frame {P : Scope} {r s : State} (x1) (x2) (h : Fr P r s)
    (hp : P.outside 0x7fffffffffff9ff7fff5 := by exact Scope.outside_mono (by assumption) (by decide)) :
    Fr P r (State.blockRst s x1 x2) := by
  have hs := fun k => Scope.outside_mono (k := k) hp
  unfold State.blockRst
  repeat' first
    | (simp (maxDischargeDepth := 99) [h, hs]; done)
    | split
    | refine State.each_frame (fun s x => ?_) _ ?_
    | refine State.onlyIf_frame _ (fun s => ?_) ?_
    | simp (maxDischargeDepth := 99) [h, hs]

@[simp] theorem execBlockReset_frame {P : Scope} {r s : State} (x1) (x2) (h : Fr P r s)
    (hp : P.outside 0x7fffffffffff9ff7fff5 := by exact Scope.outside_mono (by assumption) (by decide)) :
    ∃ t, execBlockReset x1 x2 s = .next t ∧ Fr P r t := by
  have hs := fun k => Scope.outside_mono (k := k) hp
  exact ⟨_, rfl, by simp (maxDischargeDepth := 99) [h, hs]⟩

@[simp] theorem execTestLogicReset_frame {P : Scope} {r s : State} (h : Fr P r s)
    (hp : P.outside 0x1000000 := by exact Scope.outside_mono (by assumption) (by decide)) :
    ∃ t, execTestLogicReset s = .next t ∧ Fr P r t := by
  have hs := fun k => Scope.outside_mono (k := k) hp
  exact ⟨_, rfl, by simp (maxDischargeDepth := 99) [h, hs]⟩

@[simp] theorem State.idesRestart_frame {P : Scope} {r s : State} (h : Fr P r s)
    (hp : P.outside 0x200000 := by exact Scope.outside_mono (by assumption) (by decide)) :
    Fr P r (State.idesRestart s) := by
  have hs := fun k => Scope.outside_mono (k := k) hp
  simp (maxDischargeDepth := 99) [State.idesRestart, h, hs]

@[simp] theorem State.idesKick_frame {P : Scope} {r s : State} (x1) (x2) (h : Fr P r s)
    (hp : P.outside 0x200000 := by exact Scope.outside_mono (by assumption) (by decide)) :
    Fr P r (State.idesKick s x1 x2) := by
  have hs := fun k => Scope.outside_mono (k := k) hp
  unfold State.idesKick
  (repeat' split) <;> simp (maxDischargeDepth := 99) [h, hs]

@[simp] theorem execIdesKick_frame {P : Scope} {r s : State} (x1) (x2) (h : Fr P r s)
    (hp : P.outside 0x200000 := by exact Scope.outside_mono (by assumption) (by decide)) :
    ∃ t, execIdesKick x1 x2 s = .next t ∧ Fr P r t := by
  have hs := fun k => Scope.outside_mono (k := k) hp
  exact ⟨_, rfl, by simp (maxDischargeDepth := 99) [h, hs]⟩

@[simp] theorem State.idesCfgWrite_frame {P : Scope} {r s : State} (x1) (h : Fr P r s)
    (hp : P.outside 0x200200000 := by exact Scope.outside_mono (by assumption) (by decide)) :
    Fr P r (State.idesCfgWrite s x1) := by
  have hs := fun k => Scope.outside_mono (k := k) hp
  simp (maxDischargeDepth := 99) [State.idesCfgWrite, h, hs]

@[simp] theorem execIdesEnable_frame {P : Scope} {r s : State} (x1) (h : Fr P r s)
    (hp : P.outside 0x200200000 := by exact Scope.outside_mono (by assumption) (by decide)) :
    ∃ t, execIdesEnable x1 s = .next t ∧ Fr P r t := by
  have hs := fun k => Scope.outside_mono (k := k) hp
  exact ⟨_, rfl, by simp (maxDischargeDepth := 99) [h, hs]⟩

@[simp] theorem execIdesWarn_frame {P : Scope} {r s : State} (x1) (h : Fr P r s)
    (hp : P.outside 0x1000200204000 := by exact Scope.outside_mono (by assumption) (by decide)) :
    ∃ t, execIdesWarn x1 s = .next t ∧ Fr P r t := by
  have hs := fun k => Scope.outside_mono (k := k) hp
  exact ⟨_, rfl, by simp (maxDischargeDepth := 99) [h, hs]⟩

@[simp] theorem execIdesExpiry_frame {P : Scope} {r s : State} (h : Fr P r s)
    (hp : P.outside 0x7fffffffffff9ffffffd := by exact Scope.outside_mono (by assumption) (by decide)) :
    ∃ t, execIdesExpiry s = .next t ∧ Fr P r t := by
  have hs := fun k => Scope.outside_mono (k := k) hp
  exact ⟨_, rfl, by simp (maxDischargeDepth := 99) [h, hs]⟩

@[simp] theorem State.bootConfirm_frame {P : Scope} {r s : State} (x1) (x2) (h : Fr P r s)
    (hp : P.outside 0x7fffffffffff80006001 := by exact Scope.outside_mono (by assumption) (by decide)) :
    Fr P r (State.bootConfirm s x1 x2) := by
  have hs := fun k => Scope.outside_mono (k := k) hp
  unfold State.bootConfirm
  (repeat' split) <;> simp (maxDischargeDepth := 99) [h, hs]

@[simp] theorem execBootOk_frame {P : Scope} {r s : State} (x1) (x2) (h : Fr P r s)
    (hp : P.outside 0x7fffffffffff80006001 := by exact Scope.outside_mono (by assumption) (by decide)) :
    ∃ t, execBootOk x1 x2 s = .next t ∧ Fr P r t := by
  have hs := fun k => Scope.outside_mono (k := k) hp
  exact ⟨_, rfl, by simp (maxDischargeDepth := 99) [h, hs]⟩

@[simp] theorem execPllUnlock_frame {P : Scope} {r s : State} (x1) (h : Fr P r s)
    (hp : P.outside 0x200000000 := by exact Scope.outside_mono (by assumption) (by decide)) :
    ∃ t, execPllUnlock x1 s = .next t ∧ Fr P r t := by
  have hs := fun k => Scope.outside_mono (k := k) hp
  exact ⟨_, rfl, by simp (maxDischargeDepth := 99) [h, hs]⟩

end Sys2Proof.Machine
end

