-- ==== Sys2Proof/Laws/FrameNetwork.lean ====
section
/-! SUPPORT. What each operation of Machine/Network.lean leaves alone. -/
set_option linter.unusedSimpArgs false
set_option linter.unusedTactic false
set_option linter.unreachableTactic false
set_option linter.unnecessarySeqFocus false
namespace Sys2Proof.Machine
set_option Elab.async false

@[simp] theorem State.also_frame {P : Scope} {r s : State} {f : State → Host.Outcome State Fault Refusal}
    (hf : ∃ t, f s = .next t ∧ Fr P s t) (h : Fr P r s) :
    Fr P r (s.also f) := by
  obtain ⟨t, ht, k⟩ := hf
  unfold State.also
  rw [ht]
  exact h.trans k

@[simp] theorem State.readLatch_frame {P : Scope} {r s : State} (x1) (h : Fr P r s)
    (hp : P.outside 0x4080004 := by exact Scope.outside_mono (by assumption) (by decide)) :
    Fr P r (State.readLatch s x1) := by
  have hs := fun k => Scope.outside_mono (k := k) hp
  simp (maxDischargeDepth := 99) [State.readLatch, h, hs]

@[simp] theorem State.wordRead_frame {P : Scope} {r s : State} (x1) (x2) (h : Fr P r s)
    (hp : P.outside 0x1200020006000 := by exact Scope.outside_mono (by assumption) (by decide)) :
    Fr P r (State.wordRead s x1 x2).1 := by
  have hs := fun k => Scope.outside_mono (k := k) hp
  cases x2 with
  | none => exact h
  | some p =>
    exact State.onlyIf_frame _ (fun s => State.drawn_frame (Fr.refl s) (hs _ (by decide)))
      (State.sramRead_frame p.1 p.2 .clean h (hs _ (by decide)))

@[simp] theorem State.winRead_frame {P : Scope} {r s : State} (x1) (h : Fr P r s)
    (hp : P.outside 0x1200020006000 := by exact Scope.outside_mono (by assumption) (by decide)) :
    Fr P r (State.winRead s x1).1 := by
  unfold State.winRead
  exact State.wordRead_frame _ _ h hp

@[simp] theorem State.netRead_frame {P : Scope} {r s : State} (x1) (x2) (h : Fr P r s)
    (hp : P.outside 0x1201024086004 := by exact Scope.outside_mono (by assumption) (by decide)) :
    Fr P r (State.netRead s x1 x2).1 := by
  have hs := fun k => Scope.outside_mono (k := k) hp
  unfold State.netRead
  repeat' first
    | (simp (maxDischargeDepth := 99) [h, hs]; done)
    | split
    | refine State.each_frame (fun s x => ?_) _ ?_
    | refine State.onlyIf_frame _ (fun s => ?_) ?_
    | simp (maxDischargeDepth := 99) [h, hs]

@[simp] theorem State.plainWrite_frame {P : Scope} {r s : State} (a : Nat) (v : W) (hw : P.outside (winMask a)) (h : Fr P r s) :
    Fr P r (s.plainWrite a v) := by
  unfold State.plainWrite
  split <;> simp [h, hw]

@[simp] theorem State.plainWrite_frame_any {P : Scope} {r s : State} (a : Nat) (v : W) (hw : P.outside 0x1) (h : Fr P r s) :
    Fr P r (s.plainWrite a v) := by
  unfold State.plainWrite
  split <;> simp [h, hw]

@[simp] theorem State.bankWrite_frame {P : Scope} {r s : State} (x1) (x2) (h : Fr P r s)
    (hp : P.outside 0x7fffffffffff80006001 := by exact Scope.outside_mono (by assumption) (by decide)) :
    Fr P r (State.bankWrite s x1 x2) := by
  have hs := fun k => Scope.outside_mono (k := k) hp
  unfold State.bankWrite
  (repeat' split) <;> simp (maxDischargeDepth := 99) [h, hs]

@[simp] theorem State.maskWrite_frame {P : Scope} {r s : State} (a : Nat) (mask v : W) (hw : P.outside (winMask a)) (h : Fr P r s) :
    Fr P r (s.maskWrite a mask v) := State.setReg_frame_win _ _ hw h

@[simp] theorem State.vglWrite_frame {P : Scope} {r s : State} (x1) (x2) (h : Fr P r s)
    (hp : P.outside 0x7fffffffffff80186001 := by exact Scope.outside_mono (by assumption) (by decide)) :
    Fr P r (State.vglWrite s x1 x2) := by
  have hs := fun k => Scope.outside_mono (k := k) hp
  unfold State.vglWrite
  (repeat' split) <;> simp (maxDischargeDepth := 99) [h, hs]

@[simp] theorem State.pwrWrite_frame {P : Scope} {r s : State} (x1) (x2) (x3) (h : Fr P r s)
    (hp : P.outside 0x1000180184000 := by exact Scope.outside_mono (by assumption) (by decide)) :
    Fr P r (State.pwrWrite s x1 x2 x3) := by
  have hs := fun k => Scope.outside_mono (k := k) hp
  simp (maxDischargeDepth := 99) [State.pwrWrite, h, hs]

@[simp] theorem State.clkWrite_frame {P : Scope} {r s : State} (x1) (x2) (x3) (h : Fr P r s)
    (hp : P.outside 0x7fffffffffff9ffffffd := by exact Scope.outside_mono (by assumption) (by decide)) :
    Fr P r (State.clkWrite s x1 x2 x3) := by
  have hs := fun k => Scope.outside_mono (k := k) hp
  simp (maxDischargeDepth := 99) [State.clkWrite, h, hs]

@[simp] theorem State.flsWrite_frame {P : Scope} {r s : State} (x1) (x2) (x3) (x4) (x5) (h : Fr P r s)
    (hp : P.outside 0x1000430404000 := by exact Scope.outside_mono (by assumption) (by decide)) :
    Fr P r (State.flsWrite s x1 x2 x3 x4 x5) := by
  have hs := fun k => Scope.outside_mono (k := k) hp
  simp (maxDischargeDepth := 99) [State.flsWrite, h, hs]

@[simp] theorem State.almWrite_frame {P : Scope} {r s : State} (x1) (x2) (x3) (h : Fr P r s)
    (hp : P.outside 0x1000c04404000 := by exact Scope.outside_mono (by assumption) (by decide)) :
    Fr P r (State.almWrite s x1 x2 x3) := by
  have hs := fun k => Scope.outside_mono (k := k) hp
  simp (maxDischargeDepth := 99) [State.almWrite, h, hs]

@[simp] theorem State.mgtWrite_frame {P : Scope} {r s : State} (x1) (x2) (x3) (h : Fr P r s)
    (hp : P.outside 0x1000000000 := by exact Scope.outside_mono (by assumption) (by decide)) :
    Fr P r (State.mgtWrite s x1 x2 x3) := by
  have hs := fun k => Scope.outside_mono (k := k) hp
  unfold State.mgtWrite
  (repeat' split) <;> simp (maxDischargeDepth := 99) [h, hs]

@[simp] theorem State.calWrite_frame {P : Scope} {r s : State} (x1) (x2) (h : Fr P r s)
    (hp : P.outside 0x2012000004 := by exact Scope.outside_mono (by assumption) (by decide)) :
    Fr P r (State.calWrite s x1 x2) := by
  have hs := fun k => Scope.outside_mono (k := k) hp
  simp (maxDischargeDepth := 99) [State.calWrite, h, hs]

@[simp] theorem State.hifWrite_frame {P : Scope} {r s : State} (x1) (x2) (x3) (h : Fr P r s)
    (hp : P.outside 0x3e00011f818017c5a0 := by exact Scope.outside_mono (by assumption) (by decide)) :
    Fr P r (State.hifWrite s x1 x2 x3) := by
  have hs := fun k => Scope.outside_mono (k := k) hp
  simp (maxDischargeDepth := 99) [State.hifWrite, h, hs]

@[simp] theorem State.jubCtrlWrite_frame {P : Scope} {r s : State} (x1) (h : Fr P r s)
    (hp : P.outside 0x80000040000 := by exact Scope.outside_mono (by assumption) (by decide)) :
    Fr P r (State.jubCtrlWrite s x1) := by
  have hs := fun k => Scope.outside_mono (k := k) hp
  simp (maxDischargeDepth := 99) [State.jubCtrlWrite, h, hs]

@[simp] theorem State.jubWriteReg_frame {P : Scope} {r s : State} (x1) (x2) (x3) (h : Fr P r s)
    (hp : P.outside 0x82032060000 := by exact Scope.outside_mono (by assumption) (by decide)) :
    Fr P r (State.jubWriteReg s x1 x2 x3) := by
  have hs := fun k => Scope.outside_mono (k := k) hp
  simp (maxDischargeDepth := 99) [State.jubWriteReg, h, hs]

@[simp] theorem State.qmgWrite_frame {P : Scope} {r s : State} (x1) (x2) (h : Fr P r s)
    (hp : P.outside 0x100000010000 := by exact Scope.outside_mono (by assumption) (by decide)) :
    Fr P r (State.qmgWrite s x1 x2) := by
  have hs := fun k => Scope.outside_mono (k := k) hp
  simp (maxDischargeDepth := 99) [State.qmgWrite, h, hs]

@[simp] theorem State.bufWrite_frame {P : Scope} {r s : State} (x1) (x2) (h : Fr P r s)
    (hp : P.outside 0x200080082c40 := by exact Scope.outside_mono (by assumption) (by decide)) :
    Fr P r (State.bufWrite s x1 x2) := by
  have hs := fun k => Scope.outside_mono (k := k) hp
  simp (maxDischargeDepth := 99) [State.bufWrite, h, hs]

@[simp] theorem State.lntWrite_frame {P : Scope} {r s : State} (x1) (x2) (h : Fr P r s)
    (hp : P.outside 0x1e00000007800 := by exact Scope.outside_mono (by assumption) (by decide)) :
    Fr P r (State.lntWrite s x1 x2) := by
  have hs := fun k => Scope.outside_mono (k := k) hp
  simp (maxDischargeDepth := 99) [State.lntWrite, h, hs]

@[simp] theorem State.memWrite_frame {P : Scope} {r s : State} (x1) (x2) (h : Fr P r s)
    (hp : P.outside 0x800000001000 := by exact Scope.outside_mono (by assumption) (by decide)) :
    Fr P r (State.memWrite s x1 x2) := by
  have hs := fun k => Scope.outside_mono (k := k) hp
  simp (maxDischargeDepth := 99) [State.memWrite, h, hs]

@[simp] theorem State.cplWrite_frame {P : Scope} {r s : State} (x1) (x2) (h : Fr P r s)
    (hp : P.outside 0x1000000004000 := by exact Scope.outside_mono (by assumption) (by decide)) :
    Fr P r (State.cplWrite s x1 x2) := by
  have hs := fun k => Scope.outside_mono (k := k) hp
  simp (maxDischargeDepth := 99) [State.cplWrite, h, hs]

@[simp] theorem State.secWrite_frame {P : Scope} {r s : State} (x1) (x2) (x3) (h : Fr P r s)
    (hp : P.outside 0x3000020804000 := by exact Scope.outside_mono (by assumption) (by decide)) :
    Fr P r (State.secWrite s x1 x2 x3) := by
  have hs := fun k => Scope.outside_mono (k := k) hp
  simp (maxDischargeDepth := 99) [State.secWrite, h, hs]

@[simp] theorem State.ulkWrite_frame {P : Scope} {r s : State} (x1) (x2) (x3) (h : Fr P r s)
    (hp : P.outside 0x3efff92031120065f4 := by exact Scope.outside_mono (by assumption) (by decide)) :
    Fr P r (State.ulkWrite s x1 x2 x3) := by
  have hs := fun k => Scope.outside_mono (k := k) hp
  simp (maxDischargeDepth := 99) [State.ulkWrite, h, hs]

@[simp] theorem State.chnWrite_frame {P : Scope} {r s : State} (x1) (x2) (x3) (h : Fr P r s)
    (hp : P.outside 0x781000002004010 := by exact Scope.outside_mono (by assumption) (by decide)) :
    Fr P r (State.chnWrite s x1 x2 x3) := by
  have hs := fun k => Scope.outside_mono (k := k) hp
  simp (maxDischargeDepth := 99) [State.chnWrite, h, hs]

@[simp] theorem State.wpaWrite_frame {P : Scope} {r s : State} (x1) (x2) (x3) (h : Fr P r s)
    (hp : P.outside 0x3e7f812010120065f4 := by exact Scope.outside_mono (by assumption) (by decide)) :
    Fr P r (State.wpaWrite s x1 x2 x3) := by
  have hs := fun k => Scope.outside_mono (k := k) hp
  simp (maxDischargeDepth := 99) [State.wpaWrite, h, hs]

@[simp] theorem State.holdOld_frame {P : Scope} {r s : State} (x1) (x2) (h : Fr P r s)
    (hp : P.outside 0x40 := by exact Scope.outside_mono (by assumption) (by decide)) :
    Fr P r (State.holdOld s x1 x2) := by
  have hs := fun k => Scope.outside_mono (k := k) hp
  simp (maxDischargeDepth := 99) [State.holdOld, h, hs]

@[simp] theorem State.svoWrite_frame {P : Scope} {r s : State} (x1) (x2) (h : Fr P r s)
    (hp : P.outside 0x8001200000006040 := by exact Scope.outside_mono (by assumption) (by decide)) :
    Fr P r (State.svoWrite s x1 x2) := by
  have hs := fun k => Scope.outside_mono (k := k) hp
  simp (maxDischargeDepth := 99) [State.svoWrite, h, hs]

@[simp] theorem State.ordWrite_frame {P : Scope} {r s : State} (x1) (x2) (x3) (h : Fr P r s)
    (hp : P.outside 0x3e00012000000065a0 := by exact Scope.outside_mono (by assumption) (by decide)) :
    Fr P r (State.ordWrite s x1 x2 x3) := by
  have hs := fun k => Scope.outside_mono (k := k) hp
  simp (maxDischargeDepth := 99) [State.ordWrite, h, hs]

@[simp] theorem State.actRegWrite_frame {P : Scope} {r s : State} (x1) (x2) (x3) (h : Fr P r s)
    (hp : P.outside 0x3e7f812031120065f6 := by exact Scope.outside_mono (by assumption) (by decide)) :
    Fr P r (State.actRegWrite s x1 x2 x3) := by
  have hs := fun k => Scope.outside_mono (k := k) hp
  simp (maxDischargeDepth := 99) [State.actRegWrite, h, hs]

@[simp] theorem State.actWrite_frame {P : Scope} {r s : State} (x1) (x2) (h : Fr P r s)
    (hp : P.outside 0x3e7f812031120065f6 := by exact Scope.outside_mono (by assumption) (by decide)) :
    Fr P r (State.actWrite s x1 x2) := by
  have hs := fun k => Scope.outside_mono (k := k) hp
  simp (maxDischargeDepth := 99) [State.actWrite, h, hs]

@[simp] theorem State.dbgWrite_frame {P : Scope} {r s : State} (x1) (x2) (x3) (h : Fr P r s)
    (hp : P.outside 0x40000000000000000000 := by exact Scope.outside_mono (by assumption) (by decide)) :
    Fr P r (State.dbgWrite s x1 x2 x3) := by
  have hs := fun k => Scope.outside_mono (k := k) hp
  unfold State.dbgWrite
  (repeat' split) <;> simp (maxDischargeDepth := 99) [h, hs]

@[simp] theorem State.regStore_frame {P : Scope} {r s : State} (x1) (x2) (x3) (x4) (h : Fr P r s)
    (hp : P.outside 0x7fffffffffffbfffffff := by exact Scope.outside_mono (by assumption) (by decide)) :
    Fr P r (State.regStore s x1 x2 x3 x4) := by
  have hs := fun k => Scope.outside_mono (k := k) hp
  simp (maxDischargeDepth := 99) [State.regStore, h, hs]

@[simp] theorem State.storeMeeting_frame {P : Scope} {r s : State} (x1) (x2) (x3) (x4) (h : Fr P r s)
    (hp : P.outside 0x7fffffffffffbfffffff := by exact Scope.outside_mono (by assumption) (by decide)) :
    Fr P r (State.storeMeeting s x1 x2 x3 x4) := by
  have hs := fun k => Scope.outside_mono (k := k) hp
  unfold State.storeMeeting
  (repeat' split) <;> simp (maxDischargeDepth := 99) [h, hs]

@[simp] theorem State.netWrite_frame {P : Scope} {r s : State} (x1) (x2) (x3) (x4) (h : Fr P r s)
    (hp : P.outside 0x7fffffffffffbfffffff := by exact Scope.outside_mono (by assumption) (by decide)) :
    Fr P r (State.netWrite s x1 x2 x3 x4) := by
  have hs := fun k => Scope.outside_mono (k := k) hp
  simp (maxDischargeDepth := 99) [State.netWrite, h, hs]

@[simp] theorem execRegisterWrite_frame {P : Scope} {r s : State} (x1) (x2) (x3) (x4) (h : Fr P r s)
    (hp : P.outside 0x7fffffffffffbfffffff := by exact Scope.outside_mono (by assumption) (by decide)) :
    ∃ t, execRegisterWrite x1 x2 x3 x4 s = .next t ∧ Fr P r t := by
  have hs := fun k => Scope.outside_mono (k := k) hp
  exact ⟨_, rfl, by simp (maxDischargeDepth := 99) [h, hs]⟩

@[simp] theorem State.readRun_frame {P : Scope} {r s : State} (hp : P.outside 0x1201024086004) (addr : Nat) (h : Fr P r s) :
    ∀ n : Nat, Fr P r (s.readRun addr n).1
  | 0 => h
  | n + 1 => by
    unfold State.readRun
    exact State.netRead_frame _ _ (State.readRun_frame hp addr h n)

@[simp] theorem execRegRead_frame {P : Scope} {r s : State} (x1) (x2) (x3) (h : Fr P r s)
    (hp : P.outside 0x120103c086004 := by exact Scope.outside_mono (by assumption) (by decide)) :
    ∃ t, execRegRead x1 x2 x3 s = .next t ∧ Fr P r t := by
  have hs := fun k => Scope.outside_mono (k := k) hp
  exact ⟨_, rfl, by simp (maxDischargeDepth := 99) [h, hs]⟩

@[simp] theorem State.writeRun_frame {P : Scope} {r s : State} (x1) (x2) (x3) (h : Fr P r s)
    (hp : P.outside 0x7fffffffffffbfffffff := by exact Scope.outside_mono (by assumption) (by decide)) :
    Fr P r (State.writeRun s x1 x2 x3) := by
  have hs := fun k => Scope.outside_mono (k := k) hp
  fun_induction State.writeRun <;> simp_all (maxDischargeDepth := 99)

@[simp] theorem execRegWrite_frame {P : Scope} {r s : State} (x1) (x2) (x3) (x4) (h : Fr P r s)
    (hp : P.outside 0x7fffffffffffbfffffff := by exact Scope.outside_mono (by assumption) (by decide)) :
    ∃ t, execRegWrite x1 x2 x3 x4 s = .next t ∧ Fr P r t := by
  have hs := fun k => Scope.outside_mono (k := k) hp
  exact ⟨_, rfl, by simp (maxDischargeDepth := 99) [h, hs]⟩

@[simp] theorem execRegModify_frame {P : Scope} {r s : State} (x1) (x2) (x3) (x4) (x5) (h : Fr P r s)
    (hp : P.outside 0x7fffffffffffbfffffff := by exact Scope.outside_mono (by assumption) (by decide)) :
    ∃ t, execRegModify x1 x2 x3 x4 x5 s = .next t ∧ Fr P r t := by
  have hs := fun k => Scope.outside_mono (k := k) hp
  exact ⟨_, rfl, by simp (maxDischargeDepth := 99) [h, hs]⟩

@[simp] theorem execDbgAccess_frame {P : Scope} {r s : State} (x1) (x2) (x3) (x4) (h : Fr P r s)
    (hp : P.outside 0x7fffffffffffbfffffff := by exact Scope.outside_mono (by assumption) (by decide)) :
    ∃ t, execDbgAccess x1 x2 x3 x4 s = .next t ∧ Fr P r t := by
  have hs := fun k => Scope.outside_mono (k := k) hp
  refine ⟨_, rfl, ?_⟩
  (repeat' split) <;> simp (maxDischargeDepth := 99) [h, hs]

@[simp] theorem State.batchDone_frame {P : Scope} {r s : State} (x1) (x2) (h : Fr P r s)
    (hp : P.outside 0x1002002004000 := by exact Scope.outside_mono (by assumption) (by decide)) :
    Fr P r (State.batchDone s x1 x2) := by
  have hs := fun k => Scope.outside_mono (k := k) hp
  simp (maxDischargeDepth := 99) [State.batchDone, h, hs]

@[simp] theorem execCalEntryApply_frame {P : Scope} {r s : State} (x1) (h : Fr P r s)
    (hp : P.outside 0x7fffffffffffbfffffff := by exact Scope.outside_mono (by assumption) (by decide)) :
    ∃ t, execCalEntryApply x1 s = .next t ∧ Fr P r t := by
  have hs := fun k => Scope.outside_mono (k := k) hp
  refine ⟨_, rfl, ?_⟩
  (repeat' split) <;> simp (maxDischargeDepth := 99) [h, hs]

end Sys2Proof.Machine
end

