-- ==== Sys2Proof/Laws/FramePower.lean ====
section
/-! SUPPORT. What each operation of Machine/Power.lean leaves alone. -/
set_option linter.unusedSimpArgs false
set_option linter.unusedTactic false
set_option linter.unreachableTactic false
set_option linter.unnecessarySeqFocus false
namespace Sys2Proof.Machine
set_option Elab.async false

@[simp] theorem State.setSaveWord_frame {P : Scope} {r s : State} (x1) (x2) (h : Fr P r s)
    (hp : P.outside 0x1200000086000 := by exact Scope.outside_mono (by assumption) (by decide)) :
    Fr P r (State.setSaveWord s x1 x2) := by
  have hs := fun k => Scope.outside_mono (k := k) hp
  simp (maxDischargeDepth := 99) [State.setSaveWord, h, hs]

@[simp] theorem State.save_frame {P : Scope} {r s : State} (x1) (x2) (h : Fr P r s)
    (hp : P.outside 0x1200000086000 := by exact Scope.outside_mono (by assumption) (by decide)) :
    Fr P r (State.save s x1 x2) := by
  have hs := fun k => Scope.outside_mono (k := k) hp
  simp (maxDischargeDepth := 99) [State.save, h, hs]

@[simp] theorem State.saveTake_frame {P : Scope} {r s : State} (x1) (h : Fr P r s)
    (hp : P.outside 0x1200020006000 := by exact Scope.outside_mono (by assumption) (by decide)) :
    Fr P r (State.saveTake s x1).1 := by
  have hs := fun k => Scope.outside_mono (k := k) hp
  unfold State.saveTake
  refine State.onlyIf_frame _ (fun s => ?_) (foldl_frame (fun q x => ?_) _ _ h)
  · simp (maxDischargeDepth := 99) [hs]
  · simp (maxDischargeDepth := 99) [hs]

@[simp] theorem State.restoreFailed_frame {P : Scope} {r s : State} (h : Fr P r s)
    (hp : P.outside 0x1000100004000 := by exact Scope.outside_mono (by assumption) (by decide)) :
    Fr P r (State.restoreFailed s) := by
  have hs := fun k => Scope.outside_mono (k := k) hp
  simp (maxDischargeDepth := 99) [State.restoreFailed, h, hs]

@[simp] theorem State.loadReg_frame {P : Scope} {r s : State} (x1) (h : Fr P r s)
    (hp : P.outside 0x7fffffffffffbfffffff := by exact Scope.outside_mono (by assumption) (by decide)) :
    Fr P r (State.loadReg s x1) := by
  have hs := fun k => Scope.outside_mono (k := k) hp
  simp (maxDischargeDepth := 99) [State.loadReg, h, hs]

@[simp] theorem State.restoreWord_frame {P : Scope} {r s : State} (x1) (x2) (h : Fr P r s)
    (hp : P.outside 0x7fffffffffffbfffffff := by exact Scope.outside_mono (by assumption) (by decide)) :
    Fr P r (State.restoreWord x1 s x2) := by
  have hs := fun k => Scope.outside_mono (k := k) hp
  simp (maxDischargeDepth := 99) [State.restoreWord, h, hs]

@[simp] theorem State.restoreRuns_frame {P : Scope} {r s : State} (x1) (h : Fr P r s)
    (hp : P.outside 0x7fffffffffffbfffffff := by exact Scope.outside_mono (by assumption) (by decide)) :
    Fr P r (State.restoreRuns s x1) := by
  have hs := fun k => Scope.outside_mono (k := k) hp
  simp (maxDischargeDepth := 99) [State.restoreRuns, h, hs]

@[simp] theorem State.restore_frame {P : Scope} {r s : State} (x1) (x2) (x3) (h : Fr P r s)
    (hp : P.outside 0x7fffffffffffbfffffff := by exact Scope.outside_mono (by assumption) (by decide)) :
    Fr P r (State.restore s x1 x2 x3) := by
  have hs := fun k => Scope.outside_mono (k := k) hp
  simp (maxDischargeDepth := 99) [State.restore, h, hs]

@[simp] theorem State.blockOff_frame {P : Scope} {r s : State} (x1) (h : Fr P r s)
    (hp : P.outside 0x7fffffffffff8fb7fff5 := by exact Scope.outside_mono (by assumption) (by decide)) :
    Fr P r (State.blockOff s x1) := by
  have hs := fun k => Scope.outside_mono (k := k) hp
  simp (maxDischargeDepth := 99) [State.blockOff, h, hs]

@[simp] theorem State.powerOff_frame {P : Scope} {r s : State} (x1) (h : Fr P r s)
    (hp : P.outside 0x7fffffffffff8fbffff5 := by exact Scope.outside_mono (by assumption) (by decide)) :
    Fr P r (State.powerOff s x1) := by
  have hs := fun k => Scope.outside_mono (k := k) hp
  simp (maxDischargeDepth := 99) [State.powerOff, h, hs]

@[simp] theorem State.powerOn_frame {P : Scope} {r s : State} (x1) (h : Fr P r s)
    (hp : P.outside 0x78000180008 := by exact Scope.outside_mono (by assumption) (by decide)) :
    Fr P r (State.powerOn s x1) := by
  have hs := fun k => Scope.outside_mono (k := k) hp
  simp (maxDischargeDepth := 99) [State.powerOn, h, hs]

@[simp] theorem State.reloadMedia_frame {P : Scope} {r s : State} (h : Fr P r s)
    (hp : P.outside 0x1200000006440 := by exact Scope.outside_mono (by assumption) (by decide)) :
    Fr P r (State.reloadMedia s) := by
  have hs := fun k => Scope.outside_mono (k := k) hp
  simp (maxDischargeDepth := 99) [State.reloadMedia, h, hs]

@[simp] theorem State.reloadKeys_frame {P : Scope} {r s : State} (h : Fr P r s)
    (hp : P.outside 0x2000000800000 := by exact Scope.outside_mono (by assumption) (by decide)) :
    Fr P r (State.reloadKeys s) := by
  have hs := fun k => Scope.outside_mono (k := k) hp
  unfold State.reloadKeys
  repeat' first
    | (simp (maxDischargeDepth := 99) [h, hs]; done)
    | split
    | refine State.each_frame (fun s x => ?_) _ ?_
    | refine State.onlyIf_frame _ (fun s => ?_) ?_
    | simp (maxDischargeDepth := 99) [h, hs]

@[simp] theorem State.gangsDown_frame {P : Scope} {r s : State} (h : Fr P r s)
    (hp : P.outside 0x200001002102004000 := by exact Scope.outside_mono (by assumption) (by decide)) :
    Fr P r (State.gangsDown s) := by
  have hs := fun k => Scope.outside_mono (k := k) hp
  simp (maxDischargeDepth := 99) [State.gangsDown, h, hs]

@[simp] theorem State.motTargetSet_frame {P : Scope} {r s : State} (x1) (h : Fr P r s)
    (hp : P.outside 0x10001000000004200 := by exact Scope.outside_mono (by assumption) (by decide)) :
    Fr P r (State.motTargetSet s x1) := by
  have hs := fun k => Scope.outside_mono (k := k) hp
  simp (maxDischargeDepth := 99) [State.motTargetSet, h, hs]

@[simp] theorem State.lanternEmpty_frame {P : Scope} {r s : State} (h : Fr P r s)
    (hp : P.outside 0x1a00000007800 := by exact Scope.outside_mono (by assumption) (by decide)) :
    Fr P r (State.lanternEmpty s) := by
  have hs := fun k => Scope.outside_mono (k := k) hp
  simp (maxDischargeDepth := 99) [State.lanternEmpty, h, hs]

@[simp] theorem State.setPnr_frame {P : Scope} {r s : State} (x1) (h : Fr P r s)
    (hp : P.outside 0x100000000 := by exact Scope.outside_mono (by assumption) (by decide)) :
    Fr P r (State.setPnr s x1) := by
  have hs := fun k => Scope.outside_mono (k := k) hp
  simp (maxDischargeDepth := 99) [State.setPnr, h, hs]

theorem State.entryDo1_frame {P : Scope} {r s : State} (k : Nat) {t : State} (ht : s.entryDo1 k = some t) (h : Fr P r s)
    (hp : P.outside 0x200001002102004010 := by exact Scope.outside_mono (by assumption) (by decide)) :
    Fr P r t := by
  have hs := fun k => Scope.outside_mono (k := k) hp
  unfold State.entryDo1 at ht
  (repeat' split at ht) <;> first
    | (simp at ht; done)
    | (obtain rfl := Option.some.inj ht; simp (maxDischargeDepth := 99) [h, hs]; done)
    | (obtain rfl := Option.some.inj ht; split <;> simp (maxDischargeDepth := 99) [h, hs])

theorem State.entryDo2_frame {P : Scope} {r s : State} (k : Nat) {t : State} (ht : s.entryDo2 k = some t) (h : Fr P r s)
    (hp : P.outside 0x7fffffffffff9ffffff5 := by exact Scope.outside_mono (by assumption) (by decide)) :
    Fr P r t := by
  have hs := fun k => Scope.outside_mono (k := k) hp
  unfold State.entryDo2 at ht
  (repeat' split at ht) <;> first
    | (simp at ht; done)
    | (obtain rfl := Option.some.inj ht; simp (maxDischargeDepth := 99) [h, hs]; done)
    | (obtain rfl := Option.some.inj ht; split <;> simp (maxDischargeDepth := 99) [h, hs])

theorem State.entryDo3_frame {P : Scope} {r s : State} (k : Nat) {t : State} (ht : s.entryDo3 k = some t) (h : Fr P r s)
    (hp : P.outside 0x10001000000004200 := by exact Scope.outside_mono (by assumption) (by decide)) :
    Fr P r t := by
  have hs := fun k => Scope.outside_mono (k := k) hp
  unfold State.entryDo3 at ht
  (repeat' split at ht) <;> first
    | (simp at ht; done)
    | (obtain rfl := Option.some.inj ht; simp (maxDischargeDepth := 99) [h, hs]; done)
    | (obtain rfl := Option.some.inj ht; split <;> simp (maxDischargeDepth := 99) [h, hs])

theorem State.entryDo4_frame {P : Scope} {r s : State} (k : Nat) {t : State} (ht : s.entryDo4 k = some t) (h : Fr P r s)
    (hp : P.outside 0x7fffffffffff8ffffff5 := by exact Scope.outside_mono (by assumption) (by decide)) :
    Fr P r t := by
  have hs := fun k => Scope.outside_mono (k := k) hp
  unfold State.entryDo4 at ht
  (repeat' split at ht) <;> first
    | (simp at ht; done)
    | (obtain rfl := Option.some.inj ht; simp (maxDischargeDepth := 99) [h, hs]; done)
    | (obtain rfl := Option.some.inj ht; split <;> simp (maxDischargeDepth := 99) [h, hs])

theorem State.entryDo5_frame {P : Scope} {r s : State} (k : Nat) {t : State} (ht : s.entryDo5 k = some t) (h : Fr P r s)
    (hp : P.outside 0x1200d84586000 := by exact Scope.outside_mono (by assumption) (by decide)) :
    Fr P r t := by
  have hs := fun k => Scope.outside_mono (k := k) hp
  unfold State.entryDo5 at ht
  (repeat' split at ht) <;> first
    | (simp at ht; done)
    | (obtain rfl := Option.some.inj ht; simp (maxDischargeDepth := 99) [h, hs]; done)
    | (obtain rfl := Option.some.inj ht; split <;> simp (maxDischargeDepth := 99) [h, hs])

theorem State.entryDo_frame {P : Scope} {r s : State} (l k : Nat) {t : State} (ht : s.entryDo l k = some t) (h : Fr P r s)
    (hp : P.outside 0x7fffffffffff9ffffff5 := by exact Scope.outside_mono (by assumption) (by decide)) :
    Fr P r t := by
  have hs := fun k => Scope.outside_mono (k := k) hp
  unfold State.entryDo at ht
  split at ht
  · exact State.entryDo1_frame _ ht h
  · exact State.entryDo2_frame _ ht h
  · exact State.entryDo3_frame _ ht h
  · exact State.entryDo4_frame _ ht h
  · exact State.entryDo5_frame _ ht h
  · cases ht; exact h

@[simp] theorem State.pwrSettled_frame {P : Scope} {r s : State} (h : Fr P r s)
    (hp : P.outside 0x180100000 := by exact Scope.outside_mono (by assumption) (by decide)) :
    Fr P r (State.pwrSettled s) := by
  have hs := fun k => Scope.outside_mono (k := k) hp
  simp (maxDischargeDepth := 99) [State.pwrSettled, h, hs]

@[simp] theorem State.setLevel_frame {P : Scope} {r s : State} (x1) (h : Fr P r s)
    (hp : P.outside 0x100000000 := by exact Scope.outside_mono (by assumption) (by decide)) :
    Fr P r (State.setLevel s x1) := by
  have hs := fun k => Scope.outside_mono (k := k) hp
  simp (maxDischargeDepth := 99) [State.setLevel, h, hs]

@[simp] theorem State.entryEnd_frame {P : Scope} {r s : State} (x1) (h : Fr P r s)
    (hp : P.outside 0x1000180104000 := by exact Scope.outside_mono (by assumption) (by decide)) :
    Fr P r (State.entryEnd s x1) := by
  have hs := fun k => Scope.outside_mono (k := k) hp
  simp (maxDischargeDepth := 99) [State.entryEnd, h, hs]

@[simp] theorem execPowerEntryStep_frame {P : Scope} {r s : State} (h : Fr P r s)
    (hp : P.outside 0x7fffffffffff9ffffff5 := by exact Scope.outside_mono (by assumption) (by decide)) :
    ∃ t, execPowerEntryStep s = .next t ∧ Fr P r t := by
  have hs := fun k => Scope.outside_mono (k := k) hp
  refine ⟨_, rfl, ?_⟩
  (repeat' split) <;> first
    | exact h
    | (simp (maxDischargeDepth := 99) [h, hs]; done)
    | (rename_i heq _; have k := State.entryDo_frame _ _ heq h; simp (maxDischargeDepth := 99) [k, hs]; done)
    | (rename_i heq _ _; have k := State.entryDo_frame _ _ heq h; simp (maxDischargeDepth := 99) [k, hs]; done)

theorem State.exitDo2_frame {P : Scope} {r s : State} (badWord : Bool) (k : Nat) {t : State} (ht : s.exitDo2 badWord k = some t) (h : Fr P r s)
    (hp : P.outside 0x7fffffffffffbfffffff := by exact Scope.outside_mono (by assumption) (by decide)) :
    Fr P r t := by
  have hs := fun k => Scope.outside_mono (k := k) hp
  unfold State.exitDo2 at ht
  (repeat' split at ht) <;> first
    | (simp at ht; done)
    | (obtain rfl := Option.some.inj ht; simp (maxDischargeDepth := 99) [h, hs]; done)
    | (obtain rfl := Option.some.inj ht; split <;> simp (maxDischargeDepth := 99) [h, hs])

theorem State.exitDo3_frame {P : Scope} {r s : State} (k : Nat) {t : State} (ht : s.exitDo3 k = some t) (h : Fr P r s)
    (hp : P.outside 0x10001000000004200 := by exact Scope.outside_mono (by assumption) (by decide)) :
    Fr P r t := by
  have hs := fun k => Scope.outside_mono (k := k) hp
  unfold State.exitDo3 at ht
  (repeat' split at ht) <;> first
    | (simp at ht; done)
    | (obtain rfl := Option.some.inj ht; simp (maxDischargeDepth := 99) [h, hs]; done)
    | (obtain rfl := Option.some.inj ht; split <;> simp (maxDischargeDepth := 99) [h, hs])

theorem State.exitDo4_frame {P : Scope} {r s : State} (badWord : Bool) (k : Nat) {t : State} (ht : s.exitDo4 badWord k = some t) (h : Fr P r s)
    (hp : P.outside 0x7fffffffffffbfffffff := by exact Scope.outside_mono (by assumption) (by decide)) :
    Fr P r t := by
  have hs := fun k => Scope.outside_mono (k := k) hp
  unfold State.exitDo4 at ht
  (repeat' split at ht) <;> first
    | (simp at ht; done)
    | (obtain rfl := Option.some.inj ht; simp (maxDischargeDepth := 99) [h, hs]; done)
    | (obtain rfl := Option.some.inj ht; split <;> simp (maxDischargeDepth := 99) [h, hs])

theorem State.exitDo_frame {P : Scope} {r s : State} (b : Bool) (l k : Nat) {t : State} (ht : s.exitDo b l k = some t) (h : Fr P r s)
    (hp : P.outside 0x7fffffffffffbfffffff := by exact Scope.outside_mono (by assumption) (by decide)) :
    Fr P r t := by
  have hs := fun k => Scope.outside_mono (k := k) hp
  unfold State.exitDo at ht
  split at ht
  · exact State.exitDo2_frame _ _ ht h
  · exact State.exitDo3_frame _ ht h
  · exact State.exitDo4_frame _ _ ht h
  · cases ht; exact h

@[simp] theorem State.atPl0_frame {P : Scope} {r s : State} (h : Fr P r s)
    (hp : P.outside 0x118000 := by exact Scope.outside_mono (by assumption) (by decide)) :
    Fr P r (State.atPl0 s) := by
  have hs := fun k => Scope.outside_mono (k := k) hp
  simp (maxDischargeDepth := 99) [State.atPl0, h, hs]

@[simp] theorem State.exitEnd_frame {P : Scope} {r s : State} (x1) (h : Fr P r s)
    (hp : P.outside 0x180118000 := by exact Scope.outside_mono (by assumption) (by decide)) :
    Fr P r (State.exitEnd s x1) := by
  have hs := fun k => Scope.outside_mono (k := k) hp
  simp (maxDischargeDepth := 99) [State.exitEnd, h, hs]

@[simp] theorem execPowerExitStep_frame {P : Scope} {r s : State} (x1) (h : Fr P r s)
    (hp : P.outside 0x7fffffffffffbfffffff := by exact Scope.outside_mono (by assumption) (by decide)) :
    ∃ t, execPowerExitStep x1 s = .next t ∧ Fr P r t := by
  have hs := fun k => Scope.outside_mono (k := k) hp
  refine ⟨_, rfl, ?_⟩
  (repeat' split) <;> first
    | exact h
    | (simp (maxDischargeDepth := 99) [h, hs]; done)
    | (rename_i heq _; have k := State.exitDo_frame _ _ _ heq h; simp (maxDischargeDepth := 99) [k, hs]; done)

end Sys2Proof.Machine
end

