-- ==== Sys2Proof/Laws/FrameBoot.lean ====
section
/-! SUPPORT. What each operation of Machine/Boot.lean leaves alone. -/
set_option linter.unusedSimpArgs false
set_option linter.unusedTactic false
set_option linter.unreachableTactic false
set_option linter.unnecessarySeqFocus false
namespace Sys2Proof.Machine
set_option Elab.async false

@[simp] theorem State.bootAt_frame {P : Scope} {r s : State} (x1) (h : Fr P r s)
    (hp : P.outside 0x200000 := by exact Scope.outside_mono (by assumption) (by decide)) :
    Fr P r (State.bootAt s x1) := by
  have hs := fun k => Scope.outside_mono (k := k) hp
  simp (maxDischargeDepth := 99) [State.bootAt, h, hs]

@[simp] theorem State.portDefault_frame {P : Scope} {r s : State} (x1) (x2) (h : Fr P r s)
    (hp : P.outside 0x3e00011f818017c5a0 := by exact Scope.outside_mono (by assumption) (by decide)) :
    Fr P r (State.portDefault s x1 x2) := by
  have hs := fun k => Scope.outside_mono (k := k) hp
  simp (maxDischargeDepth := 99) [State.portDefault, h, hs]

@[simp] theorem State.recover_frame {P : Scope} {r s : State} (x1) (h : Fr P r s)
    (hp : P.outside 0x7fffffffffff8037e5a1 := by exact Scope.outside_mono (by assumption) (by decide)) :
    Fr P r (State.recover s x1) := by
  have hs := fun k => Scope.outside_mono (k := k) hp
  simp (maxDischargeDepth := 99) [State.recover, h, hs]

@[simp] theorem State.bankReload_frame {P : Scope} {r s : State} (x1) (h : Fr P r s)
    (hp : P.outside 0x7fffffffffff80086001 := by exact Scope.outside_mono (by assumption) (by decide)) :
    Fr P r (State.bankReload s x1) := by
  have hs := fun k => Scope.outside_mono (k := k) hp
  unfold State.bankReload
  dsimp only
  have h0 : Fr P r (s.dropRegs (bankAddr 0) (bankAddr 1024)) :=
    State.dropRegs_frame_win bVGL _ _ (by decide) (by decide) (hs _ (by decide)) h
  split <;> simp (maxDischargeDepth := 99) [h0, hs]

@[simp] theorem State.bootRestore_frame {P : Scope} {r s : State} (x1) (h : Fr P r s)
    (hp : P.outside 0x7fffffffffffbfffffff := by exact Scope.outside_mono (by assumption) (by decide)) :
    Fr P r (State.bootRestore s x1) := by
  have hs := fun k => Scope.outside_mono (k := k) hp
  simp (maxDischargeDepth := 99) [State.bootRestore, h, hs]

@[simp] theorem State.bootErase_frame {P : Scope} {r s : State} (x1) (h : Fr P r s)
    (hp : P.outside 0x1000400404000 := by exact Scope.outside_mono (by assumption) (by decide)) :
    Fr P r (State.bootErase s x1) := by
  have hs := fun k => Scope.outside_mono (k := k) hp
  simp (maxDischargeDepth := 99) [State.bootErase, h, hs]

@[simp] theorem State.bootSelect_frame {P : Scope} {r s : State} (x1) (h : Fr P r s)
    (hp : P.outside 0x7fffffffffff8037e5a1 := by exact Scope.outside_mono (by assumption) (by decide)) :
    Fr P r (State.bootSelect s x1) := by
  have hs := fun k => Scope.outside_mono (k := k) hp
  unfold State.bootSelect
  repeat' first
    | (simp (maxDischargeDepth := 99) [h, hs]; done)
    | split
    | refine State.each_frame (fun s x => ?_) _ ?_
    | refine State.onlyIf_frame _ (fun s => ?_) ?_
    | simp (maxDischargeDepth := 99) [h, hs]

@[simp] theorem State.bootVerify_frame {P : Scope} {r s : State} (x1) (h : Fr P r s)
    (hp : P.outside 0x7fffffffffff8037e5a1 := by exact Scope.outside_mono (by assumption) (by decide)) :
    Fr P r (State.bootVerify s x1) := by
  have hs := fun k => Scope.outside_mono (k := k) hp
  simp (maxDischargeDepth := 99) [State.bootVerify, h, hs]

@[simp] theorem State.bootStart_frame {P : Scope} {r s : State} (h : Fr P r s)
    (hp : P.outside 0x7fffffffffff80206001 := by exact Scope.outside_mono (by assumption) (by decide)) :
    Fr P r (State.bootStart s) := by
  have hs := fun k => Scope.outside_mono (k := k) hp
  simp (maxDischargeDepth := 99) [State.bootStart, h, hs]

@[simp] theorem State.bootDo_frame {P : Scope} {r s : State} (x1) (x2) (h : Fr P r s)
    (hp : P.outside 0x7fffffffffffbfffffff := by exact Scope.outside_mono (by assumption) (by decide)) :
    Fr P r (State.bootDo s x1 x2) := by
  have hs := fun k => Scope.outside_mono (k := k) hp
  unfold State.bootDo
  (repeat' split) <;> simp (maxDischargeDepth := 99) [h, hs]

@[simp] theorem execBootStep_frame {P : Scope} {r s : State} (x1) (h : Fr P r s)
    (hp : P.outside 0x7fffffffffffbfffffff := by exact Scope.outside_mono (by assumption) (by decide)) :
    ∃ t, execBootStep x1 s = .next t ∧ Fr P r t := by
  have hs := fun k => Scope.outside_mono (k := k) hp
  exact ⟨_, rfl, by simp (maxDischargeDepth := 99) [h, hs]⟩

@[simp] theorem State.bindKey_frame {P : Scope} {r s : State} (x1) (x2) (x3) (h : Fr P r s)
    (hp : P.outside 0x2000020820000 := by exact Scope.outside_mono (by assumption) (by decide)) :
    Fr P r (State.bindKey s x1 x2 x3) := by
  have hs := fun k => Scope.outside_mono (k := k) hp
  unfold State.bindKey
  (repeat' split) <;> simp (maxDischargeDepth := 99) [h, hs]

@[simp] theorem State.bindKeys_frame {P : Scope} {r s : State} (x1) (x2) (x3) (h : Fr P r s)
    (hp : P.outside 0x2000020820000 := by exact Scope.outside_mono (by assumption) (by decide)) :
    Fr P r (State.bindKeys s x1 x2 x3) := by
  have hs := fun k => Scope.outside_mono (k := k) hp
  fun_induction State.bindKeys <;> simp_all (maxDischargeDepth := 99)

@[simp] theorem State.sizeInternal_frame {P : Scope} {r s : State} (x1) (x2) (x3) (h : Fr P r s)
    (hp : P.outside 0x20000 := by exact Scope.outside_mono (by assumption) (by decide)) :
    Fr P r (State.sizeInternal s x1 x2 x3) := by
  have hs := fun k => Scope.outside_mono (k := k) hp
  simp (maxDischargeDepth := 99) [State.sizeInternal, h, hs]

@[simp] theorem State.anaSet_frame {P : Scope} {r s : State} (x1) (h : Fr P r s)
    (hp : P.outside 0x1000000034000 := by exact Scope.outside_mono (by assumption) (by decide)) :
    Fr P r (State.anaSet s x1) := by
  have hs := fun k => Scope.outside_mono (k := k) hp
  simp (maxDischargeDepth := 99) [State.anaSet, h, hs]

@[simp] theorem State.takeTable_frame {P : Scope} {r s : State} (x1) (x2) (x3) (h : Fr P r s)
    (hp : P.outside 0x3000020834002 := by exact Scope.outside_mono (by assumption) (by decide)) :
    Fr P r (State.takeTable s x1 x2 x3) := by
  have hs := fun k => Scope.outside_mono (k := k) hp
  simp (maxDischargeDepth := 99) [State.takeTable, h, hs]

@[simp] theorem State.takeRegs_frame {P : Scope} {r s : State} (x1) (h : Fr P r s)
    (hp : P.outside 0x7fffffffffffbfffffff := by exact Scope.outside_mono (by assumption) (by decide)) :
    Fr P r (State.takeRegs s x1) := by
  have hs := fun k => Scope.outside_mono (k := k) hp
  simp (maxDischargeDepth := 99) [State.takeRegs, h, hs]

@[simp] theorem State.spinUp_frame {P : Scope} {r s : State} (x1) (h : Fr P r s)
    (hp : P.outside 0x3f7f812031120267f4 := by exact Scope.outside_mono (by assumption) (by decide)) :
    Fr P r (State.spinUp s x1) := by
  have hs := fun k => Scope.outside_mono (k := k) hp
  simp (maxDischargeDepth := 99) [State.spinUp, h, hs]

@[simp] theorem State.standAlone_frame {P : Scope} {r s : State} (x1) (h : Fr P r s)
    (hp : P.outside 0x7fffffffffffb297e7f7 := by exact Scope.outside_mono (by assumption) (by decide)) :
    Fr P r (State.standAlone s x1) := by
  have hs := fun k => Scope.outside_mono (k := k) hp
  simp (maxDischargeDepth := 99) [State.standAlone, h, hs]

@[simp] theorem State.keepTable_frame {P : Scope} {r s : State} (x1) (h : Fr P r s)
    (hp : P.outside 0x7fffffffffffb297e7f7 := by exact Scope.outside_mono (by assumption) (by decide)) :
    Fr P r (State.keepTable s x1) := by
  have hs := fun k => Scope.outside_mono (k := k) hp
  simp (maxDischargeDepth := 99) [State.keepTable, h, hs]

@[simp] theorem State.mediaOff_frame {P : Scope} {r s : State} (x1) (x2) (h : Fr P r s)
    (hp : P.outside 0x20000 := by exact Scope.outside_mono (by assumption) (by decide)) :
    Fr P r (State.mediaOff s x1 x2) := by
  have hs := fun k => Scope.outside_mono (k := k) hp
  simp (maxDischargeDepth := 99) [State.mediaOff, h, hs]

@[simp] theorem State.partBad_frame {P : Scope} {r s : State} (x1) (h : Fr P r s)
    (hp : P.outside 0x7fffffffffffb297e7f7 := by exact Scope.outside_mono (by assumption) (by decide)) :
    Fr P r (State.partBad s x1) := by
  have hs := fun k => Scope.outside_mono (k := k) hp
  unfold State.partBad
  (repeat' split) <;> simp (maxDischargeDepth := 99) [h, hs]

@[simp] theorem State.configLoaded_frame {P : Scope} {r s : State} (x1) (x2) (h : Fr P r s)
    (hp : P.outside 0x1000000004000 := by exact Scope.outside_mono (by assumption) (by decide)) :
    Fr P r (State.configLoaded s x1 x2) := by
  have hs := fun k => Scope.outside_mono (k := k) hp
  simp (maxDischargeDepth := 99) [State.configLoaded, h, hs]

@[simp] theorem State.partTake_frame {P : Scope} {r s : State} (x1) (x2) (x3) (h : Fr P r s)
    (hp : P.outside 0x7fffffffffffbfffffff := by exact Scope.outside_mono (by assumption) (by decide)) :
    Fr P r (State.partTake s x1 x2 x3) := by
  have hs := fun k => Scope.outside_mono (k := k) hp
  unfold State.partTake
  (repeat' split) <;> simp (maxDischargeDepth := 99) [h, hs]

@[simp] theorem execPartitionLoad_frame {P : Scope} {r s : State} (x1) (x2) (x3) (h : Fr P r s)
    (hp : P.outside 0x7fffffffffffbfffffff := by exact Scope.outside_mono (by assumption) (by decide)) :
    ∃ t, execPartitionLoad x1 x2 x3 s = .next t ∧ Fr P r t := by
  have hs := fun k => Scope.outside_mono (k := k) hp
  exact ⟨_, rfl, by simp (maxDischargeDepth := 99) [h, hs]⟩

end Sys2Proof.Machine
end

