-- ==== Sys2Proof/Laws/FrameIdle.lean ====
section
/-! SUPPORT. What each operation of Machine/Idle.lean leaves alone. -/
set_option linter.unusedSimpArgs false
set_option linter.unusedTactic false
set_option linter.unreachableTactic false
set_option linter.unnecessarySeqFocus false
namespace Sys2Proof.Machine
set_option Elab.async false

@[simp] theorem State.clocks_frame {P : Scope} {r s : State} (h : Fr P r s)
    (hp : P.outside 0x280008 := by exact Scope.outside_mono (by assumption) (by decide)) :
    Fr P r (State.clocks s) := by
  have hs := fun k => Scope.outside_mono (k := k) hp
  simp (maxDischargeDepth := 99) [State.clocks, h, hs]

@[simp] theorem State.idleClears_frame {P : Scope} {r s : State} (h : Fr P r s)
    (hp : P.outside 0x100000 := by exact Scope.outside_mono (by assumption) (by decide)) :
    Fr P r (State.idleClears s) := by
  have hs := fun k => Scope.outside_mono (k := k) hp
  simp (maxDischargeDepth := 99) [State.idleClears, h, hs]

@[simp] theorem State.resetsGo_frame {P : Scope} {r s : State} (h : Fr P r s)
    (hp : P.outside 0x7fffffffffff8ffffffd := by exact Scope.outside_mono (by assumption) (by decide)) :
    Fr P r (State.resetsGo s) := by
  have hs := fun k => Scope.outside_mono (k := k) hp
  simp (maxDischargeDepth := 99) [State.resetsGo, h, hs]

@[simp] theorem State.loadsDue_frame {P : Scope} {r s : State} (h : Fr P r s)
    (hp : P.outside 0x200000000010020080 := by exact Scope.outside_mono (by assumption) (by decide)) :
    Fr P r (State.loadsDue s) := by
  have hs := fun k => Scope.outside_mono (k := k) hp
  simp (maxDischargeDepth := 99) [State.loadsDue, h, hs]

@[simp] theorem State.sliceGoes_frame {P : Scope} {r s : State} (x1) (h : Fr P r s)
    (hp : P.outside 0x3e7f812010100065f4 := by exact Scope.outside_mono (by assumption) (by decide)) :
    Fr P r (State.sliceGoes s x1) := by
  have hs := fun k => Scope.outside_mono (k := k) hp
  simp (maxDischargeDepth := 99) [State.sliceGoes, h, hs]

@[simp] theorem State.idleTick_frame {P : Scope} {r s : State} (h : Fr P r s)
    (hp : P.outside 0x7fffffffffff9ffffffd := by exact Scope.outside_mono (by assumption) (by decide)) :
    Fr P r (State.idleTick s) := by
  have hs := fun k => Scope.outside_mono (k := k) hp
  simp (maxDischargeDepth := 99) [State.idleTick, h, hs]

end Sys2Proof.Machine
end

