-- ==== Sys2Proof/Laws/Frames.lean ====
section
/-! SUPPORT. How the frame of a command follows from the lemma that carries every scope through its meaning. -/
namespace Sys2Proof.Machine

/-- The parts of the state, in the order of their numbers. -/
def Part.list : List Part :=
  [.regs, .groups, .ulk, .ltime, .chn, .wpa, .svo, .act, .gov, .mot, .ord, .lnt, .mem, .buf, .cellq, .hif, .ctx, .fw, .jub, .vgl, .pwr,
    .clk, .fls, .sec, .dbg, .cal, .alm, .mgt, .out, .free, .pending]

theorem Part.mem_list (p : Part) : p ∈ Part.list := by cases p <;> decide

/-- The part is outside the set of scopes. -/
def Part.clear (m : Nat) : Part → Bool
  | .regs => decide (m % 2 = 0 ∧ m < 2 ^ 31)
  | p => !m.testBit p.idx

/-- The parts `ps` and the windows of blocks `bs` cover the set of scopes `m`. -/
def covers (m : Nat) (ps : List Part) (bs : List Nat) : Bool :=
  (Part.list.all fun p => ps.contains p || p.clear m) && !m.testBit 0 && decide (m < 2 ^ 95) &&
    (upto 64).all fun b => bs.contains b || !m.testBit (31 + b)

/-- The parts `ps` cover the parts in the set of scopes `m`. -/
def coversParts (m : Nat) (ps : List Part) : Bool := Part.list.all fun p => ps.contains p || p.clear m

theorem Part.outside_of_clear {m : Nat} {p : Part} (h : p.clear m = true) : (Scope.part p).outside m := by
  cases p <;> simpa [Part.clear, Scope.outside] using h

theorem sameBut_of {c : Instr} {m : Nat} {ps : List Part} (h : ∀ (P : Scope) (s : State), P.outside m → ∃ t, exec c s = .next t ∧ Fr P s t)
    (hm : coversParts m ps = true) : Kept c ps := by
  intro s t ht p hp
  have hf : p.clear m = true := by
    have := (List.all_eq_true.mp hm) p p.mem_list
    simpa [hp] using this
  obtain ⟨u, hu, hs⟩ := h (.part p) s (Part.outside_of_clear hf)
  rw [ht] at hu
  cases hu
  exact hs.1

theorem mem_upto {n k : Nat} : k ∈ upto n ↔ k < n := by
  induction n with
  | zero => simp [upto]
  | succ n ih => simp [upto, ih]; omega

/-- A command whose meaning carries every scope outside `m` has the frame of the parts and the windows that cover `m`. -/
theorem frame_of {c : Instr} {m : Nat} {ps : List Part} {bs : List Nat}
    (h : ∀ (P : Scope) (s : State), P.outside m → ∃ t, exec c s = .next t ∧ Fr P s t) (hm : covers m ps bs = true) : Frame c ps bs := by
  simp only [covers, Bool.and_eq_true, decide_eq_true_eq] at hm
  obtain ⟨⟨⟨h1, h0⟩, hlt⟩, hb⟩ := hm
  intro s t ht
  refine ⟨sameBut_of h h1 s t ht, fun a ha hout => ?_⟩
  have hw : (Scope.win (blkOf a)).outside m := by
    refine ⟨by simpa using h0, ?_⟩
    by_cases hk : blkOf a < 64
    · have := (List.all_eq_true.mp hb) (blkOf a) (mem_upto.mpr hk)
      simp only [Bool.or_eq_true, List.contains_iff_mem, Bool.not_eq_true'] at this
      rcases this with hmem | hbit
      · exact absurd (by unfold InBlock regAddr blkOf; omega) (hout _ hmem)
      · exact hbit
    · exact Nat.testBit_lt_two_pow (Nat.lt_of_lt_of_le hlt (Nat.pow_le_pow_right (by omega) (by omega)))
  obtain ⟨u, hu, hs⟩ := h _ s hw
  rw [ht] at hu
  cases hu
  exact hs.1 a rfl

end Sys2Proof.Machine
end

