-- ==== Sys2Proof/Laws/State.lean ====
section
/-!
SUPPORT. What each basic update leaves alone: one lemma for each field of State, true by unfolding the record.
-/
namespace Sys2Proof.Machine

@[simp] theorem State.setReg_groups (s : State) (a : Nat) (v : W) : (s.setReg a v).groups = s.groups := rfl
@[simp] theorem State.setReg_ulk (s : State) (a : Nat) (v : W) : (s.setReg a v).ulk = s.ulk := rfl
@[simp] theorem State.setReg_ltime (s : State) (a : Nat) (v : W) : (s.setReg a v).ltime = s.ltime := rfl
@[simp] theorem State.setReg_chn (s : State) (a : Nat) (v : W) : (s.setReg a v).chn = s.chn := rfl
@[simp] theorem State.setReg_wpa (s : State) (a : Nat) (v : W) : (s.setReg a v).wpa = s.wpa := rfl
@[simp] theorem State.setReg_svo (s : State) (a : Nat) (v : W) : (s.setReg a v).svo = s.svo := rfl
@[simp] theorem State.setReg_act (s : State) (a : Nat) (v : W) : (s.setReg a v).act = s.act := rfl
@[simp] theorem State.setReg_gov (s : State) (a : Nat) (v : W) : (s.setReg a v).gov = s.gov := rfl
@[simp] theorem State.setReg_mot (s : State) (a : Nat) (v : W) : (s.setReg a v).mot = s.mot := rfl
@[simp] theorem State.setReg_ord (s : State) (a : Nat) (v : W) : (s.setReg a v).ord = s.ord := rfl
@[simp] theorem State.setReg_lnt (s : State) (a : Nat) (v : W) : (s.setReg a v).lnt = s.lnt := rfl
@[simp] theorem State.setReg_mem (s : State) (a : Nat) (v : W) : (s.setReg a v).mem = s.mem := rfl
@[simp] theorem State.setReg_buf (s : State) (a : Nat) (v : W) : (s.setReg a v).buf = s.buf := rfl
@[simp] theorem State.setReg_cellq (s : State) (a : Nat) (v : W) : (s.setReg a v).cellq = s.cellq := rfl
@[simp] theorem State.setReg_hif (s : State) (a : Nat) (v : W) : (s.setReg a v).hif = s.hif := rfl
@[simp] theorem State.setReg_ctx (s : State) (a : Nat) (v : W) : (s.setReg a v).ctx = s.ctx := rfl
@[simp] theorem State.setReg_fw (s : State) (a : Nat) (v : W) : (s.setReg a v).fw = s.fw := rfl
@[simp] theorem State.setReg_jub (s : State) (a : Nat) (v : W) : (s.setReg a v).jub = s.jub := rfl
@[simp] theorem State.setReg_vgl (s : State) (a : Nat) (v : W) : (s.setReg a v).vgl = s.vgl := rfl
@[simp] theorem State.setReg_pwr (s : State) (a : Nat) (v : W) : (s.setReg a v).pwr = s.pwr := rfl
@[simp] theorem State.setReg_clk (s : State) (a : Nat) (v : W) : (s.setReg a v).clk = s.clk := rfl
@[simp] theorem State.setReg_fls (s : State) (a : Nat) (v : W) : (s.setReg a v).fls = s.fls := rfl
@[simp] theorem State.setReg_sec (s : State) (a : Nat) (v : W) : (s.setReg a v).sec = s.sec := rfl
@[simp] theorem State.setReg_dbg (s : State) (a : Nat) (v : W) : (s.setReg a v).dbg = s.dbg := rfl
@[simp] theorem State.setReg_cal (s : State) (a : Nat) (v : W) : (s.setReg a v).cal = s.cal := rfl
@[simp] theorem State.setReg_alm (s : State) (a : Nat) (v : W) : (s.setReg a v).alm = s.alm := rfl
@[simp] theorem State.setReg_mgt (s : State) (a : Nat) (v : W) : (s.setReg a v).mgt = s.mgt := rfl
@[simp] theorem State.setReg_out (s : State) (a : Nat) (v : W) : (s.setReg a v).out = s.out := rfl
@[simp] theorem State.setReg_free (s : State) (a : Nat) (v : W) : (s.setReg a v).free = s.free := rfl
@[simp] theorem State.setReg_pending (s : State) (a : Nat) (v : W) : (s.setReg a v).pending = s.pending := rfl

@[simp] theorem State.setRfld_groups (s : State) (a lo len v : Nat) : (s.setRfld a lo len v).groups = s.groups := rfl
@[simp] theorem State.setRfld_ulk (s : State) (a lo len v : Nat) : (s.setRfld a lo len v).ulk = s.ulk := rfl
@[simp] theorem State.setRfld_ltime (s : State) (a lo len v : Nat) : (s.setRfld a lo len v).ltime = s.ltime := rfl
@[simp] theorem State.setRfld_chn (s : State) (a lo len v : Nat) : (s.setRfld a lo len v).chn = s.chn := rfl
@[simp] theorem State.setRfld_wpa (s : State) (a lo len v : Nat) : (s.setRfld a lo len v).wpa = s.wpa := rfl
@[simp] theorem State.setRfld_svo (s : State) (a lo len v : Nat) : (s.setRfld a lo len v).svo = s.svo := rfl
@[simp] theorem State.setRfld_act (s : State) (a lo len v : Nat) : (s.setRfld a lo len v).act = s.act := rfl
@[simp] theorem State.setRfld_gov (s : State) (a lo len v : Nat) : (s.setRfld a lo len v).gov = s.gov := rfl
@[simp] theorem State.setRfld_mot (s : State) (a lo len v : Nat) : (s.setRfld a lo len v).mot = s.mot := rfl
@[simp] theorem State.setRfld_ord (s : State) (a lo len v : Nat) : (s.setRfld a lo len v).ord = s.ord := rfl
@[simp] theorem State.setRfld_lnt (s : State) (a lo len v : Nat) : (s.setRfld a lo len v).lnt = s.lnt := rfl
@[simp] theorem State.setRfld_mem (s : State) (a lo len v : Nat) : (s.setRfld a lo len v).mem = s.mem := rfl
@[simp] theorem State.setRfld_buf (s : State) (a lo len v : Nat) : (s.setRfld a lo len v).buf = s.buf := rfl
@[simp] theorem State.setRfld_cellq (s : State) (a lo len v : Nat) : (s.setRfld a lo len v).cellq = s.cellq := rfl
@[simp] theorem State.setRfld_hif (s : State) (a lo len v : Nat) : (s.setRfld a lo len v).hif = s.hif := rfl
@[simp] theorem State.setRfld_ctx (s : State) (a lo len v : Nat) : (s.setRfld a lo len v).ctx = s.ctx := rfl
@[simp] theorem State.setRfld_fw (s : State) (a lo len v : Nat) : (s.setRfld a lo len v).fw = s.fw := rfl
@[simp] theorem State.setRfld_jub (s : State) (a lo len v : Nat) : (s.setRfld a lo len v).jub = s.jub := rfl
@[simp] theorem State.setRfld_vgl (s : State) (a lo len v : Nat) : (s.setRfld a lo len v).vgl = s.vgl := rfl
@[simp] theorem State.setRfld_pwr (s : State) (a lo len v : Nat) : (s.setRfld a lo len v).pwr = s.pwr := rfl
@[simp] theorem State.setRfld_clk (s : State) (a lo len v : Nat) : (s.setRfld a lo len v).clk = s.clk := rfl
@[simp] theorem State.setRfld_fls (s : State) (a lo len v : Nat) : (s.setRfld a lo len v).fls = s.fls := rfl
@[simp] theorem State.setRfld_sec (s : State) (a lo len v : Nat) : (s.setRfld a lo len v).sec = s.sec := rfl
@[simp] theorem State.setRfld_dbg (s : State) (a lo len v : Nat) : (s.setRfld a lo len v).dbg = s.dbg := rfl
@[simp] theorem State.setRfld_cal (s : State) (a lo len v : Nat) : (s.setRfld a lo len v).cal = s.cal := rfl
@[simp] theorem State.setRfld_alm (s : State) (a lo len v : Nat) : (s.setRfld a lo len v).alm = s.alm := rfl
@[simp] theorem State.setRfld_mgt (s : State) (a lo len v : Nat) : (s.setRfld a lo len v).mgt = s.mgt := rfl
@[simp] theorem State.setRfld_out (s : State) (a lo len v : Nat) : (s.setRfld a lo len v).out = s.out := rfl
@[simp] theorem State.setRfld_free (s : State) (a lo len v : Nat) : (s.setRfld a lo len v).free = s.free := rfl
@[simp] theorem State.setRfld_pending (s : State) (a lo len v : Nat) : (s.setRfld a lo len v).pending = s.pending := rfl

@[simp] theorem State.setRbit_groups (s : State) (a i : Nat) (b : Bool) : (s.setRbit a i b).groups = s.groups := rfl
@[simp] theorem State.setRbit_ulk (s : State) (a i : Nat) (b : Bool) : (s.setRbit a i b).ulk = s.ulk := rfl
@[simp] theorem State.setRbit_ltime (s : State) (a i : Nat) (b : Bool) : (s.setRbit a i b).ltime = s.ltime := rfl
@[simp] theorem State.setRbit_chn (s : State) (a i : Nat) (b : Bool) : (s.setRbit a i b).chn = s.chn := rfl
@[simp] theorem State.setRbit_wpa (s : State) (a i : Nat) (b : Bool) : (s.setRbit a i b).wpa = s.wpa := rfl
@[simp] theorem State.setRbit_svo (s : State) (a i : Nat) (b : Bool) : (s.setRbit a i b).svo = s.svo := rfl
@[simp] theorem State.setRbit_act (s : State) (a i : Nat) (b : Bool) : (s.setRbit a i b).act = s.act := rfl
@[simp] theorem State.setRbit_gov (s : State) (a i : Nat) (b : Bool) : (s.setRbit a i b).gov = s.gov := rfl
@[simp] theorem State.setRbit_mot (s : State) (a i : Nat) (b : Bool) : (s.setRbit a i b).mot = s.mot := rfl
@[simp] theorem State.setRbit_ord (s : State) (a i : Nat) (b : Bool) : (s.setRbit a i b).ord = s.ord := rfl
@[simp] theorem State.setRbit_lnt (s : State) (a i : Nat) (b : Bool) : (s.setRbit a i b).lnt = s.lnt := rfl
@[simp] theorem State.setRbit_mem (s : State) (a i : Nat) (b : Bool) : (s.setRbit a i b).mem = s.mem := rfl
@[simp] theorem State.setRbit_buf (s : State) (a i : Nat) (b : Bool) : (s.setRbit a i b).buf = s.buf := rfl
@[simp] theorem State.setRbit_cellq (s : State) (a i : Nat) (b : Bool) : (s.setRbit a i b).cellq = s.cellq := rfl
@[simp] theorem State.setRbit_hif (s : State) (a i : Nat) (b : Bool) : (s.setRbit a i b).hif = s.hif := rfl
@[simp] theorem State.setRbit_ctx (s : State) (a i : Nat) (b : Bool) : (s.setRbit a i b).ctx = s.ctx := rfl
@[simp] theorem State.setRbit_fw (s : State) (a i : Nat) (b : Bool) : (s.setRbit a i b).fw = s.fw := rfl
@[simp] theorem State.setRbit_jub (s : State) (a i : Nat) (b : Bool) : (s.setRbit a i b).jub = s.jub := rfl
@[simp] theorem State.setRbit_vgl (s : State) (a i : Nat) (b : Bool) : (s.setRbit a i b).vgl = s.vgl := rfl
@[simp] theorem State.setRbit_pwr (s : State) (a i : Nat) (b : Bool) : (s.setRbit a i b).pwr = s.pwr := rfl
@[simp] theorem State.setRbit_clk (s : State) (a i : Nat) (b : Bool) : (s.setRbit a i b).clk = s.clk := rfl
@[simp] theorem State.setRbit_fls (s : State) (a i : Nat) (b : Bool) : (s.setRbit a i b).fls = s.fls := rfl
@[simp] theorem State.setRbit_sec (s : State) (a i : Nat) (b : Bool) : (s.setRbit a i b).sec = s.sec := rfl
@[simp] theorem State.setRbit_dbg (s : State) (a i : Nat) (b : Bool) : (s.setRbit a i b).dbg = s.dbg := rfl
@[simp] theorem State.setRbit_cal (s : State) (a i : Nat) (b : Bool) : (s.setRbit a i b).cal = s.cal := rfl
@[simp] theorem State.setRbit_alm (s : State) (a i : Nat) (b : Bool) : (s.setRbit a i b).alm = s.alm := rfl
@[simp] theorem State.setRbit_mgt (s : State) (a i : Nat) (b : Bool) : (s.setRbit a i b).mgt = s.mgt := rfl
@[simp] theorem State.setRbit_out (s : State) (a i : Nat) (b : Bool) : (s.setRbit a i b).out = s.out := rfl
@[simp] theorem State.setRbit_free (s : State) (a i : Nat) (b : Bool) : (s.setRbit a i b).free = s.free := rfl
@[simp] theorem State.setRbit_pending (s : State) (a i : Nat) (b : Bool) : (s.setRbit a i b).pending = s.pending := rfl

@[simp] theorem State.raise_groups (s : State) (a i : Nat) : (s.raise a i).groups = s.groups := rfl
@[simp] theorem State.raise_ulk (s : State) (a i : Nat) : (s.raise a i).ulk = s.ulk := rfl
@[simp] theorem State.raise_ltime (s : State) (a i : Nat) : (s.raise a i).ltime = s.ltime := rfl
@[simp] theorem State.raise_chn (s : State) (a i : Nat) : (s.raise a i).chn = s.chn := rfl
@[simp] theorem State.raise_wpa (s : State) (a i : Nat) : (s.raise a i).wpa = s.wpa := rfl
@[simp] theorem State.raise_svo (s : State) (a i : Nat) : (s.raise a i).svo = s.svo := rfl
@[simp] theorem State.raise_act (s : State) (a i : Nat) : (s.raise a i).act = s.act := rfl
@[simp] theorem State.raise_gov (s : State) (a i : Nat) : (s.raise a i).gov = s.gov := rfl
@[simp] theorem State.raise_mot (s : State) (a i : Nat) : (s.raise a i).mot = s.mot := rfl
@[simp] theorem State.raise_ord (s : State) (a i : Nat) : (s.raise a i).ord = s.ord := rfl
@[simp] theorem State.raise_lnt (s : State) (a i : Nat) : (s.raise a i).lnt = s.lnt := rfl
@[simp] theorem State.raise_mem (s : State) (a i : Nat) : (s.raise a i).mem = s.mem := rfl
@[simp] theorem State.raise_buf (s : State) (a i : Nat) : (s.raise a i).buf = s.buf := rfl
@[simp] theorem State.raise_cellq (s : State) (a i : Nat) : (s.raise a i).cellq = s.cellq := rfl
@[simp] theorem State.raise_hif (s : State) (a i : Nat) : (s.raise a i).hif = s.hif := rfl
@[simp] theorem State.raise_ctx (s : State) (a i : Nat) : (s.raise a i).ctx = s.ctx := rfl
@[simp] theorem State.raise_fw (s : State) (a i : Nat) : (s.raise a i).fw = s.fw := rfl
@[simp] theorem State.raise_jub (s : State) (a i : Nat) : (s.raise a i).jub = s.jub := rfl
@[simp] theorem State.raise_vgl (s : State) (a i : Nat) : (s.raise a i).vgl = s.vgl := rfl
@[simp] theorem State.raise_pwr (s : State) (a i : Nat) : (s.raise a i).pwr = s.pwr := rfl
@[simp] theorem State.raise_clk (s : State) (a i : Nat) : (s.raise a i).clk = s.clk := rfl
@[simp] theorem State.raise_fls (s : State) (a i : Nat) : (s.raise a i).fls = s.fls := rfl
@[simp] theorem State.raise_sec (s : State) (a i : Nat) : (s.raise a i).sec = s.sec := rfl
@[simp] theorem State.raise_dbg (s : State) (a i : Nat) : (s.raise a i).dbg = s.dbg := rfl
@[simp] theorem State.raise_cal (s : State) (a i : Nat) : (s.raise a i).cal = s.cal := rfl
@[simp] theorem State.raise_alm (s : State) (a i : Nat) : (s.raise a i).alm = s.alm := rfl
@[simp] theorem State.raise_mgt (s : State) (a i : Nat) : (s.raise a i).mgt = s.mgt := rfl
@[simp] theorem State.raise_out (s : State) (a i : Nat) : (s.raise a i).out = s.out := rfl
@[simp] theorem State.raise_free (s : State) (a i : Nat) : (s.raise a i).free = s.free := rfl
@[simp] theorem State.raise_pending (s : State) (a i : Nat) : (s.raise a i).pending = s.pending := rfl

@[simp] theorem State.dropRegs_groups (s : State) (lo hi : Nat) : (s.dropRegs lo hi).groups = s.groups := rfl
@[simp] theorem State.dropRegs_ulk (s : State) (lo hi : Nat) : (s.dropRegs lo hi).ulk = s.ulk := rfl
@[simp] theorem State.dropRegs_ltime (s : State) (lo hi : Nat) : (s.dropRegs lo hi).ltime = s.ltime := rfl
@[simp] theorem State.dropRegs_chn (s : State) (lo hi : Nat) : (s.dropRegs lo hi).chn = s.chn := rfl
@[simp] theorem State.dropRegs_wpa (s : State) (lo hi : Nat) : (s.dropRegs lo hi).wpa = s.wpa := rfl
@[simp] theorem State.dropRegs_svo (s : State) (lo hi : Nat) : (s.dropRegs lo hi).svo = s.svo := rfl
@[simp] theorem State.dropRegs_act (s : State) (lo hi : Nat) : (s.dropRegs lo hi).act = s.act := rfl
@[simp] theorem State.dropRegs_gov (s : State) (lo hi : Nat) : (s.dropRegs lo hi).gov = s.gov := rfl
@[simp] theorem State.dropRegs_mot (s : State) (lo hi : Nat) : (s.dropRegs lo hi).mot = s.mot := rfl
@[simp] theorem State.dropRegs_ord (s : State) (lo hi : Nat) : (s.dropRegs lo hi).ord = s.ord := rfl
@[simp] theorem State.dropRegs_lnt (s : State) (lo hi : Nat) : (s.dropRegs lo hi).lnt = s.lnt := rfl
@[simp] theorem State.dropRegs_mem (s : State) (lo hi : Nat) : (s.dropRegs lo hi).mem = s.mem := rfl
@[simp] theorem State.dropRegs_buf (s : State) (lo hi : Nat) : (s.dropRegs lo hi).buf = s.buf := rfl
@[simp] theorem State.dropRegs_cellq (s : State) (lo hi : Nat) : (s.dropRegs lo hi).cellq = s.cellq := rfl
@[simp] theorem State.dropRegs_hif (s : State) (lo hi : Nat) : (s.dropRegs lo hi).hif = s.hif := rfl
@[simp] theorem State.dropRegs_ctx (s : State) (lo hi : Nat) : (s.dropRegs lo hi).ctx = s.ctx := rfl
@[simp] theorem State.dropRegs_fw (s : State) (lo hi : Nat) : (s.dropRegs lo hi).fw = s.fw := rfl
@[simp] theorem State.dropRegs_jub (s : State) (lo hi : Nat) : (s.dropRegs lo hi).jub = s.jub := rfl
@[simp] theorem State.dropRegs_vgl (s : State) (lo hi : Nat) : (s.dropRegs lo hi).vgl = s.vgl := rfl
@[simp] theorem State.dropRegs_pwr (s : State) (lo hi : Nat) : (s.dropRegs lo hi).pwr = s.pwr := rfl
@[simp] theorem State.dropRegs_clk (s : State) (lo hi : Nat) : (s.dropRegs lo hi).clk = s.clk := rfl
@[simp] theorem State.dropRegs_fls (s : State) (lo hi : Nat) : (s.dropRegs lo hi).fls = s.fls := rfl
@[simp] theorem State.dropRegs_sec (s : State) (lo hi : Nat) : (s.dropRegs lo hi).sec = s.sec := rfl
@[simp] theorem State.dropRegs_dbg (s : State) (lo hi : Nat) : (s.dropRegs lo hi).dbg = s.dbg := rfl
@[simp] theorem State.dropRegs_cal (s : State) (lo hi : Nat) : (s.dropRegs lo hi).cal = s.cal := rfl
@[simp] theorem State.dropRegs_alm (s : State) (lo hi : Nat) : (s.dropRegs lo hi).alm = s.alm := rfl
@[simp] theorem State.dropRegs_mgt (s : State) (lo hi : Nat) : (s.dropRegs lo hi).mgt = s.mgt := rfl
@[simp] theorem State.dropRegs_out (s : State) (lo hi : Nat) : (s.dropRegs lo hi).out = s.out := rfl
@[simp] theorem State.dropRegs_free (s : State) (lo hi : Nat) : (s.dropRegs lo hi).free = s.free := rfl
@[simp] theorem State.dropRegs_pending (s : State) (lo hi : Nat) : (s.dropRegs lo hi).pending = s.pending := rfl

@[simp] theorem State.drawn_regs (s : State) : (s.drawn).regs = s.regs := rfl
@[simp] theorem State.drawn_groups (s : State) : (s.drawn).groups = s.groups := rfl
@[simp] theorem State.drawn_ulk (s : State) : (s.drawn).ulk = s.ulk := rfl
@[simp] theorem State.drawn_ltime (s : State) : (s.drawn).ltime = s.ltime := rfl
@[simp] theorem State.drawn_chn (s : State) : (s.drawn).chn = s.chn := rfl
@[simp] theorem State.drawn_wpa (s : State) : (s.drawn).wpa = s.wpa := rfl
@[simp] theorem State.drawn_svo (s : State) : (s.drawn).svo = s.svo := rfl
@[simp] theorem State.drawn_act (s : State) : (s.drawn).act = s.act := rfl
@[simp] theorem State.drawn_gov (s : State) : (s.drawn).gov = s.gov := rfl
@[simp] theorem State.drawn_mot (s : State) : (s.drawn).mot = s.mot := rfl
@[simp] theorem State.drawn_ord (s : State) : (s.drawn).ord = s.ord := rfl
@[simp] theorem State.drawn_lnt (s : State) : (s.drawn).lnt = s.lnt := rfl
@[simp] theorem State.drawn_mem (s : State) : (s.drawn).mem = s.mem := rfl
@[simp] theorem State.drawn_buf (s : State) : (s.drawn).buf = s.buf := rfl
@[simp] theorem State.drawn_cellq (s : State) : (s.drawn).cellq = s.cellq := rfl
@[simp] theorem State.drawn_hif (s : State) : (s.drawn).hif = s.hif := rfl
@[simp] theorem State.drawn_ctx (s : State) : (s.drawn).ctx = s.ctx := rfl
@[simp] theorem State.drawn_fw (s : State) : (s.drawn).fw = s.fw := rfl
@[simp] theorem State.drawn_jub (s : State) : (s.drawn).jub = s.jub := rfl
@[simp] theorem State.drawn_vgl (s : State) : (s.drawn).vgl = s.vgl := rfl
@[simp] theorem State.drawn_pwr (s : State) : (s.drawn).pwr = s.pwr := rfl
@[simp] theorem State.drawn_clk (s : State) : (s.drawn).clk = s.clk := rfl
@[simp] theorem State.drawn_fls (s : State) : (s.drawn).fls = s.fls := rfl
@[simp] theorem State.drawn_sec (s : State) : (s.drawn).sec = s.sec := rfl
@[simp] theorem State.drawn_dbg (s : State) : (s.drawn).dbg = s.dbg := rfl
@[simp] theorem State.drawn_cal (s : State) : (s.drawn).cal = s.cal := rfl
@[simp] theorem State.drawn_alm (s : State) : (s.drawn).alm = s.alm := rfl
@[simp] theorem State.drawn_mgt (s : State) : (s.drawn).mgt = s.mgt := rfl
@[simp] theorem State.drawn_out (s : State) : (s.drawn).out = s.out := rfl
@[simp] theorem State.drawn_pending (s : State) : (s.drawn).pending = s.pending := rfl

@[simp] theorem State.emit_regs (s : State) (o : Out) : (s.emit o).regs = s.regs := rfl
@[simp] theorem State.emit_groups (s : State) (o : Out) : (s.emit o).groups = s.groups := rfl
@[simp] theorem State.emit_ulk (s : State) (o : Out) : (s.emit o).ulk = s.ulk := rfl
@[simp] theorem State.emit_ltime (s : State) (o : Out) : (s.emit o).ltime = s.ltime := rfl
@[simp] theorem State.emit_chn (s : State) (o : Out) : (s.emit o).chn = s.chn := rfl
@[simp] theorem State.emit_wpa (s : State) (o : Out) : (s.emit o).wpa = s.wpa := rfl
@[simp] theorem State.emit_svo (s : State) (o : Out) : (s.emit o).svo = s.svo := rfl
@[simp] theorem State.emit_act (s : State) (o : Out) : (s.emit o).act = s.act := rfl
@[simp] theorem State.emit_gov (s : State) (o : Out) : (s.emit o).gov = s.gov := rfl
@[simp] theorem State.emit_mot (s : State) (o : Out) : (s.emit o).mot = s.mot := rfl
@[simp] theorem State.emit_ord (s : State) (o : Out) : (s.emit o).ord = s.ord := rfl
@[simp] theorem State.emit_lnt (s : State) (o : Out) : (s.emit o).lnt = s.lnt := rfl
@[simp] theorem State.emit_mem (s : State) (o : Out) : (s.emit o).mem = s.mem := rfl
@[simp] theorem State.emit_buf (s : State) (o : Out) : (s.emit o).buf = s.buf := rfl
@[simp] theorem State.emit_cellq (s : State) (o : Out) : (s.emit o).cellq = s.cellq := rfl
@[simp] theorem State.emit_hif (s : State) (o : Out) : (s.emit o).hif = s.hif := rfl
@[simp] theorem State.emit_ctx (s : State) (o : Out) : (s.emit o).ctx = s.ctx := rfl
@[simp] theorem State.emit_fw (s : State) (o : Out) : (s.emit o).fw = s.fw := rfl
@[simp] theorem State.emit_jub (s : State) (o : Out) : (s.emit o).jub = s.jub := rfl
@[simp] theorem State.emit_vgl (s : State) (o : Out) : (s.emit o).vgl = s.vgl := rfl
@[simp] theorem State.emit_pwr (s : State) (o : Out) : (s.emit o).pwr = s.pwr := rfl
@[simp] theorem State.emit_clk (s : State) (o : Out) : (s.emit o).clk = s.clk := rfl
@[simp] theorem State.emit_fls (s : State) (o : Out) : (s.emit o).fls = s.fls := rfl
@[simp] theorem State.emit_sec (s : State) (o : Out) : (s.emit o).sec = s.sec := rfl
@[simp] theorem State.emit_dbg (s : State) (o : Out) : (s.emit o).dbg = s.dbg := rfl
@[simp] theorem State.emit_cal (s : State) (o : Out) : (s.emit o).cal = s.cal := rfl
@[simp] theorem State.emit_alm (s : State) (o : Out) : (s.emit o).alm = s.alm := rfl
@[simp] theorem State.emit_mgt (s : State) (o : Out) : (s.emit o).mgt = s.mgt := rfl
@[simp] theorem State.emit_free (s : State) (o : Out) : (s.emit o).free = s.free := rfl
@[simp] theorem State.emit_pending (s : State) (o : Out) : (s.emit o).pending = s.pending := rfl

@[simp] theorem State.setCq_regs (s : State) (q : Nat) (c : CellQ) : (s.setCq q c).regs = s.regs := rfl
@[simp] theorem State.setCq_groups (s : State) (q : Nat) (c : CellQ) : (s.setCq q c).groups = s.groups := rfl
@[simp] theorem State.setCq_ulk (s : State) (q : Nat) (c : CellQ) : (s.setCq q c).ulk = s.ulk := rfl
@[simp] theorem State.setCq_ltime (s : State) (q : Nat) (c : CellQ) : (s.setCq q c).ltime = s.ltime := rfl
@[simp] theorem State.setCq_chn (s : State) (q : Nat) (c : CellQ) : (s.setCq q c).chn = s.chn := rfl
@[simp] theorem State.setCq_wpa (s : State) (q : Nat) (c : CellQ) : (s.setCq q c).wpa = s.wpa := rfl
@[simp] theorem State.setCq_svo (s : State) (q : Nat) (c : CellQ) : (s.setCq q c).svo = s.svo := rfl
@[simp] theorem State.setCq_act (s : State) (q : Nat) (c : CellQ) : (s.setCq q c).act = s.act := rfl
@[simp] theorem State.setCq_gov (s : State) (q : Nat) (c : CellQ) : (s.setCq q c).gov = s.gov := rfl
@[simp] theorem State.setCq_mot (s : State) (q : Nat) (c : CellQ) : (s.setCq q c).mot = s.mot := rfl
@[simp] theorem State.setCq_ord (s : State) (q : Nat) (c : CellQ) : (s.setCq q c).ord = s.ord := rfl
@[simp] theorem State.setCq_lnt (s : State) (q : Nat) (c : CellQ) : (s.setCq q c).lnt = s.lnt := rfl
@[simp] theorem State.setCq_mem (s : State) (q : Nat) (c : CellQ) : (s.setCq q c).mem = s.mem := rfl
@[simp] theorem State.setCq_buf (s : State) (q : Nat) (c : CellQ) : (s.setCq q c).buf = s.buf := rfl
@[simp] theorem State.setCq_hif (s : State) (q : Nat) (c : CellQ) : (s.setCq q c).hif = s.hif := rfl
@[simp] theorem State.setCq_ctx (s : State) (q : Nat) (c : CellQ) : (s.setCq q c).ctx = s.ctx := rfl
@[simp] theorem State.setCq_fw (s : State) (q : Nat) (c : CellQ) : (s.setCq q c).fw = s.fw := rfl
@[simp] theorem State.setCq_jub (s : State) (q : Nat) (c : CellQ) : (s.setCq q c).jub = s.jub := rfl
@[simp] theorem State.setCq_vgl (s : State) (q : Nat) (c : CellQ) : (s.setCq q c).vgl = s.vgl := rfl
@[simp] theorem State.setCq_pwr (s : State) (q : Nat) (c : CellQ) : (s.setCq q c).pwr = s.pwr := rfl
@[simp] theorem State.setCq_clk (s : State) (q : Nat) (c : CellQ) : (s.setCq q c).clk = s.clk := rfl
@[simp] theorem State.setCq_fls (s : State) (q : Nat) (c : CellQ) : (s.setCq q c).fls = s.fls := rfl
@[simp] theorem State.setCq_sec (s : State) (q : Nat) (c : CellQ) : (s.setCq q c).sec = s.sec := rfl
@[simp] theorem State.setCq_dbg (s : State) (q : Nat) (c : CellQ) : (s.setCq q c).dbg = s.dbg := rfl
@[simp] theorem State.setCq_cal (s : State) (q : Nat) (c : CellQ) : (s.setCq q c).cal = s.cal := rfl
@[simp] theorem State.setCq_alm (s : State) (q : Nat) (c : CellQ) : (s.setCq q c).alm = s.alm := rfl
@[simp] theorem State.setCq_mgt (s : State) (q : Nat) (c : CellQ) : (s.setCq q c).mgt = s.mgt := rfl
@[simp] theorem State.setCq_out (s : State) (q : Nat) (c : CellQ) : (s.setCq q c).out = s.out := rfl
@[simp] theorem State.setCq_free (s : State) (q : Nat) (c : CellQ) : (s.setCq q c).free = s.free := rfl
@[simp] theorem State.setCq_pending (s : State) (q : Nat) (c : CellQ) : (s.setCq q c).pending = s.pending := rfl

@[simp] theorem State.setUlk_regs (s : State) (n : Nat) (p : UlkPort) : (s.setUlk n p).regs = s.regs := rfl
@[simp] theorem State.setUlk_groups (s : State) (n : Nat) (p : UlkPort) : (s.setUlk n p).groups = s.groups := rfl
@[simp] theorem State.setUlk_ltime (s : State) (n : Nat) (p : UlkPort) : (s.setUlk n p).ltime = s.ltime := rfl
@[simp] theorem State.setUlk_chn (s : State) (n : Nat) (p : UlkPort) : (s.setUlk n p).chn = s.chn := rfl
@[simp] theorem State.setUlk_wpa (s : State) (n : Nat) (p : UlkPort) : (s.setUlk n p).wpa = s.wpa := rfl
@[simp] theorem State.setUlk_svo (s : State) (n : Nat) (p : UlkPort) : (s.setUlk n p).svo = s.svo := rfl
@[simp] theorem State.setUlk_act (s : State) (n : Nat) (p : UlkPort) : (s.setUlk n p).act = s.act := rfl
@[simp] theorem State.setUlk_gov (s : State) (n : Nat) (p : UlkPort) : (s.setUlk n p).gov = s.gov := rfl
@[simp] theorem State.setUlk_mot (s : State) (n : Nat) (p : UlkPort) : (s.setUlk n p).mot = s.mot := rfl
@[simp] theorem State.setUlk_ord (s : State) (n : Nat) (p : UlkPort) : (s.setUlk n p).ord = s.ord := rfl
@[simp] theorem State.setUlk_lnt (s : State) (n : Nat) (p : UlkPort) : (s.setUlk n p).lnt = s.lnt := rfl
@[simp] theorem State.setUlk_mem (s : State) (n : Nat) (p : UlkPort) : (s.setUlk n p).mem = s.mem := rfl
@[simp] theorem State.setUlk_buf (s : State) (n : Nat) (p : UlkPort) : (s.setUlk n p).buf = s.buf := rfl
@[simp] theorem State.setUlk_cellq (s : State) (n : Nat) (p : UlkPort) : (s.setUlk n p).cellq = s.cellq := rfl
@[simp] theorem State.setUlk_hif (s : State) (n : Nat) (p : UlkPort) : (s.setUlk n p).hif = s.hif := rfl
@[simp] theorem State.setUlk_ctx (s : State) (n : Nat) (p : UlkPort) : (s.setUlk n p).ctx = s.ctx := rfl
@[simp] theorem State.setUlk_fw (s : State) (n : Nat) (p : UlkPort) : (s.setUlk n p).fw = s.fw := rfl
@[simp] theorem State.setUlk_jub (s : State) (n : Nat) (p : UlkPort) : (s.setUlk n p).jub = s.jub := rfl
@[simp] theorem State.setUlk_vgl (s : State) (n : Nat) (p : UlkPort) : (s.setUlk n p).vgl = s.vgl := rfl
@[simp] theorem State.setUlk_pwr (s : State) (n : Nat) (p : UlkPort) : (s.setUlk n p).pwr = s.pwr := rfl
@[simp] theorem State.setUlk_clk (s : State) (n : Nat) (p : UlkPort) : (s.setUlk n p).clk = s.clk := rfl
@[simp] theorem State.setUlk_fls (s : State) (n : Nat) (p : UlkPort) : (s.setUlk n p).fls = s.fls := rfl
@[simp] theorem State.setUlk_sec (s : State) (n : Nat) (p : UlkPort) : (s.setUlk n p).sec = s.sec := rfl
@[simp] theorem State.setUlk_dbg (s : State) (n : Nat) (p : UlkPort) : (s.setUlk n p).dbg = s.dbg := rfl
@[simp] theorem State.setUlk_cal (s : State) (n : Nat) (p : UlkPort) : (s.setUlk n p).cal = s.cal := rfl
@[simp] theorem State.setUlk_alm (s : State) (n : Nat) (p : UlkPort) : (s.setUlk n p).alm = s.alm := rfl
@[simp] theorem State.setUlk_mgt (s : State) (n : Nat) (p : UlkPort) : (s.setUlk n p).mgt = s.mgt := rfl
@[simp] theorem State.setUlk_out (s : State) (n : Nat) (p : UlkPort) : (s.setUlk n p).out = s.out := rfl
@[simp] theorem State.setUlk_free (s : State) (n : Nat) (p : UlkPort) : (s.setUlk n p).free = s.free := rfl
@[simp] theorem State.setUlk_pending (s : State) (n : Nat) (p : UlkPort) : (s.setUlk n p).pending = s.pending := rfl

@[simp] theorem State.setChn_regs (s : State) (n : Nat) (p : Chn) : (s.setChn n p).regs = s.regs := rfl
@[simp] theorem State.setChn_groups (s : State) (n : Nat) (p : Chn) : (s.setChn n p).groups = s.groups := rfl
@[simp] theorem State.setChn_ulk (s : State) (n : Nat) (p : Chn) : (s.setChn n p).ulk = s.ulk := rfl
@[simp] theorem State.setChn_ltime (s : State) (n : Nat) (p : Chn) : (s.setChn n p).ltime = s.ltime := rfl
@[simp] theorem State.setChn_wpa (s : State) (n : Nat) (p : Chn) : (s.setChn n p).wpa = s.wpa := rfl
@[simp] theorem State.setChn_svo (s : State) (n : Nat) (p : Chn) : (s.setChn n p).svo = s.svo := rfl
@[simp] theorem State.setChn_act (s : State) (n : Nat) (p : Chn) : (s.setChn n p).act = s.act := rfl
@[simp] theorem State.setChn_gov (s : State) (n : Nat) (p : Chn) : (s.setChn n p).gov = s.gov := rfl
@[simp] theorem State.setChn_mot (s : State) (n : Nat) (p : Chn) : (s.setChn n p).mot = s.mot := rfl
@[simp] theorem State.setChn_ord (s : State) (n : Nat) (p : Chn) : (s.setChn n p).ord = s.ord := rfl
@[simp] theorem State.setChn_lnt (s : State) (n : Nat) (p : Chn) : (s.setChn n p).lnt = s.lnt := rfl
@[simp] theorem State.setChn_mem (s : State) (n : Nat) (p : Chn) : (s.setChn n p).mem = s.mem := rfl
@[simp] theorem State.setChn_buf (s : State) (n : Nat) (p : Chn) : (s.setChn n p).buf = s.buf := rfl
@[simp] theorem State.setChn_cellq (s : State) (n : Nat) (p : Chn) : (s.setChn n p).cellq = s.cellq := rfl
@[simp] theorem State.setChn_hif (s : State) (n : Nat) (p : Chn) : (s.setChn n p).hif = s.hif := rfl
@[simp] theorem State.setChn_ctx (s : State) (n : Nat) (p : Chn) : (s.setChn n p).ctx = s.ctx := rfl
@[simp] theorem State.setChn_fw (s : State) (n : Nat) (p : Chn) : (s.setChn n p).fw = s.fw := rfl
@[simp] theorem State.setChn_jub (s : State) (n : Nat) (p : Chn) : (s.setChn n p).jub = s.jub := rfl
@[simp] theorem State.setChn_vgl (s : State) (n : Nat) (p : Chn) : (s.setChn n p).vgl = s.vgl := rfl
@[simp] theorem State.setChn_pwr (s : State) (n : Nat) (p : Chn) : (s.setChn n p).pwr = s.pwr := rfl
@[simp] theorem State.setChn_clk (s : State) (n : Nat) (p : Chn) : (s.setChn n p).clk = s.clk := rfl
@[simp] theorem State.setChn_fls (s : State) (n : Nat) (p : Chn) : (s.setChn n p).fls = s.fls := rfl
@[simp] theorem State.setChn_sec (s : State) (n : Nat) (p : Chn) : (s.setChn n p).sec = s.sec := rfl
@[simp] theorem State.setChn_dbg (s : State) (n : Nat) (p : Chn) : (s.setChn n p).dbg = s.dbg := rfl
@[simp] theorem State.setChn_cal (s : State) (n : Nat) (p : Chn) : (s.setChn n p).cal = s.cal := rfl
@[simp] theorem State.setChn_alm (s : State) (n : Nat) (p : Chn) : (s.setChn n p).alm = s.alm := rfl
@[simp] theorem State.setChn_mgt (s : State) (n : Nat) (p : Chn) : (s.setChn n p).mgt = s.mgt := rfl
@[simp] theorem State.setChn_out (s : State) (n : Nat) (p : Chn) : (s.setChn n p).out = s.out := rfl
@[simp] theorem State.setChn_free (s : State) (n : Nat) (p : Chn) : (s.setChn n p).free = s.free := rfl
@[simp] theorem State.setChn_pending (s : State) (n : Nat) (p : Chn) : (s.setChn n p).pending = s.pending := rfl

@[simp] theorem State.setWpa_regs (s : State) (n : Nat) (p : Wpa) : (s.setWpa n p).regs = s.regs := rfl
@[simp] theorem State.setWpa_groups (s : State) (n : Nat) (p : Wpa) : (s.setWpa n p).groups = s.groups := rfl
@[simp] theorem State.setWpa_ulk (s : State) (n : Nat) (p : Wpa) : (s.setWpa n p).ulk = s.ulk := rfl
@[simp] theorem State.setWpa_ltime (s : State) (n : Nat) (p : Wpa) : (s.setWpa n p).ltime = s.ltime := rfl
@[simp] theorem State.setWpa_chn (s : State) (n : Nat) (p : Wpa) : (s.setWpa n p).chn = s.chn := rfl
@[simp] theorem State.setWpa_svo (s : State) (n : Nat) (p : Wpa) : (s.setWpa n p).svo = s.svo := rfl
@[simp] theorem State.setWpa_act (s : State) (n : Nat) (p : Wpa) : (s.setWpa n p).act = s.act := rfl
@[simp] theorem State.setWpa_gov (s : State) (n : Nat) (p : Wpa) : (s.setWpa n p).gov = s.gov := rfl
@[simp] theorem State.setWpa_mot (s : State) (n : Nat) (p : Wpa) : (s.setWpa n p).mot = s.mot := rfl
@[simp] theorem State.setWpa_ord (s : State) (n : Nat) (p : Wpa) : (s.setWpa n p).ord = s.ord := rfl
@[simp] theorem State.setWpa_lnt (s : State) (n : Nat) (p : Wpa) : (s.setWpa n p).lnt = s.lnt := rfl
@[simp] theorem State.setWpa_mem (s : State) (n : Nat) (p : Wpa) : (s.setWpa n p).mem = s.mem := rfl
@[simp] theorem State.setWpa_buf (s : State) (n : Nat) (p : Wpa) : (s.setWpa n p).buf = s.buf := rfl
@[simp] theorem State.setWpa_cellq (s : State) (n : Nat) (p : Wpa) : (s.setWpa n p).cellq = s.cellq := rfl
@[simp] theorem State.setWpa_hif (s : State) (n : Nat) (p : Wpa) : (s.setWpa n p).hif = s.hif := rfl
@[simp] theorem State.setWpa_ctx (s : State) (n : Nat) (p : Wpa) : (s.setWpa n p).ctx = s.ctx := rfl
@[simp] theorem State.setWpa_fw (s : State) (n : Nat) (p : Wpa) : (s.setWpa n p).fw = s.fw := rfl
@[simp] theorem State.setWpa_jub (s : State) (n : Nat) (p : Wpa) : (s.setWpa n p).jub = s.jub := rfl
@[simp] theorem State.setWpa_vgl (s : State) (n : Nat) (p : Wpa) : (s.setWpa n p).vgl = s.vgl := rfl
@[simp] theorem State.setWpa_pwr (s : State) (n : Nat) (p : Wpa) : (s.setWpa n p).pwr = s.pwr := rfl
@[simp] theorem State.setWpa_clk (s : State) (n : Nat) (p : Wpa) : (s.setWpa n p).clk = s.clk := rfl
@[simp] theorem State.setWpa_fls (s : State) (n : Nat) (p : Wpa) : (s.setWpa n p).fls = s.fls := rfl
@[simp] theorem State.setWpa_sec (s : State) (n : Nat) (p : Wpa) : (s.setWpa n p).sec = s.sec := rfl
@[simp] theorem State.setWpa_dbg (s : State) (n : Nat) (p : Wpa) : (s.setWpa n p).dbg = s.dbg := rfl
@[simp] theorem State.setWpa_cal (s : State) (n : Nat) (p : Wpa) : (s.setWpa n p).cal = s.cal := rfl
@[simp] theorem State.setWpa_alm (s : State) (n : Nat) (p : Wpa) : (s.setWpa n p).alm = s.alm := rfl
@[simp] theorem State.setWpa_mgt (s : State) (n : Nat) (p : Wpa) : (s.setWpa n p).mgt = s.mgt := rfl
@[simp] theorem State.setWpa_out (s : State) (n : Nat) (p : Wpa) : (s.setWpa n p).out = s.out := rfl
@[simp] theorem State.setWpa_free (s : State) (n : Nat) (p : Wpa) : (s.setWpa n p).free = s.free := rfl
@[simp] theorem State.setWpa_pending (s : State) (n : Nat) (p : Wpa) : (s.setWpa n p).pending = s.pending := rfl

@[simp] theorem State.setLoop_regs (s : State) (i : Nat) (x : Loop) : (s.setLoop i x).regs = s.regs := rfl
@[simp] theorem State.setLoop_groups (s : State) (i : Nat) (x : Loop) : (s.setLoop i x).groups = s.groups := rfl
@[simp] theorem State.setLoop_ulk (s : State) (i : Nat) (x : Loop) : (s.setLoop i x).ulk = s.ulk := rfl
@[simp] theorem State.setLoop_ltime (s : State) (i : Nat) (x : Loop) : (s.setLoop i x).ltime = s.ltime := rfl
@[simp] theorem State.setLoop_chn (s : State) (i : Nat) (x : Loop) : (s.setLoop i x).chn = s.chn := rfl
@[simp] theorem State.setLoop_wpa (s : State) (i : Nat) (x : Loop) : (s.setLoop i x).wpa = s.wpa := rfl
@[simp] theorem State.setLoop_act (s : State) (i : Nat) (x : Loop) : (s.setLoop i x).act = s.act := rfl
@[simp] theorem State.setLoop_gov (s : State) (i : Nat) (x : Loop) : (s.setLoop i x).gov = s.gov := rfl
@[simp] theorem State.setLoop_mot (s : State) (i : Nat) (x : Loop) : (s.setLoop i x).mot = s.mot := rfl
@[simp] theorem State.setLoop_ord (s : State) (i : Nat) (x : Loop) : (s.setLoop i x).ord = s.ord := rfl
@[simp] theorem State.setLoop_lnt (s : State) (i : Nat) (x : Loop) : (s.setLoop i x).lnt = s.lnt := rfl
@[simp] theorem State.setLoop_mem (s : State) (i : Nat) (x : Loop) : (s.setLoop i x).mem = s.mem := rfl
@[simp] theorem State.setLoop_buf (s : State) (i : Nat) (x : Loop) : (s.setLoop i x).buf = s.buf := rfl
@[simp] theorem State.setLoop_cellq (s : State) (i : Nat) (x : Loop) : (s.setLoop i x).cellq = s.cellq := rfl
@[simp] theorem State.setLoop_hif (s : State) (i : Nat) (x : Loop) : (s.setLoop i x).hif = s.hif := rfl
@[simp] theorem State.setLoop_ctx (s : State) (i : Nat) (x : Loop) : (s.setLoop i x).ctx = s.ctx := rfl
@[simp] theorem State.setLoop_fw (s : State) (i : Nat) (x : Loop) : (s.setLoop i x).fw = s.fw := rfl
@[simp] theorem State.setLoop_jub (s : State) (i : Nat) (x : Loop) : (s.setLoop i x).jub = s.jub := rfl
@[simp] theorem State.setLoop_vgl (s : State) (i : Nat) (x : Loop) : (s.setLoop i x).vgl = s.vgl := rfl
@[simp] theorem State.setLoop_pwr (s : State) (i : Nat) (x : Loop) : (s.setLoop i x).pwr = s.pwr := rfl
@[simp] theorem State.setLoop_clk (s : State) (i : Nat) (x : Loop) : (s.setLoop i x).clk = s.clk := rfl
@[simp] theorem State.setLoop_fls (s : State) (i : Nat) (x : Loop) : (s.setLoop i x).fls = s.fls := rfl
@[simp] theorem State.setLoop_sec (s : State) (i : Nat) (x : Loop) : (s.setLoop i x).sec = s.sec := rfl
@[simp] theorem State.setLoop_dbg (s : State) (i : Nat) (x : Loop) : (s.setLoop i x).dbg = s.dbg := rfl
@[simp] theorem State.setLoop_cal (s : State) (i : Nat) (x : Loop) : (s.setLoop i x).cal = s.cal := rfl
@[simp] theorem State.setLoop_alm (s : State) (i : Nat) (x : Loop) : (s.setLoop i x).alm = s.alm := rfl
@[simp] theorem State.setLoop_mgt (s : State) (i : Nat) (x : Loop) : (s.setLoop i x).mgt = s.mgt := rfl
@[simp] theorem State.setLoop_out (s : State) (i : Nat) (x : Loop) : (s.setLoop i x).out = s.out := rfl
@[simp] theorem State.setLoop_free (s : State) (i : Nat) (x : Loop) : (s.setLoop i x).free = s.free := rfl
@[simp] theorem State.setLoop_pending (s : State) (i : Nat) (x : Loop) : (s.setLoop i x).pending = s.pending := rfl

@[simp] theorem State.putSvoWord_regs (s : State) (i : Nat) (v : W) : (s.putSvoWord i v).regs = s.regs := rfl
@[simp] theorem State.putSvoWord_groups (s : State) (i : Nat) (v : W) : (s.putSvoWord i v).groups = s.groups := rfl
@[simp] theorem State.putSvoWord_ulk (s : State) (i : Nat) (v : W) : (s.putSvoWord i v).ulk = s.ulk := rfl
@[simp] theorem State.putSvoWord_ltime (s : State) (i : Nat) (v : W) : (s.putSvoWord i v).ltime = s.ltime := rfl
@[simp] theorem State.putSvoWord_chn (s : State) (i : Nat) (v : W) : (s.putSvoWord i v).chn = s.chn := rfl
@[simp] theorem State.putSvoWord_wpa (s : State) (i : Nat) (v : W) : (s.putSvoWord i v).wpa = s.wpa := rfl
@[simp] theorem State.putSvoWord_act (s : State) (i : Nat) (v : W) : (s.putSvoWord i v).act = s.act := rfl
@[simp] theorem State.putSvoWord_gov (s : State) (i : Nat) (v : W) : (s.putSvoWord i v).gov = s.gov := rfl
@[simp] theorem State.putSvoWord_mot (s : State) (i : Nat) (v : W) : (s.putSvoWord i v).mot = s.mot := rfl
@[simp] theorem State.putSvoWord_ord (s : State) (i : Nat) (v : W) : (s.putSvoWord i v).ord = s.ord := rfl
@[simp] theorem State.putSvoWord_lnt (s : State) (i : Nat) (v : W) : (s.putSvoWord i v).lnt = s.lnt := rfl
@[simp] theorem State.putSvoWord_mem (s : State) (i : Nat) (v : W) : (s.putSvoWord i v).mem = s.mem := rfl
@[simp] theorem State.putSvoWord_buf (s : State) (i : Nat) (v : W) : (s.putSvoWord i v).buf = s.buf := rfl
@[simp] theorem State.putSvoWord_cellq (s : State) (i : Nat) (v : W) : (s.putSvoWord i v).cellq = s.cellq := rfl
@[simp] theorem State.putSvoWord_hif (s : State) (i : Nat) (v : W) : (s.putSvoWord i v).hif = s.hif := rfl
@[simp] theorem State.putSvoWord_ctx (s : State) (i : Nat) (v : W) : (s.putSvoWord i v).ctx = s.ctx := rfl
@[simp] theorem State.putSvoWord_fw (s : State) (i : Nat) (v : W) : (s.putSvoWord i v).fw = s.fw := rfl
@[simp] theorem State.putSvoWord_jub (s : State) (i : Nat) (v : W) : (s.putSvoWord i v).jub = s.jub := rfl
@[simp] theorem State.putSvoWord_vgl (s : State) (i : Nat) (v : W) : (s.putSvoWord i v).vgl = s.vgl := rfl
@[simp] theorem State.putSvoWord_pwr (s : State) (i : Nat) (v : W) : (s.putSvoWord i v).pwr = s.pwr := rfl
@[simp] theorem State.putSvoWord_clk (s : State) (i : Nat) (v : W) : (s.putSvoWord i v).clk = s.clk := rfl
@[simp] theorem State.putSvoWord_fls (s : State) (i : Nat) (v : W) : (s.putSvoWord i v).fls = s.fls := rfl
@[simp] theorem State.putSvoWord_sec (s : State) (i : Nat) (v : W) : (s.putSvoWord i v).sec = s.sec := rfl
@[simp] theorem State.putSvoWord_dbg (s : State) (i : Nat) (v : W) : (s.putSvoWord i v).dbg = s.dbg := rfl
@[simp] theorem State.putSvoWord_cal (s : State) (i : Nat) (v : W) : (s.putSvoWord i v).cal = s.cal := rfl
@[simp] theorem State.putSvoWord_alm (s : State) (i : Nat) (v : W) : (s.putSvoWord i v).alm = s.alm := rfl
@[simp] theorem State.putSvoWord_mgt (s : State) (i : Nat) (v : W) : (s.putSvoWord i v).mgt = s.mgt := rfl
@[simp] theorem State.putSvoWord_out (s : State) (i : Nat) (v : W) : (s.putSvoWord i v).out = s.out := rfl
@[simp] theorem State.putSvoWord_free (s : State) (i : Nat) (v : W) : (s.putSvoWord i v).free = s.free := rfl
@[simp] theorem State.putSvoWord_pending (s : State) (i : Nat) (v : W) : (s.putSvoWord i v).pending = s.pending := rfl

@[simp] theorem State.setAct_regs (s : State) (a : Nat) (x : Act) : (s.setAct a x).regs = s.regs := rfl
@[simp] theorem State.setAct_groups (s : State) (a : Nat) (x : Act) : (s.setAct a x).groups = s.groups := rfl
@[simp] theorem State.setAct_ulk (s : State) (a : Nat) (x : Act) : (s.setAct a x).ulk = s.ulk := rfl
@[simp] theorem State.setAct_ltime (s : State) (a : Nat) (x : Act) : (s.setAct a x).ltime = s.ltime := rfl
@[simp] theorem State.setAct_chn (s : State) (a : Nat) (x : Act) : (s.setAct a x).chn = s.chn := rfl
@[simp] theorem State.setAct_wpa (s : State) (a : Nat) (x : Act) : (s.setAct a x).wpa = s.wpa := rfl
@[simp] theorem State.setAct_svo (s : State) (a : Nat) (x : Act) : (s.setAct a x).svo = s.svo := rfl
@[simp] theorem State.setAct_gov (s : State) (a : Nat) (x : Act) : (s.setAct a x).gov = s.gov := rfl
@[simp] theorem State.setAct_mot (s : State) (a : Nat) (x : Act) : (s.setAct a x).mot = s.mot := rfl
@[simp] theorem State.setAct_ord (s : State) (a : Nat) (x : Act) : (s.setAct a x).ord = s.ord := rfl
@[simp] theorem State.setAct_lnt (s : State) (a : Nat) (x : Act) : (s.setAct a x).lnt = s.lnt := rfl
@[simp] theorem State.setAct_mem (s : State) (a : Nat) (x : Act) : (s.setAct a x).mem = s.mem := rfl
@[simp] theorem State.setAct_buf (s : State) (a : Nat) (x : Act) : (s.setAct a x).buf = s.buf := rfl
@[simp] theorem State.setAct_cellq (s : State) (a : Nat) (x : Act) : (s.setAct a x).cellq = s.cellq := rfl
@[simp] theorem State.setAct_hif (s : State) (a : Nat) (x : Act) : (s.setAct a x).hif = s.hif := rfl
@[simp] theorem State.setAct_ctx (s : State) (a : Nat) (x : Act) : (s.setAct a x).ctx = s.ctx := rfl
@[simp] theorem State.setAct_fw (s : State) (a : Nat) (x : Act) : (s.setAct a x).fw = s.fw := rfl
@[simp] theorem State.setAct_jub (s : State) (a : Nat) (x : Act) : (s.setAct a x).jub = s.jub := rfl
@[simp] theorem State.setAct_vgl (s : State) (a : Nat) (x : Act) : (s.setAct a x).vgl = s.vgl := rfl
@[simp] theorem State.setAct_pwr (s : State) (a : Nat) (x : Act) : (s.setAct a x).pwr = s.pwr := rfl
@[simp] theorem State.setAct_clk (s : State) (a : Nat) (x : Act) : (s.setAct a x).clk = s.clk := rfl
@[simp] theorem State.setAct_fls (s : State) (a : Nat) (x : Act) : (s.setAct a x).fls = s.fls := rfl
@[simp] theorem State.setAct_sec (s : State) (a : Nat) (x : Act) : (s.setAct a x).sec = s.sec := rfl
@[simp] theorem State.setAct_dbg (s : State) (a : Nat) (x : Act) : (s.setAct a x).dbg = s.dbg := rfl
@[simp] theorem State.setAct_cal (s : State) (a : Nat) (x : Act) : (s.setAct a x).cal = s.cal := rfl
@[simp] theorem State.setAct_alm (s : State) (a : Nat) (x : Act) : (s.setAct a x).alm = s.alm := rfl
@[simp] theorem State.setAct_mgt (s : State) (a : Nat) (x : Act) : (s.setAct a x).mgt = s.mgt := rfl
@[simp] theorem State.setAct_out (s : State) (a : Nat) (x : Act) : (s.setAct a x).out = s.out := rfl
@[simp] theorem State.setAct_free (s : State) (a : Nat) (x : Act) : (s.setAct a x).free = s.free := rfl
@[simp] theorem State.setAct_pending (s : State) (a : Nat) (x : Act) : (s.setAct a x).pending = s.pending := rfl

@[simp] theorem State.setOrd_regs (s : State) (n : Nat) (x : Ord) : (s.setOrd n x).regs = s.regs := rfl
@[simp] theorem State.setOrd_groups (s : State) (n : Nat) (x : Ord) : (s.setOrd n x).groups = s.groups := rfl
@[simp] theorem State.setOrd_ulk (s : State) (n : Nat) (x : Ord) : (s.setOrd n x).ulk = s.ulk := rfl
@[simp] theorem State.setOrd_ltime (s : State) (n : Nat) (x : Ord) : (s.setOrd n x).ltime = s.ltime := rfl
@[simp] theorem State.setOrd_chn (s : State) (n : Nat) (x : Ord) : (s.setOrd n x).chn = s.chn := rfl
@[simp] theorem State.setOrd_wpa (s : State) (n : Nat) (x : Ord) : (s.setOrd n x).wpa = s.wpa := rfl
@[simp] theorem State.setOrd_svo (s : State) (n : Nat) (x : Ord) : (s.setOrd n x).svo = s.svo := rfl
@[simp] theorem State.setOrd_act (s : State) (n : Nat) (x : Ord) : (s.setOrd n x).act = s.act := rfl
@[simp] theorem State.setOrd_gov (s : State) (n : Nat) (x : Ord) : (s.setOrd n x).gov = s.gov := rfl
@[simp] theorem State.setOrd_mot (s : State) (n : Nat) (x : Ord) : (s.setOrd n x).mot = s.mot := rfl
@[simp] theorem State.setOrd_lnt (s : State) (n : Nat) (x : Ord) : (s.setOrd n x).lnt = s.lnt := rfl
@[simp] theorem State.setOrd_mem (s : State) (n : Nat) (x : Ord) : (s.setOrd n x).mem = s.mem := rfl
@[simp] theorem State.setOrd_buf (s : State) (n : Nat) (x : Ord) : (s.setOrd n x).buf = s.buf := rfl
@[simp] theorem State.setOrd_cellq (s : State) (n : Nat) (x : Ord) : (s.setOrd n x).cellq = s.cellq := rfl
@[simp] theorem State.setOrd_hif (s : State) (n : Nat) (x : Ord) : (s.setOrd n x).hif = s.hif := rfl
@[simp] theorem State.setOrd_ctx (s : State) (n : Nat) (x : Ord) : (s.setOrd n x).ctx = s.ctx := rfl
@[simp] theorem State.setOrd_fw (s : State) (n : Nat) (x : Ord) : (s.setOrd n x).fw = s.fw := rfl
@[simp] theorem State.setOrd_jub (s : State) (n : Nat) (x : Ord) : (s.setOrd n x).jub = s.jub := rfl
@[simp] theorem State.setOrd_vgl (s : State) (n : Nat) (x : Ord) : (s.setOrd n x).vgl = s.vgl := rfl
@[simp] theorem State.setOrd_pwr (s : State) (n : Nat) (x : Ord) : (s.setOrd n x).pwr = s.pwr := rfl
@[simp] theorem State.setOrd_clk (s : State) (n : Nat) (x : Ord) : (s.setOrd n x).clk = s.clk := rfl
@[simp] theorem State.setOrd_fls (s : State) (n : Nat) (x : Ord) : (s.setOrd n x).fls = s.fls := rfl
@[simp] theorem State.setOrd_sec (s : State) (n : Nat) (x : Ord) : (s.setOrd n x).sec = s.sec := rfl
@[simp] theorem State.setOrd_dbg (s : State) (n : Nat) (x : Ord) : (s.setOrd n x).dbg = s.dbg := rfl
@[simp] theorem State.setOrd_cal (s : State) (n : Nat) (x : Ord) : (s.setOrd n x).cal = s.cal := rfl
@[simp] theorem State.setOrd_alm (s : State) (n : Nat) (x : Ord) : (s.setOrd n x).alm = s.alm := rfl
@[simp] theorem State.setOrd_mgt (s : State) (n : Nat) (x : Ord) : (s.setOrd n x).mgt = s.mgt := rfl
@[simp] theorem State.setOrd_out (s : State) (n : Nat) (x : Ord) : (s.setOrd n x).out = s.out := rfl
@[simp] theorem State.setOrd_free (s : State) (n : Nat) (x : Ord) : (s.setOrd n x).free = s.free := rfl
@[simp] theorem State.setOrd_pending (s : State) (n : Nat) (x : Ord) : (s.setOrd n x).pending = s.pending := rfl

@[simp] theorem State.modMot_regs (s : State) (f : Mot → Mot) : (s.modMot f).regs = s.regs := rfl
@[simp] theorem State.modMot_groups (s : State) (f : Mot → Mot) : (s.modMot f).groups = s.groups := rfl
@[simp] theorem State.modMot_ulk (s : State) (f : Mot → Mot) : (s.modMot f).ulk = s.ulk := rfl
@[simp] theorem State.modMot_ltime (s : State) (f : Mot → Mot) : (s.modMot f).ltime = s.ltime := rfl
@[simp] theorem State.modMot_chn (s : State) (f : Mot → Mot) : (s.modMot f).chn = s.chn := rfl
@[simp] theorem State.modMot_wpa (s : State) (f : Mot → Mot) : (s.modMot f).wpa = s.wpa := rfl
@[simp] theorem State.modMot_svo (s : State) (f : Mot → Mot) : (s.modMot f).svo = s.svo := rfl
@[simp] theorem State.modMot_act (s : State) (f : Mot → Mot) : (s.modMot f).act = s.act := rfl
@[simp] theorem State.modMot_gov (s : State) (f : Mot → Mot) : (s.modMot f).gov = s.gov := rfl
@[simp] theorem State.modMot_ord (s : State) (f : Mot → Mot) : (s.modMot f).ord = s.ord := rfl
@[simp] theorem State.modMot_lnt (s : State) (f : Mot → Mot) : (s.modMot f).lnt = s.lnt := rfl
@[simp] theorem State.modMot_mem (s : State) (f : Mot → Mot) : (s.modMot f).mem = s.mem := rfl
@[simp] theorem State.modMot_buf (s : State) (f : Mot → Mot) : (s.modMot f).buf = s.buf := rfl
@[simp] theorem State.modMot_cellq (s : State) (f : Mot → Mot) : (s.modMot f).cellq = s.cellq := rfl
@[simp] theorem State.modMot_hif (s : State) (f : Mot → Mot) : (s.modMot f).hif = s.hif := rfl
@[simp] theorem State.modMot_ctx (s : State) (f : Mot → Mot) : (s.modMot f).ctx = s.ctx := rfl
@[simp] theorem State.modMot_fw (s : State) (f : Mot → Mot) : (s.modMot f).fw = s.fw := rfl
@[simp] theorem State.modMot_jub (s : State) (f : Mot → Mot) : (s.modMot f).jub = s.jub := rfl
@[simp] theorem State.modMot_vgl (s : State) (f : Mot → Mot) : (s.modMot f).vgl = s.vgl := rfl
@[simp] theorem State.modMot_pwr (s : State) (f : Mot → Mot) : (s.modMot f).pwr = s.pwr := rfl
@[simp] theorem State.modMot_clk (s : State) (f : Mot → Mot) : (s.modMot f).clk = s.clk := rfl
@[simp] theorem State.modMot_fls (s : State) (f : Mot → Mot) : (s.modMot f).fls = s.fls := rfl
@[simp] theorem State.modMot_sec (s : State) (f : Mot → Mot) : (s.modMot f).sec = s.sec := rfl
@[simp] theorem State.modMot_dbg (s : State) (f : Mot → Mot) : (s.modMot f).dbg = s.dbg := rfl
@[simp] theorem State.modMot_cal (s : State) (f : Mot → Mot) : (s.modMot f).cal = s.cal := rfl
@[simp] theorem State.modMot_alm (s : State) (f : Mot → Mot) : (s.modMot f).alm = s.alm := rfl
@[simp] theorem State.modMot_mgt (s : State) (f : Mot → Mot) : (s.modMot f).mgt = s.mgt := rfl
@[simp] theorem State.modMot_out (s : State) (f : Mot → Mot) : (s.modMot f).out = s.out := rfl
@[simp] theorem State.modMot_free (s : State) (f : Mot → Mot) : (s.modMot f).free = s.free := rfl
@[simp] theorem State.modMot_pending (s : State) (f : Mot → Mot) : (s.modMot f).pending = s.pending := rfl

@[simp] theorem State.setLline_regs (s : State) (k : Nat) (l : LLine) : (s.setLline k l).regs = s.regs := rfl
@[simp] theorem State.setLline_groups (s : State) (k : Nat) (l : LLine) : (s.setLline k l).groups = s.groups := rfl
@[simp] theorem State.setLline_ulk (s : State) (k : Nat) (l : LLine) : (s.setLline k l).ulk = s.ulk := rfl
@[simp] theorem State.setLline_ltime (s : State) (k : Nat) (l : LLine) : (s.setLline k l).ltime = s.ltime := rfl
@[simp] theorem State.setLline_chn (s : State) (k : Nat) (l : LLine) : (s.setLline k l).chn = s.chn := rfl
@[simp] theorem State.setLline_wpa (s : State) (k : Nat) (l : LLine) : (s.setLline k l).wpa = s.wpa := rfl
@[simp] theorem State.setLline_svo (s : State) (k : Nat) (l : LLine) : (s.setLline k l).svo = s.svo := rfl
@[simp] theorem State.setLline_act (s : State) (k : Nat) (l : LLine) : (s.setLline k l).act = s.act := rfl
@[simp] theorem State.setLline_gov (s : State) (k : Nat) (l : LLine) : (s.setLline k l).gov = s.gov := rfl
@[simp] theorem State.setLline_mot (s : State) (k : Nat) (l : LLine) : (s.setLline k l).mot = s.mot := rfl
@[simp] theorem State.setLline_ord (s : State) (k : Nat) (l : LLine) : (s.setLline k l).ord = s.ord := rfl
@[simp] theorem State.setLline_mem (s : State) (k : Nat) (l : LLine) : (s.setLline k l).mem = s.mem := rfl
@[simp] theorem State.setLline_buf (s : State) (k : Nat) (l : LLine) : (s.setLline k l).buf = s.buf := rfl
@[simp] theorem State.setLline_cellq (s : State) (k : Nat) (l : LLine) : (s.setLline k l).cellq = s.cellq := rfl
@[simp] theorem State.setLline_hif (s : State) (k : Nat) (l : LLine) : (s.setLline k l).hif = s.hif := rfl
@[simp] theorem State.setLline_ctx (s : State) (k : Nat) (l : LLine) : (s.setLline k l).ctx = s.ctx := rfl
@[simp] theorem State.setLline_fw (s : State) (k : Nat) (l : LLine) : (s.setLline k l).fw = s.fw := rfl
@[simp] theorem State.setLline_jub (s : State) (k : Nat) (l : LLine) : (s.setLline k l).jub = s.jub := rfl
@[simp] theorem State.setLline_vgl (s : State) (k : Nat) (l : LLine) : (s.setLline k l).vgl = s.vgl := rfl
@[simp] theorem State.setLline_pwr (s : State) (k : Nat) (l : LLine) : (s.setLline k l).pwr = s.pwr := rfl
@[simp] theorem State.setLline_clk (s : State) (k : Nat) (l : LLine) : (s.setLline k l).clk = s.clk := rfl
@[simp] theorem State.setLline_fls (s : State) (k : Nat) (l : LLine) : (s.setLline k l).fls = s.fls := rfl
@[simp] theorem State.setLline_sec (s : State) (k : Nat) (l : LLine) : (s.setLline k l).sec = s.sec := rfl
@[simp] theorem State.setLline_dbg (s : State) (k : Nat) (l : LLine) : (s.setLline k l).dbg = s.dbg := rfl
@[simp] theorem State.setLline_cal (s : State) (k : Nat) (l : LLine) : (s.setLline k l).cal = s.cal := rfl
@[simp] theorem State.setLline_alm (s : State) (k : Nat) (l : LLine) : (s.setLline k l).alm = s.alm := rfl
@[simp] theorem State.setLline_mgt (s : State) (k : Nat) (l : LLine) : (s.setLline k l).mgt = s.mgt := rfl
@[simp] theorem State.setLline_out (s : State) (k : Nat) (l : LLine) : (s.setLline k l).out = s.out := rfl
@[simp] theorem State.setLline_free (s : State) (k : Nat) (l : LLine) : (s.setLline k l).free = s.free := rfl
@[simp] theorem State.setLline_pending (s : State) (k : Nat) (l : LLine) : (s.setLline k l).pending = s.pending := rfl

@[simp] theorem State.setUnit_regs (s : State) (k : Nat) (u : MemUnit) : (s.setUnit k u).regs = s.regs := rfl
@[simp] theorem State.setUnit_groups (s : State) (k : Nat) (u : MemUnit) : (s.setUnit k u).groups = s.groups := rfl
@[simp] theorem State.setUnit_ulk (s : State) (k : Nat) (u : MemUnit) : (s.setUnit k u).ulk = s.ulk := rfl
@[simp] theorem State.setUnit_ltime (s : State) (k : Nat) (u : MemUnit) : (s.setUnit k u).ltime = s.ltime := rfl
@[simp] theorem State.setUnit_chn (s : State) (k : Nat) (u : MemUnit) : (s.setUnit k u).chn = s.chn := rfl
@[simp] theorem State.setUnit_wpa (s : State) (k : Nat) (u : MemUnit) : (s.setUnit k u).wpa = s.wpa := rfl
@[simp] theorem State.setUnit_svo (s : State) (k : Nat) (u : MemUnit) : (s.setUnit k u).svo = s.svo := rfl
@[simp] theorem State.setUnit_act (s : State) (k : Nat) (u : MemUnit) : (s.setUnit k u).act = s.act := rfl
@[simp] theorem State.setUnit_gov (s : State) (k : Nat) (u : MemUnit) : (s.setUnit k u).gov = s.gov := rfl
@[simp] theorem State.setUnit_mot (s : State) (k : Nat) (u : MemUnit) : (s.setUnit k u).mot = s.mot := rfl
@[simp] theorem State.setUnit_ord (s : State) (k : Nat) (u : MemUnit) : (s.setUnit k u).ord = s.ord := rfl
@[simp] theorem State.setUnit_lnt (s : State) (k : Nat) (u : MemUnit) : (s.setUnit k u).lnt = s.lnt := rfl
@[simp] theorem State.setUnit_buf (s : State) (k : Nat) (u : MemUnit) : (s.setUnit k u).buf = s.buf := rfl
@[simp] theorem State.setUnit_cellq (s : State) (k : Nat) (u : MemUnit) : (s.setUnit k u).cellq = s.cellq := rfl
@[simp] theorem State.setUnit_hif (s : State) (k : Nat) (u : MemUnit) : (s.setUnit k u).hif = s.hif := rfl
@[simp] theorem State.setUnit_ctx (s : State) (k : Nat) (u : MemUnit) : (s.setUnit k u).ctx = s.ctx := rfl
@[simp] theorem State.setUnit_fw (s : State) (k : Nat) (u : MemUnit) : (s.setUnit k u).fw = s.fw := rfl
@[simp] theorem State.setUnit_jub (s : State) (k : Nat) (u : MemUnit) : (s.setUnit k u).jub = s.jub := rfl
@[simp] theorem State.setUnit_vgl (s : State) (k : Nat) (u : MemUnit) : (s.setUnit k u).vgl = s.vgl := rfl
@[simp] theorem State.setUnit_pwr (s : State) (k : Nat) (u : MemUnit) : (s.setUnit k u).pwr = s.pwr := rfl
@[simp] theorem State.setUnit_clk (s : State) (k : Nat) (u : MemUnit) : (s.setUnit k u).clk = s.clk := rfl
@[simp] theorem State.setUnit_fls (s : State) (k : Nat) (u : MemUnit) : (s.setUnit k u).fls = s.fls := rfl
@[simp] theorem State.setUnit_sec (s : State) (k : Nat) (u : MemUnit) : (s.setUnit k u).sec = s.sec := rfl
@[simp] theorem State.setUnit_dbg (s : State) (k : Nat) (u : MemUnit) : (s.setUnit k u).dbg = s.dbg := rfl
@[simp] theorem State.setUnit_cal (s : State) (k : Nat) (u : MemUnit) : (s.setUnit k u).cal = s.cal := rfl
@[simp] theorem State.setUnit_alm (s : State) (k : Nat) (u : MemUnit) : (s.setUnit k u).alm = s.alm := rfl
@[simp] theorem State.setUnit_mgt (s : State) (k : Nat) (u : MemUnit) : (s.setUnit k u).mgt = s.mgt := rfl
@[simp] theorem State.setUnit_out (s : State) (k : Nat) (u : MemUnit) : (s.setUnit k u).out = s.out := rfl
@[simp] theorem State.setUnit_free (s : State) (k : Nat) (u : MemUnit) : (s.setUnit k u).free = s.free := rfl
@[simp] theorem State.setUnit_pending (s : State) (k : Nat) (u : MemUnit) : (s.setUnit k u).pending = s.pending := rfl

@[simp] theorem State.setHif_regs (s : State) (p : Nat) (x : HifPort) : (s.setHif p x).regs = s.regs := rfl
@[simp] theorem State.setHif_groups (s : State) (p : Nat) (x : HifPort) : (s.setHif p x).groups = s.groups := rfl
@[simp] theorem State.setHif_ulk (s : State) (p : Nat) (x : HifPort) : (s.setHif p x).ulk = s.ulk := rfl
@[simp] theorem State.setHif_ltime (s : State) (p : Nat) (x : HifPort) : (s.setHif p x).ltime = s.ltime := rfl
@[simp] theorem State.setHif_chn (s : State) (p : Nat) (x : HifPort) : (s.setHif p x).chn = s.chn := rfl
@[simp] theorem State.setHif_wpa (s : State) (p : Nat) (x : HifPort) : (s.setHif p x).wpa = s.wpa := rfl
@[simp] theorem State.setHif_svo (s : State) (p : Nat) (x : HifPort) : (s.setHif p x).svo = s.svo := rfl
@[simp] theorem State.setHif_act (s : State) (p : Nat) (x : HifPort) : (s.setHif p x).act = s.act := rfl
@[simp] theorem State.setHif_gov (s : State) (p : Nat) (x : HifPort) : (s.setHif p x).gov = s.gov := rfl
@[simp] theorem State.setHif_mot (s : State) (p : Nat) (x : HifPort) : (s.setHif p x).mot = s.mot := rfl
@[simp] theorem State.setHif_ord (s : State) (p : Nat) (x : HifPort) : (s.setHif p x).ord = s.ord := rfl
@[simp] theorem State.setHif_lnt (s : State) (p : Nat) (x : HifPort) : (s.setHif p x).lnt = s.lnt := rfl
@[simp] theorem State.setHif_mem (s : State) (p : Nat) (x : HifPort) : (s.setHif p x).mem = s.mem := rfl
@[simp] theorem State.setHif_buf (s : State) (p : Nat) (x : HifPort) : (s.setHif p x).buf = s.buf := rfl
@[simp] theorem State.setHif_cellq (s : State) (p : Nat) (x : HifPort) : (s.setHif p x).cellq = s.cellq := rfl
@[simp] theorem State.setHif_ctx (s : State) (p : Nat) (x : HifPort) : (s.setHif p x).ctx = s.ctx := rfl
@[simp] theorem State.setHif_fw (s : State) (p : Nat) (x : HifPort) : (s.setHif p x).fw = s.fw := rfl
@[simp] theorem State.setHif_jub (s : State) (p : Nat) (x : HifPort) : (s.setHif p x).jub = s.jub := rfl
@[simp] theorem State.setHif_vgl (s : State) (p : Nat) (x : HifPort) : (s.setHif p x).vgl = s.vgl := rfl
@[simp] theorem State.setHif_pwr (s : State) (p : Nat) (x : HifPort) : (s.setHif p x).pwr = s.pwr := rfl
@[simp] theorem State.setHif_clk (s : State) (p : Nat) (x : HifPort) : (s.setHif p x).clk = s.clk := rfl
@[simp] theorem State.setHif_fls (s : State) (p : Nat) (x : HifPort) : (s.setHif p x).fls = s.fls := rfl
@[simp] theorem State.setHif_sec (s : State) (p : Nat) (x : HifPort) : (s.setHif p x).sec = s.sec := rfl
@[simp] theorem State.setHif_dbg (s : State) (p : Nat) (x : HifPort) : (s.setHif p x).dbg = s.dbg := rfl
@[simp] theorem State.setHif_cal (s : State) (p : Nat) (x : HifPort) : (s.setHif p x).cal = s.cal := rfl
@[simp] theorem State.setHif_alm (s : State) (p : Nat) (x : HifPort) : (s.setHif p x).alm = s.alm := rfl
@[simp] theorem State.setHif_mgt (s : State) (p : Nat) (x : HifPort) : (s.setHif p x).mgt = s.mgt := rfl
@[simp] theorem State.setHif_out (s : State) (p : Nat) (x : HifPort) : (s.setHif p x).out = s.out := rfl
@[simp] theorem State.setHif_free (s : State) (p : Nat) (x : HifPort) : (s.setHif p x).free = s.free := rfl
@[simp] theorem State.setHif_pending (s : State) (p : Nat) (x : HifPort) : (s.setHif p x).pending = s.pending := rfl

@[simp] theorem State.setCtx_regs (s : State) (c : Nat) (x : Option Ctx) : (s.setCtx c x).regs = s.regs := rfl
@[simp] theorem State.setCtx_groups (s : State) (c : Nat) (x : Option Ctx) : (s.setCtx c x).groups = s.groups := rfl
@[simp] theorem State.setCtx_ulk (s : State) (c : Nat) (x : Option Ctx) : (s.setCtx c x).ulk = s.ulk := rfl
@[simp] theorem State.setCtx_ltime (s : State) (c : Nat) (x : Option Ctx) : (s.setCtx c x).ltime = s.ltime := rfl
@[simp] theorem State.setCtx_chn (s : State) (c : Nat) (x : Option Ctx) : (s.setCtx c x).chn = s.chn := rfl
@[simp] theorem State.setCtx_wpa (s : State) (c : Nat) (x : Option Ctx) : (s.setCtx c x).wpa = s.wpa := rfl
@[simp] theorem State.setCtx_svo (s : State) (c : Nat) (x : Option Ctx) : (s.setCtx c x).svo = s.svo := rfl
@[simp] theorem State.setCtx_act (s : State) (c : Nat) (x : Option Ctx) : (s.setCtx c x).act = s.act := rfl
@[simp] theorem State.setCtx_gov (s : State) (c : Nat) (x : Option Ctx) : (s.setCtx c x).gov = s.gov := rfl
@[simp] theorem State.setCtx_mot (s : State) (c : Nat) (x : Option Ctx) : (s.setCtx c x).mot = s.mot := rfl
@[simp] theorem State.setCtx_ord (s : State) (c : Nat) (x : Option Ctx) : (s.setCtx c x).ord = s.ord := rfl
@[simp] theorem State.setCtx_lnt (s : State) (c : Nat) (x : Option Ctx) : (s.setCtx c x).lnt = s.lnt := rfl
@[simp] theorem State.setCtx_mem (s : State) (c : Nat) (x : Option Ctx) : (s.setCtx c x).mem = s.mem := rfl
@[simp] theorem State.setCtx_buf (s : State) (c : Nat) (x : Option Ctx) : (s.setCtx c x).buf = s.buf := rfl
@[simp] theorem State.setCtx_cellq (s : State) (c : Nat) (x : Option Ctx) : (s.setCtx c x).cellq = s.cellq := rfl
@[simp] theorem State.setCtx_hif (s : State) (c : Nat) (x : Option Ctx) : (s.setCtx c x).hif = s.hif := rfl
@[simp] theorem State.setCtx_fw (s : State) (c : Nat) (x : Option Ctx) : (s.setCtx c x).fw = s.fw := rfl
@[simp] theorem State.setCtx_jub (s : State) (c : Nat) (x : Option Ctx) : (s.setCtx c x).jub = s.jub := rfl
@[simp] theorem State.setCtx_vgl (s : State) (c : Nat) (x : Option Ctx) : (s.setCtx c x).vgl = s.vgl := rfl
@[simp] theorem State.setCtx_pwr (s : State) (c : Nat) (x : Option Ctx) : (s.setCtx c x).pwr = s.pwr := rfl
@[simp] theorem State.setCtx_clk (s : State) (c : Nat) (x : Option Ctx) : (s.setCtx c x).clk = s.clk := rfl
@[simp] theorem State.setCtx_fls (s : State) (c : Nat) (x : Option Ctx) : (s.setCtx c x).fls = s.fls := rfl
@[simp] theorem State.setCtx_sec (s : State) (c : Nat) (x : Option Ctx) : (s.setCtx c x).sec = s.sec := rfl
@[simp] theorem State.setCtx_dbg (s : State) (c : Nat) (x : Option Ctx) : (s.setCtx c x).dbg = s.dbg := rfl
@[simp] theorem State.setCtx_cal (s : State) (c : Nat) (x : Option Ctx) : (s.setCtx c x).cal = s.cal := rfl
@[simp] theorem State.setCtx_alm (s : State) (c : Nat) (x : Option Ctx) : (s.setCtx c x).alm = s.alm := rfl
@[simp] theorem State.setCtx_mgt (s : State) (c : Nat) (x : Option Ctx) : (s.setCtx c x).mgt = s.mgt := rfl
@[simp] theorem State.setCtx_out (s : State) (c : Nat) (x : Option Ctx) : (s.setCtx c x).out = s.out := rfl
@[simp] theorem State.setCtx_free (s : State) (c : Nat) (x : Option Ctx) : (s.setCtx c x).free = s.free := rfl
@[simp] theorem State.setCtx_pending (s : State) (c : Nat) (x : Option Ctx) : (s.setCtx c x).pending = s.pending := rfl

@[simp] theorem State.modFw_regs (s : State) (f : Fw → Fw) : (s.modFw f).regs = s.regs := rfl
@[simp] theorem State.modFw_groups (s : State) (f : Fw → Fw) : (s.modFw f).groups = s.groups := rfl
@[simp] theorem State.modFw_ulk (s : State) (f : Fw → Fw) : (s.modFw f).ulk = s.ulk := rfl
@[simp] theorem State.modFw_ltime (s : State) (f : Fw → Fw) : (s.modFw f).ltime = s.ltime := rfl
@[simp] theorem State.modFw_chn (s : State) (f : Fw → Fw) : (s.modFw f).chn = s.chn := rfl
@[simp] theorem State.modFw_wpa (s : State) (f : Fw → Fw) : (s.modFw f).wpa = s.wpa := rfl
@[simp] theorem State.modFw_svo (s : State) (f : Fw → Fw) : (s.modFw f).svo = s.svo := rfl
@[simp] theorem State.modFw_act (s : State) (f : Fw → Fw) : (s.modFw f).act = s.act := rfl
@[simp] theorem State.modFw_gov (s : State) (f : Fw → Fw) : (s.modFw f).gov = s.gov := rfl
@[simp] theorem State.modFw_mot (s : State) (f : Fw → Fw) : (s.modFw f).mot = s.mot := rfl
@[simp] theorem State.modFw_ord (s : State) (f : Fw → Fw) : (s.modFw f).ord = s.ord := rfl
@[simp] theorem State.modFw_lnt (s : State) (f : Fw → Fw) : (s.modFw f).lnt = s.lnt := rfl
@[simp] theorem State.modFw_mem (s : State) (f : Fw → Fw) : (s.modFw f).mem = s.mem := rfl
@[simp] theorem State.modFw_buf (s : State) (f : Fw → Fw) : (s.modFw f).buf = s.buf := rfl
@[simp] theorem State.modFw_cellq (s : State) (f : Fw → Fw) : (s.modFw f).cellq = s.cellq := rfl
@[simp] theorem State.modFw_hif (s : State) (f : Fw → Fw) : (s.modFw f).hif = s.hif := rfl
@[simp] theorem State.modFw_ctx (s : State) (f : Fw → Fw) : (s.modFw f).ctx = s.ctx := rfl
@[simp] theorem State.modFw_jub (s : State) (f : Fw → Fw) : (s.modFw f).jub = s.jub := rfl
@[simp] theorem State.modFw_vgl (s : State) (f : Fw → Fw) : (s.modFw f).vgl = s.vgl := rfl
@[simp] theorem State.modFw_pwr (s : State) (f : Fw → Fw) : (s.modFw f).pwr = s.pwr := rfl
@[simp] theorem State.modFw_clk (s : State) (f : Fw → Fw) : (s.modFw f).clk = s.clk := rfl
@[simp] theorem State.modFw_fls (s : State) (f : Fw → Fw) : (s.modFw f).fls = s.fls := rfl
@[simp] theorem State.modFw_sec (s : State) (f : Fw → Fw) : (s.modFw f).sec = s.sec := rfl
@[simp] theorem State.modFw_dbg (s : State) (f : Fw → Fw) : (s.modFw f).dbg = s.dbg := rfl
@[simp] theorem State.modFw_cal (s : State) (f : Fw → Fw) : (s.modFw f).cal = s.cal := rfl
@[simp] theorem State.modFw_alm (s : State) (f : Fw → Fw) : (s.modFw f).alm = s.alm := rfl
@[simp] theorem State.modFw_mgt (s : State) (f : Fw → Fw) : (s.modFw f).mgt = s.mgt := rfl
@[simp] theorem State.modFw_out (s : State) (f : Fw → Fw) : (s.modFw f).out = s.out := rfl
@[simp] theorem State.modFw_free (s : State) (f : Fw → Fw) : (s.modFw f).free = s.free := rfl
@[simp] theorem State.modFw_pending (s : State) (f : Fw → Fw) : (s.modFw f).pending = s.pending := rfl

@[simp] theorem State.setZone_regs (s : State) (z : Nat) (x : Zone) : (s.setZone z x).regs = s.regs := rfl
@[simp] theorem State.setZone_groups (s : State) (z : Nat) (x : Zone) : (s.setZone z x).groups = s.groups := rfl
@[simp] theorem State.setZone_ulk (s : State) (z : Nat) (x : Zone) : (s.setZone z x).ulk = s.ulk := rfl
@[simp] theorem State.setZone_ltime (s : State) (z : Nat) (x : Zone) : (s.setZone z x).ltime = s.ltime := rfl
@[simp] theorem State.setZone_chn (s : State) (z : Nat) (x : Zone) : (s.setZone z x).chn = s.chn := rfl
@[simp] theorem State.setZone_wpa (s : State) (z : Nat) (x : Zone) : (s.setZone z x).wpa = s.wpa := rfl
@[simp] theorem State.setZone_svo (s : State) (z : Nat) (x : Zone) : (s.setZone z x).svo = s.svo := rfl
@[simp] theorem State.setZone_act (s : State) (z : Nat) (x : Zone) : (s.setZone z x).act = s.act := rfl
@[simp] theorem State.setZone_gov (s : State) (z : Nat) (x : Zone) : (s.setZone z x).gov = s.gov := rfl
@[simp] theorem State.setZone_mot (s : State) (z : Nat) (x : Zone) : (s.setZone z x).mot = s.mot := rfl
@[simp] theorem State.setZone_ord (s : State) (z : Nat) (x : Zone) : (s.setZone z x).ord = s.ord := rfl
@[simp] theorem State.setZone_lnt (s : State) (z : Nat) (x : Zone) : (s.setZone z x).lnt = s.lnt := rfl
@[simp] theorem State.setZone_mem (s : State) (z : Nat) (x : Zone) : (s.setZone z x).mem = s.mem := rfl
@[simp] theorem State.setZone_buf (s : State) (z : Nat) (x : Zone) : (s.setZone z x).buf = s.buf := rfl
@[simp] theorem State.setZone_cellq (s : State) (z : Nat) (x : Zone) : (s.setZone z x).cellq = s.cellq := rfl
@[simp] theorem State.setZone_hif (s : State) (z : Nat) (x : Zone) : (s.setZone z x).hif = s.hif := rfl
@[simp] theorem State.setZone_ctx (s : State) (z : Nat) (x : Zone) : (s.setZone z x).ctx = s.ctx := rfl
@[simp] theorem State.setZone_jub (s : State) (z : Nat) (x : Zone) : (s.setZone z x).jub = s.jub := rfl
@[simp] theorem State.setZone_vgl (s : State) (z : Nat) (x : Zone) : (s.setZone z x).vgl = s.vgl := rfl
@[simp] theorem State.setZone_pwr (s : State) (z : Nat) (x : Zone) : (s.setZone z x).pwr = s.pwr := rfl
@[simp] theorem State.setZone_clk (s : State) (z : Nat) (x : Zone) : (s.setZone z x).clk = s.clk := rfl
@[simp] theorem State.setZone_fls (s : State) (z : Nat) (x : Zone) : (s.setZone z x).fls = s.fls := rfl
@[simp] theorem State.setZone_sec (s : State) (z : Nat) (x : Zone) : (s.setZone z x).sec = s.sec := rfl
@[simp] theorem State.setZone_dbg (s : State) (z : Nat) (x : Zone) : (s.setZone z x).dbg = s.dbg := rfl
@[simp] theorem State.setZone_cal (s : State) (z : Nat) (x : Zone) : (s.setZone z x).cal = s.cal := rfl
@[simp] theorem State.setZone_alm (s : State) (z : Nat) (x : Zone) : (s.setZone z x).alm = s.alm := rfl
@[simp] theorem State.setZone_mgt (s : State) (z : Nat) (x : Zone) : (s.setZone z x).mgt = s.mgt := rfl
@[simp] theorem State.setZone_out (s : State) (z : Nat) (x : Zone) : (s.setZone z x).out = s.out := rfl
@[simp] theorem State.setZone_free (s : State) (z : Nat) (x : Zone) : (s.setZone z x).free = s.free := rfl
@[simp] theorem State.setZone_pending (s : State) (z : Nat) (x : Zone) : (s.setZone z x).pending = s.pending := rfl

@[simp] theorem State.setRing_regs (s : State) (a : Nat) (r : Ring) : (s.setRing a r).regs = s.regs := rfl
@[simp] theorem State.setRing_groups (s : State) (a : Nat) (r : Ring) : (s.setRing a r).groups = s.groups := rfl
@[simp] theorem State.setRing_ulk (s : State) (a : Nat) (r : Ring) : (s.setRing a r).ulk = s.ulk := rfl
@[simp] theorem State.setRing_ltime (s : State) (a : Nat) (r : Ring) : (s.setRing a r).ltime = s.ltime := rfl
@[simp] theorem State.setRing_chn (s : State) (a : Nat) (r : Ring) : (s.setRing a r).chn = s.chn := rfl
@[simp] theorem State.setRing_wpa (s : State) (a : Nat) (r : Ring) : (s.setRing a r).wpa = s.wpa := rfl
@[simp] theorem State.setRing_svo (s : State) (a : Nat) (r : Ring) : (s.setRing a r).svo = s.svo := rfl
@[simp] theorem State.setRing_act (s : State) (a : Nat) (r : Ring) : (s.setRing a r).act = s.act := rfl
@[simp] theorem State.setRing_gov (s : State) (a : Nat) (r : Ring) : (s.setRing a r).gov = s.gov := rfl
@[simp] theorem State.setRing_mot (s : State) (a : Nat) (r : Ring) : (s.setRing a r).mot = s.mot := rfl
@[simp] theorem State.setRing_ord (s : State) (a : Nat) (r : Ring) : (s.setRing a r).ord = s.ord := rfl
@[simp] theorem State.setRing_lnt (s : State) (a : Nat) (r : Ring) : (s.setRing a r).lnt = s.lnt := rfl
@[simp] theorem State.setRing_mem (s : State) (a : Nat) (r : Ring) : (s.setRing a r).mem = s.mem := rfl
@[simp] theorem State.setRing_buf (s : State) (a : Nat) (r : Ring) : (s.setRing a r).buf = s.buf := rfl
@[simp] theorem State.setRing_cellq (s : State) (a : Nat) (r : Ring) : (s.setRing a r).cellq = s.cellq := rfl
@[simp] theorem State.setRing_hif (s : State) (a : Nat) (r : Ring) : (s.setRing a r).hif = s.hif := rfl
@[simp] theorem State.setRing_ctx (s : State) (a : Nat) (r : Ring) : (s.setRing a r).ctx = s.ctx := rfl
@[simp] theorem State.setRing_jub (s : State) (a : Nat) (r : Ring) : (s.setRing a r).jub = s.jub := rfl
@[simp] theorem State.setRing_vgl (s : State) (a : Nat) (r : Ring) : (s.setRing a r).vgl = s.vgl := rfl
@[simp] theorem State.setRing_pwr (s : State) (a : Nat) (r : Ring) : (s.setRing a r).pwr = s.pwr := rfl
@[simp] theorem State.setRing_clk (s : State) (a : Nat) (r : Ring) : (s.setRing a r).clk = s.clk := rfl
@[simp] theorem State.setRing_fls (s : State) (a : Nat) (r : Ring) : (s.setRing a r).fls = s.fls := rfl
@[simp] theorem State.setRing_sec (s : State) (a : Nat) (r : Ring) : (s.setRing a r).sec = s.sec := rfl
@[simp] theorem State.setRing_dbg (s : State) (a : Nat) (r : Ring) : (s.setRing a r).dbg = s.dbg := rfl
@[simp] theorem State.setRing_cal (s : State) (a : Nat) (r : Ring) : (s.setRing a r).cal = s.cal := rfl
@[simp] theorem State.setRing_alm (s : State) (a : Nat) (r : Ring) : (s.setRing a r).alm = s.alm := rfl
@[simp] theorem State.setRing_mgt (s : State) (a : Nat) (r : Ring) : (s.setRing a r).mgt = s.mgt := rfl
@[simp] theorem State.setRing_out (s : State) (a : Nat) (r : Ring) : (s.setRing a r).out = s.out := rfl
@[simp] theorem State.setRing_free (s : State) (a : Nat) (r : Ring) : (s.setRing a r).free = s.free := rfl
@[simp] theorem State.setRing_pending (s : State) (a : Nat) (r : Ring) : (s.setRing a r).pending = s.pending := rfl

@[simp] theorem State.setJub_regs (s : State) (k : Nat) (l : JubLink) : (s.setJub k l).regs = s.regs := rfl
@[simp] theorem State.setJub_groups (s : State) (k : Nat) (l : JubLink) : (s.setJub k l).groups = s.groups := rfl
@[simp] theorem State.setJub_ulk (s : State) (k : Nat) (l : JubLink) : (s.setJub k l).ulk = s.ulk := rfl
@[simp] theorem State.setJub_ltime (s : State) (k : Nat) (l : JubLink) : (s.setJub k l).ltime = s.ltime := rfl
@[simp] theorem State.setJub_chn (s : State) (k : Nat) (l : JubLink) : (s.setJub k l).chn = s.chn := rfl
@[simp] theorem State.setJub_wpa (s : State) (k : Nat) (l : JubLink) : (s.setJub k l).wpa = s.wpa := rfl
@[simp] theorem State.setJub_svo (s : State) (k : Nat) (l : JubLink) : (s.setJub k l).svo = s.svo := rfl
@[simp] theorem State.setJub_act (s : State) (k : Nat) (l : JubLink) : (s.setJub k l).act = s.act := rfl
@[simp] theorem State.setJub_gov (s : State) (k : Nat) (l : JubLink) : (s.setJub k l).gov = s.gov := rfl
@[simp] theorem State.setJub_mot (s : State) (k : Nat) (l : JubLink) : (s.setJub k l).mot = s.mot := rfl
@[simp] theorem State.setJub_ord (s : State) (k : Nat) (l : JubLink) : (s.setJub k l).ord = s.ord := rfl
@[simp] theorem State.setJub_lnt (s : State) (k : Nat) (l : JubLink) : (s.setJub k l).lnt = s.lnt := rfl
@[simp] theorem State.setJub_mem (s : State) (k : Nat) (l : JubLink) : (s.setJub k l).mem = s.mem := rfl
@[simp] theorem State.setJub_buf (s : State) (k : Nat) (l : JubLink) : (s.setJub k l).buf = s.buf := rfl
@[simp] theorem State.setJub_cellq (s : State) (k : Nat) (l : JubLink) : (s.setJub k l).cellq = s.cellq := rfl
@[simp] theorem State.setJub_hif (s : State) (k : Nat) (l : JubLink) : (s.setJub k l).hif = s.hif := rfl
@[simp] theorem State.setJub_ctx (s : State) (k : Nat) (l : JubLink) : (s.setJub k l).ctx = s.ctx := rfl
@[simp] theorem State.setJub_fw (s : State) (k : Nat) (l : JubLink) : (s.setJub k l).fw = s.fw := rfl
@[simp] theorem State.setJub_vgl (s : State) (k : Nat) (l : JubLink) : (s.setJub k l).vgl = s.vgl := rfl
@[simp] theorem State.setJub_pwr (s : State) (k : Nat) (l : JubLink) : (s.setJub k l).pwr = s.pwr := rfl
@[simp] theorem State.setJub_clk (s : State) (k : Nat) (l : JubLink) : (s.setJub k l).clk = s.clk := rfl
@[simp] theorem State.setJub_fls (s : State) (k : Nat) (l : JubLink) : (s.setJub k l).fls = s.fls := rfl
@[simp] theorem State.setJub_sec (s : State) (k : Nat) (l : JubLink) : (s.setJub k l).sec = s.sec := rfl
@[simp] theorem State.setJub_dbg (s : State) (k : Nat) (l : JubLink) : (s.setJub k l).dbg = s.dbg := rfl
@[simp] theorem State.setJub_cal (s : State) (k : Nat) (l : JubLink) : (s.setJub k l).cal = s.cal := rfl
@[simp] theorem State.setJub_alm (s : State) (k : Nat) (l : JubLink) : (s.setJub k l).alm = s.alm := rfl
@[simp] theorem State.setJub_mgt (s : State) (k : Nat) (l : JubLink) : (s.setJub k l).mgt = s.mgt := rfl
@[simp] theorem State.setJub_out (s : State) (k : Nat) (l : JubLink) : (s.setJub k l).out = s.out := rfl
@[simp] theorem State.setJub_free (s : State) (k : Nat) (l : JubLink) : (s.setJub k l).free = s.free := rfl
@[simp] theorem State.setJub_pending (s : State) (k : Nat) (l : JubLink) : (s.setJub k l).pending = s.pending := rfl

@[simp] theorem State.modVgl_regs (s : State) (f : Vgl → Vgl) : (s.modVgl f).regs = s.regs := rfl
@[simp] theorem State.modVgl_groups (s : State) (f : Vgl → Vgl) : (s.modVgl f).groups = s.groups := rfl
@[simp] theorem State.modVgl_ulk (s : State) (f : Vgl → Vgl) : (s.modVgl f).ulk = s.ulk := rfl
@[simp] theorem State.modVgl_ltime (s : State) (f : Vgl → Vgl) : (s.modVgl f).ltime = s.ltime := rfl
@[simp] theorem State.modVgl_chn (s : State) (f : Vgl → Vgl) : (s.modVgl f).chn = s.chn := rfl
@[simp] theorem State.modVgl_wpa (s : State) (f : Vgl → Vgl) : (s.modVgl f).wpa = s.wpa := rfl
@[simp] theorem State.modVgl_svo (s : State) (f : Vgl → Vgl) : (s.modVgl f).svo = s.svo := rfl
@[simp] theorem State.modVgl_act (s : State) (f : Vgl → Vgl) : (s.modVgl f).act = s.act := rfl
@[simp] theorem State.modVgl_gov (s : State) (f : Vgl → Vgl) : (s.modVgl f).gov = s.gov := rfl
@[simp] theorem State.modVgl_mot (s : State) (f : Vgl → Vgl) : (s.modVgl f).mot = s.mot := rfl
@[simp] theorem State.modVgl_ord (s : State) (f : Vgl → Vgl) : (s.modVgl f).ord = s.ord := rfl
@[simp] theorem State.modVgl_lnt (s : State) (f : Vgl → Vgl) : (s.modVgl f).lnt = s.lnt := rfl
@[simp] theorem State.modVgl_mem (s : State) (f : Vgl → Vgl) : (s.modVgl f).mem = s.mem := rfl
@[simp] theorem State.modVgl_buf (s : State) (f : Vgl → Vgl) : (s.modVgl f).buf = s.buf := rfl
@[simp] theorem State.modVgl_cellq (s : State) (f : Vgl → Vgl) : (s.modVgl f).cellq = s.cellq := rfl
@[simp] theorem State.modVgl_hif (s : State) (f : Vgl → Vgl) : (s.modVgl f).hif = s.hif := rfl
@[simp] theorem State.modVgl_ctx (s : State) (f : Vgl → Vgl) : (s.modVgl f).ctx = s.ctx := rfl
@[simp] theorem State.modVgl_fw (s : State) (f : Vgl → Vgl) : (s.modVgl f).fw = s.fw := rfl
@[simp] theorem State.modVgl_jub (s : State) (f : Vgl → Vgl) : (s.modVgl f).jub = s.jub := rfl
@[simp] theorem State.modVgl_pwr (s : State) (f : Vgl → Vgl) : (s.modVgl f).pwr = s.pwr := rfl
@[simp] theorem State.modVgl_clk (s : State) (f : Vgl → Vgl) : (s.modVgl f).clk = s.clk := rfl
@[simp] theorem State.modVgl_fls (s : State) (f : Vgl → Vgl) : (s.modVgl f).fls = s.fls := rfl
@[simp] theorem State.modVgl_sec (s : State) (f : Vgl → Vgl) : (s.modVgl f).sec = s.sec := rfl
@[simp] theorem State.modVgl_dbg (s : State) (f : Vgl → Vgl) : (s.modVgl f).dbg = s.dbg := rfl
@[simp] theorem State.modVgl_cal (s : State) (f : Vgl → Vgl) : (s.modVgl f).cal = s.cal := rfl
@[simp] theorem State.modVgl_alm (s : State) (f : Vgl → Vgl) : (s.modVgl f).alm = s.alm := rfl
@[simp] theorem State.modVgl_mgt (s : State) (f : Vgl → Vgl) : (s.modVgl f).mgt = s.mgt := rfl
@[simp] theorem State.modVgl_out (s : State) (f : Vgl → Vgl) : (s.modVgl f).out = s.out := rfl
@[simp] theorem State.modVgl_free (s : State) (f : Vgl → Vgl) : (s.modVgl f).free = s.free := rfl
@[simp] theorem State.modVgl_pending (s : State) (f : Vgl → Vgl) : (s.modVgl f).pending = s.pending := rfl

@[simp] theorem State.modPwr_regs (s : State) (f : Pwr → Pwr) : (s.modPwr f).regs = s.regs := rfl
@[simp] theorem State.modPwr_groups (s : State) (f : Pwr → Pwr) : (s.modPwr f).groups = s.groups := rfl
@[simp] theorem State.modPwr_ulk (s : State) (f : Pwr → Pwr) : (s.modPwr f).ulk = s.ulk := rfl
@[simp] theorem State.modPwr_ltime (s : State) (f : Pwr → Pwr) : (s.modPwr f).ltime = s.ltime := rfl
@[simp] theorem State.modPwr_chn (s : State) (f : Pwr → Pwr) : (s.modPwr f).chn = s.chn := rfl
@[simp] theorem State.modPwr_wpa (s : State) (f : Pwr → Pwr) : (s.modPwr f).wpa = s.wpa := rfl
@[simp] theorem State.modPwr_svo (s : State) (f : Pwr → Pwr) : (s.modPwr f).svo = s.svo := rfl
@[simp] theorem State.modPwr_act (s : State) (f : Pwr → Pwr) : (s.modPwr f).act = s.act := rfl
@[simp] theorem State.modPwr_gov (s : State) (f : Pwr → Pwr) : (s.modPwr f).gov = s.gov := rfl
@[simp] theorem State.modPwr_mot (s : State) (f : Pwr → Pwr) : (s.modPwr f).mot = s.mot := rfl
@[simp] theorem State.modPwr_ord (s : State) (f : Pwr → Pwr) : (s.modPwr f).ord = s.ord := rfl
@[simp] theorem State.modPwr_lnt (s : State) (f : Pwr → Pwr) : (s.modPwr f).lnt = s.lnt := rfl
@[simp] theorem State.modPwr_mem (s : State) (f : Pwr → Pwr) : (s.modPwr f).mem = s.mem := rfl
@[simp] theorem State.modPwr_buf (s : State) (f : Pwr → Pwr) : (s.modPwr f).buf = s.buf := rfl
@[simp] theorem State.modPwr_cellq (s : State) (f : Pwr → Pwr) : (s.modPwr f).cellq = s.cellq := rfl
@[simp] theorem State.modPwr_hif (s : State) (f : Pwr → Pwr) : (s.modPwr f).hif = s.hif := rfl
@[simp] theorem State.modPwr_ctx (s : State) (f : Pwr → Pwr) : (s.modPwr f).ctx = s.ctx := rfl
@[simp] theorem State.modPwr_fw (s : State) (f : Pwr → Pwr) : (s.modPwr f).fw = s.fw := rfl
@[simp] theorem State.modPwr_jub (s : State) (f : Pwr → Pwr) : (s.modPwr f).jub = s.jub := rfl
@[simp] theorem State.modPwr_vgl (s : State) (f : Pwr → Pwr) : (s.modPwr f).vgl = s.vgl := rfl
@[simp] theorem State.modPwr_clk (s : State) (f : Pwr → Pwr) : (s.modPwr f).clk = s.clk := rfl
@[simp] theorem State.modPwr_fls (s : State) (f : Pwr → Pwr) : (s.modPwr f).fls = s.fls := rfl
@[simp] theorem State.modPwr_sec (s : State) (f : Pwr → Pwr) : (s.modPwr f).sec = s.sec := rfl
@[simp] theorem State.modPwr_dbg (s : State) (f : Pwr → Pwr) : (s.modPwr f).dbg = s.dbg := rfl
@[simp] theorem State.modPwr_cal (s : State) (f : Pwr → Pwr) : (s.modPwr f).cal = s.cal := rfl
@[simp] theorem State.modPwr_alm (s : State) (f : Pwr → Pwr) : (s.modPwr f).alm = s.alm := rfl
@[simp] theorem State.modPwr_mgt (s : State) (f : Pwr → Pwr) : (s.modPwr f).mgt = s.mgt := rfl
@[simp] theorem State.modPwr_out (s : State) (f : Pwr → Pwr) : (s.modPwr f).out = s.out := rfl
@[simp] theorem State.modPwr_free (s : State) (f : Pwr → Pwr) : (s.modPwr f).free = s.free := rfl
@[simp] theorem State.modPwr_pending (s : State) (f : Pwr → Pwr) : (s.modPwr f).pending = s.pending := rfl

@[simp] theorem State.modClk_regs (s : State) (f : Clk → Clk) : (s.modClk f).regs = s.regs := rfl
@[simp] theorem State.modClk_groups (s : State) (f : Clk → Clk) : (s.modClk f).groups = s.groups := rfl
@[simp] theorem State.modClk_ulk (s : State) (f : Clk → Clk) : (s.modClk f).ulk = s.ulk := rfl
@[simp] theorem State.modClk_ltime (s : State) (f : Clk → Clk) : (s.modClk f).ltime = s.ltime := rfl
@[simp] theorem State.modClk_chn (s : State) (f : Clk → Clk) : (s.modClk f).chn = s.chn := rfl
@[simp] theorem State.modClk_wpa (s : State) (f : Clk → Clk) : (s.modClk f).wpa = s.wpa := rfl
@[simp] theorem State.modClk_svo (s : State) (f : Clk → Clk) : (s.modClk f).svo = s.svo := rfl
@[simp] theorem State.modClk_act (s : State) (f : Clk → Clk) : (s.modClk f).act = s.act := rfl
@[simp] theorem State.modClk_gov (s : State) (f : Clk → Clk) : (s.modClk f).gov = s.gov := rfl
@[simp] theorem State.modClk_mot (s : State) (f : Clk → Clk) : (s.modClk f).mot = s.mot := rfl
@[simp] theorem State.modClk_ord (s : State) (f : Clk → Clk) : (s.modClk f).ord = s.ord := rfl
@[simp] theorem State.modClk_lnt (s : State) (f : Clk → Clk) : (s.modClk f).lnt = s.lnt := rfl
@[simp] theorem State.modClk_mem (s : State) (f : Clk → Clk) : (s.modClk f).mem = s.mem := rfl
@[simp] theorem State.modClk_buf (s : State) (f : Clk → Clk) : (s.modClk f).buf = s.buf := rfl
@[simp] theorem State.modClk_cellq (s : State) (f : Clk → Clk) : (s.modClk f).cellq = s.cellq := rfl
@[simp] theorem State.modClk_hif (s : State) (f : Clk → Clk) : (s.modClk f).hif = s.hif := rfl
@[simp] theorem State.modClk_ctx (s : State) (f : Clk → Clk) : (s.modClk f).ctx = s.ctx := rfl
@[simp] theorem State.modClk_fw (s : State) (f : Clk → Clk) : (s.modClk f).fw = s.fw := rfl
@[simp] theorem State.modClk_jub (s : State) (f : Clk → Clk) : (s.modClk f).jub = s.jub := rfl
@[simp] theorem State.modClk_vgl (s : State) (f : Clk → Clk) : (s.modClk f).vgl = s.vgl := rfl
@[simp] theorem State.modClk_pwr (s : State) (f : Clk → Clk) : (s.modClk f).pwr = s.pwr := rfl
@[simp] theorem State.modClk_fls (s : State) (f : Clk → Clk) : (s.modClk f).fls = s.fls := rfl
@[simp] theorem State.modClk_sec (s : State) (f : Clk → Clk) : (s.modClk f).sec = s.sec := rfl
@[simp] theorem State.modClk_dbg (s : State) (f : Clk → Clk) : (s.modClk f).dbg = s.dbg := rfl
@[simp] theorem State.modClk_cal (s : State) (f : Clk → Clk) : (s.modClk f).cal = s.cal := rfl
@[simp] theorem State.modClk_alm (s : State) (f : Clk → Clk) : (s.modClk f).alm = s.alm := rfl
@[simp] theorem State.modClk_mgt (s : State) (f : Clk → Clk) : (s.modClk f).mgt = s.mgt := rfl
@[simp] theorem State.modClk_out (s : State) (f : Clk → Clk) : (s.modClk f).out = s.out := rfl
@[simp] theorem State.modClk_free (s : State) (f : Clk → Clk) : (s.modClk f).free = s.free := rfl
@[simp] theorem State.modClk_pending (s : State) (f : Clk → Clk) : (s.modClk f).pending = s.pending := rfl

@[simp] theorem State.modFls_regs (s : State) (f : Fls → Fls) : (s.modFls f).regs = s.regs := rfl
@[simp] theorem State.modFls_groups (s : State) (f : Fls → Fls) : (s.modFls f).groups = s.groups := rfl
@[simp] theorem State.modFls_ulk (s : State) (f : Fls → Fls) : (s.modFls f).ulk = s.ulk := rfl
@[simp] theorem State.modFls_ltime (s : State) (f : Fls → Fls) : (s.modFls f).ltime = s.ltime := rfl
@[simp] theorem State.modFls_chn (s : State) (f : Fls → Fls) : (s.modFls f).chn = s.chn := rfl
@[simp] theorem State.modFls_wpa (s : State) (f : Fls → Fls) : (s.modFls f).wpa = s.wpa := rfl
@[simp] theorem State.modFls_svo (s : State) (f : Fls → Fls) : (s.modFls f).svo = s.svo := rfl
@[simp] theorem State.modFls_act (s : State) (f : Fls → Fls) : (s.modFls f).act = s.act := rfl
@[simp] theorem State.modFls_gov (s : State) (f : Fls → Fls) : (s.modFls f).gov = s.gov := rfl
@[simp] theorem State.modFls_mot (s : State) (f : Fls → Fls) : (s.modFls f).mot = s.mot := rfl
@[simp] theorem State.modFls_ord (s : State) (f : Fls → Fls) : (s.modFls f).ord = s.ord := rfl
@[simp] theorem State.modFls_lnt (s : State) (f : Fls → Fls) : (s.modFls f).lnt = s.lnt := rfl
@[simp] theorem State.modFls_mem (s : State) (f : Fls → Fls) : (s.modFls f).mem = s.mem := rfl
@[simp] theorem State.modFls_buf (s : State) (f : Fls → Fls) : (s.modFls f).buf = s.buf := rfl
@[simp] theorem State.modFls_cellq (s : State) (f : Fls → Fls) : (s.modFls f).cellq = s.cellq := rfl
@[simp] theorem State.modFls_hif (s : State) (f : Fls → Fls) : (s.modFls f).hif = s.hif := rfl
@[simp] theorem State.modFls_ctx (s : State) (f : Fls → Fls) : (s.modFls f).ctx = s.ctx := rfl
@[simp] theorem State.modFls_fw (s : State) (f : Fls → Fls) : (s.modFls f).fw = s.fw := rfl
@[simp] theorem State.modFls_jub (s : State) (f : Fls → Fls) : (s.modFls f).jub = s.jub := rfl
@[simp] theorem State.modFls_vgl (s : State) (f : Fls → Fls) : (s.modFls f).vgl = s.vgl := rfl
@[simp] theorem State.modFls_pwr (s : State) (f : Fls → Fls) : (s.modFls f).pwr = s.pwr := rfl
@[simp] theorem State.modFls_clk (s : State) (f : Fls → Fls) : (s.modFls f).clk = s.clk := rfl
@[simp] theorem State.modFls_sec (s : State) (f : Fls → Fls) : (s.modFls f).sec = s.sec := rfl
@[simp] theorem State.modFls_dbg (s : State) (f : Fls → Fls) : (s.modFls f).dbg = s.dbg := rfl
@[simp] theorem State.modFls_cal (s : State) (f : Fls → Fls) : (s.modFls f).cal = s.cal := rfl
@[simp] theorem State.modFls_alm (s : State) (f : Fls → Fls) : (s.modFls f).alm = s.alm := rfl
@[simp] theorem State.modFls_mgt (s : State) (f : Fls → Fls) : (s.modFls f).mgt = s.mgt := rfl
@[simp] theorem State.modFls_out (s : State) (f : Fls → Fls) : (s.modFls f).out = s.out := rfl
@[simp] theorem State.modFls_free (s : State) (f : Fls → Fls) : (s.modFls f).free = s.free := rfl
@[simp] theorem State.modFls_pending (s : State) (f : Fls → Fls) : (s.modFls f).pending = s.pending := rfl

@[simp] theorem State.modSec_regs (s : State) (f : Sec → Sec) : (s.modSec f).regs = s.regs := rfl
@[simp] theorem State.modSec_groups (s : State) (f : Sec → Sec) : (s.modSec f).groups = s.groups := rfl
@[simp] theorem State.modSec_ulk (s : State) (f : Sec → Sec) : (s.modSec f).ulk = s.ulk := rfl
@[simp] theorem State.modSec_ltime (s : State) (f : Sec → Sec) : (s.modSec f).ltime = s.ltime := rfl
@[simp] theorem State.modSec_chn (s : State) (f : Sec → Sec) : (s.modSec f).chn = s.chn := rfl
@[simp] theorem State.modSec_wpa (s : State) (f : Sec → Sec) : (s.modSec f).wpa = s.wpa := rfl
@[simp] theorem State.modSec_svo (s : State) (f : Sec → Sec) : (s.modSec f).svo = s.svo := rfl
@[simp] theorem State.modSec_act (s : State) (f : Sec → Sec) : (s.modSec f).act = s.act := rfl
@[simp] theorem State.modSec_gov (s : State) (f : Sec → Sec) : (s.modSec f).gov = s.gov := rfl
@[simp] theorem State.modSec_mot (s : State) (f : Sec → Sec) : (s.modSec f).mot = s.mot := rfl
@[simp] theorem State.modSec_ord (s : State) (f : Sec → Sec) : (s.modSec f).ord = s.ord := rfl
@[simp] theorem State.modSec_lnt (s : State) (f : Sec → Sec) : (s.modSec f).lnt = s.lnt := rfl
@[simp] theorem State.modSec_mem (s : State) (f : Sec → Sec) : (s.modSec f).mem = s.mem := rfl
@[simp] theorem State.modSec_buf (s : State) (f : Sec → Sec) : (s.modSec f).buf = s.buf := rfl
@[simp] theorem State.modSec_cellq (s : State) (f : Sec → Sec) : (s.modSec f).cellq = s.cellq := rfl
@[simp] theorem State.modSec_hif (s : State) (f : Sec → Sec) : (s.modSec f).hif = s.hif := rfl
@[simp] theorem State.modSec_ctx (s : State) (f : Sec → Sec) : (s.modSec f).ctx = s.ctx := rfl
@[simp] theorem State.modSec_fw (s : State) (f : Sec → Sec) : (s.modSec f).fw = s.fw := rfl
@[simp] theorem State.modSec_jub (s : State) (f : Sec → Sec) : (s.modSec f).jub = s.jub := rfl
@[simp] theorem State.modSec_vgl (s : State) (f : Sec → Sec) : (s.modSec f).vgl = s.vgl := rfl
@[simp] theorem State.modSec_pwr (s : State) (f : Sec → Sec) : (s.modSec f).pwr = s.pwr := rfl
@[simp] theorem State.modSec_clk (s : State) (f : Sec → Sec) : (s.modSec f).clk = s.clk := rfl
@[simp] theorem State.modSec_fls (s : State) (f : Sec → Sec) : (s.modSec f).fls = s.fls := rfl
@[simp] theorem State.modSec_dbg (s : State) (f : Sec → Sec) : (s.modSec f).dbg = s.dbg := rfl
@[simp] theorem State.modSec_cal (s : State) (f : Sec → Sec) : (s.modSec f).cal = s.cal := rfl
@[simp] theorem State.modSec_alm (s : State) (f : Sec → Sec) : (s.modSec f).alm = s.alm := rfl
@[simp] theorem State.modSec_mgt (s : State) (f : Sec → Sec) : (s.modSec f).mgt = s.mgt := rfl
@[simp] theorem State.modSec_out (s : State) (f : Sec → Sec) : (s.modSec f).out = s.out := rfl
@[simp] theorem State.modSec_free (s : State) (f : Sec → Sec) : (s.modSec f).free = s.free := rfl
@[simp] theorem State.modSec_pending (s : State) (f : Sec → Sec) : (s.modSec f).pending = s.pending := rfl

@[simp] theorem State.modDbg_regs (s : State) (f : Dbg → Dbg) : (s.modDbg f).regs = s.regs := rfl
@[simp] theorem State.modDbg_groups (s : State) (f : Dbg → Dbg) : (s.modDbg f).groups = s.groups := rfl
@[simp] theorem State.modDbg_ulk (s : State) (f : Dbg → Dbg) : (s.modDbg f).ulk = s.ulk := rfl
@[simp] theorem State.modDbg_ltime (s : State) (f : Dbg → Dbg) : (s.modDbg f).ltime = s.ltime := rfl
@[simp] theorem State.modDbg_chn (s : State) (f : Dbg → Dbg) : (s.modDbg f).chn = s.chn := rfl
@[simp] theorem State.modDbg_wpa (s : State) (f : Dbg → Dbg) : (s.modDbg f).wpa = s.wpa := rfl
@[simp] theorem State.modDbg_svo (s : State) (f : Dbg → Dbg) : (s.modDbg f).svo = s.svo := rfl
@[simp] theorem State.modDbg_act (s : State) (f : Dbg → Dbg) : (s.modDbg f).act = s.act := rfl
@[simp] theorem State.modDbg_gov (s : State) (f : Dbg → Dbg) : (s.modDbg f).gov = s.gov := rfl
@[simp] theorem State.modDbg_mot (s : State) (f : Dbg → Dbg) : (s.modDbg f).mot = s.mot := rfl
@[simp] theorem State.modDbg_ord (s : State) (f : Dbg → Dbg) : (s.modDbg f).ord = s.ord := rfl
@[simp] theorem State.modDbg_lnt (s : State) (f : Dbg → Dbg) : (s.modDbg f).lnt = s.lnt := rfl
@[simp] theorem State.modDbg_mem (s : State) (f : Dbg → Dbg) : (s.modDbg f).mem = s.mem := rfl
@[simp] theorem State.modDbg_buf (s : State) (f : Dbg → Dbg) : (s.modDbg f).buf = s.buf := rfl
@[simp] theorem State.modDbg_cellq (s : State) (f : Dbg → Dbg) : (s.modDbg f).cellq = s.cellq := rfl
@[simp] theorem State.modDbg_hif (s : State) (f : Dbg → Dbg) : (s.modDbg f).hif = s.hif := rfl
@[simp] theorem State.modDbg_ctx (s : State) (f : Dbg → Dbg) : (s.modDbg f).ctx = s.ctx := rfl
@[simp] theorem State.modDbg_fw (s : State) (f : Dbg → Dbg) : (s.modDbg f).fw = s.fw := rfl
@[simp] theorem State.modDbg_jub (s : State) (f : Dbg → Dbg) : (s.modDbg f).jub = s.jub := rfl
@[simp] theorem State.modDbg_vgl (s : State) (f : Dbg → Dbg) : (s.modDbg f).vgl = s.vgl := rfl
@[simp] theorem State.modDbg_pwr (s : State) (f : Dbg → Dbg) : (s.modDbg f).pwr = s.pwr := rfl
@[simp] theorem State.modDbg_clk (s : State) (f : Dbg → Dbg) : (s.modDbg f).clk = s.clk := rfl
@[simp] theorem State.modDbg_fls (s : State) (f : Dbg → Dbg) : (s.modDbg f).fls = s.fls := rfl
@[simp] theorem State.modDbg_sec (s : State) (f : Dbg → Dbg) : (s.modDbg f).sec = s.sec := rfl
@[simp] theorem State.modDbg_cal (s : State) (f : Dbg → Dbg) : (s.modDbg f).cal = s.cal := rfl
@[simp] theorem State.modDbg_alm (s : State) (f : Dbg → Dbg) : (s.modDbg f).alm = s.alm := rfl
@[simp] theorem State.modDbg_mgt (s : State) (f : Dbg → Dbg) : (s.modDbg f).mgt = s.mgt := rfl
@[simp] theorem State.modDbg_out (s : State) (f : Dbg → Dbg) : (s.modDbg f).out = s.out := rfl
@[simp] theorem State.modDbg_free (s : State) (f : Dbg → Dbg) : (s.modDbg f).free = s.free := rfl
@[simp] theorem State.modDbg_pending (s : State) (f : Dbg → Dbg) : (s.modDbg f).pending = s.pending := rfl

@[simp] theorem State.modCal_regs (s : State) (f : Cal → Cal) : (s.modCal f).regs = s.regs := rfl
@[simp] theorem State.modCal_groups (s : State) (f : Cal → Cal) : (s.modCal f).groups = s.groups := rfl
@[simp] theorem State.modCal_ulk (s : State) (f : Cal → Cal) : (s.modCal f).ulk = s.ulk := rfl
@[simp] theorem State.modCal_ltime (s : State) (f : Cal → Cal) : (s.modCal f).ltime = s.ltime := rfl
@[simp] theorem State.modCal_chn (s : State) (f : Cal → Cal) : (s.modCal f).chn = s.chn := rfl
@[simp] theorem State.modCal_wpa (s : State) (f : Cal → Cal) : (s.modCal f).wpa = s.wpa := rfl
@[simp] theorem State.modCal_svo (s : State) (f : Cal → Cal) : (s.modCal f).svo = s.svo := rfl
@[simp] theorem State.modCal_act (s : State) (f : Cal → Cal) : (s.modCal f).act = s.act := rfl
@[simp] theorem State.modCal_gov (s : State) (f : Cal → Cal) : (s.modCal f).gov = s.gov := rfl
@[simp] theorem State.modCal_mot (s : State) (f : Cal → Cal) : (s.modCal f).mot = s.mot := rfl
@[simp] theorem State.modCal_ord (s : State) (f : Cal → Cal) : (s.modCal f).ord = s.ord := rfl
@[simp] theorem State.modCal_lnt (s : State) (f : Cal → Cal) : (s.modCal f).lnt = s.lnt := rfl
@[simp] theorem State.modCal_mem (s : State) (f : Cal → Cal) : (s.modCal f).mem = s.mem := rfl
@[simp] theorem State.modCal_buf (s : State) (f : Cal → Cal) : (s.modCal f).buf = s.buf := rfl
@[simp] theorem State.modCal_cellq (s : State) (f : Cal → Cal) : (s.modCal f).cellq = s.cellq := rfl
@[simp] theorem State.modCal_hif (s : State) (f : Cal → Cal) : (s.modCal f).hif = s.hif := rfl
@[simp] theorem State.modCal_ctx (s : State) (f : Cal → Cal) : (s.modCal f).ctx = s.ctx := rfl
@[simp] theorem State.modCal_fw (s : State) (f : Cal → Cal) : (s.modCal f).fw = s.fw := rfl
@[simp] theorem State.modCal_jub (s : State) (f : Cal → Cal) : (s.modCal f).jub = s.jub := rfl
@[simp] theorem State.modCal_vgl (s : State) (f : Cal → Cal) : (s.modCal f).vgl = s.vgl := rfl
@[simp] theorem State.modCal_pwr (s : State) (f : Cal → Cal) : (s.modCal f).pwr = s.pwr := rfl
@[simp] theorem State.modCal_clk (s : State) (f : Cal → Cal) : (s.modCal f).clk = s.clk := rfl
@[simp] theorem State.modCal_fls (s : State) (f : Cal → Cal) : (s.modCal f).fls = s.fls := rfl
@[simp] theorem State.modCal_sec (s : State) (f : Cal → Cal) : (s.modCal f).sec = s.sec := rfl
@[simp] theorem State.modCal_dbg (s : State) (f : Cal → Cal) : (s.modCal f).dbg = s.dbg := rfl
@[simp] theorem State.modCal_alm (s : State) (f : Cal → Cal) : (s.modCal f).alm = s.alm := rfl
@[simp] theorem State.modCal_mgt (s : State) (f : Cal → Cal) : (s.modCal f).mgt = s.mgt := rfl
@[simp] theorem State.modCal_out (s : State) (f : Cal → Cal) : (s.modCal f).out = s.out := rfl
@[simp] theorem State.modCal_free (s : State) (f : Cal → Cal) : (s.modCal f).free = s.free := rfl
@[simp] theorem State.modCal_pending (s : State) (f : Cal → Cal) : (s.modCal f).pending = s.pending := rfl

@[simp] theorem State.modMgt_regs (s : State) (f : MgtPort → MgtPort) : (s.modMgt f).regs = s.regs := rfl
@[simp] theorem State.modMgt_groups (s : State) (f : MgtPort → MgtPort) : (s.modMgt f).groups = s.groups := rfl
@[simp] theorem State.modMgt_ulk (s : State) (f : MgtPort → MgtPort) : (s.modMgt f).ulk = s.ulk := rfl
@[simp] theorem State.modMgt_ltime (s : State) (f : MgtPort → MgtPort) : (s.modMgt f).ltime = s.ltime := rfl
@[simp] theorem State.modMgt_chn (s : State) (f : MgtPort → MgtPort) : (s.modMgt f).chn = s.chn := rfl
@[simp] theorem State.modMgt_wpa (s : State) (f : MgtPort → MgtPort) : (s.modMgt f).wpa = s.wpa := rfl
@[simp] theorem State.modMgt_svo (s : State) (f : MgtPort → MgtPort) : (s.modMgt f).svo = s.svo := rfl
@[simp] theorem State.modMgt_act (s : State) (f : MgtPort → MgtPort) : (s.modMgt f).act = s.act := rfl
@[simp] theorem State.modMgt_gov (s : State) (f : MgtPort → MgtPort) : (s.modMgt f).gov = s.gov := rfl
@[simp] theorem State.modMgt_mot (s : State) (f : MgtPort → MgtPort) : (s.modMgt f).mot = s.mot := rfl
@[simp] theorem State.modMgt_ord (s : State) (f : MgtPort → MgtPort) : (s.modMgt f).ord = s.ord := rfl
@[simp] theorem State.modMgt_lnt (s : State) (f : MgtPort → MgtPort) : (s.modMgt f).lnt = s.lnt := rfl
@[simp] theorem State.modMgt_mem (s : State) (f : MgtPort → MgtPort) : (s.modMgt f).mem = s.mem := rfl
@[simp] theorem State.modMgt_buf (s : State) (f : MgtPort → MgtPort) : (s.modMgt f).buf = s.buf := rfl
@[simp] theorem State.modMgt_cellq (s : State) (f : MgtPort → MgtPort) : (s.modMgt f).cellq = s.cellq := rfl
@[simp] theorem State.modMgt_hif (s : State) (f : MgtPort → MgtPort) : (s.modMgt f).hif = s.hif := rfl
@[simp] theorem State.modMgt_ctx (s : State) (f : MgtPort → MgtPort) : (s.modMgt f).ctx = s.ctx := rfl
@[simp] theorem State.modMgt_fw (s : State) (f : MgtPort → MgtPort) : (s.modMgt f).fw = s.fw := rfl
@[simp] theorem State.modMgt_jub (s : State) (f : MgtPort → MgtPort) : (s.modMgt f).jub = s.jub := rfl
@[simp] theorem State.modMgt_vgl (s : State) (f : MgtPort → MgtPort) : (s.modMgt f).vgl = s.vgl := rfl
@[simp] theorem State.modMgt_pwr (s : State) (f : MgtPort → MgtPort) : (s.modMgt f).pwr = s.pwr := rfl
@[simp] theorem State.modMgt_clk (s : State) (f : MgtPort → MgtPort) : (s.modMgt f).clk = s.clk := rfl
@[simp] theorem State.modMgt_fls (s : State) (f : MgtPort → MgtPort) : (s.modMgt f).fls = s.fls := rfl
@[simp] theorem State.modMgt_sec (s : State) (f : MgtPort → MgtPort) : (s.modMgt f).sec = s.sec := rfl
@[simp] theorem State.modMgt_dbg (s : State) (f : MgtPort → MgtPort) : (s.modMgt f).dbg = s.dbg := rfl
@[simp] theorem State.modMgt_cal (s : State) (f : MgtPort → MgtPort) : (s.modMgt f).cal = s.cal := rfl
@[simp] theorem State.modMgt_alm (s : State) (f : MgtPort → MgtPort) : (s.modMgt f).alm = s.alm := rfl
@[simp] theorem State.modMgt_out (s : State) (f : MgtPort → MgtPort) : (s.modMgt f).out = s.out := rfl
@[simp] theorem State.modMgt_free (s : State) (f : MgtPort → MgtPort) : (s.modMgt f).free = s.free := rfl
@[simp] theorem State.modMgt_pending (s : State) (f : MgtPort → MgtPort) : (s.modMgt f).pending = s.pending := rfl

end Sys2Proof.Machine
end

