-- ==== Sys2Proof/Laws/Regs.lean ====
section
/-!
SUPPORT. Register words: what a field, a bit or a whole register reads after a write of it or of another.
-/
namespace Sys2Proof.Machine

/-! ## Words -/

theorem getLsbD_of_shiftRight (v : Nat) (lo len i : Nat) :
    (BitVec.ofNat 32 ((v % 2 ^ len) <<< lo)).getLsbD i = (decide (i < 32) && decide (lo ≤ i) && decide (i < lo + len) && v.testBit (i - lo)) := by
  rw [BitVec.getLsbD_ofNat, Nat.testBit_shiftLeft, Nat.testBit_mod_two_pow]
  have h : lo ≤ i → (i - lo < len ↔ i < lo + len) := fun _ => by omega
  by_cases h2 : lo ≤ i <;> simp [h2, Bool.and_assoc]
  rw [decide_eq_decide.mpr (h h2)]

theorem getLsbD_mask (lo len i : Nat) :
    (BitVec.ofNat 32 ((2 ^ len - 1) <<< lo)).getLsbD i = (decide (i < 32) && decide (lo ≤ i) && decide (i < lo + len)) := by
  rw [BitVec.getLsbD_ofNat, Nat.testBit_shiftLeft, Nat.testBit_two_pow_sub_one]
  have h : lo ≤ i → (i - lo < len ↔ i < lo + len) := fun _ => by omega
  by_cases h2 : lo ≤ i <;> simp [h2]
  rw [decide_eq_decide.mpr (h h2)]

/-- Bit `i` of a word with a field replaced. -/
theorem bitAt_setFld (w : W) (lo len v i : Nat) (hi : i < 32) :
    bitAt (setFld w lo len v) i = if lo ≤ i ∧ i < lo + len then v.testBit (i - lo) else bitAt w i := by
  unfold bitAt setFld
  rw [BitVec.getLsbD_or, BitVec.getLsbD_and, BitVec.getLsbD_not, getLsbD_of_shiftRight, getLsbD_mask]
  by_cases h2 : lo ≤ i <;> by_cases h3 : i < lo + len <;> simp [*]

/-- Bit `j` of a word with bit `i` set to `b`. -/
theorem bitAt_putBit (w : W) (i j : Nat) (b : Bool) (hj : j < 32) : bitAt (putBit w i b) j = if i = j then b else bitAt w j := by
  have hs : (1#32 <<< i).getLsbD j = decide (i = j) := by
    rw [BitVec.getLsbD_shiftLeft]
    by_cases h : i = j
    · subst h; simp [hj]
    · by_cases h' : j < i
      · simp [h, h']
      · have : j - i ≠ 0 := by omega
        simp [h, this, BitVec.getLsbD_one]
  unfold bitAt putBit
  cases b
  · simp only [Bool.false_eq_true, if_false, BitVec.getLsbD_and, BitVec.getLsbD_not, hs, hj]
    by_cases h : i = j <;> simp [h]
  · simp only [if_true, BitVec.getLsbD_or, hs]
    by_cases h : i = j <;> simp [h]

theorem testBit_fld (w : W) (lo len i : Nat) : (fld w lo len).testBit i = (decide (i < len) && bitAt w (lo + i)) := by
  unfold fld bitAt
  rw [Nat.testBit_mod_two_pow, Nat.testBit_shiftRight, BitVec.testBit_toNat]

/-- A field reads back what was put into it. -/
theorem fld_setFld_same (w : W) (lo len v : Nat) (h : lo + len ≤ 32) : fld (setFld w lo len v) lo len = v % 2 ^ len := by
  apply Nat.eq_of_testBit_eq; intro i
  rw [testBit_fld, Nat.testBit_mod_two_pow]
  by_cases hi : i < len
  · rw [bitAt_setFld _ _ _ _ _ (by omega), if_pos (by omega)]; simp [hi]
  · simp [hi]

/-- A field that shares no bit with the one written stays. -/
theorem fld_setFld_other (w : W) (lo len v lo' len' : Nat) (h : lo' + len' ≤ 32) (hd : lo' + len' ≤ lo ∨ lo + len ≤ lo') :
    fld (setFld w lo len v) lo' len' = fld w lo' len' := by
  apply Nat.eq_of_testBit_eq; intro i
  rw [testBit_fld, testBit_fld]
  by_cases hi : i < len'
  · rw [bitAt_setFld _ _ _ _ _ (by omega), if_neg (by omega)]
  · simp [hi]

/-- A field that does not hold the bit written stays. -/
theorem fld_putBit (w : W) (i : Nat) (b : Bool) (lo len : Nat) (h : lo + len ≤ 32) (hd : i < lo ∨ lo + len ≤ i) :
    fld (putBit w i b) lo len = fld w lo len := by
  apply Nat.eq_of_testBit_eq; intro j
  rw [testBit_fld, testBit_fld]
  by_cases hj : j < len
  · rw [bitAt_putBit _ _ _ _ (by omega), if_neg (by omega)]
  · simp [hj]

/-! ## Registers -/

@[simp] theorem State.reg_setReg (s : State) (a b : Nat) (v : W) : (s.setReg a v).reg b = if b = a then v else s.reg b := by
  unfold State.reg State.setReg
  split
  · rename_i h; subst h; exact tget_tset_same _ _ _ _
  · rename_i h; exact tget_tset_other _ _ _ _ _ h

@[simp] theorem State.reg_setRfld (s : State) (a lo len v b : Nat) :
    (s.setRfld a lo len v).reg b = if b = a then setFld (s.reg a) lo len v else s.reg b := State.reg_setReg _ _ _ _

@[simp] theorem State.reg_setRbit (s : State) (a i : Nat) (x : Bool) (b : Nat) :
    (s.setRbit a i x).reg b = if b = a then putBit (s.reg a) i x else s.reg b := State.reg_setReg _ _ _ _

@[simp] theorem State.reg_raise (s : State) (a i b : Nat) :
    (s.raise a i).reg b = if b = a then putBit (s.reg a) i true else s.reg b := State.reg_setReg _ _ _ _

/-- Registers of a range that is dropped read as at reset. -/
@[simp] theorem State.reg_dropRegs (s : State) (lo hi a : Nat) :
    (s.dropRegs lo hi).reg a = if lo ≤ a ∧ a < hi then regReset a else s.reg a := tget_tdrop _ _ _ _ _

/-- A register reads as it did where the register table is the same. -/
theorem State.reg_congr {s t : State} (h : t.regs = s.regs) (a : Nat) : t.reg a = s.reg a := by unfold State.reg; rw [h]

/-- An interrupt flag that is raised reads 1. -/
@[simp] theorem State.rbit_raise_same (s : State) (a i : Nat) (h : i < 32) : (s.raise a i).rbit a i = true := by
  simp [State.rbit, bitAt_putBit _ _ _ _ h]

/-- Raising a flag clears none. -/
theorem State.rbit_raise_mono (s : State) (a i b j : Nat) (hj : j < 32) (h : s.rbit b j = true) : (s.raise a i).rbit b j = true := by
  unfold State.rbit at *
  rw [State.reg_raise]
  split
  · rename_i hb; subst hb; rw [bitAt_putBit _ _ _ _ hj]; split <;> simp [h]
  · exact h

@[simp] theorem State.rbit_setRbit_same (s : State) (a i : Nat) (x : Bool) (h : i < 32) : (s.setRbit a i x).rbit a i = x := by
  simp [State.rbit, bitAt_putBit _ _ _ _ h]

@[simp] theorem State.rfld_setRfld_same (s : State) (a lo len v : Nat) (h : lo + len ≤ 32) :
    (s.setRfld a lo len v).rfld a lo len = v % 2 ^ len := by
  simp [State.rfld, fld_setFld_same _ _ _ _ h]

end Sys2Proof.Machine
end

