-- ==== Sys2Proof/Laws/Ops.lean ====
section
/-!
SUPPORT. The shared operations leave every register alone but those they name: a packet or record put into the cell pool writes
registers of CPL alone, a counter writes itself, its sticky bit and its interrupt too.
-/
namespace Sys2Proof.Machine

/-- The address lies outside CPL's window. -/
def OutsideCpl (a : Nat) : Prop := blkOf a ≠ bCPL

/-- A counter's registers: itself, its sticky bit's register and its interrupt register. -/
def Ctr.Holds (c : Ctr) (a : Nat) : Prop := a = c.addr ∨ a = c.sat ∨ a = c.int

theorem reg_onlyIf (s : State) (c : Bool) (f : State → State) (a : Nat) (h : ∀ s, (f s).reg a = s.reg a) : (s.onlyIf c f).reg a = s.reg a := by
  unfold State.onlyIf; split
  · exact h s
  · rfl

theorem reg_each {α : Type} (f : State → α → State) (a : Nat) (h : ∀ s x, (f s x).reg a = s.reg a) :
    ∀ (l : List α) (s : State), (s.each l f).reg a = s.reg a
  | [], _ => rfl
  | x :: xs, s => (reg_each f a h xs (f s x)).trans (h s x)

theorem State.bump_reg (s : State) (c : Ctr) (a : Nat) (h : ¬ c.Holds a) : (s.bump c).1.reg a = s.reg a := by
  have h1 : a ≠ c.addr := fun e => h (.inl e)
  have h2 : a ≠ c.sat := fun e => h (.inr (.inl e))
  have h3 : a ≠ c.int := fun e => h (.inr (.inr e))
  unfold State.bump
  dsimp only
  (repeat' split) <;> simp [h1, h2, h3]

theorem State.bumpBy_reg (s : State) (c : Ctr) (n a : Nat) (h : ¬ c.Holds a) : (s.bumpBy c n).1.reg a = s.reg a := by
  have h1 : a ≠ c.addr := fun e => h (.inl e)
  have h2 : a ≠ c.sat := fun e => h (.inr (.inl e))
  have h3 : a ≠ c.int := fun e => h (.inr (.inr e))
  unfold State.bumpBy
  dsimp only
  (repeat' split) <;> simp [h1, h2, h3]

theorem not_cplCtr {a : Nat} (h : OutsideCpl a) (i : Nat) : ¬ (cplCtr i).Holds a := by
  rintro (rfl | rfl | rfl) <;> exact h (blkOf_regAddr _ _)

theorem ne_cplInt {a : Nat} (h : OutsideCpl a) : a ≠ cplInt := fun e => h (e ▸ blkOf_regAddr _ _)

@[simp] theorem State.reg_setCq (s : State) (q : Nat) (c : CellQ) (a : Nat) : (s.setCq q c).reg a = s.reg a := rfl

theorem State.putPkt_reg (s : State) (q : Nat) (p : Pkt) (a : Nat) (h : OutsideCpl a) : (s.putPkt q p).1.reg a = s.reg a := by
  unfold State.putPkt State.enterChain State.enterPkt
  dsimp only
  (repeat' split) <;> simp [State.bump_reg, not_cplCtr h, ne_cplInt h]

theorem State.submit_reg (s : State) (q : Nat) (r : AlmSub) (a : Nat) (h : OutsideCpl a) : (s.submit q r).reg a = s.reg a := by
  unfold State.submit
  dsimp only
  split <;> simp [State.putPkt_reg, h]

/-- An Almanac record writes registers of CPL alone. -/
theorem State.almanac_reg (s : State) (code blk inst : Nat) (f : List (Nat × Nat)) (a : Nat) (h : OutsideCpl a) :
    (s.almanac code blk inst f).reg a = s.reg a := State.submit_reg _ _ _ _ h

/-- A counter writes its own registers and CPL's. -/
theorem State.count_reg (s : State) (c : Ctr) (a : Nat) (h : OutsideCpl a) (hc : ¬ c.Holds a) : (s.count c).reg a = s.reg a := by
  unfold State.count
  dsimp only
  split <;> simp [State.almanac_reg, State.bump_reg, h, hc]

theorem State.countBy_reg (s : State) (c : Ctr) (n a : Nat) (h : OutsideCpl a) (hc : ¬ c.Holds a) : (s.countBy c n).reg a = s.reg a := by
  unfold State.countBy
  dsimp only
  split <;> simp [State.almanac_reg, State.bumpBy_reg, h, hc]

/-- A violation writes its counter's registers, its interrupt register and CPL's. -/
theorem State.violate_reg (s : State) (c : Ctr) (int bit a : Nat) (h : OutsideCpl a) (hc : ¬ c.Holds a) (hi : a ≠ int) :
    (s.violate c int bit).reg a = s.reg a := by
  unfold State.violate
  simp [State.count_reg, h, hc, hi]

/-- A packet that is put writes registers of CPL alone. -/
theorem State.put_reg (s : State) (q : Nat) (p : Pkt) (a : Nat) (h : OutsideCpl a) : (s.put q p).reg a = s.reg a := by
  unfold State.put
  dsimp only
  split <;> simp [State.almanac_reg, State.putPkt_reg, h]

/-- An event to firmware writes registers of CPL alone. -/
theorem State.event_reg (s : State) (q code : Nat) (args : List Nat) (a : Nat) (h : OutsideCpl a) : (s.event q code args).reg a = s.reg a :=
  State.put_reg _ _ _ _ h

/-- A counter below its maximum advances by one (R538). -/
theorem State.bump_counts (s : State) (c : Ctr) (h : (s.reg c.addr).toNat + 1 < 2 ^ c.width - 1) :
    s.bump c = (s.setReg c.addr (BitVec.ofNat 32 ((s.reg c.addr).toNat + 1)), false) := by
  unfold State.bump
  dsimp only
  rw [if_neg (by omega), if_neg (by omega)]

/-- A counter at its maximum stays (R538). -/
theorem State.count_at_max (s : State) (c : Ctr) (h : 2 ^ c.width - 1 ≤ (s.reg c.addr).toNat) : s.count c = s := by
  unfold State.count State.bump
  dsimp only
  rw [if_pos h]
  rfl

end Sys2Proof.Machine
end

