-- ==== Sys2Proof/Machine/Balls.lean ====
section
/-!
DEFINITION. The ball map of the package (R21, R557 to R562): what each of the 2,704 balls carries.
-/
namespace Sys2Proof.Machine

/-- The supply rails of the package (Table 20.6). -/
inductive Rail where
  | core
  | sram
  | sdsA
  | sdsH
  | memPhy
  | io
  | vigil
deriving DecidableEq, Repr

/-- A signal: of a Uslen port (pair 24 is S0, 25 is S1), of a host port's or Jubilee's lanes, of an LPDDR6 channel, or one of the
low-speed balls by its name. -/
inductive BallSignal where
  | hlLane (port : Nat) (tx : Bool) (pair : Nat) (p : Bool)
  | hlRefclk (port : Nat) (p : Bool)
  | hlRst (port : Nat)
  | hifLane (port : Nat) (tx : Bool) (lane : Nat) (p : Bool)
  | jubLane (tx : Bool) (lane : Nat) (p : Bool)
  | mem (channel : Nat) (name : String)
  | low (name : String)
deriving DecidableEq, Repr

/-- What a ball carries. -/
inductive Ball where
  | vss
  | rail (r : Rail)
  | signal (b : BallSignal)
deriving DecidableEq, Repr

/-- The names of the rows, row 1 first (R21). -/
def ballRows : List String :=
  let l := ["A", "B", "C", "D", "E", "F", "G", "H", "J", "K", "L", "M", "N", "P", "T", "U", "V", "W", "Y"]
  l ++ (l.map fun x => "A" ++ x) ++ ((l.take 14).map fun x => "B" ++ x)

/-- A Uslen region, by the row index from the package edge and the column of HL0 (R558). -/
def hlBall (port i c : Nat) : Ball :=
  let m := (c - 2) / 3
  let onLane := decide (2 ≤ c) && decide (c ≤ 19) && decide ((c - 2) % 3 ≤ 1)
  let lane (tx : Bool) (k : Nat) : Ball :=
    if onLane ∧ 6 * k + m ≤ 25 then .signal (.hlLane port tx (6 * k + m) ((c - 2) % 3 == 0)) else .vss
  if i ≤ 4 then lane true i
  else if 6 ≤ i ∧ i ≤ 10 then lane false (i - 6)
  else if i = 11 then
    if c = 2 then .signal (.hlRefclk port true)
    else if c = 3 then .signal (.hlRefclk port false)
    else if c = 5 then .signal (.hlRst port)
    else .vss
  else if i = 12 then .rail .sdsA
  else if i = 13 ∧ c % 2 = 0 then .rail .sdsH
  else .vss

/-- Four lanes of a centre row, from `first` on (R559). -/
def laneRow (lane : Nat → Bool → BallSignal) (first c : Nat) : Ball :=
  if (c - 21) % 3 = 0 then .vss else .signal (lane (first + (c - 22) / 3) ((c - 22) % 3 == 0))

/-- The top centre region (Table 20.3). -/
def topBall (r c : Nat) : Ball :=
  match r with
  | 1 => laneRow (.hifLane 0 true) 0 c
  | 3 => laneRow (.hifLane 0 false) 0 c
  | 4 => .rail .sdsA
  | 5 => laneRow (.hifLane 1 true) 0 c
  | 7 => laneRow (.hifLane 1 false) 0 c
  | 8 => .rail .sdsA
  | 9 => laneRow (.jubLane true) 0 c
  | 11 => laneRow (.jubLane true) 4 c
  | 12 => .rail .sdsH
  | 13 => laneRow (.jubLane false) 0 c
  | 14 => laneRow (.jubLane false) 4 c
  | _ => .vss

/-- The six balls of an actuator link (Table 20.4). -/
def actBalls (a : String) : List String := ["CLK_P", "CLK_N", "CMD_P", "CMD_N", "STS_P", "STS_N"].map fun x => "ACT" ++ a ++ "_" ++ x

/-- The low-speed balls, rows BA to BF, columns 21 to 32 (Table 20.4). -/
def lowBalls : List (List String) := [
  actBalls "0" ++ actBalls "1",
  actBalls "2" ++ actBalls "3",
  ["ACT0_PARK_N", "ACT1_PARK_N", "ACT2_PARK_N", "ACT3_PARK_N", "MOT_GATE_UH", "MOT_GATE_UL", "MOT_GATE_VH", "MOT_GATE_VL",
    "MOT_GATE_WH", "MOT_GATE_WL", "MOT_CHOP", "MOT_PFAIL_N"],
  ["MOT_ISNS", "MOT_VSU", "MOT_VSV", "MOT_VSW", "MOT_VSM", "VSS", "REFCLK_SYS_P", "REFCLK_SYS_N", "VSS", "REFCLK_NET_P", "REFCLK_NET_N", "VSS"],
  ["XTAL32_IN", "XTAL32_OUT", "VBAT_VIGIL", "VBAT_VIGIL", "VGL_WAKE_N", "VGL_MAIN_EN", "SYS_RST_N", "THERMTRIP_N", "MGT_SDA", "MGT_SCL",
    "MGT_MODE", "TEST_EN"],
  ["TCK", "TMS", "TDI", "TDO", "TRST_N", "VDD_CORE_SENSE_P", "VDD_CORE_SENSE_N", "VDD_IO", "VDD_IO", "VDD_IO", "VDD_IO", "VDD_IO"]]

/-- A low-speed ball by its name. -/
def lowBall (n : String) : Ball :=
  if n = "VSS" then .vss else if n = "VDD_IO" then .rail .io else if n = "VBAT_VIGIL" then .rail .vigil else .signal (.low n)

/-- The bottom centre region (Table 20.3, R562). -/
def bottomBall (r c : Nat) : Ball :=
  match r with
  | 52 => laneRow (.hifLane 2 true) 0 c
  | 51 => .rail .sdsH
  | 50 => laneRow (.hifLane 2 false) 0 c
  | 48 => laneRow (.hifLane 3 true) 0 c
  | 47 => .rail .sdsA
  | 46 => laneRow (.hifLane 3 false) 0 c
  | 49 | 45 => .vss
  | _ => lowBall (((lowBalls[r - 39]?.getD [])[c - 21]?).getD "VSS")

/-- The signals of an LPDDR6 channel, in order (R560). -/
def memSignals : List String :=
  let sub (x : String) : List String := (["CK_t", "CK_c", "CS", "CA0", "CA1", "CA2", "CA3", "WCK_t", "WCK_c", "RDQS_t", "RDQS_c", "DQ0", "DQ1",
    "DQ2", "DQ3", "DQ4", "DQ5", "DQ6", "DQ7", "DQ8", "DQ9", "DQ10", "DQ11"].map fun n => n ++ "_" ++ x)
  ["RESET_N", "ZQ"] ++ sub "A" ++ sub "B"

/-- A memory region, by the column of the west one (R560). -/
def memBall (west : Bool) (r c : Nat) : Ball :=
  let ch := (if west then 0 else 2) + (r - 15) / 12
  if c % 4 = 2 then .vss
  else if c % 4 = 0 then .rail .memPhy
  else .signal (.mem ch ((memSignals[4 * ((r - 15) % 12) + (c - 1) / 2]?).getD ""))

/-- The ball at a row, counted from 1, and a column (R557 to R562). -/
def ballAt (r c : Nat) : Ball :=
  if r ≤ 14 then
    if c ≤ 20 then hlBall 0 (r - 1) c else if 33 ≤ c then hlBall 1 (r - 1) (53 - c) else topBall r c
  else if 39 ≤ r then
    if c ≤ 20 then hlBall 2 (52 - r) c else if 33 ≤ c then hlBall 3 (52 - r) (53 - c) else bottomBall r c
  else if c ≤ 8 then memBall true r c
  else if 45 ≤ c then memBall false r (53 - c)
  else if (r + c) % 2 = 0 then .vss
  else if c ≤ 14 ∨ 39 ≤ c then .rail .sram
  else .rail .core

end Sys2Proof.Machine
end

