-- ==== Sys2Proof/Machine/Pins.lean ====
section
/-!
DEFINITION. How the outputs of the package behave by level, under resets and under the TAP (R460, R462, R572, Table 16.6). A reset is one
step of the model, so that a block drives its outputs again as soon as it is powered.
-/
namespace Sys2Proof.Machine

/-- The output groups of Table 16.6: of an actuator, a Uslen port, a host port or an LPDDR6 channel where it has one. -/
inductive OutGroup where
  | motGates
  | actPark (a : Nat)
  | actLink (a : Nat)
  | hlRst (n : Nat)
  | hlRefclk (n : Nat)
  | hlTx (n : Nat)
  | hifTx (p : Nat)
  | jubTx
  | memOut (c : Nat)
  | memReset (c : Nat)
  | mainEn
  | mgtBus
  /-- Any output that the table does not list. -/
  | other
deriving DecidableEq, Repr

/-- What an output does. -/
inductive Drive where
  /-- Its block drives it. -/
  | driven
  /-- It is driven low, both legs of a pair. -/
  | low
  /-- Electrical idle. -/
  | idle
  /-- Retention I/O holds the self-refresh state. -/
  | retained
  /-- It holds its last value. -/
  | holds
  /-- It floats, or is an input only. -/
  | floats
  /-- It follows the boundary register. -/
  | boundary
deriving DecidableEq, Repr

/-- The level that the board's termination gives a floating output (Table 16.6); none where it fits none. -/
def OutGroup.rest : OutGroup → Option Bool
  | .motGates | .actPark _ | .hlRst _ | .memReset _ => some false
  | .mainEn | .mgtBus => some true
  | _ => none

/-- Domain `d` has no power: it is off, or the main rails are. -/
def State.noPower (s : State) (d : Nat) : Bool := !s.pwr.rails || s.pwr.off.testBit d

/-- The main rails are gone, or MGMT is off: PL5. -/
def State.inPl5 (s : State) : Bool := s.noPower 0

/-- An output as its level has it (R462, Table 16.6): a group floats with its block's domain, but where the table gives it another state
in PL2 to PL4. -/
def State.levelDrive (s : State) : OutGroup → Drive
  | .mainEn => if s.vgl.mainLow then .low else .floats
  | .motGates => if s.noPower 4 then .floats else .driven
  | .actPark _ | .actLink _ => if s.noPower 6 then .floats else .driven
  | .hlTx _ => if s.noPower 5 then .floats else .driven
  | .hlRefclk _ => if s.inPl5 then .floats else if s.noPower 5 then .low else .driven
  | .hifTx p => if s.inPl5 then .floats else if s.noPower (8 + p) then .idle else .driven
  | .jubTx => if s.inPl5 then .floats else if s.noPower 3 then .idle else .driven
  | .memOut _ => if s.inPl5 then .floats else if s.noPower 2 then .retained else .driven
  | .hlRst _ | .memReset _ | .mgtBus | .other => if s.inPl5 then .floats else .driven

/-- An output: the TAP's instruction first (R572), then PL5-hold, then the level. VGL_MAIN_EN belongs to the Vigil domain alone (R460). -/
def State.outDrive (s : State) (g : OutGroup) : Drive :=
  if g = .mainEn then s.levelDrive g
  else if s.dbg.outputs = 1 then .boundary
  else if s.dbg.outputs = 2 then .holds
  else if s.dbg.outputs = 3 then .floats
  else if s.pwr.hold.isSome then .holds
  else s.levelDrive g

end Sys2Proof.Machine
end

