-- ==== Sys2Proof/WellFormed.lean ====
section
/-!
DEFINITION. Which commands are well formed: operands that are lists or numbers without a bound of their own have the sizes that
the spec gives what they stand for. A meaning is total on ill-formed commands too.
-/
namespace Sys2Proof

/-- A namespace of one kind lies on groups of its type (R60). -/
def spaceWf (t : Persona) (d : SpaceDesc) : Bool :=
  d.groups.all fun g => t.groups.any fun w => match w with
    | h :: _ => h.toNat % 256 == g && (h.getLsbD 10 == (d.kind == 1))
    | [] => false

/-- A zone group descriptor of 8 words with its reserved fields at 0 (Table 2.4). -/
def groupWf : List (BitVec 32) → Bool
  | [a, b, c, _, e, f, g, h] => decide (a.toNat < 2 ^ 23) && decide (b.toNat < 2 ^ 21) && decide (c.toNat < 2 ^ 22) &&
    decide (e.toNat < 2 ^ 28) && decide (f.toNat < 2) && g == 0 && h == 0
  | _ => false

/-- A personality table: descriptors of the sizes of their tables, settings within Table 2.6, and whole groups (R58, R60, R72). -/
def personaWf (t : Persona) : Bool :=
  t.groups.all groupWf && decide (t.groups.length ≤ 256) && t.spaces.all (fun d => spaceWf t d) &&
  (t.recovery ++ t.keys).all (fun l => l.length == 4) && t.harvest.all (fun l => l.length == 4) &&
  decide (4 ≤ t.ringGib) && decide (t.ringGib ≤ 128) && decide (10 ≤ t.closeUs) && decide (t.closeUs ≤ 1000) &&
  decide (1 ≤ t.poolHalves) && decide (t.poolHalves ≤ 10) && t.spaces.all fun d => decide (1 ≤ d.ana) && decide (d.ana ≤ 16)

/-- A partition's body. -/
def partWf : PartBody → Bool
  | .ordo store servo => store.all (fun e => decide (e.1 < 4) && decide (e.2.1 < 15360)) && servo.all fun e => decide (e.1 < 65536)
  | .personality t => personaWf t
  | .calibration l => l.all fun e => decide (0x10000000 ≤ e.1)

/-- A BUF access as it arrives. -/
def accWf (a : BufAcc) : Bool := a.data.all (fun d => d.length == a.len) && a.got.isEmpty && a.status == 0 && decide (1 ≤ a.order) && decide (a.order ≤ 7)

/-- The data of a host command: blocks of 4,096 bytes, keys of 1 to 16. -/
def opWf : HostOp → Bool
  | .write _ d | .compare _ d | .zoneAppend _ d => d.all fun b => b.length == 4096
  | .kvStore k v _ _ => decide (1 ≤ k.length) && decide (k.length ≤ 16) && decide (v.length ≤ 16777216)
  | .kvRetrieve k | .kvDelete k | .kvExist k | .kvList k => decide (k.length ≤ 16)
  | _ => true

/-- An Ethernet frame. -/
def frameWf (f : EthFrame) : Bool :=
  match f.pay with
  | .tcp _ c => opWf c.op
  | .roce _ _ c => opWf c.op
  | _ => true

/-- A tunnelled Admin command. -/
def adminWf : MiAdmin → Bool
  | .commit slot action _ => decide (slot < 8) && decide (action < 8)
  | _ => true

/-- An MCTP packet's header fields are as wide as they are. -/
def packetWf (p : MctpPkt) : Bool :=
  decide (p.version < 16) && decide (p.dest < 256) && decide (p.src < 256) && decide (p.seq < 4) && decide (p.tag < 8) &&
  decide (p.bytes ≤ 64) && decide (p.type < 256)

/-- The command's operands are as the spec sizes them. -/
def Instr.wf : Instr → Bool
  | .partitionLoad _ b _ => partWf b
  | .flitReceived _ _ f => f.length == 64
  | .jubFlitReceived _ _ f => f.length == 64
  | .sample _ _ _ l => decide (l.length ≤ 60)
  | .gateSend _ g => decide (g < 65536)
  | .bufferAccess a => accWf a
  | .parityRequest r => decide (r.slots.length ≤ 12) && decide (r.missing.length ≤ 2) && r.metas.all fun m => decide (m < 2 ^ 80)
  | .reservationRequest _ cells => decide (cells ≤ 32768)
  | .ethFrameRx _ f => frameWf f
  | .stripe _ m => m.sectors.all fun b => b.length == 4112
  | .plan _ l _ => l.all fun e => decide (e.kind < 256)
  | .planReply _ st => decide (st < 65536)
  | .stripeNak _ _ _ reason mask => decide (reason < 65536) && decide (mask < 4096)
  | .zoneFail _ _ st => st.all fun c => decide (c < 65536)
  | .close _ st => st.all fun c => decide (c < 65536)
  | .mctpPacketRx p => packetWf p
  | .netSet _ _ c => c.ipv6.length == 16 && decide (c.prefix4 ≤ 32) && decide (c.prefix6 ≤ 128)
  | .netGet _ _ _ ipv6 => ipv6.length == 16
  | .almAppend _ _ l => decide (l.length ≤ 65535)
  | .miTunnelledAdmin _ _ c => adminWf c
  | .registerWrite .. | .vigilPowerOnReset .. | .powerOnReset .. | .pinReset .. | .mainRailLoss .. | .vigilSupplySwitch .. | .ctrlRst ..
  | .controlResetHalted .. | .warmRst .. | .resetRetractDone .. | .cpuRst .. | .blockReset .. | .testLogicReset .. | .idesKick ..
  | .idesEnable .. | .idesWarn .. | .idesExpiry .. | .bootOk .. | .bootStep .. | .pllUnlock .. | .flsProgram .. | .flsProgramDone ..
  | .flsErase .. | .flsEraseDone .. | .flsSuspend .. | .flsSuspendDeferred .. | .flsResume .. | .flsMarginRead .. | .flsOtpProgram ..
  | .flsInitDone .. | .flashRead .. | .secGenerate .. | .secUnwrap .. | .secClear .. | .secCmdDone .. | .ulkPortEn ..
  | .trainingStepDone .. | .trainingAttemptTimeout .. | .timeEchoReply .. | .rateReq .. | .rateSwitchInstant .. | .rateSwitchLockCheck ..
  | .ulkRetrain .. | .laneRetrainDone .. | .sleepReq .. | .sleepAck .. | .sleepAckTimeout .. | .wakeReq .. | .wakePatternRx ..
  | .linkAck .. | .linkNak .. | .nakTimeout .. | .sampleMark .. | .servoField .. | .servoFieldHandoff .. | .telemetry .. | .headReply ..
  | .headmapApply .. | .armP .. | .disarm .. | .holdOn .. | .holdOff .. | .replay1 .. | .replay2 .. | .replay3 .. | .replay4 ..
  | .replay5 .. | .release .. | .unlistedStrobeCode .. | .chnSoftReset .. | .chnSlotCfgWrite .. | .chnSettingsApply .. | .frontEndDone ..
  | .relaxedSearchStart .. | .decodeEnd .. | .decodeStart .. | .decodeIterationBoundary .. | .replayOperationStart .. | .replayFrontEndDone ..
  | .warmP .. | .warmPB .. | .wdisarm .. | .fhDown1 .. | .fhRestore .. | .writeGateData .. | .wpaWedgeBoundary .. | .inhibitCause ..
  | .wpaInhibitClear .. | .wpaInhibitSet .. | .wpaCtrlWrite .. | .verifyEvent .. | .rewindGatesEnded .. | .inhibitWaitTimeout ..
  | .verifyStallTimeout .. | .loopUpdate .. | .outputLatch .. | .svoCommit .. | .svoWinWrite .. | .svoCtrlWrite ..
  | .svoMemoryZeroDone .. | .capArm .. | .capForce .. | .capStop .. | .load .. | .loadTimeout .. | .actDisable .. | .reenable ..
  | .actRetract .. | .retractTimeout .. | .settleTimeout .. | .actLinkEn .. | .outputFrameSend .. | .ampStatusFrame .. | .linkTimeout ..
  | .ampcmdGo .. | .ampRegReply .. | .ampcmdTimeout .. | .govBudgetWrite .. | .actHeaddisWrite .. | .motStartRequest ..
  | .motStopRequest .. | .motDisable .. | .motTargetChange .. | .motClrFault .. | .pwmPeriod .. | .speedLoopUpdate .. | .observeEnd ..
  | .brakePeek .. | .alignEnd .. | .startTimeout .. | .startRetry .. | .pfailInput .. | .mopSubmit .. | .mopAdmission .. | .ordCplPop ..
  | .ordRun .. | .ordCancel .. | .returnQueued .. | .ordWinWrite .. | .nop .. | .ldi .. | .lui .. | .add .. | .sub .. | .and .. | .or ..
  | .xor .. | .addi .. | .andi .. | .shli .. | .shri .. | .cmp .. | .cmpi .. | .ldd .. | .ldp .. | .lds .. | .br .. | .call .. | .ret ..
  | .poll .. | .wait .. | .waitReturn .. | .seek .. | .gang .. | .strobe .. | .gate .. | .ldband .. | .fin .. | .reservedMicroword ..
  | .wedgeTick .. | .syntheticTick .. | .pollOverrun .. | .endSequenceDrain .. | .sectorPacketDispatch .. | .read .. | .write ..
  | .flush .. | .writeZeroes .. | .compare .. | .zoneAppend .. | .ringCloseTimeout .. | .vRecordTimer .. | .zoneOpen .. | .zoneClose ..
  | .zoneFinish .. | .zoneReset .. | .reportZones .. | .firmwareMopCompletion .. | .evictionWritebackAck .. | .lntInitDone ..
  | .lntSpadChange .. | .lntSpadDone .. | .lntDisable .. | .lntDisableDone .. | .lntEnable .. | .lntRmGo .. | .lntRmDone ..
  | .bufRemapWrite .. | .memRemapWrite .. | .remapCopyDone .. | .memScrubPatrol .. | .bufEccTestArm .. | .memEccTestArm .. | .memInit ..
  | .memTrainingDone .. | .parityDone .. | .packetWrite .. | .packetTake .. | .packetRelink .. | .reservationGrant .. | .cplShareWrite ..
  | .cplQueueReset .. | .cplPoolReset .. | .cplInitDone .. | .chainItemEnter .. | .chainItemTake .. | .hifPortEn .. | .hifRestartAn ..
  | .hifModeWrite .. | .hifQlimitWrite .. | .hifLattolWrite .. | .anAttemptDone .. | .anRetryTimer .. | .hifLinkDown ..
  | .tcpConnectionOpen .. | .keepAliveExpiry .. | .connect .. | .disconnect .. | .propertyGet .. | .propertySet .. | .controllerReset ..
  | .controllerShutdown .. | .identify .. | .getLogPage .. | .setFeatures .. | .getFeatures .. | .abort .. | .asynchronousEventRequest ..
  | .keepAlive .. | .formatNvm .. | .firmwareImageDownload .. | .firmwareCommit .. | .activationIdle .. | .activationTimeout ..
  | .store .. | .retrieve .. | .delete .. | .exist .. | .list .. | .reservationRegister .. | .reservationReport ..
  | .reservationAcquire .. | .reservationRelease .. | .unsupportedCommand .. | .capsuleTake .. | .commandAdmission ..
  | .completionCommit .. | .completionSent .. | .qmgHoldAdmit .. | .harvestReadIssue .. | .harvestPassOverdue .. | .refreshStepDone ..
  | .jubStart .. | .jubAbort .. | .jubRetrain .. | .jubPause .. | .jubEnergyDetect .. | .jubLinkDown .. | .jubLinkRetry ..
  | .jubLinkHoldExpiry .. | .hello .. | .zoneBegin .. | .jubStripeSend .. | .zoneEnd .. | .credit .. | .jubZoneCommit .. | .zoneAck ..
  | .idleTimerExpiry .. | .powerEntryStep .. | .powerExitStep .. | .pl5Req .. | .holdReq .. | .pwrWake .. | .wakeSource ..
  | .vglWakeNInput .. | .vigilAlarm .. | .vbatMeasure .. | .epochTick .. | .epochLoad .. | .vglEpochLoRead .. | .pwrTickLoRead ..
  | .ulkLtimeLoRead .. | .almSeqLoRead .. | .vigilSupplyMonitorFall .. | .hostLaneEnergyDetectorArm .. | .calRunReq .. | .calHold ..
  | .calRunStart .. | .calRunEnd .. | .calShadowWrite .. | .calBatchCommit .. | .calEntryApply .. | .calAdcoffSend .. | .dieTempUpdate ..
  | .thermalTrip .. | .almanacSubmit .. | .almAppGo .. | .almFlush .. | .almFlushTimer .. | .plossWindowClose .. | .almBootScan ..
  | .mirrorWriteTimer .. | .setEndpointId .. | .getEndpointId .. | .getEndpointUuid .. | .getMctpVersionSupport ..
  | .getMessageTypeSupport .. | .getVendorDefinedMessageSupport .. | .unsupportedMctpControl .. | .readNvmeMiDataStructure ..
  | .nvmSubsystemHealthStatusPoll .. | .controllerHealthStatusPoll .. | .configurationGet .. | .configurationSet .. | .vpdRead ..
  | .miAbort .. | .miGetState .. | .mgtUnlistedOpcode .. | .getInfo .. | .regRead .. | .regWrite .. | .regModify .. | .almInfo ..
  | .almRead .. | .imageWrite .. | .imageCommit .. | .stagingTimeout .. | .pskSet .. | .pskClear .. | .jubPlan .. | .otpProgram ..
  | .otpRead .. | .powerReq .. | .dynamicAddressAssignment .. | .managementPortReady .. | .dbgAccess .. | .extest .. | .samplePreload ..
  | .idcode .. | .extestPulse .. | .extestTrain .. | .highz .. | .clamp .. | .scan .. | .bypass .. | .dbgHalt .. | .dbgLock .. => true

end Sys2Proof
end

