-- ==== Sys2Proof/Tests/Slice0.lean ====
section
/-!
SUPPORT. The model's own tests: each check of WellFormed refuses an ill-formed command; the worked examples and tables of the spec;
and, for every statement with hypotheses, states and operands that meet them, clause by clause.
-/
namespace Sys2Proof.Tests
open Sys2Proof Sys2Proof.Machine
set_option maxRecDepth 100000
set_option linter.unusedVariables false
set_option Elab.async false

/-! ## Small states and operands -/

def st : State := { State.reset with fls := { shipped := [] } }
def pHdr (im : Bool) : List Byte := leBytes 4 (if im then 0x53494D47 else 0x54504152) ++ leBytes 4 1 ++ leBytes 4 0 ++ [0, 0xFF] ++ List.replicate 40 0
def dA (s : State) (k : Nat) : List Byte := (upto k).map fun i => BitVec.ofNat 8 (s.free + i * 7)
def cx (op : HostOp) : Ctx := { st := .running, port := 3, cmd := { sqid := 1, cid := 7, nsid := 1, op := op }, order := 0 }
def zg : Group := { id := 0, home := 3, shingled := true, backup := false, width := 4, two := false, window := 0, first := 0, count := 4, gangMap := 0xF, alt := false }
def adm (op : HostOp) : State := { ((((st.setReg cplStatus 4).setRbit (cplQCfg 4) 0 true).setCq 4 { resv := 1 }).setCtx 4095 (some (cx op))) with groups := [zg], fw := { spaces := [{ nsid := 1, kind := 1, groups := [0] }] } }
def admC (op : HostOp) : State := (adm op).setHif 3 { ctrl := some { host := 5, queues := [(0,32),(1,64)] } }
def fx (s : State) : Ctx := (s.fresh 4095).getD (cx .flush)
def ck (s : State) : Ctrl := (s.hifP 3).ctrl.getD {}
def nsp (s : State) : Nspace := (s.space (fx s).cmd.nsid).getD { nsid := 0, kind := 0, groups := [] }
def kvb (op : HostOp) (kv : List KvEnt) : State := let s := adm op; { s with fw := { s.fw with kv := kv, spaces := [{ nsid := 1, kind := 2, groups := [0] }] } }
def zst (op : HostOp) (x : Zone) : State := (adm op).setZone 0 x
def up : State := st.setReg cplStatus 4
def qok (s : State) (q : Nat) : State := (s.setRbit (cplQCfg q) 0 true).setReg (cplQShare q) 0x00640001
def capB (op : HostOp) : State := ((((up.setRbit qmgCtrl 0 true).setRbit (hifCtrl 3) 0 true).setReg (regAddr bQMG 0x2C) 10).setCq 35 { pkts := [⟨.capsule { sqid := 1, cid := 7, nsid := 1, op := op } 0, 64, false⟩] })
def hd (s : State) (q : Nat) : Pkt := ((s.cq q).pkts.head?).getD ⟨.bytes [], 0, false⟩
def capOf (b : Body) : HostCmd := match b with | .capsule c _ => c | _ => { sqid := 0, cid := 0, op := .flush }
def capNo (b : Body) : Nat := match b with | .capsule _ n => n | _ => 0
def cplOf (b : Body) : Nat × Cpl := match b with | .cpl c e => (c, e) | _ => (0, {})
def jz : JubZone := { idx := 0, zone := 0, g := 4, p := 1, lbas := 40, begun := true, stripes := [(0, some [1#32])], again := [0], data := [(0, List.replicate 4 (List.replicate 4112 1))] }
def jbase (role st' : Nat) (zs : List JubZone) : State :=
  let s := (((((st.setReg jubCtrl 7).setReg (jubL 1 0) (BitVec.ofNat 32 role)).setJubSt 1 st').setJubLink 1 2)).setReg (jubL 1 0x10) 0xFFFFFFFF
  ({ s with groups := [zg], fw := { spaces := [{ nsid := 1, kind := 1, groups := [0] }] } } : State).setJub 1 { plan := [⟨1, 1, 0, 3, 0⟩], zones := zs, grant := 9, nextIdx := 3 }
def jq (s : State) : JubZone := (s.jubZone 1 0).getD jz
def jbeg : JubBegin := { idx := 0, srcZone := 5, gen := 6, g := 12, p := 2, lbas := 65536, stripes := 9 }
def almSub : AlmSub := { code := 0x8080, length := 4, payload := [1,2,3,4] }
def almApp (code : W) : State := st
def rs (t : State) : Nat := match t.out with | .mgtReply _ c _ :: _ => c | _ => 0
def appB (code : W) : State := { st with alm := { app := [(0, (code <<< 16) ||| 0xA1A5), (1, 4), (4, 0x04030201)] } }
def mg : State := st.setReg mgtStatus 1
def ra (s : State) : Nat := regAddr (0) (4 * (s.free % 80) + (if s.free % 5 = 0 then 0x1000 else 0)) + s.free % 3
def row (s : State) (o : Nat) : RegRow := (regRow (regAddr bMOT o)).getD ⟨0,[],0,0,0,0⟩
def mo (s : State) : Nat := 4 * (1 + 0)
def entA : AlmEntry := { seq := 5, code := 0x8080, flags := 0, epoch := 9, payload := [1,2,3], crc := 7, page := some 0 }
def sec0 : Sector := { gateId := 5, ltime := 9 }
def ul (x : UlkPort) : State := st.setUlk 3 x
def lk (v : Nat) : State := st.setUlkSt 3 v
def bst (s : State) (h : Nat) : Burst := ((tget (fun _ => []) (s.ulkP 3).bursts h).head?).getD { gateId := 0, readers := 1, ltime := 0, phase := 0 }
def gt0 : Gate := { id := 9, head := 5, kind := .read, gpos := 2, stripe := 3, spos := 4, start := 5000, stop := 9000 }
def osl (x : ChnSlot) : State := st.setSlot 3 23 x
def fq (s : State) (p : Sector → Bool) : Sector := ((s.slot 3 23).sectors.find? p).getD sec0
def infoB (lo : Nat) : List Byte := List.replicate 4096 0 ++ leBytes 16 lo
def g1 : Gate := { gt0 with kind := .write, head := 23, id := 7, start := 2000, stop := 3000 }
def g2 : Gate := { gt0 with kind := .raw, id := 6 }
def ve : State := (st.setOrd 3 { gates := [g2], band := true }).setCq 59 { pkts := [⟨.sector [] { status := 0, slot := 5, gateId := 6 }, 4144, false⟩] }
def scOf (b : Body) : List Byte × SectorRec := match b with | .sector i r => (i, r) | _ => ([], { status := 0, slot := 0 })
def af (body : Nat) : BitVec 96 := let v := 0xB4 * 2^80 + body; BitVec.ofNat 96 (v * 256 + (crc8 88 0xFF (bitsMsb 88 v)).toNat)
def actB (v : Nat) : State := ((st.setReg (regAddr bACT 0) 0xF).setActSt 3 v).setAct 3 { locked := true, ampOut := true }
def svm (i : Nat) (l : List W) : Tbl W := (upto l.length).map fun k => (descWord i + k, lget 0 l k)
def mops : Mop := { w0 := 0x04, w1 := 2, w2 := 3, w3 := 4 }
def mword (op xd xa xb imm : Nat) : W := BitVec.ofNat 32 (op * 2^26 + xd * 2^22 + xa * 2^18 + xb * 2^14 + imm)
def mw (w : W) : State := st.setOrd 3 { phase := .running, pc := 15359, store := [(15359, w)], x := [(1, 0x80000000), (2, 3), (15, 7)], mop := some mops }
def mwo (w : W) (f : Ord → Ord) : State := (mw w).modOrd 3 f
def mpOf (s : State) : Mop := (s.ordP 3).mop.getD mops
def dr (s : State) : Nat × Nat := match (s.ordP 3).phase with | .draining a b => (a, b) | _ => (0, 0)
def wt (s : State) : Nat × W := match (s.ordP 3).phase with | .waiting a b => (a, b) | _ => (0, 0)
def lnOff : State := (st.setReg lntStatus 0x100).setReg memStatus 1
def pq : Pkt := ⟨.bytes [1,2,3], 3, false⟩

/-! ## Well-formedness: each check refuses an ill-formed command -/

def goodPersona : Persona := { board := { heads := [], zones := [], internal := [] }, groups := [], spaces := [] }

/-- A personality table and each bound on its settings. -/
theorem test_wf_persona :
    (personaWf goodPersona && !personaWf { goodPersona with groups := [[0, 0]] } && !personaWf { goodPersona with groups := [[0x800000, 0, 0, 0, 0, 0, 0, 0]] } &&
      !personaWf { goodPersona with groups := List.replicate 257 (List.replicate 8 0) } && !personaWf { goodPersona with spaces := [{ nsid := 1, kind := 1, groups := [0] }] } && !personaWf { goodPersona with ringGib := 3 } &&
      !personaWf { goodPersona with ringGib := 129 } && !personaWf { goodPersona with closeUs := 9 } && !personaWf { goodPersona with poolHalves := 11 } &&
      !personaWf { goodPersona with recovery := [[0]] } && !personaWf { goodPersona with harvest := some [0] } &&
      !personaWf { goodPersona with spaces := [{ nsid := 1, kind := 1, groups := [], ana := 17 }] }) = true := by decide +kernel

/-- The other partition bodies. -/
theorem test_wf_partition :
    (!Instr.wf (.partitionLoad true (.ordo [(4, 0, 0)] []) true) && !Instr.wf (.partitionLoad true (.ordo [(0, 15360, 0)] []) true) &&
      !Instr.wf (.partitionLoad true (.ordo [] [(65536, 0)]) true) && !Instr.wf (.partitionLoad true (.calibration [(0x0FFFFFFC, 0)]) true) &&
      Instr.wf (.partitionLoad true (.ordo [(3, 15359, 0)] [(65535, 0)]) true)) = true := by decide +kernel

/-- Lengths of flits, sectors, samples and accesses. -/
theorem test_wf_lengths :
    (!Instr.wf (.flitReceived 0 0 [0]) && !Instr.wf (.jubFlitReceived 0 0 [0]) && !Instr.wf (.sample 0 0 0 (List.replicate 61 0)) && !Instr.wf (.gateSend 0 65536) &&
      !Instr.wf (.bufferAccess { addr := 0, len := 2, data := some [0] }) &&
      !Instr.wf (.bufferAccess { addr := 0, len := 1, got := [0] }) && !Instr.wf (.bufferAccess { addr := 0, len := 1, order := 8 }) && !Instr.wf (.reservationRequest 0 32769) &&
      !Instr.wf (.parityRequest { tag := 0, rebuild := false, two := false, slots := List.replicate 13 0 }) &&
      !Instr.wf (.parityRequest { tag := 0, rebuild := true, two := false, slots := [], missing := [0, 1, 2] }) &&
      !Instr.wf (.parityRequest { tag := 0, rebuild := true, two := false, slots := [], metas := [2 ^ 80] }) &&
      !Instr.wf (.stripe 0 { plan := 0, stripe := 0, sectors := [[0]] })) = true := by decide +kernel

/-- Codes and masks of the Jubilee messages. -/
theorem test_wf_jubilee :
    (!Instr.wf (.plan 0 [⟨0, 0, 0, 0, 256⟩] 0) && !Instr.wf (.planReply 0 65536) && !Instr.wf (.stripeNak 0 0 0 65536 0) &&
      !Instr.wf (.stripeNak 0 0 0 0 4096) && !Instr.wf (.zoneFail 0 0 (some 65536)) && !Instr.wf (.close 0 (some 65536))) = true := by decide +kernel

/-- Frames of the host, packets and requests of the management port. -/
theorem test_wf_frames_and_packets :
    (!Instr.wf (.ethFrameRx 0 { dest := 0, bytes := 0, pay := .tcp 0 { sqid := 0, cid := 0, op := .write 0 [[0]] } }) &&
      !Instr.wf (.ethFrameRx 0 { dest := 0, bytes := 0, pay := .roce 0 true { sqid := 0, cid := 0, op := .kvStore [] [] false false } }) &&
      !Instr.wf (.mctpPacketRx { bytes := 65 }) && !Instr.wf (.mctpPacketRx { seq := 4 }) && !Instr.wf (.mctpPacketRx { tag := 8 }) &&
      !Instr.wf (.netSet {} 0 ⟨0, 0, 33, 0, List.replicate 16 0, 0, 0, 0⟩) && !Instr.wf (.netSet {} 0 ⟨0, 0, 0, 0, [], 0, 0, 0⟩) &&
      !Instr.wf (.netGet {} 0 0 [0]) && !Instr.wf (.miTunnelledAdmin 0 0 (.commit 8 0 true))) = true := by decide +kernel

/-- A payload longer than LENGTH can say. -/
theorem test_wf_almanac_length : Instr.wf (.almAppend {} 0 (List.replicate 65536 0)) = false := by
  simp only [Instr.wf, List.length_replicate]; decide

/-! ## The spec's worked examples and tables -/

/-- The worked example of 00_scope.md: a register at offset 0x0124 of HIF2 (R14). -/
theorem test_address : regAddr (bHIF 2) 0x124 = 0x100A0124 := by decide
/-- The worked example of 21_register_index.md: CHN_SLOT5_CFG of CHN2 after reset, whatever address bits 1:0 are (R15). -/
theorem test_reset_read : (st.netRead .mgtPort 0x101A1143).2 = 0x00070007 := by decide +kernel
/-- The same example: HIF_WAKE_CODE of HIF2 is bank word 25 (R463). -/
theorem test_bank_word : rvAlias 0x100A002C = 0x10001064 := by decide +kernel
/-- R16: an address below the block windows and one of an unassigned block read 0. -/
theorem test_no_register : ((st.netRead .dbg 0x0FFFFFFC).2, (st.netRead .dbg 0x10070000).2) = (0, 0) := by decide +kernel
/-- R140: 3 granules for one reader, 5 for two, 7 for three. -/
theorem test_min_granules : (minGranules 1, minGranules 2, minGranules 3) = (3, 5, 7) := by decide
/-- Table 11.4: the data unit and the Lantern line of B = 0x4000_0000. -/
theorem test_unit_of_buffer : unitLoc (0x40000000 / 64) = { chan := 1, blk := 279620, unit := 1 } := by decide
theorem test_lantern_line : (lineSet (0x40000000 / 128), lineTag (0x40000000 / 128)) = (8192, 341) := by decide
/-- Table 2.8: stripe and slot of LBA 52,345 of zone 22,934 in the format G = 12, P = 2. -/
theorem test_lba : let g := { zg with width := 12, two := true }
    (g.stripeOf (22934 * 65536 + 52345), g.slotOf (22934 * 65536 + 52345)) = (5234, 5) := by decide
/-- The worked example after R192: loop 63 is the micro loop of A2.H07, with L = 2,500 ns. -/
theorem test_loop_63 : (loopAct 63, loopHead 63, classLatency (loopClass 63)) = (2, 7, 2500) := by decide
/-- Table 6.5: loop 0's descriptor lies at byte 0x3_DA00, its state at 0x2_B200, set 1 at byte 384. -/
theorem test_servo_memory : (4 * descWord 0, 4 * stateWord 0, 4 * setWord 1) = (0x3DA00, 0x2B200, 384) := by decide
/-- The worked example after R219: a seek of 10,000 tracks at ACC 20 and VMAX 200 tracks starts with a step of 20 tracks, and after
9,100 tracks at 200 goes on with one of 180. -/
theorem test_seek_start : seekStep 0 10000 0 1 20 200 = (20, 20, 1, false) := by decide +kernel
theorem test_seek_brakes : seekStep 9100 10000 200 1 20 200 = (9280, 180, 1, false) := by decide +kernel
/-- Table 8.3: the first active vector of 60 cycles is stretched to 980 and 1,380, the second of 660 is not. -/
theorem test_stretched_vector :
    (stretch 2500 260 1180 1240 true, stretch 2500 260 1240 1900 false) = (((980, 1380), true, false), ((1900, 1900), false, false)) := by decide
/-- R21 and Table 20.3: ball BM17 is HL2_D17_TXP, L47 HL1_S1_RXN, G32 HIF1_L3_RXN (R558, R559). -/
theorem test_named_balls : (ballAt 50 17, ballAt 11 47, ballAt 7 32) =
    (.signal (.hlLane 2 true 17 true), .signal (.hlLane 1 false 25 false), .signal (.hifLane 1 false 3 false)) := by decide
/-- The counts after R562 and Table 20.6: 778 signal balls, 1,211 VSS, and each rail's. -/
theorem test_ball_counts :
    let l := (upto 52).flatMap fun r => (upto 52).map fun c => ballAt (r + 1) (c + 1)
    (l.countP fun b => match b with | .signal _ => true | _ => false, l.countP (· == .vss),
      [Rail.core, .sram, .sdsA, .sdsH, .memPhy, .io, .vigil].map fun r => l.countP (· == .rail r)) =
      (778, 1211, [288, 144, 116, 64, 96, 5, 2]) := by decide +kernel
/-- R262: at STOP_RPM and above, CLR_FAULT is refused and the Fault state stays. -/
theorem test_clear_fault_refused : Completes .motClrFault ((st.setReg motStatus 0x27).setReg motRpmReg 60) fun t =>
    t.motSt = 7 ∧ t.rbit motStatus 5 = true ∧ t.rbit motInt 6 = true := ⟨_, rfl, by decide +kernel⟩
/-- R219: a MOP whose cost exceeds BUDGET ends although another waits ahead of it, and the one ahead waits on (R218). -/
theorem test_over_budget_ends : Completes (.govBudgetWrite 50)
    { st.setReg actGovUsed 45 with gov := [⟨0, 10, 0⟩, ⟨1, 60, 0⟩], ord := [(0, { mop := some mops }), (1, { mop := some mops })] } fun t =>
    t.gov = [⟨0, 10, 0⟩] ∧ ((t.ordP 1).cpls.map fun c => c.c0.toNat / 65536) = [0x194] := ⟨_, rfl, by decide +kernel⟩
/-- R268: a write of the microcode while the engine is not Halted is dropped. -/
theorem test_store_write_dropped : Completes (.ordWinWrite 3 0 5) (st.setReg (ordCtrl 3) 1) fun t =>
    (t.ordP 3).word 0 = 0 ∧ t.rbit (ordInt 3) 5 = true := ⟨_, rfl, by decide +kernel⟩
/-- R373: a write of HIF_MODE with PORT_EN 1 is refused. -/
theorem test_mode_refused : Completes (.hifModeWrite 3 false 5) (st.setRbit (hifCtrl 3) 0 true) fun t =>
    t.reg (hifMode 3) = 0 ∧ t.rbit (hifInt 3) 3 = true := ⟨_, rfl, by decide +kernel⟩
/-- R550: a lock word is accepted, a word of sector 1 is not. -/
theorem test_otp_lock_word : Completes (.otpProgram {} 900 0x4C4F434B) st fun t => t.otpLocked 4 = true := ⟨_, rfl, by decide +kernel⟩
theorem test_otp_denied : Completes (.otpProgram {} 128 1) st fun t => t.out = [.mgtReply 0 0x304 []] := ⟨_, rfl, by decide +kernel⟩
/-- R502: a word programmed once keeps its value. -/
theorem test_otp_once : Completes (.otpProgram {} 400 2) { st with fls := { otp := [(400, 5)] } } fun t => t.otpWord 400 = 5 :=
  ⟨_, rfl, by decide +kernel⟩
/-- Table 16.6: with the SDS_H domain off the reference clocks are low and the lanes float; under CLAMP an output follows the boundary
register (R572). -/
theorem test_outputs : let s : State := { st with pwr := { st.pwr with off := 0x20, rails := true } }
    (s.outDrive (.hlRefclk 0), s.outDrive (.hlTx 0), ({ s with dbg := { outputs := 1 } } : State).outDrive (.hlTx 0)) =
      (.low, .floats, .boundary) := by decide +kernel
/-- No word of the table spells a command: its rows have no bits. -/
theorem test_no_table_word : decodeTableWord 32 0xFFFFFFFF = none := rfl

/-! ## The premises of the frames, the queue and OTP_PROGRAM are met -/

theorem test_frame_premises :
    (∃ t, exec (.sleepReq 3) st = .next t) ∧ (∃ t, exec (.wdisarm 3 23) st = .next t) ∧ (∃ t, exec (.ordCplPop 3) st = .next t) ∧
    (∃ t, exec .memInit st = .next t) ∧ (∃ t, exec (.hifRestartAn 3) st = .next t) ∧ (∃ t, exec (.jubPause 1 true) st = .next t) ∧
    (∃ t, exec .mainRailLoss st = .next t) ∧ (∃ t, exec .idcode st = .next t) ∧ (∃ t, exec .powerEntryStep st = .next t) :=
  ⟨⟨_, rfl⟩, ⟨_, rfl⟩, ⟨_, rfl⟩, ⟨_, rfl⟩, ⟨_, rfl⟩, ⟨_, rfl⟩, ⟨_, rfl⟩, ⟨_, rfl⟩, ⟨_, rfl⟩⟩
theorem test_invariant_premises : State.Inv { st with pending := [.mainRailLoss] } ∧ ∃ t, step { st with pending := [.mainRailLoss] } = .next t :=
  ⟨⟨rfl, rfl, rfl⟩, _, rfl⟩
theorem test_queue_premises : ∃ t u, exec .mainRailLoss { st with pending := [.idcode] } = .next t ∧ After 1 t u ∧ u.pending = [] :=
  ⟨_, _, rfl, ⟨_, rfl, rfl⟩, rfl⟩
/-- The premise of STORE's clause that speaks of every zone, in the state of that clause, and CONTROLLER_SHUTDOWN's on every ring. -/
theorem test_store_zones_writable : ∀ j, (kvb (.kvStore [1] [9, 9] true false) [⟨1, [1], 5, 0, 1⟩]).zoneReadOnly j = false := by
  intro j
  unfold State.zoneReadOnly
  split
  · rename_i g hg
    have h := List.mem_of_find?_eq_some hg
    simp [kvb, adm, zg] at h
    rw [h]
  · rfl
/-- No packet waits on any queue, when none of those in the table has one. -/
def noWait (s : State) : Bool := s.cellq.all fun e => e.2.waitPkts == []
theorem test_no_packet_waits (s : State) (h : noWait s = true) : ∀ k, (s.cq k).waitPkts = [] := by
  intro k
  unfold noWait at h
  unfold State.cq
  revert h
  generalize s.cellq = l
  intro h
  induction l with
  | nil => rfl
  | cons e es ih =>
    simp only [List.all_cons, Bool.and_eq_true, beq_iff_eq] at h
    unfold tget
    split
    · exact h.1
    · exact ih h.2
theorem test_no_stripe_staged : ∀ a, (st.ring a).stage = [] := fun _ => rfl
/-- A word of a data sector, a lock word and any other, locked and not, in a request that R546 lets pass. -/
theorem test_otp_premises : let s : State := { st with fls := { otp := [(899, 0x4C4F434B)] } }
    ({} : MgtHdr).iana = 0x0001B7C3 ∧ s.rbit mgtLock 4 = false ∧ s.otpLocked (511 / 128) = true ∧ s.otpLocked (512 / 128) = false ∧
      s.otpLocked (899 - 7 * 128) = true ∧ s.otpLocked (901 - 7 * 128) = false ∧ 768 < 1024 := by decide +kernel

/-! ## The hypotheses of the statements are met -/

/-- Every clause of Obligations.HostPortCommandsComplete that has hypotheses: a state and operands that meet them. -/
theorem test_hypotheses_hostPortCommandsComplete :
    (let s : State := st; let p : Fin 4 := 3; decide (s.rbit (hifCtrl p) 0 = false)) &&
    (let s : State := st.setRbit (hifCtrl 3) 0 true; let p : Fin 4 := 3; decide (s.rbit (hifCtrl p) 0 = true) &&
      decide (s.portCtxs p = [])) &&
    (let s : State := st.setRbit (hifCtrl 3) 0 true; let p : Fin 4 := 3; decide (s.rbit (hifCtrl p) 0 = true)) &&
    (let s : State := st; let p : Fin 4 := 3; decide (s.rbit (hifCtrl p) 0 = false)) &&
    (let s : State := st.setRbit (hifCtrl 3) 0 true; let p : Fin 4 := 3; decide (s.rbit (hifCtrl p) 0 = true)) &&
    (let s : State := ((st.setReg (hifQlimit 0) 0).setReg (hifQlimit 1) 512); let p : Fin 4 := 3;
      let v := 256#32 + ((0#32) &&& 0xFFFFF000#32);
      decide ((((upto 4).filter fun q => q != p.val).map fun q => s.rfld (hifQlimit q) 0 11).sum + fld v 0 11 ≤ 1024)) &&
    (let s : State := st.setHif 3 { link := 1 }; let p : Fin 4 := 3;
      let m : Fin 16 := (((upto 16).find? fun m => s.modeAllowed 3 m).map (fun k => Fin.ofNat 16 k)).getD 0;
      decide ((s.hifP p).link = 1) && decide (s.modeAllowed p m = true)) &&
    (let s : State := st.setHif 3 { link := 1 }; let p : Fin 4 := 3; decide ((s.hifP p).link = 1)) &&
    (let s : State := st.setHif 3 { link := 3 }; let p : Fin 4 := 3; decide ((s.hifP p).link = 3)) &&
    (let s : State := st.setHif 3 { link := 2 }; let p : Fin 4 := 3; decide ((s.hifP p).link = 2)) &&
    (let s : State := (st.setHif 3 { link := 2 }).setRbit (hifCtrl 3) 4 true; let p : Fin 4 := 3;
      let f : EthFrame := { dest := 0xFFFFFFFFFFFF, bytes := 64, pay := .roceConnect 9 }; let qp := 9; decide ((s.hifP p).link = 2) &&
      decide (f.fecCorr = 0) && decide (f.fecUncorr = 0) && decide (f.fcsOk = true) && decide (s.frameAccepted p f = true) &&
      decide (f.pay = .roceConnect qp) && decide (s.fabOn = true) && decide (s.rbit (hifCtrl p) 4 = true)) &&
    (let s : State := st.setHif 3 { link := 2 }; let p : Fin 4 := 3;
      let f : EthFrame := { dest := 5, bytes := 64, fcsOk := false, pay := .other }; decide ((s.hifP p).link = 2) &&
      decide (f.fecCorr = 0) && decide (f.fecUncorr = 0) && decide (f.fcsOk = false) &&
      decide ((s.reg (hifCtr p 2).addr).toNat + 1 < 2 ^ (hifCtr p 2).width - 1)) &&
    (let s : State := (st.setHif 3 { link := 2 }).setRbit (hifCtrl 3) 3 true; let p : Fin 4 := 3; decide ((s.hifP p).link = 2) &&
      decide (s.rbit (hifCtrl p) 3 = true)) &&
    (let s : State := { (st.setHif 3 { link := 2, ctrl := some { kato := 5000 } }) with vgl := { wall := 9000000000 } };
      let p : Fin 4 := 3; let k := ((s.hifP 3).ctrl.getD {}); decide ((s.hifP p).ctrl = some k) &&
      decide (k.kaAt + 1000000 * k.kato ≤ s.vgl.wall) && decide (s.level < 4) && decide (s.pwr.kaStop = false) &&
      decide (s.portCtxs p = [])) := by decide +kernel

/-- Every clause of Obligations.PowerAndPinResetsComplete that has hypotheses: a state and operands that meet them. -/
theorem test_hypotheses_powerAndPinResetsComplete :
    (let r := .cpu 7; decide (Requester.fwOrMgt r = true)) := by decide +kernel

/-- Every clause of Obligations.RequestedResetsComplete that has hypotheses: a state and operands that meet them. -/
theorem test_hypotheses_requestedResetsComplete :
    (let s : State := st; let r := Requester.mgtCore 1; decide (Requester.mayControl r = true) && decide (s.rbit clkReset 0 = false) &&
      decide (s.clk.control = false)) &&
    (let s : State := { st with clk := { control := true } }; decide (s.clk.control = true) &&
      decide (((upto 4).all fun n => s.halted n) = true)) &&
    (let s : State := st; let r := Requester.cpu 7; decide (Requester.fwOrMgt r = true) && decide (s.rbit clkReset 1 = false) &&
      decide (s.clk.wait ≠ some .escalated)) &&
    (let s : State := { st with clk := { wait := some .warm } }; decide (s.clk.wait = some .warm) && decide (s.unparked = []) &&
      decide (s.almFlushed = true)) &&
    (let s : State := (st.setReg motPwm 5).setReg (regAddr 0x21 0) 1; let r := Requester.cpu 7; let b : Fin 64 := 8;
      decide (Requester.fwOrMgt r = true) && decide (blockAt b = true) && decide (b.val ∉ [0, 2, 3, 4, 0x20, 0x21, 0x26, 0x2F]) &&
      decide (s.rbit (clkBlkrst b) (b % 32) = false)) := by decide +kernel

/-- Every clause of Obligations.WatchdogAndBootComplete that has hypotheses: a state and operands that meet them. -/
theorem test_hypotheses_watchdogAndBootComplete :
    (let s : State := st.setRbit idesCfg 16 false; let v := (0#32) ||| 0x10000#32; decide (bitAt v 16 = true) &&
      decide (s.idesOn = false)) &&
    (let s : State := { (st.setRbit idesCfg 16 true) with clk := { timeout := 2000 }, vgl := { wall := 1000000000 } };
      decide (s.idesOn = true) && decide (s.clk.warned = false) && decide (s.clk.kickAt + 500000 * s.clk.timeout ≤ s.vgl.wall)) &&
    (let s : State := { (st.setRbit idesCfg 16 true) with clk := { timeout := 2000 }, vgl := { wall := 2000000000 } };
      decide (s.idesOn = true) && decide (s.clk.kickAt + 1000000 * s.clk.timeout ≤ s.vgl.wall) && decide (s.rfld idesExp 0 2 < 2)) &&
    (let s : State := (st.setReg idesExp 2).setReg clkBoot 3; let v := (0#32) ||| 1#32; decide (bitAt v 0 = true)) &&
    (let s : State := st; let o : BootOut := { ok := true }; decide (s.pwr.rails = true) && decide (s.clk.control = false) &&
      decide (s.clk.wait = none) && decide (s.clk.boot = 1) && decide (o.ok = true)) &&
    (let s : State := { st with clk := { boot := 4 } }; decide (s.pwr.rails = true) && decide (s.clk.control = false) &&
      decide (s.clk.wait = none) && decide (s.clk.boot = 4)) &&
    (let s : State := { st with fls := { shipped := [], pages := [(512*128+1, pHdr false)] } };
      decide (s.flsPage (partitionBlocks 1).1 1 ≠ erasedPage) &&
      decide (s.headerVerifies (s.flsPage (partitionBlocks 1).1 1) false = true)) := by decide +kernel

/-- Every clause of Obligations.AdminCommandsComplete that has hypotheses: a state and operands that meet them. -/
theorem test_hypotheses_adminCommandsComplete :
    (let s : State := adm (.connect 0 1024 5001 9 false false); let c : Fin 4096 := 4095; let x : Ctx := fx s; let p := x.port;
      let size := 1024; let kato := 5001; let host := 9; let rdma := false; decide (s.fresh c = some x) && decide (s.qEnabled 4 = true) &&
      decide (s.poolUp = true) && decide ((s.cq 4).chain = []) && decide ((s.cq 4).waitPkts = []) && decide (1 ≤ (s.cq 4).resv) &&
      decide (x.cmd.op = .connect 0 size kato host false rdma) && decide ((s.hifP p).ctrl = none) && decide (katoOk kato = true) &&
      decide (0 < size) && decide (size ≤ 1024)) &&
    (let s : State := admC .disconnect; let c : Fin 4096 := 4095; let x : Ctx := fx s; let p := x.port; let k := ck s;
      decide (s.fresh c = some x) && decide (s.qEnabled 4 = true) && decide (s.poolUp = true) && decide ((s.cq 4).chain = []) &&
      decide ((s.cq 4).waitPkts = []) && decide (1 ≤ (s.cq 4).resv) && decide (x.cmd.op = .disconnect) &&
      decide ((s.hifP p).ctrl = some k) && decide (x.cmd.sqid ≠ 0)) &&
    (let s : State := admC (.propertyGet 0x1C); let c : Fin 4096 := 4095; let x : Ctx := fx s; let p := x.port; let k := ck s;
      decide (s.fresh c = some x) && decide (s.qEnabled 4 = true) && decide (s.poolUp = true) && decide ((s.cq 4).chain = []) &&
      decide ((s.cq 4).waitPkts = []) && decide (1 ≤ (s.cq 4).resv) && decide (x.cmd.op = .propertyGet 0x1C) &&
      decide ((s.hifP p).ctrl = some k)) &&
    (let s : State := admC (.propertySet 0x14 1); let c : Fin 4096 := 4095; let x : Ctx := fx s; let p := x.port; let k := ck s;
      let v := 1; decide (s.fresh c = some x) && decide (s.qEnabled 4 = true) && decide (s.poolUp = true) &&
      decide ((s.cq 4).chain = []) && decide ((s.cq 4).waitPkts = []) && decide (1 ≤ (s.cq 4).resv) &&
      decide (x.cmd.op = .propertySet 0x14 v) && decide ((s.hifP p).ctrl = some k) && decide (bitAt k.cc 0 = false) &&
      decide (bitAt (v.setWidth 32) 0 = true) && decide (fld (v.setWidth 32 : W) 14 2 = 0)) &&
    (let s : State := admC (.identify 0); let c : Fin 4096 := 4095; let x : Ctx := fx s; let cns := 0; decide (s.fresh c = some x) &&
      decide (s.qEnabled 4 = true) && decide (s.poolUp = true) && decide ((s.cq 4).chain = []) && decide ((s.cq 4).waitPkts = []) &&
      decide (1 ≤ (s.cq 4).resv) && decide (x.cmd.op = .identify cns)) &&
    (let s : State := admC (.getLogPage 0); let c : Fin 4096 := 4095; let x : Ctx := fx s; let lid := 0; decide (s.fresh c = some x) &&
      decide (s.qEnabled 4 = true) && decide (s.poolUp = true) && decide ((s.cq 4).chain = []) && decide ((s.cq 4).waitPkts = []) &&
      decide (1 ≤ (s.cq 4).resv) && decide (x.cmd.op = .getLogPage lid)) &&
    (let s : State := admC (.setFeatures 6 1 []); let c : Fin 4096 := 4095; let x : Ctx := fx s; let v := 1; let apst := [];
      decide (s.fresh c = some x) && decide (s.qEnabled 4 = true) && decide (s.poolUp = true) && decide ((s.cq 4).chain = []) &&
      decide ((s.cq 4).waitPkts = []) && decide (1 ≤ (s.cq 4).resv) && decide (x.cmd.op = .setFeatures 6 v apst)) &&
    (let s : State := admC (.setFeatures 0xC1 0xFFFFF []); let c : Fin 4096 := 4095; let x : Ctx := fx s; let v := 0xFFFFF;
      let apst := []; decide (s.fresh c = some x) && decide (s.qEnabled 4 = true) && decide (s.poolUp = true) &&
      decide ((s.cq 4).chain = []) && decide ((s.cq 4).waitPkts = []) && decide (1 ≤ (s.cq 4).resv) &&
      decide (x.cmd.op = .setFeatures 0xC1 v apst) && decide (fld v 20 12 = 0)) &&
    (let s : State := admC (.getFeatures 1 0); let c : Fin 4096 := 4095; let x : Ctx := fx s; let fid := 1; let sel := 0;
      decide (s.fresh c = some x) && decide (s.qEnabled 4 = true) && decide (s.poolUp = true) && decide ((s.cq 4).chain = []) &&
      decide ((s.cq 4).waitPkts = []) && decide (1 ≤ (s.cq 4).resv) && decide (x.cmd.op = .getFeatures fid sel)) &&
    (let s : State := admC (.abort 1 99); let c : Fin 4096 := 4095; let x : Ctx := fx s; let p := x.port; let sqid := 1; let cid := 99;
      decide (s.fresh c = some x) && decide (s.qEnabled 4 = true) && decide (s.poolUp = true) && decide ((s.cq 4).chain = []) &&
      decide ((s.cq 4).waitPkts = []) && decide (1 ≤ (s.cq 4).resv) && decide (x.cmd.op = .abort sqid cid) &&
      decide (s.lookupCmd p sqid cid = none)) &&
    (let s : State := let s := admC (.abort 1 9);
      ((s.setCq 4 { resv := 3 }).setCtx 77 (some { cx (.flush) with st := .arrived, order := 1, cmd := { sqid := 1, cid := 9, nsid := 1, op := .flush } }));
      let c : Fin 4096 := 4095; let x : Ctx := fx s; let p := x.port; let sqid := 1; let cid := 9; let k := 77;
      let y := (s.ctxAt 77).getD (cx .flush); decide (s.fresh c = some x) && decide (s.qEnabled 4 = true) && decide (s.poolUp = true) &&
      decide ((s.cq 4).chain = []) && decide ((s.cq 4).waitPkts = []) && decide (1 ≤ (s.cq 4).resv) &&
      decide (x.cmd.op = .abort sqid cid) && decide (sqid ≠ 0) && decide (s.lookupCmd p sqid cid = some (k, y)) && decide (k ≠ c.val) &&
      decide (y.early = true) && decide (opWrites y.cmd.op = false) && decide (y.discard = false) && decide (s.ctxAt k = some y)) &&
    (let s : State := let s := admC (.abort 1 9);
      ((s.setCq 4 { resv := 3 }).setCtx 77 (some { cx (.flush) with st := .running, order := 1, cmd := { sqid := 1, cid := 9, nsid := 1, op := .flush } }));
      let c : Fin 4096 := 4095; let x : Ctx := fx s; let p := x.port; let sqid := 1; let cid := 9; let k := 77;
      let y := (s.ctxAt 77).getD (cx .flush); decide (s.fresh c = some x) && decide (s.qEnabled 4 = true) && decide (s.poolUp = true) &&
      decide ((s.cq 4).chain = []) && decide ((s.cq 4).waitPkts = []) && decide (1 ≤ (s.cq 4).resv) &&
      decide (x.cmd.op = .abort sqid cid) && decide (sqid ≠ 0) && decide (s.lookupCmd p sqid cid = some (k, y)) && decide (k ≠ c.val) &&
      decide (s.ctxAt k = some y) && decide (y.st = .running) && decide (y.begun = false) && decide (y.ended = false) &&
      decide (opWrites y.cmd.op = false) && decide (2 ≤ (s.cq 4).resv)) &&
    (let s : State := (admC (.format 0)).setCtx 4095 (some { cx (.format 0) with cmd := { sqid := 0, cid := 7, nsid := 1, op := .format 0 } });
      let c : Fin 4096 := 4095; let x : Ctx := fx s; let n := nsp s; decide (s.fresh c = some x) && decide (s.qEnabled 4 = true) &&
      decide (s.poolUp = true) && decide ((s.cq 4).chain = []) && decide ((s.cq 4).waitPkts = []) && decide (1 ≤ (s.cq 4).resv) &&
      decide (x.cmd.op = .format 0) && decide (s.space x.cmd.nsid = some n) &&
      decide ((∀ z ∈ s.zonesOf n, (s.zone z).receiving = false ∧ s.zoneBusy z = false ∧ s.bandBusy z = false)) &&
      decide ((∀ e ∈ s.ctxs, ¬ (e.2.st = .running ∧ cmdIo e.2.cmd = true ∧ e.2.cmd.nsid = n.nsid)))) &&
    (let s : State := admC (.fwDownload 4096 [1,2,3]); let c : Fin 4096 := 4095; let x : Ctx := fx s; let off := 4096;
      let data := [1,2,3]; decide (s.fresh c = some x) && decide (s.qEnabled 4 = true) && decide (s.poolUp = true) &&
      decide ((s.cq 4).chain = []) && decide ((s.cq 4).waitPkts = []) && decide (1 ≤ (s.cq 4).resv) &&
      decide (x.cmd.op = .fwDownload off data) && decide (s.stageFree 3 = true)) &&
    (let s : State := { admC (.fwCommit 2 2) with fls := { shipped := [], pages := [(512*64+1, pHdr true)] } }; let c : Fin 4096 := 4095;
      let x : Ctx := fx s; let slot := 2; decide (s.fresh c = some x) && decide (s.qEnabled 4 = true) && decide (s.poolUp = true) &&
      decide ((s.cq 4).chain = []) && decide ((s.cq 4).waitPkts = []) && decide (1 ≤ (s.cq 4).resv) &&
      decide (x.cmd.op = .fwCommit slot 2) && decide (1 ≤ slot) && decide (slot ≤ 2) && decide (s.fls.op = none) &&
      decide (s.fls.suspended = none) && decide (s.headerVerifies (s.slotHeader (slot - 1)) true = true) &&
      decide (s.rbit clkBoot 4 = false)) &&
    (let s : State := kvb (.kvDelete [1]) [⟨1,[1],5,0,1⟩]; let c : Fin 4096 := 4095; let x : Ctx := fx s; let key := [1];
      let e := (s.kvFind (fx s).cmd.nsid [1]).getD ⟨0,[],0,0,0⟩; decide (s.fresh c = some x) && decide (s.qEnabled 4 = true) &&
      decide (s.poolUp = true) && decide ((s.cq 4).chain = []) && decide ((s.cq 4).waitPkts = []) && decide (1 ≤ (s.cq 4).resv) &&
      decide (x.cmd.op = .kvDelete key) && decide (keyOk key = true) && decide (s.kvFind x.cmd.nsid key = some e)) &&
    (let s : State := kvb (.kvExist [1]) [⟨1,[1],5,0,1⟩]; let c : Fin 4096 := 4095; let x : Ctx := fx s; let key := [1];
      decide (s.fresh c = some x) && decide (s.qEnabled 4 = true) && decide (s.poolUp = true) && decide ((s.cq 4).chain = []) &&
      decide ((s.cq 4).waitPkts = []) && decide (1 ≤ (s.cq 4).resv) && decide (x.cmd.op = .kvExist key) && decide (keyOk key = true)) &&
    (let s : State := kvb (.kvList [1]) [⟨1,[1],5,0,1⟩]; let c : Fin 4096 := 4095; let x : Ctx := fx s; let key := [1];
      decide (s.fresh c = some x) && decide (s.qEnabled 4 = true) && decide (s.poolUp = true) && decide ((s.cq 4).chain = []) &&
      decide ((s.cq 4).waitPkts = []) && decide (1 ≤ (s.cq 4).resv) && decide (x.cmd.op = .kvList key)) &&
    (let s : State := kvb (.kvRetrieve [2]) [⟨1,[1],5,0,1⟩]; let c : Fin 4096 := 4095; let x : Ctx := fx s; let key := [2];
      let n := nsp s; decide (s.fresh c = some x) && decide (s.qEnabled 4 = true) && decide (s.poolUp = true) &&
      decide ((s.cq 4).chain = []) && decide ((s.cq 4).waitPkts = []) && decide (1 ≤ (s.cq 4).resv) &&
      decide (x.cmd.op = .kvRetrieve key) && decide (s.space x.cmd.nsid = some n) && decide (keyOk key = true) &&
      decide (s.kvFind n.nsid key = none)) &&
    (let s : State := admC (.reportZones 0); let c : Fin 4096 := 4095; let x : Ctx := fx s; let lba := 0; let n := nsp s;
      decide (s.fresh c = some x) && decide (s.qEnabled 4 = true) && decide (s.poolUp = true) && decide ((s.cq 4).chain = []) &&
      decide ((s.cq 4).waitPkts = []) && decide (1 ≤ (s.cq 4).resv) && decide (x.cmd.op = .reportZones lba) &&
      decide (s.space x.cmd.nsid = some n)) &&
    (let s : State := admC (.unsupported 200); let c : Fin 4096 := 4095; let x : Ctx := fx s; let code := 200;
      decide (s.fresh c = some x) && decide (s.qEnabled 4 = true) && decide (s.poolUp = true) && decide ((s.cq 4).chain = []) &&
      decide ((s.cq 4).waitPkts = []) && decide (1 ≤ (s.cq 4).resv) && decide (x.cmd.op = .unsupported code)) := by decide +kernel

/-- Every clause of Obligations.ReservationCommandsComplete that has hypotheses: a state and operands that meet them. -/
theorem test_hypotheses_reservationCommandsComplete :
    (let s : State := admC (.rsvRegister 0 0 77 0 true); let c : Fin 4096 := 4095; let x : Ctx := fx s; let h := s.hostOf x.port;
      let r := s.rsvOf x.cmd.nsid; let cur := 0; let new := 77; let ign := true; decide (s.fresh c = some x) &&
      decide (x.cmd.op = .rsvRegister 0 cur new 0 ign) && decide (r.keyOf h = none)) &&
    (let s : State := admC .rsvReport; let c : Fin 4096 := 4095; let x : Ctx := fx s; decide (s.fresh c = some x) &&
      decide (x.cmd.op = .rsvReport)) &&
    (let s : State := let s := admC (.rsvAcquire 0 1 77 0); { s with fw := { s.fw with rsv := [{ nsid := 1, keys := [(5,77)] }] } };
      let c : Fin 4096 := 4095; let x : Ctx := fx s; let h := s.hostOf x.port; let r := s.rsvOf x.cmd.nsid; let ty := 1; let cur := 77;
      let pre := 0; decide (s.fresh c = some x) && decide (x.cmd.op = .rsvAcquire 0 ty cur pre) && decide (r.keyOf h = some cur) &&
      decide (1 ≤ ty) && decide (ty ≤ 6) && decide (r.type_ = 0)) &&
    (let s : State := let s := admC (.rsvRelease 0 1 77);
      { s with fw := { s.fw with rsv := [{ nsid := 1, keys := [(5,77)], type_ := 1, holder := some 5 }] } }; let c : Fin 4096 := 4095;
      let x : Ctx := fx s; let h := s.hostOf x.port; let r := s.rsvOf x.cmd.nsid; let cur := 77; decide (s.fresh c = some x) &&
      decide (x.cmd.op = .rsvRelease 0 r.type_ cur) && decide (r.keyOf h = some cur) && decide (r.type_ ≠ 0) &&
      decide (r.holder = some h)) := by decide +kernel

/-- Every clause of Obligations.HostDataCommandsComplete that has hypotheses: a state and operands that meet them. -/
theorem test_hypotheses_hostDataCommandsComplete :
    (let s : State := adm (.read 1 2 false); let c : Fin 4096 := 4095; let x : Ctx := fx s; let n : Nspace := nsp s; let lba := 1;
      let k := 2; let lim := false; decide (s.fresh c = some x) && decide (s.space x.cmd.nsid = some n) &&
      decide (s.behindReset x n = false) && decide (x.cmd.op = .read lba k lim) && decide ((s.bufferBad (s.keysOf n lba k) .clean).2 = 0)) &&
    (let s : State := adm (.compare 1 [List.replicate 4096 1]); let c : Fin 4096 := 4095; let x : Ctx := fx s; let n : Nspace := nsp s;
      let lba := 1; let d := [List.replicate 4096 1]; decide (s.fresh c = some x) && decide (s.space x.cmd.nsid = some n) &&
      decide (s.behindReset x n = false) && decide (x.cmd.op = .compare lba d) &&
      decide ((s.bufferBad (s.keysOf n lba d.length) .clean).2 = 0)) &&
    (let s : State := adm (.write 1 [[5]]); let c : Fin 4096 := 4095; let x : Ctx := fx s; let n : Nspace := nsp s; let lba := 1;
      let d := [[5]]; decide (s.fresh c = some x) && decide (s.space x.cmd.nsid = some n) && decide (x.cmd.op = .write lba d)) &&
    (let s : State := adm (.writeZeroes 1 2); let c : Fin 4096 := 4095; let x : Ctx := fx s; let n : Nspace := nsp s; let lba := 1;
      let j := 2; decide (s.fresh c = some x) && decide (s.space x.cmd.nsid = some n) && decide (x.cmd.op = .writeZeroes lba j)) &&
    (let s : State := adm (.zoneAppend 1 [[5]]); let c : Fin 4096 := 4095; let x : Ctx := fx s; let n : Nspace := nsp s; let lba := 1;
      let d := [[5]]; decide (s.fresh c = some x) && decide (s.space x.cmd.nsid = some n) && decide (x.cmd.op = .zoneAppend lba d)) &&
    (let s : State := adm .flush; let c : Fin 4096 := 4095; let x : Ctx := fx s; let n : Nspace := nsp s; decide (s.fresh c = some x) &&
      decide (s.space x.cmd.nsid = some n) && decide (x.cmd.op = .flush) && decide (x.need = [])) &&
    (let s : State := (let s := adm .flush;
      { (s.setCtx 4095 (some { cx .flush with need := [5] })) with fw := { s.fw with spaces := [{ nsid := 1, kind := 0, groups := [0] }], dirty := [(5, some { bytes := [1], ver := 3 })] } });
      let c : Fin 4096 := 4095; let x : Ctx := fx s; let n : Nspace := nsp s; decide (s.fresh c = some x) &&
      decide (s.space x.cmd.nsid = some n) && decide (x.cmd.op = .flush) && decide (x.need ≠ [])) &&
    (let s : State := zst (.zoneSend 0 3 false) {}; let c : Fin 4096 := 4095; let x : Ctx := fx s; let n : Nspace := nsp s; let lba := 0;
      let z := 0; decide (s.fresh c = some x) && decide (s.space x.cmd.nsid = some n) && decide (x.cmd.op = .zoneSend lba 3 false) &&
      decide (s.sendZones n lba false = some [z]) && decide ((s.zone z).receiving = false) && decide (s.zoneReadOnly z = false) &&
      decide ((s.zone z).st ≠ .full) && decide (s.openLimit n z = 0)) &&
    (let s : State := zst (.zoneSend 0 1 false) { st := .implOpen }; let c : Fin 4096 := 4095; let x : Ctx := fx s;
      let n : Nspace := nsp s; let lba := 0; let z := 0; decide (s.fresh c = some x) && decide (s.space x.cmd.nsid = some n) &&
      decide (x.cmd.op = .zoneSend lba 1 false) && decide (s.sendZones n lba false = some [z]) && decide ((s.zone z).receiving = false) &&
      decide (s.zoneReadOnly z = false) && decide (((s.zone z).st = .implOpen ∨ (s.zone z).st = .explOpen))) &&
    (let s : State := zst (.zoneSend 0 4 false) { st := .full, accept := 5, v := 3, gen := 65535 }; let c : Fin 4096 := 4095;
      let x : Ctx := fx s; let n : Nspace := nsp s; let lba := 0; let z := 0; let g := (s.groupOf 0).getD zg;
      decide (s.fresh c = some x) && decide (s.space x.cmd.nsid = some n) && decide (x.cmd.op = .zoneSend lba 4 false) &&
      decide (s.sendZones n lba false = some [z]) && decide (s.sendReady c n lba false = true) && decide (s.groupOf z = some g) &&
      decide ((s.zone z).receiving = false) && decide (s.zoneReadOnly z = false)) &&
    (let s : State := zst (.zoneSend 0 2 false) { st := .full, accept := 5, v := 3, gen := 65535 }; let c : Fin 4096 := 4095;
      let x : Ctx := fx s; let n : Nspace := nsp s; let lba := 0; let z := 0; let g := (s.groupOf 0).getD zg;
      decide (s.fresh c = some x) && decide (s.space x.cmd.nsid = some n) && decide (x.cmd.op = .zoneSend lba 2 false) &&
      decide (s.sendZones n lba false = some [z]) && decide (s.sendReady c n lba false = true) && decide (s.groupOf z = some g) &&
      decide ((s.zone z).receiving = false) && decide (s.zoneReadOnly z = false) && decide ((s.zone z).st = .full)) &&
    (let s : State := zst (.zoneSend 0 2 false) { st := .explOpen, accept := 5, v := 3, gen := 65535 }; let c : Fin 4096 := 4095;
      let x : Ctx := fx s; let n : Nspace := nsp s; let lba := 0; let z := 0; let g := (s.groupOf 0).getD zg;
      decide (s.fresh c = some x) && decide (s.space x.cmd.nsid = some n) && decide (x.cmd.op = .zoneSend lba 2 false) &&
      decide (s.sendZones n lba false = some [z]) && decide (s.sendReady c n lba false = true) && decide (s.groupOf z = some g) &&
      decide ((s.zone z).receiving = false) && decide (s.zoneReadOnly z = false) && decide ((s.zone z).st ≠ .full) &&
      decide ((s.zone z).accept ≤ g.d * (s.zone z).v)) &&
    (let s : State := zst (.zoneSend 0 2 false) { st := .implOpen, accept := 50, v := 3, gen := 65535 }; let c : Fin 4096 := 4095;
      let x : Ctx := fx s; let n : Nspace := nsp s; let lba := 0; let z := 0; let g := (s.groupOf 0).getD zg;
      decide (s.fresh c = some x) && decide (s.space x.cmd.nsid = some n) && decide (x.cmd.op = .zoneSend lba 2 false) &&
      decide (s.sendZones n lba false = some [z]) && decide (s.sendReady c n lba false = true) && decide (s.groupOf z = some g) &&
      decide ((s.zone z).receiving = false) && decide (s.zoneReadOnly z = false) && decide ((s.zone z).st ≠ .full) &&
      decide (g.d * (s.zone z).v < (s.zone z).accept)) &&
    (let s : State := kvb (.kvStore [1] [9,9] true false) [⟨1,[1],5,0,1⟩]; let c : Fin 4096 := 4095; let x : Ctx := fx s;
      let n : Nspace := nsp s; let key := [1]; let value := [9,9]; let must := true; decide (s.fresh c = some x) &&
      decide (s.space x.cmd.nsid = some n) && decide (x.cmd.op = .kvStore key value must false) && decide (keyOk key = true) &&
      decide (value.length ≤ 2 ^ 24) && decide ((s.kvFind n.nsid key).isSome = true) &&
      decide (kvGap (s.fw.kv.filter fun e => e.nsid == n.nsid) (ceilDiv value.length 4096) ((s.fw.kv.filter fun e => e.nsid == n.nsid).length + 1) 0 + ceilDiv value.length 4096 ≤ s.spaceLbas n)) &&
    (let s : State := kvb (.kvRetrieve [1]) [⟨1,[1],5,0,1⟩]; let c : Fin 4096 := 4095; let x : Ctx := fx s; let n : Nspace := nsp s;
      let key := [1]; let e := (s.kvFind (nsp s).nsid [1]).getD ⟨0,[],0,0,0⟩; decide (s.fresh c = some x) &&
      decide (s.space x.cmd.nsid = some n) && decide (x.cmd.op = .kvRetrieve key) && decide (keyOk key = true) &&
      decide (s.kvFind n.nsid key = some e) && decide ((s.bufferBad (s.keysOf n e.lba e.n) .clean).2 = 0)) := by decide +kernel

/-- Every clause of Obligations.QueueManagerCommandsComplete that has hypotheses: a state and operands that meet them. -/
theorem test_hypotheses_queueManagerCommandsComplete :
    (let s : State := st.setHif 3 { ctrl := some { cc := 1, queues := [(0,32)] } }; let p : Fin 4 := 3; let k := ck s;
      decide ((s.hifP p).ctrl = some k) && decide (bitAt k.cc 0 = true) && decide (s.ctx = []) && decide (s.fw.pendingSlot = none)) &&
    (let s : State := st.setHif 3 { ctrl := some { cc := 1, queues := [(0,32)] } }; let p : Fin 4 := 3; let k := ck s;
      decide ((s.hifP p).ctrl = some k) && decide (k.stopping = false) && decide (s.portCtxs p = []) &&
      decide ((∀ e ∈ s.fw.dirty, e.2 = none))) &&
    (let s : State := st.setCtx 4095 (some { cx .asyncEvent with st := .arrived }); let c : Fin 4096 := 4095;
      let x := (s.ctxAt 4095).getD (cx .flush); decide (s.ctxAt c = some x) && decide (x.st = .arrived) &&
      decide (x.cmd.op = .asyncEvent) && decide (s.fw.events = [])) &&
    (let s : State := (st.setCtx 4095 (some { cx .keepAlive with st := .arrived })).setHif 3 { ctrl := some {} };
      let c : Fin 4096 := 4095; let x := (s.ctxAt 4095).getD (cx .flush); let k := ck s; decide (s.ctxAt c = some x) &&
      decide (x.st = .arrived) && decide (x.cmd.op = .keepAlive) && decide (x.discard = false) && decide ((s.hifP x.port).ctrl = some k)) &&
    (let s : State := { st with fw := { activate := some (0, 1, 5) } }; let slot := (s.fw.activate.getD (0,0,0)).2.1;
      let w := (s.fw.activate.getD (0,0,0)).2.2; decide (s.fw.activate = some (0, slot, w)) && decide (s.qmgIdle = true)) &&
    (let s : State := { st with fw := { activate := some (0, 1, 5) }, vgl := { wall := 10000000005 } };
      let slot := (s.fw.activate.getD (0,0,0)).2.1; let w := (s.fw.activate.getD (0,0,0)).2.2;
      decide (s.fw.activate = some (0, slot, w)) && decide (w + 10000000000 ≤ s.vgl.wall)) &&
    (let s : State := capB .asyncEvent; let p : Fin 4 := 3; let k := hd s 35; let ks := (s.cq 35).pkts.tail;
      let b := capOf (hd s 35).body; let m := capNo (hd s 35).body; let c := s.capsuleCmd 3 (capOf (hd s 35).body) (capNo (hd s 35).body);
      let no := s.freeCtxNo.getD 0; decide (s.poolUp = true) && decide ((s.cq (32 + p)).pkts = k :: ks) &&
      decide (k.body = .capsule b m) && decide (c = s.capsuleCmd p b m) && decide (s.mayTake p c = true) &&
      decide (s.freeCtxNo = some no) && decide (c.op = .asyncEvent) && decide (s.pwrAway = false)) &&
    (let s : State := (let s := capB .flush; { s with fw := { spaces := [{ nsid := 1, kind := 1, groups := [0] }] } });
      let p : Fin 4 := 3; let k := hd s 35; let ks := (s.cq 35).pkts.tail; let b := capOf (hd s 35).body; let m := capNo (hd s 35).body;
      let c := s.capsuleCmd 3 (capOf (hd s 35).body) (capNo (hd s 35).body); let no := s.freeCtxNo.getD 0; decide (s.poolUp = true) &&
      decide ((s.cq (32 + p)).pkts = k :: ks) && decide (k.body = .capsule b m) && decide (c = s.capsuleCmd p b m) &&
      decide (s.mayTake p c = true) && decide (s.freeCtxNo = some no) && decide (c.op = .flush) && decide (s.cmdCheck p c = none) &&
      decide (s.pwrAway = false)) &&
    (let s : State := (qok up 4).setCtx 4095 (some { cx .flush with st := .waiting }); let c := (s.nextWaiting.getD (0, cx .flush)).1;
      let x := (s.nextWaiting.getD (0, cx .flush)).2; decide (s.nextWaiting = some (c, x)) && decide (s.admitOutcome x = 0)) &&
    (let s : State := (up.setCtx 4095 (some (cx .flush))).setCq 4 { pkts := [⟨.cpl 4095 { sc := 3 }, 20, false⟩] }; let k := hd s 4;
      let ks := (s.cq 4).pkts.tail; let c := (cplOf (hd s 4).body).1; let e := (cplOf (hd s 4).body).2;
      let x := (s.ctxAt 4095).getD (cx .flush); decide ((s.cq 4).pkts = k :: ks) && decide (k.body = .cpl c e) &&
      decide (s.ctxAt c = some x) && decide (x.st ≠ .committed) && decide (x.discard = false)) &&
    (let s : State := (up.setCtx 4095 (some (cx .flush))).setCq 3 { pkts := [⟨.cpl 4095 { sc := 3 }, 20, false⟩] }; let p : Fin 4 := 3;
      let k := hd s 3; let ks := (s.cq 3).pkts.tail; let c := (cplOf (hd s 3).body).1; let e := (cplOf (hd s 3).body).2;
      let x := (s.ctxAt 4095).getD (cx .flush); decide ((s.cq p).pkts = k :: ks) && decide (k.body = .cpl c e) &&
      decide (s.ctxAt c = some x)) := by decide +kernel

/-- Every clause of Obligations.HarvestCommandsComplete that has hypotheses: a state and operands that meet them. -/
theorem test_hypotheses_harvestCommandsComplete :
    (let s : State := { st with groups := [zg], cal := { refTables := [{ zone := 1, gen := 0, words := List.replicate 16 7 }] }, fw := { harv := [(3, { queue := [(1, 2), (1, 3)] })] } };
      let a : Fin 4 := 3; let z := ((s.harv 3).queue.head?.getD (0,0)).1; let t := ((s.harv 3).queue.head?.getD (0,0)).2;
      let q := (s.harv 3).queue.tail; decide (s.actSt a ≠ 6) && decide (s.jubSource = false) &&
      decide ((∀ j ∈ s.fw.jobs, ¬ ((j.kind = .harvest ∨ j.kind = .capture) ∧ j.eng = a.val))) && decide (s.pwrAway = false) &&
      decide (s.hostWork a = false) && decide ((s.harv a).queue = (z, t) :: q) && decide ((s.harv a).margins = []) &&
      decide ((z < 2 ^ 21 → s.lacksTable z = false))) &&
    (let s : State := { st with groups := [zg], fw := { harv := [(3, { queue := [(1, 2), (1, 3)] })] } }; let a : Fin 4 := 3;
      let z := ((s.harv 3).queue.head?.getD (0,0)).1; let t := ((s.harv 3).queue.head?.getD (0,0)).2; let q := (s.harv 3).queue.tail;
      decide (s.actSt a ≠ 6) && decide (s.jubSource = false) &&
      decide ((∀ j ∈ s.fw.jobs, ¬ ((j.kind = .harvest ∨ j.kind = .capture) ∧ j.eng = a.val))) && decide (s.pwrAway = false) &&
      decide (s.hostWork a = false) && decide ((s.harv a).queue = (z, t) :: q) && decide ((s.harv a).margins = []) &&
      decide (z < 2 ^ 21) && decide (s.lacksTable z = true)) &&
    (let s : State := { st with fw := { harv := [(3, { start := 0 })] }, vgl := { epoch := 99999999999999 } }; let a : Fin 4 := 3;
      decide ((s.harv a).behind = false) && decide (s.fw.harvCfg.period * 86400 ≤ s.passAge a)) &&
    (let s : State := { st with groups := [{ zg with width := 20, gangMap := 0xFFFFF }], fw := { harv := [(3, { refresh := some 1,  })], zones := [(1, { refresh := 1, st := .full, v := 1, accept := 5 })] } };
      let a : Fin 4 := 3; let z := (s.harv 3).refresh.getD 0; let g := (s.groupOf ((s.harv 3).refresh.getD 0)).getD zg;
      decide ((s.harv a).refresh = some z) && decide (s.groupOf z = some g) && decide (g.home = a.val) &&
      decide ((∀ j ∈ s.fw.jobs, ¬ ((j.kind = .refreshRead ∨ j.kind = .refreshCopy ∨ j.kind = .refreshWrite) ∧ j.zone = z))) &&
      decide ((∀ l ∈ s.fw.ladders, ¬ (l.fresh = true ∧ l.zone = z))) && decide ((s.harv a).copied < s.freshTop g z)) &&
    (let s : State := { st with groups := [{ zg with width := 20, gangMap := 0xFFFFF }], fw := { harv := [(3, { refresh := some 1, copied := 40000 })], zones := [(1, { refresh := 1, st := .full, v := 1, accept := 5 })] } };
      let a : Fin 4 := 3; let z := (s.harv 3).refresh.getD 0; let g := (s.groupOf ((s.harv 3).refresh.getD 0)).getD zg;
      decide ((s.harv a).refresh = some z) && decide (s.groupOf z = some g) && decide (g.home = a.val) &&
      decide ((∀ j ∈ s.fw.jobs, ¬ ((j.kind = .refreshRead ∨ j.kind = .refreshCopy ∨ j.kind = .refreshWrite) ∧ j.zone = z))) &&
      decide ((∀ l ∈ s.fw.ladders, ¬ (l.fresh = true ∧ l.zone = z))) && decide (s.freshTop g z ≤ (s.harv a).copied) &&
      decide ((s.zone z).refresh ≤ 2) && decide ((s.harv a).saved < s.freshTop g z)) &&
    (let s : State := { st with groups := [{ zg with width := 0 }], fw := { harv := [(3, { refresh := some 1, copied := 40000, saved := 40000 })], zones := [(1, { refresh := 1, gen := 65535, v := 9 })] } };
      let a : Fin 4 := 3; let z := (s.harv 3).refresh.getD 0; let g := (s.groupOf ((s.harv 3).refresh.getD 0)).getD zg;
      decide ((s.harv a).refresh = some z) && decide (s.groupOf z = some g) && decide (g.home = a.val) &&
      decide ((∀ j ∈ s.fw.jobs, ¬ ((j.kind = .refreshRead ∨ j.kind = .refreshCopy ∨ j.kind = .refreshWrite) ∧ j.zone = z))) &&
      decide ((∀ l ∈ s.fw.ladders, ¬ (l.fresh = true ∧ l.zone = z))) && decide (s.freshTop g z ≤ (s.harv a).copied) &&
      decide ((s.zone z).refresh ≤ 2) && decide (s.freshTop g z ≤ (s.harv a).saved)) := by decide +kernel

/-- Every clause of Obligations.JubileeSessionCommandsComplete that has hypotheses: a state and operands that meet them. -/
theorem test_hypotheses_jubileeSessionCommandsComplete :
    (let s : State := (st.setReg jubCtrl 7); let k : Fin 2 := 1; decide (s.jubSt k < 3 ∨ 5 < s.jubSt k) && decide (s.jubHas k = true)) &&
    (let s : State := st.setJubSt 1 1; let k : Fin 2 := 1; decide (1 ≤ s.jubSt k) && decide (s.jubSt k ≤ 5) && decide (s.jubLinkSt k ≠ 2)) &&
    (let s : State := (st.setReg jubCtrl 7).setJubLink 1 2; let k : Fin 2 := 1; decide (s.rbit jubCtrl 0 = true) &&
      decide (s.jubHas k = true) && decide (s.jubLinkSt k = 2)) &&
    (let s : State := (st.setReg jubCtrl 7).setJubLink 1 1; let k : Fin 2 := 1; decide (s.rbit jubCtrl 0 = true) &&
      decide (s.jubHas k = true) && decide (s.jubLinkSt k ≠ 0) && decide (s.rfld jubCtrl 2 2 ≠ 3)) &&
    (let s : State := (st.setReg jubCtrl 3).setJubSt 1 3; let k : Fin 2 := 1; decide (s.jubSrc k = true) && decide (s.jubSt k = 3)) &&
    (let s : State := (st.setReg jubCtrl 3).setJubSt 1 4; let k : Fin 2 := 1; decide (s.jubSrc k = true) && decide (s.jubSt k = 4)) &&
    (let s : State := st.setReg jubCtrl 0xB; let k : Fin 2 := 1; decide (s.rbit jubCtrl 0 = true) && decide (s.jubHas k = true) &&
      decide (s.jubLinkSt k = 0) && decide (s.pwr.off.testBit 3 = false) && decide (s.rfld jubCtrl 2 2 ≠ 3)) &&
    (let s : State := ((st.setReg jubCtrl 7).setJubLink 1 2).setJubSt 1 4; let k : Fin 2 := 1; decide (s.jubLinkSt k = 2) &&
      decide (1 ≤ s.jubSt k) && decide (s.jubSt k ≤ 4)) &&
    (let s : State := (((st.setReg jubCtrl 7).setJubLink 1 3).setJubSt 1 5).setJub 1 { heldFrom := 4 }; let k : Fin 2 := 1;
      decide (s.rbit jubCtrl 0 = true) && decide (s.jubLinkSt k = 3) && decide (s.jubSt k = 5) && decide (s.rfld jubCtrl 2 2 ≠ 3) &&
      decide ((s.jubK k).heldFrom < 16)) &&
    (let s : State := (st.setJubSt 1 5).setJub 1 { recDone := 5, recSession := some 3 }; let k : Fin 2 := 1; decide (s.jubSt k = 5)) &&
    (let s : State := ((st.setReg jubCtrl 7).setJubLink 1 2).setJubSt 1 1; let k : Fin 2 := 1; decide (s.jubSt k = 1) &&
      decide (s.jubLinkSt k = 2) && decide ((s.jubK k).sent = false) && decide ((s.jubK k).got = false)) &&
    (let s : State := ((st.setReg jubCtrl 7).setJubLink 1 2).setJubSt 1 1; let k : Fin 2 := 1;
      let h : JubHello := { session := 4, role := (if s.jubSrc 1 then 1 else 0), width := 8, window := 4, credit := 5 };
      decide (s.jubSt k = 1) && decide (s.jubLinkSt k = 2) && decide ((s.jubK k).sent = false) && decide (h.version = 1) &&
      decide (h.role = (if s.jubSrc k then 1 else 0))) &&
    (let s : State := ((st.setReg jubCtrl 7).setReg (jubL 1 0) 1).setJubSt 1 2; let k : Fin 2 := 1; let l := []; let n := 0;
      decide (s.jubSrc k = false) && decide (s.jubSt k = 2) && decide (l.length ≤ 64) && decide (n = planZones l) &&
      decide (s.firstBad l 0 = none)) &&
    (let s : State := (st.setReg jubCtrl 3).setJubSt 1 2; let k : Fin 2 := 1; decide (s.jubSrc k = true) && decide (s.jubSt k = 2)) &&
    (let s : State := (st.setReg jubCtrl 3).setJubSt 1 2; let k : Fin 2 := 1; let st := 0x501; decide (s.jubSrc k = true) &&
      decide (s.jubSt k = 2) && decide (0 < st) && decide (st < 65536)) &&
    (let s : State := (st.setReg jubCtrl 7).setJubSt 1 4; let k : Fin 2 := 1; let st := 0; decide (1 ≤ s.jubSt k) &&
      decide (s.jubSt k ≤ 4) && decide (st < 65536)) := by decide +kernel

/-- Every clause of Obligations.JubileeTransferCommandsComplete that has hypotheses: a state and operands that meet them. -/
theorem test_hypotheses_jubileeTransferCommandsComplete :
    (let s : State := jbase 0 3 []; let k : Fin 2 := 1; let l : Fin 8 := 7; let f := mkFlit 4 0 9 false [1,2];
      decide (s.jubHas k = true) && decide (s.jubLinkSt k = 2) && decide (s.jubBase k ≤ l.val) &&
      decide (l.val < s.jubBase k + s.jubWidth) && decide (flitCrcOk f = true) && decide (flitType f = 4) &&
      decide (flitSeq f ≠ ((s.jubK k).rxl (l.val - s.jubBase k)).exp)) &&
    (let s : State := jbase 0 3 []; let k : Fin 2 := 1; let l : Fin 8 := 7; let f := mkFlit 4 0 0 false [1,2];
      decide (s.jubHas k = true) && decide (s.jubLinkSt k = 2) && decide (s.jubBase k ≤ l.val) &&
      decide (l.val < s.jubBase k + s.jubWidth) && decide (flitCrcOk f = true) && decide (flitType f = 4) &&
      decide (flitSeq f = ((s.jubK k).rxl (l.val - s.jubBase k)).exp)) &&
    (let s : State := jbase 1 3 []; let k : Fin 2 := 1; let b : JubBegin := { jbeg with idx := 0 };
      let z := (s.planZone false (s.jubK 1).plan 0).getD 0; decide (s.jubRuns k = true) && decide (s.jubSrc k = false) &&
      decide (s.planZone false (s.jubK k).plan b.idx = some z) && decide (s.jubZone k b.idx = none) &&
      decide ((s.jubK k).done.contains b.idx = false) && decide (idxUp (s.jubDone k) ≤ b.idx) && decide ((s.jubK k).zones.length < 8) &&
      decide ((b.g = 4 ∨ b.g = 6 ∨ b.g = 8 ∨ b.g = 12)) && decide ((b.p = 1 ∨ b.p = 2)) && decide (b.lbas ≤ 65536)) &&
    (let s : State := jbase 0 3 [jz]; let k : Fin 2 := 1; let idx := 0; let q := jq s; let g := (s.groupOf (jq s).zone).getD zg;
      decide (s.jubRuns k = true) && decide (s.jubSrc k = true) && decide (s.jubSt k = 3) && decide (s.jubZone k idx = some q) &&
      decide (q.begun = true) && decide (q.failed = 0) && decide (s.groupOf q.zone = some g) && decide (q.again.min? = some 0) &&
      decide ((s.jubK k).sentStripes < (s.jubK k).grant)) &&
    (let s : State := jbase 1 4 [jz]; let k : Fin 2 := 1;
      let m : JubStripe := { plan := 0, stripe := 1, sectors := List.replicate 4 (List.replicate 4112 3) }; let q := jq s;
      decide (s.jubRuns k = true) && decide (s.jubSrc k = false) && decide (s.jubZone k m.plan = some q) &&
      decide (m.sectors.length = q.g) && decide ((∀ x ∈ m.sectors, x.length = 4112)) &&
      decide ((s.reg (jubCtr k 0).addr).toNat + 1 < 2 ^ 32 - 1)) &&
    (let s : State := jbase 1 4 [jz]; let k : Fin 2 := 1; let idx := 0; let e : Nat × Nat × W := (65536, 2, 5#32); let q := jq s;
      decide (s.jubRuns k = true) && decide (s.jubSrc k = false) && decide (s.jubZone k idx = some q) && decide (e.1 ≤ 65536) &&
      decide (q.stripes.length < e.2.1)) &&
    (let s : State := jbase 0 4 [jz]; let k : Fin 2 := 1; let idx := 0; let st := 0; let reason := 3; let mask := 5; let q := jq s;
      decide (s.jubRuns k = true) && decide (s.jubSrc k = true) && decide (s.jubZone k idx = some q) &&
      decide ((tget (fun _ => none) q.stripes st).isSome = true) && decide (reason ≠ 0) && decide (mask < 2 ^ 12)) &&
    (let s : State := jbase 0 4 [jz]; let k : Fin 2 := 1; decide (s.jubRuns k = true) && decide (s.jubSrc k = true)) &&
    (let s : State := (let s := jbase 1 4 [{ jz with data := [], ended := true, lbas := 0 }];
      { s with groups := [{ zg with shingled := false }] }); let k : Fin 2 := 1; let idx := 0; let q := jq s;
      let g := (s.groupOf (jq s).zone).getD zg; decide (s.jubRuns k = true) && decide (s.jubSrc k = false) &&
      decide (s.jubZone k idx = some q) && decide (s.groupOf q.zone = some g) && decide (q.ended = true) && decide (q.failed = 0) &&
      decide (s.jubVerified q g = true) && decide (g.shingled = false)) &&
    (let s : State := jbase 0 4 [{ jz with ended := true }]; let k : Fin 2 := 1; let done := 1; decide (s.jubRuns k = true) &&
      decide (s.jubSrc k = true) && decide (idxUp (s.jubDone k) ≤ done) && decide (done < (s.jubK k).nextIdx) &&
      decide ((∀ q ∈ (s.jubK k).zones, q.idx ≤ done → q.ended = true ∧ q.failed = 0))) &&
    (let s : State := jbase 0 4 [jz]; let k : Fin 2 := 1; let idx := 0; let x := 0x505; let q := jq s; decide (s.jubRuns k = true) &&
      decide (s.jubSrc k = true) && decide (s.jubZone k idx = some q) && decide (x ≠ 0x506)) := by decide +kernel

/-- Every clause of Obligations.PowerLevelCommandsComplete that has hypotheses: a state and operands that meet them. -/
theorem test_hypotheses_powerLevelCommandsComplete :
    (let s : State := { st with pwr := { exit := some (1,1) } }; decide (s.isIdle = true) && decide (s.pwr.exit.isSome = true)) &&
    (let s : State := st.setReg pwrCtrl 0xB; let n : Fin 5 := 1; decide (s.isIdle = true) && decide (s.pwr.entry = none) &&
      decide (s.pwr.exit = none) && decide (s.level ≤ 4) &&
      decide (s.level < ({ s with pwr := { s.pwr with idle := max s.pwr.idle n.val } } : State).targetLevel)) &&
    (let s : State := { st with pwr := { entry := some (2,1) } }; decide (s.pwr.entry = some (2, 1)) &&
      decide (((upto 4).all fun n => s.halted n) = true)) &&
    (let s : State := { ((st.setReg motStatus 8).setReg pwrStatus 0) with pwr := { entry := some (1,2), goal := 1 } }; let l := 1;
      let k := 2; decide ((l, k) ∈ [(1, 2), (3, 1)]) && decide (s.pwr.entry = some (l, k)) && decide (s.pwr.goal = l) &&
      decide (s.pwr.wake = false) && decide (s.level < l) && decide (s.rbit motStatus 3 = true) &&
      decide (s.rfld pwrStatus 3 3 = s.pwr.tAt)) &&
    (let s : State := ({ st with pwr := { entry := some (2,0) } } : State).setReg pwrSaveCfg 0x4001; let l := 2;
      decide (levelSaves l = true) && decide (s.pwr.entry = some (l, 0)) && decide (s.saveListBad = true)) &&
    (let s : State := { (st.setReg pwrStatus 6) with pwr := { exit := some (6,1), hold := some 1 } }; let k := 1; let b := 1;
      decide (s.pwr.exit = some (6, k)) && decide (s.pwr.hold = some b) && decide (1 ≤ b) && decide (b ≤ 4)) &&
    (let s : State := { ((st.setReg motStatus 8).setReg pwrStatus 3) with pwr := { exit := some (3,1), goal := 1 } };
      decide (s.pwr.exit = some (3, 1)) && decide (s.rbit motStatus 3 = true) && decide (s.pwr.goal < 2)) &&
    (let s : State := { (st.setReg pwrStatus 1) with pwr := { exit := some (1,0) } }; let k := 0; decide (k ≤ 1) &&
      decide (s.pwr.exit = some (1, k)) && decide (s.rfld pwrStatus 3 3 = s.pwr.tAt)) &&
    (let s : State := st; decide (s.isIdle = true) && decide (s.pwr.entry = none) && decide (s.pwr.exit = none) && decide (s.level ≤ 4)) &&
    (let s : State := st.setReg pwrCtrl 0x10; decide (s.isIdle = false)) &&
    (let s : State := st; let r := Requester.cpu 7; decide (State.mayHold r = true) && decide (s.holdOk = true) &&
      decide (s.pwr.entry = none) && decide (s.pwr.exit = none) && decide (s.level ≤ 4)) &&
    (let s : State := (st.setReg pwrStatus 1).setReg pwrWakeEn 0x80; decide (1 ≤ s.level) && decide (s.level ≤ 4) &&
      decide (s.rbit pwrWakeEn 7 = true) && decide (s.vgl.mainLow = false) && decide (s.pwr.entry = none) && decide (s.pwr.exit = none)) &&
    (let s : State := (st.setReg pwrStatus 2).setReg pwrWakeEn 0x1FF; let k : Fin 9 := 1; decide (k.val ≠ 0) && decide (k.val ≠ 8) &&
      decide (2 ≤ s.level) && decide (s.level ≤ 4) && decide (s.rbit pwrWakeEn k = true) && decide (s.vgl.mainLow = false) &&
      decide (s.pwr.entry = none) && decide (s.pwr.exit = none)) &&
    (let s : State := { (st.setReg (bankAddr 5) 0x40) with vgl := { mainLow := true } }; decide (s.vgl.mainLow = true) &&
      decide (s.rbit (bankAddr 5) 6 = true)) &&
    (let s : State := (st.setReg pwrStatus 4).setReg (hifWakeCtrl 3) 4; let p : Fin 4 := 3; decide (s.level = 4) &&
      decide (s.rbit (hifStatus p) 7 = false) && decide (s.rbit (hifWakeCtrl p) 2 = true)) := by decide +kernel

/-- Every clause of Obligations.VigilAndLatchCommandsComplete that has hypotheses: a state and operands that meet them. -/
theorem test_hypotheses_vigilAndLatchCommandsComplete :
    (let s : State := { (st.setReg (bankAddr 6) 8) with vgl := { epoch := 0xFFFFFFFFFFFFFFFF } }; let k : Fin 4 := 3;
      decide (s.rbit (bankAddr 6) k = true) && decide (s.alarmAt k ≤ s.vgl.epoch.toNat)) &&
    (let s : State := { st with vgl := { loadLo := 5 } }; decide (s.rbit vglStatus 2 = false)) &&
    (let s : State := st.setRbit vglStatus 2 true; decide (s.rbit vglStatus 2 = true)) := by decide +kernel

/-- Every clause of Obligations.CalibrationCommandsComplete that has hypotheses: a state and operands that meet them. -/
theorem test_hypotheses_calibrationCommandsComplete :
    (let s : State := ((st.setReg calCtrl 1).setReg calStatus 0xF0).setActSt 3 2; let a : Fin 4 := 3; decide (s.runMay a = true)) &&
    (let s : State := st.setReg calStatus 0xFF; let a : Fin 4 := 3; decide (s.rbit calStatus a = true)) &&
    (let s : State := st; let b : Fin 2 := 1; decide (s.calApply b = none)) &&
    (let s : State := { st with cal := { apply := [(1, some (0, 5))] } }; let b : Fin 2 := 1; decide (s.calApply b ≠ none)) &&
    (let s : State := st; let b : Fin 2 := 1; let n : Fin 2048 := 1; decide (s.calApply b = none) && decide (1 ≤ n.val) &&
      decide (n.val ≤ 1024)) &&
    (let s : State := { st with cal := { apply := [(1, some (0, 5))] } }; let b : Fin 2 := 1; decide (s.calApply b ≠ none)) &&
    (let s : State := ({ st with cal := { apply := [(1, some (2, 5))] } } : State).setReg (calShadow 1 2 0) (BitVec.ofNat 32 motShunt);
      let b : Fin 2 := 1; let e := ((s.calApply 1).getD (0,0)).1; let n := ((s.calApply 1).getD (0,0)).2;
      decide (s.calApply b = some (e, n)) && decide (e + 1 < n) && decide ((s.reg (calShadow b e 0)).toNat = motShunt) &&
      decide (s.dormant 0x21 = false)) &&
    (let s : State := ({ st with cal := { apply := [(1, some (4, 5))] } } : State); let b : Fin 2 := 1;
      let e := ((s.calApply 1).getD (0,0)).1; let n := ((s.calApply 1).getD (0,0)).2; decide (s.calApply b = some (e, n)) &&
      decide (e + 1 = n) && decide (s.calTakes ((s.reg (calShadow b e 0)).toNat / 4 * 4) = false) && decide (n ≤ 1024)) &&
    (let s : State := (((up.setUlkSt 3 3).setUlk 3 { mapInForce := [(23, 0x1#32 ||| (22#32 <<< 2))] }).setReg (ulkLaneUp 3) 0x3FFFFFF).setReg (calAdcoff 3 23) 0x1ABCDEF;
      let n : Fin 4 := 3; let h : Fin 24 := 23; decide (s.rbit (calAdcoff n h) 24 = true) && decide (s.headMapped n h = true) &&
      decide (s.laneReady n (firstLane (s.headMap n h)) = true) && decide (firstLane (s.headMap n h) < 24) &&
      decide ((s.txl n (firstLane (s.headMap n h))).room = true) && decide ((∀ g ∈ (s.ordP n).gates, ¬ (g.head = h.val ∧ g.sent = true)))) &&
    (let s : State := { ((st.setActSt 3 4).setActSt 0 1) with cal := { hot := 10 } }; decide (s.cal.tripped = false) &&
      decide (10 ≤ s.cal.hot)) := by decide +kernel

/-- Every clause of Obligations.AlmanacCommandsComplete that has hypotheses: a state and operands that meet them. -/
theorem test_hypotheses_almanacCommandsComplete :
    (let s : State := (st.setReg (regAddr bALM (0x1000 + 4*208)) 7).setCq 23 { pkts := [⟨.alm almSub, 24, false⟩] }; let g : Fin 8 := 7;
      let p := hd s 23; let ps := (s.cq 23).pkts.tail; let r := (almRecord (hd s 23).body).getD almSub;
      decide ((s.cq (16 + g)).pkts = p :: ps) && decide (almRecord p.body = some r) && decide (AlmSubOk r = true) &&
      decide (s.codeClass r.code.toNat = 7)) &&
    (let s : State := { ((appB 0x8080).setReg (regAddr bALM (0x1000 + 4*208)) 7) with free := 0 }; decide (AlmSubOk s.almApp = true) &&
      decide ((s.codeClass s.almApp.code.toNat = 7 ∨ (0 < (s.refilled s.almApp.code.toNat).tokens ∧ (s.refilled s.almApp.code.toNat).supp = 0)))) &&
    (let s : State := (let s := appB 0x8080; { s with alm := { s.alm with buckets := [(0x8080, { tokens := 0 })] } });
      decide (AlmSubOk s.almApp = true) && decide (s.codeClass s.almApp.code.toNat ≠ 7) &&
      decide ((s.refilled s.almApp.code.toNat).tokens = 0)) &&
    (let s : State := st; decide (AlmSubOk s.almApp = false)) &&
    (let s : State := { st with alm := { page := [1,2,3] } }; decide (s.alm.page ≠ [])) &&
    (let s : State := { st with alm := { page := [1,2,3], ploss := true } }; decide (s.alm.ploss = true)) &&
    (let s : State := { { (st.setRing 3 { d := 4 }) with alm := { entries := [entA], seq := 9 } } with fw := (st.setRing 3 { d := 4 }).fw };
      let a : Fin 4 := 3; let n := (9:D); let e := (((s.unmirrored 3).filter fun e => decide (e.seq.toNat ≤ 9)).head?).getD entA;
      let es := ((s.unmirrored 3).filter fun e => decide (e.seq.toNat ≤ 9)).tail; decide (s.mirrorTakes a = true) &&
      decide ((s.reg (almMirrorMark a)).toNat < mirrorStripes (s.ring a).d) &&
      decide ((∀ j ∈ s.fw.jobs, ¬ (j.eng = a.val ∧ j.isMirror = true))) &&
      decide (((s.unmirrored a).filter fun e => decide (e.seq.toNat ≤ n.toNat)) = e :: es) &&
      decide (e.bytes.length ≤ 4092 * (s.ring a).d)) &&
    (let s : State := { { (st.setRing 3 { d := 4 }) with alm := { entries := [entA], seq := 9 } } with fw := (st.setRing 3 { d := 4 }).fw };
      let a : Fin 4 := 3; let n : BitVec 64 := 4; decide (s.mirrorTakes a = true) &&
      decide ((s.reg (almMirrorMark a)).toNat < mirrorStripes (s.ring a).d) && decide ((∀ e ∈ s.unmirrored a, n.toNat < e.seq.toNat))) &&
    (let s : State := (st.setRing 3 { d := 4 }).setReg (almMirrorMark 3) 0xFFFFFFFF; let a : Fin 4 := 3;
      decide (s.mirrorTakes a = true) && decide (mirrorStripes (s.ring a).d ≤ (s.reg (almMirrorMark a)).toNat)) := by decide +kernel

/-- Every clause of Obligations.MctpCommandsComplete that has hypotheses: a state and operands that meet them. -/
theorem test_hypotheses_mctpCommandsComplete :
    (let s : State := (mg).setRbit mgtCtrl 0 true; let p : MctpPkt := { tag := 7, bytes := 1100, type := 0 };
      decide (s.rbit mgtCtrl 0 = true) && decide (s.rbit mgtStatus 0 = true) && decide (s.pwr.off.testBit 0 = false) &&
      decide (p.linkOk = true) && decide (p.version = 1) && decide ((p.dest = 0 ∨ p.dest = s.eid)) && decide (p.som = true) &&
      decide (p.eom = true) && decide (p.bytes ≤ 1100) && decide ((p.type = 0 ∨ (s.eid ≠ 0 ∧ (p.type = 4 ∨ p.type = 0x7F)))) &&
      decide (s.mgt.msgs.length < 8) && decide ((∀ m ∈ s.mgt.msgs, m.1 ≠ p.tag))) &&
    (let e : Fin 256 := 254; decide (e.val ≠ 0) && decide (e.val ≠ 255)) &&
    (let id := 1; decide (id = 1 ∨ id = 3)) &&
    (let value := 1; decide (1 ≤ value) && decide (value ≤ 3)) &&
    (let value := 0; decide (value ≠ 64)) &&
    (let s : State := { mg with dbg := { mgtMode := true } }; decide (s.dbg.mgtMode = true) && decide (s.rbit mgtStatus 0 = true)) &&
    (let s : State := { mg with dbg := { mgtMode := true } }; decide (s.pwr.off.testBit 0 = false)) := by decide +kernel

/-- Every clause of Obligations.BrodvonRegisterCommandsComplete that has hypotheses: a state and operands that meet them. -/
theorem test_hypotheses_brodvonRegisterCommandsComplete :
    (let h : MgtHdr := { tag := 255 }; decide (h.iana = 0x0001B7C3) && decide (h.version = 1)) &&
    (let h : MgtHdr := { tag := 255 }; decide (h.iana = 0x0001B7C3) && decide (h.version = 1) && decide (h.lengthOk = true) &&
      decide (h.reservedOk = true)) &&
    (let s : State := st; let h : MgtHdr := { tag := 255 }; let a := ra s / 4 * 4; let n := 1; decide (h.iana = 0x0001B7C3) &&
      decide (h.version = 1) && decide (h.lengthOk = true) && decide (h.reservedOk = true) && decide (runOk a n = true) &&
      decide (1 ≤ n) && decide (n ≤ 64)) &&
    (let s : State := st; let h : MgtHdr := { tag := 255 }; let o := mo s; let r := row s (mo s); decide (h.iana = 0x0001B7C3) &&
      decide (h.version = 1) && decide (h.lengthOk = true) && decide (h.reservedOk = true) && decide (s.dormant 0x21 = false) &&
      decide (4 ≤ o) && decide (o < 0x10000) && decide (o % 4 = 0) && decide (regRow (regAddr bMOT o) = some r)) &&
    (let s : State := st; let h : MgtHdr := { tag := 255 }; let a := regAddr bMOT 0; let l := List.replicate 268 0xFFFFFFFF#32;
      decide (h.iana = 0x0001B7C3) && decide (h.version = 1) && decide (h.lengthOk = true) && decide (h.reservedOk = true) &&
      decide (s.rbit mgtLock 0 = false) && decide (runOk a l.length = true) && decide (1 ≤ l.length) && decide (l.length ≤ 268)) &&
    (let s : State := st; let h : MgtHdr := { tag := 255 }; let o := mo s; let r := row s (mo s); let env : RegEnv := {};
      decide (h.iana = 0x0001B7C3) && decide (h.version = 1) && decide (h.lengthOk = true) && decide (h.reservedOk = true) &&
      decide (s.rbit mgtLock 0 = false) && decide (env.hw = []) && decide (s.dormant 0x21 = false) && decide (4 ≤ o) &&
      decide (o < 0x10000) && decide (o % 4 = 0) && decide (regRow (regAddr bMOT o) = some r)) &&
    (let s : State := st; let h : MgtHdr := { tag := 255 }; let a := regAddr bMOT (mo s); decide (h.iana = 0x0001B7C3) &&
      decide (h.version = 1) && decide (h.lengthOk = true) && decide (h.reservedOk = true) && decide (s.rbit mgtLock 0 = false) &&
      decide (runOk a 1 = true)) &&
    (let s : State := st; let h : MgtHdr := { tag := 255 }; let o := mo s; let r := row s (mo s); let env : RegEnv := {};
      decide (h.iana = 0x0001B7C3) && decide (h.version = 1) && decide (h.lengthOk = true) && decide (h.reservedOk = true) &&
      decide (s.rbit mgtLock 0 = false) && decide (env.hw = []) && decide (s.dormant 0x21 = false) && decide (4 ≤ o) &&
      decide (o < 0x10000) && decide (o % 4 = 0) && decide (regRow (regAddr bMOT o) = some r)) := by decide +kernel

/-- Every clause of Obligations.BrodvonAccessCommandsComplete that has hypotheses: a state and operands that meet them. -/
theorem test_hypotheses_brodvonAccessCommandsComplete :
    (let h : MgtHdr := { tag := 255 }; decide (h.iana = 0x0001B7C3) && decide (h.version = 1) && decide (h.lengthOk = true) &&
      decide (h.reservedOk = true)) &&
    (let s : State := { st with alm := { entries := [entA] } }; let h : MgtHdr := { tag := 255 }; let q : BitVec 64 := 6; let n := 64;
      decide (h.iana = 0x0001B7C3) && decide (h.version = 1) && decide (h.lengthOk = true) && decide (h.reservedOk = true) &&
      decide (64 ≤ n) && decide (n ≤ 1060) && decide ((∀ e ∈ s.alm.entries, e.seq.toNat < q.toNat))) &&
    (let s : State := { st with alm := { entries := [entA] } }; let h : MgtHdr := { tag := 255 };
      let e := (s.alm.entries.filter (fun e => decide ((5:D).toNat ≤ e.seq.toNat))).head?.getD entA; let q := (5:D); let n := 64;
      decide (h.iana = 0x0001B7C3) && decide (h.version = 1) && decide (h.lengthOk = true) && decide (h.reservedOk = true) &&
      decide (64 ≤ n) && decide (n ≤ 1060) && decide (s.alm.entries.filter (fun e => decide (q.toNat ≤ e.seq.toNat)) = [e])) &&
    (let s : State := { st with alm := { entries := [entA, { entA with seq := 8 }, { entA with seq := 9, payload := List.replicate 400 3 }] } };
      let h : MgtHdr := { tag := 255 }; let e := (s.alm.entries.filter (fun e => decide ((5:D).toNat ≤ e.seq.toNat))).head?.getD entA;
      let es := (s.alm.entries.filter (fun e => decide ((5:D).toNat ≤ e.seq.toNat))).tail; let q := (5:D); let n := 1060;
      decide (h.iana = 0x0001B7C3) && decide (h.version = 1) && decide (h.lengthOk = true) && decide (h.reservedOk = true) &&
      decide (64 ≤ n) && decide (n ≤ 1060) && decide (s.level ≤ 1) &&
      decide (s.alm.entries.filter (fun e => decide (q.toNat ≤ e.seq.toNat)) = e :: es) && decide (e.bytes.length ≤ n)) &&
    (let s : State := st.setReg (regAddr bALM (0x1000 + 4*208)) 7; let h : MgtHdr := { tag := 255 }; let code : BitVec 16 := 0x8080;
      let l := [1,2,3]; decide (h.iana = 0x0001B7C3) && decide (h.version = 1) && decide (h.lengthOk = true) &&
      decide (h.reservedOk = true) && decide (0x8080 ≤ code.toNat) && decide (code.toNat ≤ 0x80FF) && decide (l.length ≤ 492) &&
      decide (s.codeClass code.toNat = 7)) &&
    (let s : State := { st with fls := { shipped := [], otp := [] } }; let h : MgtHdr := { tag := 255 }; let w := 384;
      decide (h.iana = 0x0001B7C3) && decide (h.version = 1) && decide (h.lengthOk = true) && decide (h.reservedOk = true) &&
      decide (s.rbit mgtLock 4 = false) && decide (3 ≤ w / 128) && decide (w / 128 ≤ 5) && decide (s.otpLocked (w / 128) = false)) &&
    (let s : State := st; let h : MgtHdr := { tag := 255 }; let w := 383; decide (h.iana = 0x0001B7C3) && decide (h.version = 1) &&
      decide (h.lengthOk = true) && decide (h.reservedOk = true) && decide (s.rbit mgtLock 4 = false) && decide (w < 384)) &&
    (let h : MgtHdr := { tag := 255 }; let w := 1023; let n := 1; decide (h.iana = 0x0001B7C3) && decide (h.version = 1) &&
      decide (h.lengthOk = true) && decide (h.reservedOk = true) && decide (1 ≤ n) && decide (n ≤ 64) && decide (w + n ≤ 1024)) &&
    (let s : State := st; let h : MgtHdr := { tag := 255 }; decide (h.iana = 0x0001B7C3) && decide (h.version = 1) &&
      decide (h.lengthOk = true) && decide (h.reservedOk = true) && decide (s.rbit mgtLock 0 = false) && decide (s.isIdle = true) &&
      decide (s.pwr.entry = none) && decide (s.pwr.exit = none) && decide (s.level ≤ 4)) &&
    (let s : State := st.setReg pwrCtrl 0x10; let h : MgtHdr := { tag := 255 }; decide (h.iana = 0x0001B7C3) && decide (h.version = 1) &&
      decide (h.lengthOk = true) && decide (h.reservedOk = true) && decide (s.rbit mgtLock 0 = false) && decide (s.isIdle = false) &&
      decide (s.level ≤ 4)) &&
    (let s : State := (st.setReg pwrStatus 1).setReg pwrWakeEn 0x80; let h : MgtHdr := { tag := 255 }; decide (h.iana = 0x0001B7C3) &&
      decide (h.version = 1) && decide (h.lengthOk = true) && decide (h.reservedOk = true) && decide (s.rbit mgtLock 0 = false) &&
      decide (1 ≤ s.level) && decide (s.level ≤ 4) && decide (s.rbit pwrWakeEn 7 = true) && decide (s.vgl.mainLow = false) &&
      decide (s.pwr.entry = none) && decide (s.pwr.exit = none)) &&
    (let s : State := st; let h : MgtHdr := { tag := 255 }; decide (h.iana = 0x0001B7C3) && decide (h.version = 1) &&
      decide (h.lengthOk = true) && decide (h.reservedOk = true) && decide (s.rbit mgtLock 0 = false) && decide (s.holdOk = true) &&
      decide (s.pwr.entry = none) && decide (s.pwr.exit = none) && decide (s.level ≤ 4)) := by decide +kernel

/-- Every clause of Obligations.BrodvonConfigurationCommandsComplete that has hypotheses: a state and operands that meet them. -/
theorem test_hypotheses_brodvonConfigurationCommandsComplete :
    (let s : State := st; let h : MgtHdr := { tag := 255 }; let target := 0; let l := [7]; decide (h.iana = 0x0001B7C3) &&
      decide (h.version = 1) && decide (h.lengthOk = true) && decide (h.reservedOk = true) && decide (s.rbit mgtLock 1 = false) &&
      decide (target ≤ 3) && decide (1 ≤ l.length) && decide (l.length ≤ 1024) && decide (s.fw.stageOwner = 0)) &&
    (let s : State := st; let h : MgtHdr := { tag := 255 }; let target := 3; let off := 1; let l := [7]; decide (h.iana = 0x0001B7C3) &&
      decide (h.version = 1) && decide (h.lengthOk = true) && decide (h.reservedOk = true) && decide (s.rbit mgtLock 1 = false) &&
      decide (target ≤ 3) && decide (1 ≤ l.length) && decide (l.length ≤ 1024) && decide (s.fw.stageOwner = 0) && decide (off ≠ 0)) &&
    (let s : State := { st with fw := { stageOwner := 1, staged := [(0, pHdr false)] }, mgt := { target := 1 } };
      let h : MgtHdr := { tag := 255 }; let target := 1; decide (h.iana = 0x0001B7C3) && decide (h.version = 1) &&
      decide (h.lengthOk = true) && decide (h.reservedOk = true) && decide (s.rbit mgtLock 1 = false) && decide (1 ≤ target) &&
      decide (target ≤ 3) && decide (s.fw.stageOwner = 1) && decide (s.stagedBytes ≠ []) && decide (s.mgt.target = target) &&
      decide (s.fls.op = none) && decide (s.fls.suspended = none)) &&
    (let h : MgtHdr := { tag := 255 }; decide (h.iana = 0x0001B7C3) && decide (h.version = 1) && decide (h.lengthOk = true) &&
      decide (h.reservedOk = true)) &&
    (let s : State := st; let h : MgtHdr := { tag := 255 };
      let c : NetCfg := { flags := 15, ipv4 := (0#32), prefix4 := 32, gateway := (0#32), ipv6 := dA s 16, prefix6 := 128, vlan := 4095, pfc := 7 };
      decide (h.iana = 0x0001B7C3) && decide (h.version = 1) && decide (h.lengthOk = true) && decide (h.reservedOk = true) &&
      decide (s.rbit mgtLock 2 = false) && decide (c.flags < 16) && decide (c.prefix4 ≤ 32) && decide (c.prefix6 ≤ 128) &&
      decide (c.vlan ≤ 4095) && decide (c.pfc ≤ 7)) &&
    (let h : MgtHdr := { tag := 255 }; decide (h.iana = 0x0001B7C3) && decide (h.version = 1) && decide (h.lengthOk = true) &&
      decide (h.reservedOk = true)) &&
    (let s : State := st; let h : MgtHdr := { tag := 255 }; let hash := 0; let id := List.replicate 1 5; let key := List.replicate 32 9;
      decide (h.iana = 0x0001B7C3) && decide (h.version = 1) && decide (h.lengthOk = true) && decide (h.reservedOk = true) &&
      decide (s.rbit mgtLock 3 = false) && decide (hash ≤ 1) && decide (1 ≤ id.length) && decide (id.length ≤ 128) &&
      decide ((key.length = 32 ∨ key.length = 48))) &&
    (let s : State := { st with sec := { psk := [(15,[1])], pskStore := [(15,[1])] } }; let h : MgtHdr := { tag := 255 };
      decide (h.iana = 0x0001B7C3) && decide (h.version = 1) && decide (h.lengthOk = true) && decide (h.reservedOk = true) &&
      decide (s.rbit mgtLock 3 = false)) &&
    (let s : State := jbase 0 6 []; let h : MgtHdr := { tag := 255 }; let k : Fin 2 := 1;
      let es : List PlanEnt := List.replicate 64 ⟨1,2,3,4,1⟩; decide (h.iana = 0x0001B7C3) && decide (h.version = 1) &&
      decide (h.lengthOk = true) && decide (h.reservedOk = true) && decide (s.jubSrc k = true) &&
      decide ((s.jubSt k < 3 ∨ 5 < s.jubSt k)) && decide (1 ≤ es.length) && decide (es.length ≤ 64) && decide ((∀ e ∈ es, e.kind ≤ 1))) := by decide +kernel

/-- Every clause of Obligations.RegisterAccessCommandsComplete that has hypotheses: a state and operands that meet them. -/
theorem test_hypotheses_registerAccessCommandsComplete :
    (let s : State := st; let o := mo s; let r := row s (mo s); let env : RegEnv := {}; decide (env.hw = []) &&
      decide (s.dormant 0x21 = false) && decide (4 ≤ o) && decide (o < 0x10000) && decide (o % 4 = 0) &&
      decide (regRow (regAddr bMOT o) = some r)) &&
    (let s : State := { st with pwr := { off := 0x10 } }; let a := BitVec.ofNat 32 (regAddr bMOT 8); decide (0x10000000 ≤ a.toNat) &&
      decide (blockAt (addrBlk (a.toNat / 4 * 4)) = true) && decide (s.dormant (addrBlk (a.toNat / 4 * 4)) = true)) &&
    (let a : W := 0x10070000; decide (blockAt (addrBlk (a.toNat / 4 * 4)) = false)) &&
    (let s : State := st.setRbit dbgCtrl 1 true; decide (s.rbit dbgCtrl 1 = true)) &&
    (let s : State := st; let o := mo s; let r := row s (mo s); let env : RegEnv := {}; decide (env.hw = []) &&
      decide (s.rbit dbgCtrl 1 = false) && decide (s.dormant 0x21 = false) && decide (4 ≤ o) && decide (o < 0x10000) &&
      decide (o % 4 = 0) && decide (regRow (regAddr bMOT o) = some r)) &&
    (let s : State := st; let o := mo s - 4; let r := row s (mo s - 4); decide (s.rbit dbgCtrl 1 = false) &&
      decide (s.dormant 0x21 = false) && decide (o < 0x10000) && decide (o % 4 = 0) && decide (regRow (regAddr bMOT o) = some r)) &&
    (let s : State := st; decide (s.rbit dbgCtrl 1 = false)) := by decide +kernel

/-- Every clause of Obligations.FlashRefusals that has hypotheses: a state and operands that meet them. -/
theorem test_hypotheses_flashRefusals :
    (let s : State := st.setReg flsStatus 0; decide (s.rfld flsStatus 0 2 ≠ 3) &&
      decide (s.rbit flsCtrl 0 = false ∨ s.fls.op.isSome = true)) &&
    (let s : State := st.setReg flsStatus 0; decide (s.rfld flsStatus 0 2 ≠ 3) &&
      decide (s.rbit flsCtrl 0 = false ∨ s.fls.op.isSome = true)) &&
    (let s : State := { (st.setReg flsStatus 0).setRbit flsCtrl 0 true with fls := { shipped := [], suspended := some 5 } };
      decide (s.rfld flsStatus 0 2 ≠ 3) && decide (s.rbit flsCtrl 0 = true) && decide (s.fls.op = none) &&
      decide (s.fls.suspended.isSome = true)) &&
    (let s : State := { (st.setReg flsStatus 0).setRbit flsCtrl 0 true with fls := { shipped := [], fetch := (upto 12).map fun k => (k, some 1) } };
      let r : Requester := Requester.cpu 7; let b : Fin 256 := 127; decide (s.rfld flsStatus 0 2 ≠ 3) &&
      decide (s.rbit flsCtrl 0 = true) && decide (s.fls.op = none) && decide (s.fetchBank r = some (b.val / 64))) &&
    (let s : State := { (st.setReg flsStatus 0).setRbit flsCtrl 0 true with fls := { shipped := [], fetch := (upto 12).map fun k => (k, some 1) } };
      let r : Requester := Requester.mgtCore 1; let b : Fin 256 := 64; decide (s.rfld flsStatus 0 2 ≠ 3) &&
      decide (s.rbit flsCtrl 0 = true) && decide (s.fls.op = none) && decide (s.fetchBank r = some (b.val / 64)) &&
      decide (s.fls.suspended = none)) &&
    (let s : State := (st.setReg flsStatus 0).setRbit flsCtrl 0 true; let r : Requester := Requester.cpu 7; let b : Fin 256 := 192;
      decide (s.rfld flsStatus 0 2 ≠ 3) && decide (s.rbit flsCtrl 0 = true) && decide (s.fls.op = none) &&
      decide (s.fetchBank r ≠ some (b.val / 64)) && decide (192 ≤ b.val)) &&
    (let s : State := (st.setReg flsStatus 0).setRbit flsCtrl 0 true; let r : Requester := Requester.cpu 7; let b : Fin 256 := 192;
      decide (s.rfld flsStatus 0 2 ≠ 3) && decide (s.rbit flsCtrl 0 = true) && decide (s.fls.op = none) &&
      decide (s.fetchBank r ≠ some (b.val / 64)) && decide (192 ≤ b.val) && decide (s.fls.suspended = none)) &&
    (let s : State := (st.setReg flsStatus 0).setRbit flsCtrl 0 true; let r : Requester := Requester.cpu 7; let b : Fin 256 := 191;
      let p : Fin 512 := 0; decide (s.rfld flsStatus 0 2 ≠ 3) && decide (s.rbit flsCtrl 0 = true) && decide (s.fls.op = none) &&
      decide (s.fetchBank r ≠ some (b.val / 64)) && decide (b.val < 192) &&
      decide ((p.val = 0 ∨ p.val < s.flsTop b ∨ s.fls.suspended = some b.val))) := by decide +kernel

/-- Every clause of Obligations.FlashCommandsComplete that has hypotheses: a state and operands that meet them. -/
theorem test_hypotheses_flashCommandsComplete :
    (let s : State := (st.setReg flsStatus 0).setRbit flsCtrl 0 true; let r := .cpu 7; let b := (191:Fin 256); let p := (511:Fin 512);
      decide (s.rfld flsStatus 0 2 ≠ 3) && decide (s.flsRefusal r 1 b p = 0)) &&
    (let s : State := (st.setReg flsStatus 0).setRbit flsCtrl 0 true; let r := .cpu 7; let b := (191:Fin 256);
      decide (s.rfld flsStatus 0 2 ≠ 3) && decide (s.flsRefusal r 2 b 0 = 0)) &&
    (let s : State := { st.setReg flsStatus 0 with fls := { shipped := [], op := some (.erase 5) } };
      let b := (match s.fls.op with | some (.erase b) => b | _ => 0); decide (s.fls.op = some (.erase b)) &&
      decide ((∀ w, s.fls.resumeAt = some w → w + 2000000 ≤ s.vgl.wall))) &&
    (let s : State := { st.setRbit flsStatus 4 true with fls := { shipped := [], op := some (.erase 5) } };
      let b := (match s.fls.op with | some (.erase b) => b | _ => 0); decide (s.fls.op = some (.erase b)) &&
      decide (s.rbit flsStatus 4 = true)) &&
    (let s : State := { st.setReg flsStatus 0 with fls := { shipped := [], suspended := some 5 } }; let b := s.fls.suspended.getD 0;
      decide (s.rfld flsStatus 0 2 ≠ 3) && decide (s.fls.op = none) && decide (s.fls.suspended = some b)) &&
    (let s : State := st.setReg flsStatus 0; decide (s.rfld flsStatus 0 2 ≠ 3) && decide (s.fls.op = none) &&
      decide (s.fls.suspended = none)) &&
    (let s : State := (st.setReg flsStatus 0).setReg (regAddr bFLS 0x20) 1023; decide (s.rfld flsStatus 0 2 ≠ 3) &&
      decide (s.fls.op = none) && decide (s.fls.suspended = none) && decide (s.otpLocked (s.rfld (regAddr bFLS 0x20) 0 10 / 128) = false)) &&
    (let s : State := { st.setReg flsStatus 0 with fls := { shipped := [], op := some (.program 5 6 [1,2]) } };
      let b := (match s.fls.op with | some (.program b _ _) => b | _ => 0);
      let p := (match s.fls.op with | some (.program _ b _) => b | _ => 0);
      let d := (match s.fls.op with | some (.program _ _ d) => d | _ => []); decide (s.fls.op = some (.program b p d)) &&
      decide (s.clk.flsHeld = false)) &&
    (let s : State := { st.setReg flsStatus 0 with fls := { shipped := [], op := some (.erase 5), pages := [(512*5+3,[1])] } };
      let b := (match s.fls.op with | some (.erase b) => b | _ => 0); decide (s.fls.op = some (.erase b)) && decide (b < 256) &&
      decide (s.clk.flsHeld = false)) &&
    (let s : State := st.setReg flsStatus 3; decide (s.rfld flsStatus 0 2 = 3) && decide (s.fls.held = [])) &&
    (let s : State := { st.setReg flsStatus 0 with fls := { shipped := [], op := some (.erase 70) } }; let b : Fin 256 := 63;
      decide (s.flsBankBusy (b.val / 64) = false)) := by decide +kernel

/-- Every clause of Obligations.KeyCommandsComplete that has hypotheses: a state and operands that meet them. -/
theorem test_hypotheses_keyCommandsComplete :
    (let s : State := st; decide (s.rbit secStatus 1 = false)) &&
    (let s : State := st.setReg (regAddr bSEC 0x20) 7; decide (s.rbit secStatus 1 = false)) &&
    (let s : State := st.setReg (regAddr bSEC 0x20) 7; let slot : Fin 64 := 15; decide (s.rbit secStatus 1 = false) &&
      decide (slot.val < 16)) &&
    (let s : State := { st with sec := { media := [(63,[1]),(62,[2])] } }; decide (s.rbit secStatus 1 = false)) &&
    (let s : State := { st with sec := { cmd := some (1,2,false) } }; let c := s.sec.cmd.getD (0,0,false); decide (s.sec.cmd = some c)) := by decide +kernel

/-- Every clause of Obligations.LinkSessionCommandsComplete that has hypotheses: a state and operands that meet them. -/
theorem test_hypotheses_linkSessionCommandsComplete :
    (let s : State := st.setReg (ulkCtrl 3) 0x72; let n : Fin 4 := 3; decide (s.rbit (ulkCtrl n) 0 = false) &&
      decide (s.rateCfgBad n = false)) &&
    (let s : State := lk 3 |>.setRbit (ulkCtrl 3) 0 true; let n : Fin 4 := 3; decide (s.rbit (ulkCtrl n) 0 = true)) &&
    (let s : State := ul { step := 3, cand := 0x3FFFFFF }; let n : Fin 4 := 3; let lanes : BitVec 26 := 0x2FFFFFF;
      decide (3 ≤ (s.ulkP n).step) && decide ((s.ulkP n).step ≤ 5) && decide (((s.ulkP n).cand &&& lanes.toNat) >>> 24 ≠ 0)) &&
    (let s : State := ul { step := 8, cand := 0x3FFFFFF }; let n : Fin 4 := 3; let lanes : BitVec 26 := 0x1000001;
      decide ((s.ulkP n).step = 8) && decide (((s.ulkP n).cand &&& lanes.toNat) >>> 24 ≠ 0)) &&
    (let s : State := ul { step := 1 }; let n : Fin 4 := 3; decide ((s.ulkP n).step ≠ 0) && decide (s.rfld (ulkStatus n) 6 2 + 1 < 3)) &&
    (let s : State := { (ul { step := 6, echoAt := 5 }) with ltime := 5 + 0xFFFF }; let n : Fin 4 := 3;
      let rtt : Nat := (s.ltime - (s.ulkP 3).echoAt).toNat; decide ((s.ulkP n).step = 6) &&
      decide (rtt = (s.ltime - (s.ulkP n).echoAt).toNat) && decide (rtt < 65536)) &&
    (let s : State := ((ul { presets := [2] }).setUlkSt 3 3).setRfld (ulkCtrl 3) 2 2 2; let n : Fin 4 := 3;
      let w := (s.switchTime 3 (s.now + 2000)).getD 0; decide (s.ulkSt n = 3) && decide (s.rfld (ulkCtrl n) 2 2 ≠ 3) &&
      decide ((s.ulkP n).presets.contains (s.rfld (ulkCtrl n) 2 2) = true) &&
      decide (s.rfld (ulkCtrl n) 2 2 ≠ s.rfld (ulkStatus n) 4 2) && decide ((s.ulkP n).switchAt = none) &&
      decide (s.switchQuiet n = true) && decide (s.switchTime n (s.now + 2000) = some w)) &&
    (let s : State := ((ul { presets := [2], tx := [(5, { held := [(3,[1])] })] }).setUlkSt 3 3).setRfld (ulkCtrl 3) 2 2 2;
      let n : Fin 4 := 3; decide (s.ulkSt n = 3) && decide (s.rfld (ulkCtrl n) 2 2 ≠ 3) &&
      decide ((s.ulkP n).presets.contains (s.rfld (ulkCtrl n) 2 2) = true) &&
      decide (s.rfld (ulkCtrl n) 2 2 ≠ s.rfld (ulkStatus n) 4 2) && decide ((s.ulkP n).switchAt = none) &&
      decide (s.switchQuiet n = false)) &&
    (let s : State := (ul { switchAt := some 0 }).setUlkSt 3 3; let n : Fin 4 := 3; let w := (s.ulkP 3).switchAt.getD 0;
      decide ((s.ulkP n).switchAt = some w) && decide (w.toNat ≤ s.now) && decide (s.ulkSt n = 3) &&
      decide ((s.ulkP n).presetSwitch = false)) &&
    (let s : State := (lk 4).setReg (ulkLaneUp 3) 0x3FFFFFF; let n : Fin 4 := 3; decide (s.ulkSt n = 4)) &&
    (let s : State := (lk 7).setReg (ulkCtrl 3) 0x73; let n : Fin 4 := 3; decide (s.ulkSt n = 7) && decide (s.rateCfgBad n = false)) &&
    (let s : State := ((ul { retrain := [(25, 2)] }).setUlkSt 3 3); let n : Fin 4 := 3; let l : Fin 26 := 25; decide (s.ulkSt n = 3) &&
      decide (tget (fun _ => 3) (s.ulkP n).retrain l < 3)) &&
    (let s : State := lk 3; let n : Fin 4 := 3; decide (s.ulkSt n = 3) && decide (s.onRamp n = true)) &&
    (let s : State := ((ul { sleep := some (0, false) }).setUlkSt 3 3).setReg (ulkLaneUp 3) 0x2000000; let n : Fin 4 := 3;
      let l : Fin 26 := 25; let m := ((s.ulkP 3).sleep.getD (0,false)).1; let again := ((s.ulkP 3).sleep.getD (0,false)).2;
      decide ((s.ulkP n).sleep = some (m, again)) && decide (s.lanesUp n &&& (m ||| (1 <<< l.val)) = s.lanesUp n)) &&
    (let s : State := (ul { sleep := some (6, false) }).setReg (ulkLaneUp 3) 0x3FFFFFF; let n : Fin 4 := 3;
      let m := ((s.ulkP 3).sleep.getD (0,false)).1; decide ((s.ulkP n).sleep = some (m, false)) && decide (s.allAsleep n m = false)) &&
    (let s : State := lk 5; let n : Fin 4 := 3; decide (s.ulkSt n = 5)) &&
    (let s : State := lk 5; let n : Fin 4 := 3; decide (s.ulkSt n = 5) && decide (s.pwr.off.testBit 5 = false)) := by decide +kernel

/-- Every clause of Obligations.LinkTrafficCommandsComplete that has hypotheses: a state and operands that meet them. -/
theorem test_hypotheses_linkTrafficCommandsComplete :
    (let s : State := (st.setUlk 3 { mapInForce := [(23, 0x1#32 ||| (22#32 <<< 2))] }).setReg (ulkLaneUp 3) 0x3FFFFFF; let n : Fin 4 := 3;
      let l : Fin 26 := 22; let f := mkFlit 4 0 ((s.rxl 3 22).exp) false []; decide ((s.lanesUp n).testBit l = true) &&
      decide (l.val < 24) && decide (flitCrcOk f = true) && decide (sequenced (flitType f) = true) &&
      decide (flitSeq f = (s.rxl n l).exp) && decide (s.flitViolation n l f = none) && decide (flitRpl f = false)) &&
    (let s : State := (st.setUlk 3 { mapInForce := [(23, 0x1#32 ||| (22#32 <<< 2))] }).setReg (ulkLaneUp 3) 0x3FFFFFF; let n : Fin 4 := 3;
      let l : Fin 26 := 22; let f := mkFlit 4 0 ((s.rxl 3 22).exp + 1) false []; decide ((s.lanesUp n).testBit l = true) &&
      decide (l.val < 24) && decide (flitCrcOk f = true) && decide (sequenced (flitType f) = true) &&
      decide (flitSeq f ≠ (s.rxl n l).exp) && decide ((s.rxl n l).nakOut = false)) &&
    (let s : State := st.setTxl 3 25 { next := 8, held := [(5,[1]),(6,[2]),(7,[3])] }; let n : Fin 4 := 3; let l : Fin 26 := 25;
      let q := 6; decide ((s.txl n l).knows q = true)) &&
    (let s : State := st.setTxl 3 23 { next := 8, held := [(5,mkFlit 8 0 5 false [1]),(6,mkFlit 8 0 6 false [2]),(7,mkFlit 8 0 7 false [3])] };
      let n : Fin 4 := 3; let l : Fin 26 := 23; let q := 6; decide (l.val < 24) && decide ((s.txl n l).knows q = true)) &&
    (let s : State := { (st.setRxl 3 25 { nakOut := true, naks := 3, exp := 255 }) with ltime := 5000 }; let n : Fin 4 := 3;
      let l : Fin 26 := 25; decide ((s.rxl n l).nakOut = true) && decide ((s.rxl n l).naks < 4) &&
      decide ((s.rxl n l).tNak.toNat + 2 * s.rfld (ulkRtt n) 0 16 + 100 ≤ s.now)) &&
    (let s : State := (st.setUlk 3 { mapInForce := [(23, 0x1#32 ||| (22#32 <<< 2))], bursts := [(23, [{ gateId := 4, readers := 1, ltime := 5, phase := 6, below := 3 }])] }).setReg (ulkLaneUp 3) 0x3FFFFFF;
      let n : Fin 4 := 3; let h : Fin 24 := 23; let k := 5; let b := bst s 23; let bs := (s.bursts 3 23).tail;
      decide (s.headMapped n h = true) && decide (s.bursts n h = b :: bs) && decide (b.ended = false) && decide (b.below < k) &&
      decide (b.early.any (fun e => e.1 == b.below || e.1 == k) = false)) &&
    (let s : State := (st.setUlk 3 { mapInForce := [(23, 0x1#32 ||| (22#32 <<< 2))], bursts := [(23, [{ gateId := 4, readers := 1, ltime := 5, phase := 6, below := 3, early := [(4, [1])] }])] }).setReg (ulkLaneUp 3) 0x3FFFFFF;
      let n : Fin 4 := 3; let h : Fin 24 := 23; let b := bst s 23; let bs := (s.bursts 3 23).tail; decide (s.headMapped n h = true) &&
      decide (s.bursts n h = b :: bs) && decide (b.ended = false) && decide (b.early.any (fun e => e.1 == b.below) = false) &&
      decide (b.early.any (fun e => decide (b.below < e.1)) = true)) &&
    (let s : State := (st.setUlk 3 { mapInForce := [(23, 0x1#32 ||| (22#32 <<< 2))] }).setReg (ulkLaneUp 3) 0x3FFFFFF; let n : Fin 4 := 3;
      let h : Fin 24 := 23; decide (s.headMapped n h = true)) &&
    (let s : State := (st.setUlk 3 { mapInForce := [(23, 0x1#32 ||| (22#32 <<< 2))], bursts := [(23, [{ gateId := 4, readers := 1, ltime := 5, phase := 6, below := 3 }])] }).setReg (ulkLaneUp 3) 0x3FFFFFF;
      let n : Fin 4 := 3; let h : Fin 24 := 23; let b := bst s 23; decide (s.headMapped n h = true) && decide (s.bursts n h = [b]) &&
      decide (b.ended = false) && decide (b.early.any (fun e => e.1 == b.below) = false)) &&
    (let s : State := (st.setUlk 3 { mapInForce := [(23, 0x1#32 ||| (22#32 <<< 2))], fields := [(23, { known := true, closed := false, wedge := 8, frags := [0] })] }).setReg (ulkLaneUp 3) 0x3FFFFFF |>.setRfld (ulkSvcfg 3) 12 4 3;
      let n : Fin 4 := 3; let h : Fin 24 := 23; let frag := 1; decide (s.headMapped n h = true) && decide (frag ≤ s.lastFrag n) &&
      decide ((s.fieldRx n h).known = true) && decide ((s.fieldRx n h).closed = false) &&
      decide ((s.fieldRx n h).frags.contains frag = false)) &&
    (let s : State := (st.setUlk 3 { mapInForce := [(23, 0x1#32 ||| (22#32 <<< 2))] }).setReg (ulkLaneUp 3) 0x3FFFFFF; let n : Fin 4 := 3;
      let h : Fin 24 := 23; let frag := 0; decide (s.headMapped n h = true) && decide (frag ≤ s.lastFrag n) &&
      decide ((s.fieldRx n h).known = false)) &&
    (let s : State := { (st.setFieldRx 3 23 { known := true, closed := false, wedge := 8, frags := [1,0], last := some 1 }) with ltime := 999999 };
      let n : Fin 4 := 3; let h : Fin 24 := 23; decide ((s.fieldRx n h).complete = true) && decide ((s.fieldRx n h).closed = false) &&
      decide (s.handoffAt n (s.fieldRx n h) ≤ s.now)) &&
    (let s : State := { (st.setFieldRx 3 23 { known := true, closed := false, wedge := 8, frags := [1], last := some 1 }) with ltime := 999999 };
      let n : Fin 4 := 3; let h : Fin 24 := 23; decide ((s.fieldRx n h).complete = false) &&
      decide (s.handoffAt n (s.fieldRx n h) ≤ s.now) && decide ((s.fieldRx n h).misses + 1 < s.rfld (ulkSvcfg n) 16 4)) &&
    (let s : State := st; let n : Fin 4 := 3; let lt := (0#32); decide (lt ∉ s.telRecent n)) &&
    (let s : State := ul { telSeen := [7] }; let n : Fin 4 := 3; let lt := (s.telRecent 3).head?.getD 0; decide (lt ∈ s.telRecent n)) &&
    (let s : State := ul { regRead := [(23,true)] }; let n : Fin 4 := 3; let h : Fin 24 := 23;
      decide (tget (fun _ => false) (s.ulkP n).regRead h = true)) &&
    (let s : State := st.setReg (ulkHeadmap 3 23) 0x3; let n : Fin 4 := 3; let h : Fin 24 := 23; decide (s.gateOpenOn n h = false)) &&
    (let s : State := (((((ul { mapInForce := [(5, 0x3)] }).setReg (ulkLaneUp 3) 0x3FFFFFF).setReg (chnCtrl 3) 1).setReg (chnSlotCfg 3 5) 0x3FF).setOrd 3 { gates := [gt0], pblk := [(7, 100)] } |>.setSlot 3 5 { armed := true }).setUlkSt 3 3;
      let n : Fin 4 := 3; let id := 9; let g := (s.gateById 3 9).getD gt0; decide (s.gateById n id = some g) && decide (g.sent = false) &&
      decide (g.guard = false) && decide (g.fail = 0) && decide ((s.ulkP n).rateReq = false) && decide (g.isWrite = false) &&
      decide (g.parts = []) && decide (s.gateCancel n g = none) && decide ((s.txl n (firstLane (s.headMap n g.head))).room = true) &&
      decide (firstLane (s.headMap n g.head) < 24)) := by decide +kernel

/-- Every clause of Obligations.SlotStrobesComplete that has hypotheses: a state and operands that meet them. -/
theorem test_hypotheses_slotStrobesComplete :
    (let s : State := ((st.setReg (chnCtrl 3) 1).setReg (chnSlotCfg 3 23) 0x3FF); let n : Fin 4 := 3; let h : Fin 24 := 23;
      let k : Fin 8 := 7; decide (s.gateOpen (bCHN n) = true) && decide (s.rbit (chnCtrl n) 0 = true) &&
      decide (s.rbit (chnSlotCfg n h) 0 = true) && decide ((s.slot n h).sectors = []) && decide ((s.slot n h).armed = false) &&
      decide (minGranules (popCount 3 (s.slotReaders n h (s.reg (chnProfCfg n k)))) ≤ s.rfld (chnSlotCfg n h) 4 7)) &&
    (let s : State := osl { armed := true }; let n : Fin 4 := 3; let h : Fin 24 := 23; decide (s.gateOpen (bCHN n) = true) &&
      decide ((s.slot n h).midSector = false)) &&
    (let s : State := osl { armed := true, sectors := [sec0] }; let n : Fin 4 := 3; let h : Fin 24 := 23;
      decide (s.gateOpen (bCHN n) = true) && decide ((s.slot n h).midSector = true)) &&
    (let s : State := st; let n : Fin 4 := 3; decide (s.gateOpen (bCHN n) = true)) &&
    (let s : State := osl { hold := true }; let n : Fin 4 := 3; decide (s.gateOpen (bCHN n) = true)) &&
    (let s : State := osl { sectors := [{ sec0 with st := .held }], ops := [1,2,3] }; let n : Fin 4 := 3; let h : Fin 24 := 23;
      decide (s.gateOpen (bCHN n) = true) && decide ((s.slot n h).holds = true) && decide ((s.slot n h).ops.length < 4)) &&
    (let s : State := osl { sectors := [{ sec0 with st := .held }], ops := [1,2,3] }; let n : Fin 4 := 3; let h : Fin 24 := 23;
      decide (s.gateOpen (bCHN n) = true) && decide ((s.slot n h).holds = true) && decide ((s.slot n h).ops.length < 4)) &&
    (let s : State := osl { sectors := [{ sec0 with st := .held }], ops := [1,2,3] }; let n : Fin 4 := 3; let h : Fin 24 := 23;
      decide (s.gateOpen (bCHN n) = true) && decide ((s.slot n h).holds = true) && decide ((s.slot n h).ops.length < 4)) &&
    (let s : State := osl { sectors := [{ sec0 with st := .held }], ops := [1,2,3] }; let n : Fin 4 := 3; let h : Fin 24 := 23;
      decide (s.gateOpen (bCHN n) = true) && decide ((s.slot n h).holds = true) && decide ((s.slot n h).ops.length < 4)) &&
    (let s : State := osl { sectors := [{ sec0 with st := .held }], ops := [1,2,3] }; let n : Fin 4 := 3; let h : Fin 24 := 23;
      decide (s.gateOpen (bCHN n) = true) && decide ((s.slot n h).holds = true) && decide ((s.slot n h).ops.length < 4)) &&
    (let s : State := osl { sectors := [{ sec0 with st := .held }, { sec0 with st := .held, gateId := 9 }] }; let n : Fin 4 := 3;
      let h : Fin 24 := 23; decide (s.gateOpen (bCHN n) = true) && decide ((s.slot n h).op = none) &&
      decide ((s.slot n h).sectors.any (fun q => q.st == .held) = true)) &&
    (let s : State := st; let n : Fin 4 := 3; let w := true; let code : BitVec 8 := 24;
      decide (s.gateOpen (if w then bWPA n else bCHN n) = true) &&
      decide (code.toNat ∉ (if w then [0x40, 0x41, 0x42, 0x43, 0x44, 0x45, 0x46, 0x47, 0x48, 0x58, 0x59] else [0x10, 0x11, 0x12, 0x13, 0x14, 0x15, 0x16, 0x17, 0x20, 0x21, 0x22, 0x31, 0x32, 0x33, 0x34, 0x35, 0x3F])) &&
      decide ((s.reg (mgtViol (4 + n)).addr).toNat + 1 < 2 ^ 32 - 1)) := by decide +kernel

/-- Every clause of Obligations.ReadChannelCommandsComplete that has hypotheses: a state and operands that meet them. -/
theorem test_hypotheses_readChannelCommandsComplete :
    (let s : State := (st.setReg (chnSlotCfg 3 0) 0).setReg (chnSlotCfg 3 1) 0; let n : Fin 4 := 3; let h : Fin 24 := 23;
      let v := (0#32) &&& 0xFFFFF80F#32;
      decide (((upto 24).map fun g => if g = h.val then 0 else s.rfld (chnSlotCfg n g) 4 7).sum + fld v 4 7 ≤ 96)) &&
    (let s : State := st; let n : Fin 4 := 3; let h : Fin 24 := 23; let v := 0x7F0#32;
      decide (96 < ((upto 24).map fun g => if g = h.val then 0 else s.rfld (chnSlotCfg n g) 4 7).sum + fld v 4 7)) &&
    (let s : State := osl { inForce := [(3, some 4)] }; let n : Fin 4 := 3; let h : Fin 24 := 23; decide ((s.slot n h).midSector = false)) &&
    (let s : State := osl { inForce := [(3, some 4)], sectors := [{ sec0 with samples := [1] }] }; let n : Fin 4 := 3;
      let h : Fin 24 := 23; decide ((s.slot n h).midSector = true)) &&
    (let s : State := (((osl { sectors := [{ sec0 with profCfg := 1, left := 0 }] }).setReg (chnCtrl 3) 1).setReg (chnSlotCfg 3 23) 0x3FF);
      let n : Fin 4 := 3; let h : Fin 24 := 23; let q := fq s (fun q => q.st == .arriving);
      decide ((s.slot n h).sectors.find? (fun q => q.st == .arriving) = some q) && decide (q.left = 0) && decide (s.slotOn n h = true)) &&
    (let s : State := (((osl { sectors := [{ sec0 with profCfg := 1, left := 0 }] }).setReg (chnCtrl 3) 1).setReg (chnSlotCfg 3 23) 0x3FF);
      let n : Fin 4 := 3; let h : Fin 24 := 23; let q := fq s (fun q => q.st == .arriving); let find := .uncorrectable;
      decide ((s.slot n h).sectors.find? (fun q => q.st == .arriving) = some q) && decide (q.left = 0) && decide (s.slotOn n h = true) &&
      decide (eccBad find = true)) &&
    (let s : State := ((((osl { sectors := [{ sec0 with st := .awaiting, search := true, profCfg := 1 }] }).setRbit (chnSync 3) 16 true).setReg (chnCtrl 3) 1).setReg (chnSlotCfg 3 23) 0x3FF);
      let n : Fin 4 := 3; let h : Fin 24 := 23; let q := fq s Sector.searches; decide ((s.slot n h).feBusy = false) &&
      decide (s.slotOn n h = true) && decide ((s.slot n h).sectors.find? Sector.searches = some q)) &&
    (let s : State := st.setChn 3 { firstWait := [4,5] }; let n : Fin 4 := 3; let c : Fin 12 := 11;
      let h := (s.chnP 3).firstWait.head?.getD 0; let hs := (s.chnP 3).firstWait.tail; decide (s.coreOf n c = none) &&
      decide ((s.chnP n).firstWait = h :: hs)) &&
    (let s : State := st.setChn 3 { replayWait := [4,5] }; let n : Fin 4 := 3; let c : Fin 12 := 11;
      let h := (s.chnP 3).replayWait.head?.getD 0; let hs := (s.chnP 3).replayWait.tail; decide (s.coreOf n c = none) &&
      decide ((s.chnP n).firstWait = []) && decide ((s.chnP n).replayWait = h :: hs)) &&
    (let s : State := st.setCore 3 11 (some { slot := 23, replay := false }); let n : Fin 4 := 3; let c : Fin 12 := 11;
      let x := (s.coreOf 3 11).getD {slot:=0,replay:=true}; decide (s.coreOf n c = some x) && decide (x.yield = false)) &&
    (let s : State := (osl { sectors := [{ sec0 with st := .decoding }] }).setCore 3 11 (some { slot := 23, replay := false, loaded := true });
      let n : Fin 4 := 3; let c : Fin 12 := 11; let x := (s.coreOf 3 11).getD {slot:=0,replay:=true};
      let q := ((s.slot 3 ((s.coreOf 3 11).getD {slot:=0,replay:=true}).slot).sectors.find? fun q => q.st == .decoding).getD sec0;
      decide (s.coreOf n c = some x) && decide (x.replay = false) &&
      decide ((s.slot n x.slot).sectors.find? (fun q => q.st == .decoding) = some q)) &&
    (let s : State := (((osl { sectors := [{ sec0 with st := .held, first := some 0 }], ops := [1,2] }).setReg (chnCtrl 3) 1).setReg (chnSlotCfg 3 23) 0x3FF);
      let n : Fin 4 := 3; let h : Fin 24 := 23; let rung := (s.slot 3 23).ops.head?.getD 0; let ops := (s.slot 3 23).ops.tail;
      let q := fq s (fun q => q.st == .held); decide ((s.slot n h).op = none) &&
      decide ((s.slot n h).sectors.any (fun q => q.search) = false) && decide ((s.slot n h).ops = rung :: ops) &&
      decide (s.slotOn n h = true) && decide ((s.slot n h).sectors.find? (fun q => q.st == .held) = some q) &&
      decide (q.first.isSome = true) && decide (rung ≠ 4)) &&
    (let s : State := (((osl { sectors := [{ sec0 with st := .executing, first := some 0 }], op := some { rung := 1 } }).setReg (chnCtrl 3) 1).setReg (chnSlotCfg 3 23) 0x3FF);
      let n : Fin 4 := 3; let h : Fin 24 := 23; let o := (s.slot 3 23).op.getD {rung:=0}; let q := fq s (fun q => q.st == .executing);
      decide ((s.slot n h).op = some o) && decide (o.fe = true) && decide (o.rung ≠ 2) && decide (s.slotOn n h = true) &&
      decide ((s.slot n h).sectors.find? (fun q => q.st == .executing) = some q)) &&
    (let s : State := (((osl { sectors := [{ sec0 with st := .executing, first := some 0 }], op := some { rung := 1 } }).setReg (chnCtrl 3) 1).setReg (chnSlotCfg 3 23) 0x3FF);
      let n : Fin 4 := 3; let h : Fin 24 := 23; let find := .uncorrectable; let o := (s.slot 3 23).op.getD {rung:=0};
      let q := fq s (fun q => q.st == .executing); decide ((s.slot n h).op = some o) && decide (o.fe = true) &&
      decide (s.slotOn n h = true) && decide (eccBad find = true) &&
      decide ((s.slot n h).sectors.find? (fun q => q.st == .executing) = some q)) := by decide +kernel

/-- Every clause of Obligations.WriteStrobesComplete that has hypotheses: a state and operands that meet them. -/
theorem test_hypotheses_writeStrobesComplete :
    (let s : State := (st.setReg (wpaCtrl 3) 1).setWpaSt 3 23 1; let n : Fin 4 := 3; let h : Fin 24 := 23;
      decide (s.gateOpen (bWPA n) = true) && decide (s.rbit (wpaCtrl n) 0 = true) && decide (s.wpaSt n h = 1)) &&
    (let s : State := (st.setReg (wpaCtrl 3) 1).setWpaSt 3 23 1; let n : Fin 4 := 3; let h : Fin 24 := 23;
      decide (s.gateOpen (bWPA n) = true) && decide (s.rbit (wpaCtrl n) 0 = true) && decide (s.wpaSt n h = 1)) &&
    (let s : State := st.setWpaSt 3 23 2; let n : Fin 4 := 3; let h : Fin 24 := 23; decide (s.gateOpen (bWPA n) = true) &&
      decide (s.wpaSt n h = 2) && decide (s.writeOpen n h = false)) &&
    (let s : State := { (st.setWpaSt 3 23 2).setOrd 3 { gates := [{ g1 with sent := true }] } with ltime := 2999 }; let n : Fin 4 := 3;
      let h : Fin 24 := 23; let g := (s.openWrite 3 23).getD g1; decide (s.gateOpen (bWPA n) = true) && decide (s.wpaSt n h = 2) &&
      decide (s.openWrite n h = some g)) &&
    (let s : State := (st.setWpaSt 3 23 1).setWpaH 3 23 { fh := 0xF0E }; let n : Fin 4 := 3; let h : Fin 24 := 23;
      decide (s.gateOpen (bWPA n) = true) && decide (s.wpaSt n h = 1) && decide (s.fhFld n h 0 4 < s.fhFld n h 8 4)) &&
    (let s : State := (st.setWpaSt 3 23 1).setWpaH 3 23 { fhDown := true }; let n : Fin 4 := 3; let h : Fin 24 := 23;
      decide (s.gateOpen (bWPA n) = true) && decide (s.wpaSt n h = 1)) &&
    (let s : State := st.setWpaSt 3 23 1; let n : Fin 4 := 3; let h : Fin 24 := 23; decide ((s.wpaSt n h = 1 ∨ s.wpaSt n h = 2)) &&
      decide ((s.ordP n).gates.filter (fun g => g.isWrite && g.head == h.val && g.sent) = [])) &&
    (let s : State := st.setWpaSt 3 23 1; let n : Fin 4 := 3; let h : Fin 24 := 23; decide ((s.wpaSt n h = 1 ∨ s.wpaSt n h = 2)) &&
      decide ((s.ordP n).gates.filter (fun g => g.isWrite && g.head == h.val && g.sent) = [])) &&
    (let s : State := ((st.setReg (wpaCtrl 3) 1).setReg (wpaInhibit 3) 0xFFFFFF).setReg (wpaHeadStatus 3 23) 0x100003; let n : Fin 4 := 3;
      let h : Fin 24 := 23; decide (s.wpaSt n h = 3) && decide (s.rbit (wpaHeadStatus n h) 18 = false) &&
      decide (s.rbit (wpaCtrl n) 0 = true)) &&
    (let s : State := st; let n : Fin 4 := 3; let v := (0#32); decide ((s.rbit (wpaCtrl n) 0 = false ∨ bitAt v 0 = true))) := by decide +kernel

/-- Every clause of Obligations.WriteVerifyCommandsComplete that has hypotheses: a state and operands that meet them. -/
theorem test_hypotheses_writeVerifyCommandsComplete :
    (let s : State := (((up.setUlkSt 3 3).setUlk 3 { mapInForce := [(23, 0x1#32 ||| (22#32 <<< 2))] }).setReg (ulkLaneUp 3) 0x3FFFFFF).setOrd 3 { gates := [{ g1 with start := 20000, stop := 30000 }] } |>.setCq 55 { pkts := [⟨.bytes (infoB ((24*3+23) * 2^54)), 4112, false⟩] };
      let n : Fin 4 := 3; let h : Fin 24 := 23; let g := (s.nextWriteGate 3 23).getD g1; let p := hd s 55; let ps := (s.cq 55).pkts.tail;
      let l := firstLane (s.headMap n h); decide (s.nextWriteGate n h = some g) && decide (s.now + 2000 ≤ g.start) &&
      decide (s.heads (52 + n) = p :: ps) && decide ((metaOf (pktBytes p.body) >>> 54) % 2 ^ 7 = 24 * n.val + h.val) &&
      decide (s.beyondGuard n g ((metaOf (pktBytes p.body) >>> 22) % 2 ^ 32) = false) &&
      decide (s.mirrorProtected n (metaOf (pktBytes p.body)) (s.ordP n).dSlots = false) && decide (s.headMapped n h = true) &&
      decide (s.laneReady n l = true) && decide (l < 24)) &&
    (let s : State := (ve).setReg cplStatus 4; let n : Fin 4 := 3; let d := (scOf (hd s 59).body).1; let r := (scOf (hd s 59).body).2;
      let g := ((s.ordP 3).gates.find? (fun g => g.id == (scOf (hd s 59).body).2.gateId && g.kind == .raw)).getD g2; let p := hd s 59;
      let ps := (s.cq 59).pkts.tail; decide (s.heads (56 + n) = p :: ps) && decide (p.body = .sector d r) && decide (p.poison = false) &&
      decide ((s.ordP n).gates.find? (fun g => g.id == r.gateId && g.kind == .raw) = some g) && decide ((s.ordP n).writeTwin g = none) &&
      decide (passes (s.wpaP n).rawcfg r = true) && decide ((s.ordP n).band = true) && decide (g.pass = s.bandPass n)) &&
    (let s : State := (st.setWpa 3 { stopGates := true }).setReg (wpaRewind 3) 0x30; let n : Fin 4 := 3; decide (s.rewindSt n = 3) &&
      decide ((s.wpaP n).stopGates = true) && decide ((s.wpaP n).inhibitWait = false) && decide (s.oldGateOpen n = false) &&
      decide (s.rfld (wpaRewind n) 0 2 ≠ 3)) &&
    (let s : State := (st.setWpa 3 { stopGates := true }).setReg (wpaRewind 3) 0x33; let n : Fin 4 := 3; decide (s.rewindSt n = 3) &&
      decide ((s.wpaP n).stopGates = true) && decide ((s.wpaP n).inhibitWait = false) && decide (s.oldGateOpen n = false) &&
      decide (s.rfld (wpaRewind n) 0 2 = 3)) &&
    (let s : State := (st.setWpa 3 { inhibitWait := true }).setOrd 3 { band := true }; let n : Fin 4 := 3;
      decide ((s.wpaP n).inhibitWait = true) && decide ((s.ordP n).band = true)) &&
    (let s : State := { ((st.setWpa 3 { quiet := 1440 }).setOrd 3 { gates := [{ g1 with sent := true }], band := true }) with ltime := 3000 };
      let n : Fin 4 := 3; decide (s.verifyPending n = true) && decide (3 * s.rfld (regAddr bSVO 0x10) 0 10 ≤ (s.wpaP n).quiet)) := by decide +kernel

/-- Every clause of Obligations.ServoEngineCommandsComplete that has hypotheses: a state and operands that meet them. -/
theorem test_hypotheses_servoEngineCommandsComplete :
    (let s : State := { ((st.setReg (regAddr bSVO 0) 1).setReg (regAddr bSVO 0x34) 1) with svo := { zeroing := false, mem := svm 5 [2, 255, 5, 0], loops := [(5, { commit := true })], fieldEnd := [(24, (0, 5))], wedge := [(1, 5)], headPos := [(24, some 77)] } };
      let i : Fin 296 := 5; decide (4 ≤ i.val) && decide (i.val < 8) && decide (s.rbit (regAddr bSVO 0x0) 0 = true) &&
      decide (s.svo.zeroing = false) && decide (s.arrived i = true) && decide ((s.loop i).commit = true) &&
      decide (s.descRefused i (s.descAt i) = false) && decide ((s.descAt i).enable = false)) &&
    (let s : State := { (((st.setReg (regAddr bSVO 0) 1).setActSt 1 2).setReg (regAddr bSVO 0x34) 1) with svo := { zeroing := false, loops := [(5, { desc := { enable := true, sections := 1, limHi := 100, limLo := -100 } })], fieldEnd := [(24, (0, 5))], wedge := [(1, 5)], headPos := [(24, some 77)] } };
      let i : Fin 296 := 5; let find := .clean; decide (4 ≤ i.val) && decide (i.val < 8) && decide (s.rbit (regAddr bSVO 0x0) 0 = true) &&
      decide (s.svo.zeroing = false) && decide (s.arrived i = true) && decide ((s.loop i).commit = false) &&
      decide ((s.loop i).desc.enable = true) && decide ((s.loop i).desc.satLimit = 0) &&
      decide ((s.loop i).desc.limLo ≤ (s.loop i).desc.limHi) && decide (eccBad (s.sramFind 26 (s.loopBadWord i) find) = false) &&
      decide (2 ≤ s.actSt (loopAct i)) && decide (s.actSt (loopAct i) ≤ 4) &&
      decide (((s.stackInForce (loopAct i)).loopInput i).isSome = true)) &&
    (let s : State := { st with svo := { loops := [(0, { pending := true, taps := [1,2,3,4,-65537] })] } }; let i : Fin 296 := 0;
      decide ((s.loop i).zeroOut = false) && decide ((s.loop i).pending = true)) &&
    (let s : State := st; let v := ((0#32) &&& 0x7FFFFE00#32) ||| 295#32; decide (bitAt v 31 = false) && decide (fld v 0 9 < 296)) &&
    (let s : State := st; let v := (0#32) ||| 0x80000000#32; decide (bitAt v 31 = true)) &&
    (let s : State := st.setReg (regAddr bSVO 0x1C) 0; let w : Fin 8192 := 8191; decide (s.rfld (regAddr bSVO 0x1C) 0 4 < 8) &&
      decide (0x2000 * s.rfld (regAddr bSVO 0x1C) 0 4 + w.val < stateWord 0) &&
      decide (s.setActive ((0x2000 * s.rfld (regAddr bSVO 0x1C) 0 4 + w.val) / 96) = false)) &&
    (let s : State := st.setReg (regAddr bSVO 0x1C) 8; decide (8 ≤ s.rfld (regAddr bSVO 0x1C) 0 4) && decide (s.capSt = 0 ∨ s.capSt = 3)) &&
    (let s : State := st; let v := (0#32) ||| 1#32; decide (bitAt v 0 = true)) &&
    (let s : State := st.setReg capStatus 1; decide (s.rfld capCtrl 4 2 = 0) && decide (s.capSt = 1)) &&
    (let s : State := st.setReg capStatus 1; decide (s.capSt = 1 ∨ s.capSt = 2)) := by decide +kernel

/-- Every clause of Obligations.ActuatorCommandsComplete that has hypotheses: a state and operands that meet them. -/
theorem test_hypotheses_actuatorCommandsComplete :
    (let s : State := st.setReg actStatusAll 0xF; let a : Fin 4 := 3; decide (s.actSt a = 0) && decide (s.rbit actStatusAll a = true)) &&
    (let s : State := st.setActSt 3 1; let a : Fin 4 := 3; decide (s.actSt a = 1) && decide (s.mopInFlight a = false) &&
      decide ((s.ordP a).gates = [])) &&
    (let s : State := st; let a : Fin 4 := 3; decide (s.actSt a = 0) && decide (s.mopInFlight a = false)) &&
    (let s : State := st.setActSt 3 6; let a : Fin 4 := 3; decide (s.actSt a = 6)) &&
    (let s : State := st.setActSt 3 1; let a : Fin 4 := 3; decide (1 ≤ s.actSt a) && decide (s.actSt a ≤ 4) &&
      decide (s.mopInFlight a = false) && decide ((s.ordP a).gates = [])) &&
    (let s : State := st.setActSt 3 5; let a : Fin 4 := 3; decide (s.actSt a = 5)) &&
    (let s : State := (st.setActSt 3 4).setAct 3 { timeoutCfg := 0, settleWedges := 3 }; let a : Fin 4 := 3; decide (s.actSt a = 4) &&
      decide (fld (s.actP a).timeoutCfg 8 8 ≤ (s.actP a).settleWedges)) &&
    (let s : State := st.setReg (regAddr bACT 0) 0x70; decide (s.rfld (regAddr bACT 0x0) 0 4 = 0)) &&
    (let s : State := actB 4; let a : Fin 4 := 3; decide (s.linkOn a = true) && decide (1 ≤ s.actSt a) && decide (s.actSt a ≤ 4)) &&
    (let s : State := actB 4; let a : Fin 4 := 3; let f : BitVec 96 := af (8 * 2^76 + 5 * 2^32); decide (s.linkOn a = true) &&
      decide ((s.actP a).locked = true) && decide (frameCrcOk f = true) && decide (frameSync f = true) && decide (frameFld f 84 4 = 8) &&
      decide (frameFld f 8 24 = 0) && decide (frameFld f 46 2 = 0) && decide (s.actSt a ≠ 5)) &&
    (let s : State := actB 4; let a : Fin 4 := 3; let f : BitVec 96 := af (9 * 2^76 + 0xABCD1234 * 2^24 + 2^16);
      decide (s.linkOn a = true) && decide ((s.actP a).locked = true) && decide (frameCrcOk f = true) && decide (frameSync f = true) &&
      decide (frameFld f 84 4 = 9) && decide ((s.actP a).ampOut = true) && decide (frameFld f 8 16 = 0)) &&
    (let s : State := actB 0; let a : Fin 4 := 3; decide (s.linkOn a = true) && decide (s.actSt a = 0)) &&
    (let s : State := actB 0; let a : Fin 4 := 3; decide (s.rbit (actReg a 0x24) 18 = false) && decide (s.linkOn a = true)) &&
    (let s : State := (actB 0).setReg (actReg 3 0x24) 0x40000; let a : Fin 4 := 3; decide (s.rbit (actReg a 0x24) 18 = true)) &&
    (let s : State := st; decide (s.gov = [])) &&
    (let s : State := st.setReg (actGang 3) 0xF00; let a : Fin 4 := 3; let v := 0xFF0FF;
      decide (fld v 0 24 &&& s.rfld (actGang a) 0 24 = 0)) := by decide +kernel

/-- Every clause of Obligations.SpindleCommandsComplete that has hypotheses: a state and operands that meet them. -/
theorem test_hypotheses_spindleCommandsComplete :
    (let s : State := (st.setReg motMotor 0x10010000); let nominal : Bool := true;
      decide (s.motWriteRefused true (if nominal then 2 else 1) = false) && decide (s.motSt = 0)) &&
    (let s : State := (st.setReg motMotor 0x10010000).setMotSt 5; decide (s.motWriteRefused true 0 = false) && decide (s.motSt = 5)) &&
    (let s : State := ((st.setReg motMotor 0x10010000).setReg motCtrl 3).setMotSt 5;
      decide (s.motWriteRefused false (s.rfld motCtrl 1 2) = false) && decide (s.rbit motCtrl 0 = true) && decide (s.motSt = 5)) &&
    (let s : State := ((st.setReg motMotor 0x10010000).setReg motCtrl 3).setMotSt 5; let nominal : Bool := true;
      decide (s.motWriteRefused true (if nominal then 2 else 1) = false) && decide (s.rbit motCtrl 0 = true) && decide (s.motSt = 5)) &&
    (let s : State := st.setMotSt 7; let nominal : Bool := true; decide (s.motWriteRefused true (if nominal then 2 else 1) = true)) &&
    (let s : State := st.setMotSt 7; decide (s.motSt = 7) && decide (s.rpm < s.stopRpm)) &&
    (let s : State := st; decide (s.motSt = 0)) &&
    (let s : State := st.setMotSt 5; decide (s.motSt = 5) && decide (s.mot.stopping = false)) &&
    (let s : State := st.setMotSt 1; decide (s.motSt = 1)) &&
    (let s : State := { st.setMotSt 2 with mot := { brake := 1 } }; decide (s.motSt = 2) && decide (s.mot.brake = 1)) &&
    (let s : State := st.setMotSt 3; decide (s.motSt = 3)) &&
    (let s : State := { st.setMotSt 4 with mot := { fails := 1 } }; decide (s.motSt = 4) && decide (s.mot.fails < 2)) &&
    (let s : State := { st.setMotSt 4 with mot := { fails := 2 } }; decide (s.motSt = 4) && decide (2 ≤ s.mot.fails)) &&
    (let s : State := { st.setMotSt 6 with mot := { retry := true } }; decide (s.motSt = 6) && decide (s.mot.retry = true)) &&
    (let s : State := st.setMotSt 5; decide (s.chopBrake = false)) := by decide +kernel

/-- Every clause of Obligations.SequencerCommandsComplete that has hypotheses: a state and operands that meet them. -/
theorem test_hypotheses_sequencerCommandsComplete :
    (let s : State := st.setOrd 3 { mop := some mops, submit := [(0,0x00000004),(1,5),(2,6)] }; let n : Fin 4 := 3;
      decide ((s.ordP n).used < 64) && decide ((s.ordP n).mop.isSome = true)) &&
    (let s : State := st.setOrd 3 { mop := some mops, queue := List.replicate 63 mops }; let n : Fin 4 := 3;
      decide (64 ≤ (s.ordP n).used)) &&
    (let s : State := (st.setReg (ordCtrl 3) 1).setOrd 3 { queue := [mops, mops], store := [(4, 0x00010064)] }; let n : Fin 4 := 3;
      let find := .clean; let m := (s.ordP 3).queue.head?.getD mops; let ms := (s.ordP 3).queue.tail;
      decide (s.rbit (ordCtrl n) 0 = true) && decide ((s.ordP n).mop = none) && decide ((s.ordP n).queue = m :: ms) &&
      decide (m.refused = 0) && decide (s.actSt n ≠ 6) && decide (s.disPending n = false) &&
      decide (s.sramFind (22 + n) (m.opcode / 2) find = .clean) && decide (m.replayCells = 0) &&
      decide (fld ((s.ordP n).word m.opcode) 14 2 = 0) && decide (s.rfld actGovUsed 0 16 ≤ s.rfld actGovBudget 0 16)) &&
    (let s : State := st; let n : Fin 4 := 3; let run := true; decide ((run = true ∨ (s.ordP n).phase ≠ .admitting))) &&
    (let s : State := st.setOrd 3 { phase := .running }; let n : Fin 4 := 3; decide (s.mopInFlight n = true)) &&
    (let s : State := st; let n : Fin 4 := 3; decide (s.mopInFlight n = false)) &&
    (let s : State := st.setReg (regAddr (bORD 3) 0x14) 1; let n : Fin 4 := 3; let w : Fin 8192 := 7167;
      decide (8192 * s.rfld (regAddr (bORD n) 0x14) 0 1 + w.val < 15360) && decide (s.halted n = true)) &&
    (let s : State := (st.setReg (regAddr (bORD 3) 0x14) 1).setReg (ordCtrl 3) 1; let n : Fin 4 := 3; let w : Fin 8192 := 7167;
      decide (8192 * s.rfld (regAddr (bORD n) 0x14) 0 1 + w.val < 15360) && decide (s.halted n = false)) &&
    (let s : State := st; let n : Fin 4 := 3; decide ((s.actP n).disableWait = false) && decide (s.mopInFlight n = false)) &&
    (let s : State := st.setOrd 3 { phase := .draining 5 6 }; let n : Fin 4 := 3; let st := (dr s).1; let k := (dr s).2;
      decide ((s.actP n).disableWait = false) && decide ((s.ordP n).phase = .draining st k)) &&
    (let s : State := st.setOrd 3 { phase := .running, budgetWords := 99999999, budgetTicks := 9999999, mop := some mops };
      let n : Fin 4 := 3; decide (s.mopInFlight n = true) && decide ((s.ordP n).overrun = true) &&
      decide ((s.ordP n).mop.isSome = true) && decide (s.gov = [])) &&
    (let s : State := st.setOrd 3 { phase := .draining 5 6, mop := some mops }; let n : Fin 4 := 3; let st := (dr s).1; let k := (dr s).2;
      let m := mpOf s; decide ((s.ordP n).phase = .draining st k) && decide ((s.ordP n).mop = some m) && decide ((s.ordP n).gates = []) &&
      decide ((s.ordP n).replays = []) && decide (s.disPending n = false) && decide ((s.ordP n).queue = [])) &&
    (let s : State := ((st.setOrd 3 { phase := .running, mop := some mops, gates := [gt0] }).setCq 51 { pkts := [⟨.sector [] { status := 0, slot := 5, gateId := 9 }, 4144, false⟩] }).setReg cplStatus 4;
      let n : Fin 4 := 3; let info := (scOf (hd s 51).body).1; let r := (scOf (hd s 51).body).2; let p := hd s 51;
      let ps := (s.cq 51).pkts.tail; let g := ((s.ordP 3).gates.find? (fun g => g.id == (scOf (hd s 51).body).2.gateId)).getD gt0;
      let m := mpOf s; decide (s.heads (48 + n) = p :: ps) && decide (p.body = .sector info r) && decide ((s.ordP n).mop = some m) &&
      decide (s.mopStarted n = true) && decide (r.source ≤ 0x10) &&
      decide ((s.ordP n).gates.find? (fun g => g.id == r.gateId) = some g) && decide (g.kind = .read)) &&
    (let s : State := st.setOrd 3 { cpls := [⟨1,2,3,4,5⟩] }; let n : Fin 4 := 3; let c := (s.ordP 3).cpls.head?.getD ⟨1,2,3,4,5⟩;
      let cs := (s.ordP 3).cpls.tail; decide ((s.ordP n).cpls = c :: cs) && decide ((s.cq (60 + n)).pkts = []) &&
      decide (s.fw.relocs = []) && decide ((s.fw.jobs.find? fun j => j.eng == n.val && j.tag == fld c.c0 0 16) = none)) &&
    (let s : State := st; let n : Fin 4 := 3; decide ((s.ring n).stage.isEmpty = true)) &&
    (let s : State := st.setRing 3 { len := 64, stage := [(5,6)] }; let n : Fin 4 := 3; decide ((s.ring n).stage.isEmpty = false) &&
      decide ((s.ring n).len ≠ 0) && decide (((s.ring n).h + 1) % (s.ring n).len ≠ (s.ring n).q) &&
      decide ((s.ring n).stripes.length + (s.ring n).pinned.length + 1 < (s.ring n).len)) &&
    (let s : State := { st with groups := [zg], fw := { zones := [(1, { st := .implOpen, v := 7 })] } }; let z := 1; let x := (s.zone 1);
      let g := (s.groupOf 1).getD zg; decide (s.fw.zones.filter (fun e => e.2.st == .implOpen || e.2.st == .explOpen) = [(z, x)]) &&
      decide (s.groupOf z = some g)) &&
    (let s : State := { ((st.setReg (ordCtrl 3) 1).setOrd 3 { phase := .admitting, mop := some mops, queue := [mops] }) with gov := [{ act := 3, run := 5, seek := 6 }] };
      let n : Fin 4 := 3; let m := mpOf s; decide ((s.ordP n).phase = .admitting) && decide ((s.ordP n).mop = some m)) := by decide +kernel

/-- Every clause of Obligations.ComputingMicrowordsComplete that has hypotheses: a state and operands that meet them. -/
theorem test_hypotheses_computingMicrowordsComplete :
    (let s : State := mw (mword 0 15 1 2 16383); let n : Fin 4 := 3; let find : EccFind := .clean; decide ((s.ordP n).phase = .running) &&
      decide ((s.ordP n).overrun = false) && decide (s.sramFind (22 + n) ((s.ordP n).pc / 2) find = .clean)) &&
    (let s : State := mw (mword 1 15 1 2 16383); let n : Fin 4 := 3; let find : EccFind := .clean; decide ((s.ordP n).phase = .running) &&
      decide ((s.ordP n).overrun = false) && decide (s.sramFind (22 + n) ((s.ordP n).pc / 2) find = .clean)) &&
    (let s : State := mw (mword 2 15 1 2 16383); let n : Fin 4 := 3; let find : EccFind := .clean; decide ((s.ordP n).phase = .running) &&
      decide ((s.ordP n).overrun = false) && decide (s.sramFind (22 + n) ((s.ordP n).pc / 2) find = .clean)) &&
    (let s : State := mw (mword 3 15 1 2 16383); let n : Fin 4 := 3; let find : EccFind := .clean; decide ((s.ordP n).phase = .running) &&
      decide ((s.ordP n).overrun = false) && decide (s.sramFind (22 + n) ((s.ordP n).pc / 2) find = .clean)) &&
    (let s : State := mw (mword 4 15 1 2 16383); let n : Fin 4 := 3; let find : EccFind := .clean; decide ((s.ordP n).phase = .running) &&
      decide ((s.ordP n).overrun = false) && decide (s.sramFind (22 + n) ((s.ordP n).pc / 2) find = .clean)) &&
    (let s : State := mw (mword 5 15 1 2 16383); let n : Fin 4 := 3; let find : EccFind := .clean; decide ((s.ordP n).phase = .running) &&
      decide ((s.ordP n).overrun = false) && decide (s.sramFind (22 + n) ((s.ordP n).pc / 2) find = .clean)) &&
    (let s : State := mw (mword 6 15 1 2 16383); let n : Fin 4 := 3; let find : EccFind := .clean; decide ((s.ordP n).phase = .running) &&
      decide ((s.ordP n).overrun = false) && decide (s.sramFind (22 + n) ((s.ordP n).pc / 2) find = .clean)) &&
    (let s : State := mw (mword 7 15 1 2 16383); let n : Fin 4 := 3; let find : EccFind := .clean; decide ((s.ordP n).phase = .running) &&
      decide ((s.ordP n).overrun = false) && decide (s.sramFind (22 + n) ((s.ordP n).pc / 2) find = .clean)) &&
    (let s : State := mw (mword 8 15 1 2 16383); let n : Fin 4 := 3; let find : EccFind := .clean; decide ((s.ordP n).phase = .running) &&
      decide ((s.ordP n).overrun = false) && decide (s.sramFind (22 + n) ((s.ordP n).pc / 2) find = .clean)) &&
    (let s : State := mw (mword 9 15 1 2 16383); let n : Fin 4 := 3; let find : EccFind := .clean; decide ((s.ordP n).phase = .running) &&
      decide ((s.ordP n).overrun = false) && decide (s.sramFind (22 + n) ((s.ordP n).pc / 2) find = .clean)) &&
    (let s : State := mw (mword 10 15 1 2 16383); let n : Fin 4 := 3; let find : EccFind := .clean;
      decide ((s.ordP n).phase = .running) && decide ((s.ordP n).overrun = false) &&
      decide (s.sramFind (22 + n) ((s.ordP n).pc / 2) find = .clean)) &&
    (let s : State := mw (mword 11 15 1 2 16383); let n : Fin 4 := 3; let find : EccFind := .clean;
      decide ((s.ordP n).phase = .running) && decide ((s.ordP n).overrun = false) &&
      decide (s.sramFind (22 + n) ((s.ordP n).pc / 2) find = .clean)) &&
    (let s : State := mw (mword 12 15 1 2 16383); let n : Fin 4 := 3; let find : EccFind := .clean;
      decide ((s.ordP n).phase = .running) && decide ((s.ordP n).overrun = false) &&
      decide (s.sramFind (22 + n) ((s.ordP n).pc / 2) find = .clean)) &&
    (let s : State := mw (mword 13 15 1 2 16383); let n : Fin 4 := 3; let find : EccFind := .clean;
      decide ((s.ordP n).phase = .running) && decide ((s.ordP n).overrun = false) &&
      decide (s.sramFind (22 + n) ((s.ordP n).pc / 2) find = .clean)) &&
    (let s : State := mw (mword 14 15 1 2 16383); let n : Fin 4 := 3; let find : EccFind := .clean;
      let o : Ord := { s.ordP n with pc := ((s.ordP n).pc + 1) % 16384, budgetWords := (s.ordP n).budgetWords + 1 }; let m := mpOf s;
      decide ((s.ordP n).phase = .running) && decide ((s.ordP n).overrun = false) &&
      decide (s.sramFind (22 + n) ((s.ordP n).pc / 2) find = .clean) && decide (o.mop = some m)) &&
    (let s : State := mw (mword 15 15 1 2 16383); let n : Fin 4 := 3; let find : EccFind := .clean;
      decide ((s.ordP n).phase = .running) && decide ((s.ordP n).overrun = false) &&
      decide (s.sramFind (22 + n) ((s.ordP n).pc / 2) find = .clean)) &&
    (let s : State := mw (mword 16 15 1 2 16383); let n : Fin 4 := 3; let find : EccFind := .clean;
      decide ((s.ordP n).phase = .running) && decide ((s.ordP n).overrun = false) &&
      decide (s.sramFind (22 + n) ((s.ordP n).pc / 2) find = .clean)) := by decide +kernel

/-- Every clause of Obligations.ActingMicrowordsComplete that has hypotheses: a state and operands that meet them. -/
theorem test_hypotheses_actingMicrowordsComplete :
    (let s : State := mw (mword 0x11 0 0 0 15359); let n : Fin 4 := 3; let find : EccFind := .clean;
      let o : Ord := { s.ordP n with pc := ((s.ordP n).pc + 1) % 16384, budgetWords := (s.ordP n).budgetWords + 1 };
      let w : W := (s.ordP n).word (s.ordP n).pc; decide ((s.ordP n).phase = .running) && decide ((s.ordP n).overrun = false) &&
      decide (s.sramFind (22 + n) ((s.ordP n).pc / 2) find = .clean) && decide (o.cond (uxd w) = some true) &&
      decide (targetOk (fld w 0 14) = true)) &&
    (let s : State := mw (mword 0x11 1 0 0 64); let n : Fin 4 := 3; let find : EccFind := .clean;
      let o : Ord := { s.ordP n with pc := ((s.ordP n).pc + 1) % 16384, budgetWords := (s.ordP n).budgetWords + 1 };
      let w : W := (s.ordP n).word (s.ordP n).pc; decide ((s.ordP n).phase = .running) && decide ((s.ordP n).overrun = false) &&
      decide (s.sramFind (22 + n) ((s.ordP n).pc / 2) find = .clean) && decide (o.cond (uxd w) = some false)) &&
    (let s : State := mwo (mword 0x12 0 0 0 64) fun o => { o with stack := List.replicate 7 9 }; let n : Fin 4 := 3;
      let find : EccFind := .clean;
      let o : Ord := { s.ordP n with pc := ((s.ordP n).pc + 1) % 16384, budgetWords := (s.ordP n).budgetWords + 1 };
      let w : W := (s.ordP n).word (s.ordP n).pc; decide ((s.ordP n).phase = .running) && decide ((s.ordP n).overrun = false) &&
      decide (s.sramFind (22 + n) ((s.ordP n).pc / 2) find = .clean) && decide (uxd w = 0) && decide (targetOk (fld w 0 14) = true) &&
      decide (o.stack.length < 8)) &&
    (let s : State := mwo (mword 0x13 0 0 0 64) fun o => { o with stack := [5,6] }; let n : Fin 4 := 3; let find : EccFind := .clean;
      let o : Ord := { s.ordP n with pc := ((s.ordP n).pc + 1) % 16384, budgetWords := (s.ordP n).budgetWords + 1 };
      let r := (s.ordP 3).stack.head?.getD 0; let rs := (s.ordP 3).stack.tail; decide ((s.ordP n).phase = .running) &&
      decide ((s.ordP n).overrun = false) && decide (s.sramFind (22 + n) ((s.ordP n).pc / 2) find = .clean) && decide (o.stack = r :: rs)) &&
    (let s : State := (mw (mword 0x14 5 0 0 0)).setReg (ordEvtPend 3) 0xFF; let n : Fin 4 := 3; let find : EccFind := .clean;
      let o : Ord := { s.ordP n with pc := ((s.ordP n).pc + 1) % 16384, budgetWords := (s.ordP n).budgetWords + 1 };
      let w : W := (s.ordP n).word (s.ordP n).pc; decide ((s.ordP n).phase = .running) && decide ((s.ordP n).overrun = false) &&
      decide (s.sramFind (22 + n) ((s.ordP n).pc / 2) find = .clean) && decide (uop w = 0x14) && decide (o.fatal = 0)) &&
    (let s : State := mw (mword 0x15 2 0 0 0); let n : Fin 4 := 3; let find : EccFind := .clean;
      let o : Ord := { s.ordP n with pc := ((s.ordP n).pc + 1) % 16384, budgetWords := (s.ordP n).budgetWords + 1 };
      let w : W := (s.ordP n).word (s.ordP n).pc; let a : W := o.xr (uxa w); decide ((s.ordP n).phase = .running) &&
      decide ((s.ordP n).overrun = false) && decide (s.sramFind (22 + n) ((s.ordP n).pc / 2) find = .clean) && decide (o.fatal = 0) &&
      decide (s.waitCond n (uxd w) a = some true)) &&
    (let s : State := mw (mword 0x15 0 1 0 0); let n : Fin 4 := 3; let find : EccFind := .clean;
      let o : Ord := { s.ordP n with pc := ((s.ordP n).pc + 1) % 16384, budgetWords := (s.ordP n).budgetWords + 1 };
      let w : W := (s.ordP n).word (s.ordP n).pc; let a : W := o.xr (uxa w); decide ((s.ordP n).phase = .running) &&
      decide ((s.ordP n).overrun = false) && decide (s.sramFind (22 + n) ((s.ordP n).pc / 2) find = .clean) && decide (o.fatal = 0) &&
      decide (s.waitCond n (uxd w) a = some false) && decide (s.rfld (ordEvtPend n) 0 5 = 0)) &&
    (let s : State := mw (mword 0x16 0 1 0 0); let n : Fin 4 := 3; let find : EccFind := .clean;
      let w : W := (s.ordP n).word (s.ordP n).pc; decide ((s.ordP n).phase = .running) && decide ((s.ordP n).overrun = false) &&
      decide (s.sramFind (22 + n) ((s.ordP n).pc / 2) find = .clean) && decide (uop w = 0x16) && decide (s.actSt n ≤ 1)) &&
    (let s : State := (mw (mword 0x16 0 2 0 0)).setActSt 3 2; let n : Fin 4 := 3; let find : EccFind := .clean;
      let w : W := (s.ordP n).word (s.ordP n).pc; decide ((s.ordP n).phase = .running) && decide ((s.ordP n).overrun = false) &&
      decide (s.sramFind (22 + n) ((s.ordP n).pc / 2) find = .clean) && decide (uop w = 0x16) && decide (2 ≤ s.actSt n) &&
      decide (s.actSt n ≤ 4)) &&
    (let s : State := ({ (mwo (mword 0x17 5 2 0 0) fun o => { o with x := [(2, 1)], pblk := [(4, 23), (6, 4)] }) with svo := { loops := [(103, { desc := { enable := true } })] } } : State);
      let n : Fin 4 := 3; let find : EccFind := .clean;
      let o : Ord := { s.ordP n with pc := ((s.ordP n).pc + 1) % 16384, budgetWords := (s.ordP n).budgetWords + 1 };
      let w : W := (s.ordP n).word (s.ordP n).pc; let a : W := o.xr (uxa w); let m := mpOf s; let p := 0;
      decide ((s.ordP n).phase = .running) && decide ((s.ordP n).overrun = false) &&
      decide (s.sramFind (22 + n) ((s.ordP n).pc / 2) find = .clean) && decide (uop w = 0x17) && decide (o.mop = some m) &&
      decide (o.gangPositions a.toNat = [p]) && decide (o.gangHead p < 24) &&
      decide (((o.pb (8 + p)).toInt + m.shift).natAbs ≤ 65536 * fld (if 2 ≤ s.actSt n ∧ s.actSt n ≤ 4 then (s.actP n).settleCfg else s.reg (actReg n 0xC)) 24 8) &&
      decide (s.rbit (actHeaddis n) (o.gangHead p) = false) && decide ((s.loop (8 + 24 * n.val + o.gangHead p)).desc.enable = true)) &&
    (let s : State := mw (mword 0x18 15 0 0 0x21); let n : Fin 4 := 3; let find : EccFind := .clean;
      let o : Ord := { s.ordP n with pc := ((s.ordP n).pc + 1) % 16384, budgetWords := (s.ordP n).budgetWords + 1 };
      let w : W := (s.ordP n).word (s.ordP n).pc; let a : W := o.xr (uxa w); decide ((s.ordP n).phase = .running) &&
      decide ((s.ordP n).overrun = false) && decide (s.sramFind (22 + n) ((s.ordP n).pc / 2) find = .clean) && decide (uop w = 0x18) &&
      decide (bitAt w 17 = false) && decide ((fld w 0 8 + fld a 0 8) % 256 = 0x21) && decide (s.gateOpen (bCHN n) = true)) &&
    (let s : State := mwo (mword 0x19 1 2 15 0) fun o => { o with refuseNew := true }; let n : Fin 4 := 3; let find : EccFind := .clean;
      let o : Ord := { s.ordP n with pc := ((s.ordP n).pc + 1) % 16384, budgetWords := (s.ordP n).budgetWords + 1 };
      let w : W := (s.ordP n).word (s.ordP n).pc; let k := ((gateKind (fld ((s.ordP 3).word (s.ordP 3).pc) 12 2)).getD .read);
      decide ((s.ordP n).phase = .running) && decide ((s.ordP n).overrun = false) &&
      decide (s.sramFind (22 + n) ((s.ordP n).pc / 2) find = .clean) && decide (gateKind (fld w 12 2) = some k) &&
      decide (s.gateRefused n (o.xr (uxb w)).toNat k = true)) &&
    (let s : State := qok ((mwo (mword 0x19 5 2 15 0) fun o => { o with x := [(5, 1#32 <<< 23),(2,3)], pblk := [(1, 0x00100000),(4,23),(6,4),(7,2000),(20,37200)], nextGate := 65535 }).setReg cplStatus 4) 51;
      let n : Fin 4 := 3; let find : EccFind := .clean;
      let o : Ord := { s.ordP n with pc := ((s.ordP n).pc + 1) % 16384, budgetWords := (s.ordP n).budgetWords + 1 };
      let w : W := (s.ordP n).word (s.ordP n).pc; let h := 23; decide ((s.ordP n).phase = .running) &&
      decide ((s.ordP n).overrun = false) && decide (s.sramFind (22 + n) ((s.ordP n).pc / 2) find = .clean) && decide (uop w = 0x19) &&
      decide (fld w 12 2 = 0) && decide (s.gateRefused n (o.xr (uxb w)).toNat .read = false) &&
      decide (maskBits 24 (o.xr (uxd w)).toNat = [h]) && decide (s.rsvOutcome (48 + n) 17 = .granted)) &&
    (let s : State := mwo (mword 0x1A 1 2 3 0) fun o => { o with mop := some { mops with w3 := 0x400000 } }; let n : Fin 4 := 3;
      let find : EccFind := .clean;
      let o : Ord := { s.ordP n with pc := ((s.ordP n).pc + 1) % 16384, budgetWords := (s.ordP n).budgetWords + 1 }; let m := mpOf s;
      decide ((s.ordP n).phase = .running) && decide ((s.ordP n).overrun = false) &&
      decide (s.sramFind (22 + n) ((s.ordP n).pc / 2) find = .clean) && decide (o.mop = some m) && decide (m.area ≠ 0)) &&
    (let s : State := mwo (mword 0x1A 1 2 3 0) fun o => { o with mop := some { mops with w2 := 17 }, pblk := [(1, 0x00100000), (3, 18)] };
      let n : Fin 4 := 3; let find : EccFind := .clean;
      let o : Ord := { s.ordP n with pc := ((s.ordP n).pc + 1) % 16384, budgetWords := (s.ordP n).budgetWords + 1 };
      let w : W := (s.ordP n).word (s.ordP n).pc; let m := mpOf s; decide ((s.ordP n).phase = .running) &&
      decide ((s.ordP n).overrun = false) && decide (s.sramFind (22 + n) ((s.ordP n).pc / 2) find = .clean) && decide (uop w = 0x1A) &&
      decide (o.mop = some m) && decide (m.area = 0) && decide (rewindMark o.sPerTrack (o.pb 3).toNat ≤ m.stripe) &&
      decide (m.stripe ≤ (o.pb 3).toNat) && decide (m.stripe < guardBound o.sPerTrack (rewindMark o.sPerTrack (o.pb 3).toNat))) &&
    (let s : State := mw (mword 0x1B 0 2 0 0); let n : Fin 4 := 3; let find : EccFind := .clean;
      let o : Ord := { s.ordP n with pc := ((s.ordP n).pc + 1) % 16384, budgetWords := (s.ordP n).budgetWords + 1 };
      let w : W := (s.ordP n).word (s.ordP n).pc; decide ((s.ordP n).phase = .running) && decide ((s.ordP n).overrun = false) &&
      decide (s.sramFind (22 + n) ((s.ordP n).pc / 2) find = .clean) && decide (uop w = 0x1B) && decide (o.mop.isSome = true) &&
      decide (s.gov = [])) &&
    (let s : State := mw (mword 28 0 2 0 0); let n : Fin 4 := 3; let find : EccFind := .clean;
      let o : Ord := { s.ordP n with pc := ((s.ordP n).pc + 1) % 16384, budgetWords := (s.ordP n).budgetWords + 1 };
      let w : W := (s.ordP n).word (s.ordP n).pc; decide ((s.ordP n).phase = .running) && decide ((s.ordP n).overrun = false) &&
      decide (s.sramFind (22 + n) ((s.ordP n).pc / 2) find = .clean) && decide (0x1C ≤ uop w) && decide (o.mop.isSome = true) &&
      decide (s.gov = [])) := by decide +kernel

/-- Every clause of Obligations.WaitReturnCompletes that has hypotheses: a state and operands that meet them. -/
theorem test_hypotheses_waitReturnCompletes :
    (let s : State := st.setOrd 3 { phase := .waiting 2 5 }; let n : Fin 4 := 3; let c := (wt s).1; let xa := (wt s).2;
      decide ((s.ordP n).phase = .waiting c xa) && decide ((s.ordP n).fatal = 0) && decide ((s.ordP n).overrun = false) &&
      decide (s.waitCond n c xa = some true)) &&
    (let s : State := st.setOrd 3 { phase := .waiting 0 5, ticked := true }; let n : Fin 4 := 3; let c := (wt s).1; let xa := (wt s).2;
      decide ((s.ordP n).phase = .waiting c xa) && decide ((s.ordP n).fatal = 0) && decide ((s.ordP n).overrun = false) &&
      decide (s.waitCond n c xa = some false) && decide (((s.ordP n).ticked = true ∨ s.rfld (ordEvtPend n) 0 5 ≠ 0))) &&
    (let s : State := st.setOrd 3 { phase := .waiting 3 5 }; let n : Fin 4 := 3; let c := (wt s).1; let xa := (wt s).2;
      decide ((s.ordP n).phase = .waiting c xa) && decide ((s.ordP n).fatal = 0) && decide ((s.ordP n).overrun = false) &&
      decide (s.waitCond n c xa = some false) && decide ((s.ordP n).ticked = false) && decide (s.rfld (ordEvtPend n) 0 5 = 0)) := by decide +kernel

/-- Every clause of Obligations.LanternCommandsComplete that has hypotheses: a state and operands that meet them. -/
theorem test_hypotheses_lanternCommandsComplete :
    (let s : State := lnOff; let acc : BufAcc := { addr := 996, len := 28, mem := .clean }; decide (acc.data = none) &&
      decide (acc.got = []) && decide (acc.status = 0) && decide (0 < acc.len) && decide (acc.addr % 128 + acc.len ≤ 128) &&
      decide (acc.addr < s.bufLimit) && decide (acc.addr < spadBase) && decide (s.rbit lntStatus 0 = false) &&
      decide (s.rbit lntStatus 8 = true) && decide (s.rbit memStatus 0 = true) && decide (s.rbit memStatus 2 = false) &&
      decide (s.lineCopying (acc.addr / 128) = false) && decide (s.wayOf (acc.addr / 128) = none) &&
      decide ((∀ e ∈ s.lnt.evb, e.line ≠ acc.addr / 128))) &&
    (let s : State := st.setReg lntStatus 0; let acc : BufAcc := { addr := s.bufLimit, len := 128 }; decide (acc.data = none) &&
      decide (acc.got = []) && decide (acc.status = 0) && decide (0 < acc.len) && decide (acc.addr % 128 + acc.len ≤ 128) &&
      decide (s.bufLimit ≤ acc.addr) && decide (acc.addr < spadBase) && decide (s.rbit lntStatus 0 = false)) &&
    (let s : State := { st with lnt := { evb := [{ line := 3, data := [] }, { line := 5, data := [] }] } }; let line := 5;
      let e := ((s.lnt.evb.find? fun e => e.line == 5)).getD { line := 0, data := [] };
      decide ((s.lnt.evb.find? fun e => e.line == line) = some e) && decide (s.lnt.waiting = [])) &&
    (let s : State := st.setReg lntStatus 1; decide (s.rbit lntStatus 0 = true) && decide (s.lnt.waiting = [])) &&
    (let s : State := st.setReg lntStatus 0; let n : Fin 16 := 12; decide (n.val ≤ 12) && decide (n.val ≠ s.spadWays) &&
      decide (s.rbit lntStatus 0 = false) && decide (s.rbit lntStatus 1 = false) && decide (s.rbit lntStatus 8 = false)) &&
    (let s : State := st; let n : Fin 16 := 13; decide (12 < n.val) && decide (n.val ≠ s.spadWays)) &&
    (let s : State := { st with lnt := { changing := true } }; decide (s.lnt.changing = true) && decide (s.lnt.waiting = [])) &&
    (let s : State := (st.setReg lntStatus 0).setReg lntCtrl 1; decide (s.rbit lntCtrl 0 = true) && decide (s.rbit lntStatus 8 = false) &&
      decide (s.rbit lntStatus 0 = false) && decide (s.rbit lntStatus 1 = false)) &&
    (let s : State := { st with lnt := { disabling := true } }; decide (s.lnt.disabling = true)) &&
    (let s : State := (st.setReg lntStatus 0).setReg lntCtrl 0; decide (s.rbit lntCtrl 0 = false) &&
      decide (s.rbit lntStatus 0 = false) && decide (s.rbit lntStatus 1 = false)) &&
    (let s : State := st; let op : Fin 4 := 1; decide (op ≠ 0) && decide (s.lnt.rm = none)) &&
    (let s : State := { st with lnt := { rm := some { op := 1, start := 5, len := 6, all := false } } };
      let r := s.lnt.rm.getD { op := 1, start := 5, len := 6, all := false }; decide (s.lnt.rm = some r) && decide (s.lnt.rmq = none) &&
      decide (s.lnt.disabling = false) && decide (s.lnt.waiting = [])) := by decide +kernel

/-- Every clause of Obligations.MemoryCommandsComplete that has hypotheses: a state and operands that meet them. -/
theorem test_hypotheses_memoryCommandsComplete :
    (let s : State := st; let g : Fin 32 := 31; let e : Fin 8 := 7; let v : W := 1; decide (s.rbit (bufRemap g e) 1 = false) &&
      decide ((bitAt v 0 = false ∨ (((upto 8).all fun x => x == e.val || !s.bufNames g x (fld v 4 14)) = true ∧ s.bufNames g e (fld v 4 14) = false)))) &&
    (let s : State := st; let c : Fin 4 := 3; let e : Fin 16 := 15; let v : W := 1; decide (s.rbit (memRemap c e) 1 = false) &&
      decide ((bitAt v 0 = false ∨ ((upto 16).all fun x => x == e.val || !s.memNames c x (fld v 4 24)) = true))) &&
    (let s : State := st.setReg (bufRemap 31 7) 3; let g : Fin 32 := 31; let e : Fin 16 := 7; decide (e.val < 8) &&
      decide (s.rbit (bufRemap g e) 1 = true) && decide (s.lnt.waiting = [])) &&
    (let s : State := st.setReg (memRemap 3 15) 3; let c : Fin 32 := 3; let e : Fin 16 := 15; decide (c.val < 4) &&
      decide (s.rbit (memRemap c e) 1 = true) && decide (s.lnt.waiting = [])) &&
    (let s : State := (st.setReg memStatus 1).setReg (regAddr bMEM 0x14) 1; decide (s.rfld (regAddr bMEM 0x14) 0 16 ≠ 0) &&
      decide (s.rbit memStatus 0 = true) && decide (s.rbit memStatus 2 = false) && decide (s.mem.patrol + 1 < s.bufLimit / 64)) &&
    (let s : State := st.setReg memStatus 0; decide (s.rbit memStatus 0 = false)) &&
    (let s : State := st.setReg memStatus 1; decide (s.rbit memStatus 0 = true)) &&
    (let s : State := st.setReg memStatus 2; decide (s.rbit memStatus 1 = true) && decide (s.lnt.waiting = [])) &&
    (let s : State := st.setReg memStatus 2; let c : BitVec 4 := 14; decide (c ≠ 15) && decide (s.rbit memStatus 1 = true)) &&
    (let s : State := st; decide (s.buf.par = none)) &&
    (let s : State := { st with buf := { par := some { tag := 5, rebuild := false, two := true, slots := [1,2] }, parq := List.replicate 31 { tag := 5, rebuild := false, two := true, slots := [1,2] } } };
      let req : ParReq := { tag := 6, rebuild := false, two := true, slots := [1,2] };
      let cur := s.buf.par.getD { tag := 5, rebuild := false, two := true, slots := [1,2] }; decide (s.buf.par = some cur) &&
      decide (s.buf.parq.length < 32) && decide (req.rebuild = false)) &&
    (let s : State := { ((st.setReg lntStatus 0x100).setReg memStatus 1) with buf := { par := some { tag := 5, rebuild := false, two := true, slots := [1,2] } } };
      let r := s.buf.par.getD { tag := 5, rebuild := false, two := true, slots := [1,2] }; decide (s.buf.par = some r) &&
      decide (s.parWaits r = false) && decide (r.rebuild = false)) := by decide +kernel

/-- Every clause of Obligations.CellPoolCommandsComplete that has hypotheses: a state and operands that meet them. -/
theorem test_hypotheses_cellPoolCommandsComplete :
    (let s : State := qok up 1023; let q : Fin 1024 := 1023; let body := [1,2,3]; decide (¬ (q.val < 32 ∧ s.onChain q = true)) &&
      decide (s.qEnabled q = true) && decide (s.poolUp = true) && decide ((s.cq q).waitPkts = []) &&
      decide (s.qRoom q body.length = true) && decide ((s.reg (cplCtr 0).addr).toNat + 1 < 2 ^ 32 - 1)) &&
    (let s : State := st; let q : Fin 1024 := 1023; decide (32 ≤ q.val) && decide (s.qEnabled q = false)) &&
    (let s : State := up.setCq 1023 { pkts := [pq, pq] }; let q : Fin 1024 := 1023; let p := hd s 1023; let ps := (s.cq 1023).pkts.tail;
      decide (s.heads q = p :: ps) && noWait s) &&
    (let s : State := up.setCq 1023 { pkts := [pq, pq] }; let a : Fin 1024 := 1023; let b : Fin 1024 := 0; let p := hd s 1023;
      let ps := (s.cq 1023).pkts.tail; decide (s.heads a = p :: ps) && decide (a ≠ b) && noWait s) &&
    (let s : State := qok up 1023; let q : Fin 1024 := 1023; let n := 100; decide (s.rsvOutcome q n = .granted)) &&
    (let s : State := (qok up 1023).setCq 1023 { waitResv := [5,6] }; let q : Fin 1024 := 1023;
      let n := (s.cq 1023).waitResv.head?.getD 0; let ns := (s.cq 1023).waitResv.tail; decide ((s.cq q).waitResv = n :: ns) &&
      decide (s.poolUp = true) && decide (s.qFits q n = true)) &&
    (let s : State := st; let q : Fin 1024 := 1023; let v := 0x00010001#32 &&& (0#32); decide (s.shareOk q v = true) && noWait s) &&
    (let s : State := st; let q : Fin 1024 := 1023; let v := 0x00010002; decide (s.shareOk q v = false)) &&
    (let s : State := st.setCq 1023 { pkts := [pq], resv := 5 }; let q : Fin 1024 := 1023; decide (s.qEnabled q = false) && noWait s) &&
    (let s : State := qok up 1023; let q : Fin 1024 := 1023; decide (s.qEnabled q = true)) &&
    (let s : State := st.setReg cplStatus 1; decide (s.poolInit = true) && noWait s) &&
    (let s : State := st.setReg cplStatus 2; let q : Fin 32 := 31; let body := List.replicate 1024 1; decide (s.onChain q = true) &&
      decide (partsOf body.length ≤ 16) && decide ((s.cq q).stages + partsOf body.length ≤ 16) && decide ((s.cq q).waitPkts = []) &&
      decide ((s.reg (cplCtr 3).addr).toNat + 1 < 2 ^ 32 - 1)) &&
    (let s : State := (up.setCq 31 { chain := [pq,pq] }); let q : Fin 32 := 31; let p := ((s.cq 31).chain.head?).getD pq;
      let ps := (s.cq 31).chain.tail; decide (6 ≤ q.val) && decide ((s.cq q).pkts = []) && decide ((s.cq q).lost = 0) &&
      decide ((s.cq q).chain = p :: ps) && noWait s) &&
    (let s : State := (up.setCq 6 { lost := 5 }); let q : Fin 32 := 6; decide (6 ≤ q.val) && decide ((s.cq q).pkts = []) &&
      decide ((s.cq q).lost ≠ 0)) := by decide +kernel

/-- Every clause of Obligations.StepRunsFrontCommand that has hypotheses: a state and operands that meet them. -/
theorem test_hypotheses_stepRunsFrontCommand :
    (let s : State := { st with pending := [.mainRailLoss, .idesExpiry] }; let c : Instr := .mainRailLoss;
      let cs : List Instr := [.idesExpiry]; decide (s.pending = c :: cs)) &&
    (let s : State := st; decide (s.pending = [])) := by decide +kernel

/-- Every clause of Obligations.ClearFaultRule that has hypotheses: a state and operands that meet them. -/
theorem test_hypotheses_clearFaultRule :
    (let s : State := (st.setReg motStatus 0x27).setReg motRpmReg 49; decide (s.rpm < s.stopRpm)) &&
    (let s : State := (st.setReg motStatus 0x27).setReg motRpmReg 60; decide (s.stopRpm ≤ s.rpm)) := by decide +kernel

/-- Every clause of Obligations.RunRule that has hypotheses: a state and operands that meet them. -/
theorem test_hypotheses_runRule :
    (let s : State := st; let n : Fin 4 := 3; let run := true; decide ((run = true ∨ (s.ordP n).phase ≠ .admitting))) &&
    (let s : State := st.setOrd 3 { queue := [mops, mops] }; let n : Fin 4 := 3; decide (s.rbit (ordCtrl n) 0 = false)) &&
    (let s : State := mw (mword 0 0 0 0 0); let n : Fin 4 := 3; let find := .clean; decide (s.rbit (ordCtrl n) 0 = false) &&
      decide ((s.ordP n).phase = .running) && decide ((s.ordP n).overrun = false) &&
      decide (s.sramFind (22 + n) ((s.ordP n).pc / 2) find = .clean) && decide (uop ((s.ordP n).word (s.ordP n).pc) = 0)) &&
    (let s : State := (st.setReg (ordCtrl 3) 1).setOrd 3 { queue := [mops, mops], store := [(4, 0x00010064)] }; let n : Fin 4 := 3;
      let find := .clean; let m := (s.ordP 3).queue.head?.getD mops; let ms := (s.ordP 3).queue.tail;
      decide (s.rbit (ordCtrl n) 0 = true) && decide ((s.ordP n).mop = none) && decide ((s.ordP n).queue = m :: ms) &&
      decide (m.refused = 0) && decide (s.actSt n ≠ 6) && decide (s.disPending n = false) &&
      decide (s.sramFind (22 + n) (m.opcode / 2) find = .clean) && decide (m.replayCells = 0) &&
      decide (fld ((s.ordP n).word m.opcode) 14 2 = 0) && decide (s.rfld actGovUsed 0 16 ≤ s.rfld actGovBudget 0 16)) := by decide +kernel

/-- Every clause of Obligations.PortModeRule that has hypotheses: a state and operands that meet them. -/
theorem test_hypotheses_portModeRule :
    (let s : State := st.setRbit (hifCtrl 3) 0 true; let p : Fin 4 := 3; decide (s.rbit (hifCtrl p) 0 = true)) &&
    (let s : State := (st.setRbit (hifCtrl 3) 0 true).setHif 3 { link := 2 }; let p : Fin 4 := 3; decide (s.rbit (hifCtrl p) 0 = true) &&
      decide ((s.hifP p).link = 2)) &&
    (let s : State := { ((st.setRbit (hifCtrl 3) 0 true).setHif 3 { ctrl := some { kato := 5000 } }) with vgl := { wall := 9000000000 } };
      let p : Fin 4 := 3; let k := ck s; decide (s.rbit (hifCtrl p) 0 = true) && decide ((s.hifP p).ctrl = some k) &&
      decide (k.kaAt + 1000000 * k.kato ≤ s.vgl.wall) && decide (s.level < 4) && decide (s.pwr.kaStop = false)) := by decide +kernel

/-- Every clause of Obligations.OtpProgramRule that has hypotheses: a state and operands that meet them. -/
theorem test_hypotheses_otpProgramRule :
    (let s : State := { st with fls := { shipped := [], otp := [] } }; let h : MgtHdr := { tag := 255 }; let w : Nat := 0;
      decide (h.iana = 0x0001B7C3) && decide (h.version = 1) && decide (h.lengthOk = true) && decide (h.reservedOk = true) &&
      decide (s.rbit mgtLock 4 = false) && decide (w < 1024) && decide (¬ (3 * 128 ≤ w ∧ w < 6 * 128)) &&
      decide (¬ (7 * 128 + 3 ≤ w ∧ w ≤ 7 * 128 + 5))) &&
    (let s : State := { st with fls := { shipped := [], otp := [(400, 7), (899, 0x4C4F434B), (903, 0x4C4F434B)] } };
      let h : MgtHdr := { tag := 255 }; let w : Nat := 400; decide (h.iana = 0x0001B7C3) && decide (h.version = 1) &&
      decide (h.lengthOk = true) && decide (h.reservedOk = true) && decide (s.rbit mgtLock 4 = false) && decide (w < 1024) &&
      decide ((3 * 128 ≤ w ∧ w < 6 * 128)) && decide (s.otpLocked (w / 128) = true)) &&
    (let s : State := { st with fls := { shipped := [], otp := [(400, 7), (899, 0x4C4F434B), (903, 0x4C4F434B)] } };
      let h : MgtHdr := { tag := 255 }; let w : Nat := 900; decide (h.iana = 0x0001B7C3) && decide (h.version = 1) &&
      decide (h.lengthOk = true) && decide (h.reservedOk = true) && decide (s.rbit mgtLock 4 = false) && decide (w < 1024) &&
      decide ((7 * 128 + 3 ≤ w ∧ w ≤ 7 * 128 + 5)) && decide (s.otpLocked 7 = true)) &&
    (let s : State := { st with fls := { shipped := [], otp := [] } }; let h : MgtHdr := { tag := 255 }; let w : Nat := 900;
      decide (h.iana = 0x0001B7C3) && decide (h.version = 1) && decide (h.lengthOk = true) && decide (h.reservedOk = true) &&
      decide (s.rbit mgtLock 4 = false) && decide (w < 1024) &&
      decide (((3 * 128 ≤ w ∧ w < 6 * 128) ∧ s.otpLocked (w / 128) = false) ∨ ((7 * 128 + 3 ≤ w ∧ w ≤ 7 * 128 + 5) ∧ s.otpLocked 7 = false))) := by decide +kernel

end Sys2Proof.Tests
end

section
/-!
PROOFS. The spindle motor's CLR_FAULT (R262): what the writes of MOT_STATUS keep of its other fields, what a clear and a refusal leave,
and the rule from both.
-/
namespace Sys2Proof.Machine

/-! ## Parts -/

/-- Two states agree in every part but `ps` when every scope outside a set that `ps` covers is carried from one to the other. -/
theorem sameBut_of_frame {s t : State} {m : Nat} {ps : List Part} (h : ∀ P : Scope, P.outside m → Fr P s t)
    (hm : coversParts m ps = true) : SameBut ps s t := by
  intro p hp
  have hclear : p.clear m = true := by simpa [hp] using List.all_eq_true.mp hm p p.mem_list
  exact (h (.part p) (Part.outside_of_clear hclear)).1

/-! ## MOT_STATUS -/

/-- Writing CHOP_FAULT leaves STATE. -/
@[simp] theorem State.motSt_setRbit_chopFault (s : State) (b : Bool) : (s.setRbit motStatus 5 b).motSt = s.motSt := by
  simp [State.motSt, State.rfld, fld_putBit]

/-- AT_SPEED's rise raises an interrupt in MOT_INT; in MOT_STATUS the one bit changes (R252). -/
theorem State.reg_motStatus_setAtSpeed (s : State) (b : Bool) :
    (s.setAtSpeed b).reg motStatus = putBit (s.reg motStatus) 3 b := by
  have hraise (u : State) : (u.raise motInt 0).reg motStatus = u.reg motStatus :=
    (State.reg_raise ..).trans (if_neg (by decide))
  exact (reg_onlyIf _ _ _ _ hraise).trans (by simp)

/-- Entering a state writes STATE and clears AT_SPEED in MOT_STATUS. -/
theorem State.reg_motStatus_motEnter (s : State) (st gates : Nat) :
    (s.motEnter st gates).reg motStatus = putBit (setFld (s.reg motStatus) 0 3 st) 3 false :=
  (State.reg_motStatus_setAtSpeed (s.setMotSt st) false).trans (by simp [State.setMotSt])

theorem State.motSt_motEnter (s : State) (st gates : Nat) : (s.motEnter st gates).motSt = st % 8 := by
  simp [State.motSt, State.rfld, State.reg_motStatus_motEnter, fld_putBit, fld_setFld_same]

theorem State.chopFault_motEnter (s : State) (st gates : Nat) :
    (s.motEnter st gates).rbit motStatus 5 = s.rbit motStatus 5 := by
  simp [State.rbit, State.reg_motStatus_motEnter, bitAt_putBit, bitAt_setFld]

/-! ## A clear -/

theorem State.motClear_of_fault {s : State} (h : s.motSt = 7) : s.motClear = (s.setRbit motStatus 5 false).motEnter 0 0 := by
  simp [State.motClear, h]

theorem State.motClear_of_not_fault {s : State} (h : s.motSt ≠ 7) : s.motClear = s.setRbit motStatus 5 false := by
  simp [State.motClear, h]

/-- Clearing leads from Fault to Stopped and keeps every other state. -/
theorem State.motSt_motClear (s : State) : s.motClear.motSt = if s.motSt = 7 then 0 else s.motSt := by
  split
  next h => rw [State.motClear_of_fault h, State.motSt_motEnter]
  next h => rw [State.motClear_of_not_fault h, State.motSt_setRbit_chopFault]

theorem State.chopFault_motClear (s : State) : s.motClear.rbit motStatus 5 = false := by
  by_cases h : s.motSt = 7
  · simp [State.motClear_of_fault h, State.chopFault_motEnter]
  · simp [State.motClear_of_not_fault h]

theorem State.motClear_sameBut (s : State) : SameBut [.regs, .mot] s s.motClear :=
  sameBut_of_frame (m := 0x10000000000000200) (fun _ hp => State.motClear_frame (Fr.refl s) hp) (by decide)

/-! ## A refusal -/

/-- A refusal writes its code into MOT_STATUS and nothing else there. -/
theorem State.reg_motStatus_motRefuse (s : State) : s.motRefuse.reg motStatus = setFld (s.reg motStatus) 16 16 0x1A4 := by
  have hne : motStatus ≠ motInt := by decide
  simp [State.motRefuse, State.motCode, hne]

theorem State.motSt_motRefuse (s : State) : s.motRefuse.motSt = s.motSt := by
  simp [State.motSt, State.rfld, State.reg_motStatus_motRefuse, fld_setFld_other]

theorem State.chopFault_motRefuse (s : State) : s.motRefuse.rbit motStatus 5 = s.rbit motStatus 5 := by
  simp [State.rbit, State.reg_motStatus_motRefuse, bitAt_setFld]

theorem State.refused_motRefuse (s : State) : s.motRefuse.rbit motInt 6 = true := by
  have hne : motInt ≠ motStatus := by decide
  simp [State.rbit, State.motRefuse, State.motCode, hne, bitAt_putBit]

/-- A refusal writes MOT_INT and MOT_STATUS and nothing else. -/
theorem State.motRefuse_only (s : State) : Only [] [motInt, motStatus] s s.motRefuse := by
  constructor
  · intro a ha
    obtain ⟨hint, hstatus⟩ : a ≠ motInt ∧ a ≠ motStatus := by simpa using ha
    simp [State.motRefuse, State.motCode, hint, hstatus]
  · exact sameBut_of_frame (m := 0x10000000000000000) (fun _ hp => State.motRefuse_frame (Fr.refl s) hp) (by decide)

/-! ## CLR_FAULT -/

theorem exec_motClrFault_below {s : State} (h : s.rpm < s.stopRpm) : exec .motClrFault s = .next s.motClear :=
  congrArg Host.Outcome.next (if_pos h)

theorem exec_motClrFault_refused {s : State} (h : s.stopRpm ≤ s.rpm) : exec .motClrFault s = .next s.motRefuse :=
  congrArg Host.Outcome.next (if_neg (Nat.not_lt.mpr h))

/-- Settles O8: below STOP_RPM the command is a clear, from STOP_RPM on a refusal (R262). -/
theorem clearFaultRule : Obligations.ClearFaultRule := by
  intro s
  constructor
  · intro hbelow
    have hst := s.motSt_motClear
    refine ⟨_, exec_motClrFault_below hbelow, s.chopFault_motClear, ?_, ?_, s.motClear_sameBut⟩
    · rw [hst]
      split
      next => decide
      next hnot => exact hnot
    · exact fun hnot => hst.trans (if_neg hnot)
  · intro habove
    exact ⟨_, exec_motClrFault_refused habove, s.refused_motRefuse, s.chopFault_motRefuse, s.motSt_motRefuse, s.motRefuse_only⟩

end Sys2Proof.Machine
end

section
/-!
PROOFS. The host port with PORT_EN 1 (R373, R381): a write of HIF_MODE or HIF_LANE is refused, a link that drops trains again, and a Keep
Alive Timer that expires ends the association. The last is the long one: ending the port's commands (R409) reaches reservations, streams,
completions and logs, and none of them brings the association back.
-/
namespace Sys2Proof.Machine

/-! ## Ports -/

/-- A port reads as it was put; putting one leaves the others. -/
@[simp] theorem State.hifP_setHif (s : State) (p q : Nat) (x : HifPort) :
    (s.setHif q x).hifP p = if p = q then x else s.hifP p := by
  unfold State.hifP State.setHif
  split
  next heq => rw [heq, tget_tset_same]
  next hne => exact tget_tset_other _ _ _ _ _ hne

/-- A port reads as it did where the ports are the same. -/
theorem State.hifP_congr {s t : State} (h : t.hif = s.hif) (p : Nat) : t.hifP p = s.hifP p := congrArg (tget _ · p) h

/-! ## A write of HIF_MODE or HIF_LANE -/

theorem exec_hifModeWrite_of_enabled {p : Fin 4} {s : State} (h : s.rbit (hifCtrl p) 0 = true) (lane : Bool) (v : W) :
    exec (.hifModeWrite p lane v) s = .next (s.raise (hifInt p) 3) := congrArg Host.Outcome.next (if_pos h)

/-- Raising an interrupt writes its register and nothing else. -/
theorem State.raise_only (s : State) (a i : Nat) : Only [] [a] s (s.raise a i) := by
  constructor
  · intro b hb
    have hne : b ≠ a := by simpa using hb
    simp [hne]
  · exact sameBut_of_frame (m := 0x1) (fun _ hp => State.raise_frame_any a i hp (Fr.refl s)) (by decide)

/-- The registers of a port other than HIF_INT are not among those that a refusal writes. -/
theorem regAddr_bHIF_notMem_hifInt {p o : Nat} (ho : o % 0x10000 ≠ 0x8) : regAddr (bHIF p) o ∉ [hifInt p] := by
  simp only [List.mem_singleton, hifInt, regAddr]
  omega

/-! ## A drop of the link -/

/-- A drop changes the port's link and nothing else of the port. -/
theorem State.hifP_hifDrop (s : State) (p link : Nat) : (s.hifDrop p link).hifP p = { s.hifP p with link := link } := by
  have hport : ((s.setHif p { s.hifP p with link := link }).setRfld (hifStatus p) 0 6 0).hifP p = { s.hifP p with link := link } :=
    (State.hifP_congr (State.setRfld_hif ..) p).trans ((State.hifP_setHif ..).trans (if_pos rfl))
  unfold State.hifDrop State.onlyIf
  dsimp only
  split
  · exact (State.hifP_congr (State.raise_hif ..) p).trans hport
  · exact hport

theorem State.hifDrop_sameBut (s : State) (p link : Nat) : SameBut [.regs, .hif] s (s.hifDrop p link) :=
  sameBut_of_frame (m := 0x78000008000) (fun _ hp => State.hifDrop_frame p link (Fr.refl s) hp) (by decide)

theorem exec_hifLinkDown_of_up {p : Fin 4} {s : State} (h : (s.hifP p).link = 2) :
    exec (.hifLinkDown p) s = .next (s.hifDrop p 1) := congrArg Host.Outcome.next (if_pos h)

/-! ## A port without an association -/

/-- No association stands on the port. -/
def State.NoAssoc (s : State) (p : Nat) : Prop := (s.hifP p).ctrl = none

section
variable {p : Nat} {s : State}

/-- What leaves the ports alone brings no association back. -/
theorem State.NoAssoc.of_frame {t : State} (h : s.NoAssoc p) (ht : Fr (.part .hif) s t) : t.NoAssoc p :=
  (congrArg HifPort.ctrl (State.hifP_congr ht.1 p)).trans h

/-- A port that is put back without an association, if it had none, brings none back. -/
theorem State.NoAssoc.setHif (h : s.NoAssoc p) (q : Nat) (x : HifPort) (hx : (s.hifP q).ctrl = none → x.ctrl = none) :
    (s.setHif q x).NoAssoc p := by
  unfold State.NoAssoc
  rw [State.hifP_setHif]
  split
  next heq => exact hx (heq ▸ h)
  next => exact h

theorem State.NoAssoc.ite {a b : State} (c : Prop) [Decidable c] (ha : a.NoAssoc p) (hb : b.NoAssoc p) : (if c then a else b).NoAssoc p := by
  split
  · exact ha
  · exact hb

theorem State.NoAssoc.onlyIf (h : s.NoAssoc p) (c : Bool) {f : State → State} (hf : (f s).NoAssoc p) : (s.onlyIf c f).NoAssoc p :=
  State.NoAssoc.ite _ hf h

theorem State.NoAssoc.each {α : Type} {f : State → α → State} (hf : ∀ {s : State} x, s.NoAssoc p → (f s x).NoAssoc p) (l : List α) :
    ∀ {s : State}, s.NoAssoc p → (s.each l f).NoAssoc p := by
  induction l with
  | nil => exact id
  | cons x xs ih => exact fun h => ih (hf x h)

/-! ### Contexts and completions -/

/-- A port that has drained says so in QMG_INT, and no more. -/
theorem State.NoAssoc.drained (h : s.NoAssoc p) (q : Nat) :
    ((s.setHif q { s.hifP q with draining := false }).raise qmgInt 2).NoAssoc p :=
  State.NoAssoc.of_frame (h.setHif q { s.hifP q with draining := false } id) (State.raise_frame_any _ _ rfl (Fr.refl _))

/-- A context that goes Free ends the port's drain; a drain of a controller reset resets an association that stands (R407). -/
theorem State.NoAssoc.freeCtx (h : s.NoAssoc p) (c : Nat) : (s.freeCtx c).NoAssoc p := by
  unfold State.freeCtx
  split
  · exact h
  · have hfree : ((s.setCtx c none).idleRose s.qmgIdle).NoAssoc p :=
      h.of_frame (State.idleRose_frame _ (State.setCtx_frame _ _ (Fr.refl s) rfl) rfl)
    exact State.NoAssoc.ite _ (State.NoAssoc.ite _ (hfree.setHif _ _ fun hnone => by simp [hnone]) (hfree.drained _)) hfree

/-- An Error Information entry goes to an association that stands, and to none otherwise. -/
theorem State.NoAssoc.logError (h : s.NoAssoc p) (q : Nat) (x : Ctx) (e : Cpl) : (s.logError q x e).NoAssoc p := by
  unfold State.logError
  split
  next k hk => exact h.setHif _ _ fun hnone => absurd (hk.symm.trans hnone) (by simp)
  next => exact h

theorem State.NoAssoc.count (h : s.NoAssoc p) (c : Ctr) : (s.count c).NoAssoc p :=
  h.of_frame (State.count_frame_any c rfl (Fr.refl s))

theorem State.NoAssoc.commitCtx (h : s.NoAssoc p) (c : Nat) (e : Cpl) : (s.commitCtx c e).NoAssoc p := by
  unfold State.commitCtx
  split
  · exact h
  next x _ =>
    have hlog (bad : Bool) (e : Cpl) :
        ((s.count (qmgCtr 0)).onlyIf bad fun s => (s.count (qmgCtr 1)).logError x.port x e).NoAssoc p :=
      (h.count _).onlyIf _ (((h.count _).count _).logError _ _ _)
    exact State.NoAssoc.ite _ h (State.NoAssoc.ite _ (((hlog _ _).count _).freeCtx c)
      ((hlog _ _).of_frame (State.put_frame _ _ (State.setCtx_frame _ _ (Fr.refl _) rfl) rfl)))

theorem State.NoAssoc.endCtx (h : s.NoAssoc p) (c : Nat) (e : Cpl) : (s.endCtx c e).NoAssoc p :=
  State.NoAssoc.commitCtx (h.of_frame (State.releaseCtx_frame c false (Fr.refl s) rfl)) c e

theorem State.NoAssoc.fwComplete (h : s.NoAssoc p) (c : Nat) (e : Cpl) : (s.fwComplete c e).NoAssoc p :=
  h.of_frame (State.fwComplete_frame c e (Fr.refl s) rfl)

theorem State.NoAssoc.settle (h : s.NoAssoc p) : s.settle.NoAssoc p := h.of_frame (State.settle_frame (Fr.refl s) rfl)

/-! ### Streams -/

/-- Writers of a stopped stream are placed again, and one that no longer fits ends (R320). -/
theorem State.NoAssoc.replace (g : Group) (z : Nat) (l : List (Nat × Ctx)) : ∀ {s : State}, s.NoAssoc p → (s.replace g z l).NoAssoc p := by
  induction l with
  | nil => exact id
  | cons e es ih =>
    intro s h
    unfold State.replace
    split
    · refine State.NoAssoc.ite _ (ih h) (State.NoAssoc.ite _ (ih (State.NoAssoc.ite _ ?_ ?_)) (ih (State.NoAssoc.ite _ ?_ (h.endCtx _ _))))
      · exact h.of_frame (State.writeKeys_frame _ _ _ _ _ (State.modZone_frame _ _ (Fr.refl s) rfl) rfl)
      · exact h.of_frame (State.setCtx_frame _ _ (State.modZone_frame _ _ (Fr.refl s) rfl) rfl)
      · exact h.of_frame (State.ctxEnd_frame _ _ (Fr.refl s) rfl)
    · exact ih h

theorem State.NoAssoc.streamResume (h : s.NoAssoc p) (z : Nat) : (s.streamResume z).NoAssoc p := by
  unfold State.streamResume
  split
  · exact h
  · refine State.NoAssoc.ite _ h (State.NoAssoc.replace _ _ _ (State.NoAssoc.settle ?_))
    exact h.of_frame (State.modZone_frame _ _ (State.dropAbove_frame _ _ _ (Fr.refl s) rfl) rfl)

theorem State.NoAssoc.streamStop (h : s.NoAssoc p) (z off : Nat) : (s.streamStop z off).NoAssoc p := by
  unfold State.streamStop
  split
  · exact h
  · refine State.NoAssoc.streamResume (h.of_frame ?_) z
    refine State.stageRest_frame _ _ (State.placeBand_frame (P := .part .hif) rfl _ _ _ ?_) rfl
    refine State.returnQueued_frame _ _ (State.returnAdmitting_frame _ _ ?_ rfl) rfl
    exact State.modZone_frame _ _ (State.modFw_frame _ (State.modZone_frame _ _ (Fr.refl s) rfl) rfl) rfl

/-! ### Ending a port's commands -/

theorem State.NoAssoc.endWaiting (h : s.NoAssoc p) (c code : Nat) : (s.endWaiting c code).NoAssoc p := by
  unfold State.endWaiting
  split
  · exact h
  · dsimp only
    split
    · exact (h.endCtx _ _).streamStop _ _
    · exact h.endCtx _ _

theorem State.NoAssoc.endRunning (h : s.NoAssoc p) (c : Nat) : (s.endRunning c).NoAssoc p := by
  unfold State.endRunning
  split
  · exact h
  · have hdet : (s.detachFinish c).NoAssoc p := h.of_frame (State.detachFinish_frame c (Fr.refl s) rfl)
    refine State.NoAssoc.ite _ h (State.NoAssoc.ite _ ?_ ?_)
    · dsimp only
      split
      · exact (hdet.fwComplete _ _).streamStop _ _
      · exact hdet.fwComplete _ _
    · split
      · exact (hdet.streamStop _ _).settle
      · refine State.NoAssoc.settle (hdet.onlyIf _ ?_)
        exact hdet.of_frame (State.unstage_frame _ (Fr.refl _) rfl)

/-- An association that has ended stays ended: nothing that follows for the port's contexts brings one back (R381, R409). -/
theorem State.noAssoc_assocEnd (s : State) (p : Nat) : (s.assocEnd p).NoAssoc p := by
  have hstart (x : HifPort) (hx : x.ctrl = none) : (((s.setHif p x).setRbit (hifStatus p) 6 false).dropCpls p).NoAssoc p := by
    have hput : (s.setHif p x).NoAssoc p := by simp [State.NoAssoc, hx]
    exact hput.of_frame (State.dropCpls_frame _ (State.setRbit_frame_any _ _ _ rfl (Fr.refl _)) rfl)
  have hdrain {u : State} (c : Bool) (hu : u.NoAssoc p) :
      (if c then (u.setHif p { u.hifP p with draining := false }).raise qmgInt 2 else u).NoAssoc p :=
    State.NoAssoc.ite _ (hu.drained p) hu
  unfold State.assocEnd
  refine State.NoAssoc.of_frame ?_ (State.pwrRecompute_frame (Fr.refl _) rfl)
  refine hdrain _ ?_
  refine State.NoAssoc.each (fun e hu => ?ctx) _ (hstart _ ?gone)
  case ctx =>
    have hmark := fun y => State.NoAssoc.of_frame hu (State.setCtx_frame e.1 y (Fr.refl _) rfl)
    exact State.NoAssoc.ite _ ((hu.count _).freeCtx _) (State.NoAssoc.ite _ ((hmark _).endWaiting _ _) ((hmark _).endRunning _))
  case gone => rfl

end

/-- With nothing left of its timeout and the timers running, the association ends (R381, R450). -/
theorem exec_keepAliveExpiry_of_due {p : Fin 4} {s : State} {k : Ctrl} (hk : (s.hifP p).ctrl = some k)
    (hdue : k.kaAt + 1000000 * k.kato ≤ s.vgl.wall) (hlevel : s.level < 4) (hrun : s.pwr.kaStop = false) :
    exec (.keepAliveExpiry p) s = .next (s.assocEnd p) := by
  have hgo : ¬ (s.vgl.wall < k.kaAt + 1000000 * k.kato ∨ 4 ≤ s.level ∨ s.pwr.kaStop = true) := by simp [hrun, hdue, hlevel]
  change execKeepAliveExpiry p s = _
  simp only [execKeepAliveExpiry, hk, if_neg hgo]

/-! ## R373 -/

/-- Settles O10: the write is an interrupt and no more, the drop of the link touches the link alone, and the expiry ends the association for
good (R373, R381). -/
theorem portModeRule : Obligations.PortModeRule := by
  intro p s hen
  refine ⟨fun lane v => ?_, fun hup => ?_, fun k hk hdue hlevel hrun => ?_⟩
  · obtain ⟨hregs, hparts⟩ := s.raise_only (hifInt p) 3
    exact ⟨_, exec_hifModeWrite_of_enabled hen lane v, s.rbit_raise_same _ _ (by decide), hregs _ (regAddr_bHIF_notMem_hifInt (by decide)),
      hregs _ (regAddr_bHIF_notMem_hifInt (by decide)), hregs, hparts⟩
  · have hport := s.hifP_hifDrop p 1
    exact ⟨_, exec_hifLinkDown_of_up hup, hport ▸ rfl, hport ▸ rfl, hport ▸ rfl, s.hifDrop_sameBut p 1⟩
  · exact ⟨_, exec_keepAliveExpiry_of_due hk hdue hlevel hrun, s.noAssoc_assocEnd p⟩

end Sys2Proof.Machine
end

section
/-!
PROOFS. What a command may touch, for every command at once (O3 to O6, O37 to O45). `scopesOf` gives for each command the set of the parts
of the state and of the register windows that its meaning may touch; `exec_frame` says that the command answers a next state and carries
every scope outside its set, and that is all that the frames, the invariant and the queue need to know of the commands.
-/
namespace Sys2Proof.Machine

set_option Elab.async false

/-! ## The scopes of a command -/

/-- The scopes that a command may touch: bit `i` for part `i` of the state, bit 0 for any register, bit 31 + b for the registers of
block b's window. -/
def scopesOf : Instr → Nat
  | .registerWrite .. | .bootStep .. | .partitionLoad .. | .powerExitStep .. | .calEntryApply .. | .regWrite .. | .regModify ..
  | .dbgAccess .. => 0x7fffffffffffbfffffff
  | .vigilPowerOnReset | .epochLoad .. | .vigilSupplyMonitorFall => 0x80080000
  | .powerOnReset .. | .pinReset .. => 0x7fffffffffffaffffffd
  | .mainRailLoss => 0x100000
  | .vigilSupplySwitch .. | .vbatMeasure .. => 0x80000000
  | .ctrlRst .. => 0x403e00011f878077c5a0
  | .controlResetHalted => 0x7fffffffffff8ff7fff5
  | .warmRst .. | .idesExpiry => 0x7fffffffffff9ffffffd
  | .resetRetractDone => 0x7fffffffffff8ffffffd
  | .cpuRst .. => 0x40000000000200600000
  | .blockReset .. => 0x7fffffffffff9ff7fff5
  | .testLogicReset | .extest | .samplePreload .. | .idcode | .extestPulse | .extestTrain | .highz | .clamp | .scan | .bypass
    => 0x1000000
  | .idesKick .. => 0x200000
  | .idesEnable .. => 0x200200000
  | .idesWarn .. => 0x1000200204000
  | .bootOk .. => 0x7fffffffffff80006001
  | .pllUnlock .. => 0x200000000
  | .flsProgram .. | .flsErase .. | .flsResume .. | .flsMarginRead .. | .flsOtpProgram .. | .flsInitDone .. => 0x1000400404000
  | .flsProgramDone .. => 0x1000e34604000
  | .flsEraseDone .. => 0x1000630604000
  | .flsSuspend | .flsSuspendDeferred | .flashRead .. => 0x1000430404000
  | .secGenerate .. => 0x2000020800000
  | .secUnwrap .. => 0x3000000804000
  | .secClear .. | .secCmdDone => 0x2000000800000
  | .ulkPortEn .. | .trainingAttemptTimeout .. | .rateSwitchLockCheck .. | .ulkRetrain .. | .flitReceived .. | .linkNak ..
  | .nakTimeout .. | .servoFieldHandoff .. => 0x3efff92031120065f4
  | .trainingStepDone .. => 0x3efff92031320065f4
  | .timeEchoReply .. => 0x78000010000000
  | .rateReq .. | .wakeReq .. => 0x78000010000004
  | .rateSwitchInstant .. => 0x78000000000000
  | .laneRetrainDone .. | .sleepAck .. | .headmapApply .. => 0x78000000000004
  | .sleepReq .. | .linkAck .. | .headReply .. => 0x10000004
  | .sleepAckTimeout .. => 0x79000010004004
  | .wakePatternRx .. => 0x79000180184004
  | .sample .. | .sampleMark .. => 0x781000000004414
  | .servoField .. => 0x79000000004004
  | .telemetry .. => 0x3e7ff92030120065f4
  | .gateSend .. | .writeGateData .. | .inhibitCause .. | .wpaInhibitSet .. | .wpaCtrlWrite .. | .inhibitWaitTimeout .. | .nop ..
  | .ldi .. | .lui .. | .add .. | .sub .. | .and .. | .or .. | .xor .. | .addi .. | .andi .. | .shli .. | .shri .. | .cmp ..
  | .cmpi .. | .ldd .. | .ldp .. | .lds .. | .br .. | .call .. | .ret .. | .poll .. | .wait .. | .waitReturn .. | .seek ..
  | .gang .. | .strobe .. | .gate .. | .ldband .. | .fin .. | .reservedMicroword .. | .pollOverrun .. => 0x3e7f812010100065f4
  | .armP .. | .disarm .. | .holdOn .. | .holdOff .. | .replay1 .. | .replay2 .. | .replay3 .. | .replay4 .. | .replay5 ..
  | .release .. => 0x781001000004010
  | .unlistedStrobeCode .. => 0x7f81201000006070
  | .chnSoftReset .. | .decodeIterationBoundary .. | .decodeEnd .. => 0x781000000004010
  | .chnSlotCfgWrite .. => 0x780000000000000
  | .chnSettingsApply .. | .decodeStart .. => 0x10
  | .frontEndDone .. | .relaxedSearchStart .. | .replayFrontEndDone .. => 0x781200020004010
  | .replayOperationStart .. => 0x1000000004010
  | .warmP .. | .warmPB .. | .wdisarm .. | .fhDown1 .. | .fhRestore .. => 0x7801201000006060
  | .wpaWedgeBoundary .. => 0x1e7800000000000420
  | .wpaInhibitClear .. => 0x1e7801200000006060
  | .verifyEvent .. => 0x3e7f812018300265f4
  | .rewindGatesEnded .. => 0x1e7801000000004420
  | .verifyStallTimeout .. => 0x1e7801200010006444
  | .loopUpdate .. => 0x3eff812031120065f4
  | .outputLatch .. => 0x8001200000006044
  | .svoCommit .. => 0x40
  | .svoWinWrite .. => 0x8001200000006040
  | .svoCtrlWrite .. | .capStop => 0x8000000000000000
  | .svoMemoryZeroDone => 0x1200000006040
  | .capArm | .capForce => 0x8000000000000040
  | .load .. | .ampcmdGo .. => 0x200000000010000080
  | .loadTimeout .. | .actRetract .. | .actLinkEn .. | .linkTimeout .. => 0x3e7f812031120065f4
  | .actDisable .. | .wedgeTick .. | .syntheticTick .. => 0x3e7f812031120065f6
  | .reenable .. => 0x200000000000000000
  | .retractTimeout .. => 0x3e00010000000045a2
  | .settleTimeout .. => 0x3e0000000000000480
  | .outputFrameSend .. => 0x100000c0
  | .ampStatusFrame .. | .ampRegReply .. => 0x3e00010020120045a2
  | .ampcmdTimeout .. => 0x200000000000000080
  | .govBudgetWrite .. | .ordRun .. | .returnQueued .. => 0x3e00010000000045a0
  | .actHeaddisWrite .. => 0x3e7f812010100065f6
  | .motStartRequest .. | .motStopRequest | .motDisable | .motTargetChange .. | .startTimeout | .startRetry => 0x10001000000004200
  | .motClrFault | .speedLoopUpdate | .observeEnd | .brakePeek | .alignEnd => 0x10000000000000200
  | .pwmPeriod .. => 0x3f7f812031160067f4
  | .pfailInput => 0x217801000014004624
  | .mopSubmit .. => 0x1e0001000000004400
  | .mopAdmission .. => 0x3e00012000000065a0
  | .ordCplPop .. => 0x400
  | .ordCancel .. => 0x1e0000000000000400
  | .ordWinWrite .. => 0x1e0001200000006400
  | .endSequenceDrain .. => 0x3e7f812031120265f6
  | .sectorPacketDispatch .. => 0x1e0001200030004400
  | .read .. | .compare .. | .retrieve .. => 0x1a00020034000
  | .write .. | .writeZeroes .. | .zoneAppend .. => 0x3e0001b8003007c5a0
  | .flush .. | .reportZones .. | .propertyGet .. | .identify .. | .getFeatures .. | .exist .. | .list .. | .reservationReport ..
  | .unsupportedCommand .. => 0x1000000014000
  | .ringCloseTimeout .. | .vRecordTimer | .refreshStepDone .. | .stagingTimeout => 0x20000
  | .zoneOpen .. | .zoneClose .. | .getLogPage .. | .firmwareImageDownload .. | .delete .. | .reservationRegister ..
  | .reservationRelease .. => 0x1000000034000
  | .zoneFinish .. => 0x110000003c000
  | .zoneReset .. | .jubZoneCommit .. => 0x118000007c000
  | .firmwareMopCompletion .. => 0x3e7f8138311607e5f6
  | .bufferAccess .. | .evictionWritebackAck .. | .lntInitDone | .lntSpadDone | .lntRmDone | .remapCopyDone .. | .memTrainingDone ..
    => 0x1e00010007800
  | .lntSpadChange .. | .lntDisable | .lntDisableDone | .lntEnable => 0x1e00000007800
  | .lntRmGo .. => 0x400000000800
  | .bufRemapWrite .. => 0x200080082c40
  | .memRemapWrite .. | .memEccTestArm => 0x800000000000
  | .memScrubPatrol .. => 0x1800000005000
  | .bufEccTestArm => 0x200000000000
  | .memInit => 0x800000001000
  | .parityRequest .. => 0x200000002000
  | .parityDone .. => 0x3e0001f8001007fda0
  | .packetWrite .. | .reservationRequest .. => 0x1000010004000
  | .packetTake .. => 0x1200030024000
  | .packetRelink .. | .cplShareWrite .. | .cplQueueReset .. | .cplPoolReset | .cplInitDone | .chainItemEnter .. => 0x1000000004000
  | .reservationGrant .. => 0x4000
  | .chainItemTake .. | .completionCommit .. | .completionSent .. => 0x110001001c000
  | .hifPortEn .. | .keepAliveExpiry .. => 0x3e00011f818017c5a0
  | .hifRestartAn .. | .anAttemptDone .. | .hifLinkDown .. => 0x78000008000
  | .hifModeWrite .. | .hifQlimitWrite .. => 0x78000000000
  | .hifLattolWrite .. => 0x7fffffffffff80106001
  | .anRetryTimer .. | .tcpConnectionOpen .. | .hostLaneEnergyDetectorArm .. => 0x8000
  | .ethFrameRx .. => 0x107819018c000
  | .connect .. => 0x107818011c000
  | .disconnect .. => 0x100000001c000
  | .propertySet .. | .controllerReset .. | .abort .. | .reservationAcquire .. | .commandAdmission => 0x3e000118000007c5a0
  | .controllerShutdown .. => 0x28000
  | .setFeatures .. => 0x7fffffffffff8011e001
  | .asynchronousEventRequest .. | .activationTimeout => 0x1100000034000
  | .keepAlive .. => 0x110000001c000
  | .formatNvm .. => 0x318002087c002
  | .firmwareCommit .. => 0x40000001100600634000
  | .activationIdle => 0x40000001100200634000
  | .store .. => 0x1a80030074000
  | .capsuleTake .. => 0x110011013c000
  | .qmgHoldAdmit .. => 0x100000010000
  | .harvestReadIssue .. => 0x7fffffffffff80026011
  | .harvestPassOverdue .. => 0x1000000024000
  | .jubStart .. | .jubLinkDown .. => 0x80000040000
  | .jubAbort .. | .plan .. | .planReply .. | .zoneBegin .. | .zoneEnd .. | .close .. => 0x80010060000
  | .jubRetrain .. | .jubLinkRetry .. => 0x82022040000
  | .jubPause .. => 0x80000000000
  | .jubEnergyDetect .. => 0x10821a21c4000
  | .jubFlitReceived .. => 0x1080010044000
  | .jubLinkHoldExpiry .. => 0x80000060000
  | .hello .. | .zoneAck .. | .zoneFail .. => 0x118001007c000
  | .jubStripeSend .. => 0x781080010064010
  | .stripe .. | .stripeNak .. => 0x1080010064000
  | .credit .. => 0x10060000
  | .idleTimerExpiry .. | .pl5Req .. => 0x180100000
  | .powerEntryStep => 0x7fffffffffff9ffffff5
  | .holdReq .. | .pwrWake .. | .vglWakeNInput => 0x1000180184000
  | .wakeSource .. => 0x100018018c000
  | .vigilAlarm .. => 0x7fffffffffff80186001
  | .epochTick => 0x7fffffffffff80086001
  | .vglEpochLoRead | .pwrTickLoRead => 0x80000
  | .ulkLtimeLoRead .. => 0x4
  | .almSeqLoRead => 0x4000000
  | .calRunReq .. | .calBatchCommit .. => 0x2002000000
  | .calHold .. | .calShadowWrite .. => 0x2000000000
  | .calRunStart .. => 0x2102000000
  | .calRunEnd .. => 0x1002102004000
  | .calAdcoffSend .. => 0x2010000004
  | .dieTempUpdate .. => 0x1002002004000
  | .thermalTrip => 0x3f7f81203d164067f4
  | .almanacSubmit .. => 0x1000c14404000
  | .almAppGo .. => 0x1000c04404000
  | .almFlush | .almFlushTimer | .plossWindowClose => 0xc04400000
  | .almBootScan .. => 0x1000804004000
  | .mirrorWriteTimer .. => 0x1000800024000
  | .mctpPacketRx .. => 0x1001008004000
  | .setEndpointId .. | .getEndpointId .. | .getEndpointUuid .. | .getMctpVersionSupport .. | .getMessageTypeSupport ..
  | .getVendorDefinedMessageSupport .. | .unsupportedMctpControl .. | .readNvmeMiDataStructure .. | .nvmSubsystemHealthStatusPoll ..
  | .controllerHealthStatusPoll .. | .configurationGet .. | .configurationSet .. | .vpdRead .. | .miAbort .. | .mgtUnlistedOpcode ..
  | .getInfo .. | .almInfo .. | .almRead .. | .netGet .. | .otpRead .. => 0x1001018004000
  | .miTunnelledAdmin .. => 0x7fffffffffff9873e001
  | .miGetState .. => 0x1001010004000
  | .regRead .. => 0x120103c086004
  | .almAppend .. => 0x1001c1c404000
  | .imageWrite .. => 0x1001018024000
  | .imageCommit .. => 0x40000001101618634000
  | .netSet .. => 0x7fffffffffff98006001
  | .pskSet .. => 0x1001038804000
  | .pskClear .. => 0x1001018804000
  | .jubPlan .. => 0x1081018044000
  | .otpProgram .. => 0x1001018404000
  | .powerReq .. => 0x1001198184000
  | .dynamicAddressAssignment .. | .managementPortReady => 0x1000000000
  | .dbgHalt .. | .dbgLock => 0x40000000000000000000

/-- A command answers a next state, and carries every scope outside those it may touch. -/
theorem exec_frame {P : Scope} (c : Instr) (s : State) (hp : P.outside (scopesOf c)) : ∃ t, exec c s = .next t ∧ Fr P s t := by
  cases c with
  | registerWrite => exact execRegisterWrite_frame _ _ _ _ (Fr.refl s) hp
  | vigilPowerOnReset => exact execVigilPowerOnReset_frame (Fr.refl s) hp
  | powerOnReset => exact execPowerOnReset_frame _ _ (Fr.refl s) hp
  | pinReset => exact execPinReset_frame _ _ (Fr.refl s) hp
  | mainRailLoss => exact execMainRailLoss_frame (Fr.refl s) hp
  | vigilSupplySwitch => exact execVigilSupplySwitch_frame _ (Fr.refl s) hp
  | ctrlRst => exact execCtrlRst_frame _ (Fr.refl s) hp
  | controlResetHalted => exact execControlResetHalted_frame (Fr.refl s) hp
  | warmRst => exact execWarmRst_frame _ (Fr.refl s) hp
  | resetRetractDone => exact execResetRetractDone_frame (Fr.refl s) hp
  | cpuRst => exact execCpuRst_frame _ (Fr.refl s) hp
  | blockReset => exact execBlockReset_frame _ _ (Fr.refl s) hp
  | testLogicReset => exact execTestLogicReset_frame (Fr.refl s) hp
  | idesKick => exact execIdesKick_frame _ _ (Fr.refl s) hp
  | idesEnable => exact execIdesEnable_frame _ (Fr.refl s) hp
  | idesWarn => exact execIdesWarn_frame _ (Fr.refl s) hp
  | idesExpiry => exact execIdesExpiry_frame (Fr.refl s) hp
  | bootOk => exact execBootOk_frame _ _ (Fr.refl s) hp
  | bootStep => exact execBootStep_frame _ (Fr.refl s) hp
  | partitionLoad => exact execPartitionLoad_frame _ _ _ (Fr.refl s) hp
  | pllUnlock => exact execPllUnlock_frame _ (Fr.refl s) hp
  | flsProgram => exact execFlsProgram_frame _ _ _ (Fr.refl s) hp
  | flsProgramDone => exact execFlsProgramDone_frame _ _ (Fr.refl s) hp
  | flsErase => exact execFlsErase_frame _ _ (Fr.refl s) hp
  | flsEraseDone => exact execFlsEraseDone_frame _ _ (Fr.refl s) hp
  | flsSuspend => exact execFlsSuspend_frame (Fr.refl s) hp
  | flsSuspendDeferred => exact execFlsSuspendDeferred_frame (Fr.refl s) hp
  | flsResume => exact execFlsResume_frame _ (Fr.refl s) hp
  | flsMarginRead => exact execFlsMarginRead_frame _ _ _ _ (Fr.refl s) hp
  | flsOtpProgram => exact execFlsOtpProgram_frame _ (Fr.refl s) hp
  | flsInitDone => exact execFlsInitDone_frame _ (Fr.refl s) hp
  | flashRead => exact execFlashRead_frame _ _ _ _ _ (Fr.refl s) hp
  | secGenerate => exact execSecGenerate_frame _ _ (Fr.refl s) hp
  | secUnwrap => exact execSecUnwrap_frame _ _ _ (Fr.refl s) hp
  | secClear => exact execSecClear_frame _ _ (Fr.refl s) hp
  | secCmdDone => exact execSecCmdDone_frame (Fr.refl s) hp
  | ulkPortEn => exact execUlkPortEn_frame _ _ (Fr.refl s) hp
  | trainingStepDone => exact execTrainingStepDone_frame _ _ (Fr.refl s) hp
  | trainingAttemptTimeout => exact execTrainingAttemptTimeout_frame _ (Fr.refl s) hp
  | timeEchoReply => exact execTimeEchoReply_frame _ (Fr.refl s) hp
  | rateReq => exact execRateReq_frame _ (Fr.refl s) hp
  | rateSwitchInstant => exact execRateSwitchInstant_frame _ (Fr.refl s) hp
  | rateSwitchLockCheck => exact execRateSwitchLockCheck_frame _ _ (Fr.refl s) hp
  | ulkRetrain => exact execUlkRetrain_frame _ (Fr.refl s) hp
  | laneRetrainDone => exact execLaneRetrainDone_frame _ _ _ (Fr.refl s) hp
  | sleepReq => exact execSleepReq_frame _ (Fr.refl s) hp
  | sleepAck => exact execSleepAck_frame _ _ (Fr.refl s) hp
  | sleepAckTimeout => exact execSleepAckTimeout_frame _ (Fr.refl s) hp
  | wakeReq => exact execWakeReq_frame _ (Fr.refl s) hp
  | wakePatternRx => exact execWakePatternRx_frame _ (Fr.refl s) hp
  | flitReceived => exact execFlitReceived_frame _ _ _ (Fr.refl s) hp
  | linkAck => exact execLinkAck_frame _ _ _ (Fr.refl s) hp
  | linkNak => exact execLinkNak_frame _ _ _ (Fr.refl s) hp
  | nakTimeout => exact execNakTimeout_frame _ _ (Fr.refl s) hp
  | sample => exact execSample_frame _ _ _ _ (Fr.refl s) hp
  | sampleMark => exact execSampleMark_frame _ _ _ _ _ _ _ _ _ _ _ (Fr.refl s) hp
  | servoField => exact execServoField_frame _ _ _ _ _ _ _ _ (Fr.refl s) hp
  | servoFieldHandoff => exact execServoFieldHandoff_frame _ _ _ _ (Fr.refl s) hp
  | telemetry => exact execTelemetry_frame _ _ _ _ _ _ _ _ _ (Fr.refl s) hp
  | headReply => exact execHeadReply_frame _ _ _ _ _ (Fr.refl s) hp
  | headmapApply => exact execHeadmapApply_frame _ _ (Fr.refl s) hp
  | gateSend => exact execGateSend_frame _ _ (Fr.refl s) hp
  | armP => exact execArmP_frame _ _ _ (Fr.refl s) hp
  | disarm => exact execDisarm_frame _ _ (Fr.refl s) hp
  | holdOn => exact execHoldOn_frame _ _ (Fr.refl s) hp
  | holdOff => exact execHoldOff_frame _ _ (Fr.refl s) hp
  | replay1 => exact execReplay1_frame _ _ (Fr.refl s) hp
  | replay2 => exact execReplay2_frame _ _ (Fr.refl s) hp
  | replay3 => exact execReplay3_frame _ _ (Fr.refl s) hp
  | replay4 => exact execReplay4_frame _ _ (Fr.refl s) hp
  | replay5 => exact execReplay5_frame _ _ (Fr.refl s) hp
  | release => exact execRelease_frame _ _ (Fr.refl s) hp
  | unlistedStrobeCode => exact execUnlistedStrobeCode_frame _ _ _ _ (Fr.refl s) hp
  | chnSoftReset => exact execChnSoftReset_frame _ (Fr.refl s) hp
  | chnSlotCfgWrite => exact execChnSlotCfgWrite_frame _ _ _ (Fr.refl s) hp
  | chnSettingsApply => exact execChnSettingsApply_frame _ _ (Fr.refl s) hp
  | frontEndDone => exact execFrontEndDone_frame _ _ _ (Fr.refl s) hp
  | relaxedSearchStart => exact execRelaxedSearchStart_frame _ _ _ (Fr.refl s) hp
  | decodeStart => exact execDecodeStart_frame _ _ (Fr.refl s) hp
  | decodeIterationBoundary => exact execDecodeIterationBoundary_frame _ _ (Fr.refl s) hp
  | decodeEnd => exact execDecodeEnd_frame _ _ (Fr.refl s) hp
  | replayOperationStart => exact execReplayOperationStart_frame _ _ (Fr.refl s) hp
  | replayFrontEndDone => exact execReplayFrontEndDone_frame _ _ _ (Fr.refl s) hp
  | warmP => exact execWarmP_frame _ _ _ (Fr.refl s) hp
  | warmPB => exact execWarmPB_frame _ _ _ (Fr.refl s) hp
  | wdisarm => exact execWdisarm_frame _ _ (Fr.refl s) hp
  | fhDown1 => exact execFhDown1_frame _ _ (Fr.refl s) hp
  | fhRestore => exact execFhRestore_frame _ _ (Fr.refl s) hp
  | writeGateData => exact execWriteGateData_frame _ _ (Fr.refl s) hp
  | wpaWedgeBoundary => exact execWpaWedgeBoundary_frame _ (Fr.refl s) hp
  | inhibitCause => exact execInhibitCause_frame _ _ _ (Fr.refl s) hp
  | wpaInhibitClear => exact execWpaInhibitClear_frame _ _ (Fr.refl s) hp
  | wpaInhibitSet => exact execWpaInhibitSet_frame _ _ (Fr.refl s) hp
  | wpaCtrlWrite => exact execWpaCtrlWrite_frame _ _ (Fr.refl s) hp
  | verifyEvent => exact execVerifyEvent_frame _ _ (Fr.refl s) hp
  | rewindGatesEnded => exact execRewindGatesEnded_frame _ (Fr.refl s) hp
  | inhibitWaitTimeout => exact execInhibitWaitTimeout_frame _ (Fr.refl s) hp
  | verifyStallTimeout => exact execVerifyStallTimeout_frame _ (Fr.refl s) hp
  | loopUpdate => exact execLoopUpdate_frame _ _ (Fr.refl s) hp
  | outputLatch => exact execOutputLatch_frame _ (Fr.refl s) hp
  | svoCommit => exact execSvoCommit_frame _ (Fr.refl s) hp
  | svoWinWrite => exact execSvoWinWrite_frame _ _ (Fr.refl s) hp
  | svoCtrlWrite => exact execSvoCtrlWrite_frame _ (Fr.refl s) hp
  | svoMemoryZeroDone => exact execSvoMemoryZeroDone_frame (Fr.refl s) hp
  | capArm => exact execCapArm_frame (Fr.refl s) hp
  | capForce => exact execCapForce_frame (Fr.refl s) hp
  | capStop => exact execCapStop_frame (Fr.refl s) hp
  | load => exact execLoad_frame _ (Fr.refl s) hp
  | loadTimeout => exact execLoadTimeout_frame _ (Fr.refl s) hp
  | actDisable => exact execActDisable_frame _ (Fr.refl s) hp
  | reenable => exact execReenable_frame _ (Fr.refl s) hp
  | actRetract => exact execActRetract_frame _ _ (Fr.refl s) hp
  | retractTimeout => exact execRetractTimeout_frame _ (Fr.refl s) hp
  | settleTimeout => exact execSettleTimeout_frame _ (Fr.refl s) hp
  | actLinkEn => exact execActLinkEn_frame _ (Fr.refl s) hp
  | outputFrameSend => exact execOutputFrameSend_frame _ (Fr.refl s) hp
  | ampStatusFrame => exact execAmpStatusFrame_frame _ _ (Fr.refl s) hp
  | linkTimeout => exact execLinkTimeout_frame _ (Fr.refl s) hp
  | ampcmdGo => exact execAmpcmdGo_frame _ (Fr.refl s) hp
  | ampRegReply => exact execAmpRegReply_frame _ _ (Fr.refl s) hp
  | ampcmdTimeout => exact execAmpcmdTimeout_frame _ (Fr.refl s) hp
  | govBudgetWrite => exact execGovBudgetWrite_frame _ (Fr.refl s) hp
  | actHeaddisWrite => exact execActHeaddisWrite_frame _ _ (Fr.refl s) hp
  | motStartRequest => exact execMotStartRequest_frame _ (Fr.refl s) hp
  | motStopRequest => exact execMotStopRequest_frame (Fr.refl s) hp
  | motDisable => exact execMotDisable_frame (Fr.refl s) hp
  | motTargetChange => exact execMotTargetChange_frame _ (Fr.refl s) hp
  | motClrFault => exact execMotClrFault_frame (Fr.refl s) hp
  | pwmPeriod => exact execPwmPeriod_frame _ _ _ _ _ _ (Fr.refl s) hp
  | speedLoopUpdate => exact execSpeedLoopUpdate_frame (Fr.refl s) hp
  | observeEnd => exact execObserveEnd_frame (Fr.refl s) hp
  | brakePeek => exact execBrakePeek_frame (Fr.refl s) hp
  | alignEnd => exact execAlignEnd_frame (Fr.refl s) hp
  | startTimeout => exact execStartTimeout_frame (Fr.refl s) hp
  | startRetry => exact execStartRetry_frame (Fr.refl s) hp
  | pfailInput => exact execPfailInput_frame (Fr.refl s) hp
  | mopSubmit => exact execMopSubmit_frame _ _ (Fr.refl s) hp
  | mopAdmission => exact execMopAdmission_frame _ _ (Fr.refl s) hp
  | ordCplPop => exact execOrdCplPop_frame _ (Fr.refl s) hp
  | ordRun => exact execOrdRun_frame _ _ (Fr.refl s) hp
  | ordCancel => exact execOrdCancel_frame _ (Fr.refl s) hp
  | returnQueued => exact execReturnQueued_frame _ (Fr.refl s) hp
  | ordWinWrite => exact execOrdWinWrite_frame _ _ _ (Fr.refl s) hp
  | nop => exact execNop_frame _ _ (Fr.refl s) hp
  | ldi => exact execLdi_frame _ _ (Fr.refl s) hp
  | lui => exact execLui_frame _ _ (Fr.refl s) hp
  | add => exact execAdd_frame _ _ (Fr.refl s) hp
  | sub => exact execSub_frame _ _ (Fr.refl s) hp
  | and => exact execAnd_frame _ _ (Fr.refl s) hp
  | or => exact execOr_frame _ _ (Fr.refl s) hp
  | xor => exact execXor_frame _ _ (Fr.refl s) hp
  | addi => exact execAddi_frame _ _ (Fr.refl s) hp
  | andi => exact execAndi_frame _ _ (Fr.refl s) hp
  | shli => exact execShli_frame _ _ (Fr.refl s) hp
  | shri => exact execShri_frame _ _ (Fr.refl s) hp
  | cmp => exact execCmp_frame _ _ (Fr.refl s) hp
  | cmpi => exact execCmpi_frame _ _ (Fr.refl s) hp
  | ldd => exact execLdd_frame _ _ (Fr.refl s) hp
  | ldp => exact execLdp_frame _ _ (Fr.refl s) hp
  | lds => exact execLds_frame _ _ (Fr.refl s) hp
  | br => exact execBr_frame _ _ (Fr.refl s) hp
  | call => exact execCall_frame _ _ (Fr.refl s) hp
  | ret => exact execRet_frame _ _ (Fr.refl s) hp
  | poll => exact execPoll_frame _ _ (Fr.refl s) hp
  | wait => exact execWait_frame _ _ (Fr.refl s) hp
  | waitReturn => exact execWaitReturn_frame _ (Fr.refl s) hp
  | seek => exact execSeek_frame _ _ (Fr.refl s) hp
  | gang => exact execGang_frame _ _ (Fr.refl s) hp
  | strobe => exact execStrobe_frame _ _ (Fr.refl s) hp
  | gate => exact execGate_frame _ _ (Fr.refl s) hp
  | ldband => exact execLdband_frame _ _ (Fr.refl s) hp
  | fin => exact execFin_frame _ _ (Fr.refl s) hp
  | reservedMicroword => exact execReservedMicroword_frame _ _ (Fr.refl s) hp
  | wedgeTick => exact execWedgeTick_frame _ (Fr.refl s) hp
  | syntheticTick => exact execSyntheticTick_frame _ (Fr.refl s) hp
  | pollOverrun => exact execPollOverrun_frame _ (Fr.refl s) hp
  | endSequenceDrain => exact execEndSequenceDrain_frame _ (Fr.refl s) hp
  | sectorPacketDispatch => exact execSectorPacketDispatch_frame _ _ (Fr.refl s) hp
  | read => exact execRead_frame _ _ (Fr.refl s) hp
  | write => exact execWrite_frame _ _ (Fr.refl s) hp
  | flush => exact execFlush_frame _ (Fr.refl s) hp
  | writeZeroes => exact execWriteZeroes_frame _ (Fr.refl s) hp
  | compare => exact execCompare_frame _ _ (Fr.refl s) hp
  | zoneAppend => exact execZoneAppend_frame _ _ (Fr.refl s) hp
  | ringCloseTimeout => exact execRingCloseTimeout_frame _ (Fr.refl s) hp
  | vRecordTimer => exact execVRecordTimer_frame (Fr.refl s) hp
  | zoneOpen => exact execZoneOpen_frame _ (Fr.refl s) hp
  | zoneClose => exact execZoneClose_frame _ (Fr.refl s) hp
  | zoneFinish => exact execZoneFinish_frame _ (Fr.refl s) hp
  | zoneReset => exact execZoneReset_frame _ (Fr.refl s) hp
  | reportZones => exact execReportZones_frame _ (Fr.refl s) hp
  | firmwareMopCompletion => exact execFirmwareMopCompletion_frame _ (Fr.refl s) hp
  | bufferAccess => exact execBufferAccess_frame _ (Fr.refl s) hp
  | evictionWritebackAck => exact execEvictionWritebackAck_frame _ (Fr.refl s) hp
  | lntInitDone => exact execLntInitDone_frame (Fr.refl s) hp
  | lntSpadChange => exact execLntSpadChange_frame _ (Fr.refl s) hp
  | lntSpadDone => exact execLntSpadDone_frame (Fr.refl s) hp
  | lntDisable => exact execLntDisable_frame (Fr.refl s) hp
  | lntDisableDone => exact execLntDisableDone_frame (Fr.refl s) hp
  | lntEnable => exact execLntEnable_frame (Fr.refl s) hp
  | lntRmGo => exact execLntRmGo_frame _ _ (Fr.refl s) hp
  | lntRmDone => exact execLntRmDone_frame (Fr.refl s) hp
  | bufRemapWrite => exact execBufRemapWrite_frame _ _ _ (Fr.refl s) hp
  | memRemapWrite => exact execMemRemapWrite_frame _ _ _ (Fr.refl s) hp
  | remapCopyDone => exact execRemapCopyDone_frame _ _ _ (Fr.refl s) hp
  | memScrubPatrol => exact execMemScrubPatrol_frame _ _ (Fr.refl s) hp
  | bufEccTestArm => exact execBufEccTestArm_frame (Fr.refl s) hp
  | memEccTestArm => exact execMemEccTestArm_frame (Fr.refl s) hp
  | memInit => exact execMemInit_frame (Fr.refl s) hp
  | memTrainingDone => exact execMemTrainingDone_frame _ (Fr.refl s) hp
  | parityRequest => exact execParityRequest_frame _ (Fr.refl s) hp
  | parityDone => exact execParityDone_frame _ (Fr.refl s) hp
  | packetWrite => exact execPacketWrite_frame _ _ (Fr.refl s) hp
  | packetTake => exact execPacketTake_frame _ _ _ (Fr.refl s) hp
  | packetRelink => exact execPacketRelink_frame _ _ (Fr.refl s) hp
  | reservationRequest => exact execReservationRequest_frame _ _ (Fr.refl s) hp
  | reservationGrant => exact execReservationGrant_frame _ (Fr.refl s) hp
  | cplShareWrite => exact execCplShareWrite_frame _ _ (Fr.refl s) hp
  | cplQueueReset => exact execCplQueueReset_frame _ (Fr.refl s) hp
  | cplPoolReset => exact execCplPoolReset_frame (Fr.refl s) hp
  | cplInitDone => exact execCplInitDone_frame (Fr.refl s) hp
  | chainItemEnter => exact execChainItemEnter_frame _ _ (Fr.refl s) hp
  | chainItemTake => exact execChainItemTake_frame _ (Fr.refl s) hp
  | hifPortEn => exact execHifPortEn_frame _ _ (Fr.refl s) hp
  | hifRestartAn => exact execHifRestartAn_frame _ (Fr.refl s) hp
  | hifModeWrite => exact execHifModeWrite_frame _ _ _ (Fr.refl s) hp
  | hifQlimitWrite => exact execHifQlimitWrite_frame _ _ (Fr.refl s) hp
  | hifLattolWrite => exact execHifLattolWrite_frame _ _ (Fr.refl s) hp
  | anAttemptDone => exact execAnAttemptDone_frame _ _ (Fr.refl s) hp
  | anRetryTimer => exact execAnRetryTimer_frame _ (Fr.refl s) hp
  | hifLinkDown => exact execHifLinkDown_frame _ (Fr.refl s) hp
  | ethFrameRx => exact execEthFrameRx_frame _ _ (Fr.refl s) hp
  | tcpConnectionOpen => exact execTcpConnectionOpen_frame _ _ _ _ (Fr.refl s) hp
  | keepAliveExpiry => exact execKeepAliveExpiry_frame _ (Fr.refl s) hp
  | connect => exact execConnect_frame _ (Fr.refl s) hp
  | disconnect => exact execDisconnect_frame _ (Fr.refl s) hp
  | propertyGet => exact execPropertyGet_frame _ (Fr.refl s) hp
  | propertySet => exact execPropertySet_frame _ (Fr.refl s) hp
  | controllerReset => exact execControllerReset_frame _ (Fr.refl s) hp
  | controllerShutdown => exact execControllerShutdown_frame _ (Fr.refl s) hp
  | identify => exact execIdentify_frame _ (Fr.refl s) hp
  | getLogPage => exact execGetLogPage_frame _ (Fr.refl s) hp
  | setFeatures => exact execSetFeatures_frame _ (Fr.refl s) hp
  | getFeatures => exact execGetFeatures_frame _ (Fr.refl s) hp
  | abort => exact execAbort_frame _ (Fr.refl s) hp
  | asynchronousEventRequest => exact execAsynchronousEventRequest_frame _ (Fr.refl s) hp
  | keepAlive => exact execKeepAlive_frame _ (Fr.refl s) hp
  | formatNvm => exact execFormatNvm_frame _ _ (Fr.refl s) hp
  | firmwareImageDownload => exact execFirmwareImageDownload_frame _ (Fr.refl s) hp
  | firmwareCommit => exact execFirmwareCommit_frame _ _ (Fr.refl s) hp
  | activationIdle => exact execActivationIdle_frame (Fr.refl s) hp
  | activationTimeout => exact execActivationTimeout_frame (Fr.refl s) hp
  | store => exact execStore_frame _ _ (Fr.refl s) hp
  | retrieve => exact execRetrieve_frame _ _ (Fr.refl s) hp
  | delete => exact execDelete_frame _ (Fr.refl s) hp
  | exist => exact execExist_frame _ (Fr.refl s) hp
  | list => exact execList_frame _ (Fr.refl s) hp
  | reservationRegister => exact execReservationRegister_frame _ (Fr.refl s) hp
  | reservationReport => exact execReservationReport_frame _ (Fr.refl s) hp
  | reservationAcquire => exact execReservationAcquire_frame _ (Fr.refl s) hp
  | reservationRelease => exact execReservationRelease_frame _ (Fr.refl s) hp
  | unsupportedCommand => exact execUnsupportedCommand_frame _ (Fr.refl s) hp
  | capsuleTake => exact execCapsuleTake_frame _ (Fr.refl s) hp
  | commandAdmission => exact execCommandAdmission_frame (Fr.refl s) hp
  | completionCommit => exact execCompletionCommit_frame _ (Fr.refl s) hp
  | completionSent => exact execCompletionSent_frame _ (Fr.refl s) hp
  | qmgHoldAdmit => exact execQmgHoldAdmit_frame _ (Fr.refl s) hp
  | harvestReadIssue => exact execHarvestReadIssue_frame _ (Fr.refl s) hp
  | harvestPassOverdue => exact execHarvestPassOverdue_frame _ (Fr.refl s) hp
  | refreshStepDone => exact execRefreshStepDone_frame _ (Fr.refl s) hp
  | jubStart => exact execJubStart_frame _ (Fr.refl s) hp
  | jubAbort => exact execJubAbort_frame _ (Fr.refl s) hp
  | jubRetrain => exact execJubRetrain_frame _ _ (Fr.refl s) hp
  | jubPause => exact execJubPause_frame _ _ (Fr.refl s) hp
  | jubEnergyDetect => exact execJubEnergyDetect_frame _ _ (Fr.refl s) hp
  | jubFlitReceived => exact execJubFlitReceived_frame _ _ _ (Fr.refl s) hp
  | jubLinkDown => exact execJubLinkDown_frame _ (Fr.refl s) hp
  | jubLinkRetry => exact execJubLinkRetry_frame _ _ (Fr.refl s) hp
  | jubLinkHoldExpiry => exact execJubLinkHoldExpiry_frame _ (Fr.refl s) hp
  | hello => exact execHello_frame _ _ (Fr.refl s) hp
  | plan => exact execPlan_frame _ _ _ (Fr.refl s) hp
  | planReply => exact execPlanReply_frame _ _ (Fr.refl s) hp
  | zoneBegin => exact execZoneBegin_frame _ _ (Fr.refl s) hp
  | jubStripeSend => exact execJubStripeSend_frame _ _ (Fr.refl s) hp
  | stripe => exact execStripe_frame _ _ (Fr.refl s) hp
  | zoneEnd => exact execZoneEnd_frame _ _ _ (Fr.refl s) hp
  | stripeNak => exact execStripeNak_frame _ _ _ _ _ (Fr.refl s) hp
  | credit => exact execCredit_frame _ _ (Fr.refl s) hp
  | jubZoneCommit => exact execJubZoneCommit_frame _ _ (Fr.refl s) hp
  | zoneAck => exact execZoneAck_frame _ _ (Fr.refl s) hp
  | zoneFail => exact execZoneFail_frame _ _ _ (Fr.refl s) hp
  | close => exact execClose_frame _ _ (Fr.refl s) hp
  | idleTimerExpiry => exact execIdleTimerExpiry_frame _ (Fr.refl s) hp
  | powerEntryStep => exact execPowerEntryStep_frame (Fr.refl s) hp
  | powerExitStep => exact execPowerExitStep_frame _ (Fr.refl s) hp
  | pl5Req r => exact execPl5Req_frame r (Fr.refl s) hp
  | holdReq => exact execHoldReq_frame _ (Fr.refl s) hp
  | pwrWake r => exact execPwrWake_frame r (Fr.refl s) hp
  | wakeSource => exact execWakeSource_frame _ (Fr.refl s) hp
  | vglWakeNInput => exact execVglWakeNInput_frame (Fr.refl s) hp
  | vigilAlarm => exact execVigilAlarm_frame _ (Fr.refl s) hp
  | vbatMeasure => exact execVbatMeasure_frame _ (Fr.refl s) hp
  | epochTick => exact execEpochTick_frame (Fr.refl s) hp
  | epochLoad => exact execEpochLoad_frame _ (Fr.refl s) hp
  | vglEpochLoRead => exact execVglEpochLoRead_frame (Fr.refl s) hp
  | pwrTickLoRead => exact execPwrTickLoRead_frame (Fr.refl s) hp
  | ulkLtimeLoRead => exact execUlkLtimeLoRead_frame _ (Fr.refl s) hp
  | almSeqLoRead => exact execAlmSeqLoRead_frame (Fr.refl s) hp
  | vigilSupplyMonitorFall => exact execVigilSupplyMonitorFall_frame (Fr.refl s) hp
  | hostLaneEnergyDetectorArm => exact execHostLaneEnergyDetectorArm_frame _ _ (Fr.refl s) hp
  | calRunReq => exact execCalRunReq_frame _ (Fr.refl s) hp
  | calHold => exact execCalHold_frame _ (Fr.refl s) hp
  | calRunStart => exact execCalRunStart_frame _ (Fr.refl s) hp
  | calRunEnd => exact execCalRunEnd_frame _ (Fr.refl s) hp
  | calShadowWrite => exact execCalShadowWrite_frame _ _ _ _ (Fr.refl s) hp
  | calBatchCommit => exact execCalBatchCommit_frame _ _ (Fr.refl s) hp
  | calEntryApply => exact execCalEntryApply_frame _ (Fr.refl s) hp
  | calAdcoffSend => exact execCalAdcoffSend_frame _ _ (Fr.refl s) hp
  | dieTempUpdate => exact execDieTempUpdate_frame _ (Fr.refl s) hp
  | thermalTrip => exact execThermalTrip_frame (Fr.refl s) hp
  | almanacSubmit => exact execAlmanacSubmit_frame _ (Fr.refl s) hp
  | almAppGo => exact execAlmAppGo_frame _ (Fr.refl s) hp
  | almFlush => exact execAlmFlush_frame (Fr.refl s) hp
  | almFlushTimer => exact execAlmFlushTimer_frame (Fr.refl s) hp
  | plossWindowClose => exact execPlossWindowClose_frame (Fr.refl s) hp
  | almBootScan => exact execAlmBootScan_frame _ _ (Fr.refl s) hp
  | mirrorWriteTimer => exact execMirrorWriteTimer_frame _ _ (Fr.refl s) hp
  | mctpPacketRx => exact execMctpPacketRx_frame _ (Fr.refl s) hp
  | setEndpointId => exact execSetEndpointId_frame _ _ (Fr.refl s) hp
  | getEndpointId => exact execGetEndpointId_frame _ (Fr.refl s) hp
  | getEndpointUuid => exact execGetEndpointUuid_frame _ (Fr.refl s) hp
  | getMctpVersionSupport => exact execGetMctpVersionSupport_frame _ (Fr.refl s) hp
  | getMessageTypeSupport => exact execGetMessageTypeSupport_frame _ (Fr.refl s) hp
  | getVendorDefinedMessageSupport => exact execGetVendorDefinedMessageSupport_frame _ (Fr.refl s) hp
  | unsupportedMctpControl => exact execUnsupportedMctpControl_frame _ (Fr.refl s) hp
  | readNvmeMiDataStructure => exact execReadNvmeMiDataStructure_frame _ _ _ _ (Fr.refl s) hp
  | nvmSubsystemHealthStatusPoll => exact execNvmSubsystemHealthStatusPoll_frame _ (Fr.refl s) hp
  | controllerHealthStatusPoll => exact execControllerHealthStatusPoll_frame _ (Fr.refl s) hp
  | configurationGet => exact execConfigurationGet_frame _ _ (Fr.refl s) hp
  | configurationSet => exact execConfigurationSet_frame _ _ _ (Fr.refl s) hp
  | vpdRead => exact execVpdRead_frame _ _ _ (Fr.refl s) hp
  | miTunnelledAdmin => exact execMiTunnelledAdmin_frame _ _ _ (Fr.refl s) hp
  | miAbort => exact execMiAbort_frame _ (Fr.refl s) hp
  | miGetState => exact execMiGetState_frame _ (Fr.refl s) hp
  | mgtUnlistedOpcode => exact execMgtUnlistedOpcode_frame _ (Fr.refl s) hp
  | getInfo => exact execGetInfo_frame _ (Fr.refl s) hp
  | regRead => exact execRegRead_frame _ _ _ (Fr.refl s) hp
  | regWrite => exact execRegWrite_frame _ _ _ _ (Fr.refl s) hp
  | regModify => exact execRegModify_frame _ _ _ _ _ (Fr.refl s) hp
  | almInfo => exact execAlmInfo_frame _ (Fr.refl s) hp
  | almRead => exact execAlmRead_frame _ _ _ (Fr.refl s) hp
  | almAppend => exact execAlmAppend_frame _ _ _ (Fr.refl s) hp
  | imageWrite => exact execImageWrite_frame _ _ _ _ (Fr.refl s) hp
  | imageCommit => exact execImageCommit_frame _ _ _ _ (Fr.refl s) hp
  | stagingTimeout => exact execStagingTimeout_frame (Fr.refl s) hp
  | netSet => exact execNetSet_frame _ _ _ (Fr.refl s) hp
  | netGet => exact execNetGet_frame _ _ _ _ (Fr.refl s) hp
  | pskSet => exact execPskSet_frame _ _ _ _ _ _ (Fr.refl s) hp
  | pskClear => exact execPskClear_frame _ _ (Fr.refl s) hp
  | jubPlan => exact execJubPlan_frame _ _ _ (Fr.refl s) hp
  | otpProgram => exact execOtpProgram_frame _ _ _ (Fr.refl s) hp
  | otpRead => exact execOtpRead_frame _ _ _ (Fr.refl s) hp
  | powerReq => exact execPowerReq_frame _ _ (Fr.refl s) hp
  | dynamicAddressAssignment => exact execDynamicAddressAssignment_frame _ (Fr.refl s) hp
  | managementPortReady => exact execManagementPortReady_frame (Fr.refl s) hp
  | dbgAccess => exact execDbgAccess_frame _ _ _ _ (Fr.refl s) hp
  | extest => exact execExtest_frame (Fr.refl s) hp
  | samplePreload => exact execSamplePreload_frame _ (Fr.refl s) hp
  | idcode => exact execIdcode_frame (Fr.refl s) hp
  | extestPulse => exact execExtestPulse_frame (Fr.refl s) hp
  | extestTrain => exact execExtestTrain_frame (Fr.refl s) hp
  | highz => exact execHighz_frame (Fr.refl s) hp
  | clamp => exact execClamp_frame (Fr.refl s) hp
  | scan => exact execScan_frame (Fr.refl s) hp
  | bypass => exact execBypass_frame (Fr.refl s) hp
  | dbgHalt => exact execDbgHalt_frame _ (Fr.refl s) hp
  | dbgLock => exact execDbgLock_frame (Fr.refl s) hp

end Sys2Proof.Machine
end

section
/-!
PROOFS. Every step answers a next state, keeps the canonical form of the tables, and takes exactly the front command off the queue (O1 to
O6): all from `exec_frame`, with the queue as the scope that no command touches.
-/
namespace Sys2Proof.Machine

set_option Elab.async false

/-! ## Commands and the queue -/

/-- No command touches the queue. -/
theorem testBit_scopesOf_pending (c : Instr) : (scopesOf c).testBit 30 = false := by
  cases c <;> (conv_lhs => arg 1; whnf) <;> rfl

/-- The queue is outside a set of scopes without its bit. -/
theorem outside_pending {m : Nat} (h : m.testBit 30 = false) : (Scope.part .pending).outside m := h

/-- A command answers a next state that has the same queue and keeps the canonical form of the tables. -/
theorem exec_keeps_pending (c : Instr) (s : State) : ∃ t, exec c s = .next t ∧ Fr (.part .pending) s t :=
  exec_frame c s (outside_pending (testBit_scopesOf_pending c))

theorem State.idleTick_keeps_pending (s : State) : Fr (.part .pending) s s.idleTick :=
  State.idleTick_frame (Fr.refl s) (outside_pending (by decide))

/-! ## Steps -/

theorem step_of_empty {s : State} (h : s.pending = []) : step s = .next s.idleTick := by
  unfold step; rw [h]

theorem step_of_cons {s : State} {c : Instr} {cs : List Instr} (h : s.pending = c :: cs) : step s = exec c { s with pending := cs } := by
  unfold step; rw [h]

/-- A step answers a next state: from the state without its front command it keeps the queue and the canonical form of the tables. -/
theorem step_next (s : State) : ∃ t, step s = .next t ∧ Fr (.part .pending) { s with pending := s.pending.tail } t := by
  cases hq : s.pending with
  | nil =>
    have hs : ({ s with pending := ([] : List Instr).tail } : State) = s := by rw [List.tail_nil, ← hq]
    rw [hs]
    exact ⟨_, step_of_empty hq, s.idleTick_keeps_pending⟩
  | cons c cs => rw [step_of_cons hq, List.tail_cons]; exact exec_keeps_pending c _

theorem step_frame {s t : State} (h : step s = .next t) : Fr (.part .pending) { s with pending := s.pending.tail } t := by
  obtain ⟨u, hu, hframe⟩ := step_next s
  cases hu.symm.trans h
  exact hframe

/-- A step takes the front command off the queue. -/
theorem pending_of_step {s t : State} (h : step s = .next t) : t.pending = s.pending.tail := (step_frame h).1

/-- As many steps take as many commands off the queue. -/
theorem pending_of_after (n : Nat) : ∀ {s u : State}, After n s u → u.pending = s.pending.drop n := by
  induction n with
  | zero => rintro s u rfl; rfl
  | succ n ih =>
    rintro s u ⟨t, hstep, hafter⟩
    rw [ih hafter, pending_of_step hstep, List.drop_tail]

/-! ## The obligations -/

/-- Settles O1: by the two cases of `step`. -/
theorem stepRunsFrontCommand : Obligations.StepRunsFrontCommand :=
  ⟨fun _ _ _ h => step_of_cons h, fun _ h => step_of_empty h⟩

/-- Settles O2: the tables of the reset state are empty. -/
theorem resetMeetsInvariant : Obligations.ResetMeetsInvariant := ⟨rfl, rfl, rfl⟩

/-- Settles O3: a frame carries the canonical form with it, and every command and the idle step have one. -/
theorem everyStepKeepsInvariant : Obligations.EveryStepKeepsInvariant := by
  intro s t hinv hstep
  obtain ⟨_, hregs, hmem⟩ := step_frame hstep
  exact ⟨hregs hinv.1, hmem hinv.2⟩

/-- Settles O4: every command answers a next state. -/
theorem noStepStops : Obligations.NoStepStops := by
  intro s
  obtain ⟨t, ht, _⟩ := step_next s
  exact ⟨t, ht⟩

/-- Settles O5: the queue is outside the scopes of every command. -/
theorem commandsLeaveQueue : Obligations.CommandsLeaveQueue := by
  refine ⟨fun c s t h => ?_, fun s => s.idleTick_keeps_pending.1⟩
  obtain ⟨u, hu, hframe⟩ := exec_keeps_pending c s
  cases hu.symm.trans h
  exact hframe.1

/-- Settles O6: each step takes one command off the queue, so that the steps of the rest begin where the front command leads. -/
theorem queueRunsInOrder : Obligations.QueueRunsInOrder := by
  intro c cs s t u hexec hafter
  refine ⟨⟨t, hexec, hafter⟩, ?_⟩
  have ht : t.pending = cs := commandsLeaveQueue.1 _ _ _ hexec
  rw [pending_of_after _ hafter, ht, List.drop_length]

end Sys2Proof.Machine
end

section
/-!
PROOFS. The frames of the commands (O37 to O45): what a command named may touch is covered by the parts and the windows named with it.
-/
namespace Sys2Proof.Machine

set_option Elab.async false

/-- The frame of a command whose scopes the parts and windows named cover. -/
theorem frame_of_scopes {c : Instr} {ps : List Part} {bs : List Nat} (h : covers (scopesOf c) ps bs = true) : Frame c ps bs :=
  frame_of (fun _ s hp => exec_frame c s hp) h

/-- A command keeps every part but those that cover the parts in its scopes. -/
theorem kept_of_scopes {c : Instr} {ps : List Part} (h : coversParts (scopesOf c) ps = true) : Kept c ps :=
  sameBut_of (fun _ s hp => exec_frame c s hp) h

/-- Settles O37: for each command named, its scopes are covered. -/
theorem linkAndChannelFrames : Obligations.LinkAndChannelFrames := by
  intro c
  cases c <;> try exact trivial
  all_goals exact frame_of_scopes (by (conv_lhs => arg 1; whnf); decide +kernel)

/-- Settles O38: for each command named, its scopes are covered. -/
theorem writeServoAndActuatorFrames : Obligations.WriteServoAndActuatorFrames := by
  intro c
  cases c <;> try exact trivial
  all_goals exact frame_of_scopes (by (conv_lhs => arg 1; whnf); decide +kernel)

/-- Settles O39: for each command named, its scopes are covered. -/
theorem sequencerFrames : Obligations.SequencerFrames := by
  intro c
  cases c <;> try exact trivial
  all_goals exact frame_of_scopes (by (conv_lhs => arg 1; whnf); decide +kernel)

/-- Settles O40: for each command named, its scopes are covered. -/
theorem memoryAndPoolFrames : Obligations.MemoryAndPoolFrames := by
  intro c
  cases c <;> try exact trivial
  all_goals exact frame_of_scopes (by (conv_lhs => arg 1; whnf); decide +kernel)

/-- Settles O41: for each command named, its scopes are covered. -/
theorem hostCommandFrames : Obligations.HostCommandFrames := by
  intro c
  cases c <;> try exact trivial
  all_goals exact frame_of_scopes (by (conv_lhs => arg 1; whnf); decide +kernel)

/-- Settles O42: for each command named, its scopes are covered. -/
theorem retentionAndCalibrationFrames : Obligations.RetentionAndCalibrationFrames := by
  intro c
  cases c <;> try exact trivial
  all_goals exact frame_of_scopes (by (conv_lhs => arg 1; whnf); decide +kernel)

/-- Settles O43: for each command named, its scopes are covered. -/
theorem flashVigilAndResetFrames : Obligations.FlashVigilAndResetFrames := by
  intro c
  cases c <;> try exact trivial
  all_goals exact frame_of_scopes (by (conv_lhs => arg 1; whnf); decide +kernel)

/-- Settles O44: for each command named, its scopes are covered. -/
theorem managementAndTestFrames : Obligations.ManagementAndTestFrames := by
  intro c
  cases c <;> try exact trivial
  all_goals exact frame_of_scopes (by (conv_lhs => arg 1; whnf); decide +kernel)

/-- Settles O45: for each command named, its scopes are covered. -/
theorem wideCommandsKeep : Obligations.WideCommandsKeep := by
  intro c
  cases c <;> try exact trivial
  all_goals exact kept_of_scopes (by (conv_lhs => arg 1; whnf); decide +kernel)

end Sys2Proof.Machine
end

section
/-!
PROOFS. Statements that fail, each with a state that refutes it. A word that the test mode stored wrong (R331 to R337) is a mark in BUF's
part of the state; the commands below write or read such a word where their statements leave BUF, or its registers, as they were.
-/
namespace Sys2Proof.Machine

set_option Elab.async false

/-! ## Counterexamples -/

/-- The state that a command answers, or the one it began with when it answers none. -/
def execNext (c : Instr) (s : State) : State :=
  match exec c s with
  | .next t => t
  | _ => s

/-- What a statement says of a command's next state holds of the state that the model computes. -/
theorem Completes.of_execNext {c : Instr} {s : State} {p : State → Prop} (h : Completes c s p) : p (execNext c s) := by
  obtain ⟨t, ht, hp⟩ := h
  have hnext : execNext c s = t := by rw [execNext, ht]
  rwa [hnext]

theorem SameBut.buf {ps : List Part} {s t : State} (h : SameBut ps s t) (hp : .buf ∉ ps) : t.buf = s.buf := h .buf hp

theorem SameBut.regs {ps : List Part} {s t : State} (h : SameBut ps s t) (hp : .regs ∉ ps) : t.regs = s.regs := h .regs hp

/-- Word `w` of SRAM group `g` is stored with one wrong data bit, which a read corrects. -/
def State.badWord (s : State) (g w : Nat) : State := s.setSramMark g w (some (1, 0, false))

/-! ## Writes of a word that is stored wrong -/

/-- The word of CLK_BOOT in the Vigil bank is stored wrong. -/
def badBootWord : State := State.reset.badWord 29 7

/-- Refutes O15: where the word of CLK_BOOT in the Vigil bank is stored wrong, BOOT_OK's write stores it well, which BUF's part shows. -/
theorem not_watchdogAndBootComplete : ¬ Obligations.WatchdogAndBootComplete := by
  intro h
  obtain ⟨-, -, -, -, hboot, -⟩ := h
  have honly := (hboot 0 1 badBootWord (by decide)).of_execNext.2.2
  exact absurd (honly.2.buf (by decide)) (by decide +kernel)

/-- A leap second lies before the second that is about to begin, where Epoch's upper word steps, and the bank's word of the leap seconds is
stored wrong. -/
def badLeapWord : State :=
  let s := State.reset.badWord 29 1
  { s with vgl := { s.vgl with leapFrom := some (0, 0), epoch := 2 ^ 20 - 1 } }

/-- Refutes O24: where Epoch's tick puts a leap second in force whose word of the Vigil bank is stored wrong, it stores that word well, which
BUF's part shows. -/
theorem not_vigilAndLatchCommandsComplete : ¬ Obligations.VigilAndLatchCommandsComplete := by
  intro h
  obtain ⟨-, -, htick, -⟩ := h badLeapWord
  exact absurd (htick.of_execNext.2.buf (by decide)) (by decide +kernel)

/-- The first word of port 0's settings in the Vigil bank is stored wrong. -/
def badNetWord : State := State.reset.badWord 29 64

/-- Settings of a port that NET_SET takes. -/
def plainNetCfg : NetCfg :=
  { flags := 0, ipv4 := 0, prefix4 := 0, gateway := 0, ipv6 := List.replicate 16 0, prefix6 := 0, vlan := 0, pfc := 0 }

/-- Refutes O30: where a word of the port's settings in the Vigil bank is stored wrong, NET_SET stores it well, which BUF's part shows. -/
theorem not_brodvonConfigurationCommandsComplete : ¬ Obligations.BrodvonConfigurationCommandsComplete := by
  intro h
  obtain ⟨-, -, -, -, hnet, -⟩ := h {} badNetWord rfl rfl rfl rfl
  have hset := hnet 0 plainNetCfg (by decide +kernel) (by decide) (by decide) (by decide) (by decide) (by decide)
  exact absurd (hset.of_execNext.2.2.buf (by decide)) (by decide +kernel)

/-! ## Sweeps over memories with a word that is stored wrong -/

/-- Refutes O51: where a word of the servo memory is stored wrong, its zeroing stores every word well, which BUF's part shows. -/
theorem not_servoEngineCommandsComplete : ¬ Obligations.ServoEngineCommandsComplete := by
  intro h
  obtain ⟨-, -, -, -, -, -, -, -, hzero, -⟩ := h (State.reset.badWord 26 0)
  exact absurd (hzero.of_execNext.2.buf (by decide)) (by decide +kernel)

/-- Refutes O58: where a word of Lantern's tags is stored wrong, their initialisation stores every word well, which BUF's part shows. -/
theorem not_lanternCommandsComplete : ¬ Obligations.LanternCommandsComplete := by
  intro h
  obtain ⟨-, -, -, hinit, -⟩ := h (State.reset.badWord 16 0)
  have honly := (hinit (by decide +kernel) (by decide)).of_execNext.2.2
  exact absurd (honly.2.buf (by decide)) (by decide +kernel)

/-! ## Rows that are being copied -/

/-- Row 0 of a SRAM group is being copied to the spare row of entry 0 (R335). -/
def State.copying (s : State) (g : Nat) : State := s.setReg (regAddr bBUF (0x400 + 0x20 * g)) 3

/-- Engine 0 runs a store of zeros, whose words are NOPs, from a row that is being copied. -/
def copiedStore : State := State.copying { State.reset with ord := [(0, { phase := .running })] } 22

/-- Refutes O55: the fetch of a word whose row is being copied ends the copy, which BUF_REMAP shows. -/
theorem not_computingMicrowordsComplete : ¬ Obligations.ComputingMicrowordsComplete := by
  intro h
  obtain ⟨hnop, -⟩ := h 0 .clean copiedStore (by decide) (by decide) (by decide)
  exact absurd ((hnop (by decide)).of_execNext.2.regs (by decide)) (by decide +kernel)

/-- A row of Lantern's data is being copied that holds a word stored wrong. -/
def copiedBadRow : State := (State.reset.badWord 0 0).copying 0

/-- Refutes O59: the copy of a row corrects a word that is stored wrong, and the register of corrections counts it. -/
theorem not_memoryCommandsComplete : ¬ Obligations.MemoryCommandsComplete := by
  intro h
  obtain ⟨-, -, hcopy, -⟩ := h copiedBadRow
  have hregs := (hcopy 0 0 (by decide) (by decide +kernel) (by decide)).of_execNext.2
  exact absurd (hregs (sramCe 0).addr (by decide)) (by decide +kernel)

/-! ## Counters that reach their maximum -/

/-- The port's counter of messages sent is one below its maximum. -/
def fullTxCounter : State := State.reset.setReg (mgtCtr 1).addr 0xFFFFFFFE

/-- Refutes O28: where the answer's counter reaches its maximum, its record enters a chain of the cell pool, whose own counter advances. -/
theorem not_brodvonRegisterCommandsComplete : ¬ Obligations.BrodvonRegisterCommandsComplete := by
  intro h
  obtain ⟨hunlisted, -⟩ := h {} fullTxCounter rfl rfl
  have hregs := hunlisted.of_execNext.2.1
  exact absurd (hregs (cplCtr 3).addr (by decide)) (by decide +kernel)

/-! ## Entries that no mirror holds -/

/-- An entry of the Almanac that is not in the flash. -/
def looseEntry : AlmEntry := { seq := 0, code := 0, flags := 0, epoch := 0, payload := [], crc := 0, page := none }

/-- In PL2, with an entry that is neither in the flash nor in a mirror. -/
def looseAlmanac : State := { State.reset.setReg pwrStatus 2 with alm := { entries := [looseEntry] } }

/-- Refutes O29: an entry that is neither in the flash nor in a mirror is still LPDDR6's, and ALM_READ returns it in PL2 (R551). -/
theorem not_brodvonAccessCommandsComplete : ¬ Obligations.BrodvonAccessCommandsComplete := by
  intro h
  obtain ⟨-, -, hread, -⟩ := h {} looseAlmanac rfl rfl rfl rfl
  have hout := (hread looseEntry 0 64 (by decide) (by decide) (by decide)).of_execNext.1
  exact absurd hout (by decide +kernel)

end Sys2Proof.Machine
end

section
/-!
PROOFS. The registers of Table 21.1 right after reset (O36): one of those listed belongs to Jubilee's link 1, which does not exist then.
-/
namespace Sys2Proof.Machine

set_option Elab.async false

/-- JUB_L1_DONE right after reset, through the register access network: SPLIT is 0, and link 1's registers read 0 (R439). -/
theorem netRead_reset_jubL1Done : (State.reset.netRead .mgtPort (regAddr 0xC 0x150)).2 = 0 := by decide +kernel

/-- Refutes O36: the table's reset value of JUB_L1_DONE is not what a read returns while SPLIT is 0 (R439). -/
theorem not_resetRegisterValues : ¬ Obligations.ResetRegisterValues := by
  intro h
  dsimp only [Obligations.ResetRegisterValues] at h
  obtain ⟨-, -, -, -, -, -, -, -, -, -, -, -, -, -, -, -, -, -, -, -, -, -, -, -, -, -, -, -, -, -, -, -, hdone, -⟩ := h
  exact absurd (netRead_reset_jubL1Done.symm.trans hdone) (by decide)

end Sys2Proof.Machine
end

section
/-!
PROOFS. Rules of the basic updates: an update of another part leaves every register; the part that an update writes reads as written; two
registers are the same when their offsets in the same window are, or their windows and offsets both.
-/
namespace Sys2Proof.Machine

/-! ## Registers under updates of other parts -/

@[simp] theorem State.reg_drawn (s : State) (a : Nat) : s.drawn.reg a = s.reg a := rfl
@[simp] theorem State.reg_emit (s : State) (o : Out) (a : Nat) : (s.emit o).reg a = s.reg a := rfl
@[simp] theorem State.reg_setUlk (s : State) (n : Nat) (p : UlkPort) (a : Nat) : (s.setUlk n p).reg a = s.reg a := rfl
@[simp] theorem State.reg_setChn (s : State) (n : Nat) (p : Chn) (a : Nat) : (s.setChn n p).reg a = s.reg a := rfl
@[simp] theorem State.reg_setWpa (s : State) (n : Nat) (p : Wpa) (a : Nat) : (s.setWpa n p).reg a = s.reg a := rfl
@[simp] theorem State.reg_setLoop (s : State) (i : Nat) (x : Loop) (a : Nat) : (s.setLoop i x).reg a = s.reg a := rfl
@[simp] theorem State.reg_putSvoWord (s : State) (i : Nat) (v : W) (a : Nat) : (s.putSvoWord i v).reg a = s.reg a := rfl
@[simp] theorem State.reg_setAct (s : State) (a : Nat) (x : Act) (b : Nat) : (s.setAct a x).reg b = s.reg b := rfl
@[simp] theorem State.reg_setOrd (s : State) (n : Nat) (x : Ord) (a : Nat) : (s.setOrd n x).reg a = s.reg a := rfl
@[simp] theorem State.reg_modOrd (s : State) (n : Nat) (f : Ord → Ord) (a : Nat) : (s.modOrd n f).reg a = s.reg a := rfl
@[simp] theorem State.reg_modMot (s : State) (f : Mot → Mot) (a : Nat) : (s.modMot f).reg a = s.reg a := rfl
@[simp] theorem State.reg_setUnit (s : State) (k : Nat) (u : MemUnit) (a : Nat) : (s.setUnit k u).reg a = s.reg a := rfl
@[simp] theorem State.reg_setHif (s : State) (p : Nat) (x : HifPort) (a : Nat) : (s.setHif p x).reg a = s.reg a := rfl
@[simp] theorem State.reg_setCtx (s : State) (c : Nat) (x : Option Ctx) (a : Nat) : (s.setCtx c x).reg a = s.reg a := rfl
@[simp] theorem State.reg_modFw (s : State) (f : Fw → Fw) (a : Nat) : (s.modFw f).reg a = s.reg a := rfl
@[simp] theorem State.reg_setZone (s : State) (z : Nat) (x : Zone) (a : Nat) : (s.setZone z x).reg a = s.reg a := rfl
@[simp] theorem State.reg_setRing (s : State) (n : Nat) (r : Ring) (a : Nat) : (s.setRing n r).reg a = s.reg a := rfl
@[simp] theorem State.reg_setJub (s : State) (k : Nat) (l : JubLink) (a : Nat) : (s.setJub k l).reg a = s.reg a := rfl
@[simp] theorem State.reg_modVgl (s : State) (f : Vgl → Vgl) (a : Nat) : (s.modVgl f).reg a = s.reg a := rfl
@[simp] theorem State.reg_modPwr (s : State) (f : Pwr → Pwr) (a : Nat) : (s.modPwr f).reg a = s.reg a := rfl
@[simp] theorem State.reg_modClk (s : State) (f : Clk → Clk) (a : Nat) : (s.modClk f).reg a = s.reg a := rfl
@[simp] theorem State.reg_modFls (s : State) (f : Fls → Fls) (a : Nat) : (s.modFls f).reg a = s.reg a := rfl
@[simp] theorem State.reg_modSec (s : State) (f : Sec → Sec) (a : Nat) : (s.modSec f).reg a = s.reg a := rfl
@[simp] theorem State.reg_modDbg (s : State) (f : Dbg → Dbg) (a : Nat) : (s.modDbg f).reg a = s.reg a := rfl
@[simp] theorem State.reg_modCal (s : State) (f : Cal → Cal) (a : Nat) : (s.modCal f).reg a = s.reg a := rfl
@[simp] theorem State.reg_modMgt (s : State) (f : MgtPort → MgtPort) (a : Nat) : (s.modMgt f).reg a = s.reg a := rfl

/-! ## The part that an update writes -/

@[simp] theorem State.emit_out_self (s : State) (o : Out) : (s.emit o).out = o :: s.out := rfl
@[simp] theorem State.setUlk_ulk_self (s : State) (n : Nat) (p : UlkPort) : (s.setUlk n p).ulk = tset (fun _ => {}) s.ulk n p := rfl
@[simp] theorem State.setChn_chn_self (s : State) (n : Nat) (p : Chn) : (s.setChn n p).chn = tset (fun _ => {}) s.chn n p := rfl
@[simp] theorem State.setWpa_wpa_self (s : State) (n : Nat) (p : Wpa) : (s.setWpa n p).wpa = tset (fun _ => {}) s.wpa n p := rfl
@[simp] theorem State.setAct_act_self (s : State) (a : Nat) (x : Act) : (s.setAct a x).act = tset (fun _ => {}) s.act a x := rfl
@[simp] theorem State.setOrd_ord_self (s : State) (n : Nat) (x : Ord) : (s.setOrd n x).ord = tset (fun _ => {}) s.ord n x := rfl
@[simp] theorem State.modOrd_ord_self (s : State) (n : Nat) (f : Ord → Ord) : (s.modOrd n f).ord = tset (fun _ => {}) s.ord n (f (s.ordP n)) := rfl
@[simp] theorem State.modMot_mot_self (s : State) (f : Mot → Mot) : (s.modMot f).mot = f s.mot := rfl
@[simp] theorem State.setHif_hif_self (s : State) (p : Nat) (x : HifPort) : (s.setHif p x).hif = tset (fun _ => {}) s.hif p x := rfl
@[simp] theorem State.setCtx_ctx_self (s : State) (c : Nat) (x : Option Ctx) : (s.setCtx c x).ctx = tset (fun _ => none) s.ctx c x := rfl
@[simp] theorem State.modFw_fw_self (s : State) (f : Fw → Fw) : (s.modFw f).fw = f s.fw := rfl
@[simp] theorem State.setJub_jub_self (s : State) (k : Nat) (l : JubLink) : (s.setJub k l).jub = tset (fun _ => {}) s.jub k l := rfl
@[simp] theorem State.modVgl_vgl_self (s : State) (f : Vgl → Vgl) : (s.modVgl f).vgl = f s.vgl := rfl
@[simp] theorem State.modPwr_pwr_self (s : State) (f : Pwr → Pwr) : (s.modPwr f).pwr = f s.pwr := rfl
@[simp] theorem State.modClk_clk_self (s : State) (f : Clk → Clk) : (s.modClk f).clk = f s.clk := rfl
@[simp] theorem State.modFls_fls_self (s : State) (f : Fls → Fls) : (s.modFls f).fls = f s.fls := rfl
@[simp] theorem State.modSec_sec_self (s : State) (f : Sec → Sec) : (s.modSec f).sec = f s.sec := rfl
@[simp] theorem State.modDbg_dbg_self (s : State) (f : Dbg → Dbg) : (s.modDbg f).dbg = f s.dbg := rfl
@[simp] theorem State.modCal_cal_self (s : State) (f : Cal → Cal) : (s.modCal f).cal = f s.cal := rfl
@[simp] theorem State.modMgt_mgt_self (s : State) (f : MgtPort → MgtPort) : (s.modMgt f).mgt = f s.mgt := rfl
@[simp] theorem State.setCq_cellq_self (s : State) (q : Nat) (c : CellQ) : (s.setCq q c).cellq = tset (fun _ => {}) s.cellq q c := rfl

/-! ## Entries of tables -/

/-- A table after a write: the entry written, or the entry that was there. -/
theorem tget_tset {α : Type} [DecidableEq α] (d : Nat → α) (t : Tbl α) (k j : Nat) (v : α) :
    tget d (tset d t k v) j = if j = k then v else tget d t j := by
  split
  next heq => rw [heq, tget_tset_same]
  next hne => exact tget_tset_other _ _ _ _ _ hne

@[simp] theorem State.ordP_modOrd (s : State) (n m : Nat) (f : Ord → Ord) :
    (s.modOrd n f).ordP m = if m = n then f (s.ordP n) else s.ordP m := tget_tset ..

@[simp] theorem State.cq_setCq (s : State) (q k : Nat) (c : CellQ) : (s.setCq q c).cq k = if k = q then c else s.cq k := tget_tset ..

@[simp] theorem State.cq_setReg (s : State) (a q : Nat) (v : W) : (s.setReg a v).cq q = s.cq q := rfl
@[simp] theorem State.cq_emit (s : State) (o : Out) (q : Nat) : (s.emit o).cq q = s.cq q := rfl

/-- A queue reads as it did where the queues are the same. -/
theorem State.cq_congr {s t : State} (h : t.cellq = s.cellq) (q : Nat) : t.cq q = s.cq q := congrArg (tget _ · q) h

/-! ## Addresses -/

@[simp] theorem regAddr_inj (b c o p : Nat) : regAddr b o = regAddr c p ↔ b = c ∧ o % 0x10000 = p % 0x10000 := by
  unfold regAddr
  omega

/-! ## Registers under loops -/

/-- A loop whose steps leave a register leaves it. -/
theorem reg_each_of_mem {α : Type} {f : State → α → State} {a : Nat} (l : List α) (h : ∀ s, ∀ x ∈ l, (f s x).reg a = s.reg a) :
    ∀ s : State, (s.each l f).reg a = s.reg a := by
  induction l with
  | nil => exact fun _ => rfl
  | cons x xs ih =>
    exact fun s => (ih (fun s y hy => h s y (List.mem_cons_of_mem _ hy)) (f s x)).trans (h s x List.mem_cons_self)

/-- A loop that writes a value to each of the registers that a list numbers. -/
theorem reg_each_setReg {addr : Nat → Nat} {f : Nat → W} {j : Nat} (l : List Nat) (hinj : ∀ i ∈ l, addr i = addr j → i = j) : ∀ s : State,
    (s.each (l.map fun i => (i, f i)) fun s e => s.setReg (addr e.1) e.2).reg (addr j) = if j ∈ l then f j else s.reg (addr j) := by
  induction l with
  | nil => exact fun _ => rfl
  | cons i is ih =>
    intro s
    rw [List.map_cons, State.each, ih fun k hk => hinj k (List.mem_cons_of_mem _ hk), State.reg_setReg]
    by_cases hj : j ∈ is
    · rw [if_pos hj, if_pos (List.mem_cons_of_mem _ hj)]
    · by_cases he : addr j = addr i
      · obtain rfl := hinj i List.mem_cons_self he.symm
        rw [if_neg hj, if_pos rfl, if_pos List.mem_cons_self]
      · have hne : j ≠ i := fun h => he (congrArg addr h)
        rw [if_neg hj, if_neg he, if_neg (by simp [hne, hj])]

/-! ## Conditional updates -/

@[simp] theorem State.onlyIf_true (s : State) (f : State → State) : s.onlyIf true f = f s := rfl
@[simp] theorem State.onlyIf_false (s : State) (f : State → State) : s.onlyIf false f = s := rfl

/-! ## What changed -/

/-- Two states are the same but for part `q`. -/
def Part.Puts (q : Part) (s t : State) : Prop := ∀ p : Part, p ≠ q → p.same s t

theorem State.drawn_puts (s : State) : Part.free.Puts s s.drawn := by
  intro r hr
  cases r <;> simp_all [Part.same]
theorem State.emit_puts (s : State) (o : Out) : Part.out.Puts s (s.emit o) := by
  intro r hr
  cases r <;> simp_all [Part.same]
theorem State.setCq_puts (s : State) (q : Nat) (c : CellQ) : Part.cellq.Puts s (s.setCq q c) := by
  intro r hr
  cases r <;> simp_all [Part.same]
theorem State.setUlk_puts (s : State) (n : Nat) (p : UlkPort) : Part.ulk.Puts s (s.setUlk n p) := by
  intro r hr
  cases r <;> simp_all [Part.same]
theorem State.setChn_puts (s : State) (n : Nat) (p : Chn) : Part.chn.Puts s (s.setChn n p) := by
  intro r hr
  cases r <;> simp_all [Part.same]
theorem State.setWpa_puts (s : State) (n : Nat) (p : Wpa) : Part.wpa.Puts s (s.setWpa n p) := by
  intro r hr
  cases r <;> simp_all [Part.same]
theorem State.setLoop_puts (s : State) (i : Nat) (x : Loop) : Part.svo.Puts s (s.setLoop i x) := by
  intro r hr
  cases r <;> simp_all [Part.same]
theorem State.setAct_puts (s : State) (a : Nat) (x : Act) : Part.act.Puts s (s.setAct a x) := by
  intro r hr
  cases r <;> simp_all [Part.same]
theorem State.setOrd_puts (s : State) (n : Nat) (x : Ord) : Part.ord.Puts s (s.setOrd n x) := by
  intro r hr
  cases r <;> simp_all [Part.same]
theorem State.modOrd_puts (s : State) (n : Nat) (f : Ord → Ord) : Part.ord.Puts s (s.modOrd n f) := s.setOrd_puts _ _
theorem State.modMot_puts (s : State) (f : Mot → Mot) : Part.mot.Puts s (s.modMot f) := by
  intro r hr
  cases r <;> simp_all [Part.same]
theorem State.setHif_puts (s : State) (p : Nat) (x : HifPort) : Part.hif.Puts s (s.setHif p x) := by
  intro r hr
  cases r <;> simp_all [Part.same]
theorem State.setCtx_puts (s : State) (c : Nat) (x : Option Ctx) : Part.ctx.Puts s (s.setCtx c x) := by
  intro r hr
  cases r <;> simp_all [Part.same]
theorem State.modFw_puts (s : State) (f : Fw → Fw) : Part.fw.Puts s (s.modFw f) := by
  intro r hr
  cases r <;> simp_all [Part.same]
theorem State.setJub_puts (s : State) (k : Nat) (l : JubLink) : Part.jub.Puts s (s.setJub k l) := by
  intro r hr
  cases r <;> simp_all [Part.same]
theorem State.modVgl_puts (s : State) (f : Vgl → Vgl) : Part.vgl.Puts s (s.modVgl f) := by
  intro r hr
  cases r <;> simp_all [Part.same]
theorem State.modPwr_puts (s : State) (f : Pwr → Pwr) : Part.pwr.Puts s (s.modPwr f) := by
  intro r hr
  cases r <;> simp_all [Part.same]
theorem State.modClk_puts (s : State) (f : Clk → Clk) : Part.clk.Puts s (s.modClk f) := by
  intro r hr
  cases r <;> simp_all [Part.same]
theorem State.modFls_puts (s : State) (f : Fls → Fls) : Part.fls.Puts s (s.modFls f) := by
  intro r hr
  cases r <;> simp_all [Part.same]
theorem State.modSec_puts (s : State) (f : Sec → Sec) : Part.sec.Puts s (s.modSec f) := by
  intro r hr
  cases r <;> simp_all [Part.same]
theorem State.modDbg_puts (s : State) (f : Dbg → Dbg) : Part.dbg.Puts s (s.modDbg f) := by
  intro r hr
  cases r <;> simp_all [Part.same]
theorem State.modCal_puts (s : State) (f : Cal → Cal) : Part.cal.Puts s (s.modCal f) := by
  intro r hr
  cases r <;> simp_all [Part.same]
theorem State.modMgt_puts (s : State) (f : MgtPort → MgtPort) : Part.mgt.Puts s (s.modMgt f) := by
  intro r hr
  cases r <;> simp_all [Part.same]
theorem State.setReg_puts (s : State) (a : Nat) (v : W) : Part.regs.Puts s (s.setReg a v) := by
  intro r hr
  cases r <;> simp_all [Part.same]

section
variable {ps : List Part} {l : List Nat} {q : Part} {s t u : State}

theorem SameBut.refl (ps : List Part) (s : State) : SameBut ps s s := fun p _ => (Scope.part p).same_refl s

theorem SameBut.trans (h : SameBut ps s t) (h' : SameBut ps t u) : SameBut ps s u := fun p hp => Scope.same_trans (P := .part p) (h p hp) (h' p hp)

theorem SameBut.mono {qs : List Part} (h : SameBut ps s t) (hsub : ps ⊆ qs) : SameBut qs s t := fun p hp => h p fun hm => hp (hsub hm)

/-- One more part, of those named, may change. -/
theorem SameBut.step (h : SameBut ps s t) (hu : q.Puts t u) (hq : q ∈ ps := by decide) : SameBut ps s u :=
  h.trans fun p hp => hu p fun he => hp (he ▸ hq)

theorem RegsBut.refl (l : List Nat) (s : State) : RegsBut l s s := fun _ _ => rfl

theorem RegsBut.trans (h : RegsBut l s t) (h' : RegsBut l t u) : RegsBut l s u := fun a ha => (h' a ha).trans (h a ha)

theorem RegsBut.mono {l' : List Nat} (h : RegsBut l s t) (hsub : l ⊆ l') : RegsBut l' s t := fun a ha => h a fun hm => ha (hsub hm)

theorem RegsBut.of_regs (h : t.regs = s.regs) : RegsBut l s t := fun a _ => State.reg_congr h a

theorem RegsBut.step (h : RegsBut l s t) (hu : q.Puts t u) (hq : Part.regs ≠ q := by decide) : RegsBut l s u := h.trans (.of_regs (hu .regs hq))

/-- A register of those named may change. -/
theorem RegsBut.setReg {a : Nat} (h : RegsBut l s t) (v : W) (ha : a ∈ l := by simp) : RegsBut l s (t.setReg a v) :=
  h.trans fun b hb => (State.reg_setReg ..).trans (if_neg fun he : b = a => hb (he ▸ ha))

theorem Only.refl (ps : List Part) (l : List Nat) (s : State) : Only ps l s s := ⟨.refl l s, .refl _ s⟩

theorem Only.trans (h : Only ps l s t) (h' : Only ps l t u) : Only ps l s u := ⟨h.1.trans h'.1, h.2.trans h'.2⟩

theorem Only.mono {qs : List Part} {l' : List Nat} (h : Only ps l s t) (hps : ps ⊆ qs := by simp) (hl : l ⊆ l' := by simp) : Only qs l' s t :=
  ⟨h.1.mono hl, h.2.mono (List.cons_subset_cons _ hps)⟩

theorem Only.step (h : Only ps l s t) (hu : q.Puts t u) (hq : q ∈ ps := by decide) (hr : Part.regs ≠ q := by decide) : Only ps l s u :=
  ⟨h.1.step hu hr, h.2.step hu (List.mem_cons_of_mem _ hq)⟩

theorem Only.setReg {a : Nat} (h : Only ps l s t) (v : W) (ha : a ∈ l := by simp) : Only ps l s (t.setReg a v) :=
  ⟨h.1.setReg v ha, h.2.step (t.setReg_puts a v) List.mem_cons_self⟩

theorem Only.ite {c : Prop} [Decidable c] (ht : Only ps l s t) (hu : Only ps l s u) : Only ps l s (if c then t else u) := by
  split
  · exact ht
  · exact hu

theorem Only.onlyIf {f : State → State} (h : Only ps l s t) (c : Bool) (hf : Only ps l t (f t)) : Only ps l s (t.onlyIf c f) :=
  .ite (h.trans hf) h

end

/-! ## Flags that stay raised -/

theorem outsideCpl_regAddr {b o : Nat} (h : b ≠ bCPL) : OutsideCpl (regAddr b o) := by
  rw [OutsideCpl, blkOf_regAddr]
  exact h

/-- Setting a bit of a register clears none. -/
theorem State.rbit_setRbit_true_mono {s : State} {b j : Nat} (hj : j < 32) (h : s.rbit b j = true) (a i : Nat) :
    (s.setRbit a i true).rbit b j = true := s.rbit_raise_mono a i b j hj h

/-- A counter that advances clears no flag, but for those of its own register. -/
theorem State.rbit_bump_mono {s : State} {b j : Nat} (hj : j < 32) (h : s.rbit b j = true) {c : Ctr} (hne : b ≠ c.addr) :
    (s.bump c).1.rbit b j = true := by
  have hcount (v : W) : (s.setReg c.addr v).rbit b j = true := by simpa [State.rbit, hne] using h
  unfold State.bump
  dsimp only
  split
  · exact h
  · split
    · exact State.rbit_setRbit_true_mono hj (State.rbit_setRbit_true_mono hj (hcount _) _ _) _ _
    · exact hcount _

theorem State.rbit_count_mono {s : State} {b j : Nat} (hj : j < 32) (hb : OutsideCpl b) (h : s.rbit b j = true) {c : Ctr} (hne : b ≠ c.addr) :
    (s.count c).rbit b j = true := by
  have hbump := State.rbit_bump_mono hj h hne
  unfold State.count
  dsimp only
  split
  · rwa [State.rbit, State.almanac_reg _ _ _ _ _ _ hb]
  · exact hbump

theorem State.rbit_violate_mono {s : State} {b j : Nat} (hj : j < 32) (hb : OutsideCpl b) (h : s.rbit b j = true) {c : Ctr} (hne : b ≠ c.addr)
    (int bit : Nat) : (s.violate c int bit).rbit b j = true :=
  State.rbit_raise_mono _ _ _ _ _ hj (State.rbit_count_mono hj hb h hne)

/-! ## Frames as statements -/

/-- A register of a window outside the scopes of an operation reads as it did. -/
theorem reg_of_frame {s t : State} {a : Nat} (h : Fr (.win (blkOf a)) s t) : t.reg a = s.reg a := h.1 a rfl

end Sys2Proof.Machine
end

section
/-!
PROOFS. The governor's decision (R217 to R219): what BUDGET and USED hold while the waiting MOPs are considered, and which MOPs still wait.
-/
namespace Sys2Proof.Machine

/-! ## BUDGET and USED -/

/-- BUDGET, and the charge in use, are the same in two states. -/
def State.SameBudget (s t : State) : Prop :=
  t.rfld actGovBudget 0 16 = s.rfld actGovBudget 0 16 ∧ t.rfld actGovUsed 0 16 = s.rfld actGovUsed 0 16

theorem State.SameBudget.refl (s : State) : s.SameBudget s := ⟨rfl, rfl⟩

theorem State.SameBudget.trans {s t u : State} (h : s.SameBudget t) (h' : t.SameBudget u) : s.SameBudget u :=
  ⟨h'.1.trans h.1, h'.2.trans h.2⟩

/-- What leaves the registers of ACT leaves BUDGET and USED. -/
theorem State.sameBudget_of_frame {s t : State} (h : Fr (.win bACT) s t) : s.SameBudget t :=
  ⟨congrArg (fld · 0 16) (h.1 actGovBudget (by decide)), congrArg (fld · 0 16) (h.1 actGovUsed (by decide))⟩

theorem State.govTooSmall_sameBudget (s : State) (n : Nat) : s.SameBudget (s.govTooSmall n) :=
  State.sameBudget_of_frame (State.govTooSmall_frame n (Fr.refl s) ⟨rfl, rfl⟩)

/-- A MOP that starts writes one register of ACT, USED. -/
theorem State.reg_startMop (s : State) (n run seek : Nat) {a : Nat} (ha : blkOf a = bACT) :
    (s.startMop n run seek).reg a = (s.setRfld actGovUsed 0 16 (s.rfld actGovUsed 0 16 + run + seek)).reg a := by
  have hevt : a ≠ ordEvtPend n := by
    rintro rfl
    simp [ordEvtPend, bORD, bACT] at ha
    omega
  have hctr : ¬ (ordCtr n 0).Holds a := by
    rintro (rfl | rfl | rfl) <;> (simp [ordCtr, ordInt, bORD, bACT] at ha; omega)
  unfold State.startMop
  rw [State.count_reg _ _ _ (by rw [OutsideCpl, ha]; decide) hctr]
  simp [hevt]

/-- A MOP of cost 0 that starts leaves BUDGET and USED. -/
theorem State.startMop_sameBudget (s : State) (n : Nat) : s.SameBudget (s.startMop n 0 0) := by
  have hne : actGovBudget ≠ actGovUsed := by decide
  have hlt : s.rfld actGovUsed 0 16 < 2 ^ 16 := Nat.mod_lt _ (by decide)
  constructor
  · rw [State.rfld, State.reg_startMop _ _ _ _ (by decide)]
    simp [hne, State.rfld]
  · rw [State.rfld, State.reg_startMop _ _ _ _ (by decide)]
    simpa [fld_setFld_same] using Nat.mod_eq_of_lt hlt

/-- A MOP that starts leaves BUDGET. -/
theorem State.budget_startMop (s : State) (n run seek : Nat) :
    (s.startMop n run seek).rfld actGovBudget 0 16 = s.rfld actGovBudget 0 16 := by
  have hne : actGovBudget ≠ actGovUsed := by decide
  rw [State.rfld, State.reg_startMop _ _ _ _ (by decide)]
  simp [hne, State.rfld]

/-! ## Behind a MOP that waits -/

/-- The MOPs that still wait behind one that waits are some of those given, in the same order, and none exceeds the whole budget; BUDGET and
USED stay. -/
theorem State.govBehind_spec (l : List GovWait) : ∀ s : State, s.SameBudget (s.govBehind l) ∧ (s.govBehind l).gov.Sublist l ∧
    ∀ w ∈ (s.govBehind l).gov, w.run + w.seek ≤ s.rfld actGovBudget 0 16 := by
  induction l with
  | nil => exact fun s => ⟨.refl s, .refl _, fun w hw => absurd hw (by simp [State.govBehind])⟩
  | cons w ws ih =>
    intro s
    have hstep {u : State} (hu : s.SameBudget u) : s.SameBudget (u.govBehind ws) ∧ (u.govBehind ws).gov.Sublist (w :: ws) ∧
        ∀ x ∈ (u.govBehind ws).gov, x.run + x.seek ≤ s.rfld actGovBudget 0 16 := by
      obtain ⟨hsame, hsub, hle⟩ := ih u
      exact ⟨hu.trans hsame, hsub.cons w, hu.1 ▸ hle⟩
    unfold State.govBehind
    dsimp only
    split
    next => exact hstep (s.govTooSmall_sameBudget w.act)
    next hfits =>
      split
      next hzero =>
        obtain ⟨hrun, hseek⟩ : w.run = 0 ∧ w.seek = 0 := by omega
        rw [hrun, hseek]
        exact hstep (s.startMop_sameBudget w.act)
      next =>
        obtain ⟨hsame, hsub, hle⟩ := ih s
        refine ⟨hsame, hsub.cons_cons w, fun x hx => ?_⟩
        rcases List.mem_cons.mp hx with rfl | hx
        · exact Nat.not_lt.mp hfits
        · exact hle x hx

/-! ## The decision -/

/-- After the decision BUDGET stands, the MOPs that still wait are some of those given, in the same order, none of them exceeds the whole
budget, and the first does not fit beside what is in use. -/
theorem State.govDecide_spec (l : List GovWait) : ∀ s : State,
    (s.govDecide l).rfld actGovBudget 0 16 = s.rfld actGovBudget 0 16 ∧ (s.govDecide l).gov.Sublist l ∧
    (∀ w ∈ (s.govDecide l).gov, w.run + w.seek ≤ s.rfld actGovBudget 0 16) ∧
    ∀ w ws, (s.govDecide l).gov = w :: ws → s.rfld actGovBudget 0 16 < w.run + w.seek + (s.govDecide l).rfld actGovUsed 0 16 := by
  induction l with
  | nil =>
    intro s
    have hnil : (s.govDecide []).gov = [] := rfl
    exact ⟨rfl, .refl _, by simp [hnil], by simp [hnil]⟩
  | cons w ws ih =>
    intro s
    have hstep {u : State} (hu : u.rfld actGovBudget 0 16 = s.rfld actGovBudget 0 16) :
        (u.govDecide ws).rfld actGovBudget 0 16 = s.rfld actGovBudget 0 16 ∧ (u.govDecide ws).gov.Sublist (w :: ws) ∧
        (∀ x ∈ (u.govDecide ws).gov, x.run + x.seek ≤ s.rfld actGovBudget 0 16) ∧
        ∀ x xs, (u.govDecide ws).gov = x :: xs → s.rfld actGovBudget 0 16 < x.run + x.seek + (u.govDecide ws).rfld actGovUsed 0 16 := by
      obtain ⟨hbudget, hsub, hle, hfirst⟩ := ih u
      exact ⟨hbudget.trans hu, hsub.cons w, hu ▸ hle, hu ▸ hfirst⟩
    unfold State.govDecide
    dsimp only
    split
    next => exact hstep (s.govTooSmall_sameBudget w.act).1
    next hfits =>
      split
      next => exact hstep (s.budget_startMop _ _ _)
      next hover =>
        obtain ⟨⟨hbudget, hused⟩, hsub, hle⟩ := s.govBehind_spec ws
        refine ⟨hbudget, hsub.cons_cons w, fun x hx => ?_, fun x xs hcons => ?_⟩
        · rcases List.mem_cons.mp hx with rfl | hx
          · exact Nat.not_lt.mp hfits
          · exact hle x hx
        · obtain ⟨rfl, -⟩ := List.cons.inj hcons
          change _ < w.run + w.seek + ((s.govBehind ws).rfld actGovUsed 0 16)
          rw [hused]
          omega

/-- Settles O7: BUDGET is written, and the decision keeps it. -/
theorem governorDecides : Obligations.GovernorDecides := by
  intro v s
  have hwritten : (s.setReg actGovBudget (v &&& 0xFFFF)).rfld actGovBudget 0 16 = fld v 0 16 := by
    have hmask : v.toNat &&& 0xFFFF = v.toNat % 2 ^ 16 := Nat.and_two_pow_sub_one_eq_mod _ 16
    simp [State.rfld, fld, hmask]
  obtain ⟨hbudget, hsub, hle, hfirst⟩ := (s.setReg actGovBudget (v &&& 0xFFFF)).govDecide_spec s.gov
  rw [hwritten] at hbudget hle hfirst
  have hne : actGovBudget ≠ actGovUsed := by decide
  refine ⟨_, rfl, ?_, hle, fun w ws hcons => ?_, hsub⟩
  · simpa [State.govAdmit, State.rfld, hne] using hbudget
  · have hlt := hfirst w ws hcons
    simpa [State.govAdmit, State.rfld, fld_setFld_other] using hlt

end Sys2Proof.Machine
end

section
/-!
PROOFS. WAIT_RETURN (O57).
-/
namespace Sys2Proof.Machine

/-- WAIT_RETURN's next state for an engine that waits with no fatal notice and no overrun. -/
theorem State.waitReturn_of_waiting {s : State} {n c : Nat} {xa : W} (hphase : (s.ordP n).phase = .waiting c xa)
    (hfatal : (s.ordP n).fatal = 0) (hover : (s.ordP n).overrun = false) :
    s.waitReturn n = if s.waitCond n c xa = some true then s.resume n true
      else if (s.ordP n).ticked || s.rfld (ordEvtPend n) 0 5 != 0 then s.resume n false else s := by
  unfold State.waitReturn
  simp only [hphase, hfatal, hover]
  cases s.waitCond n c xa with
  | none => rfl
  | some b => cases b <;> rfl

/-- Settles O57: by what WAIT finds. -/
theorem waitReturnCompletes : Obligations.WaitReturnCompletes := by
  intro n s c xa hphase hfatal hover
  have hnext : exec (.waitReturn n) s = .next (s.waitReturn n) := rfl
  rw [State.waitReturn_of_waiting hphase hfatal hover] at hnext
  refine ⟨fun htrue => ?_, fun hfalse hwake => ?_, fun hfalse htick hpend => ?_⟩
  · rw [if_pos htrue] at hnext
    exact ⟨_, hnext, (s.ordP_modOrd ..).trans (if_pos rfl), (SameBut.refl _ s).step (s.modOrd_puts _ _)⟩
  · have hgo : ((s.ordP n).ticked || s.rfld (ordEvtPend n) 0 5 != 0) = true := by simpa using hwake
    rw [if_neg (by simp [hfalse]), if_pos hgo] at hnext
    exact ⟨_, hnext, (s.ordP_modOrd ..).trans (if_pos rfl), (SameBut.refl _ s).step (s.modOrd_puts _ _)⟩
  · rw [if_neg (by simp [hfalse]), if_neg (by simp [htick, hpend])] at hnext
    exact ⟨_, hnext, rfl⟩

end Sys2Proof.Machine
end

section
/-!
PROOFS. The cell pool's commands (O60): nothing is admitted where no producer waits, and each command moves packets, reservations and chain
items of the queues it names.
-/
namespace Sys2Proof.Machine

/-! ## Where no producer waits -/

/-- No producer waits at any queue. -/
def State.NoWaiters (s : State) : Prop := ∀ k, (s.cq k).waitPkts = []

/-- A change of one queue that adds no waiting producer. -/
theorem State.NoWaiters.setCq {s : State} (h : s.NoWaiters) {q : Nat} {c : CellQ} (hc : c.waitPkts = []) : (s.setCq q c).NoWaiters := by
  intro k
  rw [State.cq_setCq]
  split
  · exact hc
  · exact h k

theorem State.NoWaiters.congr {s t : State} (h : s.NoWaiters) (ht : t.cellq = s.cellq) : t.NoWaiters :=
  fun k => (congrArg CellQ.waitPkts (State.cq_congr ht k)).trans (h k)

/-- A loop over steps that change nothing changes nothing. -/
theorem State.each_fixed {α : Type} {f : State → α → State} {s : State} (h : ∀ x, f s x = s) (l : List α) : s.each l f = s := by
  induction l with
  | nil => rfl
  | cons x xs ih => rw [State.each, h x, ih]

theorem State.NoWaiters.admitQueue {s : State} (h : s.NoWaiters) (q : Nat) : s.admitQueue q = s := by
  rw [State.admitQueue, h q]
  rfl

theorem State.NoWaiters.admitWaiters {s : State} (h : s.NoWaiters) (q : Nat) : s.admitWaiters q = s := by
  rw [State.admitWaiters, h.admitQueue q]
  exact State.each_fixed h.admitQueue _

/-! ## Puts -/

/-- A finding of nothing leaves the state. -/
theorem State.sramSomewhere_clean (s : State) (g : Nat) : s.sramSomewhere g .clean = s := rfl

/-- A packet that fits goes to the end of an enabled queue, and the pool's counter of packets advances. -/
theorem State.put_of_room {s : State} {q : Nat} {p : Pkt} (hchain : ¬ (q < 32 ∧ s.onChain q = true)) (hen : s.qEnabled q = true)
    (hup : s.poolUp = true) (hwait : (s.cq q).waitPkts = []) (hroom : s.qRoom q p.bytes = true)
    (hcount : (s.reg (cplCtr 0).addr).toNat + 1 < 2 ^ 32 - 1) :
    s.put q p = (s.enterPkt q p).setReg (cplCtr 0).addr (BitVec.ofNat 32 ((s.reg (cplCtr 0).addr).toNat + 1)) := by
  have hput : s.putPkt q p = ((s.enterPkt q p).setReg (cplCtr 0).addr (BitVec.ofNat 32 ((s.reg (cplCtr 0).addr).toNat + 1)), false) := by
    rw [State.putPkt, if_neg hchain, if_neg (by simp [hen]), if_pos ⟨hup, hwait, hroom⟩]
    exact State.bump_counts _ _ hcount
  simp only [State.put, hput]
  rfl

/-- An item with room goes to the end of the chain that carries its class, and the pool's counter of items advances. -/
theorem State.put_of_chain {s : State} {q : Nat} {p : Pkt} (hchain : q < 32 ∧ s.onChain q = true) (hlen : Machine.partsOf p.bytes ≤ 16)
    (hroom : (s.cq q).stages + Machine.partsOf p.bytes ≤ 16) (hwait : (s.cq q).waitPkts = [])
    (hcount : (s.reg (cplCtr 3).addr).toNat + 1 < 2 ^ 32 - 1) :
    s.put q p = (s.setCq q { s.cq q with chain := (s.cq q).chain ++ [p] }).setReg (cplCtr 3).addr
      (BitVec.ofNat 32 ((s.reg (cplCtr 3).addr).toNat + 1)) := by
  have hput : s.putPkt q p = ((s.setCq q { s.cq q with chain := (s.cq q).chain ++ [p] }).setReg (cplCtr 3).addr
      (BitVec.ofNat 32 ((s.reg (cplCtr 3).addr).toNat + 1)), false) := by
    rw [State.putPkt, if_pos hchain, State.enterChain]
    dsimp only
    rw [if_neg (Nat.not_lt.mpr hlen), if_pos ⟨hroom, hwait⟩]
    exact State.bump_counts _ _ hcount
  simp only [State.put, hput]
  rfl

/-! ## Packets -/

/-- PACKET_WRITE into an enabled queue with room. -/
theorem exec_packetWrite_of_room {s : State} {q : Fin 1024} {body : List Byte} (hchain : ¬ (q.val < 32 ∧ s.onChain q = true))
    (hen : s.qEnabled q = true) (hup : s.poolUp = true) (hwait : (s.cq q).waitPkts = []) (hroom : s.qRoom q body.length = true)
    (hcount : (s.reg (cplCtr 0).addr).toNat + 1 < 2 ^ 32 - 1) :
    exec (.packetWrite q body) s = .next ((s.enterPkt q ⟨.bytes body, body.length, false⟩).setReg (cplCtr 0).addr
      (BitVec.ofNat 32 ((s.reg (cplCtr 0).addr).toNat + 1))) := by
  rw [← State.put_of_room (p := ⟨.bytes body, body.length, false⟩) hchain hen hup hwait hroom hcount]
  exact congrArg Host.Outcome.next (if_pos (.inr hen))

theorem exec_packetWrite_of_disabled {s : State} {q : Fin 1024} (body : List Byte) (hq : 32 ≤ q.val) (hen : s.qEnabled q = false) :
    exec (.packetWrite q body) s = .next (s.emit (.poolStatus q 0x21)) :=
  congrArg Host.Outcome.next (if_neg (by simp [hen, Nat.not_lt.mpr hq]))

/-- The packets that a consumer sees are the queue's. -/
theorem State.pkts_of_heads {s : State} {q : Nat} {p : Pkt} {ps : List Pkt} (h : s.heads q = p :: ps) : (s.cq q).pkts = p :: ps := by
  unfold State.heads at h
  split at h
  · exact absurd h (by simp)
  · exact h

/-- The queue without the head packet that its consumer takes. -/
def CellQ.taken (c : CellQ) (p : Pkt) (ps : List Pkt) : CellQ :=
  { c with pkts := ps, freedCount := c.freedCount + BitVec.ofNat 16 (cellsOf p.bytes) }

/-- Deciphering depends on the media keys alone. -/
theorem State.deciphered_congr {s t : State} (h : t.sec = s.sec) (b : Body) : t.deciphered b = s.deciphered b := by
  unfold State.deciphered
  rw [h]

/-- A head packet taken where no producer waits. -/
theorem State.takeHead_of_noWaiters {s : State} (hwait : s.NoWaiters) (q : Nat) (p : Pkt) (ps : List Pkt) :
    s.takeHead q p ps false = (s.setCq q ((s.cq q).taken p ps)).emit
      (.packet q (if 40 ≤ q ∧ q < 44 then s.deciphered p.body else p.body) p.poison) := by
  let u := s.setCq q ((s.cq q).taken p ps)
  have hnone : u.NoWaiters := hwait.setCq (hwait q)
  calc
    s.takeHead q p ps false = u.emit (.packet q (if 40 ≤ q ∧ q < 44 then u.deciphered p.body else p.body) (p.poison || false)) :=
      State.NoWaiters.admitWaiters (hnone.congr (t := u.emit _) rfl) q
    _ = _ := by rw [State.deciphered_congr (t := u) (s := s) rfl, Bool.or_false]

/-- The buffer's intake of a packet changes firmware's part alone. -/
theorem State.intake_puts (s : State) (q : Nat) (p : Pkt) (bad : Nat) : Part.fw.Puts s (s.intake q p bad) := by
  intro r hr
  unfold State.intake
  split
  · split
    · cases r <;> simp_all [Part.same]
    · exact (Scope.part r).same_refl s
  · exact (Scope.part r).same_refl s

/-- PACKET_TAKE without a finding and where no producer waits. -/
theorem exec_packetTake_of_noWaiters {s : State} {q : Fin 1024} {p : Pkt} {ps : List Pkt} (hwait : s.NoWaiters)
    (hhead : s.heads q = p :: ps) (inHeader : Bool) :
    exec (.packetTake q .clean inHeader) s = .next (((s.setCq q ((s.cq q).taken p ps)).emit
      (.packet q (if 40 ≤ q.val ∧ q.val < 44 then s.deciphered p.body else p.body) p.poison)).intake q p (if p.poison then 0x10 else 0)) := by
  rw [← State.takeHead_of_noWaiters hwait]
  change execPacketTake q .clean inHeader s = _
  unfold execPacketTake
  rw [hhead]
  rfl

/-- A head packet relinked where no producer waits. -/
theorem exec_packetRelink_of_noWaiters {s : State} {a b : Fin 1024} {p : Pkt} {ps : List Pkt} (hwait : s.NoWaiters)
    (hhead : s.heads a = p :: ps) (hab : a ≠ b) :
    exec (.packetRelink a b) s = .next ((s.setCq a ((s.cq a).taken p ps)).setCq b
      { s.cq b with pkts := (s.cq b).pkts ++ [p], pktCount := (s.cq b).pktCount + 1 }) := by
  have hba : b.val ≠ a.val := fun h => hab (Fin.ext h.symm)
  have hnone : ((s.setCq a ((s.cq a).taken p ps)).setCq b
      { s.cq b with pkts := (s.cq b).pkts ++ [p], pktCount := (s.cq b).pktCount + 1 }).NoWaiters :=
    State.NoWaiters.setCq (State.NoWaiters.setCq hwait (by exact hwait a)) (by exact hwait b)
  change Host.Outcome.next (s.relink a b) = _
  unfold State.relink
  rw [hhead, ← hnone.admitWaiters a]
  simp [hba, CellQ.taken]

/-! ## Shares, resets and chains -/

/-- Emptying the queues of a table leaves no packet in any. -/
theorem pkts_emptyQueues (t : Tbl CellQ) (q : Nat) : (tget (fun _ => ({} : CellQ)) (emptyQueues t) q).pkts = [] := by
  induction t with
  | nil => rfl
  | cons e t ih =>
    obtain ⟨k, c⟩ := e
    rw [emptyQueues, tget_tset]
    split
    · split <;> rfl
    · exact ih

/-- Every queue is empty of packets. -/
def State.NoPackets (s : State) : Prop := ∀ q, (s.cq q).pkts = []

theorem State.NoPackets.congr {s t : State} (h : s.NoPackets) (ht : t.cellq = s.cellq) : t.NoPackets :=
  fun q => (congrArg CellQ.pkts (State.cq_congr ht q)).trans (h q)

theorem State.NoPackets.setCq {s : State} (h : s.NoPackets) {q : Nat} {c : CellQ} (hc : c.pkts = []) : (s.setCq q c).NoPackets := by
  intro k
  rw [State.cq_setCq]
  split
  · exact hc
  · exact h k

/-- Counting changes registers alone. -/
theorem State.cellq_bump (s : State) (c : Ctr) : (s.bump c).1.cellq = s.cellq := by
  unfold State.bump
  dsimp only
  (repeat' split) <;> rfl

theorem State.cellq_bumpBy (s : State) (c : Ctr) (n : Nat) : (s.bumpBy c n).1.cellq = s.cellq := by
  unfold State.bumpBy
  dsimp only
  (repeat' split) <;> rfl

/-- A put to a class that its chain carries puts no packet into a queue. -/
theorem State.NoPackets.putPkt_of_chain {s : State} (h : s.NoPackets) {q : Nat} (hq : q < 32) (hup : s.poolUp = false) (p : Pkt) :
    (s.putPkt q p).1.NoPackets := by
  have hchain : q < 32 ∧ s.onChain q = true := ⟨hq, by simp [State.onChain, hup]⟩
  rw [State.putPkt, if_pos hchain, State.enterChain]
  dsimp only
  split
  · exact h
  · have hput (c : CellQ) (hc : c.pkts = (s.cq q).pkts) : (s.setCq q c).NoPackets := h.setCq (hc.trans (h q))
    have hbump {u : State} (hu : u.NoPackets) (c : Ctr) : (u.bump c).1.NoPackets := hu.congr (u.cellq_bump c)
    split
    · exact hbump (hput _ (by rfl)) _
    · split
      · exact hput _ rfl
      · exact (hbump (hput _ (by rfl)) (cplCtr 2)).congr (State.raise_cellq ..)

/-- CPL_STATUS is none of the registers that a counter of the pool writes. -/
theorem not_cplCtr_holds_cplStatus {i : Nat} (hi : i < 5) : ¬ (cplCtr i).Holds cplStatus := by
  simp only [Ctr.Holds, cplCtr, cplStatus, cplInt, regAddr_inj]
  omega

/-- A put leaves CPL_STATUS. -/
theorem State.reg_cplStatus_putPkt (s : State) (q : Nat) (p : Pkt) : (s.putPkt q p).1.reg cplStatus = s.reg cplStatus := by
  have hbump (u : State) {i : Nat} (hi : i < 5) : (u.bump (cplCtr i)).1.reg cplStatus = u.reg cplStatus :=
    u.bump_reg _ _ (not_cplCtr_holds_cplStatus hi)
  have hint : cplStatus ≠ cplInt := by decide
  unfold State.putPkt State.enterChain State.enterPkt
  dsimp only
  (repeat' split) <;> simp [hbump, hint]

theorem State.poolUp_congr {s t : State} (h : t.reg cplStatus = s.reg cplStatus) : t.poolUp = s.poolUp := by
  simp only [State.poolUp, State.poolInit, State.poolOos, State.rbit, h]

/-- While the pool is down, a record that a block of a critical class submits puts no packet into a queue. -/
theorem State.NoPackets.almanac {s : State} (h : s.NoPackets) (hup : s.poolUp = false) (code blk inst : Nat) (f : List (Nat × Nat))
    (hq : appendQueue blk < 32) : (s.almanac code blk inst f).NoPackets := by
  have hput := h.putPkt_of_chain hq hup
  unfold State.almanac State.submit
  dsimp only
  split
  · exact (hput _).putPkt_of_chain (by decide) ((State.poolUp_congr (s.reg_cplStatus_putPkt ..)).trans hup) _
  · exact hput _

/-- While the pool is down, counting what it lost puts no packet into a queue. -/
theorem State.NoPackets.countBy_lost {s : State} (h : s.NoPackets) (hup : s.poolUp = false) (n : Nat) : (s.countBy (cplCtr 2) n).NoPackets := by
  have hbump : (s.bumpBy (cplCtr 2) n).1.NoPackets := h.congr (s.cellq_bumpBy _ n)
  have hstatus := s.bumpBy_reg (cplCtr 2) n cplStatus (not_cplCtr_holds_cplStatus (by decide))
  unfold State.countBy
  dsimp only
  split
  · exact hbump.almanac ((State.poolUp_congr hstatus).trans hup) _ _ _ _ (by decide)
  · exact hbump

/-- A record leaves CPL_STATUS. -/
theorem State.reg_cplStatus_almanac (s : State) (code blk inst : Nat) (f : List (Nat × Nat)) :
    (s.almanac code blk inst f).reg cplStatus = s.reg cplStatus := by
  unfold State.almanac State.submit
  dsimp only
  split <;> simp [State.reg_cplStatus_putPkt]

theorem State.reg_cplStatus_countBy_lost (s : State) (n : Nat) : (s.countBy (cplCtr 2) n).reg cplStatus = s.reg cplStatus := by
  have hstatus := s.bumpBy_reg (cplCtr 2) n cplStatus (not_cplCtr_holds_cplStatus (by decide))
  unfold State.countBy
  dsimp only
  split
  · exact (State.reg_cplStatus_almanac ..).trans hstatus
  · exact hstatus

/-- The pool's queues emptied, and the pool in initialisation. -/
def State.poolEmptied (s : State) : State :=
  (((({ s with cellq := emptyQueues s.cellq } : State).setRbit cplStatus 0 true).setRbit cplStatus 1 false).setRbit cplStatus 2 false)

theorem State.reg_cplStatus_poolEmptied (s : State) :
    s.poolEmptied.reg cplStatus = putBit (putBit (putBit (s.reg cplStatus) 0 true) 1 false) 2 false := by
  have hreg : ({ s with cellq := emptyQueues s.cellq } : State).reg cplStatus = s.reg cplStatus := rfl
  simp [State.poolEmptied, hreg]

theorem State.noPackets_poolEmptied (s : State) : s.poolEmptied.NoPackets := pkts_emptyQueues s.cellq

theorem State.poolUp_poolEmptied (s : State) : s.poolEmptied.poolUp = false := by
  simp [State.poolUp, State.poolInit, State.rbit, State.reg_cplStatus_poolEmptied, bitAt_putBit]

/-- A pool reset: the queues emptied, and what they held counted as lost. -/
theorem State.poolReset_eq (s : State) : s.poolReset = s.poolEmptied.onlyIf (lostPackets s.cellq != 0) fun u =>
    (u.countBy (cplCtr 2) (lostPackets s.cellq)).raise cplInt 3 := rfl

theorem State.noPackets_poolReset (s : State) : s.poolReset.NoPackets := by
  rw [State.poolReset_eq, State.onlyIf]
  split
  · exact (s.noPackets_poolEmptied.countBy_lost s.poolUp_poolEmptied _).congr (State.raise_cellq ..)
  · exact s.noPackets_poolEmptied

theorem State.reg_cplStatus_poolReset (s : State) : s.poolReset.reg cplStatus = s.poolEmptied.reg cplStatus := by
  have hne : cplStatus ≠ cplInt := by decide
  rw [State.poolReset_eq, State.onlyIf]
  split
  · rw [State.reg_raise, if_neg hne, State.reg_cplStatus_countBy_lost]
  · rfl

/-- The chain's front item taken where no producer waits. -/
theorem exec_chainItemTake_of_item {s : State} {q : Fin 32} {p : Pkt} {ps : List Pkt} (hq : 6 ≤ q.val) (hpkts : (s.cq q).pkts = [])
    (hlost : (s.cq q).lost = 0) (hchain : (s.cq q).chain = p :: ps) (hwait : s.NoWaiters) :
    exec (.chainItemTake q) s = .next ((s.setCq q { s.cq q with chain := ps }).emit (.packet q p.body p.poison)) := by
  have hnone : (s.setCq q { s.cq q with chain := ps }).NoWaiters := State.NoWaiters.setCq hwait (by exact hwait q)
  have htake : s.chainTake q = (s.setCq q { s.cq q with chain := ps }, some p) := by
    rw [← hnone.admitWaiters q]
    simp [State.chainTake, hlost, hpkts, hchain]
  change execChainItemTake q s = _
  unfold execChainItemTake
  rw [if_neg (by simp [hpkts]), if_neg (by omega), if_neg (by omega), htake]

theorem exec_chainItemTake_of_lost {s : State} {q : Fin 32} (hq : 6 ≤ q.val) (hpkts : (s.cq q).pkts = []) (hlost : (s.cq q).lost ≠ 0) :
    exec (.chainItemTake q) s = .next ((s.setCq q { s.cq q with lost := 0 }).emit (.lostNotice q (s.cq q).lost)) := by
  have htake : s.chainTake q = ((s.setCq q { s.cq q with lost := 0 }).emit (.lostNotice q (s.cq q).lost), none) := by
    simp [State.chainTake, hlost]
  change execChainItemTake q s = _
  unfold execChainItemTake
  rw [if_neg (by simp [hpkts]), if_neg (by omega), if_neg (by omega), htake]

/-! ## The obligation -/

/-- Settles O60. -/
theorem cellPoolCommandsComplete : Obligations.CellPoolCommandsComplete := by
  intro s
  refine ⟨fun q body hchain hen hup hwait hroom hcount => ?_, fun q body hq hen => ?_, fun q inH p ps hhead hwait => ?_,
    fun a b p ps hhead hab hwait => ?_, fun q n hgrant => ?_, fun q n ns hreq hup hfits => ?_, fun q v hok hwait => ?_,
    fun q v hok => ?_, fun q hen hwait => ?_, fun q hen => ?_, ?_, fun hinit hwait => ?_, fun q body hchain hlen hroom hwait hcount => ?_,
    fun q p ps hq hpkts hlost hchain hwait => ?_, fun q hq hpkts hlost => ?_⟩
  · refine ⟨_, exec_packetWrite_of_room hchain hen hup hwait hroom hcount, ?_, ?_, ?_, fun k hk => ?_, ?_,
      ((Only.refl _ _ s).step (s.setCq_puts _ _)).setReg _⟩
    · simp [State.enterPkt]
    · simp [State.enterPkt]
    · simp [State.enterPkt]
    · simp [State.enterPkt, hk]
    · rw [State.reg_setReg, if_pos rfl, BitVec.toNat_ofNat, Nat.mod_eq_of_lt (by omega)]
  · exact ⟨_, exec_packetWrite_of_disabled body hq hen, rfl⟩
  · have hparts (u : State) (bad : Nat) := u.intake_puts q p bad
    refine ⟨_, exec_packetTake_of_noWaiters hwait hhead inH, ?_, ?_, ?_, ?_, ?_⟩
    · rw [State.cq_congr (hparts _ _ .cellq (by decide))]
      simp [CellQ.taken]
    · exact hparts _ _ .out (by decide)
    · rw [State.cq_congr (hparts _ _ .cellq (by decide))]
      simp [CellQ.taken]
    · exact (((RegsBut.refl _ s).step (s.setCq_puts _ _)).step (State.emit_puts _ _)).step (hparts _ _)
    · exact (((SameBut.refl _ s).step (s.setCq_puts _ _)).step (State.emit_puts _ _)).step (hparts _ _)
  · have hba : b.val ≠ a.val := fun h => hab (Fin.ext h.symm)
    refine ⟨_, exec_packetRelink_of_noWaiters hwait hhead hab, ?_, ?_, fun k hka hkb => ?_,
      ((SameBut.refl _ s).step (s.setCq_puts _ _)).step (State.setCq_puts _ _ _)⟩
    · simp [hba.symm, CellQ.taken]
    · simp
    · simp [hka, hkb]
  · refine ⟨s.reserve q n, ?_, ?_, (SameBut.refl _ s).step (s.setCq_puts _ _)⟩
    · change execReservationRequest q n s = _
      rw [execReservationRequest, hgrant]
    · simp [State.reserve]
  · refine ⟨(s.setCq q { s.cq q with waitResv := ns }).reserve q n, ?_, ?_,
      ((SameBut.refl _ s).step (s.setCq_puts _ _)).step (State.setCq_puts _ _ _)⟩
    · change execReservationGrant q s = _
      rw [execReservationGrant, hreq]
      exact congrArg Host.Outcome.next (if_pos ⟨hup, hfits⟩)
    · simp [State.reserve]
  · have hnone : (s.setReg (cplQShare q) v).NoWaiters := State.NoWaiters.congr hwait rfl
    refine ⟨s.setReg (cplQShare q) v, ?_, by simp, (Only.refl _ _ s).setReg v⟩
    change Host.Outcome.next (s.shareWrite q v) = _
    rw [State.shareWrite, if_pos hok, hnone.admitWaiters]
  · exact ⟨s.raise cplInt 5, congrArg Host.Outcome.next (if_neg (by simp [hok])), s.rbit_raise_same _ _ (by decide), s.raise_only _ _⟩
  · have hnone := State.NoWaiters.setCq hwait (q := q) (c := { s.cq q with pkts := [], resv := 0, waitResv := [], waitPkts := [], pktCount := 0, freedCount := 0 }) rfl
    refine ⟨_, (congrArg Host.Outcome.next (if_neg (by simp [hen]))).trans (congrArg Host.Outcome.next (hnone.admitWaiters q)), ?_, ?_, ?_, fun k hk => ?_,
      (SameBut.refl _ s).step (s.setCq_puts _ _)⟩
    · simp
    · simp
    · simp
    · simp [hk]
  · exact ⟨s, congrArg Host.Outcome.next (if_pos hen), rfl⟩
  · have hreg := s.reg_cplStatus_poolReset.trans s.reg_cplStatus_poolEmptied
    refine ⟨s.poolReset, rfl, s.noPackets_poolReset, ?_, ?_, ?_⟩
    all_goals simp [State.rbit, hreg, bitAt_putBit]
  · have hnone : (((s.setRbit cplStatus 0 false).setRbit cplStatus 2 true).raise cplInt 0).NoWaiters :=
      State.NoWaiters.congr hwait rfl
    have hne : cplStatus ≠ cplInt := by decide
    refine ⟨((s.setRbit cplStatus 0 false).setRbit cplStatus 2 true).raise cplInt 0, ?_, ?_, ?_, ?_,
      (((Only.refl _ _ s).setReg _).setReg _).setReg _⟩
    · rw [← hnone.admitWaiters 0]
      exact congrArg Host.Outcome.next (if_pos hinit)
    · simp [State.rbit, hne, bitAt_putBit]
    · simp [State.rbit, hne, bitAt_putBit]
    · exact State.rbit_raise_same _ _ _ (by decide)
  · have hput := State.put_of_chain (p := ⟨.bytes body, body.length, false⟩) ⟨q.isLt, hchain⟩ hlen hroom hwait hcount
    exact ⟨_, (congrArg Host.Outcome.next (if_pos hchain)).trans (congrArg Host.Outcome.next hput), by simp,
      ((Only.refl _ _ s).step (s.setCq_puts _ _)).setReg _⟩
  · exact ⟨_, exec_chainItemTake_of_item hq hpkts hlost hchain hwait, by simp, rfl,
      ((SameBut.refl _ s).step (s.setCq_puts _ _)).step (State.emit_puts _ _)⟩
  · exact ⟨_, exec_chainItemTake_of_lost hq hpkts hlost, by simp, rfl,
      ((SameBut.refl _ s).step (s.setCq_puts _ _)).step (State.emit_puts _ _)⟩

end Sys2Proof.Machine
end

section
/-!
PROOFS. The refusals of FLS (O32): a GO shows its command, and a refused one writes its code and the interrupt and no more.
-/
namespace Sys2Proof.Machine

/-! ## Refusals -/

/-- A refusal leaves the flash. -/
theorem State.fls_flsRefuse (s : State) (code : Nat) : (s.flsRefuse code).fls = s.fls :=
  (State.flsRefuse_frame code (Fr.refl s) (P := .part .fls) rfl).1

/-- A refusal writes its code, and a violation behind it leaves the code. -/
theorem State.reg_flsStatus_flsRefuse (s : State) (code : Nat) :
    (s.flsRefuse code).reg flsStatus = setFld (s.reg flsStatus) 16 16 code := by
  have hne : flsStatus ≠ flsInt := by decide
  unfold State.flsRefuse
  dsimp only
  split
  · have hctr : ¬ (flsCtr 4).Holds flsStatus := by simp [Ctr.Holds, flsCtr, flsStatus, flsInt]
    rw [State.violate_reg _ _ _ _ flsStatus (outsideCpl_regAddr (by decide)) hctr hne]
    simp [hne]
  · simp [hne]

/-- A refusal raises CMD_REFUSED, and a violation behind it leaves the flag. -/
theorem State.refused_flsRefuse (s : State) (code : Nat) : (s.flsRefuse code).rbit flsInt 1 = true := by
  have hraise : ((s.setRfld flsStatus 16 16 code).raise flsInt 1).rbit flsInt 1 = true := State.rbit_raise_same _ _ _ (by decide)
  unfold State.flsRefuse
  dsimp only
  split
  · exact State.rbit_violate_mono (by decide) (outsideCpl_regAddr (by decide)) hraise (by simp [flsCtr, flsInt]) _ _
  · exact hraise

/-! ## A GO of PROGRAM or ERASE -/

/-- A GO shows itself in FLS_CMD, which no refusal asks for. -/
theorem State.flsRefusal_flsCmdShow (s : State) (r : Requester) (op block page op' block' page' : Nat) :
    (s.flsCmdShow op block page).flsRefusal r op' block' page' = s.flsRefusal r op' block' page' := by
  have hctrl : flsCtrl ≠ flsCmdReg := by decide
  simp [State.flsCmdShow, State.flsRefusal, State.rbit, hctrl, State.fetchBank, State.flsTop]

/-- A GO that is refused, given while FLS does not initialise. -/
theorem State.flsCmd_of_refused {s : State} {r : Requester} {op block page code : Nat} (bits : Nat) (hready : s.rfld flsStatus 0 2 ≠ 3)
    (hop : op ≠ 3) (hcode : s.flsRefusal r op block page = code) (hne : code ≠ 0) :
    s.flsCmd r op block page bits = (s.flsCmdShow op block page).flsRefuse code := by
  have hstatus : flsStatus ≠ flsCmdReg := by decide
  have hready' : (s.flsCmdShow op block page).rfld flsStatus 0 2 ≠ 3 := by simpa [State.rfld, State.flsCmdShow, hstatus] using hready
  unfold State.flsCmd
  dsimp only
  rw [if_neg hready', State.flsGo]
  dsimp only
  rw [State.flsRefusal_flsCmdShow, hcode, if_neg hop, if_pos hne]

section
variable {r : Requester} {b : Fin 256} {p : Fin 512} {s : State} {code : Nat}

/-- What a refused GO leaves: the code, the flag, and the flash as it was. -/
theorem State.flsRefuse_leaves (s : State) (op block page : Nat) (hcode : code < 2 ^ 16) :
    let t := (s.flsCmdShow op block page).flsRefuse code
    t.rfld flsStatus 16 16 = code ∧ t.rbit flsInt 1 ∧ t.fls = s.fls := by
  refine ⟨?_, State.refused_flsRefuse _ _, State.fls_flsRefuse _ _⟩
  rw [State.rfld, State.reg_flsStatus_flsRefuse, fld_setFld_same _ _ _ _ (by decide), Nat.mod_eq_of_lt hcode]

theorem exec_flsProgram_refused (hready : s.rfld flsStatus 0 2 ≠ 3) (hrefused : s.flsRefusal r 1 b p = code) (hne : code ≠ 0)
    (hcode : code < 2 ^ 16) : Completes (.flsProgram r b p) s fun t => t.rfld flsStatus 16 16 = code ∧ t.rbit flsInt 1 ∧ t.fls = s.fls :=
  ⟨_, congrArg Host.Outcome.next (State.flsCmd_of_refused 0 hready (by decide) hrefused hne), s.flsRefuse_leaves 1 b p hcode⟩

theorem exec_flsErase_refused (hready : s.rfld flsStatus 0 2 ≠ 3) (hrefused : s.flsRefusal r 2 b 0 = code) (hne : code ≠ 0)
    (hcode : code < 2 ^ 16) : Completes (.flsErase r b) s fun t => t.rfld flsStatus 16 16 = code ∧ t.rbit flsInt 1 ∧ t.fls = s.fls :=
  ⟨_, congrArg Host.Outcome.next (State.flsCmd_of_refused 0 hready (by decide) hrefused hne), s.flsRefuse_leaves 2 b 0 hcode⟩

end

/-- Settles O32: each refusal is the first of R489's that applies. -/
theorem flashRefusals : Obligations.FlashRefusals := by
  intro r b p s hready
  refine ⟨fun hbusy => ⟨?_, ?_⟩, fun hwe hop => ⟨fun hsus => ?_, fun hbank => ?_, fun hbank hsus => ?_, fun hbank hhigh => ?_,
    fun hbank hhigh hsus => ?_, fun hbank hlow hpage => ?_⟩⟩
  · refine exec_flsProgram_refused hready ?_ (by decide) (by decide)
    rcases hbusy with h | h <;> simp [State.flsRefusal, h]
  · refine exec_flsErase_refused hready ?_ (by decide) (by decide)
    rcases hbusy with h | h <;> simp [State.flsRefusal, h]
  · exact exec_flsErase_refused hready (by simp [State.flsRefusal, hwe, hsus]) (by decide) (by decide)
  · exact exec_flsProgram_refused hready (by simp [State.flsRefusal, hwe, hop, hbank]) (by decide) (by decide)
  · exact exec_flsErase_refused hready (by simp [State.flsRefusal, hwe, hop, hbank, hsus]) (by decide) (by decide)
  · exact exec_flsProgram_refused hready (by simp [State.flsRefusal, hwe, hop, hbank, hhigh]) (by decide) (by decide)
  · exact exec_flsErase_refused hready (by simp [State.flsRefusal, hwe, hop, hbank, hhigh, hsus]) (by decide) (by decide)
  · refine exec_flsProgram_refused hready ?_ (by decide) (by decide)
    rcases hpage with h | h | h <;> simp [State.flsRefusal, hwe, hop, hbank, Nat.not_le.mpr hlow, h]

end Sys2Proof.Machine
end

section
/-!
PROOFS. The keys of SEC (O34): a command shows itself and BUSY, and writes one slot.
-/
namespace Sys2Proof.Machine

/-! ## Slots -/

/-- The wrapped key of a slot. -/
def State.mediaKey (s : State) (k : Nat) : List W := tget (fun _ => []) s.sec.media k

/-- The start of a command leaves the keys. -/
theorem State.sec_secStart (s : State) (op slot : Nat) (psk : Bool) :
    (s.secStart op slot psk).sec = { s.sec with cmd := some (op, slot, psk) } := rfl

/-- The start of a command leaves the wrapped key in SEC_WRAP. -/
theorem State.secWrap_secStart (s : State) (op slot : Nat) (psk : Bool) : (s.secStart op slot psk).secWrap = s.secWrap := by
  unfold State.secWrap
  refine List.map_congr_left fun i hi => ?_
  have hlt : i < 18 := mem_upto.mp hi
  have hcmd : (0x20 + 4 * i) % 0x10000 ≠ 0x10 := by omega
  have hstatus : (0x20 + 4 * i) % 0x10000 ≠ 4 := by omega
  simp [State.secStart, secStatus, secCmdReg, hcmd, hstatus]

theorem State.busy_secStart (s : State) (op slot : Nat) (psk : Bool) : (s.secStart op slot psk).rbit secStatus 1 = true :=
  State.rbit_setRbit_same _ _ _ _ (by decide)

/-- A slot that is written reads as written, and every other as before. -/
theorem State.mediaKey_setKeySlot (s : State) (slot k : Nat) (w : List W) :
    (s.setKeySlot slot w).mediaKey k = if k = slot then w else s.mediaKey k := tget_tset ..

/-- The slots that are shown leave BUSY. -/
theorem State.busy_setKeySlot (s : State) (slot : Nat) (w : List W) : (s.setKeySlot slot w).rbit secStatus 1 = s.rbit secStatus 1 := by
  have hlow : secStatus ≠ regAddr bSEC 0x80 := by decide
  have hhigh : secStatus ≠ regAddr bSEC 0x84 := by decide
  simp [State.setKeySlot, State.secShow, State.rbit, bitAt_setFld, hlow, hhigh]

/-! ## SEC_WRAP -/

/-- The wrapped key is put into SEC_WRAP. -/
def State.putWrap (s : State) (w : List W) : State :=
  s.each ((upto 18).zip w) fun s e => s.setReg (regAddr bSEC (0x20 + 4 * e.1)) e.2

theorem zip_map_self (l : List Nat) (f : Nat → W) : l.zip (l.map f) = l.map fun i => (i, f i) := by
  induction l with
  | nil => rfl
  | cons i is ih => simp [ih]

/-- SEC_WRAP reads back the wrapped key that was put. -/
theorem State.secWrap_putWrap (s : State) (f : Nat → W) : (s.putWrap ((upto 18).map f)).secWrap = (upto 18).map f := by
  refine List.map_congr_left fun j hj => ?_
  rw [State.putWrap, zip_map_self, reg_each_setReg (addr := fun i => regAddr bSEC (0x20 + 4 * i)), if_pos hj]
  intro i hi he
  have hlt := mem_upto.mp hi
  have hlt' := mem_upto.mp hj
  simp only [regAddr_inj] at he
  omega

/-- SEC_WRAP does not reach BUSY. -/
theorem State.busy_putWrap (s : State) (f : Nat → W) : (s.putWrap ((upto 18).map f)).rbit secStatus 1 = s.rbit secStatus 1 := by
  refine congrArg (bitAt · 1) (reg_each_of_mem _ (fun u e he => ?_) s)
  rw [zip_map_self] at he
  obtain ⟨i, hi, rfl⟩ := List.mem_map.mp he
  have hlt := mem_upto.mp hi
  have hne : secStatus ≠ regAddr bSEC (0x20 + 4 * i) := by
    simp only [secStatus, ne_eq, regAddr_inj]
    omega
  simp [hne]

theorem State.mediaKey_putWrap (s : State) (w : List W) (k : Nat) : (s.putWrap w).mediaKey k = s.mediaKey k := by
  have hsec : (s.putWrap w).sec = s.sec :=
    (State.each_frame (P := .part .sec) (fun u e => State.setReg_frame _ _ rfl (Fr.refl u)) _ (Fr.refl s)).1
  rw [State.mediaKey, hsec]
  rfl

/-! ## The obligation -/

/-- Settles O34. -/
theorem keyCommandsComplete : Obligations.KeyCommandsComplete := by
  refine ⟨fun slot s hidle => ?_, fun slot s hidle => ?_, fun slot s hidle hslot => ?_, fun slot s hidle => ?_, fun c s hcmd => ?_⟩
  · let u := s.secStart 1 slot false
    let w := (upto 18).map fun i => Config.freeWord (s.free + i)
    have hnext : exec (.secGenerate slot true) s = .next ((u.drawKey.1.setKeySlot slot w).putWrap w) :=
      congrArg Host.Outcome.next (if_neg (by simp [hidle]))
    have hkey (k : Nat) : ((u.drawKey.1.setKeySlot slot w).putWrap w).mediaKey k = if k = slot.val then w else s.mediaKey k :=
      (State.mediaKey_putWrap ..).trans (State.mediaKey_setKeySlot ..)
    refine ⟨_, hnext, (hkey slot).trans (if_pos rfl), ?_, ?_, fun k hk => (hkey k).trans (if_neg hk)⟩
    · exact (State.secWrap_putWrap ..).trans ((hkey slot).trans (if_pos rfl)).symm
    · rw [State.busy_putWrap, State.busy_setKeySlot]
      exact s.busy_secStart 1 slot false
  · have hkey (k : Nat) : ((s.secStart 2 slot false).setKeySlot slot (s.secStart 2 slot false).secWrap).mediaKey k =
        if k = slot.val then s.secWrap else s.mediaKey k := by rw [State.mediaKey_setKeySlot, State.secWrap_secStart]; rfl
    exact ⟨_, congrArg Host.Outcome.next (if_neg (by simp [hidle])), (hkey slot).trans (if_pos rfl),
      (State.busy_setKeySlot ..).trans (s.busy_secStart 2 slot false), fun k hk => (hkey k).trans (if_neg hk)⟩
  · have hnext : exec (.secUnwrap slot true true) s = .next ((s.secStart 2 slot true).modSec fun c =>
        { c with psk := tset (fun _ => []) c.psk slot (s.secStart 2 slot true).secWrap }) := by
      refine (congrArg Host.Outcome.next (if_neg (by simp [hidle]))).trans (congrArg Host.Outcome.next ?_)
      exact if_pos (decide_eq_true hslot)
    exact ⟨_, hnext, (tget_tset_same ..).trans (s.secWrap_secStart ..), rfl⟩
  · have hkey (k : Nat) : ((s.secStart 3 slot false).setKeySlot slot []).mediaKey k = if k = slot.val then [] else s.mediaKey k :=
      State.mediaKey_setKeySlot ..
    exact ⟨_, congrArg Host.Outcome.next (if_neg (by simp [hidle])), (hkey slot).trans (if_pos rfl), fun k hk => (hkey k).trans (if_neg hk)⟩
  · have hne : secStatus ≠ secInt := by decide
    have hnext : exec .secCmdDone s = .next (((s.modSec fun c => { c with cmd := none }).setRbit secStatus 1 false).raise secInt 0) := by
      change execSecCmdDone s = _
      rw [execSecCmdDone, hcmd]
    refine ⟨_, hnext, rfl, ?_, State.rbit_raise_same _ _ _ (by decide), (((RegsBut.refl _ s).step (s.modSec_puts _)).setReg _).setReg _⟩
    simp [State.rbit, hne, bitAt_putBit]

end Sys2Proof.Machine
end

section
/-!
PROOFS. The Brodvon packets' requests: one that passes R546's checks is answered with what it asks for; and OTP_PROGRAM (O11).
-/
namespace Sys2Proof.Machine

/-! ## Answers -/

/-- An answer goes out with its status and, where that is 0, its data. -/
theorem State.replied_mgtSend (s : State) (m tag st : Nat) (l : List Byte) (hl : st ≠ 0 → l = []) : Replied tag st l s (s.mgtSend m tag st l) := by
  have hout : ((s.modMgt fun p => { p with msgs := dropMsg m p.msgs }).count (mgtCtr 1)).out = s.out :=
    (State.count_frame_any _ (P := .part .out) rfl (Fr.refl _)).1
  have hdata : (if st = 0 then l else []) = l := by
    split
    next => rfl
    next h => exact (hl h).symm
  unfold Replied State.mgtSend
  dsimp only
  rw [State.emit_out_self, hout, hdata]

/-- An answer leaves every part but the registers, the cell pool, the port and what has gone out. -/
theorem State.mgtSend_sameBut (s : State) (m tag st : Nat) (l : List Byte) : SameBut replyParts s (s.mgtSend m tag st l) :=
  sameBut_of_frame (m := 0x1001018004000) (fun _ hp => State.mgtSend_frame m tag st l (Fr.refl s) hp) (by decide)

/-- The request passes R546's checks but for its lock and its parameters. -/
structure GoodHdr (h : MgtHdr) : Prop where
  iana : h.iana = 0x0001B7C3
  version : h.version = 1
  length : h.lengthOk = true
  reserved : h.reservedOk = true

section
variable {h : MgtHdr} {s : State} {lock : Option Nat} {f : State → State × Nat × List Byte}

/-- The lock of a request's category is open. -/
def State.mgtOpen (s : State) : Option Nat → Bool
  | some k => !s.rbit mgtLock k
  | none => true

/-- A request that passes every check gets its own answer. -/
theorem State.mgtReq_of_good {params : Bool} (hgood : GoodHdr h) (hlock : s.mgtOpen lock = true) (hparams : params = true) :
    ∃ m, s.mgtReq h lock params f = (f s).1.mgtSend m h.tag (f s).2.1 (f s).2.2 := by
  obtain ⟨hiana, hversion, hlen, hres⟩ := hgood
  subst hparams
  unfold State.mgtReq
  dsimp only
  rw [if_neg (by simp [hiana, hversion])]
  cases lock with
  | none => exact ⟨_, by simp [hlen, hres]; rfl⟩
  | some k =>
    have hopen : s.rbit mgtLock k = false := by simpa [State.mgtOpen] using hlock
    exact ⟨_, by simp [hlen, hres, hopen]; rfl⟩

end

/-! ## OTP_PROGRAM -/

/-- A word that is programmed holds the value if it held none; every other word is as it was. -/
theorem State.otpWord_otpSet (s : State) (w x : Nat) (v : W) :
    (s.otpSet w v).otpWord x = if x = w ∧ s.otpWord w = 0 then v else s.otpWord x := by
  unfold State.otpSet
  split
  next hzero =>
    rw [State.otpWord, State.modFls_fls_self, tget_tset]
    by_cases hx : x = w
    · rw [if_pos hx, if_pos ⟨hx, hzero⟩]
    · rw [if_neg hx, if_neg fun h => hx h.1]
      rfl
  next hset => exact (if_neg fun h => hset h.2).symm

/-- An answer leaves the OTP row. -/
theorem State.otpWord_mgtSend (s : State) (m tag st : Nat) (l : List Byte) (x : Nat) : (s.mgtSend m tag st l).otpWord x = s.otpWord x := by
  have hfls : (s.mgtSend m tag st l).fls = s.fls := s.mgtSend_sameBut m tag st l .fls (by decide)
  rw [State.otpWord, hfls]
  rfl

/-- What OTP_PROGRAM answers when it passes R546's checks (R550). -/
def State.otpAnswer (s : State) (w : Nat) (v : W) : State × Nat × List Byte :=
  if !(3 ≤ w / 128 ∧ w / 128 ≤ 5) ∧ !(decide (899 ≤ w) && decide (w ≤ 901)) then (s, 0x304, [])
  else if s.otpLocked (w / 128) then (s, 0x407, [])
  else ((s.otpSet w v).almanac 0x8007 0xFFFF 0 [(4, w), (4, v.toNat)], 0, [])

theorem exec_otpProgram_of_good {h : MgtHdr} {s : State} (hgood : GoodHdr h) (hlock : s.rbit mgtLock 4 = false) {w : Nat} (hw : w < 1024) (v : W) :
    ∃ m, exec (.otpProgram h w v) s = .next ((s.otpAnswer w v).1.mgtSend m h.tag (s.otpAnswer w v).2.1 (s.otpAnswer w v).2.2) := by
  obtain ⟨m, hm⟩ := State.mgtReq_of_good (s := s) (lock := some 4) (params := decide (w ≤ 1023)) (f := (·.otpAnswer w v)) hgood
    (by simp [State.mgtOpen, hlock]) (decide_eq_true (Nat.le_of_lt_succ hw))
  exact ⟨m, congrArg Host.Outcome.next hm⟩

/-- The word's sector, and whether the word is a lock word, as R550 tells them apart. -/
theorem otpTaken_iff (w : Nat) : ((!decide (3 ≤ w / 128 ∧ w / 128 ≤ 5)) = true ∧ (!(decide (899 ≤ w) && decide (w ≤ 901))) = true) ↔
    ¬ (3 * 128 ≤ w ∧ w < 6 * 128) ∧ ¬ (7 * 128 + 3 ≤ w ∧ w ≤ 7 * 128 + 5) := by
  simp only [Bool.not_eq_true', decide_eq_false_iff_not, Bool.and_eq_false_iff]
  omega

theorem State.otpAnswer_denied {s : State} {w : Nat} (v : W) (hdata : ¬ (3 * 128 ≤ w ∧ w < 6 * 128))
    (hlockWord : ¬ (7 * 128 + 3 ≤ w ∧ w ≤ 7 * 128 + 5)) : s.otpAnswer w v = (s, 0x304, []) :=
  if_pos ((otpTaken_iff w).mpr ⟨hdata, hlockWord⟩)

theorem State.otpAnswer_locked {s : State} {w : Nat} (v : W) (hword : (3 * 128 ≤ w ∧ w < 6 * 128) ∨ (7 * 128 + 3 ≤ w ∧ w ≤ 7 * 128 + 5))
    (hlocked : s.otpLocked (w / 128) = true) : s.otpAnswer w v = (s, 0x407, []) :=
  (if_neg fun h => absurd ((otpTaken_iff w).mp h) (by tauto)).trans (if_pos hlocked)

theorem State.otpAnswer_taken {s : State} {w : Nat} (v : W) (hword : (3 * 128 ≤ w ∧ w < 6 * 128) ∨ (7 * 128 + 3 ≤ w ∧ w ≤ 7 * 128 + 5))
    (hopen : s.otpLocked (w / 128) = false) :
    s.otpAnswer w v = ((s.otpSet w v).almanac 0x8007 0xFFFF 0 [(4, w), (4, v.toNat)], 0, []) :=
  (if_neg fun h => absurd ((otpTaken_iff w).mp h) (by tauto)).trans (if_neg (by simp [hopen]))

/-- A request that is refused leaves the OTP row, and its status goes out. -/
theorem otpProgram_refused {h : MgtHdr} {s : State} (hgood : GoodHdr h) (hlock : s.rbit mgtLock 4 = false) {w st : Nat} (hw : w < 1024) {v : W}
    (hanswer : s.otpAnswer w v = (s, st, [])) :
    Completes (.otpProgram h w v) s fun t => Replied h.tag st [] s t ∧ ∀ x, t.otpWord x = s.otpWord x := by
  obtain ⟨m, hm⟩ := exec_otpProgram_of_good hgood hlock hw v
  rw [hanswer] at hm
  exact ⟨_, hm, s.replied_mgtSend m h.tag st [] fun _ => rfl, s.otpWord_mgtSend m h.tag st []⟩

/-- A word that is taken is programmed once, recorded, and answered. -/
theorem otpProgram_taken {h : MgtHdr} {s : State} (hgood : GoodHdr h) (hlock : s.rbit mgtLock 4 = false) {w : Nat} (hw : w < 1024) {v : W}
    (hanswer : s.otpAnswer w v = ((s.otpSet w v).almanac 0x8007 0xFFFF 0 [(4, w), (4, v.toNat)], 0, [])) :
    Completes (.otpProgram h w v) s fun t => t.otpWord w = (if s.otpWord w = 0 then v else s.otpWord w) ∧
      (∀ x, x ≠ w → t.otpWord x = s.otpWord x) ∧ Replied h.tag 0 [] s t ∧
      ∃ m, t = ((s.otpSet w v).almanac 0x8007 0xFFFF 0 [(4, w), (4, v.toNat)]).mgtSend m h.tag 0 [] := by
  let u := (s.otpSet w v).almanac 0x8007 0xFFFF 0 [(4, w), (4, v.toNat)]
  have hword (x : Nat) : u.otpWord x = if x = w ∧ s.otpWord w = 0 then v else s.otpWord x := by
    have hfls : u.fls = (s.otpSet w v).fls := (State.almanac_frame _ _ _ _ (P := .part .fls) (Fr.refl _) rfl).1
    rw [State.otpWord, hfls]
    exact s.otpWord_otpSet w x v
  have hout : u.out = s.out := by
    have hrecord : u.out = (s.otpSet w v).out := (State.almanac_frame _ _ _ _ (P := .part .out) (Fr.refl _) rfl).1
    rw [hrecord, State.otpSet]
    split <;> rfl
  obtain ⟨m, hm⟩ := exec_otpProgram_of_good hgood hlock hw v
  rw [hanswer] at hm
  refine ⟨_, hm, ?_, fun x hx => ?_, ?_, m, rfl⟩
  · rw [State.otpWord_mgtSend, hword]
    simp
  · rw [State.otpWord_mgtSend, hword, if_neg fun h => hx h.1]
  · exact (u.replied_mgtSend m h.tag 0 [] fun _ => rfl).trans (by rw [hout])

/-- Settles O11: by the sector of the word. -/
theorem otpProgramRule : Obligations.OtpProgramRule := by
  intro h w v s hiana hversion hlen hres hlock hw data lockWord kept
  have hgood : GoodHdr h := ⟨hiana, hversion, hlen, hres⟩
  refine ⟨fun hdata hlockWord => ?_, fun hdata hlocked => ?_, fun hlockWord hlocked => ?_, fun htaken => ?_⟩
  · exact otpProgram_refused hgood hlock hw (State.otpAnswer_denied v hdata hlockWord)
  · exact otpProgram_refused hgood hlock hw (State.otpAnswer_locked v (.inl hdata) hlocked)
  · have hsector : w / 128 = 7 := by
      obtain ⟨hlo, hhi⟩ := hlockWord
      omega
    exact otpProgram_refused hgood hlock hw (State.otpAnswer_locked v (.inr hlockWord) (by rw [hsector]; exact hlocked))
  · refine otpProgram_taken hgood hlock hw (State.otpAnswer_taken v (htaken.imp And.left And.left) ?_)
    rcases htaken with ⟨-, hopen⟩ | ⟨⟨hlo, hhi⟩, hopen⟩
    · exact hopen
    · have hsector : w / 128 = 7 := by omega
      rwa [hsector]

end Sys2Proof.Machine
end

section
/-!
PROOFS. Power, the reset pins and the resets that are asked for (O13, O14): what a reset puts last stands, and what it leaves of the rest
follows from the frames of its parts.
-/
namespace Sys2Proof.Machine

set_option Elab.async false

/-! ## Windows -/

/-- A register of a window that is cleared reads its reset value. -/
theorem State.reg_clearWindow_in (s : State) {b a : Nat} (h : InBlock b a) : (s.clearWindow b).reg a = regReset a :=
  (State.reg_dropRegs ..).trans (if_pos h)

/-- A register outside a window that is cleared reads as it did. -/
theorem State.reg_clearWindow_out (s : State) {b a : Nat} (h : ¬ InBlock b a) : (s.clearWindow b).reg a = s.reg a :=
  (State.reg_dropRegs ..).trans (if_neg h)

theorem inBlock_regAddr (b o : Nat) : InBlock b (regAddr b o) := by
  unfold InBlock regAddr
  omega

theorem not_inBlock_regAddr {b c : Nat} (h : b ≠ c) (o : Nat) : ¬ InBlock b (regAddr c o) := by
  unfold InBlock regAddr
  omega

/-! ## Power-on and pin reset -/

/-- The blocks reset with every domain on. -/
@[irreducible] def State.blocksReset (s : State) : State := ({ s with pwr := { s.pwr with off := 0, rails := true } } : State).each wideBlocks State.resetBlock

theorem State.wideReset_eq (s : State) : s.wideReset =
    { s.blocksReset with ltime := 0, vgl := { s.blocksReset.vgl with reload := true, leapFrom := none, mainLow := false } } := by
  unfold State.wideReset State.blocksReset
  rfl

theorem State.vgl_blocksReset (s : State) : s.blocksReset.vgl = s.vgl := by
  unfold State.blocksReset
  exact (State.each_frame (P := .part .vgl) (fun u i => State.resetBlock_frame i (Fr.refl u) rfl) wideBlocks (Fr.refl _)).1

theorem State.por_wideReset (s : State) : s.wideReset.vgl.por = s.vgl.por := by
  rw [State.wideReset_eq]
  dsimp only
  rw [State.vgl_blocksReset]

theorem State.ltime_wideReset (s : State) : s.wideReset.ltime = 0 := by
  rw [State.wideReset_eq]

/-- The controller behind a power-on or pin reset, but for CLK. -/
@[irreducible] def State.hardCleared (s : State) : State := s.almCut.flsCut.wideReset.flsReset.almReset

/-- What such a reset puts last: CLK in its reset state but for the cause, and DBG with the straps. -/
def State.hardPut (s : State) (cause : Nat) (te mm : Bool) : State :=
  let s := (s.clkClear false).setRbit clkCause cause true
  { s.clearWindow bDBG with dbg := { testEn := te, mgtMode := mm }, cal := { s.cal with hot := 0 } }

theorem State.hardReset_eq (s : State) (cause : Nat) (te mm : Bool) : s.hardReset cause te mm = s.hardCleared.hardPut cause te mm := by
  delta State.hardReset State.hardCleared State.hardPut
  exact Eq.refl _

theorem State.ltime_hardCleared (s : State) : s.hardCleared.ltime = 0 := by
  unfold State.hardCleared
  generalize hu : s.almCut.flsCut = u
  have hkept : u.wideReset.flsReset.almReset.ltime = u.wideReset.ltime :=
    (State.almReset_frame (P := .part .ltime) (State.flsReset_frame (Fr.refl u.wideReset) rfl) rfl).1
  rw [hkept, State.ltime_wideReset]

theorem State.por_hardCleared (s : State) : s.hardCleared.vgl.por = s.vgl.por := by
  unfold State.hardCleared
  have hcut : s.almCut.flsCut.vgl = s.vgl := (State.flsCut_frame (P := .part .vgl) (State.almCut_frame (Fr.refl s) rfl) rfl).1
  generalize s.almCut.flsCut = u at hcut ⊢
  have hkept : u.wideReset.flsReset.almReset.vgl = u.wideReset.vgl :=
    (State.almReset_frame (P := .part .vgl) (State.flsReset_frame (Fr.refl u.wideReset) rfl) rfl).1
  rw [hkept, State.por_wideReset, hcut]

section
variable (s : State) (cause : Nat) (te mm : Bool)

theorem State.dbg_hardReset : (s.hardReset cause te mm).dbg = { testEn := te, mgtMode := mm } := by
  rw [State.hardReset_eq]
  rfl

theorem State.clk_hardReset : (s.hardReset cause te mm).clk = {} := by
  rw [State.hardReset_eq]
  rfl

theorem State.ltime_hardReset : (s.hardReset cause te mm).ltime = 0 := by
  rw [State.hardReset_eq]
  exact s.ltime_hardCleared

theorem State.por_hardReset : (s.hardReset cause te mm).vgl.por = s.vgl.por := by
  rw [State.hardReset_eq]
  exact s.por_hardCleared

/-- The cause of a power-on or pin reset is recorded. -/
theorem State.cause_hardReset {cause : Nat} (hc : cause < 32) : (s.hardReset cause te mm).rbit clkCause cause = true := by
  rw [State.hardReset_eq]
  refine (congrArg (bitAt · cause) (State.reg_clearWindow_out _ (not_inBlock_regAddr (by decide) _))).trans ?_
  exact State.rbit_setRbit_same _ _ _ _ hc

/-- LOCK is clear behind a power-on or pin reset. -/
theorem State.lock_hardReset : (s.hardReset cause te mm).rbit dbgCtrl 1 = false := by
  rw [State.hardReset_eq]
  refine (congrArg (bitAt · 1) (State.reg_clearWindow_in _ (inBlock_regAddr _ _))).trans ?_
  decide +kernel

end

/-! ## The obligation on power and pins -/

/-- The Ordo engines at reset, with stores that read 0. -/
def State.noOrd (s : State) : State := { s with ord := [] }

@[simp] theorem State.reg_noOrd (s : State) (a : Nat) : s.noOrd.reg a = s.reg a := rfl

/-- What POWER_ON_RESET puts behind the reset of every block: the Ordo stores, VIGIL_POR and the wake source. -/
def State.poweredOn (s : State) (por lost : Bool) : State :=
  ((s.noOrd.modCal fun c => { c with tripped := false }).onlyIf por fun s =>
    (s.modVgl fun v => { v with por := false }).setRbit clkCause 7 true).onlyIf lost fun s => s.setReg vglWakeSrc 0x100

theorem exec_powerOnReset (te mm : Bool) (s : State) :
    exec (.powerOnReset te mm) s = .next ((s.hardReset 0 te mm).poweredOn s.vgl.por (!s.pwr.rails && !s.rbit vglStatus 3)) := by
  change execPowerOnReset te mm s = _
  unfold execPowerOnReset
  generalize s.hardReset 0 te mm = u
  rfl

/-- The registers that it puts. -/
theorem State.reg_poweredOn (s : State) (por lost : Bool) (a : Nat) : (s.poweredOn por lost).reg a =
    if lost = true ∧ a = vglWakeSrc then 0x100 else if por = true ∧ a = clkCause then putBit (s.reg clkCause) 7 true else s.reg a := by
  cases por <;> cases lost <;> simp [State.poweredOn]

/-- VIGIL_POR is taken. -/
theorem State.por_poweredOn {s : State} {por : Bool} (h : s.vgl.por = por) (lost : Bool) : (s.poweredOn por lost).vgl.por = false := by
  cases por
  · cases lost <;> exact h
  · cases lost <;> rfl

/-- A flag of a register other than the wake source stays as the reset left it, or is set. -/
theorem State.rbit_poweredOn_cause {s : State} (h : s.rbit clkCause 0 = true) (por lost : Bool) :
    (s.poweredOn por lost).rbit clkCause 0 = true ∧ (por = true → (s.poweredOn por lost).rbit clkCause 7 = true) := by
  have hne : clkCause ≠ vglWakeSrc := by decide
  have hbit : bitAt (s.reg clkCause) 0 = true := h
  constructor
  · cases por <;> simp [State.rbit, State.reg_poweredOn, hne, hbit, bitAt_putBit]
  · rintro rfl
    simp [State.rbit, State.reg_poweredOn, hne, bitAt_putBit]

theorem State.rbit_poweredOn_dbgCtrl (s : State) (por lost : Bool) : (s.poweredOn por lost).rbit dbgCtrl 1 = s.rbit dbgCtrl 1 := by
  have hcause : dbgCtrl ≠ clkCause := by decide
  have hwake : dbgCtrl ≠ vglWakeSrc := by decide
  simp [State.rbit, State.reg_poweredOn, hcause, hwake]

/-- It leaves every other part. -/
theorem State.poweredOn_sameBut (s : State) (por lost : Bool) : SameBut [.regs, .ord, .vgl, .cal] s (s.poweredOn por lost) := by
  have hord : Part.ord.Puts s s.noOrd := by
    intro p hp
    cases p <;> simp_all [Part.same, State.noOrd]
  have hput := ((SameBut.refl [.regs, .ord, .vgl, .cal] s).step hord).step (State.modCal_puts _ fun c => { c with tripped := false })
  have hpor (u : State) : SameBut [.regs, .ord, .vgl, .cal] u ((u.modVgl fun v => { v with por := false }).setRbit clkCause 7 true) :=
    ((SameBut.refl _ u).step (u.modVgl_puts _)).step (State.setReg_puts _ _ _)
  have hlost (u : State) : SameBut [.regs, .ord, .vgl, .cal] u (u.setReg vglWakeSrc 0x100) := (SameBut.refl _ u).step (u.setReg_puts _ _)
  cases por
  · cases lost
    · exact hput
    · exact hput.trans (hlost _)
  · cases lost
    · exact hput.trans (hpor _)
    · exact (hput.trans (hpor _)).trans (hlost _)

theorem State.ord_poweredOn (s : State) (por lost : Bool) : (s.poweredOn por lost).ord = [] := by
  cases por <;> cases lost <;> rfl

/-- A cluster reset. -/
theorem State.clusterReset_only (s : State) : Only [.clk, .fls] [clkCause, dbgCtrl] s s.clusterReset := by
  let u : State := s.modFls fun f => { f with fetch := f.fetch.filter fun e => decide (8 ≤ e.1) }
  have hclk : Part.clk.Puts u (u.modClk fun c => { c with boot := 6, cluster := true, kicker := none }) := u.modClk_puts _
  exact (((Only.refl _ _ s).step (s.modFls_puts _)).step hclk).setReg _ |>.setReg _ (by simp [dbgCtrl])

theorem State.clusterReset_leaves (s : State) : s.clusterReset.rbit clkCause 6 = true ∧ s.clusterReset.clk.boot = 6 ∧
    s.clusterReset.clk.cluster = true ∧ s.clusterReset.rbit dbgCtrl 0 = false := by
  have hne : clkCause ≠ regAddr bDBG 0 := by decide
  refine ⟨?_, rfl, rfl, State.rbit_setRbit_same _ _ _ _ (by decide)⟩
  simp [State.clusterReset, State.rbit, hne, bitAt_putBit]

/-- Settles O13. -/
theorem powerAndPinResetsComplete : Obligations.PowerAndPinResetsComplete := by
  refine ⟨fun s => ?_, fun te mm s => ?_, fun te mm s => ?_, fun s => ?_, fun vbat s => ?_, fun r s hr => ?_, fun s => ?_⟩
  · exact ⟨_, rfl, rfl, rfl, fun a => ⟨s.reg_clearWindow_in, s.reg_clearWindow_out⟩⟩
  · have hcause := s.cause_hardReset te mm (cause := 0) (by decide)
    have hpor := s.por_hardReset 0 te mm
    have hkeep := (s.hardReset 0 te mm).poweredOn_sameBut s.vgl.por (!s.pwr.rails && !s.rbit vglStatus 3)
    obtain ⟨hzero, hseven⟩ := State.rbit_poweredOn_cause hcause s.vgl.por (!s.pwr.rails && !s.rbit vglStatus 3)
    exact ⟨_, exec_powerOnReset te mm s, hzero, hseven, State.por_poweredOn hpor _,
      (hkeep .clk (by decide)).trans (s.clk_hardReset 0 te mm), (hkeep .ltime (by decide)).trans (s.ltime_hardReset 0 te mm),
      State.ord_poweredOn .., (hkeep .dbg (by decide)).trans (s.dbg_hardReset 0 te mm),
      (State.rbit_poweredOn_dbgCtrl ..).trans (s.lock_hardReset 0 te mm)⟩
  · exact ⟨_, rfl, s.cause_hardReset te mm (by decide), s.clk_hardReset 1 te mm, s.ltime_hardReset 1 te mm, s.dbg_hardReset 1 te mm,
      s.lock_hardReset 1 te mm⟩
  · exact ⟨_, rfl, rfl, rfl, rfl, (SameBut.refl _ s).step (s.modPwr_puts fun p =>
      { p with rails := false, off := 0xF7F, entry := none, exit := none, hold := none })⟩
  · exact ⟨_, rfl, State.rbit_setRbit_same _ _ _ _ (by decide), (Only.refl _ _ s).setReg _⟩
  · obtain ⟨hcause, hboot, hcluster, hhalt⟩ := s.clusterReset_leaves
    exact ⟨_, congrArg Host.Outcome.next (if_pos hr), hcause, hboot, hcluster, hhalt, s.clusterReset_only⟩
  · exact ⟨_, rfl, rfl, rfl, (SameBut.refl _ s).step (s.modDbg_puts _)⟩

end Sys2Proof.Machine
end

section
/-!
PROOFS. Control, warm and block resets (O14).
-/
namespace Sys2Proof.Machine

/-! ## Blocks -/

/-- Only QMG's reset touches the contexts, and leaves none. -/
theorem State.ctx_resetBlock_nil {s : State} (h : s.ctx = []) (i : Nat) : (s.resetBlock i).ctx = [] := by
  have hkeep (n : Nat) : (s.keepV n).ctx = s.ctx := (State.keepV_frame n (P := .part .ctx) (Fr.refl s) rfl).1
  have halm : s.almReset.ctx = s.ctx := (State.almReset_frame (P := .part .ctx) (Fr.refl s) rfl).1
  have hord (n : Nat) : (s.ordReset n).ctx = s.ctx := (State.ordReset_frame n (P := .part .ctx) (Fr.refl s) rfl).1
  unfold State.resetBlock State.resetFront State.resetFabric State.resetSlice
  (repeat' split) <;> simp [State.clearWindow, State.calReset, State.jubClear, State.bufferLost, State.dropAlmDram, State.dbgReset, h, hkeep, halm, hord]

/-- A loop keeps what each of its steps keeps. -/
theorem State.each_keeps {α : Type} {p : State → Prop} {f : State → α → State} (hf : ∀ s x, p s → p (f s x)) (l : List α) :
    ∀ {s : State}, p s → p (s.each l f) := by
  induction l with
  | nil => exact id
  | cons x xs ih => exact fun h => ih (hf _ x h)

theorem State.each_append {α : Type} (f : State → α → State) (l l' : List α) : ∀ s : State, s.each (l ++ l') f = (s.each l f).each l' f := by
  induction l with
  | nil => exact fun _ => rfl
  | cons x xs ih => exact fun s => ih (f s x)

/-- No context is left behind a reset of QMG. -/
theorem State.ctx_each_resetBlock {s : State} {l pre post : List Nat} (hl : l = pre ++ 0x0D :: post) : (s.each l State.resetBlock).ctx = [] := by
  rw [hl, State.each_append]
  exact State.each_keeps (p := fun u => u.ctx = []) (fun u i hu => State.ctx_resetBlock_nil hu i) post
    (s := (s.each pre State.resetBlock).resetBlock 0x0D) rfl

/-! ## Warm resets -/

/-- Where nothing is left in the contexts behind the reset of every block. -/
theorem State.ctx_wideReset (s : State) : s.wideReset.ctx = [] := by
  rw [State.wideReset_eq]
  dsimp only
  unfold State.blocksReset
  exact State.ctx_each_resetBlock (pre := [0x01, 0x05, 0x06, 0x22, 0x23, 0x24, 0x25, 0x08, 0x09, 0x0A, 0x0B, 0x0C]) rfl

/-- A reset that waited, behind the blocks' own, before FLS. -/
@[irreducible] def State.widePut (s : State) : State :=
  (((s.wideReset.almReset).clkClear true).setRbit dbgCtrl 0 false).setRbit clkCause 4 true

theorem State.wideWaited_warm (s : State) : s.wideWaited false = s.widePut.flsControl := by
  unfold State.wideWaited State.widePut
  rfl

theorem State.almReset_ctx (s : State) : s.almReset.ctx = s.ctx := (State.almReset_frame (P := .part .ctx) (Fr.refl s) rfl).1

theorem State.almReset_ltime (s : State) : s.almReset.ltime = s.ltime := (State.almReset_frame (P := .part .ltime) (Fr.refl s) rfl).1

/-- CLK's reset leaves the contexts and link time. -/
theorem State.clkClear_frame_part (s : State) (keep : Bool) : (s.clkClear keep).ctx = s.ctx ∧ (s.clkClear keep).ltime = s.ltime := by
  cases keep <;> exact ⟨rfl, rfl⟩

theorem State.wait_clkClear (s : State) (keep : Bool) : (s.clkClear keep).clk.wait = none := by
  cases keep <;> rfl

theorem State.widePut_leaves (s : State) : s.widePut.rbit clkCause 4 = true ∧ s.widePut.clk.wait = none ∧ s.widePut.ltime = 0 ∧
    s.widePut.ctx = [] := by
  unfold State.widePut
  have hctx := s.ctx_wideReset
  have hltime := s.ltime_wideReset
  generalize s.wideReset = u at hctx hltime
  obtain ⟨hclkCtx, hclkLtime⟩ := u.almReset.clkClear_frame_part true
  exact ⟨State.rbit_setRbit_same _ _ _ _ (by decide), u.almReset.wait_clkClear true, hclkLtime.trans (u.almReset_ltime.trans hltime),
    hclkCtx.trans (u.almReset_ctx.trans hctx)⟩

/-- FLS's reset, at once or at the end of its operation, leaves the cause and whatever waits. -/
theorem State.flsControl_leaves (s : State) : s.flsControl.reg clkCause = s.reg clkCause ∧ s.flsControl.clk.wait = s.clk.wait ∧
    s.flsControl.ltime = s.ltime ∧ s.flsControl.ctx = s.ctx := by
  refine ⟨?_, ?_, (State.flsControl_frame (P := .part .ltime) (Fr.refl s) rfl).1, (State.flsControl_frame (P := .part .ctx) (Fr.refl s) rfl).1⟩
  · have herase : s.flsEraseOn.reg clkCause = s.reg clkCause := (State.flsEraseOn_frame (P := .win bCLK) (Fr.refl s) ⟨rfl, rfl⟩).1 _ rfl
    unfold State.flsControl
    dsimp only
    split
    · have hne : clkCause ≠ clkStatus := by decide
      simpa [hne] using herase
    · exact (State.reg_clearWindow_out _ (not_inBlock_regAddr (by decide) _)).trans herase
  · have herase : s.flsEraseOn.clk = s.clk := (State.flsEraseOn_frame (P := .part .clk) (Fr.refl s) rfl).1
    have hwait : s.flsEraseOn.clk.wait = s.clk.wait := congrArg Clk.wait herase
    unfold State.flsControl
    dsimp only
    split
    · exact hwait
    · exact hwait

/-- What a warm reset leaves once it acts. -/
theorem State.wideWaited_leaves (s : State) : (s.wideWaited false).rbit clkCause 4 = true ∧ (s.wideWaited false).clk.wait = none ∧
    (s.wideWaited false).ltime = 0 ∧ (s.wideWaited false).ctx = [] := by
  rw [State.wideWaited_warm]
  obtain ⟨hcause, hwait, hltime, hctx⟩ := s.widePut_leaves
  obtain ⟨hcause', hwait', hltime', hctx'⟩ := s.widePut.flsControl_leaves
  exact ⟨(congrArg (bitAt · 4) hcause').trans hcause, hwait'.trans hwait, hltime'.trans hltime, hctx'.trans hctx⟩

theorem State.waitedReset_of_warm {s : State} (h : s.clk.wait = some .warm) :
    s.waitedReset = if s.unparked.isEmpty && s.almFlushed then s.wideWaited false else s := by
  unfold State.waitedReset
  rw [h]

/-- A warm reset acts once every actuator is parked and the Almanac's page is programmed. -/
theorem exec_resetRetractDone {s : State} (hwait : s.clk.wait = some .warm) (hparked : s.unparked = []) (hflushed : s.almFlushed = true) :
    exec .resetRetractDone s = .next (s.wideWaited false) := by
  change execResetRetractDone s = _
  unfold execResetRetractDone
  rw [State.waitedReset_of_warm hwait, hparked, hflushed]
  exact congrArg Host.Outcome.next (if_pos rfl)

/-- A warm reset that begins waits, or has acted. -/
theorem State.beginWide_warm (s : State) : ((s.beginWide .warm).clk.wait = some .warm ∧ (s.beginWide .warm).rbit clkStatus 3 = true) ∨
    (s.beginWide .warm).rbit clkCause 4 = true := by
  unfold State.beginWide
  dsimp only
  generalize (s.resetRetract.motOff).flush = u
  rw [State.waitedReset_of_warm rfl]
  split
  · exact .inr (State.wideWaited_leaves _).1
  · exact .inl ⟨rfl, State.rbit_setRbit_same _ _ _ _ (by decide)⟩

/-! ## Control resets -/

/-- The start of a control reset, before the links drop. -/
@[irreducible] def State.controlHeld (s : State) (ides : Bool) : State :=
  let keep : List (Nat × Option Nat) := s.fls.fetch.filter fun e => decide (8 ≤ e.1)
  let s := (s.modFls fun f => { f with fetch := keep }).setRbit dbgCtrl 0 false
  let s := s.modClk fun c => { c with control := true, cpuReset := true, kicker := none }
  (s.setRbit clkCause 5 true).onlyIf ides fun s => s.flsEraseOn.setRbit clkCause 2 true

theorem State.controlReset_eq (s : State) (ides : Bool) :
    s.controlReset ides = ((s.controlHeld ides).dropLinks.each (upto 4) State.ordStop).setResetting true := by
  unfold State.controlReset State.controlHeld
  rfl

theorem State.clk_controlHeld (s : State) (ides : Bool) :
    (s.controlHeld ides).clk = { s.clk with control := true, cpuReset := true, kicker := none } := by
  have herase (u : State) : (u.onlyIf ides fun s => s.flsEraseOn.setRbit clkCause 2 true).clk = u.clk := by
    cases ides
    · rfl
    · exact (State.flsEraseOn_frame (P := .part .clk) (Fr.refl u) rfl).1
  unfold State.controlHeld
  exact (herase _).trans rfl

/-- A control reset that begins holds the processors until every engine has halted. -/
theorem State.controlReset_leaves (s : State) (ides : Bool) : (s.controlReset ides).clk.control = true ∧ (s.controlReset ides).clk.cpuReset = true ∧
    (s.controlReset ides).rbit clkStatus 3 = true := by
  have hheld := s.clk_controlHeld ides
  rw [State.controlReset_eq]
  generalize s.controlHeld ides = u at hheld
  have hstop : (u.dropLinks.each (upto 4) State.ordStop).clk = u.clk :=
    (State.each_frame (P := .part .clk) (fun v n => State.ordStop_frame n (Fr.refl v) rfl) _ (State.dropLinks_frame (Fr.refl u) rfl)).1
  have hclk := hstop.trans hheld
  generalize u.dropLinks.each (upto 4) State.ordStop = v at hclk
  exact ⟨congrArg Clk.control hclk, congrArg Clk.cpuReset hclk, State.rbit_setRbit_same _ _ _ _ (by decide)⟩

/-- The channels stop, and the blocks of a control reset take their reset values. -/
@[irreducible] def State.controlBlocks (s : State) : State :=
  (s.each (upto 4) State.chnSoftReset).each [0x22, 0x23, 0x24, 0x25, 0x06, 0x0D, 0x0E, 0x0F, 0x10, 0x11, 0x12, 0x08, 0x09, 0x0A, 0x0B, 0x0C]
    State.resetBlock

theorem State.ctx_controlBlocks (s : State) : s.controlBlocks.ctx = [] := by
  unfold State.controlBlocks
  exact State.ctx_each_resetBlock (pre := [0x22, 0x23, 0x24, 0x25, 0x06]) rfl

/-- Behind the reset of CPL no block touches the queues of packets. -/
theorem State.cellq_controlBlocks (s : State) : s.controlBlocks.cellq = [] := by
  unfold State.controlBlocks
  exact (congrArg State.cellq (State.each_append State.resetBlock [0x22, 0x23, 0x24, 0x25, 0x06, 0x0D, 0x0E, 0x0F, 0x10]
    [0x11, 0x12, 0x08, 0x09, 0x0A, 0x0B, 0x0C] _)).trans rfl

/-- A control reset is over: the processors start at step 1 of the boot. -/
@[irreducible] def State.controlEnd (s : State) : State :=
  ((s.flsControl.modClk fun c => { c with control := false, cpuReset := false, boot := 1, cluster := false, mgtOnly := false }).setRbit clkReset 0
    false).setResetting false

theorem State.controlEnd_leaves (s : State) : s.controlEnd.clk.control = false ∧ s.controlEnd.clk.cpuReset = false ∧ s.controlEnd.clk.boot = 1 ∧
    s.controlEnd.rbit clkReset 0 = false ∧ s.controlEnd.rbit clkStatus 3 = false ∧ s.controlEnd.ctx = s.ctx ∧ s.controlEnd.cellq = s.cellq := by
  have hctx : s.flsControl.ctx = s.ctx := (State.flsControl_frame (P := .part .ctx) (Fr.refl s) rfl).1
  have hcellq : s.flsControl.cellq = s.cellq := (State.flsControl_frame (P := .part .cellq) (Fr.refl s) rfl).1
  unfold State.controlEnd
  generalize s.flsControl = u at hctx hcellq
  have hne : clkReset ≠ clkStatus := by decide
  refine ⟨rfl, rfl, rfl, ?_, State.rbit_setRbit_same _ _ _ _ (by decide), hctx, hcellq⟩
  simp [State.setResetting, State.rbit, hne, bitAt_putBit]

/-- A control reset ends once every engine has halted. -/
theorem exec_controlResetHalted {s : State} (hcontrol : s.clk.control = true) (hhalted : ∀ n < 4, s.halted n) :
    exec .controlResetHalted s = .next s.controlBlocks.controlEnd := by
  have hall : (upto 4).all (fun n => s.halted n) = true := List.all_eq_true.mpr fun n hn => by simpa using hhalted n (mem_upto.mp hn)
  change execControlResetHalted s = _
  unfold execControlResetHalted State.controlBlocks State.controlEnd
  rw [hall, hcontrol]
  rfl

/-! ## Block resets -/

/-- The blocks of Table 1.1. -/
theorem blockAt_ranges : ∀ b < 64, blockAt b = true → b ≤ 6 ∨ (8 ≤ b ∧ b ≤ 0x12) ∨ (0x14 ≤ b ∧ b ≤ 0x26) ∨ b = 0x2F := by
  decide

/-- A reset of a block that waits for nothing brings its registers to their reset values. -/
theorem State.reg_resetBlock {b : Nat} (hb : b < 64) (hat : blockAt b = true) (hne : b ∉ [0, 2, 3, 4, 0x20, 0x21, 0x26, 0x2F]) (s : State) {a : Nat}
    (ha : InBlock b a) : (s.resetBlock b).reg a = regReset a := by
  have hclear (u : State) : (u.clearWindow b).reg a = regReset a := u.reg_clearWindow_in ha
  simp only [List.mem_cons, List.not_mem_nil, or_false, not_or] at hne
  obtain ⟨h0, h2, h3, h4, h20, h21, h26, h2F⟩ := hne
  have hrange := blockAt_ranges b hb hat
  unfold State.resetBlock
  split
  next hfront =>
    unfold State.resetFront
    split
    · exact hclear s
    split
    · exact hclear s
    split
    · subst b; exact hclear s
    split
    · exact hclear s
    split
    · subst b; exact hclear s
    · omega
  next hfront =>
  split
  next hfabric =>
    unfold State.resetFabric
    iterate 6 (split; · exact hclear _)
    omega
  next hfabric =>
    unfold State.resetSlice
    rw [if_neg h20, if_neg h21, if_neg h26, if_neg h2F]
    split
    · exact hclear s
    split
    · exact hclear s
    split
    · exact hclear _
    split
    next hord =>
      have heq : bORD (b - 0x22) = b := by unfold bORD; omega
      unfold State.ordReset
      rw [heq]
      exact hclear _
    next hord => omega

/-- Settles O14. -/
theorem requestedResetsComplete : Obligations.RequestedResetsComplete := by
  refine ⟨fun r s hr hbit hcontrol => ?_, fun s hcontrol hhalted => ?_, fun r s hr hbit hwait => ?_, fun s hwait hparked hflushed => ?_,
    fun r b s hr hat hne hbit => ?_⟩
  · refine ⟨(s.setRbit clkReset 0 true).controlReset false, ?_, State.controlReset_leaves _ _⟩
    exact congrArg Host.Outcome.next (if_neg (by simp [hr, hbit, hcontrol]))
  · obtain ⟨hctl, hcpu, hboot, hreset, hstatus, hctx, hcellq⟩ := s.controlBlocks.controlEnd_leaves
    exact ⟨_, exec_controlResetHalted hcontrol hhalted, hctl, hcpu, hboot, hreset, hstatus, hctx.trans s.ctx_controlBlocks,
      hcellq.trans s.cellq_controlBlocks⟩
  · exact ⟨_, congrArg Host.Outcome.next (if_neg (by simp [hr, hbit, hwait])), State.beginWide_warm _⟩
  · exact ⟨_, exec_resetRetractDone hwait hparked hflushed, s.wideWaited_leaves⟩
  · refine ⟨_, rfl, fun a ha => ?_⟩
    have hreset := s.reg_resetBlock b.isLt hat hne ha
    simp only [List.mem_cons, List.not_mem_nil, or_false, not_or] at hne
    obtain ⟨h0, h2, h3, h4, h20, h21, h26, h2F⟩ := hne
    unfold State.blockRst
    rw [if_neg (by simp [hr, hat, h0, h2, h3, hbit]), if_neg h4, if_neg (by simp [h20, h21, h26])]
    exact hreset

end Sys2Proof.Machine
end

section
/-!
PROOFS. More statements that fail, each with a state that refutes it: O16, O18, O19, O20, O25, O46, O48 and O49. Each leaves out a premise
that the model's operation asks of the state, or a part or register that the operation shows its effect in.
-/
namespace Sys2Proof.Machine

set_option Elab.async false

/-! ## Contexts and zones -/

/-- A command of namespace 1 on submission queue `sqid`. -/
def cmdOf (sqid cid : Nat) (op : HostOp) : HostCmd := { sqid := sqid, cid := cid, nsid := 1, op := op }

/-- A shingled group of four zones, and the zoned namespace of it. -/
def fourZones : Group :=
  { id := 0, home := 0, shingled := true, backup := false, width := 4, two := false, window := 0, first := 0, count := 4, gangMap := 0xF,
    alt := false }
def zonedSpace : Nspace := { nsid := 1, kind := 1, groups := [0] }

/-- Contexts of port 4: an Abort that runs, and the Flush that it names, which QMG has not admitted. -/
def abortCtx : Ctx := { st := .running, port := 4, cmd := cmdOf 0 1 (.abort 1 7), order := 1 }
def waitingCtx : Ctx := { st := .waiting, port := 4, cmd := cmdOf 1 7 .flush, order := 0 }

/-- The completions of port 4 enter queue 4, as firmware's do. -/
def abortOnPort4 : State :=
  let s := ((State.reset.setReg cplStatus 4).setRbit (cplQCfg 4) 0 true).setCq 4 { resv := 1 }
  (s.setCtx 0 (some abortCtx)).setCtx 1 (some waitingCtx)

/-- Refutes O16: of a port whose completions enter queue 4 the aborted command's completion stands there before the Abort's own. -/
theorem not_adminCommandsComplete : ¬ Obligations.AdminCommandsComplete := by
  intro h
  obtain ⟨-, -, -, -, -, -, -, -, -, -, hearly, -⟩ := h 0 abortCtx abortOnPort4 (by decide +kernel) (by decide +kernel) (by decide +kernel)
    (by decide +kernel) (by decide +kernel) (by decide +kernel)
  have habort := hearly 1 7 1 waitingCtx rfl (by decide) (by decide +kernel) (by decide) (by decide) (by decide) (by decide) (by decide +kernel)
  exact absurd habort.of_execNext.2.2.1 (by decide +kernel)

/-- A Zone Reset of zone 0, of which engine 0 runs a MOP of its refresh. -/
def resetCtx : Ctx := { st := .running, port := 0, cmd := cmdOf 1 7 (.zoneSend 0 4 false), order := 0 }
def refreshedZone : State :=
  { State.reset with
    groups := [fourZones]
    ctx := [(0, some resetCtx)]
    ord := [(0, { mop := some { w0 := 0, w1 := 9, w2 := 0, w3 := 0 } })]
    fw := { spaces := [zonedSpace], jobs := [{ tag := 9, eng := 0, kind := .refreshRead, op := 0, zone := 0, stripe := 0 }] } }

/-- Refutes O18: a Zone Reset waits while a MOP of the zone's refresh is with its engine (R421). -/
theorem not_hostDataCommandsComplete : ¬ Obligations.HostDataCommandsComplete := by
  intro h
  obtain ⟨-, -, -, -, -, -, -, -, -, hreset, -⟩ := h 0 resetCtx zonedSpace refreshedZone (by decide +kernel) (by decide +kernel)
  have hzone := hreset 0 0 fourZones rfl (by decide +kernel) (by decide +kernel) (by decide +kernel) (by decide +kernel) (by decide +kernel)
  exact absurd hzone.of_execNext.2.1 (by decide +kernel)

/-- With HOLD_ADMIT 1, an Asynchronous Event Request that has arrived is all that keeps QMG from being idle. -/
def eventCtx : Ctx := { st := .arrived, port := 0, cmd := cmdOf 0 7 .asyncEvent, order := 0 }
def lastArrival : State := { State.reset.setRbit qmgCtrl 1 true with ctx := [(0, some eventCtx)] }

/-- Refutes O19: once the request is outstanding QMG is idle, and under HOLD_ADMIT QMG_INT shows it (Table 14.7). -/
theorem not_queueManagerCommandsComplete : ¬ Obligations.QueueManagerCommandsComplete := by
  intro h
  obtain ⟨-, -, hevent, -⟩ := h lastArrival
  have hsame := (hevent 0 eventCtx (by decide +kernel) rfl rfl rfl).of_execNext.2
  exact absurd (hsame.regs (by decide)) (by decide +kernel)

/-- Zone 0 is being refreshed, and V of it is still being found after power-up. -/
def unfoundZone : State :=
  { State.reset with groups := [fourZones], fw := { harv := [(0, { refresh := some 0 })], zones := [(0, { finding := true })] } }

/-- Refutes O20: the refresh of a zone whose V is still being found goes no further (R322). -/
theorem not_harvestCommandsComplete : ¬ Obligations.HarvestCommandsComplete := by
  intro h
  obtain ⟨-, -, -, hrefresh⟩ := h 0 unfoundZone
  obtain ⟨-, -, hwrite⟩ := hrefresh 0 fourZones (by decide +kernel) (by decide +kernel) (by decide +kernel) (by decide +kernel) (by decide +kernel)
  have hzone := hwrite (by decide +kernel) (by decide +kernel) (by decide +kernel)
  exact absurd hzone.of_execNext.1 (by decide +kernel)

/-! ## Registers, heads and cores -/

/-- The first of two entries of bank 0 names MOT_SHUNT, whose bits above its fields are 1. -/
def dirtyShunt : State :=
  let s := (State.reset.setReg motShunt 0xF0000000).setReg (calShadow 0 0 0) (BitVec.ofNat 32 motShunt)
  { s with cal := { s.cal with apply := [(0, some (0, 2))] } }

/-- Refutes O25: a write of MOT_SHUNT leaves the bits that are no field as they were. -/
theorem not_calibrationCommandsComplete : ¬ Obligations.CalibrationCommandsComplete := by
  intro h
  obtain ⟨-, -, -, -, -, -, -, -, hshunt, -⟩ := h dirtyShunt
  have hreg := (hshunt 0 0 2 (by decide +kernel) (by decide) (by decide +kernel) (by decide +kernel)).of_execNext.1
  exact absurd hreg (by decide +kernel)

/-- Head 0 of link 0 has two lanes, which are up. -/
def twoLaneHead : State := (State.reset.setUlk 0 { mapInForce := [(0, 0x383)] }).setReg (ulkLaneUp 0) 0x3FFFFFF

/-- Refutes O46: a burst of a head with two lanes is noted as one. -/
theorem not_linkTrafficCommandsComplete : ¬ Obligations.LinkTrafficCommandsComplete := by
  intro h
  obtain ⟨-, -, -, -, -, -, -, hstart, -⟩ := h 0 twoLaneHead
  have hburst := (hstart 0 0 false false 1 0 0 0 0 (by decide +kernel)).of_execNext
  exact absurd hburst (by decide +kernel)

/-- One core decodes a replay of slot 0, and twelve slots wait for a core with a first pass. -/
def replayCore : Core := { slot := 0, replay := true }
def waitingSlots : State := State.reset.setChn 0 { cores := [(0, some replayCore)], firstWait := List.replicate 12 1 }

/-- Refutes O48: the boundary of an iteration of a replay asks the core to yield to a first pass that waits (R147). -/
theorem not_readChannelCommandsComplete : ¬ Obligations.ReadChannelCommandsComplete := by
  intro h
  obtain ⟨-, -, -, -, -, -, -, -, -, -, hiter, -⟩ := h 0 waitingSlots
  have hcore := (hiter 0 replayCore (by decide +kernel) rfl).of_execNext.1
  exact absurd hcore (by decide +kernel)

/-- Head 0 of WPA 0 is Armed, and the test mode is armed for the word of its assist loop's output. -/
def armedCorruption : State :=
  ((State.reset.setWpaSt 0 0 2).setReg (regAddr bBUF 0x14) 0x3A).setReg (regAddr bBUF 0x18) (BitVec.ofNat 32 ((descWord 104 + 6) / 2))

/-- Refutes O49: the head leaves Armed, its loop's output is written 0, and that write uses up the corruption that the test mode has armed,
which BUF's registers show (R337). -/
theorem not_writeStrobesComplete : ¬ Obligations.WriteStrobesComplete := by
  intro h
  obtain ⟨hstrobes, -⟩ := h 0 0 armedCorruption
  obtain ⟨-, hdisarm, -⟩ := hstrobes (by decide +kernel)
  have hregs := (hdisarm (by decide +kernel) (by decide +kernel)).of_execNext.2
  exact absurd (hregs (regAddr bBUF 0x14) (by decide)) (by decide +kernel)

end Sys2Proof.Machine
end

section
/-!
PROOFS. The strobes of a read channel (O47): each acts on the slot it names, and a code that the tables do not list counts at MGT.
-/
namespace Sys2Proof.Machine

/-! ## Slots -/

@[simp] theorem State.slot_setSlot (s : State) (n h : Nat) (x : ChnSlot) : (s.setSlot n h x).slot n h = x := by
  simp [State.slot, State.setSlot, State.chnP, State.setChn]

@[simp] theorem State.slot_setReg (s : State) (a : Nat) (v : W) (n h : Nat) : (s.setReg a v).slot n h = s.slot n h := rfl

theorem State.setSlot_puts (s : State) (n h : Nat) (x : ChnSlot) : Part.chn.Puts s (s.setSlot n h x) := s.setChn_puts _ _

/-- A strobe that writes a slot changes no other part of the state. -/
theorem State.setSlot_sameBut (s : State) (n h : Nat) (x : ChnSlot) : SameBut [.chn] s (s.setSlot n h x) := (SameBut.refl _ s).step (s.setSlot_puts n h x)

/-- Loading a slot's loops changes nothing else of the slot. -/
theorem State.slot_loadSeeds (s : State) (n h : Nat) : ∃ acc, (s.loadSeeds n h).slot n h = { s.slot n h with acc := acc } :=
  ⟨((upto 3).map fun r => loopSeed (s.reg (chnRef n h r))).flatten, State.slot_setSlot ..⟩

/-- An ARM of an enabled slot with no sector and granules enough (R119, R120, R140). -/
theorem State.armSlot_armed {s : State} {n h k : Nat} (hon : s.slotOn n h = true) (hsec : (s.slot n h).sectors = [])
    (hgran : minGranules (popCount 3 (s.slotReaders n h (s.reg (chnProfCfg n k)))) ≤ s.rfld (chnSlotCfg n h) 4 7) :
    ((s.armSlot n h k).slot n h).armed = true ∧ ((s.armSlot n h k).slot n h).prof = k ∧
      ((s.armSlot n h k).slot n h).profCfg = s.reg (chnProfCfg n k) ∧ ((s.armSlot n h k).slot n h).granules = s.rfld (chnSlotCfg n h) 4 7 := by
  have harm : ∃ x : ChnSlot, s.armSlot n h k = (s.setSlot n h { x with
      armed := true, prof := k, profCfg := s.reg (chnProfCfg n k), profTime := s.profTime n k, refused := 0,
      granules := s.rfld (chnSlotCfg n h) 4 7 }).loadSeeds n h := by
    refine ⟨({ s.slot n h with armed := false, disarming := false, rearm := none, inForce := [], lost := none } : ChnSlot).startOver, ?_⟩
    simp only [State.armSlot, hon, hsec, if_true, Bool.not_true, Bool.false_eq_true, if_false, decide_eq_true_eq, if_neg (Nat.not_lt.mpr hgran)]
  obtain ⟨x, hx⟩ := harm
  obtain ⟨acc, hacc⟩ := State.slot_loadSeeds (s.setSlot n h { x with
      armed := true, prof := k, profCfg := s.reg (chnProfCfg n k), profTime := s.profTime n k, refused := 0,
      granules := s.rfld (chnSlotCfg n h) 4 7 }) n h
  rw [hx, hacc, State.slot_setSlot]
  exact ⟨rfl, rfl, rfl, rfl⟩

/-- A RELEASE to a slot that holds a sector and runs no operation frees the oldest one held (R145). -/
theorem State.strobeRelease_held {s : State} {n h : Nat} (hop : (s.slot n h).op = none)
    (hheld : (s.slot n h).sectors.any (fun q => q.st == .held) = true) :
    ((s.strobeRelease n h).slot n h).sectors = removeFirst (fun q => q.st == SecState.held) (s.slot n h).sectors ∧
      SameBut [.chn] s (s.strobeRelease n h) := by
  have hfind : ((s.slot n h).sectors.find? fun q => q.st == .held || q.st == .executing).isSome := by
    obtain ⟨q, hq, hst⟩ := List.any_eq_true.mp hheld
    exact List.find?_isSome.mpr ⟨q, hq, by rw [hst, Bool.true_or]⟩
  obtain ⟨q, hq⟩ := Option.isSome_iff_exists.mp hfind
  have hrel : s.strobeRelease n h = s.setSlot n h
      ({ s.slot n h with sectors := removeFirst (fun q => q.st == SecState.held) (s.slot n h).sectors } : ChnSlot).settleLoans := by
    simp only [State.strobeRelease, hq, hop]
  rw [hrel, State.slot_setSlot]
  refine ⟨?_, s.setSlot_sameBut n h _⟩
  unfold ChnSlot.settleLoans
  split <;> rfl

/-- A REPLAY strobe to a slot that holds a sector and has fewer than four operations queued queues one (R145). -/
theorem State.strobeReplay_queued {s : State} {n h : Nat} (hheld : (s.slot n h).holds = true) (hops : (s.slot n h).ops.length < 4) (rung : Nat) :
    (s.strobeReplay n h rung).slot n h = { s.slot n h with ops := (s.slot n h).ops ++ [rung] } ∧ SameBut [.chn] s (s.strobeReplay n h rung) := by
  have hput : s.strobeReplay n h rung = s.setSlot n h { s.slot n h with ops := (s.slot n h).ops ++ [rung] } := by
    simp [State.strobeReplay, hheld, Nat.not_le.mpr hops]
  rw [hput]
  exact ⟨State.slot_setSlot .., s.setSlot_sameBut n h _⟩

/-! ## Codes -/

/-- A strobe of Table 4.2 to a section that runs. -/
theorem State.chnStrobe_arm {s : State} {n : Nat} (hg : s.gateOpen (bCHN n) = true) (h : Nat) (k : Fin 8) :
    s.chnStrobe n h (0x10 + k) = s.strobeArm n h k := by
  unfold State.chnStrobe
  rw [hg, Bool.not_true, if_neg Bool.false_ne_true, if_pos ⟨by omega, by omega⟩, Nat.add_sub_cancel_left]

theorem State.chnStrobe_disarm {s : State} {n : Nat} (hg : s.gateOpen (bCHN n) = true) (h : Nat) : s.chnStrobe n h 0x20 = s.strobeDisarm n h := by
  simp [State.chnStrobe, hg]
theorem State.chnStrobe_holdOn {s : State} {n : Nat} (hg : s.gateOpen (bCHN n) = true) (h : Nat) : s.chnStrobe n h 0x21 = s.strobeHold n h true := by
  simp [State.chnStrobe, hg]
theorem State.chnStrobe_holdOff {s : State} {n : Nat} (hg : s.gateOpen (bCHN n) = true) (h : Nat) : s.chnStrobe n h 0x22 = s.strobeHold n h false := by
  simp [State.chnStrobe, hg]
theorem State.chnStrobe_release {s : State} {n : Nat} (hg : s.gateOpen (bCHN n) = true) (h : Nat) : s.chnStrobe n h 0x3F = s.strobeRelease n h := by
  simp [State.chnStrobe, hg]
theorem State.chnStrobe_replay {s : State} {n : Nat} (hg : s.gateOpen (bCHN n) = true) (h : Nat) {rung : Nat} (hlo : 1 ≤ rung) (hhi : rung ≤ 5) :
    s.chnStrobe n h (0x30 + rung) = s.strobeReplay n h rung := by
  unfold State.chnStrobe
  rw [hg, Bool.not_true, if_neg Bool.false_ne_true, if_neg (by omega), if_neg (by omega), if_neg (by omega), if_neg (by omega),
    if_pos ⟨by omega, by omega⟩, Nat.add_sub_cancel_left]

/-- A code that Table 4.2 does not list. -/
theorem State.chnStrobe_unlisted {s : State} {n code : Nat} (hg : s.gateOpen (bCHN n) = true) (h : Nat)
    (hcode : code ∉ [0x10, 0x11, 0x12, 0x13, 0x14, 0x15, 0x16, 0x17, 0x20, 0x21, 0x22, 0x31, 0x32, 0x33, 0x34, 0x35, 0x3F]) :
    s.chnStrobe n h code = s.mgtViolate (4 + n) := by
  simp only [List.mem_cons, List.not_mem_nil, or_false, not_or] at hcode
  unfold State.chnStrobe
  rw [hg, Bool.not_true, if_neg Bool.false_ne_true, if_neg (by omega), if_neg (by omega), if_neg (by omega), if_neg (by omega), if_neg (by omega),
    if_neg (by omega)]

/-- A code that Table 5.2 does not list. -/
theorem State.wpaStrobe_unlisted {s : State} {n code : Nat} (hg : s.gateOpen (bWPA n) = true) (h : Nat)
    (hcode : code ∉ [0x40, 0x41, 0x42, 0x43, 0x44, 0x45, 0x46, 0x47, 0x48, 0x58, 0x59]) : s.wpaStrobe n h code = s.mgtViolate (4 + n) := by
  simp only [List.mem_cons, List.not_mem_nil, or_false, not_or] at hcode
  unfold State.wpaStrobe
  rw [hg, Bool.not_true, if_neg Bool.false_ne_true, if_neg (by omega), if_neg (by omega), if_neg (by omega), if_neg (by omega), if_neg (by omega)]

/-- A violation whose counter is below its maximum. -/
theorem State.mgtViolate_counts {s : State} {v : Nat} (hv : v < 32) (h : (s.reg (mgtViol v).addr).toNat + 1 < 2 ^ 32 - 1) :
    ((s.mgtViolate v).reg (mgtViol v).addr).toNat = (s.reg (mgtViol v).addr).toNat + 1 ∧ (s.mgtViolate v).rbit (regAddr bMGT 0x8) 1 = true ∧
      Only [] [(mgtViol v).addr, regAddr bMGT 0x8] s (s.mgtViolate v) := by
  have hput : s.mgtViolate v = (s.setReg (mgtViol v).addr (BitVec.ofNat 32 ((s.reg (mgtViol v).addr).toNat + 1))).raise (regAddr bMGT 0x8) 1 := by
    unfold State.mgtViolate State.violate State.count
    rw [State.bump_counts s (mgtViol v) h]
    rfl
  have hne : (mgtViol v).addr ≠ regAddr bMGT 0x8 := by
    rw [mgtViol, ne_eq, regAddr_inj]
    omega
  rw [hput]
  refine ⟨?_, State.rbit_raise_same _ _ _ (by decide), ((Only.refl _ _ s).setReg _).setReg _⟩
  rw [State.reg_raise, if_neg hne, State.reg_setReg, if_pos rfl, BitVec.toNat_ofNat]
  omega

/-! ## The commands -/

/-- Settles O47, strobe by strobe: each is the operation on the slot that its code names. -/
theorem slotStrobesComplete : Obligations.SlotStrobesComplete := by
  unfold Obligations.SlotStrobesComplete
  intro n h s
  refine ⟨fun hg => ⟨?arm, ?disarm, ?disarming, ?holdOn, ?holdOff, ?replay, ?release⟩, ?unlisted⟩
  case arm =>
    intro k hen hslot hsec hoff hgran
    refine ⟨_, rfl, ?_⟩
    rw [State.chnStrobe_arm hg, State.strobeArm, hoff, if_neg (by simp)]
    exact State.armSlot_armed (by rw [State.slotOn, hen, hslot]; rfl) hsec hgran
  case disarm =>
    intro hmid
    refine ⟨_, rfl, ?_⟩
    rw [State.chnStrobe_disarm hg, State.strobeDisarm, hmid, if_neg Bool.false_ne_true]
    exact ⟨congrArg ChnSlot.armed (State.slot_setSlot ..), s.setSlot_sameBut n h _⟩
  case disarming =>
    intro hmid
    refine ⟨_, rfl, ?_⟩
    rw [State.chnStrobe_disarm hg, State.strobeDisarm, if_pos hmid]
    exact ⟨congrArg ChnSlot.disarming (State.slot_setSlot ..), (congrArg ChnSlot.armed (State.slot_setSlot s n h _)).trans rfl, s.setSlot_sameBut n h _⟩
  case holdOn =>
    refine ⟨_, rfl, ?_⟩
    rw [State.chnStrobe_holdOn hg, State.strobeHold]
    exact ⟨State.slot_setSlot .., s.setSlot_sameBut n h _⟩
  case holdOff =>
    refine ⟨_, rfl, ?_⟩
    rw [State.chnStrobe_holdOff hg, State.strobeHold]
    exact ⟨State.slot_setSlot .., s.setSlot_sameBut n h _⟩
  case replay =>
    intro hheld hops
    have hqueued (rung : Nat) (hlo : 1 ≤ rung) (hhi : rung ≤ 5) :
        (s.chnStrobe n h (0x30 + rung)).slot n h = { s.slot n h with ops := (s.slot n h).ops ++ [rung] } ∧
          SameBut [.chn] s (s.chnStrobe n h (0x30 + rung)) := by
      rw [State.chnStrobe_replay hg h hlo hhi]
      exact State.strobeReplay_queued hheld hops rung
    exact ⟨⟨_, rfl, hqueued 1 (by decide) (by decide)⟩, ⟨_, rfl, hqueued 2 (by decide) (by decide)⟩, ⟨_, rfl, hqueued 3 (by decide) (by decide)⟩,
      ⟨_, rfl, hqueued 4 (by decide) (by decide)⟩, ⟨_, rfl, hqueued 5 (by decide) (by decide)⟩⟩
  case release =>
    intro hop hheld
    refine ⟨_, rfl, ?_⟩
    rw [State.chnStrobe_release hg]
    exact State.strobeRelease_held hop hheld
  case unlisted =>
    intro w code hg hcode hcount
    refine ⟨_, rfl, ?_⟩
    have hviol : (if w then s.wpaStrobe n h code.toNat else s.chnStrobe n h code.toNat) = s.mgtViolate (4 + n) := by
      cases w with
      | false => exact State.chnStrobe_unlisted hg h hcode
      | true => exact State.wpaStrobe_unlisted hg h hcode
    rw [hviol]
    exact State.mgtViolate_counts (by omega) hcount

end Sys2Proof.Machine
end

section
/-!
PROOFS. Register writes and the TAP's instructions (O31): an access through the network to a register of MOT, to a dormant block and to no
register, and what each instruction of the TAP loads.
-/
namespace Sys2Proof.Machine

/-! ## Addresses of MOT's window -/

theorem regAddr_toNat (o : Nat) : (BitVec.ofNat 32 (regAddr bMOT o)).toNat = regAddr bMOT o := by
  rw [BitVec.toNat_ofNat, regAddr, bMOT]
  omega

theorem addrBlk_mot (o : Nat) : addrBlk (regAddr bMOT o) = 0x21 := by
  rw [addrBlk, regAddr, bMOT]
  omega

theorem addrOff_mot {o : Nat} (h : o < 0x10000) : addrOff (regAddr bMOT o) = o := by
  rw [addrOff, regAddr, bMOT]
  omega

/-- A register of MOT has one address (R463), on a word boundary. -/
theorem rvAlias_mot (o : Nat) : rvAlias (regAddr bMOT o) = regAddr bMOT o := by
  unfold rvAlias
  simp [addrBlk_mot]

theorem regAddr_mot_aligned {o : Nat} (h : o % 4 = 0) : regAddr bMOT o / 4 * 4 = regAddr bMOT o := by
  rw [regAddr, bMOT]
  omega

theorem blockAt_mot : blockAt 0x21 = true := by decide

/-! ## Accesses through the network -/

/-- An access to a register of MOT reaches it while the block is not dormant. -/
theorem State.netWrite_mot {s : State} {o : Nat} {r : RegRow} {env : RegEnv} (hhw : env.hw = []) (hd : s.dormant 0x21 = false) (hlo : 4 ≤ o)
    (hhi : o < 0x10000) (hw : o % 4 = 0) (hrow : regRow (regAddr bMOT o) = some r) (b : Requester) (v : W) :
    s.netWrite b (regAddr bMOT o) v env = s.setReg (regAddr bMOT o) (r.written (s.reg (regAddr bMOT o)) v) := by
  have hlow : ¬ regAddr bMOT o < 0x10000000 := by unfold regAddr; omega
  have hne : o ≠ 0 := by omega
  have hstore : s.regStore b (regAddr bMOT o) v env = s.plainWrite (regAddr bMOT o) v := by
    unfold State.regStore
    dsimp only
    rw [addrBlk_mot, addrOff_mot hhi]
    simp [hne]
  have hmeet : s.storeMeeting b (regAddr bMOT o) v env = s.regStore b (regAddr bMOT o) v env := by
    unfold State.storeMeeting
    rw [hhw]
  unfold State.netWrite
  dsimp only
  rw [regAddr_mot_aligned hw, addrBlk_mot, blockAt_mot, rvAlias_mot, hd, decide_eq_false hlow, Bool.not_true, Bool.or_false,
    if_neg Bool.false_ne_true, if_neg Bool.false_ne_true, hmeet, hstore, State.plainWrite, hrow]

/-- A read of a register of MOT returns what it holds, and changes nothing, while the block is not dormant. -/
theorem State.netRead_mot {s : State} {o : Nat} {r : RegRow} (hd : s.dormant 0x21 = false) (hw : o % 4 = 0)
    (hrow : regRow (regAddr bMOT o) = some r) (b : Requester) : s.netRead b (regAddr bMOT o) = (s, s.reg (regAddr bMOT o)) := by
  have hlow : ¬ regAddr bMOT o < 0x10000000 := by unfold regAddr; omega
  have hwin : s.winWord (regAddr bMOT o) = none := by simp [State.winWord, addrBlk_mot]
  have hlatch : s.readLatch (regAddr bMOT o) = s := by
    unfold State.readLatch
    rw [addrBlk_mot]
    simp [bMOT, bVGL, bPWR, bALM]
  have hvalue : s.readValue (regAddr bMOT o) = s.reg (regAddr bMOT o) := by simp [State.readValue, addrBlk_mot, State.held, hrow]
  unfold State.netRead
  dsimp only
  rw [regAddr_mot_aligned hw, addrBlk_mot, blockAt_mot, rvAlias_mot, hd, decide_eq_false hlow, Bool.not_true, Bool.or_false,
    if_neg Bool.false_ne_true, if_neg Bool.false_ne_true, hwin, hlatch, hvalue]
  rfl

/-- A write to a dormant block counts as a violation of its requester (R540). -/
theorem State.netWrite_dormant {s : State} {addr : Nat} (hlow : 0x10000000 ≤ addr) (hb : blockAt (addrBlk (addr / 4 * 4)) = true)
    (hd : s.dormant (addrBlk (addr / 4 * 4)) = true) (b : Requester) (v : W) (env : RegEnv) :
    s.netWrite b addr v env = s.mgtViolate (violOf b) := by
  have halign : ¬ addr / 4 * 4 < 0x10000000 := by omega
  unfold State.netWrite
  simp [halign, hb, hd]

/-- A write outside any block changes nothing (R16). -/
theorem State.netWrite_noBlock {s : State} {addr : Nat} (hb : blockAt (addrBlk (addr / 4 * 4)) = false) (b : Requester) (v : W) (env : RegEnv) :
    s.netWrite b addr v env = s := by
  unfold State.netWrite
  simp [hb]

/-! ## The TAP -/

/-- Loading an instruction changes DBG's part alone. -/
theorem State.tapLoad_sameBut (s : State) (ir outputs : Nat) : SameBut [.dbg] s (s.tapLoad ir outputs) := (SameBut.refl _ s).step (s.modDbg_puts _)

theorem State.tapLoad_dormant (s : State) (ir outputs b : Nat) : (s.tapLoad ir outputs).dormant b = s.dormant b := rfl
theorem State.tapLoad_reg (s : State) (ir outputs a : Nat) : (s.tapLoad ir outputs).reg a = s.reg a := rfl

/-- A block that is not dormant: PWR is not in PL5-hold (R458). -/
theorem State.no_hold_of_not_dormant {s : State} {b : Nat} (hd : s.dormant b = false) : s.pwr.hold = none := by
  rw [State.dormant] at hd
  simp only [Bool.or_eq_false_iff] at hd
  exact Option.isNone_iff_eq_none.mp (by simpa using hd.1.1)

/-- DBG_ACCESS with LOCK at 0 and no PL5-hold: one access, whose data and DONE the next capture shows. -/
theorem execDbgAccess_write {s t : State} (hlock : s.rbit dbgCtrl 1 = false) {addr data : BitVec 32} {env : RegEnv}
    (haccess : (s.tapLoad 0x20 0).netWrite .dbg addr.toNat data env = t) (hhold : t.pwr.hold = none) :
    execDbgAccess addr data true env s = .next (t.modDbg fun d => { d with reply := (data.toNat, 1) }) := by
  have hmod : (t.modDbg fun d => { d with reply := (data.toNat, 1) }).pwr.hold = none := hhold
  unfold execDbgAccess
  rw [hlock, if_neg Bool.false_ne_true]
  dsimp only
  rw [if_pos rfl, haccess, hmod]
  rfl

theorem execDbgAccess_read {s t : State} (hlock : s.rbit dbgCtrl 1 = false) {addr data : BitVec 32} {env : RegEnv} {x : W}
    (haccess : (s.tapLoad 0x20 0).netRead .dbg addr.toNat = (t, x)) (hhold : t.pwr.hold = none) :
    execDbgAccess addr data false env s = .next (t.modDbg fun d => { d with reply := (x.toNat, 1) }) := by
  have hmod : (t.modDbg fun d => { d with reply := (x.toNat, 1) }).pwr.hold = none := hhold
  unfold execDbgAccess
  rw [hlock, if_neg Bool.false_ne_true]
  dsimp only
  rw [if_neg Bool.false_ne_true, haccess, hmod]
  rfl

/-- Settles O31, from what an access to a register of MOT, to a dormant block and to no register does, and from what each instruction
loads. -/
theorem registerAccessCommandsComplete : Obligations.RegisterAccessCommandsComplete := by
  unfold Obligations.RegisterAccessCommandsComplete
  intro s
  refine ⟨?write, ?dormant, ?noBlock, ?locked, ?dbgWrite, ?dbgRead, ?instructions, ?samplePreload, ?halt, ?lock⟩
  case write =>
    intro b o r v env hhw hd hlo hhi hw hrow
    refine ⟨_, rfl, ?_⟩
    rw [regAddr_toNat, State.netWrite_mot hhw hd hlo hhi hw hrow]
    exact ⟨by rw [State.reg_setReg, if_pos rfl], (Only.refl _ _ s).setReg _⟩
  case dormant =>
    intro b a v env hlow hb hd
    exact ⟨_, rfl, State.netWrite_dormant hlow hb hd b v env⟩
  case noBlock =>
    intro b a v env hb
    exact ⟨_, rfl, State.netWrite_noBlock hb b v env⟩
  case locked =>
    intro a d w env hlock
    refine ⟨_, congrArg Host.Outcome.next (if_pos hlock), rfl, rfl, ?_⟩
    exact (s.tapLoad_sameBut 0xFF 0).step (State.modDbg_puts _ _)
  case dbgWrite =>
    intro o d r env hhw hlock hd hlo hhi hw hrow
    have hwrite := State.netWrite_mot (s := s.tapLoad 0x20 0) hhw hd hlo hhi hw hrow .dbg d
    rw [State.tapLoad_reg] at hwrite
    have haccess := execDbgAccess_write hlock ((congrArg ((s.tapLoad 0x20 0).netWrite .dbg · d env) (regAddr_toNat o)).trans hwrite) (State.no_hold_of_not_dormant (s := s) hd)
    refine ⟨_, haccess, rfl, rfl, ?_, ?_⟩
    · rw [State.reg_modDbg, State.reg_setReg, if_pos rfl]
    · exact (((Only.refl [.dbg] _ s).step (s.modDbg_puts _)).setReg _).step (State.modDbg_puts _ _)
  case dbgRead =>
    intro o d r env hlock hd _ hw hrow
    have hread := State.netRead_mot (s := s.tapLoad 0x20 0) hd hw hrow .dbg
    rw [State.tapLoad_reg] at hread
    have haccess := execDbgAccess_read hlock (data := d) (env := env) ((congrArg ((s.tapLoad 0x20 0).netRead .dbg) (regAddr_toNat o)).trans hread) (State.no_hold_of_not_dormant (s := s) hd)
    refine ⟨_, haccess, rfl, rfl, ?_⟩
    exact (s.tapLoad_sameBut 0x20 0).step (State.modDbg_puts _ _)
  case instructions =>
    have hload (ir outputs : Nat) : (s.tapLoad ir outputs).dbg.ir = ir ∧ (s.tapLoad ir outputs).dbg.outputs = outputs ∧
        (s.tapLoad ir outputs).dbg.tapActive = true ∧ SameBut [.dbg] s (s.tapLoad ir outputs) := ⟨rfl, rfl, rfl, s.tapLoad_sameBut ir outputs⟩
    simp only [List.forall_mem_cons, List.not_mem_nil, false_imp_iff, implies_true, and_true]
    refine ⟨⟨_, rfl, hload _ _⟩, ⟨_, rfl, hload _ _⟩, ⟨_, rfl, hload _ _⟩, ⟨_, rfl, hload _ _⟩, ⟨_, rfl, hload _ _⟩, ⟨_, rfl, hload _ _⟩,
      ⟨_, rfl, hload _ _⟩, ⟨_, rfl, rfl, rfl, rfl, ?_⟩⟩
    exact (s.tapLoad_sameBut 0xFF 0).step (State.modDbg_puts _ _)
  case samplePreload =>
    intro cells
    exact ⟨_, rfl, rfl, rfl, rfl, (s.tapLoad_sameBut 0x01 0).step (State.modDbg_puts _ _)⟩
  case halt =>
    intro on hlock
    refine ⟨_, congrArg Host.Outcome.next (if_neg (by simp [hlock])), State.rbit_setRbit_same _ _ _ _ (by decide), (Only.refl _ _ s).setReg _⟩
  case lock =>
    refine ⟨_, rfl, ?_, State.rbit_setRbit_same _ _ _ _ (by decide), ((Only.refl _ _ s).setReg _).setReg _⟩
    simp [State.lockSet, State.rbit, bitAt_putBit]

end Sys2Proof.Machine
end

section
/-!
PROOFS. Reservations (O17): what each command makes of a namespace's reservation, and that its context ends.
-/
namespace Sys2Proof.Machine

/-! ## Contexts -/

@[simp] theorem State.ctxAt_setCtx (s : State) (c k : Nat) (x : Option Ctx) : (s.setCtx c x).ctxAt k = if k = c then x else s.ctxAt k := tget_tset ..

theorem State.ctxAt_congr {s t : State} (h : t.ctx = s.ctx) (k : Nat) : t.ctxAt k = s.ctxAt k := congrArg (tget _ · k) h

@[simp] theorem State.ctxAt_modFw (s : State) (f : Fw → Fw) (k : Nat) : (s.modFw f).ctxAt k = s.ctxAt k := rfl

@[simp] theorem State.ctxAt_put (s : State) (q : Nat) (p : Pkt) (k : Nat) : (s.put q p).ctxAt k = s.ctxAt k :=
  State.ctxAt_congr (State.put_frame q p (P := .part .ctx) (Fr.refl s) rfl).1 k

@[simp] theorem State.ctxAt_unreserve (s : State) (q n k : Nat) : (s.unreserve q n).ctxAt k = s.ctxAt k :=
  State.ctxAt_congr (State.unreserve_frame q n (P := .part .ctx) (Fr.refl s) rfl).1 k

theorem State.ctxAt_onlyIf {f : State → State} {k : Nat} (hf : ∀ s : State, (f s).ctxAt k = s.ctxAt k) (s : State) (b : Bool) :
    (s.onlyIf b f).ctxAt k = s.ctxAt k := by
  cases b with
  | false => rfl
  | true => exact hf s

/-- The cells of a context's data queue go back: no context shows it. -/
theorem State.ctxAt_returnData (s : State) (x : Ctx) (k : Nat) :
    (match s.dataQueue x with
      | some q => s.unreserve q 17
      | none => s).ctxAt k = s.ctxAt k := by
  split
  · exact State.ctxAt_unreserve ..
  · rfl

/-- A context's reservations go back: its own entry shows none, and every other context is as it was. -/
theorem State.ctxAt_releaseCtx (s : State) (c : Nat) (used : Bool) (k : Nat) : (s.releaseCtx c used).ctxAt k =
    if k = c then (s.ctxAt c).map fun x => { x with granted := false, bufs := 0 } else s.ctxAt k := by
  unfold State.releaseCtx
  split
  next hnone =>
    split
    · next hk => rw [hk, hnone]; rfl
    · rfl
  next x hx =>
    rw [State.ctxAt_setCtx]
    split
    · rw [hx]; rfl
    · exact (State.ctxAt_onlyIf (fun s => s.ctxAt_unreserve 4 1 k) _ _).trans (State.ctxAt_onlyIf (fun s => s.ctxAt_returnData x k) s _)

/-- Firmware's completion of a context marks it ended, and leaves every other context. -/
theorem State.ctxAt_fwComplete (s : State) (c : Nat) (e : Cpl) (k : Nat) : (s.fwComplete c e).ctxAt k =
    if k = c then (s.ctxAt c).map fun x => { x with granted := false, bufs := 0, ended := true, begun := false } else s.ctxAt k := by
  unfold State.fwComplete
  rw [State.ctxAt_put, State.markEnded, State.ctxAt_releaseCtx, if_pos rfl]
  cases hx : s.ctxAt c with
  | none =>
    simp only [Option.map_none]
    rw [State.ctxAt_releaseCtx, hx]
    rfl
  | some x =>
    simp only [Option.map_some, State.ctxAt_setCtx]
    split
    · rfl
    · next hk => rw [State.ctxAt_releaseCtx, if_neg hk]

/-! ## A context that is to end -/

/-- The context runs, or has ended. -/
def State.Ending (s : State) (c : Nat) : Prop := ∃ y, s.ctxAt c = some y ∧ (y.ended = true ∨ y.st = .running)

/-- A context that runs or has ended has ended once firmware ends it. -/
theorem State.Ending.ended {s : State} {c : Nat} (h : s.Ending c) (e : Cpl) : ∃ y, (s.ctxEnd c e).ctxAt c = some y ∧ y.ended = true := by
  obtain ⟨y, hy, hst⟩ := h
  unfold State.ctxEnd
  rw [hy]
  dsimp only
  split
  · exact ⟨{ y with granted := false, bufs := 0, ended := true, begun := false }, by
      rw [State.ctxAt_fwComplete, if_pos rfl, State.ctxAt_setCtx, if_pos rfl, Option.map_some], rfl⟩
  next hnot =>
    refine ⟨y, hy, ?_⟩
    by_contra hend
    exact hnot ⟨hst.resolve_left hend, by simpa using hend⟩

/-- A context that firmware does not end is as it was. -/
theorem State.ctxAt_ctxEnd_other (s : State) {c k : Nat} (hk : k ≠ c) (e : Cpl) : (s.ctxEnd c e).ctxAt k = s.ctxAt k := by
  unfold State.ctxEnd
  split
  · split
    · rw [State.ctxAt_fwComplete, if_neg hk, State.ctxAt_setCtx, if_neg hk]
    · rfl
  · rfl

section
variable {s : State} {c : Nat}

theorem State.Ending.ctxEnd (h : s.Ending c) (k : Nat) (e : Cpl) : (s.ctxEnd k e).Ending c := by
  by_cases hk : c = k
  · obtain ⟨y, hy, hend⟩ := hk ▸ h.ended e
    exact ⟨y, hk ▸ hy, .inl hend⟩
  · obtain ⟨y, hy, hst⟩ := h
    exact ⟨y, (s.ctxAt_ctxEnd_other hk e).trans hy, hst⟩

theorem State.Ending.asyncEvent (h : s.Ending c) (p kind : Nat) : (s.asyncEvent p kind).Ending c := by
  unfold State.asyncEvent
  split
  · exact h.ctxEnd _ _
  · exact h

theorem State.Ending.of_fresh {x : Ctx} (h : s.fresh c = some x) : s.ctxAt c = some x ∧ s.Ending c := by
  unfold State.fresh at h
  split at h
  next y hy =>
    split at h
    next hrun =>
      obtain rfl := Option.some.inj h
      exact ⟨hy, y, hy, .inr hrun.1⟩
    · cases h
  · cases h

/-! ## Reservations -/

theorem State.rsvOf_congr {t : State} (h : t.fw.rsv = s.fw.rsv) (nsid : Nat) : t.rsvOf nsid = s.rsvOf nsid := by
  unfold State.rsvOf
  rw [h]

@[simp] theorem State.rsvOf_ctxEnd (s : State) (c : Nat) (e : Cpl) (nsid : Nat) : (s.ctxEnd c e).rsvOf nsid = s.rsvOf nsid :=
  State.rsvOf_congr (congrArg Fw.rsv (State.ctxEnd_frame c e (P := .part .fw) (Fr.refl s) rfl).1) nsid

@[simp] theorem State.rsvOf_toHost (s : State) (c : Nat) (x : Ctx) (r : HostReply) (nsid : Nat) : (s.toHost c x r).rsvOf nsid = s.rsvOf nsid :=
  State.rsvOf_congr (congrArg Fw.rsv (State.toHost_frame c x r (P := .part .fw) (Fr.refl s) rfl).1) nsid

@[simp] theorem State.rsvOf_asyncEvent (s : State) (p kind nsid : Nat) : (s.asyncEvent p kind).rsvOf nsid = s.rsvOf nsid := by
  unfold State.asyncEvent
  split
  · exact State.rsvOf_ctxEnd ..
  · rfl

@[simp] theorem State.rsvOf_rsvNotice (s : State) (n self kind nsid : Nat) : (s.rsvNotice n self kind).rsvOf nsid = s.rsvOf nsid := by
  unfold State.rsvNotice
  generalize List.filter _ _ = ports
  induction ports generalizing s with
  | nil => rfl
  | cons p ps ih => exact (ih _).trans (State.rsvOf_asyncEvent ..)

/-- The reservation of a namespace names it. -/
theorem State.rsvOf_nsid (s : State) (nsid : Nat) : (s.rsvOf nsid).nsid = nsid := by
  unfold State.rsvOf
  cases hfind : s.fw.rsv.find? fun r => r.nsid == nsid with
  | none => rfl
  | some r => simpa using List.find?_some hfind

/-- A reservation that is set is the namespace's. -/
theorem State.rsvOf_setRsv (s : State) (r : Rsv) : (s.setRsv r).rsvOf r.nsid = r := by
  have hnone : (s.fw.rsv.filter fun q => q.nsid != r.nsid).find? (fun q => q.nsid == r.nsid) = none := by
    simp [List.find?_eq_none]
  simp [State.rsvOf, State.setRsv, hnone]

theorem State.Ending.setRsv (h : s.Ending c) (r : Rsv) : (s.setRsv r).Ending c := h

theorem State.Ending.toHost (h : s.Ending c) (k : Nat) (x : Ctx) (r : HostReply) : (s.toHost k x r).Ending c := by
  obtain ⟨y, hy, hst⟩ := h
  exact ⟨y, (State.ctxAt_put ..).trans hy, hst⟩

/-! ## The commands -/

/-- A command that firmware carries out at once: what it answers is the row's state with the context ended. -/
theorem State.adminRow_of_fresh {x : Ctx} {f : State → Ctx → HostOp → Option AdminRes} {t : State} {e : Cpl} (h : s.fresh c = some x)
    (hf : f s x x.cmd.op = some (t, e, none)) : s.adminRow c f = t.ctxEnd c e := by
  unfold State.adminRow
  rw [h]
  dsimp only
  rw [hf]

end

/-- Settles O17: each command sets the namespace's reservation, of which neither the notices to the other hosts nor the completion changes
anything. -/
theorem reservationCommandsComplete : Obligations.ReservationCommandsComplete := by
  unfold Obligations.ReservationCommandsComplete
  intro c x s hfresh h r ended
  obtain ⟨hctx, hending⟩ := State.Ending.of_fresh hfresh
  have hset (q : Rsv) (hq : q.nsid = x.cmd.nsid) : (s.setRsv q).rsvOf x.cmd.nsid = q := hq ▸ s.rsvOf_setRsv q
  have hnsid : r.nsid = x.cmd.nsid := s.rsvOf_nsid _
  refine ⟨?register, ?report, ?acquire, ?release⟩
  case register =>
    intro cur new ign hop hkey
    refine ⟨_, congrArg Host.Outcome.next (State.adminRow_of_fresh (e := {}) hfresh (t := s.setRsv
      { r with gen := (r.gen + 1) % 2 ^ 32, keys := r.keys ++ [(h, new)] }) ?_), ?_, (hending.setRsv _).ended _⟩
    · rw [hop]
      dsimp only
      rw [show (s.rsvOf x.cmd.nsid).keyOf (s.hostOf x.port) = none from hkey]
      rfl
    · exact (State.rsvOf_ctxEnd ..).trans (hset _ hnsid)
  case report =>
    intro hop
    have hrow : s.adminRow c (fun s x o => match o with
        | .rsvReport => let r := s.rsvOf x.cmd.nsid; some (s, {}, some (.reservation r.gen r.type_ r.holder r.keys))
        | _ => none) = (s.toHost c x (.reservation r.gen r.type_ r.holder r.keys)).ctxEnd c {} := by
      unfold State.adminRow
      rw [hfresh]
      dsimp only
      rw [hop]
    refine ⟨_, congrArg Host.Outcome.next hrow, ?_, (hending.toHost c x _).ended _⟩
    exact (State.rsvOf_ctxEnd ..).trans (State.rsvOf_toHost ..)
  case acquire =>
    intro ty cur pre hop hkey hlo hhi hfree
    refine ⟨_, congrArg Host.Outcome.next (State.adminRow_of_fresh (e := {}) hfresh (t := s.setRsv { r with type_ := ty, holder := some h }) ?_), ?_,
      (hending.setRsv _).ended _⟩
    · rw [hop]
      dsimp only
      rw [show (s.rsvOf x.cmd.nsid).keyOf (s.hostOf x.port) = some cur from hkey, show (s.rsvOf x.cmd.nsid).type_ = 0 from hfree,
        if_neg (by simp), if_neg (by omega), if_pos rfl, if_pos rfl]
    · exact (State.rsvOf_ctxEnd ..).trans (hset _ hnsid)
  case release =>
    intro cur hop hkey htype hholder
    refine ⟨_, congrArg Host.Outcome.next (State.adminRow_of_fresh (e := {}) hfresh
      (t := (s.setRsv { r with type_ := 0, holder := none }).rsvNotice x.cmd.nsid h 2) ?_), ?_⟩
    · rw [hop]
      dsimp only
      rw [show (s.rsvOf x.cmd.nsid).keyOf (s.hostOf x.port) = some cur from hkey,
        show (s.rsvOf x.cmd.nsid).holder = some (s.hostOf x.port) from hholder, if_neg (by simp), if_pos rfl,
        if_neg (by simpa using htype), if_neg (by simp [r])]
    · have hfreed := ((State.rsvOf_ctxEnd _ c {} _).trans (State.rsvOf_rsvNotice _ x.cmd.nsid h 2 _)).trans
        (hset { r with type_ := 0, holder := none } hnsid)
      exact ⟨congrArg Rsv.type_ hfreed, congrArg Rsv.holder hfreed, (congrArg Rsv.keys hfreed).trans rfl⟩

end Sys2Proof.Machine
end

section
/-!
PROOFS. Bits and fields of registers under writes of others. O23 fails: with a power state that is none of the four, the target level depends
on PWR_STATUS, where it is written.
-/
namespace Sys2Proof.Machine

set_option Elab.async false

/-! ## Bits and fields under writes -/

theorem State.rbit_setRbit {s : State} {a b i j : Nat} {x : Bool} (hj : j < 32) :
    (s.setRbit a i x).rbit b j = if b = a ∧ i = j then x else s.rbit b j := by
  rw [State.rbit, State.reg_setRbit]
  by_cases hb : b = a
  · rw [if_pos hb, bitAt_putBit _ _ _ _ hj, hb]
    simp [State.rbit]
  · rw [if_neg hb, if_neg fun h => hb h.1, State.rbit]

theorem State.rbit_raise {s : State} {a b i j : Nat} (hj : j < 32) : (s.raise a i).rbit b j = if b = a ∧ i = j then true else s.rbit b j :=
  State.rbit_setRbit hj

/-- A bit that a field written does not hold. -/
theorem State.rbit_setRfld_other {s : State} {a lo len v b j : Nat} (hj : j < 32) (hd : b ≠ a ∨ j < lo ∨ lo + len ≤ j) :
    (s.setRfld a lo len v).rbit b j = s.rbit b j := by
  rw [State.rbit, State.reg_setRfld]
  split
  next hb => rw [bitAt_setFld _ _ _ _ _ hj, if_neg (by omega), State.rbit, hb]
  · rfl

/-- A field that does not hold the bit written. -/
theorem State.rfld_setRbit_other {s : State} {a i lo len b : Nat} {x : Bool} (h : lo + len ≤ 32) (hd : b ≠ a ∨ i < lo ∨ lo + len ≤ i) :
    (s.setRbit a i x).rfld b lo len = s.rfld b lo len := by
  rw [State.rfld, State.reg_setRbit]
  split
  next hb => rw [fld_putBit _ _ _ _ _ h (by omega), State.rfld, hb]
  · rfl

theorem State.rfld_raise_other {s : State} {a i lo len b : Nat} (h : lo + len ≤ 32) (hd : b ≠ a ∨ i < lo ∨ lo + len ≤ i) :
    (s.raise a i).rfld b lo len = s.rfld b lo len := State.rfld_setRbit_other h hd

/-- A field that shares no bit with the one written. -/
theorem State.rfld_setRfld_other {s : State} {a lo len v b lo' len' : Nat} (h : lo' + len' ≤ 32)
    (hd : b ≠ a ∨ lo' + len' ≤ lo ∨ lo + len ≤ lo') : (s.setRfld a lo len v).rfld b lo' len' = s.rfld b lo' len' := by
  rw [State.rfld, State.reg_setRfld]
  split
  next hb => rw [fld_setFld_other _ _ _ _ _ _ h (by omega), State.rfld, hb]
  · rfl

/-- A word's registers are where they were: so are its bits and fields. -/
theorem State.rbit_congr {s t : State} {a : Nat} (h : t.reg a = s.reg a) (i : Nat) : t.rbit a i = s.rbit a i := congrArg (bitAt · i) h
theorem State.rfld_congr {s t : State} {a : Nat} (h : t.reg a = s.reg a) (lo len : Nat) : t.rfld a lo len = s.rfld a lo len := congrArg (fld · lo len) h

/-! ## The target level -/

/-- An exit is under way, and the power state that firmware last asked for has the number whose idle time is PWR_STATUS. -/
def statusAsIdleTime : State :=
  let s := (State.reset.setReg pwrCtrl 0xF).setReg pwrStatus 0x38
  let s := s.each [1, 2, 3] fun s n => s.setReg (pwrIdle n) 0xFFFFFF
  { s.setReg (pwrIdle 4) 40 with pwr := { exit := some (1, 1), psReq := 16382 } }

/-- Refutes O23: the target level that PWR_STATUS takes is that of its value before, not of the state that follows. -/
theorem not_powerLevelCommandsComplete : ¬ Obligations.PowerLevelCommandsComplete := by
  intro h
  obtain ⟨hexpiry, -⟩ := h statusAsIdleTime
  have htarget := (hexpiry 0 (by decide +kernel) (by decide +kernel)).of_execNext.2.1
  exact absurd htarget (by decide +kernel)

end Sys2Proof.Machine
end

section
/-!
PROOFS. The Almanac (O26): what ALM makes of a record, of its open page, and of an actuator's mirror.
-/
namespace Sys2Proof.Machine

/-! ## Records -/

/-- The open page, the pages that wait for the flash and the rest of ALM apart: the next number and the entries. -/
theorem State.closePage_keeps (s : State) : s.closePage.alm.seq = s.alm.seq ∧ s.closePage.alm.entries = s.alm.entries := by
  unfold State.closePage
  split <;> exact ⟨rfl, rfl⟩

theorem State.putBytes_keeps (n : Nat) : ∀ (s : State) (first : Bool) (bs : List Byte),
    (s.putBytes n first bs).1.alm.seq = s.alm.seq ∧ (s.putBytes n first bs).1.alm.entries = s.alm.entries := by
  induction n with
  | zero => exact fun _ _ _ => ⟨rfl, rfl⟩
  | succ n ih =>
    intro s first bs
    have hpage : ∀ (u : State) (b : Bool), (u.onlyIf b fun s => s.closePage).alm.seq = u.alm.seq ∧
        (u.onlyIf b fun s => s.closePage).alm.entries = u.alm.entries := by
      intro u b
      cases b with
      | false => exact ⟨rfl, rfl⟩
      | true => exact u.closePage_keeps
    unfold State.putBytes
    split
    · exact ⟨rfl, rfl⟩
    · dsimp only
      split
      · exact hpage _ _
      · exact ⟨(ih _ _ _).1.trans (hpage _ _).1, (ih _ _ _).2.trans (hpage _ _).2⟩


/-- What an accepted record leaves: the next number is one higher, and the entry with the record's contents stands last. -/
def TookRecord (s : State) (r : AlmSub) (payload : List Byte) (t : State) : Prop :=
  t.alm.seq = s.alm.seq + 1 ∧
    ∃ e, t.alm.entries = s.alm.entries ++ [e] ∧ e.seq = s.alm.seq ∧ e.code = r.code ∧ e.payload = payload ∧ e.epoch = s.vgl.epoch

theorem State.almTake_took (s : State) (r : AlmSub) (source : Nat) : TookRecord s r r.payload (s.almTake r source none) := by
  have hcount : (s.count (almCtr 0)).alm = s.alm := (State.count_frame_any _ (P := .part .alm) rfl (Fr.refl _)).1
  unfold State.almTake
  dsimp only
  set e : AlmEntry := { seq := s.alm.seq, code := r.code, flags := _, epoch := s.vgl.epoch, payload := r.payload, crc := _, page := none }
  set p : State × Option Nat := if (s.count (almCtr 0)).rbit almStatus 1 then (s.count (almCtr 0), none)
    else (s.count (almCtr 0)).putBytes 3 true e.bytes with hput
  have hkeeps : p.1.alm.seq = s.alm.seq ∧ p.1.alm.entries = s.alm.entries := by
    rw [hput, ← hcount]
    split
    · exact ⟨rfl, rfl⟩
    · exact State.putBytes_keeps ..
  clear_value p
  set u : State := { p.1 with alm := _ }
  have hkept : ∀ b : Bool, (u.onlyIf b fun s => (s.count (almCtr 2)).raise almInt 4).almKick.alm = u.alm := fun b =>
    (State.almKick_frame (P := .part .alm) (State.onlyIf_frame _ (fun s => State.raise_frame_any (P := .part .alm) _ _ rfl (State.count_frame_any _ rfl (Fr.refl s)))
      (Fr.refl u)) rfl).1
  refine ⟨(congrArg Alm.seq (hkept _)).trans (congrArg (· + 1) hkeeps.1), _,
    (congrArg Alm.entries (hkept _)).trans (congrArg (· ++ _) hkeeps.2), ?_, ?_, ?_, ?_⟩ <;> rfl


/-! ## Acceptance -/

/-- What a change of ALM's buckets leaves of what counts for a record's number and entry. -/
theorem TookRecord.of_same {s u t : State} {r : AlmSub} {payload : List Byte} (hseq : u.alm.seq = s.alm.seq)
    (hentries : u.alm.entries = s.alm.entries) (hvgl : u.vgl = s.vgl) (h : TookRecord u r payload t) : TookRecord s r payload t := by
  unfold TookRecord at h ⊢
  rwa [hseq, hentries, hvgl] at h

theorem State.almAccept_took {s : State} {r : AlmSub} {source : Nat} (hok : AlmSubOk r)
    (htokens : s.codeClass r.code.toNat = 7 ∨ 0 < (s.refilled r.code.toNat).tokens ∧ (s.refilled r.code.toNat).supp = 0) :
    TookRecord s r r.payload (s.almAccept r source) := by
  rw [State.almAccept, if_neg (by simp [hok])]
  dsimp only
  by_cases hfixed : s.codeClass r.code.toNat = 7
  · rw [if_pos hfixed]
    exact State.almTake_took ..
  · obtain ⟨hpos, hsupp⟩ := htokens.resolve_left hfixed
    rw [if_neg hfixed, if_neg (Nat.ne_of_gt hpos), if_pos hsupp]
    exact .of_same rfl rfl rfl (State.almTake_took ..)

theorem State.almAccept_suppressed {s : State} {r : AlmSub} {source : Nat} (hok : AlmSubOk r) (hrated : s.codeClass r.code.toNat ≠ 7)
    (hempty : (s.refilled r.code.toNat).tokens = 0) : (s.almAccept r source).alm.seq = s.alm.seq ∧
      (s.almAccept r source).alm.entries = s.alm.entries ∧ (s.almAccept r source).rbit almInt 2 = true := by
  rw [State.almAccept, if_neg (by simp [hok])]
  dsimp only
  rw [if_neg hrated, if_pos hempty]
  set u : State := { s with alm := _ }
  have halm : ((u.count (almCtr 1)).raise almInt 2).alm = u.alm :=
    (State.raise_frame_any (P := .part .alm) _ _ rfl (State.count_frame_any _ rfl (Fr.refl u))).1
  exact ⟨(congrArg Alm.seq halm).trans rfl, (congrArg Alm.entries halm).trans rfl, (State.rbit_raise (by omega)).trans (if_pos ⟨rfl, rfl⟩)⟩

theorem State.almAccept_bad {s : State} {r : AlmSub} {source : Nat} (hbad : AlmSubOk r = false) :
    (s.almAccept r source).rbit almInt 3 = true ∧ SameBut [.regs, .cellq] s (s.almAccept r source) := by
  rw [State.almAccept, if_pos (by simp [hbad])]
  exact ⟨(State.rbit_raise (by omega)).trans (if_pos ⟨rfl, rfl⟩),
    sameBut_of_frame (m := 0x7fffffffffff80004001)
      (fun P hp => State.raise_frame_any _ _ (Scope.outside_mono hp (by decide)) (State.count_frame_any _ (Scope.outside_mono hp (by decide)) (Fr.refl s)))
      (by decide)⟩

/-! ## The open page -/

theorem State.closePage_of_ne {s : State} (h : s.alm.page ≠ []) : s.closePage =
    ({ s with alm := { s.alm with
        progQ := s.alm.progQ ++ [leBytes 2 s.alm.pageFirst ++ leBytes 2 0 ++ s.alm.page ++ List.replicate (508 - s.alm.page.length) 0xFF]
        page := [], pageFirst := 0xFFFF } } : State).setRbit almStatus 2 false :=
  if_neg (by simpa using h)

theorem State.closePage_page (s : State) : s.closePage.alm.page = [] := by
  by_cases h : s.alm.page = []
  · rw [State.closePage, if_pos (by simp [h]), h]
  · rw [State.closePage_of_ne h]
    rfl

theorem State.closePage_ploss (s : State) : s.closePage.alm.ploss = s.alm.ploss := by
  unfold State.closePage
  split <;> rfl

/-- A change of ALM's own part is none of another part or of a register. -/
theorem State.withAlm_puts (s : State) (a : Alm) : Part.alm.Puts s { s with alm := a } := by
  intro r hr
  cases r <;> simp_all [Part.same]

theorem State.withFls_puts (s : State) (f : Fls) : Part.fls.Puts s { s with fls := f } := by
  intro r hr
  cases r <;> simp_all [Part.same]

/-- The parts and registers that a flush of the open page may change. -/
def FlushOnly (s t : State) : Prop := Only [.fls, .alm] [almStatus, regAddr bFLS 0x4] s t

theorem State.closePage_only (s : State) : FlushOnly s s.closePage := by
  unfold State.closePage
  split
  · exact .refl ..
  · exact ((Only.refl _ _ s).step (s.withAlm_puts _)).setReg _

theorem State.almKick_only (s : State) : FlushOnly s s.almKick := by
  unfold State.almKick
  split
  · exact .ite (.refl ..) ((((Only.refl _ _ s).step (s.withFls_puts _)).setReg _).setReg _)
  · exact .refl ..

theorem State.flush_only (s : State) : FlushOnly s s.flush := s.closePage_only.trans s.closePage.almKick_only

theorem State.almKick_alm (s : State) : s.almKick.alm = s.alm := (State.almKick_frame (P := .part .alm) (Fr.refl s) rfl).1

theorem State.flush_page (s : State) : s.flush.alm.page = [] := (congrArg Alm.page s.closePage.almKick_alm).trans s.closePage_page

/-- A page that holds something waits for the flash after the flush, and the bit that says that it is open is down. -/
theorem State.flush_of_ne {s : State} (h : s.alm.page ≠ []) :
    s.flush.alm.progQ = s.alm.progQ ++
      [leBytes 2 s.alm.pageFirst ++ leBytes 2 0 ++ s.alm.page ++ List.replicate (508 - s.alm.page.length) 0xFF] ∧
    s.flush.rbit almStatus 2 = false := by
  have hstatus : s.closePage.almKick.reg almStatus = s.closePage.reg almStatus :=
    reg_of_frame (State.almKick_frame (Fr.refl _) ⟨rfl, rfl⟩)
  refine ⟨(congrArg Alm.progQ s.closePage.almKick_alm).trans ?_, (State.rbit_congr hstatus 2).trans ?_⟩
  · rw [State.closePage_of_ne h]
    rfl
  · rw [State.closePage_of_ne h]
    exact (State.rbit_setRbit (by omega)).trans (if_pos ⟨rfl, rfl⟩)

/-! ## The boot scan -/

theorem outsideCpl_almStatus : OutsideCpl almStatus := outsideCpl_regAddr (by decide)
theorem outsideCpl_almInt : OutsideCpl almInt := outsideCpl_regAddr (by decide)

/-- Records of bad pages: what they leave, and the bit that each of them raises. -/
theorem State.badPages_leave (bad : List Nat) : ∀ s : State, let t := s.each bad fun s p => (s.raise almInt 5).almanac 0x030B bALM 0 [(4, p)]
    SameBut [.regs, .cellq] s t ∧ t.reg almStatus = s.reg almStatus ∧ (bad ≠ [] ∨ s.rbit almInt 5 = true → t.rbit almInt 5 = true) := by
  induction bad with
  | nil => exact fun s => ⟨.refl _ s, rfl, fun h => h.resolve_left fun hne => hne rfl⟩
  | cons p ps ih =>
    intro s
    dsimp only
    obtain ⟨hparts, hstatus, hint⟩ := ih ((s.raise almInt 5).almanac 0x030B bALM 0 [(4, p)])
    have hother : ∀ b, OutsideCpl b → ((s.raise almInt 5).almanac 0x030B bALM 0 [(4, p)]).reg b = (s.raise almInt 5).reg b :=
      fun b hb => State.almanac_reg _ _ _ _ _ _ hb
    refine ⟨.trans (sameBut_of_frame (m := 0x1000000004001) (fun P hp => State.almanac_frame _ _ _ _ (State.raise_frame_any _ _
      (Scope.outside_mono hp (by decide)) (Fr.refl s))) (by decide)) hparts, hstatus.trans ?_, fun _ => hint (.inr ?_)⟩
    · rw [hother _ outsideCpl_almStatus, State.raise, State.reg_setRbit, if_neg (by unfold almStatus almInt; simp)]
    · rw [State.rbit_congr (hother _ outsideCpl_almInt), State.rbit_raise (by omega), if_pos ⟨rfl, rfl⟩]

/-! ## The mirrors -/

/-- Firmware's job, as `issue` appends it. -/
theorem State.issue_jobs (s : State) (j : Job) : ∃ site, (s.issue j).fw.jobs = s.fw.jobs ++ [{ j with tag := s.fw.nextTag, site := site }] := by
  unfold State.issue
  dsimp only
  cases s.formatOf j.zone with
  | none => exact ⟨j.site, rfl⟩
  | some g => exact ⟨_, rfl⟩

theorem State.issue_sameBut (s : State) (j : Job) : SameBut [.fw] s (s.issue j) := (SameBut.refl _ s).step (s.modFw_puts _)

/-- The oldest entry fits: so some entry ends what is written. -/
theorem fitting_getLast? {n : Nat} {e : AlmEntry} {es : List AlmEntry} (h : e.bytes.length ≤ n) : ∃ x, (fitting n (e :: es)).getLast? = some x := by
  rw [fitting, if_pos h]
  exact ⟨_, List.getLast?_eq_some_getLast (List.cons_ne_nil _ _)⟩

section
variable {s : State} {a : Nat} (htakes : s.mirrorTakes a = true)
include htakes

theorem State.mirrorWrite_full (upTo : Nat) (hfull : mirrorStripes (s.ring a).d ≤ (s.reg (almMirrorMark a)).toNat) :
    s.mirrorWrite a upTo = ((s.setRbit almStatus (3 + a) true).raise almInt 1).almanac 0x030A bALM a [] := by
  unfold State.mirrorWrite
  dsimp only
  rw [htakes, if_neg (by simp), if_pos hfull]

theorem State.mirrorWrite_idle (upTo : Nat) (hroom : (s.reg (almMirrorMark a)).toNat < mirrorStripes (s.ring a).d)
    (hnone : ∀ e ∈ s.unmirrored a, upTo < e.seq.toNat) : s.mirrorWrite a upTo = s := by
  have hempty : (s.unmirrored a).filter (fun e => decide (e.seq.toNat ≤ upTo)) = [] :=
    List.filter_eq_nil_iff.mpr fun e he => by simpa using hnone e he
  unfold State.mirrorWrite
  dsimp only
  rw [htakes, if_neg (by simp), if_neg (Nat.not_le.mpr hroom), hempty]
  split <;> rfl

theorem State.mirrorWrite_issues {upTo : Nat} {e : AlmEntry} {es : List AlmEntry}
    (hroom : (s.reg (almMirrorMark a)).toNat < mirrorStripes (s.ring a).d) (hfree : ∀ j ∈ s.fw.jobs, ¬ (j.eng = a ∧ j.isMirror = true))
    (hlist : ((s.unmirrored a).filter fun e => decide (e.seq.toNat ≤ upTo)) = e :: es) (hfits : e.bytes.length ≤ 4092 * (s.ring a).d) :
    ∃ j : Job, s.mirrorWrite a upTo = s.issue j ∧ j.isMirror = true ∧ j.eng = a ∧ j.op = 2 ∧
      j.stripe = mirrorFirst (s.ring a).d + (s.reg (almMirrorMark a)).toNat := by
  obtain ⟨x, hx⟩ := fitting_getLast? (es := es) hfits
  unfold State.mirrorWrite
  dsimp only
  rw [htakes, if_neg (by simp), if_neg (Nat.not_le.mpr hroom), if_neg (by simpa using hfree), hlist, hx]
  exact ⟨_, rfl, rfl, rfl, rfl, rfl⟩

end

/-! ## The obligation -/

theorem State.appendHead_of_cons {s : State} {g : Nat} {p : Pkt} {ps : List Pkt} (h : (s.cq (16 + g)).pkts = p :: ps) :
    (s.appendHead g).2 = some p := by
  unfold State.appendHead
  rw [h]

/-- Taking a packet from an append queue leaves ALM's and VGL's parts and ALM's registers. -/
theorem State.appendHead_keeps (s : State) (g : Nat) : (s.appendHead g).1.alm = s.alm ∧ (s.appendHead g).1.vgl = s.vgl ∧
    ∀ o, (s.appendHead g).1.reg (regAddr bALM o) = s.reg (regAddr bALM o) :=
  ⟨(State.appendHead_frame (P := .part .alm) _ (Fr.refl s) rfl).1, (State.appendHead_frame (P := .part .vgl) _ (Fr.refl s) rfl).1,
    fun _ => (State.appendHead_frame (P := .win bALM) _ (Fr.refl s) ⟨rfl, rfl⟩).1 _ (blkOf_regAddr ..)⟩

theorem State.codeClass_congr {s t : State} (h : ∀ o, t.reg (regAddr bALM o) = s.reg (regAddr bALM o)) (c : Nat) :
    t.codeClass c = s.codeClass c := by
  unfold State.codeClass State.rfld
  simp only [h]

theorem execAlmanacSubmit_of_cons {s : State} {g : Fin 8} {p : Pkt} {ps : List Pkt} {r : AlmSub} (h : (s.cq (16 + g)).pkts = p :: ps)
    (hr : almRecord p.body = some r) : execAlmanacSubmit g s = .next ((s.appendHead g).1.almAccept r g) := by
  have hhead := State.appendHead_of_cons h
  unfold execAlmanacSubmit
  generalize s.appendHead g = x at hhead
  obtain ⟨u, o⟩ := x
  obtain rfl : o = some p := hhead
  dsimp only
  rw [hr]

/-- Settles O26: each clause is the rule above of the operation that its command is. -/
theorem almanacCommandsComplete : Obligations.AlmanacCommandsComplete := by
  intro s
  refine ⟨?_, fun b hok htokens => ?_, fun b hok hrated hempty => ⟨_, rfl, State.almAccept_suppressed hok hrated hempty⟩,
    fun b hbad => ⟨_, rfl, State.almAccept_bad hbad⟩, fun timer hpage => ?_, fun hwin => ?_, fun bad top => ?_, ?_, ?_, ?_⟩
  · intro g p ps r hpkts hr hok hfixed
    obtain ⟨halm, hvgl, hregs⟩ := s.appendHead_keeps g
    exact ⟨_, execAlmanacSubmit_of_cons hpkts hr, TookRecord.of_same (congrArg Alm.seq halm) (congrArg Alm.entries halm) hvgl
      (State.almAccept_took hok (.inl ((State.codeClass_congr hregs _).trans hfixed)))⟩
  · obtain ⟨hseq, e, hentries, heseq, hcode, hpayload, -⟩ := State.almAccept_took (source := almSource b) hok htokens
    exact ⟨_, rfl, hseq, e, hentries, heseq, hcode, hpayload⟩
  · obtain ⟨hqueued, hbit⟩ := State.flush_of_ne hpage
    cases timer <;> exact ⟨_, rfl, s.flush_page, hqueued, hbit, s.flush_only⟩
  · have hflush := ({ s with alm := { s.alm with ploss := false } } : State).flush_only
    refine ⟨_, congrArg Host.Outcome.next (if_pos hwin), ?_, State.flush_page _, ?_⟩
    · exact (congrArg Alm.ploss (State.almKick_alm _)).trans (State.closePage_ploss _)
    · exact (((Only.refl _ _ s).step (s.withAlm_puts _))).trans hflush
  · set u : State := { s.setRbit almStatus 0 true with alm := { s.alm with seq := match top with
      | some t => if s.alm.seq.toNat ≤ t.toNat then t + 1 else s.alm.seq
      | none => s.alm.seq } } with hu
    obtain ⟨hparts, hstatus, hint⟩ := State.badPages_leave bad u
    have halm : (u.each bad fun s p => (s.raise almInt 5).almanac 0x030B bALM 0 [(4, p)]).alm = u.alm := hparts .alm (by decide)
    refine ⟨_, rfl, ?_, fun x htop hle => ?_, (congrArg Alm.entries halm).trans rfl, fun hbad => hint (.inl hbad), ?_⟩
    · exact (State.rbit_congr hstatus 0).trans ((State.rbit_setRbit (by omega)).trans (if_pos ⟨rfl, rfl⟩))
    · refine (congrArg Alm.seq halm).trans ?_
      rw [hu, htop]
      exact if_pos hle
    · exact .trans (((SameBut.refl _ s).step (State.setReg_puts _ _ _)).step (State.withAlm_puts _ _)) (hparts.mono (by decide))
  · intro a n e es htakes hroom hfree hlist hfits
    obtain ⟨j, hj, hmirror, heng, hop, hstripe⟩ := State.mirrorWrite_issues htakes hroom hfree hlist hfits
    obtain ⟨site, hjobs⟩ := s.issue_jobs j
    exact ⟨_, congrArg Host.Outcome.next hj, ⟨_, hjobs, hmirror, heng, hop, rfl, hstripe⟩, s.issue_sameBut j⟩
  · exact fun a n htakes hroom hnone => ⟨_, rfl, State.mirrorWrite_idle htakes _ hroom hnone⟩
  · intro a n htakes hfull
    have hkept := fun b (hb : OutsideCpl b) => State.almanac_reg ((s.setRbit almStatus (3 + a) true).raise almInt 1) 0x030A bALM a [] b hb
    refine ⟨_, congrArg Host.Outcome.next (State.mirrorWrite_full htakes _ hfull), ?_, ?_, ?_⟩
    · refine (State.rbit_congr (hkept _ outsideCpl_almStatus) _).trans (State.rbit_setRbit_true_mono (by omega) ?_ _ _)
      exact (State.rbit_setRbit (by omega)).trans (if_pos ⟨rfl, rfl⟩)
    · exact (State.rbit_congr (hkept _ outsideCpl_almInt) _).trans ((State.rbit_raise (by omega)).trans (if_pos ⟨rfl, rfl⟩))
    · exact sameBut_of_frame (m := 0x1000000004001) (fun P hp => State.almanac_frame _ _ _ _ (State.raise_frame_any _ _
        (Scope.outside_mono hp (by decide)) (State.setRbit_frame_any _ _ _ (Scope.outside_mono hp (by decide)) (Fr.refl s)))) (by decide)

end Sys2Proof.Machine
end

section
/-!
PROOFS. The spindle motor's commands (O53): what entering a state leaves of MOT's part and registers, what a write of MOT_CTRL comes to,
and what a sample of VM and a power loss keep.
-/
namespace Sys2Proof.Machine

/-! ## Entering a state -/

theorem State.setAtSpeed_mot (s : State) (b : Bool) : (s.setAtSpeed b).mot = s.mot :=
  (State.setAtSpeed_frame (P := .part .mot) _ (Fr.refl s) rfl).1

theorem State.reg_setAtSpeed_other (s : State) (b : Bool) {a : Nat} (hstatus : a ≠ motStatus) (hint : a ≠ motInt) :
    (s.setAtSpeed b).reg a = s.reg a :=
  (reg_onlyIf _ _ _ _ fun _ => (State.reg_raise ..).trans (if_neg hint)).trans ((State.reg_setRbit ..).trans (if_neg hstatus))

theorem State.motSt_setAtSpeed (s : State) (b : Bool) : (s.setAtSpeed b).motSt = s.motSt := by
  rw [State.motSt, State.rfld, State.reg_motStatus_setAtSpeed, fld_putBit _ _ _ _ _ (by omega) (by omega)]
  rfl

/-- MOT's part as `motEnter` leaves it. -/
def Mot.entered (m : Mot) (gates : Nat) : Mot := { m with
  gates := gates, inTol := 0, tripped := false, retry := false, stopping := false, agree := 0, vs := [], rising := false
  peek := false, peekAt := m.clk, floorOpen := false, qInt := 0, qRef := 0 }

theorem State.mot_motEnter (s : State) (st gates : Nat) : (s.motEnter st gates).mot = s.mot.entered gates :=
  congrArg (Mot.entered · gates) (State.setAtSpeed_mot (s.setMotSt st) false)

theorem State.reg_motEnter_other (s : State) (st gates : Nat) {a : Nat} (hstatus : a ≠ motStatus) (hint : a ≠ motInt) :
    (s.motEnter st gates).reg a = s.reg a :=
  (State.reg_setAtSpeed_other (s.setMotSt st) false hstatus hint).trans ((State.reg_setReg ..).trans (if_neg hstatus))

theorem State.motSt_setRbit_status (s : State) {i : Nat} (b : Bool) (hi : 3 ≤ i) : (s.setRbit motStatus i b).motSt = s.motSt :=
  State.rfld_setRbit_other (by omega) (.inr (.inr hi))

theorem State.motSt_congr {s t : State} (h : t.reg motStatus = s.reg motStatus) : t.motSt = s.motSt := State.rfld_congr h 0 3

/-- A counter of MOT writes none of its control and status words. -/
theorem State.reg_count_mot (s : State) (i : Nat) {a : Nat} (ha : a = motCtrl ∨ a = motStatus ∨ a = motVm) (hi : i < 4) :
    (s.count (motCtr i)).reg a = s.reg a := by
  refine State.count_reg _ _ _ ?_ ?_
  · rcases ha with rfl | rfl | rfl <;> exact outsideCpl_regAddr (by decide)
  · unfold Ctr.Holds motCtr motCtrl motStatus motVm motInt regAddr bMOT at *
    dsimp only
    omega

theorem State.mot_count (s : State) (c : Ctr) : (s.count c).mot = s.mot := (State.count_frame_any c (P := .part .mot) rfl (Fr.refl s)).1

/-- An attempt is in Observe, with PLOSS clear. -/
theorem State.motObserve_facts (s : State) : s.motObserve.motSt = 1 ∧ s.motObserve.reg motCtrl = s.reg motCtrl ∧
    s.motObserve.rbit motStatus 6 = false ∧ s.motObserve.mot = s.mot.entered 0 := by
  have hstatus := ((s.motEnter 1 0).setRbit motStatus 6 false).reg_count_mot 0 (.inr (.inl rfl)) (by omega)
  have hctrl := ((s.motEnter 1 0).setRbit motStatus 6 false).reg_count_mot 0 (.inl rfl) (by omega)
  refine ⟨?_, ?_, ?_, ?_⟩
  · exact (State.motSt_congr hstatus).trans ((State.motSt_setRbit_status _ _ (by omega)).trans (State.motSt_motEnter ..))
  · exact hctrl.trans (((State.reg_setRbit ..).trans (if_neg (by decide))).trans (State.reg_motEnter_other _ _ _ (by decide) (by decide)))
  · exact (State.rbit_congr hstatus 6).trans ((State.rbit_setRbit (by omega)).trans (if_pos ⟨rfl, rfl⟩))
  · exact (State.mot_count ..).trans (State.mot_motEnter ..)

/-! ## A write of MOT_CTRL -/

theorem State.motCtrlWrite_refused {s : State} {v : W} (h : s.motWriteRefused (bitAt v 0) (fld v 1 2) = true) :
    s.motCtrlWrite v = s.motRefuse := by
  unfold State.motCtrlWrite
  dsimp only
  rw [h, Bool.true_or, if_pos rfl]

section
variable {s : State} {v : W} (htaken : s.motWriteRefused (bitAt v 0) (fld v 1 2) = false) (hclr : bitAt v 4 = false)
include htaken hclr

/-- A write that is taken, without CLR_FAULT. -/
theorem State.motCtrlWrite_taken : s.motCtrlWrite v =
    if !bitAt v 0 then (if s.rbit motCtrl 0 then (s.setReg motCtrl (v &&& 7)).motOff else s.setReg motCtrl (v &&& 7))
    else if fld v 1 2 = 0 then (s.setReg motCtrl (v &&& 7)).motHalt
    else if s.motSt = 5 ∧ fld v 1 2 = s.rfld motCtrl 1 2 ∧ !s.mot.stopping then s.setReg motCtrl (v &&& 7)
    else (s.setReg motCtrl (v &&& 7)).motGo := by
  have hst : (s.setReg motCtrl (v &&& 7)).motSt = s.motSt := State.motSt_congr ((State.reg_setReg ..).trans (if_neg (by decide)))
  unfold State.motCtrlWrite
  dsimp only
  rw [htaken, hclr, ← hst]
  rfl

end

/-! ## A sample of VM -/

/-- MOT_VM reads as it did, and MOT_CLK has counted no more. -/
structure KeepsVm (s t : State) : Prop where
  vm : t.reg motVm = s.reg motVm
  clk : t.mot.clk = s.mot.clk

section
variable {s t u : State}

theorem KeepsVm.refl (s : State) : KeepsVm s s := ⟨rfl, rfl⟩

theorem KeepsVm.trans (h : KeepsVm s t) (h' : KeepsVm t u) : KeepsVm s u := ⟨h'.vm.trans h.vm, h'.clk.trans h.clk⟩

theorem KeepsVm.ite {c : Prop} [Decidable c] (ht : KeepsVm s t) (hu : KeepsVm s u) : KeepsVm s (if c then t else u) := by
  split
  · exact ht
  · exact hu

theorem KeepsVm.onlyIf {f : State → State} (h : KeepsVm s t) (c : Bool) (hf : ∀ s, KeepsVm s (f s)) : KeepsVm s (t.onlyIf c f) :=
  .ite (h.trans (hf t)) h

theorem KeepsVm.setReg {a : Nat} (h : KeepsVm s t) (v : W) (ha : motVm ≠ a := by decide) : KeepsVm s (t.setReg a v) :=
  h.trans ⟨(State.reg_setReg ..).trans (if_neg ha), rfl⟩

/-- An update of MOT's part other than of the clock. -/
theorem KeepsVm.modMot {f : Mot → Mot} (h : KeepsVm s t) (hf : (f t.mot).clk = t.mot.clk) : KeepsVm s (t.modMot f) := h.trans ⟨rfl, hf⟩

theorem KeepsVm.motEnter (h : KeepsVm s t) (st gates : Nat) : KeepsVm s (t.motEnter st gates) :=
  h.trans ⟨t.reg_motEnter_other st gates (by decide) (by decide), (congrArg Mot.clk (t.mot_motEnter st gates)).trans rfl⟩

/-- An operation that has nothing to do with MOT. -/
theorem KeepsVm.frame (h : KeepsVm s t) (hpart : Fr (.part .mot) t u) (hwin : Fr (.win bMOT) t u) : KeepsVm s u :=
  h.trans ⟨hwin.1 _ (blkOf_regAddr ..), congrArg Mot.clk hpart.1⟩

theorem KeepsVm.withAlm (h : KeepsVm s t) (a : Alm) : KeepsVm s { t with alm := a } := h.trans ⟨rfl, rfl⟩

theorem KeepsVm.almanac (h : KeepsVm s t) (code blk inst : Nat) (fields : List (Nat × Nat)) : KeepsVm s (t.almanac code blk inst fields) :=
  h.frame (State.almanac_frame _ _ _ _ (Fr.refl t) rfl) (State.almanac_frame _ _ _ _ (Fr.refl t) ⟨rfl, rfl⟩)

theorem KeepsVm.count (h : KeepsVm s t) {i : Nat} (hi : i < 4) : KeepsVm s (t.count (motCtr i)) :=
  h.trans ⟨t.reg_count_mot i (.inr (.inr rfl)) hi, congrArg Mot.clk (t.mot_count _)⟩

theorem KeepsVm.retractAll (h : KeepsVm s t) : KeepsVm s t.retractAll :=
  h.frame (State.retractAll_frame (Fr.refl t) rfl) (State.retractAll_frame (Fr.refl t) ⟨rfl, rfl⟩)

end

theorem State.chopperFault_keepsVm (s : State) (vm : Nat) : KeepsVm s (s.chopperFault vm) :=
  .retractAll (.modMot (.motEnter (.almanac (.setReg (.setReg (.setReg (.setReg (.refl s) _) _) _) _) _ _ _ _) _ _) rfl)

/-- The power loss after ACT has parked the actuators (R263). -/
theorem State.powerLoss_keepsVm (s : State) (again : Bool) : KeepsVm s (s.powerLoss again) := by
  have hpark : KeepsVm s s.powerLossRetract :=
    (KeepsVm.refl s).frame (State.powerLossRetract_frame (Fr.refl s) rfl) (State.powerLossRetract_frame (Fr.refl s) ⟨rfl, rfl⟩)
  have hcoast : KeepsVm s ((s.powerLossRetract.onlyIf (!s.powerLossRetract.chopBrake) fun s => s.motEnter 6 0)) :=
    hpark.onlyIf _ fun s => (KeepsVm.refl s).motEnter 6 0
  unfold State.powerLoss
  exact .onlyIf (.withAlm (.setReg (.setReg (.setReg hcoast _) _) _) _) _ fun s => (KeepsVm.refl s).almanac _ _ _ _

theorem State.brakeGates_keepsVm (s : State) : KeepsVm s s.brakeGates := ⟨rfl, rfl⟩

theorem State.retractHold_keepsVm (s : State) (v : Nat) : KeepsVm s (s.retractHold v) := by
  unfold State.retractHold
  exact .ite ((KeepsVm.setReg (.refl s) _).trans ⟨rfl, rfl⟩) (.setReg (.refl s) _)

/-- What R259 makes of a sample: the value in MOT_VM. -/
theorem State.vmSample_keepsVm (s : State) (v : Nat) : KeepsVm (s.setRfld motVm 0 12 v) (s.vmSample v) := by
  unfold State.vmSample
  dsimp only
  refine .onlyIf (.trans (.modMot (.refl _) rfl) (.ite (.refl _) (.ite (.trans ?_ (State.chopperFault_keepsVm _ _)) ?_))) _
    fun s => s.powerLoss_keepsVm _
  all_goals
    have hengaged : ∀ u : State, ∀ m : Mot → Mot, (m u.mot).clk = u.mot.clk →
        KeepsVm u ((((u.setRbit motStatus 4 true).modMot m).raise motInt 2).count (motCtr 1)) :=
      fun u m hm => .count (.setReg (.modMot (.setReg (.refl u) _) hm) _) (by omega)
    exact .ite (.setReg (.ite (hengaged _ _ rfl) (.refl _)) _) (.ite (hengaged _ _ rfl) (.refl _))

theorem State.sampleVs_keeps (s : State) (vs : Nat × Nat × Nat) : KeepsVm s (s.sampleVs vs) ∧ (s.sampleVs vs).motSt = s.motSt := by
  unfold State.sampleVs State.onlyIf
  split <;> exact ⟨⟨rfl, rfl⟩, rfl⟩

theorem State.peekWindow_of_not_brake {s : State} (h : s.motSt ≠ 2) : s.peekWindow = s := if_pos h

/-- A period in Stopped is a period of the clock and a sample of VM. -/
theorem State.pwmPeriod_stopped {s : State} (h : s.motSt = 0) (s1 s2 vm : Nat) (vs : Nat × Nat × Nat) : s.pwmPeriod s1 s2 vm vs =
    ((((s.modMot fun m => { m with clk := m.clk + s.rfld motPwm 0 13 }).loopsTaken.sampleVs vs).vmSample vm).retractHold vm) := by
  have hst : (s.modMot fun m => { m with clk := m.clk + s.rfld motPwm 0 13 }).loopsTaken.motSt = 0 := h
  unfold State.pwmPeriod
  dsimp only
  rw [State.peekWindow_of_not_brake (by rw [hst]; decide), (State.sampleVs_keeps ..).2, hst, if_neg (by omega)]

theorem State.pwmPeriod_stopped_facts {s : State} (h : s.motSt = 0) (s1 s2 : Nat) (vm : BitVec 12) (vs : Nat × Nat × Nat) :
    (s.pwmPeriod s1 s2 vm.toNat vs).rfld motVm 0 12 = vm.toNat ∧
      (s.pwmPeriod s1 s2 vm.toNat vs).mot.clk = s.mot.clk + s.rfld motPwm 0 13 := by
  rw [State.pwmPeriod_stopped h]
  set u := (s.modMot fun m => { m with clk := m.clk + s.rfld motPwm 0 13 }).loopsTaken with hu
  have hkept := ((u.sampleVs vs).vmSample_keepsVm vm.toNat).trans (State.retractHold_keepsVm _ vm.toNat)
  refine ⟨(State.rfld_congr hkept.vm 0 12).trans ((State.rfld_setRfld_same _ _ _ _ _ (by omega)).trans (Nat.mod_eq_of_lt vm.isLt)), ?_⟩
  exact hkept.clk.trans ((u.sampleVs_keeps vs).1.clk.trans rfl)

/-! ## The speed loop -/

/-- The ramp leaves what the speed loop computed, and whether a stop is under way. -/
theorem State.rampStep_keeps (s : State) : s.rampStep.mot.loopCfg = s.mot.loopCfg ∧ s.rampStep.mot.qRef = s.mot.qRef ∧
    s.rampStep.mot.stopping = s.mot.stopping := by
  unfold State.rampStep State.modMot
  dsimp only
  split <;> exact ⟨rfl, rfl, rfl⟩

/-- An update in Run without a stop ends in the ramped state with AT_SPEED and its count written. -/
theorem State.speedUpdate_run {s : State} (hst : s.motSt = 5) (hgo : s.mot.stopping = false) :
    s.speedUpdate.mot.loopCfg = s.loopsTaken.speedLoop.mot.loopCfg ∧ s.speedUpdate.mot.qRef = s.loopsTaken.speedLoop.mot.qRef := by
  obtain ⟨hcfg, hq, hstop⟩ := s.loopsTaken.speedLoop.rampStep_keeps
  have hgoing : s.loopsTaken.speedLoop.rampStep.mot.stopping = false := hstop.trans hgo
  unfold State.speedUpdate
  dsimp only
  rw [if_neg (not_not_intro hst), hgoing, if_neg fun h => Bool.false_ne_true h.1]
  split
  · have hkept := State.setAtSpeed_mot s.loopsTaken.speedLoop.rampStep false
    exact ⟨(congrArg Mot.loopCfg hkept).trans hcfg, (congrArg Mot.qRef hkept).trans hq⟩
  · exact ⟨(congrArg Mot.loopCfg (State.setAtSpeed_mot ..)).trans hcfg, (congrArg Mot.qRef (State.setAtSpeed_mot ..)).trans hq⟩

theorem clampI_mem {lo hi : Int} (h : lo ≤ hi) (i : Int) : lo ≤ clampI lo hi i ∧ clampI lo hi i ≤ hi := by
  unfold clampI
  split
  · omega
  · split <;> omega

/-! ## Starting and braking -/

theorem State.motAlign_facts (s : State) : s.motAlign.motSt = 3 ∧ s.motAlign.mot.startCfg = s.reg motStartReg ∧
    s.motAlign.reg motRpmReg = s.reg motRpmReg :=
  ⟨s.motSt_motEnter 3 2, rfl, s.reg_motEnter_other 3 2 (by decide) (by decide)⟩

theorem State.motSync_motSt (s : State) (r : Nat) : (s.motSync r).motSt = 5 := State.motSt_motEnter _ 5 2

section
variable {s : State} (hst : s.motSt = 1) {mag : Nat} {back : Bool}
include hst

theorem State.observeEnd_still (h : mag < s.stillCodes) : s.observeEnd mag back = (s.setRpm 0 false).motAlign := by
  unfold State.observeEnd
  simp only [hst, h, ne_eq, not_true, if_false, if_true, decide_true, Bool.not_true, Bool.and_false]

theorem State.observeEnd_turning (h : s.stillCodes ≤ mag) : s.observeEnd mag back =
    let t := s.setRpm (s.emfRpm mag) back
    if back then (t.motEnter 2 1).modMot fun m => { m with brake := 0 }
    else if 300 ≤ s.emfRpm mag then t.motSync (s.emfRpm mag)
    else if s.stopRpm ≤ s.emfRpm mag then (t.motEnter 2 1).modMot fun m => { m with brake := 0 }
    else t.motAlign := by
  have hnot : ¬ mag < s.stillCodes := Nat.not_lt.mpr h
  unfold State.observeEnd
  simp only [hst, hnot, ne_eq, not_true, if_false, decide_false, Bool.not_false, Bool.and_true, Bool.false_eq_true]
  rfl

end

theorem State.brakePeek_stop {s : State} (hst : s.motSt = 2) (hstop : s.mot.brake = 1) (mag : Nat) : s.brakePeek mag =
    let t := s.setRpm (s.emfRpm mag) (s.rbit motRpmReg 16)
    if s.stopRpm ≤ s.emfRpm mag then (t.modMot fun m => { m with peek := false }).brakeGates else t.motEnter 0 0 := by
  unfold State.brakePeek
  dsimp only
  rw [if_neg (not_not_intro hst)]
  exact if_congr Iff.rfl rfl (if_pos hstop)

theorem State.motSt_setRpm (s : State) (r : Nat) (back : Bool) : (s.setRpm r back).motSt = s.motSt :=
  State.motSt_congr (((State.reg_setRbit ..).trans (if_neg (by decide))).trans ((State.reg_setRfld ..).trans (if_neg (by decide))))

theorem State.startTimeout_again {s : State} (hst : s.motSt = 4) (h : s.mot.fails < 2) :
    s.startTimeout = (s.motEnter 6 0).modMot fun m => { m with fails := s.mot.fails + 1, retry := true } := by
  unfold State.startTimeout
  dsimp only
  rw [if_neg (not_not_intro hst), if_neg (by omega)]

theorem State.startTimeout_third {s : State} (hst : s.motSt = 4) (h : 2 ≤ s.mot.fails) : s.startTimeout =
    ((((s.motEnter 7 0).modMot fun m => { m with fails := s.mot.fails + 1 }).raise motInt 1).motCode 0x1A0).almanac 0x01A0 bMOT 0 [] := by
  unfold State.startTimeout
  dsimp only
  rw [if_neg (not_not_intro hst), if_pos (by omega)]

/-- What an interrupt, a code and a record show: the state and flags stay, the interrupt's bit is up and the code is there. -/
theorem State.shows_code (s : State) {int code : Nat} (hint : int < 32) (hcode : code < 65536) (rec : Nat) :
    let t := ((s.raise motInt int).motCode code).almanac rec bMOT 0 []
    t.motSt = s.motSt ∧ t.rfld motStatus 16 16 = code ∧ t.rbit motInt int = true ∧ ∀ i < 16, t.rbit motStatus i = s.rbit motStatus i := by
  intro t
  have hkept : ∀ b, OutsideCpl b → t.reg b = ((s.raise motInt int).motCode code).reg b := fun b hb => State.almanac_reg _ _ _ _ _ _ hb
  have hstatus := hkept motStatus (outsideCpl_regAddr (by decide))
  have hraise : (s.raise motInt int).reg motStatus = s.reg motStatus := (State.reg_raise ..).trans (if_neg (by decide))
  refine ⟨?_, ?_, ?_, fun i hi => ?_⟩
  · exact (State.motSt_congr hstatus).trans ((State.rfld_setRfld_other (by omega) (.inr (.inl (by omega)))).trans (State.motSt_congr hraise))
  · exact (State.rfld_congr hstatus ..).trans ((State.rfld_setRfld_same _ _ _ _ _ (by omega)).trans (Nat.mod_eq_of_lt hcode))
  · refine (State.rbit_congr (hkept motInt (outsideCpl_regAddr (by decide))) _).trans ?_
    exact (State.rbit_setRfld_other hint (.inl (by decide))).trans ((State.rbit_raise hint).trans (if_pos ⟨rfl, rfl⟩))
  · exact (State.rbit_congr hstatus i).trans
      ((State.rbit_setRfld_other (by omega) (.inr (.inl (by omega)))).trans (State.rbit_congr hraise i))

/-! ## Power loss -/

/-- Every actuator's PARK_N shows low. -/
theorem State.parked_each {a : Nat} (ha : a < 28) (l : List Nat) : ∀ s : State, a ∈ l ∨ s.rbit actStatusAll (4 + a) = true →
    (s.each l fun s b => (s.setRbit actStatusAll (4 + b) true).cutWrites b).rbit actStatusAll (4 + a) = true := by
  induction l with
  | nil => exact fun s h => h.resolve_left List.not_mem_nil
  | cons b bs ih =>
    intro s h
    refine ih _ (or_iff_not_imp_left.mpr fun hrest => ?_)
    have hcut : ((s.setRbit actStatusAll (4 + b) true).cutWrites b).reg actStatusAll = (s.setRbit actStatusAll (4 + b) true).reg actStatusAll :=
      reg_of_frame (State.cutWrites_frame _ (Fr.refl _) ⟨rfl, rfl⟩)
    rw [State.rbit_congr hcut, State.rbit_setRbit (by omega)]
    by_cases hb : b = a
    · rw [if_pos ⟨rfl, by rw [hb]⟩]
    · rw [if_neg fun he => hb (by omega)]
      exact h.resolve_left fun hm => (List.mem_cons.mp hm).elim (fun he => hb he.symm) hrest

theorem State.powerLossRetract_parks (s : State) {a : Nat} (ha : a < 4) : s.powerLossRetract.rbit actStatusAll (4 + a) = true :=
  State.parked_each (by omega) _ _ (.inl (mem_upto.mpr ha))

/-- A power loss outside a chopper-fault brake: every actuator parked, Coast, the code and the record, and the Almanac's window. -/
theorem State.powerLoss_first {s : State} (h : s.chopBrake = false) : s.powerLoss false =
    let u := (((s.powerLossRetract.motEnter 6 0).setRbit motStatus 6 true).raise motInt 5).motCode 0x1A3
    ({ u with alm := { u.alm with ploss := true } } : State).almanac 0x01A3 bMOT 0 [] := by
  have hst : s.powerLossRetract.motSt = s.motSt :=
    State.motSt_congr ((State.powerLossRetract_frame (P := .win bMOT) (Fr.refl s) ⟨rfl, rfl⟩).1 _ (blkOf_regAddr ..))
  have hmot : s.powerLossRetract.mot = s.mot := (State.powerLossRetract_frame (P := .part .mot) (Fr.refl s) rfl).1
  have hchop : s.powerLossRetract.chopBrake = false := by rw [State.chopBrake, hst, hmot, ← h, State.chopBrake]
  unfold State.powerLoss
  dsimp only
  rw [hchop]
  rfl

theorem State.powerLoss_first_facts {s : State} (h : s.chopBrake = false) : let t := s.powerLoss false
    t.motSt = 6 ∧ t.rbit motStatus 6 = true ∧ t.rfld motStatus 16 16 = 0x1A3 ∧ t.rbit motInt 5 = true ∧ t.alm.ploss = true ∧
      ∀ a < 4, t.rbit actStatusAll (4 + a) = true := by
  rw [State.powerLoss_first h]
  set v := (s.powerLossRetract.motEnter 6 0).setRbit motStatus 6 true with hv
  set u := (v.raise motInt 5).motCode 0x1A3 with hu
  obtain ⟨hst, hcode, hint, hbits⟩ := v.shows_code (int := 5) (code := 0x1A3) (by omega) (by omega) 0x01A3
  rw [← hu] at hst hcode hint hbits
  clear_value u
  intro t
  have hkept : ∀ b, OutsideCpl b → t.reg b = (u.almanac 0x01A3 bMOT 0 []).reg b := fun b hb =>
    (State.almanac_reg _ _ _ _ _ _ hb).trans (State.almanac_reg u _ _ _ _ _ hb).symm
  have hstatus := hkept motStatus (outsideCpl_regAddr (by decide))
  refine ⟨?_, ?_, (State.rfld_congr hstatus ..).trans hcode, (State.rbit_congr (hkept motInt (outsideCpl_regAddr (by decide))) 5).trans hint, ?_,
    fun a ha => ?_⟩
  · exact (State.motSt_congr hstatus).trans (hst.trans ((State.motSt_setRbit_status _ _ (by omega)).trans (State.motSt_motEnter _ 6 0)))
  · exact (State.rbit_congr hstatus 6).trans ((hbits 6 (by omega)).trans ((State.rbit_setRbit (by omega)).trans (if_pos ⟨rfl, rfl⟩)))
  · exact (congrArg Alm.ploss (State.almanac_frame (P := .part .alm) _ _ _ _ (Fr.refl _) rfl).1).trans rfl
  · have hact : t.reg actStatusAll = s.powerLossRetract.reg actStatusAll := by
      refine (State.almanac_reg _ _ _ _ _ _ (outsideCpl_regAddr (by decide))).trans ?_
      change u.reg actStatusAll = _
      rw [hu, State.motCode, State.reg_setRfld, if_neg (by decide), State.reg_raise, if_neg (by decide), hv, State.reg_setRbit,
        if_neg (by decide), State.reg_motEnter_other _ _ _ (by decide) (by decide)]
    exact (State.rbit_congr hact _).trans (s.powerLossRetract_parks ha)

/-! ## Words from words -/

theorem bitAt_and (x y : W) (i : Nat) : bitAt (x &&& y) i = (bitAt x i && bitAt y i) := BitVec.getLsbD_and
theorem bitAt_or (x y : W) (i : Nat) : bitAt (x ||| y) i = (bitAt x i || bitAt y i) := BitVec.getLsbD_or

theorem fld_and (x y : W) (lo len : Nat) : fld (x &&& y) lo len = fld x lo len &&& fld y lo len := by
  apply Nat.eq_of_testBit_eq
  intro i
  rw [Nat.testBit_and, testBit_fld, testBit_fld, testBit_fld, bitAt_and]
  cases decide (i < len) <;> simp

theorem fld_or (x y : W) (lo len : Nat) : fld (x ||| y) lo len = fld x lo len ||| fld y lo len := by
  apply Nat.eq_of_testBit_eq
  intro i
  rw [Nat.testBit_or, testBit_fld, testBit_fld, testBit_fld, bitAt_or]
  cases decide (i < len) <;> simp

/-- The word of a disable: ENABLE 0 and TARGET as it is. -/
theorem disableWord_fields (x : W) : bitAt (x &&& 6) 0 = false ∧ fld (x &&& 6) 1 2 = fld x 1 2 ∧ bitAt (x &&& 6) 4 = false := by
  refine ⟨?_, ?_, ?_⟩
  · rw [bitAt_and, show bitAt 6 0 = false from rfl, Bool.and_false]
  · rw [fld_and, show fld 6 1 2 = 2 ^ 2 - 1 from rfl, Nat.and_two_pow_sub_one_eq_mod]
    exact Nat.mod_eq_of_lt (Nat.mod_lt _ (by decide))
  · rw [bitAt_and, show bitAt 6 4 = false from rfl, Bool.and_false]

/-- The word of a new target: ENABLE as it is. -/
theorem targetWord_fields (x : W) (nominal : Bool) : let v := (x &&& 1) ||| (if nominal then 4 else 2)
    bitAt v 0 = bitAt x 0 ∧ fld v 1 2 = (if nominal then 2 else 1) ∧ bitAt v 4 = false := by
  intro v
  refine ⟨?_, ?_, ?_⟩
  · rw [bitAt_or, bitAt_and, show bitAt 1 0 = true from rfl, Bool.and_true]
    cases nominal <;> exact Bool.or_false _
  · rw [fld_or, fld_and, show fld 1 1 2 = 0 from rfl, Nat.and_zero, Nat.zero_or]
    cases nominal <;> rfl
  · rw [bitAt_or, bitAt_and, show bitAt 1 4 = false from rfl, Bool.and_false]
    cases nominal <;> rfl

/-- Only the three lowest bits of a write are kept: ENABLE and TARGET are among them. -/
theorem ctrlWord_fields (v : W) : bitAt (v &&& 7) 0 = bitAt v 0 ∧ fld (v &&& 7) 1 2 = fld v 1 2 := by
  refine ⟨?_, ?_⟩
  · rw [bitAt_and, show bitAt 7 0 = true from rfl, Bool.and_true]
  · rw [fld_and, show fld 7 1 2 = 2 ^ 2 - 1 from rfl, Nat.and_two_pow_sub_one_eq_mod]
    exact Nat.mod_eq_of_lt (Nat.mod_lt _ (by decide))

/-! ## Taken writes -/

/-- A start from Stopped is an attempt. -/
theorem State.motGo_stopped {s : State} (h : s.motSt = 0) : s.motGo = (s.modMot fun m => { m with fails := 0 }).motObserve := if_pos (.inl h)

/-- A target in Run turns the ramp. -/
theorem State.motGo_run {s : State} (h : s.motSt = 5) : s.motGo = (s.setAtSpeed false).rampFrom := by
  unfold State.motGo
  dsimp only
  rw [h, if_neg (by omega), if_neg (by omega), if_pos rfl]

theorem State.motHalt_run {s : State} (h : s.motSt = 5) :
    s.motHalt = (s.setAtSpeed false).modMot fun m => { m with stopping := true, inTol := 0 } := if_pos h

/-- The write of MOT_CTRL itself leaves MOT_STATUS, and so the state. -/
theorem State.motSt_setCtrl (s : State) (v : W) : (s.setReg motCtrl v).motSt = s.motSt :=
  State.motSt_congr ((State.reg_setReg ..).trans (if_neg (by decide)))

theorem State.reg_setCtrl (s : State) (v : W) : (s.setReg motCtrl v).reg motCtrl = v := (State.reg_setReg ..).trans (if_pos rfl)

/-- ENABLE and TARGET as a write puts them. -/
theorem State.setCtrl_fields (s : State) (v : W) : (s.setReg motCtrl (v &&& 7)).rbit motCtrl 0 = bitAt v 0 ∧
    (s.setReg motCtrl (v &&& 7)).rfld motCtrl 1 2 = fld v 1 2 := by
  rw [State.rbit, State.rfld, State.reg_setCtrl]
  exact ctrlWord_fields v

/-- ENABLE falls. -/
theorem State.motOff_facts (s : State) : s.motOff.motSt = 6 ∧ s.motOff.mot.gates = 0 ∧ s.motOff.rbit motCtrl 0 = false ∧
    s.motOff.rfld motCtrl 1 2 = s.rfld motCtrl 1 2 := by
  have hctrl : s.motOff.reg motCtrl = (s.setRbit motCtrl 0 false).reg motCtrl := State.reg_motEnter_other _ 6 0 (by decide) (by decide)
  exact ⟨State.motSt_motEnter _ 6 0, congrArg Mot.gates (State.mot_motEnter _ 6 0),
    (State.rbit_congr hctrl 0).trans ((State.rbit_setRbit (by omega)).trans (if_pos ⟨rfl, rfl⟩)),
    (State.rfld_congr hctrl 1 2).trans (State.rfld_setRbit_other (by omega) (.inr (.inl (by omega))))⟩

/-- A target in Run, new or not: Run, with ENABLE and TARGET as written. -/
theorem State.motCtrlWrite_retargets {s : State} {v : W} (htaken : s.motWriteRefused true (fld v 1 2) = false) (hen : bitAt v 0 = true)
    (htgt : fld v 1 2 ≠ 0) (hclr : bitAt v 4 = false) (hst : s.motSt = 5) : (s.motCtrlWrite v).motSt = 5 ∧
      (s.motCtrlWrite v).rbit motCtrl 0 = true ∧ (s.motCtrlWrite v).rfld motCtrl 1 2 = fld v 1 2 := by
  obtain ⟨hbit, hfld⟩ := s.setCtrl_fields v
  have hput : (s.setReg motCtrl (v &&& 7)).motSt = 5 := (s.motSt_setCtrl _).trans hst
  rw [State.motCtrlWrite_taken (by rw [hen]; exact htaken) hclr, hen, if_neg (by decide), if_neg htgt]
  split
  · exact ⟨hput, hbit.trans hen, hfld⟩
  · rw [State.motGo_run hput]
    have hctrl := (s.setReg motCtrl (v &&& 7)).reg_setAtSpeed_other false (a := motCtrl) (by decide) (by decide)
    exact ⟨(State.motSt_setAtSpeed ..).trans hput, (State.rbit_congr hctrl 0).trans (hbit.trans hen), (State.rfld_congr hctrl 1 2).trans hfld⟩

/-- A start request in Stopped. -/
theorem State.motCtrlWrite_starts {s : State} {v : W} (htaken : s.motWriteRefused true (fld v 1 2) = false) (hen : bitAt v 0 = true)
    (htgt : fld v 1 2 ≠ 0) (hclr : bitAt v 4 = false) (hst : s.motSt = 0) :
    s.motCtrlWrite v = ((s.setReg motCtrl (v &&& 7)).modMot fun m => { m with fails := 0 }).motObserve := by
  rw [State.motCtrlWrite_taken (by rw [hen]; exact htaken) hclr, hen, if_neg (by decide), if_neg htgt, if_neg (by omega),
    State.motGo_stopped ((s.motSt_setCtrl _).trans hst)]

/-! ## The obligation -/

/-- A write of MOT_CTRL that starts or turns to a target has ENABLE 1, TARGET the target asked for, and no CLR_FAULT. -/
theorem startWord_fields (nominal : Bool) : bitAt (if nominal then 5 else 3) 0 = true ∧
    fld (if nominal then 5 else 3) 1 2 = (if nominal then 2 else 1) ∧ bitAt (if nominal then 5 else 3) 4 = false := by
  cases nominal <;> exact ⟨rfl, rfl, rfl⟩

/-- Settles O53: each clause is what Table 8.2 makes of its command, by the rules above. -/
theorem spindleCommandsComplete : Obligations.SpindleCommandsComplete := by
  intro s
  refine ⟨fun nominal htaken hst => ?_, fun htaken hst => ?_, fun htaken hon hst => ?_, fun nominal htaken hon hst => ?_, fun nominal hrefused => ?_,
    fun hst hslow => ?_, fun s1 s2 vm vu vv vw hst => ⟨_, rfl, State.pwmPeriod_stopped_facts hst ..⟩, fun hst hgo => ?_, fun hst => ?_,
    fun hst hstop => ?_, fun hst => ?_, fun hst hfails => ?_, fun hst hfails => ?_, fun hst hretry => ?_, fun hchop => ?_⟩
  · obtain ⟨hen, htgt, hclr⟩ := startWord_fields nominal
    have hgoal : (if nominal then 2 else 1) ≠ 0 := by split <;> decide
    obtain ⟨hobserve, hctrl, hploss, hmot⟩ :=
      (((s.setReg motCtrl ((if nominal then 5 else 3) &&& 7)).modMot fun m => { m with fails := 0 })).motObserve_facts
    refine ⟨_, congrArg Host.Outcome.next (State.motCtrlWrite_starts (by rwa [htgt]) hen (by rwa [htgt]) hclr hst), hobserve, ?_, hploss,
      (congrArg Mot.fails hmot).trans rfl⟩
    refine hctrl.trans ((State.reg_setCtrl ..).trans ?_)
    cases nominal <;> rfl
  · have hwrite := State.motCtrlWrite_taken (s := s) (v := 1) htaken rfl
    rw [State.motHalt_run ((s.motSt_setCtrl _).trans hst)] at hwrite
    refine ⟨_, congrArg Host.Outcome.next hwrite, (State.motSt_setAtSpeed ..).trans ((s.motSt_setCtrl _).trans hst), rfl, ?_⟩
    exact (State.reg_setAtSpeed_other _ _ (by decide) (by decide)).trans (State.reg_setCtrl ..)
  · obtain ⟨hen, htgt, hclr⟩ := disableWord_fields (s.reg motCtrl)
    have hwrite := State.motCtrlWrite_taken (s := s) (v := s.reg motCtrl &&& 6) (by rw [hen, htgt]; exact htaken) hclr
    rw [hen, if_pos (by decide), if_pos hon] at hwrite
    obtain ⟨hcoast, hgates, hoff, hkept⟩ := (s.setReg motCtrl ((s.reg motCtrl &&& 6) &&& 7)).motOff_facts
    exact ⟨_, congrArg Host.Outcome.next hwrite, hcoast, hgates, hoff, hkept.trans ((s.setCtrl_fields _).2.trans htgt)⟩
  · obtain ⟨hen, htgt, hclr⟩ := targetWord_fields (s.reg motCtrl) nominal
    have hgoal : (if nominal then 2 else 1) ≠ 0 := by split <;> decide
    obtain ⟨hrun, hbit, hfld⟩ := State.motCtrlWrite_retargets (by rwa [htgt]) (hen.trans hon) (by rwa [htgt]) hclr hst
    exact ⟨_, rfl, hrun, hbit, hfld.trans htgt⟩
  · obtain ⟨hen, htgt, -⟩ := startWord_fields nominal
    refine ⟨_, congrArg Host.Outcome.next (State.motCtrlWrite_refused (by rw [hen, htgt]; exact hrefused)), s.refused_motRefuse, ?_, s.motRefuse_only⟩
    rw [State.rfld, s.reg_motStatus_motRefuse, fld_setFld_same _ _ _ _ (by omega)]
    rfl
  · exact ⟨_, exec_motClrFault_below hslow, by rw [s.motSt_motClear, if_pos hst], s.chopFault_motClear⟩
  · obtain ⟨hcfg, hq⟩ := State.speedUpdate_run hst hgo
    have hlim : -(rotUnit * (s.rfld motLoops 16 12 : Int)) ≤ rotUnit * (s.rfld motLoops 16 12 : Int) := by unfold rotUnit; omega
    refine ⟨_, rfl, hcfg, ?_⟩
    rw [hq]
    exact clampI_mem hlim _
  · refine ⟨_, rfl, fun hstill => ?_, fun hturns hback => ?_, fun hturns hforth => ?_⟩
    · rw [State.observeEnd_still hst hstill]
      obtain ⟨halign, hcfg, hrpm⟩ := (s.setRpm 0 false).motAlign_facts
      refine ⟨halign, hcfg.trans ?_, (State.rfld_congr hrpm ..).trans ?_⟩
      · exact ((State.reg_setRbit ..).trans (if_neg (by decide))).trans ((State.reg_setRfld ..).trans (if_neg (by decide)))
      · exact (State.rfld_setRbit_other (by omega) (.inr (.inr (by omega)))).trans (State.rfld_setRfld_same _ _ _ _ _ (by omega))
    · rw [State.observeEnd_turning hst hturns]
      dsimp only
      rw [if_pos (by simpa using hback)]
      exact State.motSt_motEnter _ 2 1
    · rw [State.observeEnd_turning hst hturns]
      dsimp only
      rw [if_neg (by simpa using hforth)]
      split
      · exact State.motSync_motSt ..
      · split
        · exact State.motSt_motEnter _ 2 1
        · exact (State.motAlign_facts _).1
  · refine ⟨_, congrArg Host.Outcome.next (State.brakePeek_stop hst hstop _), ?_⟩
    dsimp only
    split
    next hfast =>
      rw [if_neg (Nat.not_lt.mpr hfast)]
      exact ⟨(State.motSt_setRpm ..).trans hst, fun hslow => absurd hslow (Nat.not_lt.mpr hfast)⟩
    next hslow =>
      rw [if_pos (Nat.not_le.mp hslow)]
      exact ⟨State.motSt_motEnter _ 0 0, fun _ => congrArg Mot.gates (State.mot_motEnter _ 0 0)⟩
  · refine ⟨_, congrArg Host.Outcome.next (if_pos hst), (State.rfld_setRfld_same _ _ _ _ _ (by omega)), rfl,
      ((Only.refl _ _ s).setReg _).step (State.modMot_puts _ _)⟩
  · refine ⟨_, congrArg Host.Outcome.next (State.startTimeout_again hst hfails), s.motSt_motEnter 6 0, rfl, rfl⟩
  · obtain ⟨hmot, hcode, hint, -⟩ := ((s.motEnter 7 0).modMot fun m => { m with fails := s.mot.fails + 1 }).shows_code (int := 1) (code := 0x1A0)
      (by omega) (by omega) 0x01A0
    exact ⟨_, congrArg Host.Outcome.next (State.startTimeout_third hst hfails), hmot.trans (s.motSt_motEnter 7 0), hcode, hint⟩
  · obtain ⟨hobserve, -, -, hmot⟩ := s.motObserve_facts
    exact ⟨_, congrArg Host.Outcome.next (if_pos ⟨hst, hretry⟩), hobserve, (congrArg Mot.retry hmot).trans rfl⟩
  · exact ⟨_, rfl, State.powerLoss_first_facts hchop⟩

end Sys2Proof.Machine
end

section
/-!
PROOFS. The actuator's commands (O52): what a retract leaves, what the end of an actuator's service does at the governor and the queue, the
frames of the command link, and the registers with an effect.
-/
namespace Sys2Proof.Machine

/-! ## Loops keep their ENABLE -/

/-- Every loop's ENABLE is the same in two states. -/
def State.SameEnables (s t : State) : Prop := ∀ i, (t.loop i).desc.enable = (s.loop i).desc.enable

section
variable {s t u : State}

theorem State.SameEnables.refl (s : State) : s.SameEnables s := fun _ => rfl

theorem State.SameEnables.trans (h : s.SameEnables t) (h' : t.SameEnables u) : s.SameEnables u := fun i => (h' i).trans (h i)

theorem State.SameEnables.of_svo (h : s.SameEnables t) (hsvo : u.svo = t.svo) : s.SameEnables u :=
  h.trans fun i => congrArg (fun v => (tget (fun _ => {}) v.loops i).desc.enable) hsvo

theorem State.SameEnables.frame (h : s.SameEnables t) (hf : Fr (.part .svo) t u) : s.SameEnables u := h.of_svo hf.1

theorem State.SameEnables.onlyIf {f : State → State} (h : s.SameEnables t) (c : Bool) (hf : ∀ s : State, s.SameEnables (f s)) :
    s.SameEnables (t.onlyIf c f) := by
  cases c with
  | false => exact h
  | true => exact h.trans (hf t)

theorem State.loop_setLoop (s : State) (i j : Nat) (x : Loop) : (s.setLoop i x).loop j = if j = i then x else s.loop j := tget_tset ..

/-- A loop written with the ENABLE that it had. -/
theorem State.SameEnables.setLoop (h : s.SameEnables t) {i : Nat} {x : Loop} (hx : x.desc.enable = (t.loop i).desc.enable) :
    s.SameEnables (t.setLoop i x) := by
  refine h.trans fun j => ?_
  rw [State.loop_setLoop]
  split
  next he => rw [he, hx]
  · rfl

theorem State.SameEnables.setSvoWord (h : s.SameEnables t) (i : Nat) (v : W) : s.SameEnables (t.setSvoWord i v) := by
  have hput : s.SameEnables (t.putSvoWord i v) := h.trans fun _ => rfl
  exact hput.frame (State.sramWrote_frame 26 (i / 2) (Fr.refl _) rfl)

theorem State.SameEnables.setReg (h : s.SameEnables t) (a : Nat) (v : W) : s.SameEnables (t.setReg a v) := h.trans fun _ => rfl

theorem State.SameEnables.zeroDrive (h : s.SameEnables t) (i : Nat) : s.SameEnables (t.zeroDrive i) := h.setLoop rfl

end

theorem State.zeroState_sameEnables (s : State) (i : Nat) : s.SameEnables (s.zeroState i) := by
  unfold State.zeroState
  set u : State := { s with svo := _ }
  have hput : s.SameEnables u := fun _ => rfl
  exact hput.frame (State.sramSwept_frame 26 _ _ (Fr.refl u) rfl)

theorem State.holdReset_sameEnables (s : State) (i : Nat) : s.SameEnables (s.holdReset i) :=
  ((s.zeroState_sameEnables i).setSvoWord _ _).setSvoWord _ _

theorem State.setWpaSt_sameEnables (s : State) (n h v : Nat) : s.SameEnables (s.setWpaSt n h v) := by
  have hreset : ∀ u : State, u.SameEnables ((u.zeroDrive (104 + 24 * n + h)).holdReset (104 + 24 * n + h)) := fun u =>
    ((State.SameEnables.refl u).zeroDrive _).trans (State.holdReset_sameEnables _ _)
  unfold State.setWpaSt
  dsimp only
  refine .onlyIf (.onlyIf (.onlyIf (.setReg (.refl s) _ _) _ hreset) _ fun s => ?_) _ fun s => .zeroDrive (.refl s) _
  exact .setLoop (.refl s) rfl

theorem State.sameEnables_each {α : Type} {f : State → α → State} (hf : ∀ s x, State.SameEnables s (f s x)) (l : List α) :
    ∀ s : State, s.SameEnables (s.each l f) := by
  induction l with
  | nil => exact fun s => .refl s
  | cons x xs ih => exact fun s => (hf s x).trans (ih _)

/-- The heads go to the ramp: no loop's ENABLE changes. -/
theorem State.wpaRamp_true_sameEnables (s : State) (n : Nat) : s.SameEnables (s.wpaRamp n true) :=
  State.sameEnables_each (fun s h => ((s.setWpaSt_sameEnables n h 0).setReg _ _).setReg _ _) _ s

theorem State.disableLoop_enable (s : State) (i : Nat) : ((s.disableLoop i).loop i).desc.enable = false := by
  refine (((State.SameEnables.refl _).setSvoWord _ _) i).trans ?_
  rw [State.loop_setLoop, if_pos rfl]

/-- A loop that is disabled stays so as another is. -/
theorem State.disableLoop_keeps {s : State} {i j : Nat} (h : (s.loop j).desc.enable = false) : ((s.disableLoop i).loop j).desc.enable = false := by
  refine (((State.SameEnables.refl _).setSvoWord _ _) j).trans ?_
  rw [State.loop_setLoop]
  split
  · rfl
  · exact h

/-! ## A retract -/

theorem actSt_congr {s t : State} {a : Nat} (h : t.reg (actStatus a) = s.reg (actStatus a)) : t.actSt a = s.actSt a := State.rfld_congr h 0 3

theorem State.actSt_setActSt (s : State) (a v : Nat) : (s.setActSt a v).actSt a = v % 8 := State.rfld_setRfld_same _ _ _ _ _ (by omega)

theorem State.leaveBand_false_ord (s : State) (n : Nat) : (s.leaveBand n false).ord = s.ord := by
  unfold State.leaveBand
  rw [if_neg Bool.false_ne_true]
  (repeat' split) <;> rfl

theorem State.cutGates_of_no_gates {s : State} {n : Nat} (h : (s.ordP n).gates = []) (status : Nat) : s.cutGates n status = s := by
  have hcut : s.cutWrites n = s := by rw [State.cutWrites, h]; rfl
  rw [State.cutGates, hcut, State.failGates, h]
  rfl

/-- What a retract leaves for the rules of chapter 7 to see. -/
structure Retracted (a : Nat) (t : State) : Prop where
  actSt : t.actSt a = 5
  gang : t.reg (actGang a) = 0
  speed : (t.actP a).v = 0
  seek : (t.actP a).heldSeek = none
  loop : (t.loop a).desc.enable = false

theorem blkOf_actReg (a o : Nat) : blkOf (actReg a o) = bACT := blkOf_regAddr ..

theorem outsideCpl_actReg (a o : Nat) : OutsideCpl (actReg a o) := by
  rw [OutsideCpl, blkOf_actReg]
  decide

/-- Registers of one actuator are the same word only with the same offset. -/
theorem actReg_ne {a o p : Nat} (hne : o ≠ p) (ho : o < 0x40) (hp : p < 0x40) : actReg a o ≠ actReg a p := by
  unfold actReg regAddr
  omega

/-- The words of one actuator are none of those of all. -/
theorem actReg_ne_actStatusAll {a o : Nat} (ha : a < 4) (ho : o < 0x40) : actReg a o ≠ actStatusAll := by
  unfold actStatusAll actReg regAddr
  omega

theorem actReg_ne_actInt {a o : Nat} (ha : a < 4) (ho : o < 0x40) : actReg a o ≠ actInt := by
  unfold actInt actReg regAddr
  omega

/-- A counter of an actuator writes none of its words of state, settings and command. -/
theorem State.reg_count_actCtr (s : State) {a i o : Nat} (ha : a < 4) (hi : i < 4) (ho : o < 0x2C) :
    (s.count (actCtr a i)).reg (actReg a o) = s.reg (actReg a o) := by
  refine State.count_reg _ _ _ (outsideCpl_actReg a o) ?_
  unfold Ctr.Holds actCtr actReg actInt regAddr
  dsimp only
  omega

section
variable {a : Nat} (ha : a < 4) {u : State}
include ha

/-- The end of a retract: the state, the ramp, the drives, the frame, and the run that is abandoned. -/
theorem Retracted.of_disabled (hgang : u.reg (actGang a) = 0) (hloop : (u.loop a).desc.enable = false) (payload : Nat) {x : Act} (hv : x.v = 0)
    (hseek : x.heldSeek = none) : Retracted a (((((((u.setActSt a 5).wpaRamp a true).each (upto 24) fun s h =>
      s.zeroDrive (8 + 24 * a + h)).sendAmp a 2 payload).setAct a x).calAbandon a).count (actCtr a 1)) := by
  set v := ((u.setActSt a 5).wpaRamp a true).each (upto 24) fun s h => s.zeroDrive (8 + 24 * a + h) with hvdef
  have hdrives : Fr (.win bACT) (u.setActSt a 5) v :=
    State.each_frame (P := .win bACT) (fun s _ => State.zeroDrive_frame _ (Fr.refl s) ⟨rfl, rfl⟩) _ (State.wpaRamp_frame _ _ (Fr.refl _) ⟨rfl, rfl⟩)
  have henables : u.SameEnables v := ((State.SameEnables.refl u).setReg _ _).trans
    (((u.setActSt a 5).wpaRamp_true_sameEnables a).trans (State.sameEnables_each (fun s _ => .zeroDrive (.refl s) _) _ _))
  clear_value v
  set w := (v.sendAmp a 2 payload).setAct a x with hw
  have hact : ((w.calAbandon a).count (actCtr a 1)).act = w.act :=
    (State.count_frame_any _ (P := .part .act) rfl (State.calAbandon_frame _ (Fr.refl w) rfl)).1
  have hreg : ∀ o < 0x2C, ((w.calAbandon a).count (actCtr a 1)).reg (actReg a o) = (u.setActSt a 5).reg (actReg a o) := fun o ho =>
    (State.reg_count_actCtr _ ha (by omega) ho).trans (((State.calAbandon_frame (P := .win bACT) a (Fr.refl w) ⟨rfl, rfl⟩).1 _ (blkOf_actReg ..)).trans
      (hdrives.1 _ (blkOf_actReg ..)))
  have hself : w.actP a = x := tget_tset_same ..
  refine ⟨?_, ?_, ?_, ?_, ?_⟩
  · exact (actSt_congr (hreg 0x4 (by omega))).trans (State.actSt_setActSt ..)
  · exact (hreg 0x1C (by omega)).trans ((State.reg_setRfld ..).trans ((if_neg (actReg_ne (by decide) (by decide) (by decide))).trans hgang))
  · exact (congrArg (fun l => (tget (fun _ => {}) l a).v) hact).trans ((congrArg Act.v hself).trans hv)
  · exact (congrArg (fun l => (tget (fun _ => {}) l a).heldSeek) hact).trans ((congrArg Act.heldSeek hself).trans hseek)
  · have hlast : w.SameEnables ((w.calAbandon a).count (actCtr a 1)) :=
      (State.SameEnables.refl w).frame (State.count_frame_any _ rfl (State.calAbandon_frame _ (Fr.refl w) rfl))
    exact (hlast a).trans ((henables a).trans hloop)

end

theorem State.retract_loaded {s : State} {a : Nat} (ha : a < 4) (hlow : 1 ≤ s.actSt a) (hhigh : s.actSt a ≤ 4) (hidle : s.mopInFlight a = false)
    (hgates : (s.ordP a).gates = []) (status : Nat) : Retracted a (s.retract a status) := by
  have hcut : (s.leaveBand a false).cutGates a status = s.leaveBand a false :=
    State.cutGates_of_no_gates ((congrArg (fun o => (tget (fun _ => {}) o a).gates) (s.leaveBand_false_ord a)).trans hgates) status
  unfold State.retract
  dsimp only
  rw [if_neg (by omega), hidle, State.onlyIf_false, hcut]
  refine .of_disabled ha ?_ (State.disableLoop_keeps (State.disableLoop_enable ..)) _ rfl rfl
  have hloops := (State.disableLoop_frame (P := .win bACT) (4 + a) (State.disableLoop_frame a (Fr.refl ((s.leaveBand a false).setReg (actGang a) 0))
    ⟨rfl, rfl⟩) ⟨rfl, rfl⟩).1 (actGang a) (blkOf_actReg ..)
  exact hloops.trans ((State.reg_setReg ..).trans (if_pos rfl))

/-! ## The governor and the queue at the end of an actuator's service -/

/-- Every register of ACT but USED reads as it did. -/
def State.KeepsActRegs (s t : State) : Prop := ∀ a, blkOf a = bACT → a ≠ actGovUsed → t.reg a = s.reg a

section
variable {s t u : State}

theorem State.KeepsActRegs.refl (s : State) : s.KeepsActRegs s := fun _ _ _ => rfl

theorem State.KeepsActRegs.trans (h : s.KeepsActRegs t) (h' : t.KeepsActRegs u) : s.KeepsActRegs u := fun a ha hne => (h' a ha hne).trans (h a ha hne)

theorem State.KeepsActRegs.frame (h : s.KeepsActRegs t) (hf : Fr (.win bACT) t u) : s.KeepsActRegs u := h.trans fun a ha _ => hf.1 a ha

theorem State.KeepsActRegs.of_regs (h : s.KeepsActRegs t) (hr : u.regs = t.regs) : s.KeepsActRegs u := h.trans fun a _ _ => State.reg_congr hr a

theorem State.KeepsActRegs.setUsed (h : s.KeepsActRegs t) (lo len v : Nat) : s.KeepsActRegs (t.setRfld actGovUsed lo len v) :=
  h.trans fun _ _ hne => (State.reg_setRfld ..).trans (if_neg hne)

end

theorem State.startMop_keepsActRegs (s : State) (n run seek : Nat) : s.KeepsActRegs (s.startMop n run seek) := fun _ ha hne =>
  (s.reg_startMop n run seek ha).trans ((State.reg_setRfld ..).trans (if_neg hne))

theorem State.govBehind_keepsActRegs (l : List GovWait) : ∀ s : State, s.KeepsActRegs (s.govBehind l) := by
  induction l with
  | nil => exact fun s => State.KeepsActRegs.of_regs (.refl s) rfl
  | cons w ws ih =>
    intro s
    unfold State.govBehind
    dsimp only
    split
    · exact ((State.KeepsActRegs.refl s).frame (State.govTooSmall_frame _ (Fr.refl s) ⟨rfl, rfl⟩)).trans (ih _)
    · split
      · exact (s.startMop_keepsActRegs _ _ _).trans (ih _)
      · exact (ih s).of_regs rfl

theorem State.govDecide_keepsActRegs (l : List GovWait) : ∀ s : State, s.KeepsActRegs (s.govDecide l) := by
  induction l with
  | nil => exact fun s => State.KeepsActRegs.of_regs (.refl s) rfl
  | cons w ws ih =>
    intro s
    unfold State.govDecide
    dsimp only
    split
    · exact ((State.KeepsActRegs.refl s).frame (State.govTooSmall_frame _ (Fr.refl s) ⟨rfl, rfl⟩)).trans (ih _)
    · split
      · exact (s.startMop_keepsActRegs _ _ _).trans (ih _)
      · exact (s.govBehind_keepsActRegs ws).of_regs rfl

theorem State.govAdmit_keepsActRegs (s : State) : s.KeepsActRegs s.govAdmit := State.KeepsActRegs.setUsed (State.govDecide_keepsActRegs s.gov s) _ _ _

theorem State.returnAdmitting_keepsActRegs (s : State) (n status : Nat) : s.KeepsActRegs (s.returnAdmitting n status) := by
  unfold State.returnAdmitting State.leaveGov
  split
  · refine .trans ?_ (State.govAdmit_keepsActRegs _)
    refine .frame ?_ (State.returnMop_frame _ _ _ (State.releaseGateCells_frame _ (Fr.refl _) ⟨rfl, rfl⟩) ⟨rfl, rfl⟩)
    exact .of_regs (.setUsed (.of_regs (.refl s) rfl) 16 8 _) rfl
  · exact .refl s

theorem State.returnAll_keepsActRegs (s : State) (a status : Nat) (p : Group → Bool) :
    s.KeepsActRegs (((s.returnAdmitting a status).returnQueued a status).groupsReadOnly p) :=
  ((s.returnAdmitting_keepsActRegs a status).frame (State.returnQueued_frame _ _ (Fr.refl _) ⟨rfl, rfl⟩)).of_regs rfl

/-- What Disabled shows: the state, and every other register of ACT but DISABLE_PENDING and USED as it was. -/
theorem State.enterDisabled_facts (s : State) (a : Nat) : (s.enterDisabled a).actSt a = 6 ∧
    ∀ b, blkOf b = bACT → b ≠ actGovUsed → b ≠ actStatus a → (s.enterDisabled a).reg b = s.reg b := by
  have hkeeps := ((s.setActSt a 6).setRbit (actStatus a) 3 false).returnAll_keepsActRegs a 0x192 fun g => g.home == a
  refine ⟨?_, fun b hb hused hstatus => ?_⟩
  · have hne : actStatus a ≠ actGovUsed := by unfold actStatus actReg actGovUsed regAddr; omega
    refine (actSt_congr (hkeeps _ (blkOf_actReg ..) hne)).trans ((State.rfld_setRbit_other (by omega) (.inr (.inr (by omega)))).trans ?_)
    exact s.actSt_setActSt a 6
  · exact (hkeeps b hb hused).trans (((State.reg_setRbit ..).trans (if_neg hstatus)).trans ((State.reg_setRfld ..).trans (if_neg hstatus)))

/-- A disable in Parked with nothing in flight ends in Disabled (R222). -/
theorem State.actDisable_parked {s : State} {a : Nat} (hst : s.actSt a = 0) (hidle : s.mopInFlight a = false) : (s.actDisable a).actSt a = 6 := by
  have hne : actStatus a ≠ actGovUsed := by unfold actStatus actReg actGovUsed regAddr; omega
  unfold State.actDisable State.disableGo
  dsimp only
  rw [if_neg (by omega), if_neg (by omega), if_pos (.inl hst)]
  have hsame : (s.setRbit (actStatus a) 3 true).mopInFlight a = false := hidle
  rw [hsame, State.onlyIf_false]
  set u := ((s.setRbit (actStatus a) 3 true).leaveBand a true).setAct a _ with hu
  have hparked : u.actSt a = 0 := by
    have hreg : u.reg (actStatus a) = (s.setRbit (actStatus a) 3 true).reg (actStatus a) :=
      (State.leaveBand_frame (P := .win bACT) _ _ (Fr.refl _) ⟨rfl, rfl⟩).1 _ (blkOf_actReg ..)
    exact (actSt_congr hreg).trans ((State.rfld_setRbit_other (by omega) (.inr (.inr (by omega)))).trans hst)
  have hstill : (((u.returnAdmitting a 0x192).returnQueued a 0x192).groupsReadOnly fun g => g.home == a).actSt a = 0 :=
    (actSt_congr (u.returnAll_keepsActRegs a 0x192 _ _ (blkOf_actReg ..) hne)).trans hparked
  rw [if_pos hstill]
  exact (State.enterDisabled_facts _ a).1

/-- A retract that takes too long ends in Disabled, with PARK_N low and the interrupt up (R228). -/
theorem State.retractTimeout_facts {s : State} {a : Nat} (ha : a < 4) (hst : s.actSt a = 5) : (s.retractTimeout a).actSt a = 6 ∧
    (s.retractTimeout a).rbit actStatusAll (4 + a) = true ∧ (s.retractTimeout a).rbit actInt 1 = true := by
  unfold State.retractTimeout
  dsimp only
  rw [if_pos hst]
  set u := ((s.setRbit actStatusAll (4 + a) true).raise actInt 1).almanac 0x0197 bACT a [] with hu
  have hlow : u.rbit actStatusAll (4 + a) = true := (State.rbit_congr (State.almanac_reg _ _ _ _ _ _ (outsideCpl_regAddr (by decide))) _).trans
    (State.rbit_setRbit_true_mono (by omega) ((State.rbit_setRbit (by omega)).trans (if_pos ⟨rfl, rfl⟩)) _ _)
  have hint : u.rbit actInt 1 = true := (State.rbit_congr (State.almanac_reg _ _ _ _ _ _ (outsideCpl_regAddr (by decide))) _).trans
    ((State.rbit_raise (by omega)).trans (if_pos ⟨rfl, rfl⟩))
  clear_value u
  obtain ⟨hsix, hkept⟩ := u.enterDisabled_facts a
  have hall := hkept actStatusAll (by decide) (by decide) (by unfold actStatusAll actStatus actReg regAddr; omega)
  have hraised := hkept actInt (by decide) (by decide) (by unfold actInt actStatus actReg regAddr; omega)
  split
  · refine ⟨(actSt_congr ((State.reg_setRbit ..).trans (if_neg ?_))).trans hsix, ?_, ?_⟩
    · unfold actStatusAll actStatus actReg regAddr
      omega
    · exact (State.rbit_setRbit (by omega)).trans ((if_neg (by omega)).trans ((State.rbit_congr hall _).trans hlow))
    · exact (State.rbit_setRbit (by omega)).trans ((if_neg fun h => absurd h.1 (by decide)).trans ((State.rbit_congr hraised 1).trans hint))
  · exact ⟨hsix, (State.rbit_congr hall _).trans hlow, (State.rbit_congr hraised 1).trans hint⟩

/-! ## The command link -/

theorem State.actP_setAct (s : State) (a : Nat) (x : Act) : (s.setAct a x).actP a = x := tget_tset_same ..

/-- A frame that is sent takes a number and goes out; no register changes. -/
theorem State.sendAmp_facts (s : State) (a type payload : Nat) : (∃ f, (s.sendAmp a type payload).out = .ampFrame a f :: s.out) ∧
    (s.sendAmp a type payload).regs = s.regs ∧ SameBut [.act, .out] s (s.sendAmp a type payload) :=
  ⟨⟨_, rfl⟩, rfl, ((SameBut.refl _ s).step (s.setAct_puts _ _)).step (State.emit_puts _ _)⟩

theorem State.loop_outputFrame {s : State} {a : Nat} (hon : s.linkOn a = true) (hlow : 1 ≤ s.actSt a) (hhigh : s.actSt a ≤ 4) :
    ∃ x y payload, x.ready = false ∧ y.ready = false ∧ s.outputFrame a = (((s.setLoop a x).setLoop (4 + a) y).sendAmp a 1 payload) := by
  unfold State.outputFrame
  dsimp only
  rw [hon, decide_eq_true hlow, decide_eq_true hhigh, Bool.and_self, Bool.and_self, if_pos rfl]
  exact ⟨_, _, _, rfl, rfl, rfl⟩

/-- A good frame leaves a locked receiver locked. -/
theorem State.ampLock_good {s : State} {a : Nat} (h : (s.actP a).locked = true) : ((s.ampLock a true).actP a).locked = true ∧
    ((s.ampLock a true).actP a).ampOut = (s.actP a).ampOut := by
  have hself : (s.ampLock a true).actP a = _ := tget_tset_same ..
  rw [hself]
  refine ⟨?_, rfl⟩
  change (if min 8 ((s.actP a).goodRun + 1) = 8 then true else if 0 = 4 then false else (s.actP a).locked) = true
  rw [h, if_neg (show ¬ (0 = 4) by decide), ite_self]

theorem State.ampLock_only (s : State) (a : Nat) (good : Bool) : Only [.act] [actStatusAll] s (s.ampLock a good) :=
  ((Only.refl _ _ s).step (s.setAct_puts _ _)).setReg _

theorem State.actSt_ampLock (s : State) {a : Nat} (ha : a < 4) (good : Bool) : (s.ampLock a good).actSt a = s.actSt a :=
  actSt_congr ((s.ampLock_only a good).1 _ fun h => actReg_ne_actStatusAll ha (by decide) (List.mem_singleton.mp h))

section
variable {s : State} {a : Nat} {f : BitVec 96} (hon : s.linkOn a = true) (hlocked : (s.actP a).locked = true) (hcrc : frameCrcOk f = true)
  (hsync : frameSync f = true)
include hon hlocked hcrc hsync

theorem State.upFrame_status (htype : frameFld f 84 4 = 8) (hrest : frameFld f 8 24 = 0) (hzero : frameFld f 46 2 = 0) :
    s.upFrame a f = (s.ampLock a true).ampStatus a f := by
  unfold State.upFrame
  dsimp only
  rw [hon, hcrc, hsync]
  simp only [Bool.not_true, Bool.false_eq_true, if_false, State.onlyIf_false, Bool.and_self, Bool.false_or, (State.ampLock_good hlocked).1, htype,
    hrest, hzero, if_true, ne_eq, not_true, or_self]

theorem State.upFrame_reply (htype : frameFld f 84 4 = 9) (hout : (s.actP a).ampOut = true) (hrest : frameFld f 8 16 = 0) :
    s.upFrame a f = (s.ampLock a true).ampReply a f := by
  have hwaits := (State.ampLock_good hlocked).2.trans hout
  unfold State.upFrame
  dsimp only
  rw [hon, hcrc, hsync]
  simp only [Bool.not_true, Bool.false_eq_true, if_false, State.onlyIf_false, Bool.and_self, Bool.false_or, (State.ampLock_good hlocked).1, htype,
    hrest, hwaits, bne_self_eq_false, Nat.reduceEqDiff, if_true]

end

/-- A STATUS frame outside Retracting: the flags, and the state as it was. -/
theorem State.ampStatus_facts {s : State} {a : Nat} {f : BitVec 96} (hst : s.actSt a ≠ 5) :
    (s.ampStatus a f).rfld (actStatus a) 4 6 = frameFld f 40 6 ∧ (s.ampStatus a f).actSt a = s.actSt a := by
  unfold State.ampStatus
  dsimp only
  set u := (s.setRfld (actStatus a) 4 6 (frameFld f 40 6)).onlyIf _ fun s => s.raise actInt 3 with hu
  have hreg : u.reg (actStatus a) = (s.setRfld (actStatus a) 4 6 (frameFld f 40 6)).reg (actStatus a) :=
    reg_onlyIf _ _ _ _ fun _ => (State.reg_raise ..).trans (if_neg (by unfold actStatus actReg actInt regAddr; omega))
  have hkept : u.actSt a = s.actSt a := (actSt_congr hreg).trans (State.rfld_setRfld_other (by omega) (.inr (.inl (by omega))))
  have hflags : u.rfld (actStatus a) 4 6 = frameFld f 40 6 := (State.rfld_congr hreg 4 6).trans
    ((State.rfld_setRfld_same _ _ _ _ _ (by omega)).trans (Nat.mod_eq_of_lt (Nat.mod_lt _ (by decide))))
  clear_value u
  have hnot : ((frameFld f 40 6).testBit 0 && u.actSt a == 5) = false := by
    rw [hkept, beq_eq_false_iff_ne.mpr hst, Bool.and_false]
  rw [hnot, State.onlyIf_false]
  have hsensor : (u.sensorCheck (5 + a) (16 * sext 8 (frameFld f 32 8))).reg (actStatus a) = u.reg (actStatus a) :=
    (State.sensorCheck_frame (P := .win bACT) _ _ (Fr.refl u) ⟨rfl, rfl⟩).1 _ (blkOf_actReg ..)
  exact ⟨(State.rfld_congr hsensor 4 6).trans hflags, (actSt_congr hsensor).trans hkept⟩

/-- LINK_EN's bit of one actuator takes the mask's, as `actLinkEn` does it for each. -/
def State.linkEnBit (mask : Nat) (s : State) (a : Nat) : State :=
  let was := s.rbit (regAddr bACT 0x0) a
  let on := mask.testBit a
  let s := s.setRbit (regAddr bACT 0x0) a on
  if on && !was then s.setAct a { s.actP a with stopLink := false, goodRun := 0, badRun := 0 }
  else if was && !on then
    if s.actSt a = 0 ∨ s.actSt a = 6 then s.stopLink a
    else (s.setAct a { s.actP a with stopLink := true }).retract a 0x181
  else s

theorem State.actLinkEn_eq (s : State) (mask : Nat) : s.actLinkEn mask = s.each (upto 4) (State.linkEnBit mask) := rfl

theorem State.linkEnBit_of_down {s : State} {a : Nat} (h : s.rbit (regAddr bACT 0x0) a = false) (mask : Nat) :
    (∀ i < 32, (s.linkEnBit mask a).rbit (regAddr bACT 0x0) i = if a = i then mask.testBit a else s.rbit (regAddr bACT 0x0) i) ∧
      Only [.act] [regAddr bACT 0x0] s (s.linkEnBit mask a) := by
  unfold State.linkEnBit
  dsimp only
  rw [h, Bool.not_false, Bool.and_true, Bool.false_and, if_neg Bool.false_ne_true]
  have hbit : ∀ i < 32, (s.setRbit (regAddr bACT 0x0) a (mask.testBit a)).rbit (regAddr bACT 0x0) i =
      if a = i then mask.testBit a else s.rbit (regAddr bACT 0x0) i := fun i hi => by
    rw [State.rbit_setRbit hi]
    simp only [true_and]
  split
  · exact ⟨hbit, ((Only.refl _ _ s).setReg _).step (State.setAct_puts _ _ _)⟩
  · exact ⟨hbit, (Only.refl _ _ s).setReg _⟩

/-- With the bits of the list at 0 each of them takes the mask's. -/
theorem State.linkEnBit_each (mask : Nat) (l : List Nat) (hl : l.Nodup) (hlt : ∀ a ∈ l, a < 32) : ∀ s : State,
    (∀ a ∈ l, s.rbit (regAddr bACT 0x0) a = false) →
    (∀ i < 32, (s.each l (State.linkEnBit mask)).rbit (regAddr bACT 0x0) i = if i ∈ l then mask.testBit i else s.rbit (regAddr bACT 0x0) i) ∧
      Only [.act] [regAddr bACT 0x0] s (s.each l (State.linkEnBit mask)) := by
  induction l with
  | nil => exact fun s _ => ⟨fun _ _ => rfl, .refl ..⟩
  | cons a as ih =>
    intro s hzero
    obtain ⟨hnot, hnodup⟩ := List.nodup_cons.mp hl
    obtain ⟨hbit, honly⟩ := State.linkEnBit_of_down (hzero a List.mem_cons_self) mask
    have hrest : ∀ b ∈ as, (s.linkEnBit mask a).rbit (regAddr bACT 0x0) b = false := fun b hb => by
      have hne : a ≠ b := fun he => hnot (he ▸ hb)
      rw [hbit b (hlt b (List.mem_cons_of_mem _ hb)), if_neg hne]
      exact hzero b (List.mem_cons_of_mem _ hb)
    obtain ⟨hbits, hothers⟩ := ih hnodup (fun b hb => hlt b (List.mem_cons_of_mem _ hb)) _ hrest
    refine ⟨fun i hi => (hbits i hi).trans ?_, honly.trans hothers⟩
    rw [hbit i hi]
    by_cases hm : i ∈ as
    · rw [if_pos hm, if_pos (List.mem_cons_of_mem _ hm)]
    · by_cases he : a = i
      · subst he
        rw [if_neg hm, if_pos rfl, if_pos List.mem_cons_self]
      · have hother : i ∉ a :: as := fun h => (List.mem_cons.mp h).elim (fun h => he h.symm) hm
        rw [if_neg hm, if_neg he, if_neg hother]

theorem State.actLinkEn_facts {s : State} (h : s.rfld (regAddr bACT 0x0) 0 4 = 0) (m : BitVec 4) :
    (s.actLinkEn m.toNat).rfld (regAddr bACT 0x0) 0 4 = m.toNat ∧ Only [.act] [regAddr bACT 0x0] s (s.actLinkEn m.toNat) := by
  have hzero : ∀ a ∈ upto 4, s.rbit (regAddr bACT 0x0) a = false := fun a ha => by
    have hbit := testBit_fld (s.reg (regAddr bACT 0x0)) 0 4 a
    rw [show fld (s.reg (regAddr bACT 0x0)) 0 4 = 0 from h, Nat.zero_testBit, decide_eq_true (mem_upto.mp ha), Bool.true_and, Nat.zero_add] at hbit
    exact hbit.symm
  obtain ⟨hbits, honly⟩ := State.linkEnBit_each m.toNat (upto 4) (by decide) (fun a ha => Nat.lt_trans (mem_upto.mp ha) (by decide)) s hzero
  refine ⟨Nat.eq_of_testBit_eq fun i => ?_, honly⟩
  refine (testBit_fld ..).trans ?_
  by_cases hi : i < 4
  · rw [decide_eq_true hi, Bool.true_and, Nat.zero_add]
    exact (hbits i (by omega)).trans (if_pos (mem_upto.mpr hi))
  · rw [decide_eq_false hi, Bool.false_and]
    exact (Nat.testBit_lt_two_pow (Nat.lt_of_lt_of_le m.isLt (Nat.pow_le_pow_right (by decide) (Nat.not_lt.mp hi)))).symm

/-! ## Registers with an effect -/

/-- Heads that are not in the gang are no part of it to drop: only groups are made read-only. -/
theorem State.headdis_each {a : Nat} {p : Nat → Group → Bool} (l : List Nat) : ∀ s : State, (∀ h ∈ l, s.rbit (actGang a) h = false) →
    (s.each l fun s h => (s.dropHead a h).groupsReadOnly (p h)).regs = s.regs := by
  induction l with
  | nil => exact fun _ _ => rfl
  | cons h hs ih =>
    intro s hnone
    have hkeep : s.dropHead a h = s := by rw [State.dropHead, hnone h List.mem_cons_self, if_neg Bool.false_ne_true]
    rw [State.each, hkeep]
    exact ih _ fun k hk => hnone k (List.mem_cons_of_mem _ hk)

theorem State.headdisWrite_regs {s : State} {a : Nat} {v : W} (h : fld v 0 24 &&& s.rfld (actGang a) 0 24 = 0) :
    (s.headdisWrite a v).regs = (s.setReg (actHeaddis a) (v &&& 0xFFFFFF)).regs := by
  refine State.headdis_each _ _ fun k hk => ?_
  obtain ⟨hlt, hbit⟩ := List.mem_filter.mp hk
  have hk24 := mem_upto.mp hlt
  have hset : (fld v 0 24).testBit k = true := by
    rw [Nat.testBit_and, Bool.and_eq_true] at hbit
    exact hbit.1
  have hclear : (s.rfld (actGang a) 0 24).testBit k = false := by
    have hand := congrArg (·.testBit k) h
    simpa [hset] using hand
  have hgang : (s.setReg (actHeaddis a) (v &&& 0xFFFFFF)).reg (actGang a) = s.reg (actGang a) :=
    (State.reg_setReg ..).trans (if_neg (actReg_ne (by decide) (by decide) (by decide)))
  rw [State.rbit_congr hgang]
  have hfld := testBit_fld (s.reg (actGang a)) 0 24 k
  rw [decide_eq_true hk24, Bool.true_and, Nat.zero_add] at hfld
  exact hfld.symm.trans hclear

/-- With nobody waiting at the governor its decision writes WAITING alone. -/
theorem State.govAdmit_of_none {s : State} (h : s.gov = []) :
    s.govAdmit = ({ s with gov := [] } : State).setRfld actGovUsed 16 8 0 := by
  unfold State.govAdmit
  rw [h]
  rfl

/-- A settle that takes too long: Tracking, and the MOP in flight gets its fatal event (R210, R282). -/
theorem State.settleTimeout_facts {s : State} {a : Nat} (hst : s.actSt a = 4) (hdue : fld (s.actP a).timeoutCfg 8 8 ≤ (s.actP a).settleWedges) :
    (s.settleTimeout a).actSt a = 2 ∧ ((s.settleTimeout a).actP a).settleWedges = 0 ∧
      (s.mopInFlight a = true → (s.settleTimeout a).rbit (ordEvtPend a) 19 = true) := by
  unfold State.settleTimeout
  dsimp only
  rw [if_pos ⟨hst, hdue⟩]
  set u := (s.setActSt a 2).setAct a _ with hu
  have hact : u.actSt a = 2 := s.actSt_setActSt a 2
  have hwedges : (u.actP a).settleWedges = 0 := congrArg Act.settleWedges (State.actP_setAct ..)
  have hflight : u.mopInFlight a = s.mopInFlight a := rfl
  clear_value u
  rw [hflight]
  cases s.mopInFlight a with
  | false => exact ⟨hact, hwedges, fun h => absurd h Bool.false_ne_true⟩
  | true =>
    have hne : actStatus a ≠ ordEvtPend a := fun he => by
      have hblk := congrArg blkOf he
      rw [show blkOf (actStatus a) = bACT from blkOf_actReg .., show blkOf (ordEvtPend a) = bORD a from blkOf_regAddr ..] at hblk
      unfold bACT bORD at hblk
      omega
    exact ⟨(actSt_congr ((State.reg_setRbit ..).trans (if_neg hne))).trans hact, hwedges,
      fun _ => (State.rbit_setRbit (by omega)).trans (if_pos ⟨rfl, rfl⟩)⟩

/-- The link is lost in Parked: the receiver is unlocked, and there is nothing to retract. -/
theorem State.linkLost_parked {s : State} {a : Nat} (ha : a < 4) (hon : s.linkOn a = true) (hst : s.actSt a = 0) : s.linkLost a =
    (((s.raise actInt 2).setAct a { s.actP a with locked := false, goodRun := 0, badRun := 0 }).setRbit actStatusAll a false) := by
  unfold State.linkLost
  dsimp only
  rw [if_pos hon]
  refine if_pos (.inl ?_)
  have hreg : ((((s.raise actInt 2).setAct a { s.actP a with locked := false, goodRun := 0, badRun := 0 }).setRbit actStatusAll a false)).reg
      (actStatus a) = s.reg (actStatus a) :=
    ((State.reg_setRbit ..).trans (if_neg (actReg_ne_actStatusAll ha (by decide)))).trans ((State.reg_raise ..).trans (if_neg (actReg_ne_actInt ha (by decide))))
  exact (actSt_congr hreg).trans hst

/-- An amplifier command while none runs, with the link on: BUSY, and the frame (R238). -/
theorem State.ampcmdGo_facts {s : State} {a : Nat} (hfree : s.rbit (actReg a 0x24) 18 = false) (hon : s.linkOn a = true) :
    let t := s.ampcmdGo a
    t.rbit (actReg a 0x24) 18 = true ∧ t.rbit (actReg a 0x24) 19 = false ∧ (t.actP a).ampOut = true ∧
      (∃ f, t.out = .ampFrame a f :: s.out) ∧ RegsBut [actReg a 0x24] s t := by
  unfold State.ampcmdGo
  dsimp only
  rw [hfree, if_neg Bool.false_ne_true]
  set u := ((s.setRbit (actReg a 0x24) 18 true).setRbit (actReg a 0x24) 19 false).setAct a _ with hu
  have hlink : u.linkOn a = true := by
    have hctrl : u.reg (regAddr bACT 0x0) = s.reg (regAddr bACT 0x0) := by
      have hne : regAddr bACT 0x0 ≠ actReg a 0x24 := by unfold actReg regAddr; omega
      exact ((State.reg_setRbit ..).trans (if_neg hne)).trans ((State.reg_setRbit ..).trans (if_neg hne))
    have hstop : (u.actP a).stopLink = (s.actP a).stopLink := (congrArg Act.stopLink (State.actP_setAct _ a _)).trans rfl
    rw [State.linkOn, State.rbit_congr hctrl, hstop, ← hon, State.linkOn]
  have hbusy : u.rbit (actReg a 0x24) 18 = true := (State.rbit_setRbit (by omega)).trans
    ((if_neg (by omega)).trans ((State.rbit_setRbit (by omega)).trans (if_pos ⟨rfl, rfl⟩)))
  have herror : u.rbit (actReg a 0x24) 19 = false := (State.rbit_setRbit (by omega)).trans (if_pos ⟨rfl, rfl⟩)
  have hout : (u.actP a).ampOut = true := congrArg Act.ampOut (State.actP_setAct ..)
  have hregs : RegsBut [actReg a 0x24] s u := (((RegsBut.refl _ s).setReg _).setReg _).step (State.setAct_puts _ _ _)
  have hsame : u.out = s.out := rfl
  clear_value u
  have hsent : ∀ type payload, (u.sendAmp a type payload).rbit (actReg a 0x24) 18 = true ∧
      (u.sendAmp a type payload).rbit (actReg a 0x24) 19 = false ∧ ((u.sendAmp a type payload).actP a).ampOut = true ∧
      (∃ f, (u.sendAmp a type payload).out = .ampFrame a f :: s.out) ∧ RegsBut [actReg a 0x24] s (u.sendAmp a type payload) := fun type payload => by
    obtain ⟨⟨f, hf⟩, hr, -⟩ := u.sendAmp_facts a type payload
    exact ⟨(State.rbit_congr (State.reg_congr hr _) _).trans hbusy, (State.rbit_congr (State.reg_congr hr _) _).trans herror,
      (congrArg Act.ampOut (State.actP_setAct u a _)).trans hout, ⟨f, hf.trans (congrArg _ hsame)⟩, hregs.trans (.of_regs hr)⟩
  rw [hlink, Bool.not_true, if_neg Bool.false_ne_true]
  split
  · exact hsent _ _
  · exact hsent _ _

/-! ## The obligation -/

/-- Settles O52: each clause is what chapter 7 makes of its command, by the rules above. -/
theorem actuatorCommandsComplete : Obligations.ActuatorCommandsComplete := by
  intro a s
  refine ⟨fun hst hup => ?_, fun hst hidle hgates => ?_, fun hst hidle => ⟨_, rfl, State.actDisable_parked hst hidle⟩, fun hst => ?_,
    fun lost hlow hhigh hidle hgates => ?_, fun hst => ⟨_, rfl, State.retractTimeout_facts a.isLt hst⟩, fun hst hdue => ?_,
    fun m hzero => ⟨_, rfl, State.actLinkEn_facts hzero m⟩, fun hon hlow hhigh => ?_, fun f hon hlocked hcrc hsync htype hrest hzero hst => ?_,
    fun f hon hlocked hcrc hsync htype hout hrest => ?_, fun hon hst => ?_, fun hfree hon => ?_, fun hbusy => ?_, fun v hgov => ?_,
    fun v hgang => ?_⟩
  · refine ⟨_, congrArg Host.Outcome.next (if_pos ⟨hst, hup⟩), ?_, ?_, ⟨_, rfl⟩, ?_⟩
    · exact (actSt_congr ((State.reg_setRbit ..).trans (if_neg (actReg_ne_actStatusAll a.isLt (by decide))))).trans (State.actSt_setActSt s a 1)
    · exact (State.rbit_setRbit (by omega)).trans (if_pos ⟨rfl, rfl⟩)
    · exact .step (.step (.step (.setReg (.setReg (.refl _ s) _) _) (State.setAct_puts _ _ _)) (State.setAct_puts _ _ _)) (State.emit_puts _ _)
  · obtain ⟨hretracted, hgang, -, -, hloop⟩ := State.retract_loaded a.isLt (by omega) (by omega) hidle hgates 0x181
    exact ⟨_, congrArg Host.Outcome.next (if_pos hst), hretracted, hgang, hloop⟩
  · exact ⟨_, congrArg Host.Outcome.next (if_pos hst), State.actSt_setActSt s a 0, (Only.refl _ _ s).setReg _⟩
  · obtain ⟨hretracted, hgang, hspeed, hseek, -⟩ := State.retract_loaded a.isLt hlow hhigh hidle hgates (if lost then 0x182 else 0x181)
    exact ⟨_, rfl, hretracted, hgang, hspeed, hseek⟩
  · exact ⟨_, rfl, State.settleTimeout_facts hst hdue⟩
  · obtain ⟨x, y, payload, hx, hy, hsends⟩ := State.loop_outputFrame hon hlow hhigh
    obtain ⟨hout, -, hsame⟩ := ((s.setLoop a x).setLoop (4 + a) y).sendAmp_facts a 1 payload
    refine ⟨_, congrArg Host.Outcome.next hsends, ?_, ?_, hout, ?_⟩
    · exact (congrArg Loop.ready ((State.loop_setLoop ..).trans (if_neg (by omega)))).trans
        ((congrArg Loop.ready ((State.loop_setLoop ..).trans (if_pos rfl))).trans hx)
    · exact (congrArg Loop.ready ((State.loop_setLoop ..).trans (if_pos rfl))).trans hy
    · exact .trans (((SameBut.refl _ s).step (State.setLoop_puts _ _ _)).step (State.setLoop_puts _ _ _)) (hsame.mono (by decide))
  · obtain ⟨hflags, hkept⟩ := State.ampStatus_facts (s := s.ampLock a true) (f := f) (a := a) (by rwa [s.actSt_ampLock a.isLt])
    exact ⟨_, congrArg Host.Outcome.next (State.upFrame_status hon hlocked hcrc hsync htype hrest hzero), hflags, hkept.trans (s.actSt_ampLock a.isLt true)⟩
  · have hne : actReg a 0x24 ≠ actReg a 0x28 := actReg_ne (by decide) (by decide) (by decide)
    refine ⟨_, congrArg Host.Outcome.next (State.upFrame_reply hon hlocked hcrc hsync htype hout hrest), ?_, ?_, ?_, ?_⟩
    · exact (State.reg_setReg ..).trans (if_pos rfl)
    · exact (State.rbit_congr ((State.reg_setReg ..).trans (if_neg hne)) 18).trans ((State.rbit_setRbit (by omega)).trans ((if_neg (by omega)).trans
        ((State.rbit_setRbit (by omega)).trans (if_pos ⟨rfl, rfl⟩))))
    · exact (State.rbit_congr ((State.reg_setReg ..).trans (if_neg hne)) 19).trans ((State.rbit_setRbit (by omega)).trans (if_pos ⟨rfl, rfl⟩))
    · exact .setReg (.setReg (.setReg (.step (((s.ampLock_only a true).1).mono (by simp)) (State.setAct_puts _ _ _)) _) _) _
  · refine ⟨_, congrArg Host.Outcome.next (State.linkLost_parked a.isLt hon hst), (State.rbit_setRbit (by omega)).trans (if_pos ⟨rfl, rfl⟩), ?_, ?_, ?_⟩
    · exact (State.rbit_setRbit (by omega)).trans ((if_neg fun h => absurd h.1 (by decide)).trans
        ((State.rbit_raise (by omega)).trans (if_pos ⟨rfl, rfl⟩)))
    · exact congrArg Act.locked (State.actP_setAct (s.raise actInt 2) a _)
    · exact .setReg (.step (.setReg (.refl _ s) _) (State.setAct_puts _ _ _)) _
  · exact ⟨_, rfl, State.ampcmdGo_facts hfree hon⟩
  · refine ⟨_, congrArg Host.Outcome.next (if_pos hbusy), ?_, ?_, congrArg Act.ampOut (State.actP_setAct _ _ _), ?_⟩
    · exact (State.rbit_setRbit (by omega)).trans ((if_neg (by omega)).trans ((State.rbit_setRbit (by omega)).trans (if_pos ⟨rfl, rfl⟩)))
    · exact (State.rbit_setRbit (by omega)).trans (if_pos ⟨rfl, rfl⟩)
    · exact .step (.setReg (.setReg (.refl _ s) _) _) (State.setAct_puts _ _ _)
  · have hnone : (s.setReg actGovBudget (v &&& 0xFFFF)).gov = [] := hgov
    refine ⟨_, congrArg Host.Outcome.next (State.govAdmit_of_none hnone), ?_, State.rfld_setRfld_same _ _ _ _ _ (by omega), ?_⟩
    · exact (State.reg_setRfld ..).trans ((if_neg (by decide)).trans ((State.reg_setReg ..).trans (if_pos rfl)))
    · exact .setReg (.trans (.setReg (.refl _ s) _) (.of_regs rfl)) _
  · have hregs := State.headdisWrite_regs hgang
    refine ⟨_, rfl, (State.reg_congr hregs _).trans ((State.reg_setReg ..).trans (if_pos rfl)), .trans (.setReg (.refl _ s) _) (.of_regs hregs)⟩

end Sys2Proof.Machine
end

section
/-!
PROOFS. The management port's MCTP and NVMe-MI commands (O27): an answer to a state that has sent nothing yet, what an answer leaves of the
port's own words, and the packet that brings a whole message.
-/
namespace Sys2Proof.Machine

/-! ## Answers -/

/-- A command that changes the parts of a reply only, sends nothing, and then answers. -/
theorem answers_of {s u : State} (hout : u.out = s.out) (hsame : SameBut replyParts s u) {m tag st : Nat} {l : List Byte} (hl : st ≠ 0 → l = []) :
    Replied tag st l s (u.mgtSend m tag st l) ∧ SameBut replyParts s (u.mgtSend m tag st l) :=
  ⟨(u.replied_mgtSend m tag st l hl).trans (by rw [hout]), hsame.trans (u.mgtSend_sameBut m tag st l)⟩

/-- A command that only answers. -/
theorem State.answers (s : State) {m tag st : Nat} {l : List Byte} (hl : st ≠ 0 → l = []) :
    Replied tag st l s (s.mgtSend m tag st l) ∧ SameBut replyParts s (s.mgtSend m tag st l) := answers_of rfl (.refl _ s) hl

/-- With status 0 every data go out. -/
theorem State.answers_ok (s : State) (m tag : Nat) (l : List Byte) :
    Replied tag 0 l s (s.mgtSend m tag 0 l) ∧ SameBut replyParts s (s.mgtSend m tag 0 l) := s.answers fun h => absurd rfl h

/-- An answer forgets the request and leaves the rest of the port. -/
theorem State.mgt_mgtSend (s : State) (m tag st : Nat) (l : List Byte) :
    (s.mgtSend m tag st l).mgt = { s.mgt with msgs := dropMsg m s.mgt.msgs } :=
  (State.count_frame_any (mgtCtr 1) (P := .part .mgt) rfl (Fr.refl (s.modMgt fun p => { p with msgs := dropMsg m p.msgs }))).1

theorem outsideCpl_mgt (o : Nat) : OutsideCpl (regAddr bMGT o) := outsideCpl_regAddr (by decide)

theorem State.reg_mgtStatus_mgtSend (s : State) (m tag st : Nat) (l : List Byte) : (s.mgtSend m tag st l).reg mgtStatus = s.reg mgtStatus := by
  refine State.count_reg (s.modMgt fun p => { p with msgs := dropMsg m p.msgs }) (mgtCtr 1) mgtStatus (outsideCpl_mgt _) ?_
  unfold Ctr.Holds mgtCtr mgtStatus mgtInt regAddr
  dsimp only
  omega

/-- An answer clears no flag of MGT_INT. -/
theorem State.mgtInt_mgtSend {s : State} {i : Nat} (hi : i < 32) (h : s.rbit mgtInt i = true) (m tag st : Nat) (l : List Byte) :
    (s.mgtSend m tag st l).rbit mgtInt i = true :=
  State.rbit_count_mono (s := s.modMgt fun p => { p with msgs := dropMsg m p.msgs }) (c := mgtCtr 1) hi (outsideCpl_mgt _) h (by decide)

/-! ## A packet -/

/-- A packet that is a whole message, and that the port takes (R541, R542). -/
structure WholeMessage (s : State) (p : MctpPkt) : Prop where
  enabled : s.rbit mgtCtrl 0 = true
  ready : s.rbit mgtStatus 0 = true
  powered : s.pwr.off.testBit 0 = false
  link : p.linkOk = true
  version : p.version = 1
  dest : p.dest = 0 ∨ p.dest = s.eid
  som : p.som = true
  eom : p.eom = true
  size : p.bytes ≤ 1100
  type : p.type = 0 ∨ (s.eid ≠ 0 ∧ (p.type = 4 ∨ p.type = 0x7F))
  room : s.mgt.msgs.length < 8
  tag : ∀ m ∈ s.mgt.msgs, m.1 ≠ p.tag

theorem State.mctpRx_whole {s : State} {p : MctpPkt} (h : WholeMessage s p) : s.mctpRx p =
    (((s.modMgt fun m => { m with asm_ := tset (fun _ => none) m.asm_ (16 * p.src + p.tag) none }).modMgt fun m =>
      { m with msgs := m.msgs ++ [(p.tag, p.type)] }).count (mgtCtr 0)).raise mgtInt 0 := by
  obtain ⟨henabled, hready, hpowered, hlink, hversion, hdest, hsom, heom, hsize, htype, hroom, htag⟩ := h
  have hknown : ¬ (p.type ≠ 0 ∧ p.type ≠ 4 ∧ p.type ≠ 0x7F) := by omega
  have hassigned : ¬ (p.type ≠ 0 ∧ s.eid = 0) := by omega
  have hfree : ¬ (8 ≤ s.mgt.msgs.length ∨ s.mgt.msgs.any (fun m => m.1 == p.tag) = true) := by
    rintro (hfull | hany)
    · omega
    · obtain ⟨m, hm, he⟩ := List.any_eq_true.mp hany
      exact htag m hm (eq_of_beq he)
  unfold State.mctpRx
  dsimp only
  rw [henabled, hready, hpowered, hlink, hsom, heom, if_neg (by decide), if_neg (by decide), if_neg (not_not_intro hversion), if_neg (by omega)]
  rw [if_pos rfl]
  dsimp only
  rw [if_neg (not_not_intro rfl), if_neg (by omega), if_neg (by decide), if_neg hknown]
  exact (if_neg hassigned).trans (if_neg hfree)

theorem State.mctpRx_whole_facts {s : State} {p : MctpPkt} (h : WholeMessage s p) : (s.mctpRx p).mgt.msgs = s.mgt.msgs ++ [(p.tag, p.type)] ∧
    (s.mctpRx p).rbit mgtInt 0 = true ∧ SameBut [.regs, .cellq, .mgt] s (s.mctpRx p) := by
  rw [State.mctpRx_whole h]
  set u := (s.modMgt fun m => { m with asm_ := tset (fun _ => none) m.asm_ (16 * p.src + p.tag) none }).modMgt fun m =>
    { m with msgs := m.msgs ++ [(p.tag, p.type)] } with hu
  have hmgt : ((u.count (mgtCtr 0)).raise mgtInt 0).mgt = u.mgt :=
    (State.raise_frame_any (P := .part .mgt) _ _ rfl (State.count_frame_any _ rfl (Fr.refl u))).1
  have hparts : SameBut [.regs, .cellq, .mgt] s u := ((SameBut.refl _ s).step (State.modMgt_puts _ _)).step (State.modMgt_puts _ _)
  have hmsgs : u.mgt.msgs = s.mgt.msgs ++ [(p.tag, p.type)] := rfl
  clear_value u
  exact ⟨(congrArg MgtPort.msgs hmgt).trans hmsgs, (State.rbit_raise (by omega)).trans (if_pos ⟨rfl, rfl⟩),
    hparts.trans (sameBut_of_frame (m := 0x7fffffffffff80004001) (fun P hp => State.raise_frame_any _ _ (Scope.outside_mono hp (by decide))
      (State.count_frame_any _ (Scope.outside_mono hp (by decide)) (Fr.refl u))) (by decide))⟩

/-! ## Commands that write MGT_STATUS -/

/-- A bit that may be set clears none. -/
theorem State.rbit_onlyIf_mono {s : State} {b j : Nat} (hj : j < 32) (h : s.rbit b j = true) (c : Bool) (a i : Nat) :
    (s.onlyIf c fun s => s.setRbit a i true).rbit b j = true := by
  cases c with
  | false => exact h
  | true => exact State.rbit_setRbit_true_mono hj h a i

/-- An EID that is assigned stands in MGT_STATUS, with its interrupt. -/
theorem State.eid_assigned (s : State) (e : Fin 256) : ((s.setRfld mgtStatus 3 8 e).raise mgtInt 3).eid = e.val ∧
    ((s.setRfld mgtStatus 3 8 e).raise mgtInt 3).rbit mgtInt 3 = true ∧ SameBut replyParts s ((s.setRfld mgtStatus 3 8 e).raise mgtInt 3) :=
  ⟨(State.rfld_raise_other (by omega) (.inl (by decide))).trans ((State.rfld_setRfld_same _ _ _ _ _ (by omega)).trans (Nat.mod_eq_of_lt e.isLt)),
    (State.rbit_raise (by omega)).trans (if_pos ⟨rfl, rfl⟩),
    ((SameBut.refl _ s).step (State.setReg_puts _ _ _)).step (State.setReg_puts _ _ _)⟩

theorem length_upto : ∀ n : Nat, (upto n).length = n
  | 0 => rfl
  | n + 1 => by rw [upto, List.length_append, length_upto n]; rfl

/-- The status of a health poll's list with no controller at any port. -/
theorem State.noControllers {s : State} {f : Nat → Ctrl → List Byte} (h : ∀ p < 4, (s.hifP p).ctrl = none) :
    ((upto 4).filterMap fun p => (s.hifP p).ctrl.map (f p)).flatten = [] := by
  have hnil : (upto 4).filterMap (fun p => (s.hifP p).ctrl.map (f p)) = [] := List.filterMap_eq_nil_iff.mpr fun p hp => by
    rw [h p (mem_upto.mp hp)]
    rfl
  rw [hnil]
  rfl

/-- READ_NVME_MI_DATA_STRUCTURE answers by the structure's type. -/
theorem execReadNvmeMiDataStructure_answers (s : State) (tag : Fin 8) (dtyp port ctrl : Nat) : ∃ st l,
    execReadNvmeMiDataStructure tag dtyp port ctrl s = .next (s.mgtSend tag tag st l) ∧ (st ≠ 0 → l = []) ∧ (dtyp = 0 → st = 0 ∧ l = [0, 1, 2]) ∧
      (dtyp = 3 → 1 ≤ ctrl → ctrl ≤ 4 → st = 0 ∧ l = leBytes 2 ctrl ++ leBytes 2 s.fw.ident.vid ++ leBytes 2 s.fw.ident.ssvid) := by
  unfold execReadNvmeMiDataStructure
  dsimp only
  by_cases h0 : dtyp = 0
  · rw [if_pos h0]
    exact ⟨_, _, rfl, fun h => absurd rfl h, fun _ => ⟨rfl, rfl⟩, fun h => by omega⟩
  rw [if_neg h0]
  by_cases h1 : dtyp = 1
  · rw [if_pos h1]
    split
    · exact ⟨_, _, rfl, fun h => absurd rfl h, fun h => absurd h h0, fun h => by omega⟩
    · exact ⟨_, _, rfl, fun _ => rfl, fun h => absurd h h0, fun h => by omega⟩
  rw [if_neg h1]
  by_cases h2 : dtyp = 2
  · rw [if_pos h2]
    exact ⟨_, _, rfl, fun h => absurd rfl h, fun h => absurd h h0, fun h => by omega⟩
  rw [if_neg h2]
  by_cases h3 : dtyp = 3
  · rw [if_pos h3]
    split
    · exact ⟨_, _, rfl, fun h => absurd rfl h, fun h => absurd h h0, fun _ _ _ => ⟨rfl, rfl⟩⟩
    next hno => exact ⟨_, _, rfl, fun _ => rfl, fun h => absurd h h0, fun _ hlo hhi => absurd ⟨hlo, hhi⟩ hno⟩
  rw [if_neg h3]
  by_cases h4 : dtyp = 4
  · rw [if_pos h4]
    exact ⟨_, _, rfl, fun h => absurd rfl h, fun h => absurd h h0, fun h => absurd h h3⟩
  · rw [if_neg h4]
    exact ⟨_, _, rfl, fun _ => rfl, fun h => absurd h h0, fun h => absurd h h3⟩

/-! ## The obligation -/

/-- Settles O27: a packet by `mctpRx_whole`, every other command by the answer that it sends or the fields that it writes. -/
theorem mctpCommandsComplete : Obligations.MctpCommandsComplete := by
  intro s
  refine ⟨?_, fun tag e hnull hbroadcast => ?_, fun tag => ⟨_, rfl, s.answers_ok ..⟩, fun tag => ⟨_, rfl, s.answers_ok ..⟩,
    fun tag => ⟨_, rfl, s.answers_ok ..⟩, fun tag => ⟨_, rfl, s.answers_ok ..⟩, fun tag => ⟨_, rfl, s.answers_ok ..⟩,
    fun tag => ⟨_, rfl, s.answers fun _ => rfl⟩, fun tag dtyp port ctrl => ?_, fun tag => ?_, fun tag => ?_, fun tag id hid => ?_,
    fun tag value hlow hhigh => ?_, fun tag value hvalue => ?_, fun tag off n => ?_, fun tag p fid sel => ?_, fun tag => ?_, fun tag => ?_,
    fun a hmode hready => ?_, fun hpowered => ?_⟩
  · intro p h1 h2 h3 h4 h5 h6 h7 h8 h9 h10 h11 h12
    exact ⟨_, rfl, State.mctpRx_whole_facts ⟨h1, h2, h3, h4, h5, h6, h7, h8, h9, h10, h11, h12⟩⟩
  · obtain ⟨heid, hint, hsame⟩ := s.eid_assigned e
    refine ⟨_, congrArg Host.Outcome.next (if_neg (by omega)), (State.rfld_congr (State.reg_mgtStatus_mgtSend ..) 3 8).trans heid,
      State.mgtInt_mgtSend (by omega) hint .., answers_of (s := s) (u := (s.setRfld mgtStatus 3 8 e).raise mgtInt 3) rfl hsame fun h => absurd rfl h⟩
  · obtain ⟨st, l, hexec, hdata, hsubsystem, hcontroller⟩ := execReadNvmeMiDataStructure_answers s tag dtyp port ctrl
    obtain ⟨hreplied, hsame⟩ := s.answers (m := tag) (tag := tag) hdata
    exact ⟨_, hexec, ⟨st, l, hreplied, hsubsystem, hcontroller⟩, hsame⟩
  · exact ⟨_, rfl, ⟨_, (s.answers_ok ..).1⟩, (s.answers_ok ..).2⟩
  · exact ⟨_, rfl, ⟨_, (s.answers_ok ..).1, fun h => State.noControllers (f := fun p k => leBytes 2 (p + 1) ++ leBytes 4 k.csts.toNat ++ [s.mediaWarn]) h⟩, (s.answers_ok ..).2⟩
  · rcases hid with rfl | rfl
    · exact ⟨_, congrArg Host.Outcome.next (if_pos rfl), s.answers_ok ..⟩
    · exact ⟨_, congrArg Host.Outcome.next ((if_neg (by decide)).trans (if_pos rfl)), s.answers_ok ..⟩
  · have hsupported : 1 ≤ value ∧ value ≤ (if s.dbg.mgtMode then 4 else 3) := by
      refine ⟨hlow, ?_⟩
      split <;> omega
    refine ⟨_, congrArg Host.Outcome.next ((if_pos rfl).trans (if_pos hsupported)), ?_,
      answers_of (s := s) (u := s.modMgt fun m => { m with freq := value }) rfl ((SameBut.refl replyParts s).step (State.modMgt_puts _ _)) fun h => absurd rfl h⟩
    exact congrArg MgtPort.freq (State.mgt_mgtSend ..)
  · refine ⟨_, congrArg Host.Outcome.next ((if_neg (by decide)).trans (if_neg fun h => hvalue h.2)), ?_, miInvalid, by decide,
      (s.answers fun _ => rfl).1⟩
    exact (congrArg MgtPort.freq (State.mgt_mgtSend ..)).trans rfl
  · exact ⟨_, rfl, ⟨_, (s.answers_ok ..).1, (List.length_map ..).trans (length_upto n)⟩, (s.answers_ok ..).2⟩
  · exact ⟨_, rfl, ⟨_, rfl, (s.answers_ok ..).1⟩, (s.answers_ok ..).2⟩
  · exact ⟨_, rfl, congrArg MgtPort.msgs (State.mgt_mgtSend ..), s.answers_ok ..⟩
  · have hout : (s.count (mgtCtr 1)).out = s.out := (State.count_frame_any _ (P := .part .out) rfl (Fr.refl s)).1
    exact ⟨_, rfl, congrArg _ hout, .step (sameBut_of_frame (m := 0x7fffffffffff80004001) (fun P hp => State.count_frame_any _ hp (Fr.refl s)) (by decide))
      (State.emit_puts _ _)⟩
  · refine ⟨_, congrArg Host.Outcome.next (if_pos (by rw [hmode, hready]; rfl)), ?_, ?_, .setReg (.setReg (.refl _ _ s) _) _⟩
    · exact (State.rbit_setRfld_other (by omega) (.inr (.inl (by omega)))).trans ((State.rbit_setRbit (by omega)).trans (if_pos ⟨rfl, rfl⟩))
    · exact (State.rfld_setRfld_same _ _ _ _ _ (by omega)).trans (Nat.mod_eq_of_lt a.isLt)
  · refine ⟨_, congrArg Host.Outcome.next (if_neg (by rw [hpowered]; exact Bool.false_ne_true)), ?_, fun hmode => ?_,
      .onlyIf (.setReg (.refl _ _ s) _) _ (.setReg (.refl _ _ _) _)⟩
    · exact State.rbit_onlyIf_mono (by omega) ((State.rbit_setRbit (by omega)).trans (if_pos ⟨rfl, rfl⟩)) _ _ _
    · dsimp only
      rw [show (s.setRbit mgtStatus 0 true).dbg.mgtMode = false from hmode]
      exact (State.rbit_setRbit (by omega)).trans (if_pos ⟨rfl, rfl⟩)

end Sys2Proof.Machine
end

section
/-!
PROOFS. The commands of a Jubilee session (O21): what sending leaves of a link's record, what training, closing and running write of its
STATUS, and the messages that open a session.
-/
namespace Sys2Proof.Machine

/-! ## Records and registers -/

theorem State.jubK_setJub (s : State) (k : Nat) (l : JubLink) : (s.setJub k l).jubK k = l := tget_tset_same ..

theorem State.jubK_modJub (s : State) (k : Nat) (f : JubLink → JubLink) : (s.modJub k f).jubK k = f (s.jubK k) := tget_tset_same ..

theorem State.jubK_congr {s t : State} (h : t.jub = s.jub) (k : Nat) : t.jubK k = s.jubK k := congrArg (tget _ · k) h

/-- Words of one link are the same word only with the same offset; none is a word of the block. -/
theorem jubL_ne {k o p : Nat} (hne : o ≠ p) (ho : o < 0x40) (hp : p < 0x40) : jubL k o ≠ jubL k p := by
  unfold jubL regAddr
  omega

theorem jubL_ne_low {k o p : Nat} (hk : k < 2) (ho : o < 0x40) (hp : p < 0x100) : jubL k o ≠ regAddr bJUB p := by
  unfold jubL regAddr
  omega

theorem blkOf_jubL (k o : Nat) : blkOf (jubL k o) = bJUB := blkOf_regAddr ..

/-- The STATUS word of a link is as it was: so are LINK, SESSION and LAST_STATUS. -/
theorem State.jubSt_congr {s t : State} {k : Nat} (h : t.reg (jubL k 4) = s.reg (jubL k 4)) : t.jubSt k = s.jubSt k := State.rfld_congr h 3 4
theorem State.jubLinkSt_congr {s t : State} {k : Nat} (h : t.reg (jubL k 4) = s.reg (jubL k 4)) : t.jubLinkSt k = s.jubLinkSt k :=
  State.rfld_congr h 0 3

theorem State.jubSt_setJubSt (s : State) (k : Nat) {v : Nat} (hv : v < 16) : (s.setJubSt k v).jubSt k = v :=
  (State.rfld_setRfld_same _ _ _ _ _ (by omega)).trans (Nat.mod_eq_of_lt hv)

theorem State.jubLinkSt_setJubLink (s : State) (k : Nat) {v : Nat} (hv : v < 8) : (s.setJubLink k v).jubLinkSt k = v :=
  (State.rfld_setRfld_same _ _ _ _ _ (by omega)).trans (Nat.mod_eq_of_lt hv)

theorem State.jubLinkSt_setJubSt (s : State) (k v : Nat) : (s.setJubSt k v).jubLinkSt k = s.jubLinkSt k :=
  State.rfld_setRfld_other (by omega) (.inr (.inl (by omega)))

theorem State.jubSt_setJubLink (s : State) (k v : Nat) : (s.setJubLink k v).jubSt k = s.jubSt k :=
  State.rfld_setRfld_other (by omega) (.inr (.inr (by omega)))

theorem State.jubSt_setJubZones (s : State) (k : Nat) (zs : List JubZone) : (s.setJubZones k zs).jubSt k = s.jubSt k :=
  (State.rfld_setRfld_other (by omega) (.inr (.inl (by omega)))).trans rfl

theorem State.zones_setJubZones (s : State) (k : Nat) (zs : List JubZone) : ((s.setJubZones k zs).jubK k).zones = zs :=
  congrArg JubLink.zones (s.jubK_modJub k fun l => { l with zones := zs })

/-! ## Sending -/

/-- A link's record without what sending changes. -/
def JubLink.unsent (l : JubLink) : JubLink := { l with txNext := 0, tx := [] }

/-- Something has been sent on the link: its record but for the lanes that send, and every register, are as they were, and what had gone out
still stands there. -/
structure JubSent (k : Nat) (s t : State) : Prop where
  regs : t.regs = s.regs
  link : (t.jubK k).unsent = (s.jubK k).unsent
  out : ∀ o ∈ s.out, o ∈ t.out

section
variable {k : Nat} {s t u : State}

theorem JubSent.refl (k : Nat) (s : State) : JubSent k s s := ⟨rfl, rfl, fun _ h => h⟩

theorem JubSent.trans (h : JubSent k s t) (h' : JubSent k t u) : JubSent k s u :=
  ⟨h'.regs.trans h.regs, h'.link.trans h.link, fun o ho => h'.out o (h.out o ho)⟩

theorem JubSent.reg (h : JubSent k s t) (a : Nat) : t.reg a = s.reg a := State.reg_congr h.regs a

end

theorem State.jubFlit_sent (s : State) (k type sub : Nat) (payload : List Byte) : JubSent k s (s.jubFlit k type sub payload) := by
  unfold State.jubFlit
  dsimp only
  set u := s.setJub k _ with hu
  have hlink : (u.jubK k).unsent = (s.jubK k).unsent := by rw [hu, State.jubK_setJub]; rfl
  have hput : JubSent k s u := ⟨rfl, hlink, fun _ h => h⟩
  clear_value u
  unfold State.onlyIf
  split
  · exact hput.trans ⟨rfl, rfl, fun _ h => List.mem_cons_of_mem _ h⟩
  · exact hput

theorem State.jubSent_each {α : Type} {f : State → α → State} {k : Nat} (hf : ∀ s x, JubSent k s (f s x)) (l : List α) :
    ∀ s : State, JubSent k s (s.each l f) := by
  induction l with
  | nil => exact fun s => .refl k s
  | cons x xs ih => exact fun s => (hf s x).trans (ih _)

theorem State.jubSend_sent (s : State) (k mtype plan : Nat) (body : List Byte) :
    JubSent k (s.emit (.jubMsg k mtype plan body)) (s.jubSend k mtype plan body) :=
  (State.jubFlit_sent _ _ _ _ _).trans (State.jubSent_each (fun s _ => s.jubFlit_sent _ _ _ _) _ _)

/-- A message that is sent has gone out, and all that it changes is what sending changes. -/
theorem State.jubSend_facts (s : State) (k mtype plan : Nat) (body : List Byte) :
    Out.jubMsg k mtype plan body ∈ (s.jubSend k mtype plan body).out ∧ JubSent k s (s.jubSend k mtype plan body) := by
  have hsent := s.jubSend_sent k mtype plan body
  have hemit : JubSent k s (s.emit (.jubMsg k mtype plan body)) := ⟨rfl, rfl, fun _ h => List.mem_cons_of_mem _ h⟩
  exact ⟨hsent.out _ List.mem_cons_self, hemit.trans hsent⟩

/-! ## The end of a session -/

theorem State.setReceiving_regs (s : State) (l : List PlanEnt) (on : Bool) : (s.setReceiving l on).regs = s.regs :=
  (State.setReceiving_frame (P := .part .regs) l on (Fr.refl s) ⟨rfl, by decide⟩).1

theorem State.setReceiving_jub (s : State) (l : List PlanEnt) (on : Bool) : (s.setReceiving l on).jub = s.jub :=
  (State.setReceiving_frame (P := .part .jub) l on (Fr.refl s) rfl).1

/-- The status that a session ends with, in STATUS and the interrupt. -/
structure JubEnded (k status : Nat) (s t : State) : Prop where
  session : t.jubSt k = if status = 0 then 6 else 7
  last : t.rfld (jubL k 4) 16 16 = status
  raised : t.rbit jubInt 4 = true
  zones : (t.jubK k).zones = []
  record : status = 0x508 → (t.jubK k).recSession = none
  regs : RegsBut [jubL k 4, jubInt] s t

theorem State.jubClosed_ended (s : State) {k status : Nat} (hk : k < 2) (hstatus : status < 65536) : JubEnded k status s (s.jubClosed k status) := by
  unfold State.jubClosed
  dsimp only
  set u := s.onlyIf (!s.jubSrc k) fun s' => s'.setReceiving (s.jubK k).plan false with hu
  have huregs : u.regs = s.regs := by
    rw [hu, State.onlyIf]
    split
    · exact State.setReceiving_regs ..
    · rfl
  clear_value u
  set v := ((((u.jubLast k status).setJubSt k (if status = 0 then 6 else 7)).raise jubInt 4).setJubZones k []).modJub k _ with hv
  have hend : (if status = 0 then 6 else 7) < 16 := by split <;> omega
  have hne : jubL k 4 ≠ jubInt := jubL_ne_low hk (by omega) (by omega)
  have hraise : ∀ w : State, (w.raise jubInt 4).reg (jubL k 4) = w.reg (jubL k 4) := fun w => (State.reg_raise ..).trans (if_neg hne)
  have hzones : (v.jubK k).zones = [] := by
    rw [hv, State.jubK_modJub]
    exact State.zones_setJubZones _ _ _
  have hst : v.jubSt k = if status = 0 then 6 else 7 :=
    (State.jubSt_setJubZones _ _ _).trans ((State.jubSt_congr (hraise _)).trans (State.jubSt_setJubSt _ _ hend))
  have hlast : v.rfld (jubL k 4) 16 16 = status := by
    refine (State.rfld_setRfld_other (by omega) (.inr (.inr (by omega)))).trans ((State.rfld_congr (hraise _) 16 16).trans ?_)
    exact (State.rfld_setRfld_other (by omega) (.inr (.inr (by omega)))).trans
      ((State.rfld_setRfld_same _ _ _ _ _ (by omega)).trans (Nat.mod_eq_of_lt hstatus))
  have hraised : v.rbit jubInt 4 = true :=
    (State.rbit_setRfld_other (by omega) (.inl hne.symm)).trans ((State.rbit_raise (by omega)).trans (if_pos ⟨rfl, rfl⟩))
  have hregs : RegsBut [jubL k 4, jubInt] s v :=
    .trans (.setReg (.trans (.setReg (.setReg (.setReg (.of_regs huregs) _) _) _) (.of_regs rfl)) _) (.of_regs rfl)
  clear_value v
  set w := v.onlyIf (status == 0 || status == 0x508) fun s => s.modJub k _ with hw
  have hwregs : w.regs = v.regs := by
    rw [hw, State.onlyIf]
    split <;> rfl
  have hwzones : (w.jubK k).zones = (v.jubK k).zones := by
    rw [hw, State.onlyIf]
    split
    · rw [State.jubK_modJub]
    · rfl
  have hwrecord : status = 0x508 → (w.jubK k).recSession = none := fun h => by
    rw [hw, h, State.onlyIf, if_pos (by decide), State.jubK_modJub]
  clear_value w
  exact ⟨(State.rfld_congr (State.reg_congr hwregs _) 3 4).trans hst, (State.rfld_congr (State.reg_congr hwregs _) 16 16).trans hlast,
    (State.rbit_congr (State.reg_congr hwregs _) 4).trans hraised, hwzones.trans hzones, hwrecord, hregs.trans (.of_regs hwregs)⟩

/-- This end closes: the end is the same. -/
theorem State.jubClose_ended (s : State) {k status : Nat} (hk : k < 2) (hstatus : status < 65536) : JubEnded k status s (s.jubClose k status) := by
  obtain ⟨hsession, hlast, hraised, hzones, hrecord, hregs⟩ := (s.jubSend k 0xB 0xFFFFFFFF (leBytes 8 status)).jubClosed_ended hk hstatus
  exact ⟨hsession, hlast, hraised, hzones, hrecord, .trans (.of_regs (s.jubSend_facts ..).2.regs) hregs⟩

/-! ## Training -/

/-- What training does elsewhere leaves the links' records and the registers of JUB. -/
def State.KeepsJub (s t : State) : Prop := t.jub = s.jub ∧ ∀ a, blkOf a = bJUB → t.reg a = s.reg a

theorem State.KeepsJub.of_frame {s t : State} (hpart : Fr (.part .jub) s t) (hwin : Fr (.win bJUB) s t) : s.KeepsJub t := ⟨hpart.1, hwin.1⟩

theorem State.storePresets_keepsJub (s : State) (r : Nat) (lanes : List Nat) : s.KeepsJub (s.storePresets (calJpre r) lanes) :=
  .of_frame (State.storePresets_frame _ _ (fun l => by rw [winMask_calJpre]; exact rfl) rfl (Fr.refl s))
    (State.storePresets_frame _ _ (fun l => by rw [winMask_calJpre]; exact ⟨rfl, rfl⟩) ⟨rfl, rfl⟩ (Fr.refl s))

/-- A training that brings the link up: LINK, the rate, the interrupt, and the session that was held (R424, R425). -/
theorem State.jubTrained_up {s : State} {k : Nat} (hk : k < 2) (hrate : s.rfld jubCtrl 2 2 ≠ 3) : (s.jubTrained k true).jubLinkSt k = 2 ∧
    (s.jubTrained k true).rfld jubStatus 0 2 = s.rfld jubCtrl 2 2 ∧ (s.jubTrained k true).rbit jubInt 0 = true ∧
    (s.jubSt k = 5 → (s.jubK k).heldFrom < 16 → (s.jubTrained k true).jubSt k = (s.jubK k).heldFrom) := by
  unfold State.jubTrained
  dsimp only
  rw [if_pos (by simpa using hrate)]
  set u := ((s.setRfld jubStatus 0 2 (s.rfld jubCtrl 2 2)).setRfld jubStatus 2 8 _).raise jubInt 0 with hu
  have hstatus : jubL k 4 ≠ jubStatus := jubL_ne_low hk (by omega) (by omega)
  have hint : jubL k 4 ≠ jubInt := jubL_ne_low hk (by omega) (by omega)
  have hulink : u.reg (jubL k 4) = s.reg (jubL k 4) := by
    rw [hu, State.reg_raise, if_neg hint, State.reg_setRfld, if_neg hstatus, State.reg_setRfld, if_neg hstatus]
  have hurate : u.rfld jubStatus 0 2 = s.rfld jubCtrl 2 2 :=
    (State.rfld_raise_other (by omega) (.inl (by decide))).trans ((State.rfld_setRfld_other (by omega) (.inr (.inl (by omega)))).trans
      ((State.rfld_setRfld_same _ _ _ _ _ (by omega)).trans (Nat.mod_eq_of_lt (Nat.mod_lt _ (by decide)))))
  have huint : u.rbit jubInt 0 = true := (State.rbit_raise (by omega)).trans (if_pos ⟨rfl, rfl⟩)
  have hujub : u.jub = s.jub := rfl
  clear_value u
  set v := (u.onlyIf (!(u.jubK k).presets) fun s' => s'.storePresets _ _).calTaken _ with hv
  have hkeeps : u.KeepsJub v := by
    rw [hv, State.onlyIf]
    split
    · exact ⟨(State.storePresets_keepsJub u _ _).1, (State.storePresets_keepsJub u _ _).2⟩
    · exact ⟨rfl, fun _ _ => rfl⟩
  clear_value v
  obtain ⟨hvjub, hvreg⟩ := hkeeps
  have hvlink := (hvreg _ (blkOf_jubL k 4)).trans hulink
  set x := (v.setJub k _).setJubLink k 2 with hx
  have hxlink : x.jubLinkSt k = 2 := State.jubLinkSt_setJubLink _ _ (by omega)
  have hxst : x.jubSt k = s.jubSt k := (State.jubSt_setJubLink ..).trans (State.jubSt_congr hvlink)
  have hxother : ∀ a, a ≠ jubL k 4 → x.reg a = v.reg a := fun a ha => (State.reg_setRfld ..).trans (if_neg ha)
  have hxheld : (x.jubK k).heldFrom = (s.jubK k).heldFrom := by
    rw [← State.jubK_congr (hvjub.trans hujub) k]
    exact (congrArg JubLink.heldFrom (State.jubK_setJub v k _)).trans rfl
  clear_value x
  have hrateKept := (State.rfld_congr ((hxother _ hstatus.symm).trans (hvreg jubStatus (blkOf_regAddr ..))) 0 2).trans hurate
  have hintKept := (State.rbit_congr ((hxother _ hint.symm).trans (hvreg jubInt (blkOf_regAddr ..))) 0).trans huint
  rw [hxst]
  by_cases hheld : s.jubSt k = 5
  · rw [hheld, beq_self_eq_true, State.onlyIf_true, hxheld]
    refine ⟨(State.jubLinkSt_setJubSt ..).trans hxlink, ?_, ?_, fun _ hlt => State.jubSt_setJubSt _ _ hlt⟩
    · exact (State.rfld_setRfld_other (by omega) (.inl hstatus.symm)).trans hrateKept
    · exact (State.rbit_setRfld_other (by omega) (.inl hint.symm)).trans hintKept
  · rw [beq_eq_false_iff_ne.mpr hheld, State.onlyIf_false]
    exact ⟨hxlink, hrateKept, hintKept, fun h => absurd h hheld⟩

theorem State.jubTrained_down (s : State) (k : Nat) : s.jubTrained k false = s.setJubLink k 3 := rfl

/-- A link that goes down: its session is Held (R425). -/
theorem State.jubDown_facts (s : State) {k : Nat} (hk : k < 2) : (s.jubDown k).jubLinkSt k = s.jubLinkSt k ∧
    (s.jubDown k).reg jubCtrl = s.reg jubCtrl ∧ RegsBut [jubStatus, jubL k 4] s (s.jubDown k) ∧
    (1 ≤ s.jubSt k → s.jubSt k ≤ 4 → (s.jubDown k).jubSt k = 5 ∧ ((s.jubDown k).jubK k).heldFrom = s.jubSt k) := by
  have hne : jubL k 4 ≠ jubStatus := jubL_ne_low hk (by omega) (by omega)
  have hctrl : jubL k 4 ≠ jubCtrl := jubL_ne_low hk (by omega) (by omega)
  unfold State.jubDown
  dsimp only
  set u := s.setRfld jubStatus 2 8 (s.rfld jubStatus 2 8 &&& (255 - (2 ^ s.jubWidth - 1) * 2 ^ s.jubBase k)) with hu
  have hlink : u.reg (jubL k 4) = s.reg (jubL k 4) := (State.reg_setRfld ..).trans (if_neg hne)
  have huctrl : u.reg jubCtrl = s.reg jubCtrl := (State.reg_setRfld ..).trans (if_neg (by decide))
  have hregs : RegsBut [jubStatus, jubL k 4] s u := (RegsBut.refl _ s).setReg _
  clear_value u
  rw [State.jubSt_congr hlink]
  by_cases hlive : 1 ≤ s.jubSt k ∧ s.jubSt k ≤ 4
  · rw [decide_eq_true hlive.1, decide_eq_true hlive.2, Bool.and_self, State.onlyIf_true]
    refine ⟨(State.jubLinkSt_setJubSt ..).trans (State.jubLinkSt_congr hlink), ?_, ?_, fun _ _ => ⟨State.jubSt_setJubSt _ _ (by omega), ?_⟩⟩
    · exact (State.reg_setRfld ..).trans ((if_neg hctrl.symm).trans huctrl)
    · exact .setReg (.trans hregs (.of_regs rfl)) _
    · exact congrArg JubLink.heldFrom (u.jubK_modJub k fun l => { l with heldFrom := s.jubSt k })
  · have hnot : (decide (1 ≤ s.jubSt k) && decide (s.jubSt k ≤ 4)) = false := by
      rw [← Bool.decide_and]
      exact decide_eq_false hlive
    rw [hnot, State.onlyIf_false]
    exact ⟨State.jubLinkSt_congr hlink, huctrl, hregs, fun h h' => absurd ⟨h, h'⟩ hlive⟩

theorem State.off_beginExit (s : State) (l goal : Nat) : (s.beginExit l goal).pwr.off = s.pwr.off := by
  unfold State.beginExit
  split <;> rfl

theorem State.off_pwrEvent (s : State) : s.pwrEvent.pwr.off = s.pwr.off := by
  unfold State.pwrEvent
  split
  · split
    · rfl
    · exact (congrArg Pwr.off (State.count_frame_any (pwrCtr 1) (P := .part .pwr) rfl (State.raise_frame_any _ _ rfl (Fr.refl _))).1).trans rfl
  · rfl
  · split
    · rfl
    · exact State.off_beginExit ..

/-- A wake source takes no domain off or on. -/
theorem State.off_wakeBy (s : State) (n : Nat) : (s.wakeBy n).pwr.off = s.pwr.off := by
  unfold State.wakeBy
  dsimp only
  split
  · split
    · rfl
    · split
      · rfl
      · have hcount : (((s.setRbit vglWakeSrc n true).raise pwrInt 4).count (pwrCtr 2)).pwr = s.pwr :=
          (State.count_frame_any (pwrCtr 2) (P := .part .pwr) rfl (Fr.refl ((s.setRbit vglWakeSrc n true).raise pwrInt 4))).1
        exact (State.off_pwrEvent _).trans (congrArg Pwr.off hcount)
  · rfl

/-! ## Opening a session -/

theorem State.jubHas_congr {s t : State} (h : t.reg jubCtrl = s.reg jubCtrl) (k : Nat) : t.jubHas k = s.jubHas k :=
  congrArg (k == 0 || ·) (State.rbit_congr h 1)

theorem State.jubRun_facts (s : State) (k : Nat) : ((s.jubRun k).jubSt k = 3 ∨ (s.jubRun k).jubSt k = 4) ∧
    (s.jubSrc k = false → (s.jubRun k).jubSt k = 3) ∧ (s.jubRun k).jub = s.jub ∧ (s.jubRun k).out = s.out := by
  have hst : (s.jubRun k).jubSt k = if (s.jubSrc k && s.rbit (jubL k 0) 1) = true then 4 else 3 := State.jubSt_setJubSt _ _ (by split <;> omega)
  rw [hst]
  refine ⟨?_, fun h => ?_, rfl, rfl⟩
  · split
    · exact .inr rfl
    · exact .inl rfl
  · rw [h, Bool.false_and, if_neg Bool.false_ne_true]

/-- A session that is recorded: its plan, and where it stands. -/
theorem State.jubRecord_facts (s : State) (k : Nat) (l : List PlanEnt) : let t := s.jubRecord k l
    ((t.jubK k).planOk = true ∧ (t.jubK k).recPlan = l ∧ (t.jubK k).recSession = some (s.reg (jubL k 8))) ∧ (t.jubSt k = 3 ∨ t.jubSt k = 4) ∧
      (s.jubSrc k = false → t.jubSt k = 3) ∧ t.out = s.out := by
  intro t
  obtain ⟨hst, hdest, hjub, hout⟩ := (s.modJub k fun m => { m with
    plan := l, recPlan := l, recSession := some (s.reg (jubL k 8)), recDone := 0xFFFFFFFF, planOk := true, nextIdx := 0 }).jubRun_facts k
  have hlink : t.jubK k = _ := (State.jubK_congr hjub k).trans (State.jubK_modJub ..)
  refine ⟨⟨?_, ?_, ?_⟩, hst, hdest, hout⟩ <;> rw [hlink]

theorem State.jubSrc_congr {s t : State} {k : Nat} (h : t.reg (jubL k 0) = s.reg (jubL k 0)) : t.jubSrc k = s.jubSrc k :=
  congrArg (!·) (State.rbit_congr h 0)

/-- A record that a session starts with has no zones open. -/
theorem State.jubK_setJubZones (s : State) (k : Nat) (l : JubLink) : ((s.setJub k l).setJubZones k []).jubK k = { l with zones := [] } :=
  ((s.setJub k l).jubK_modJub k fun l => { l with zones := [] }).trans (congrArg (fun l : JubLink => { l with zones := [] }) (s.jubK_setJub k l))

/-- The state in which a session has started, with the link's record, the session's number, DONE and the zones of the plan. -/
def State.jubStarted (s : State) (k : Nat) (l : JubLink) (session done zones : W) : State :=
  (((((s.setJub k l).setJubZones k []).setReg (jubL k 8) session).setReg (jubL k 0x10) done).setReg (jubL k 0xC) zones).setJubSt k 1

theorem State.jubStarted_facts (s : State) (k : Nat) (l : JubLink) (session done zones : W) : (s.jubStarted k l session done zones).jubSt k = 1 ∧
    (s.jubStarted k l session done zones).jubK k = { l with zones := [] } ∧
    RegsBut [jubL k 4, jubL k 8, jubL k 0xC, jubL k 0x10] s (s.jubStarted k l session done zones) := by
  have hlink : RegsBut [jubL k 4, jubL k 8, jubL k 0xC, jubL k 0x10] s ((s.setJub k l).modJub k fun l => { l with zones := [] }) := .of_regs rfl
  have hzones : RegsBut [jubL k 4, jubL k 8, jubL k 0xC, jubL k 0x10] s ((s.setJub k l).setJubZones k []) := hlink.setReg _
  exact ⟨State.jubSt_setJubSt _ _ (by omega), State.jubK_setJubZones s k l, (((hzones.setReg _).setReg _).setReg _).setReg _⟩

theorem execJubStart_starts {k : Fin 2} {s : State} (h : ¬ (s.jubSt k = 3 ∨ s.jubSt k = 4 ∨ s.jubSt k = 5 ∨ (!s.jubHas k) = true)) :
    ∃ l session done zones, execJubStart k s = .next (s.jubStarted k l session done zones) ∧ l.cfg = s.reg jubCfg ∧ l.grant = 0 ∧ l.sent = false :=
  ⟨_, _, _, _, congrArg Host.Outcome.next (if_neg h), rfl, rfl, rfl⟩

/-- PAUSE's bit is none that tells the source, and leaves STATUS. -/
theorem State.pause_facts (s : State) (k : Nat) (on : Bool) : (s.setRbit (jubL k 0) 1 on).jubSrc k = s.jubSrc k ∧
    (s.setRbit (jubL k 0) 1 on).jubSt k = s.jubSt k ∧ (s.setRbit (jubL k 0) 1 on).rbit (jubL k 0) 1 = on :=
  ⟨congrArg (!·) ((State.rbit_setRbit (by omega)).trans (if_neg (by omega))),
    State.jubSt_congr ((State.reg_setRbit ..).trans (if_neg (jubL_ne (by decide) (by decide) (by decide)))),
    (State.rbit_setRbit (by omega)).trans (if_pos ⟨rfl, rfl⟩)⟩

/-- A session that is told to pause or go on: STATUS is written beside PAUSE. -/
theorem State.paused_facts (s : State) (k : Nat) (on : Bool) {v : Nat} (hv : v < 16) : let t := (s.setRbit (jubL k 0) 1 on).setJubSt k v
    t.jubSt k = v ∧ t.rbit (jubL k 0) 1 = on ∧ Only [] [jubL k 0, jubL k 4] s t :=
  ⟨State.jubSt_setJubSt _ _ hv,
    (State.rbit_setRfld_other (by omega) (.inl (jubL_ne (by decide) (by decide) (by decide)))).trans (s.pause_facts k on).2.2,
    .setReg (.setReg (.refl _ _ s) _) _⟩

/-- A held session that ends: STATUS, and a record that keeps what a resumption needs. -/
theorem State.holdExpired_facts (s : State) (k : Nat) {f : JubLink → JubLink}
    (hf : ∀ l, (f l).recSession = l.recSession ∧ (f l).recDone = l.recDone) : let t := (((s.jubLast k 0x507).setJubSt k 7).setJubZones k []).modJub k f
    t.jubSt k = 7 ∧ t.rfld (jubL k 4) 16 16 = 0x507 ∧ (t.jubK k).recSession = (s.jubK k).recSession ∧ (t.jubK k).recDone = (s.jubK k).recDone ∧
      RegsBut [jubL k 4] s t := by
  intro t
  have hlink : t.jubK k = f { s.jubK k with zones := [] } := (State.jubK_modJub _ k f).trans
    (congrArg f (((s.jubLast k 0x507).setJubSt k 7).jubK_modJub k fun l => { l with zones := [] }))
  obtain ⟨hsession, hdone⟩ := hf { s.jubK k with zones := [] }
  refine ⟨(State.jubSt_setJubZones ..).trans (State.jubSt_setJubSt _ _ (by omega)), ?_, (congrArg JubLink.recSession hlink).trans hsession,
    (congrArg JubLink.recDone hlink).trans hdone, ?_⟩
  · exact (State.rfld_setRfld_other (by omega) (.inr (.inr (by omega)))).trans ((State.rfld_setRfld_other (by omega) (.inr (.inr (by omega)))).trans
      (State.rfld_setRfld_same _ _ _ _ _ (by omega)))
  · have hzones : RegsBut [jubL k 4] s (((s.jubLast k 0x507).setJubSt k 7).modJub k fun l => { l with zones := [] }) :=
      .trans (.setReg (.setReg (.refl _ s) _) _) (.of_regs rfl)
    have hput : RegsBut [jubL k 4] s (((s.jubLast k 0x507).setJubSt k 7).setJubZones k []) := hzones.setReg _
    exact hput.trans (.of_regs rfl)

/-- With one HELLO still missing nothing goes on. -/
theorem State.jubGreeted_waits {s : State} {k : Nat} (h : (s.jubK k).sent = false ∨ (s.jubK k).got = false) : s.jubGreeted k = s := by
  refine if_pos ?_
  rcases h with h | h <;> simp [h]

/-- A HELLO of this end's goes out while the other's is missing. -/
theorem State.helloSent_facts {s : State} {k : Nat} (hgot : (s.jubK k).got = false) (body : List Byte) :
    let t := ((s.modJub k fun l => { l with sent := true }).jubSend k 1 0xFFFFFFFF body).jubGreeted k
    (t.jubK k).sent = true ∧ (∃ b, Out.jubMsg k 1 0xFFFFFFFF b ∈ t.out) ∧ RegsBut [] s t := by
  obtain ⟨hmsg, hregs, hlink, -⟩ := (s.modJub k fun l => { l with sent := true }).jubSend_facts k 1 0xFFFFFFFF body
  have hput := s.jubK_modJub k fun l => { l with sent := true }
  set u := (s.modJub k fun l => { l with sent := true }).jubSend k 1 0xFFFFFFFF body with hu
  have hsent : (u.jubK k).sent = true := (congrArg JubLink.sent hlink).trans (congrArg JubLink.sent hput)
  have hmissing : (u.jubK k).got = false := (congrArg JubLink.got hlink).trans ((congrArg JubLink.got hput).trans hgot)
  rw [State.jubGreeted_waits (.inr hmissing)]
  exact ⟨hsent, ⟨body, hmsg⟩, .of_regs hregs⟩

/-- The other end's HELLO comes while this end's is not sent. -/
theorem State.helloGot_facts {s : State} {k : Nat} (hsent : (s.jubK k).sent = false) (h : JubHello) :
    let t := (s.modJub k fun l => { l with got := true, peerResume := h.resume, peerSession := h.session }).jubGreeted k
    (t.jubK k).got = true ∧ (t.jubK k).peerResume = h.resume ∧ (t.jubK k).peerSession = h.session ∧ SameBut [.jub] s t := by
  have hput := s.jubK_modJub k fun l => { l with got := true, peerResume := h.resume, peerSession := h.session }
  set u := s.modJub k fun l => { l with got := true, peerResume := h.resume, peerSession := h.session } with hu
  have hparts : SameBut [.jub] s u := (SameBut.refl _ s).step (State.setJub_puts _ _ _)
  rw [State.jubGreeted_waits (.inl ((congrArg JubLink.sent hput).trans hsent))]
  exact ⟨congrArg JubLink.got hput, congrArg JubLink.peerResume hput, congrArg JubLink.peerSession hput, hparts⟩

/-- A plan that a destination accepts: the answer, and the session recorded. -/
theorem State.planTaken_facts {s : State} {k : Nat} (hdest : s.jubSrc k = false) (l : List PlanEnt) (zones : W) (body : List Byte) :
    let t := (((s.setReg (jubL k 0xC) zones).jubSend k 3 0xFFFFFFFF body).setReceiving l true).jubRecord k l
    (t.jubK k).planOk = true ∧ (t.jubK k).recPlan = l ∧ (t.jubK k).recSession = some (s.reg (jubL k 8)) ∧ t.jubSt k = 3 ∧
      (∃ b, Out.jubMsg k 3 0xFFFFFFFF b ∈ t.out) := by
  obtain ⟨hmsg, hregs, -, -⟩ := (s.setReg (jubL k 0xC) zones).jubSend_facts k 3 0xFFFFFFFF body
  set u := (s.setReg (jubL k 0xC) zones).jubSend k 3 0xFFFFFFFF body with hu
  have hreg : ∀ o < 0x40, o ≠ 0xC → (u.setReceiving l true).reg (jubL k o) = s.reg (jubL k o) := fun o ho hne =>
    (State.reg_congr ((State.setReceiving_regs u l true).trans hregs) _).trans
      ((State.reg_setReg ..).trans (if_neg (jubL_ne hne ho (by decide))))
  have hout : (u.setReceiving l true).out = u.out := (State.setReceiving_frame (P := .part .out) l true (Fr.refl u) rfl).1
  obtain ⟨⟨hok, hplan, hsession⟩, -, hruns, hkept⟩ := (u.setReceiving l true).jubRecord_facts k l
  rw [hreg 8 (by decide) (by decide)] at hsession
  exact ⟨hok, hplan, hsession, hruns ((State.jubSrc_congr (hreg 0 (by decide) (by decide))).trans hdest), body, by rw [hkept, hout]; exact hmsg⟩

/-! ## The obligation -/

/-- Settles O21: each clause is what the rules above make of its command. -/
theorem jubileeSessionCommandsComplete : Obligations.JubileeSessionCommandsComplete := by
  intro k s
  have hk := k.isLt
  refine ⟨fun hst hhas => ?_, fun hlow hhigh hlink => ?_, fun hen hhas hlink => ?_, fun hen hhas hlink hrate => ?_, fun hsrc hst => ?_,
    fun hsrc hst => ?_, fun hen hhas hlink hoff hrate => ?_, fun hlink hlow hhigh => ?_, fun hen hlink hst hrate hheld => ?_, fun hst => ?_,
    fun hst hlink hsent hgot => ?_, fun h hst hlink hsent hversion hrole => ?_, fun l n hdest hst hlen hzones hgood => ?_, fun hsrc hst => ?_,
    fun st hsrc hst hpos hlt => ?_, fun st hlow hhigh hlt => ?_⟩
  · have hnot : ¬ (s.jubSt k = 3 ∨ s.jubSt k = 4 ∨ s.jubSt k = 5 ∨ (!s.jubHas k) = true) := by
      rw [hhas]
      simp only [Bool.not_true, Bool.false_eq_true, or_false]
      omega
    obtain ⟨l, session, done, zones, hexec, hcfg, hgrant, hsent⟩ := execJubStart_starts hnot
    obtain ⟨hone, hlink, hregs⟩ := s.jubStarted_facts k l session done zones
    exact ⟨_, hexec, hone, (congrArg JubLink.cfg hlink).trans hcfg, congrArg JubLink.zones hlink, (congrArg JubLink.grant hlink).trans hgrant,
      (congrArg JubLink.sent hlink).trans hsent, hregs⟩
  · obtain ⟨hsession, hlast, hraised, -, hrecord, hregs⟩ := s.jubClosed_ended (status := 0x508) hk (by omega)
    have hnot : ¬ (s.jubLive k && s.jubLinkSt k == 2) = true := by simp [hlink]
    exact ⟨_, congrArg Host.Outcome.next ((if_neg hnot).trans (if_pos ⟨hlow, hhigh⟩)), hsession, hlast, hrecord rfl, hraised, hregs⟩
  · obtain ⟨hkept, -, -, -⟩ := s.jubDown_facts hk
    have htaken : (s.rbit jubCtrl 0 && s.jubHas k && s.jubLinkSt k != 0) = true := by simp [hen, hhas, hlink]
    have hint : jubL k 4 ≠ jubInt := jubL_ne_low hk (by omega) (by omega)
    refine ⟨_, congrArg Host.Outcome.next (if_pos htaken), ?_⟩
    dsimp only
    rw [hkept, hlink, State.jubTrained_down]
    exact ⟨(State.jubLinkSt_congr ((State.reg_raise ..).trans (if_neg hint))).trans (State.jubLinkSt_setJubLink _ _ (by omega)),
      (State.rbit_raise (by omega)).trans (if_pos ⟨rfl, rfl⟩)⟩
  · obtain ⟨-, hctrl, -, -⟩ := s.jubDown_facts hk
    have htaken : (s.rbit jubCtrl 0 && s.jubHas k && s.jubLinkSt k != 0) = true := by simp [hen, hhas, hlink]
    obtain ⟨hup, hset, hint, -⟩ := State.jubTrained_up (s := s.jubDown k) hk (by rwa [State.rfld_congr hctrl])
    refine ⟨_, congrArg Host.Outcome.next (if_pos htaken), ?_⟩
    dsimp only
    rw [Bool.not_true, Bool.and_false, State.onlyIf_false]
    exact ⟨hup, hset.trans (State.rfld_congr hctrl 2 2), hint⟩
  · obtain ⟨hsource, hsession, -⟩ := s.pause_facts k true
    have hnot : ¬ (!(s.setRbit (jubL k 0) 1 true).jubSrc k) = true := by simp [hsource, hsrc]
    exact ⟨_, congrArg Host.Outcome.next ((if_neg hnot).trans (if_pos ⟨hsession.trans hst, rfl⟩)), s.paused_facts k true (by omega)⟩
  · obtain ⟨hsource, hsession, -⟩ := s.pause_facts k false
    have hnot : ¬ (!(s.setRbit (jubL k 0) 1 false).jubSrc k) = true := by simp [hsource, hsrc]
    exact ⟨_, congrArg Host.Outcome.next ((if_neg hnot).trans ((if_neg fun h => Bool.false_ne_true h.2).trans
      (if_pos ⟨hsession.trans hst, rfl⟩))), s.paused_facts k false (by omega)⟩
  · have hwin : ∀ a, blkOf a = bJUB → (s.wakeBy 3).reg a = s.reg a := (State.wakeBy_frame (P := .win bJUB) 3 (Fr.refl s) ⟨rfl, rfl⟩).1
    have hctrl := hwin jubCtrl (blkOf_regAddr ..)
    have htaken : ((s.wakeBy 3).rbit jubCtrl 0 && (s.wakeBy 3).jubHas k && (s.wakeBy 3).jubLinkSt k == 0 && !(s.wakeBy 3).pwr.off.testBit 3) = true := by
      rw [State.rbit_congr hctrl, State.jubHas_congr hctrl, State.jubLinkSt_congr (hwin _ (blkOf_jubL k 4)), State.off_wakeBy, hen, hhas, hlink, hoff]
      rfl
    exact ⟨_, congrArg Host.Outcome.next (if_pos htaken), (State.jubTrained_up hk (by rwa [State.rfld_congr hctrl])).1⟩
  · obtain ⟨-, -, hregs, hheld⟩ := s.jubDown_facts hk
    obtain ⟨hfive, hfrom⟩ := hheld hlow hhigh
    have hint : jubL k 4 ≠ jubInt := jubL_ne_low hk (by omega) (by omega)
    have hraise : (((s.jubDown k).setJubLink k 3).raise jubInt 1).reg (jubL k 4) = ((s.jubDown k).setJubLink k 3).reg (jubL k 4) :=
      (State.reg_raise ..).trans (if_neg hint)
    exact ⟨_, congrArg Host.Outcome.next (if_pos hlink), (State.jubLinkSt_congr hraise).trans (State.jubLinkSt_setJubLink _ _ (by omega)),
      (State.jubSt_congr hraise).trans ((State.jubSt_setJubLink ..).trans hfive), hfrom, (State.rbit_raise (by omega)).trans (if_pos ⟨rfl, rfl⟩),
      .setReg (.setReg (hregs.mono (by simp)) _) _⟩
  · have htaken : (s.rbit jubCtrl 0 && s.jubLinkSt k == 3) = true := by simp [hen, hlink]
    obtain ⟨hup, -, -, hback⟩ := State.jubTrained_up hk hrate
    exact ⟨_, congrArg Host.Outcome.next (if_pos htaken), hup, hback hst hheld⟩
  · exact ⟨_, congrArg Host.Outcome.next (if_pos hst), s.holdExpired_facts k (f := fun l => { l with
      msgOpen := false, sent := false, got := false, planOk := false, grant := 0, gotStripes := 0, sentStripes := 0 }) fun _ => ⟨rfl, rfl⟩⟩
  · exact ⟨_, congrArg Host.Outcome.next (if_pos ⟨hst, hlink, by rw [hsent]; rfl⟩), State.helloSent_facts hgot _⟩
  · have hmay : ¬ (s.jubLinkSt k ≠ 2 ∨ s.jubSt k = 2 ∨ s.jubRuns k = true ∨ s.jubSt k = 5) := by simp [State.jubRuns, hlink, hst]
    have hfits : ¬ (s.jubSt k = 1 ∧ (h.version ≠ 1 ∨ h.role ≠ (if s.jubSrc k then 1 else 0))) := by simp [hversion, hrole]
    exact ⟨_, congrArg Host.Outcome.next ((if_neg hmay).trans (if_neg hfits)), State.helloGot_facts hsent h⟩
  · have hmay : ¬ (s.jubSrc k = true ∨ s.jubSt k ≠ 2) := by simp [hdest, hst]
    have hfits : ¬ (64 < l.length ∨ n ≠ planZones l) := by omega
    have hexec : exec (.plan k l n) s = .next ((((s.setReg (jubL k 0xC) (BitVec.ofNat 32 n)).jubSend k 3 0xFFFFFFFF (leBytes 8 0)).setReceiving l
        true).jubRecord k l) := by
      refine (congrArg Host.Outcome.next ((if_neg hmay).trans (if_neg hfits))).trans ?_
      rw [hgood]
    exact ⟨_, hexec, State.planTaken_facts hdest l _ _⟩
  · obtain ⟨⟨hok, -, hrec⟩, hruns, -, -⟩ := s.jubRecord_facts k (s.jubK k).plan
    have hnot : ¬ ((!s.jubSrc k) = true ∨ s.jubSt k ≠ 2) := by simp [hsrc, hst]
    exact ⟨_, congrArg Host.Outcome.next ((if_neg hnot).trans (if_pos rfl)), hok, hrec, hruns⟩
  · obtain ⟨hsession, hlast, hraised, -, -, -⟩ := s.jubClose_ended hk hlt
    have hnot : ¬ ((!s.jubSrc k) = true ∨ s.jubSt k ≠ 2) := by simp [hsrc, hst]
    have hne : st ≠ 0 := by omega
    exact ⟨_, congrArg Host.Outcome.next ((if_neg hnot).trans (if_neg hne)), hsession.trans (if_neg hne), hlast, hraised⟩
  · obtain ⟨hsession, hlast, hraised, hzones, -, -⟩ := s.jubClosed_ended hk hlt
    have hlive : s.jubLive k = true := by simp [State.jubLive, hlow, hhigh]
    exact ⟨_, congrArg Host.Outcome.next (if_pos hlive), hsession, hlast, hraised, hzones⟩

end Sys2Proof.Machine
end

section
/-!
PROOFS. O50 fails: a stall moves W to M only where the band's MOP runs on and no disable has set W.
-/
namespace Sys2Proof.Machine

set_option Elab.async false

/-- A band after a disable, with W set to V: a written sector of the current pass waits for its verify event, and no event has come for long. -/
def stalledAfterDisable : State :=
  let g : Gate := { id := 1, head := 0, kind := .write, gpos := 0, stripe := 0, spos := 0, start := 0, stop := 0, sent := true }
  { (State.reset.setReg (wpaPosW 0) 7).setReg (wpaPosV 0) 7 with
    ord := [(0, { phase := .running, band := true, disabled := true, gates := [g] })], wpa := [(0, { quiet := 100000 })] }

/-- Refutes O50: VERIFY_STALL_TIMEOUT leaves W where the disable has set it, and does not move it to M. -/
theorem not_writeVerifyCommandsComplete : ¬ Obligations.WriteVerifyCommandsComplete := by
  intro h
  obtain ⟨-, -, -, -, -, -, hstall⟩ := h 0 stalledAfterDisable
  have hmoved := (hstall (by decide +kernel) (by decide +kernel)).of_execNext.2.2.2 (by decide +kernel)
  exact absurd hmoved (by decide +kernel)

end Sys2Proof.Machine
end

section
/-!
PROOFS. The commands of FLS (O33). Every clause holds but one: a page that has been programmed with all ones, in a block that shipped with
contents, reads as it shipped, and what a part ships with is a constant without a body. So O33 is neither provable nor refutable: it holds
exactly where every shipped page is erased.
-/
namespace Sys2Proof.Machine

/-! ## A GO that is not refused -/

theorem State.flsCmd_of_ready {s : State} (hready : s.rfld flsStatus 0 2 ≠ 3) (r : Requester) (op block page bits : Nat) :
    s.flsCmd r op block page bits = (s.flsCmdShow op block page).flsGo r op block page bits := by
  have hne : flsStatus ≠ flsCmdReg := by decide
  have hready' : (s.flsCmdShow op block page).rfld flsStatus 0 2 ≠ 3 := by simpa [State.rfld, State.flsCmdShow, hne] using hready
  exact if_neg hready'

theorem State.flsCmdShow_regsBut (s : State) (op block page : Nat) : RegsBut [flsCmdReg] s (s.flsCmdShow op block page) := (RegsBut.refl _ s).setReg _

theorem State.pbuf_flsCmdShow (s : State) (op block page : Nat) : (s.flsCmdShow op block page).pbuf = s.pbuf := by
  have hreg (w : Nat) (hw : w < 128) : (s.flsCmdShow op block page).reg (regAddr bFLS (0x400 + 4 * w)) = s.reg (regAddr bFLS (0x400 + 4 * w)) := by
    refine s.flsCmdShow_regsBut op block page _ ?_
    simp only [flsCmdReg, List.mem_singleton, regAddr_inj]
    omega
  unfold State.pbuf
  exact congrArg List.flatten (List.map_congr_left fun w hw => by rw [hreg w (mem_upto.mp hw)])

/-- An operation that starts shows itself in FLS_STATUS. -/
theorem State.flsStart_leaves (s : State) (o : FlsOp) (block : Nat) :
    (s.flsStart o block).fls = { s.fls with op := some o } ∧ (s.flsStart o block).rfld flsStatus 0 2 = 1 ∧
    (s.flsStart o block).rfld flsStatus 2 2 = block / 64 % 4 ∧ (s.flsStart o block).rbit flsStatus 4 = s.rbit flsStatus 4 ∧
    RegsBut [flsStatus] s (s.flsStart o block) := by
  refine ⟨rfl, ?_, State.rfld_setRfld_same _ _ _ _ _ (by decide), ?_, (((RegsBut.refl _ s).step (s.modFls_puts _)).setReg _).setReg _⟩
  · rw [State.flsStart, State.rfld, State.reg_setRfld, if_pos rfl, fld_setFld_other _ _ _ _ _ _ (by decide) (by decide)]
    exact State.rfld_setRfld_same _ _ _ _ _ (by decide)
  · simp [State.flsStart, State.rbit, bitAt_setFld]

section
variable {s : State} {r : Requester}

theorem State.flsGo_program {block page : Nat} (h : s.flsRefusal r 1 block page = 0) (bits : Nat) :
    s.flsGo r 1 block page bits = s.flsStart (.program block page s.pbuf) block := by simp [State.flsGo, h]

theorem State.flsGo_erase {block : Nat} (h : s.flsRefusal r 2 block 0 = 0) (bits : Nat) :
    s.flsGo r 2 block 0 bits = s.flsStart (.erase block) block := by simp [State.flsGo, h]

theorem State.flsGo_resume {b : Nat} (hop : s.fls.op = none) (hsus : s.fls.suspended = some b) (bits : Nat) :
    s.flsGo r 4 0 0 bits = (s.modFls fun f => { f with suspended := none, resumeAt := some s.vgl.wall }).flsStart (.erase b) b := by
  simp [State.flsGo, State.flsRefusal, hop, hsus]

theorem State.flsGo_marginRead (hop : s.fls.op = none) (hsus : s.fls.suspended = none) (block page bits : Nat) :
    s.flsGo r 5 block page bits = (s.setReg flsMargin (BitVec.ofNat 32 bits)).raise flsInt 0 := by
  simp [State.flsGo, State.flsRefusal, hop, hsus]

theorem State.flsGo_otpProgram (hop : s.fls.op = none) (hsus : s.fls.suspended = none)
    (hopen : s.otpLocked (s.rfld (regAddr bFLS 0x20) 0 10 / 128) = false) (bits : Nat) :
    s.flsGo r 6 0 0 bits = (s.otpSet (s.rfld (regAddr bFLS 0x20) 0 10) s.fls.otpData).raise flsInt 0 := by
  simp [State.flsGo, State.flsRefusal, hop, hsus, hopen]

end

/-- A word of the OTP row after a program: the word programmed, if it held nothing. -/
theorem State.otpWord_otpSet_eq (s : State) (w x : Nat) (v : W) :
    (s.otpSet w v).otpWord x = if x = w ∧ s.otpWord x = 0 then v else s.otpWord x := by
  unfold State.otpSet
  by_cases hw : s.otpWord w = 0
  · rw [if_pos hw]
    refine (tget_tset (fun _ => 0) s.fls.otp w x v).trans ?_
    by_cases hx : x = w
    · subst hx; simp [hw]
    · simp [hx, State.otpWord]
  · rw [if_neg hw]
    exact (if_neg fun h : x = w ∧ s.otpWord x = 0 => hw (h.1 ▸ h.2)).symm

theorem State.otpSet_regs (s : State) (w : Nat) (v : W) : (s.otpSet w v).regs = s.regs := by
  unfold State.otpSet
  split
  · rfl
  · rfl

/-! ## Reads that waited -/

/-- What reads leave behind: beside the reads that wait and the fetch banks the flash is as it was, and so are FLS_STATUS and FLS_MARGIN;
the flag of a finished operation stays up. -/
structure State.ReadsServed (s t : State) : Prop where
  fls : ∃ fetch reads, t.fls = { s.fls with fetch := fetch, reads := reads }
  clk : t.clk = s.clk
  status : t.reg flsStatus = s.reg flsStatus
  margin : t.reg flsMargin = s.reg flsMargin
  done : s.rbit flsInt 0 = true → t.rbit flsInt 0 = true

section
variable {s t u : State}

theorem State.ReadsServed.refl (s : State) : s.ReadsServed s := ⟨⟨_, _, rfl⟩, rfl, rfl, rfl, id⟩

theorem State.ReadsServed.trans (h : s.ReadsServed t) (h' : t.ReadsServed u) : s.ReadsServed u := by
  obtain ⟨fetch, reads, hfls⟩ := h'.fls
  obtain ⟨_, _, hfls'⟩ := h.fls
  exact ⟨⟨fetch, reads, hfls.trans (by rw [hfls'])⟩, h'.clk.trans h.clk, h'.status.trans h.status, h'.margin.trans h.margin, h'.done ∘ h.done⟩

theorem State.ReadsServed.onlyIf (c : Bool) {f : State → State} (h : s.ReadsServed (f s)) : s.ReadsServed (s.onlyIf c f) := by
  cases c
  · exact .refl s
  · exact h

/-- A count of a finding, with what follows it in the interrupt register. -/
theorem State.readsServed_found (s : State) (i bit : Nat) (hi : i < 4) : s.ReadsServed ((s.count (flsCtr i)).raise flsInt bit) := by
  have hfls : (s.count (flsCtr i)).fls = s.fls := (State.count_frame_any _ rfl (Fr.refl s) (P := .part .fls)).1
  have hclk : (s.count (flsCtr i)).clk = s.clk := (State.count_frame_any _ rfl (Fr.refl s) (P := .part .clk)).1
  have haddr (o : Nat) (ho : o = 0x4 ∨ o = 0x18) : ¬ (flsCtr i).Holds (regAddr bFLS o) ∧ regAddr bFLS o ≠ flsInt := by
    simp only [Ctr.Holds, flsCtr, flsInt, ne_eq, regAddr_inj]
    omega
  have hreg (o : Nat) (ho : o = 0x4 ∨ o = 0x18) : ((s.count (flsCtr i)).raise flsInt bit).reg (regAddr bFLS o) = s.reg (regAddr bFLS o) := by
    rw [State.reg_raise, if_neg (haddr o ho).2, State.count_reg _ _ _ (outsideCpl_regAddr (by decide)) (haddr o ho).1]
  refine ⟨⟨s.fls.fetch, s.fls.reads, hfls⟩, hclk, hreg _ (.inl rfl), hreg _ (.inr rfl), fun h => ?_⟩
  refine State.rbit_raise_mono _ _ _ _ _ (by decide) (State.rbit_count_mono (by decide) (outsideCpl_regAddr (by decide)) h ?_)
  simp only [flsInt, flsCtr, ne_eq, regAddr_inj]
  omega

theorem State.readsServed_flashFound (s : State) (q : FlashWait) : s.ReadsServed (s.flashFound q) := by
  have hsingle (s : State) := s.readsServed_found 2 3 (by decide)
  have hdouble (s : State) (v : W) : s.ReadsServed (((s.count (flsCtr 3)).raise flsInt 2).setReg flsLastErr v) :=
    (s.readsServed_found 3 2 (by decide)).trans ⟨⟨_, _, rfl⟩, rfl, by simp [flsStatus, flsLastErr], by simp [flsMargin, flsLastErr],
      fun h => by simpa [State.rbit, flsInt, flsLastErr] using h⟩
  unfold State.flashFound
  exact State.ReadsServed.trans (.onlyIf _ (hsingle _)) (.onlyIf _ (hdouble _ _))

theorem State.readsServed_flashFetched (s : State) (q : FlashWait) : s.ReadsServed (s.flashFetched q) := by
  unfold State.flashFetched
  split
  · exact .onlyIf _ ⟨⟨_, _, rfl⟩, rfl, rfl, rfl, id⟩
  · exact .refl s

theorem State.readsServed_flashReturn (s : State) (q : FlashWait) : s.ReadsServed (s.flashReturn q) := by
  unfold State.flashReturn
  dsimp only
  split
  · exact ⟨⟨_, _, rfl⟩, rfl, rfl, rfl, id⟩
  · exact ⟨⟨_, _, rfl⟩, rfl, rfl, rfl, id⟩

theorem State.readsServed_flashServe (s : State) (q : FlashWait) : s.ReadsServed (s.flashServe q) :=
  ((s.readsServed_flashFound q).trans (State.readsServed_flashFetched _ q)).trans (State.readsServed_flashReturn _ q)

theorem State.ReadsServed.each {α : Type} {f : State → α → State} (hf : ∀ s x, State.ReadsServed s (f s x)) (l : List α) :
    ∀ s : State, s.ReadsServed (s.each l f) := by
  induction l with
  | nil => exact .refl
  | cons x xs ih => exact fun s => (hf s x).trans (ih _)

theorem State.readsServed_flashServeAll (s : State) : s.ReadsServed s.flashServeAll :=
  State.ReadsServed.trans (t := s.modFls fun f => { f with reads := [] }) ⟨⟨_, _, rfl⟩, rfl, rfl, rfl, id⟩
    (.each State.readsServed_flashServe _ _)

end

/-! ## ALM's next page -/

/-- What a start of ALM's next page leaves: the contents of the flash, and the registers other than FLS_STATUS, of which it writes the state
and the bank. -/
theorem State.almKick_leaves (s : State) : (∃ op, s.almKick.fls = { s.fls with op := op }) ∧ s.almKick.rbit flsStatus 4 = s.rbit flsStatus 4 ∧
    (s.rfld flsStatus 0 2 ≠ 3 → s.almKick.rfld flsStatus 0 2 ≠ 3) ∧ RegsBut [flsStatus] s s.almKick := by
  unfold State.almKick
  split
  next page _ _ _ =>
    split
    · exact ⟨⟨_, rfl⟩, rfl, id, .refl _ s⟩
    · obtain ⟨-, hstate, -, hheld, hregs⟩ := s.flsStart_leaves (.almanac (s.reg almFlashPage).toNat page) (almBlock (s.reg almFlashPage).toNat)
      exact ⟨⟨_, rfl⟩, hheld, fun _ h3 => absurd (hstate.symm.trans h3) (by decide), hregs⟩
  next => exact ⟨⟨_, rfl⟩, rfl, id, .refl _ s⟩

/-! ## The end of an operation -/

/-- What the end of an operation leaves where no reset of FLS waits for it: the pages, FLS_MARGIN and the flag of a finished operation. -/
theorem State.flsFree_leaves {s : State} (hheld : s.clk.flsHeld = false) : s.flsFree.fls.pages = s.fls.pages ∧
    s.flsFree.fls.shipped = s.fls.shipped ∧ s.flsFree.reg flsMargin = s.reg flsMargin ∧ (s.rbit flsInt 0 = true → s.flsFree.rbit flsInt 0 = true) := by
  have hint : flsInt ≠ flsStatus := by decide
  have hmargin : flsMargin ≠ flsStatus := by decide
  let u := (s.modFls fun f => { f with op := none }).setRbit flsStatus 4 false
  obtain ⟨⟨_, _, hfls⟩, hclk, -, hkept, hdone⟩ := u.readsServed_flashServeAll
  let v := u.flashServeAll.setRfld flsStatus 0 2 (if u.flashServeAll.fls.suspended.isSome then 2 else 0)
  have hfree : s.flsFree = v.almKick := if_neg (by simp [hclk, u, hheld])
  obtain ⟨⟨_, hkick⟩, -, -, hregs⟩ := v.almKick_leaves
  have hpages : v.almKick.fls.pages = s.fls.pages := (congrArg Fls.pages hkick).trans (congrArg Fls.pages hfls :)
  have hshipped : v.almKick.fls.shipped = s.fls.shipped := (congrArg Fls.shipped hkick).trans (congrArg Fls.shipped hfls :)
  have hreg (a : Nat) (ha : a ≠ flsStatus) : v.almKick.reg a = u.flashServeAll.reg a := by
    rw [hregs a (by simpa using ha)]
    simp [v, ha]
  rw [hfree]
  refine ⟨hpages, hshipped, ?_, fun h => ?_⟩
  · rw [hreg _ hmargin, hkept]
    simp [u, hmargin]
  · rw [State.rbit, hreg _ hint]
    exact hdone (by simpa [State.rbit, u, hint] using h)

/-- An erase that is suspended. -/
theorem State.flsSuspendNow_leaves {s : State} {b : Nat} (hop : s.fls.op = some (.erase b)) :
    s.flsSuspendNow.fls.suspended = some b ∧ s.flsSuspendNow.rbit flsStatus 4 = false := by
  let u := ((s.modFls fun f => { f with op := none, suspended := some b }).setRfld flsStatus 0 2 2).setRbit flsStatus 4 false
  have hnow : s.flsSuspendNow = u.flashServeAll.almKick := by
    unfold State.flsSuspendNow
    rw [hop]
  obtain ⟨⟨_, _, hfls⟩, -, hstatus, -, -⟩ := u.readsServed_flashServeAll
  obtain ⟨⟨_, hkick⟩, hheld, -, -⟩ := u.flashServeAll.almKick_leaves
  rw [hnow]
  constructor
  · rw [hkick]
    exact congrArg Fls.suspended hfls
  · rw [hheld, State.rbit, hstatus]
    exact State.rbit_setRbit_same _ _ _ _ (by decide)

/-! ## Pages -/

theorem State.flsPage_congr {s t : State} (hpages : t.fls.pages = s.fls.pages) (hshipped : t.fls.shipped = s.fls.shipped) (block page : Nat) :
    t.flsPage block page = s.flsPage block page := by simp [State.flsPage, hpages, hshipped]

/-- A page that is programmed with all ones reads as it shipped, where its block shipped with contents. -/
theorem State.flsPage_storePage (s : State) (block page : Nat) (d : List Byte) : (s.storePage block page d).flsPage block page =
    if d = erasedPage ∧ s.fls.shipped.contains block then Config.shippedPage (512 * block + page) else d := by
  simp [State.flsPage, State.storePage]

/-- The pages of a block that has been erased: the header, and erased pages behind it. -/
theorem State.flsPage_eraseBlock (s : State) (b : Nat) : (∃ n, (s.eraseBlock b).flsPage b 0 = blockHeader b n) ∧
    ∀ p, 0 < p → p < 512 → (s.eraseBlock b).flsPage b p = erasedPage := by
  have hcount (u : State) (p : Nat) : (u.count (flsCtr 1)).flsPage b p = u.flsPage b p := by
    have hfls : (u.count (flsCtr 1)).fls = u.fls := (State.count_frame_any _ rfl (Fr.refl u) (P := .part .fls)).1
    exact State.flsPage_congr (congrArg Fls.pages hfls) (congrArg Fls.shipped hfls) b p
  unfold State.eraseBlock
  simp only [hcount]
  refine ⟨⟨_, (State.flsPage_storePage ..).trans (if_neg ?_)⟩, fun p hpos hlt => ?_⟩
  · simp [State.clearBlock]
  · have hne : 512 * b + p ≠ 512 * b + 0 := by omega
    simp [State.flsPage, State.storePage, State.clearBlock, tget_tset, tget_tdrop, hlt, Nat.pos_iff_ne_zero.mp hpos]

/-! ## The clauses -/

section
variable {s : State}

theorem exec_flsProgram_accepted {r : Requester} {b : Fin 256} {p : Fin 512} (hready : s.rfld flsStatus 0 2 ≠ 3)
    (hcode : s.flsRefusal r 1 b p = 0) : Completes (.flsProgram r b p) s fun t => t.fls = { s.fls with op := some (.program b p s.pbuf) } ∧
      t.rfld flsStatus 0 2 = 1 ∧ t.rfld flsStatus 2 2 = b.val / 64 ∧ RegsBut [flsStatus, flsCmdReg] s t := by
  have hshow := s.flsRefusal_flsCmdShow r 1 b p 1 b p
  refine ⟨_, congrArg Host.Outcome.next ((State.flsCmd_of_ready hready ..).trans (State.flsGo_program (hshow.trans hcode) 0)), ?_⟩
  rw [s.pbuf_flsCmdShow]
  obtain ⟨hfls, hstate, hbank, -, hregs⟩ := (s.flsCmdShow 1 b p).flsStart_leaves (.program b p s.pbuf) b
  exact ⟨hfls, hstate, hbank.trans (by omega), ((s.flsCmdShow_regsBut 1 b p).mono (by simp)).trans (hregs.mono (by simp))⟩

theorem exec_flsErase_accepted {r : Requester} {b : Fin 256} (hready : s.rfld flsStatus 0 2 ≠ 3) (hcode : s.flsRefusal r 2 b 0 = 0) :
    Completes (.flsErase r b) s fun t => t.fls = { s.fls with op := some (.erase b) } ∧ t.rfld flsStatus 0 2 = 1 ∧
      t.rfld flsStatus 2 2 = b.val / 64 ∧ RegsBut [flsStatus, flsCmdReg] s t := by
  have hshow := s.flsRefusal_flsCmdShow r 2 b 0 2 b 0
  refine ⟨_, congrArg Host.Outcome.next ((State.flsCmd_of_ready hready ..).trans (State.flsGo_erase (hshow.trans hcode) 0)), ?_⟩
  obtain ⟨hfls, hstate, hbank, -, hregs⟩ := (s.flsCmdShow 2 b 0).flsStart_leaves (.erase b) b
  exact ⟨hfls, hstate, hbank.trans (by omega), ((s.flsCmdShow_regsBut 2 b 0).mono (by simp)).trans (hregs.mono (by simp))⟩

theorem exec_flsSuspend_of_erase {b : Nat} (hop : s.fls.op = some (.erase b))
    (hdue : ∀ w, s.fls.resumeAt = some w → w + 2000000 ≤ s.vgl.wall) : Completes .flsSuspend s fun t => t.fls.suspended = some b ∧
      t.rbit flsStatus 4 = false := by
  have hop' : (s.flsCmdShow 3 0 0).fls.op = some (.erase b) := hop
  refine ⟨_, congrArg Host.Outcome.next (a₂ := (s.flsCmdShow 3 0 0).flsSuspendNow) ?_, State.flsSuspendNow_leaves hop'⟩
  unfold State.flsSuspend
  rw [hop']
  cases hat : (s.flsCmdShow 3 0 0).fls.resumeAt with
  | none => rfl
  | some w => exact if_neg (Nat.not_lt.mpr (hdue w hat))

theorem exec_flsSuspendDeferred_of_erase {b : Nat} (hop : s.fls.op = some (.erase b)) (hwaits : s.rbit flsStatus 4 = true) :
    Completes .flsSuspendDeferred s fun t => t.fls.suspended = some b ∧ t.rbit flsStatus 4 = false :=
  ⟨_, congrArg Host.Outcome.next (if_pos hwaits), State.flsSuspendNow_leaves hop⟩

theorem exec_flsResume_of_suspended {b : Nat} {r : Requester} (hready : s.rfld flsStatus 0 2 ≠ 3) (hop : s.fls.op = none)
    (hsus : s.fls.suspended = some b) : Completes (.flsResume r) s fun t =>
      t.fls = { s.fls with op := some (.erase b), suspended := none, resumeAt := some s.vgl.wall } ∧ t.rfld flsStatus 0 2 = 1 ∧
      RegsBut [flsStatus, flsCmdReg] s t := by
  let u := (s.flsCmdShow 4 0 0).modFls fun f => { f with suspended := none, resumeAt := some s.vgl.wall }
  have hgo := State.flsGo_resume (s := s.flsCmdShow 4 0 0) (r := r) hop hsus 0
  obtain ⟨hfls, hstate, -, -, hregs⟩ := u.flsStart_leaves (.erase b) b
  exact ⟨u.flsStart (.erase b) b, congrArg Host.Outcome.next ((State.flsCmd_of_ready hready ..).trans hgo), hfls, hstate,
    ((s.flsCmdShow_regsBut 4 0 0).mono (by simp)).trans (hregs.mono (by simp))⟩

theorem exec_flsMarginRead_of_idle {r : Requester} {b : Fin 256} {p : Fin 512} {bits : BitVec 13} (hready : s.rfld flsStatus 0 2 ≠ 3)
    (hop : s.fls.op = none) (hsus : s.fls.suspended = none) : Completes (.flsMarginRead r b p bits) s fun t =>
      t.reg flsMargin = BitVec.ofNat 32 bits.toNat ∧ t.rbit flsInt 0 ∧ t.fls = s.fls ∧ RegsBut [flsCmdReg, flsMargin, flsInt] s t := by
  have hne : flsMargin ≠ flsInt := by decide
  have hgo := State.flsGo_marginRead (s := s.flsCmdShow 5 b p) (r := r) hop hsus b p bits.toNat
  exact ⟨_, congrArg Host.Outcome.next ((State.flsCmd_of_ready hready ..).trans hgo), by simp [hne], State.rbit_raise_same _ _ _ (by decide), rfl,
    (((s.flsCmdShow_regsBut 5 b p).mono (by simp)).setReg _).setReg _⟩

theorem exec_flsOtpProgram_of_idle {r : Requester} (hready : s.rfld flsStatus 0 2 ≠ 3) (hop : s.fls.op = none) (hsus : s.fls.suspended = none)
    (hopen : s.otpLocked (s.rfld (regAddr bFLS 0x20) 0 10 / 128) = false) : Completes (.flsOtpProgram r) s fun t => t.rbit flsInt 0 ∧
      RegsBut [flsCmdReg, flsInt] s t ∧ ∀ w, t.otpWord w = if w = s.rfld (regAddr bFLS 0x20) 0 10 ∧ s.otpWord w = 0 then s.fls.otpData else
      s.otpWord w := by
  have hne : regAddr bFLS 0x20 ≠ flsCmdReg := by decide
  have haddr : (s.flsCmdShow 6 0 0).rfld (regAddr bFLS 0x20) 0 10 = s.rfld (regAddr bFLS 0x20) 0 10 := by
    simp [State.flsCmdShow, State.rfld, hne]
  have hgo := State.flsGo_otpProgram (s := s.flsCmdShow 6 0 0) (r := r) hop hsus (by rw [haddr]; exact hopen) 0
  rw [haddr] at hgo
  refine ⟨_, congrArg Host.Outcome.next ((State.flsCmd_of_ready hready ..).trans hgo), State.rbit_raise_same _ _ _ (by decide), ?_, fun w => ?_⟩
  · exact (((s.flsCmdShow_regsBut 6 0 0).mono (by simp)).trans (.of_regs (State.otpSet_regs ..))).setReg _
  · exact (s.flsCmdShow 6 0 0).otpWord_otpSet_eq _ w s.fls.otpData

/-- A program that ends; the page reads as it shipped where it was programmed with all ones and its block shipped with contents. -/
theorem exec_flsProgramDone_of_program {b p : Nat} {d : List Byte} (m : BitVec 13) (hop : s.fls.op = some (.program b p d))
    (hheld : s.clk.flsHeld = false) : Completes (.flsProgramDone true m) s fun t =>
      t.flsPage b p = (if d = erasedPage ∧ s.fls.shipped.contains b then Config.shippedPage (512 * b + p) else d) ∧ t.rbit flsInt 0 ∧
      t.reg flsMargin = BitVec.ofNat 32 m.toNat := by
  let u := (s.setReg flsMargin (BitVec.ofNat 32 m.toNat)).storePage b p d
  let v := (u.count (flsCtr 0)).raise flsInt 0
  have hnext : exec (.flsProgramDone true m) s = .next v.flsFree := by
    change execFlsProgramDone true m s = _
    rw [execFlsProgramDone, hop, State.flsProgramDone]
    dsimp only
    rw [show (s.setReg flsMargin (BitVec.ofNat 32 m.toNat)).fls.op = _ from hop]
    rfl
  have hfls : v.fls = u.fls := (State.count_frame_any (flsCtr 0) rfl (Fr.refl u) (P := .part .fls)).1
  have hclk : v.clk = u.clk := (State.count_frame_any (flsCtr 0) rfl (Fr.refl u) (P := .part .clk)).1
  obtain ⟨hpages, hshipped, hmargin, hdone⟩ := State.flsFree_leaves (s := v) ((congrArg Clk.flsHeld hclk).trans hheld)
  refine ⟨_, hnext, ?_, hdone (State.rbit_raise_same _ _ _ (by decide)), hmargin.trans ?_⟩
  · rw [State.flsPage_congr hpages hshipped, State.flsPage_congr (congrArg Fls.pages hfls) (congrArg Fls.shipped hfls)]
    exact State.flsPage_storePage ..
  · have hne : flsMargin ≠ flsInt := by decide
    have hctr : ¬ (flsCtr 0).Holds flsMargin := by simp [Ctr.Holds, flsCtr, flsMargin, flsInt]
    rw [State.reg_raise, if_neg hne, State.count_reg _ _ flsMargin (outsideCpl_regAddr (by decide)) hctr]
    exact (State.reg_setReg ..).trans (if_pos rfl)

theorem exec_flsEraseDone_of_erase {b : Nat} (m : BitVec 13) (hop : s.fls.op = some (.erase b)) (hheld : s.clk.flsHeld = false) :
    Completes (.flsEraseDone true m) s fun t => (∀ p, 0 < p → p < 512 → t.flsPage b p = erasedPage) ∧ (∃ n, t.flsPage b 0 = blockHeader b n) ∧
      t.rbit flsInt 0 := by
  let u := s.setReg flsMargin (BitVec.ofNat 32 m.toNat)
  let v := (u.eraseBlock b).raise flsInt 0
  have hnext : exec (.flsEraseDone true m) s = .next v.flsFree := by
    change execFlsEraseDone true m s = _
    rw [execFlsEraseDone, hop]
    rfl
  have hclk : v.clk = s.clk := (State.count_frame_any (flsCtr 1) rfl (Fr.refl _) (P := .part .clk)).1
  obtain ⟨hpages, hshipped, -, hdone⟩ := State.flsFree_leaves (s := v) ((congrArg Clk.flsHeld hclk).trans hheld)
  obtain ⟨⟨n, hheader⟩, herased⟩ := u.flsPage_eraseBlock b
  have hpage (p : Nat) : v.flsFree.flsPage b p = (u.eraseBlock b).flsPage b p := State.flsPage_congr hpages hshipped b p
  exact ⟨_, hnext, fun p hpos hlt => (hpage p).trans (herased p hpos hlt), ⟨n, (hpage 0).trans hheader⟩,
    hdone (State.rbit_raise_same _ _ _ (by decide))⟩

theorem exec_flsInitDone_of_init (m : BitVec 13) (hinit : s.rfld flsStatus 0 2 = 3) (hheld : s.fls.held = []) :
    Completes (.flsInitDone m) s fun t => t.rfld flsStatus 0 2 ≠ 3 ∧ t.fls.pages = s.fls.pages := by
  let u := s.rebuildTop.setRfld flsStatus 0 2 0
  obtain ⟨⟨_, hkick⟩, -, hstate, -⟩ := u.almKick_leaves
  have hnone : u.almKick.fls.held = [] := (congrArg Fls.held hkick).trans hheld
  have hnext : exec (.flsInitDone m) s = .next (u.almKick.modFls fun f => { f with held := [] }) := by
    refine congrArg Host.Outcome.next ((if_neg (not_not.mpr hinit)).trans ?_)
    change State.each _ u.almKick.fls.held _ = _
    rw [hnone]
    rfl
  refine ⟨_, hnext, hstate ?_, (congrArg Fls.pages hkick :)⟩
  rw [State.rfld_setRfld_same _ _ _ _ _ (by decide)]
  decide

theorem exec_flashRead_of_free {r : Requester} {b : Fin 256} {p : Fin 512} (f : Bool) (hfree : s.flsBankBusy (b.val / 64) = false) :
    Completes (.flashRead r b p 0 f) s fun t => t.out = .flashData b p (s.flsPage b p) :: s.out ∧ RegsBut [] s t ∧ t.fls.pages = s.fls.pages := by
  let q : FlashWait := { src := r, block := b, page := p, find := 0, fetch := f }
  have hnext : exec (.flashRead r b p 0 f) s = .next ((s.flashFetched q).emit (.flashData b p ((s.flashFetched q).flsPage b p))) :=
    congrArg Host.Outcome.next (if_neg (by simp [hfree]))
  have hfetched : (s.flashFetched q).out = s.out ∧ (s.flashFetched q).regs = s.regs ∧ (s.flashFetched q).fls.pages = s.fls.pages ∧
      (s.flashFetched q).fls.shipped = s.fls.shipped := by
    unfold State.flashFetched State.onlyIf
    split
    · split
      · exact ⟨rfl, rfl, rfl, rfl⟩
      · exact ⟨rfl, rfl, rfl, rfl⟩
    · exact ⟨rfl, rfl, rfl, rfl⟩
  obtain ⟨hout, hregs, hpages, hshipped⟩ := hfetched
  refine ⟨_, hnext, ?_, .of_regs hregs, hpages⟩
  rw [State.emit_out_self, hout, State.flsPage_congr hpages hshipped]

end

/-! ## What O33 turns on -/

/-- A program of all ones into page `p` of block `b`, which shipped with contents, is under way. -/
def programsOnes (b p : Nat) : State := { State.reset with fls := { shipped := [b], op := some (.program b p erasedPage) } }

/-- O33 holds exactly where a part ships with erased pages in all its blocks, which the model leaves open. -/
theorem flashCommandsComplete_iff : Obligations.FlashCommandsComplete ↔ ∀ n, Config.shippedPage n = erasedPage := by
  constructor
  · intro h n
    obtain ⟨-, -, -, -, -, -, -, hdone, -⟩ := h
    have hones := (hdone 0 0 n erasedPage (programsOnes 0 n) rfl rfl).of_execNext.1
    have hshipped := (exec_flsProgramDone_of_program (s := programsOnes 0 n) (b := 0) (p := n) 0 rfl rfl).of_execNext.1
    simpa [programsOnes] using hshipped.symm.trans hones
  · intro hblank
    refine ⟨fun r b p s hready hcode => exec_flsProgram_accepted hready hcode, fun r b s hready hcode => exec_flsErase_accepted hready hcode,
      fun b s hop hdue => exec_flsSuspend_of_erase hop hdue, fun b s hop hwaits => exec_flsSuspendDeferred_of_erase hop hwaits,
      fun r b s hready hop hsus => exec_flsResume_of_suspended hready hop hsus,
      fun r b p bits s hready hop hsus => exec_flsMarginRead_of_idle hready hop hsus,
      fun r s hready hop hsus hopen => exec_flsOtpProgram_of_idle hready hop hsus hopen, fun m b p d s hop hheld => ?_,
      fun m b s hop _ hheld => exec_flsEraseDone_of_erase m hop hheld, fun m s hinit hheld => exec_flsInitDone_of_init m hinit hheld,
      fun r b p f s hfree => exec_flashRead_of_free f hfree⟩
    obtain ⟨t, hnext, hpage, hrest⟩ := exec_flsProgramDone_of_program m hop hheld
    refine ⟨t, hnext, hpage.trans ?_, hrest⟩
    split
    next hones => exact (hblank _).trans hones.1.symm
    next => rfl

end Sys2Proof.Machine
end

section
/-!
PROOFS. The host port's commands (O12). Every clause holds but one: a write of HIF_LATTOL, a word of the Vigil bank, is stored with whatever
difference the SRAM code takes for good while the test mode's corruption is armed on that word, and the check matrix that decides it is a
constant without a body. So O12 is neither provable nor refutable: it holds exactly where the code takes no wrong word for good.
-/
namespace Sys2Proof.Machine

/-! ## Links that drop or come up -/

theorem State.hifDrop_only (s : State) (p link : Nat) : Only [.hif] [hifStatus p, hifInt p] s (s.hifDrop p link) :=
  (((Only.refl _ _ s).step (s.setHif_puts _ _)).setReg _).onlyIf _ ((Only.refl _ _ _).setReg _)

theorem State.status_hifDrop (s : State) (p link : Nat) : (s.hifDrop p link).rfld (hifStatus p) 0 6 = 0 := by
  have hne : hifStatus p ≠ hifInt p := by simp [hifStatus, hifInt]
  have hdrop : (s.hifDrop p link).reg (hifStatus p) = setFld (s.reg (hifStatus p)) 0 6 0 := by
    unfold State.hifDrop
    dsimp only
    rw [reg_onlyIf _ _ _ _ fun u => (State.reg_raise ..).trans (if_neg hne)]
    exact (State.reg_setRfld ..).trans (if_pos rfl)
  rw [State.rfld, hdrop]
  exact fld_setFld_same _ _ _ _ (by decide)

/-- A link that was up says that it went down. -/
theorem State.linkDown_hifDrop {s : State} {p : Nat} (hup : (s.hifP p).link = 2) (link : Nat) : (s.hifDrop p link).rbit (hifInt p) 1 = true := by
  have hbit : ((s.hifP p).link == 2) = true := by rw [hup]; rfl
  unfold State.hifDrop
  dsimp only
  rw [hbit]
  exact State.rbit_raise_same _ _ _ (by decide)

theorem State.reg_hifCtrl_hifDrop (s : State) (p link : Nat) : (s.hifDrop p link).reg (hifCtrl p) = s.reg (hifCtrl p) :=
  (s.hifDrop_only p link).1 _ (by simp [hifCtrl, hifStatus, hifInt])

/-! ## PWR decides again -/

theorem State.pwrRecompute_regsBut (s : State) : RegsBut [pwrStatus, vglWakeSrc] s s.pwrRecompute := by
  have hshow {u : State} (h : RegsBut [pwrStatus, vglWakeSrc] s u) : RegsBut [pwrStatus, vglWakeSrc] s u.pwrShow := (h.setReg _).setReg _
  have hidle : RegsBut [pwrStatus, vglWakeSrc] s (s.onlyIf (!s.isIdle) fun s => { s with pwr := { s.pwr with idle := 0 } }) :=
    fun a _ => reg_onlyIf _ _ _ a fun _ => rfl
  unfold State.pwrRecompute State.beginEntry State.beginExit
  dsimp only
  split
  · exact hidle.setReg _
  · split
    · split
      · exact hidle.setReg _
      · exact hshow ((RegsBut.trans (hidle.setReg _) (.refl _ _)).setReg _)
    · split
      · exact hidle.setReg _
      · exact hshow (RegsBut.trans (hidle.setReg _) (.refl _ _))

/-! ## An association without commands ends -/

/-- What the end of an association leaves where none of the port's commands is left. -/
theorem State.assocEnd_leaves {s : State} {p : Nat} (hnone : s.portCtxs p = []) : ((s.assocEnd p).hifP p).link = (s.hifP p).link ∧
    ((s.assocEnd p).hifP p).ctrl = none ∧ (s.assocEnd p).rbit (hifStatus p) 6 = false ∧
    RegsBut [hifStatus p, qmgInt, pwrStatus, vglWakeSrc] s (s.assocEnd p) := by
  let x : HifPort := { s.hifP p with
    ctrl := none, conns := ((s.hifP p).conns.filter fun c => !c.rdma).map fun c => { c with ended := true }, draining := true, resetting := false }
  let u := ((s.setHif p x).setRbit (hifStatus p) 6 false).dropCpls p
  let v := (u.setHif p { u.hifP p with draining := false }).raise qmgInt 2
  have hx : u.hifP p = x := (State.hifP_setHif s p p x).trans (if_pos rfl)
  have hend : s.assocEnd p = v.pwrRecompute := by
    have hu : u.portCtxs p = [] := hnone
    unfold State.assocEnd
    dsimp only
    change State.pwrRecompute (if ((State.each u (u.portCtxs p) _).portCtxs p).isEmpty && ((State.each u (u.portCtxs p) _).hifP p).draining then _ else _) = _
    rw [hu]
    simp only [State.each, hu, hx]
    rfl
  have hport : v.pwrRecompute.hifP p = { x with draining := false } := by
    rw [State.hifP_congr (State.pwrRecompute_frame (Fr.refl v) rfl (P := .part .hif)).1]
    exact (State.hifP_setHif u p p _).trans (by rw [if_pos rfl, hx])
  have hq : hifStatus p ≠ qmgInt := by
    simp only [hifStatus, qmgInt, ne_eq, regAddr_inj, bHIF, bQMG]
    omega
  have hw : hifStatus p ∉ [pwrStatus, vglWakeSrc] := by
    simp only [hifStatus, pwrStatus, vglWakeSrc, List.mem_cons, List.not_mem_nil, or_false, regAddr_inj, and_true, bHIF, bPWR, bVGL]
    omega
  have hu : RegsBut [hifStatus p, qmgInt, pwrStatus, vglWakeSrc] s u :=
    RegsBut.trans (t := (s.setHif p x).setRbit (hifStatus p) 6 false) (((RegsBut.refl _ s).step (s.setHif_puts p x)).setReg _) (.of_regs rfl)
  have hv : RegsBut [hifStatus p, qmgInt, pwrStatus, vglWakeSrc] s v := (hu.step (u.setHif_puts p { u.hifP p with draining := false })).setReg _
  rw [hend]
  refine ⟨(congrArg HifPort.link hport :), (congrArg HifPort.ctrl hport :), ?_, hv.trans (v.pwrRecompute_regsBut.mono (by simp))⟩
  rw [State.rbit, v.pwrRecompute_regsBut _ hw]
  simp [v, u, hq, State.dropCpls, bitAt_putBit]

/-! ## Words of the Vigil bank -/

/-- A word of the bank reads as written, but for the difference that an armed corruption stores unnoticed in its half of the SRAM word. -/
theorem State.reg_setBank_self (s : State) {n : Nat} (hn : n < 1024) (v : W) : (s.setBank (bankAddr n) v).reg (bankAddr n) =
    v ^^^ BitVec.ofNat 32 (if n % 2 = 0 then s.sramFlip 29 (n / 2) else s.sramFlip 29 (n / 2) / 2 ^ 32) := by
  have hword : (bankAddr n - regAddr bVGL 0x1000) / 8 = n / 2 := by
    simp only [bankAddr, regAddr]
    omega
  have hin : regAddr bVGL 0x1000 ≤ bankAddr n ∧ bankAddr n < regAddr bVGL 0x2000 := by
    simp only [bankAddr, regAddr]
    omega
  have hwrote (u : State) : (u.sramWrote 29 (n / 2)).reg (bankAddr n) = u.reg (bankAddr n) :=
    (State.sramWrote_frame (P := .win bVGL) 29 (n / 2) (Fr.refl u) ⟨by decide, by decide⟩).1 _ (blkOf_regAddr _ _)
  have hlow : n % 2 = 0 → bankAddr n = regAddr bVGL 0x1000 + 8 * (n / 2) := by
    simp only [bankAddr, regAddr]
    omega
  have hhigh : n % 2 ≠ 0 → bankAddr n = regAddr bVGL 0x1000 + 8 * (n / 2) + 4 := by
    simp only [bankAddr, regAddr]
    omega
  unfold State.setBank
  dsimp only
  rw [if_pos hin, hword, hwrote]
  generalize s.sramFlip 29 (n / 2) = x
  by_cases hx : x = 0
  · simp [hx]
  · rw [bne_iff_ne.mpr hx, State.onlyIf_true]
    by_cases hpar : n % 2 = 0
    · rw [if_pos hpar, ← hlow hpar]
      simp
    · rw [if_neg hpar, ← hhigh hpar]
      have hne : bankAddr n ≠ regAddr bVGL 0x1000 + 8 * (n / 2) := by
        rw [hhigh hpar]
        omega
      simp

/-- HIF_LATTOL after a write, where the code takes no wrong word for good. -/
theorem exec_hifLattolWrite (p : Fin 4) (v : W) (s : State) : Completes (.hifLattolWrite p v) s fun t => t.reg (hifLattol p) =
    (v &&& 0xFFFFF) ^^^ BitVec.ofNat 32 (if (17 + 3 * p.val) % 2 = 0 then s.sramFlip 29 ((17 + 3 * p) / 2) else
      s.sramFlip 29 ((17 + 3 * p) / 2) / 2 ^ 32) := by
  refine ⟨_, rfl, ?_⟩
  have hlattol : hifLattol p ∉ [pwrStatus, vglWakeSrc] := by
    simp only [hifLattol, bankAddr, pwrStatus, vglWakeSrc, List.mem_cons, List.not_mem_nil, or_false, regAddr_inj, bPWR, bVGL]
    omega
  exact (State.pwrRecompute_regsBut _ _ hlattol).trans (s.reg_setBank_self (by omega) _)

/-! ## The clauses -/

section
variable {p : Fin 4} {s : State}

theorem exec_hifPortEn_on (hoff : s.rbit (hifCtrl p) 0 = false) : Completes (.hifPortEn p true) s fun t => t.rbit (hifCtrl p) 0 ∧
    (t.hifP p).link = 1 ∧ t.rfld (hifStatus p) 0 6 = 0 ∧ Only [.hif] [hifCtrl p, hifStatus p, hifInt p] s t := by
  let u := (s.setRbit (hifCtrl p) 0 true).hifDrop p 1
  have hnext : exec (.hifPortEn p true) s = .next (u.setHif p { u.hifP p with net := u.netBytes p }) :=
    congrArg Host.Outcome.next ((if_neg (by simp [hoff])).trans (if_pos rfl))
  refine ⟨_, hnext, ?_, ?_, ?_, ?_⟩
  · rw [State.rbit, State.reg_setHif, State.reg_hifCtrl_hifDrop]
    exact State.rbit_setRbit_same _ _ _ _ (by decide)
  · rw [State.hifP_setHif, if_pos rfl]
    exact congrArg HifPort.link (State.hifP_hifDrop _ p 1)
  · exact State.status_hifDrop _ p 1
  · exact (((Only.refl _ _ s).setReg _).trans ((State.hifDrop_only _ p 1).mono)).step (u.setHif_puts _ _)

theorem State.portCtxs_hifDrop (s : State) (p q link : Nat) : (s.hifDrop p link).portCtxs q = s.portCtxs q := by
  have hctx : (s.hifDrop p link).ctx = s.ctx := (s.hifDrop_only p link).2 .ctx (by simp)
  simp only [State.portCtxs, State.ctxs, hctx]

theorem State.reg_hifCtrl_assocEnd {p : Nat} (hnone : s.portCtxs p = []) : (s.assocEnd p).reg (hifCtrl p) = s.reg (hifCtrl p) := by
  obtain ⟨-, -, -, hregs⟩ := State.assocEnd_leaves hnone
  refine hregs _ ?_
  simp only [hifCtrl, hifStatus, qmgInt, pwrStatus, vglWakeSrc, List.mem_cons, List.not_mem_nil, or_false, regAddr_inj, bHIF, bQMG, bPWR, bVGL]
  omega

theorem exec_hifPortEn_off (hon : s.rbit (hifCtrl p) 0 = true) (hnone : s.portCtxs p = []) : Completes (.hifPortEn p false) s fun t =>
    t.rbit (hifCtrl p) 0 = false ∧ (t.hifP p).link = 0 ∧ (t.hifP p).ctrl = none ∧ t.rbit (hifStatus p) 6 = false := by
  have hdropped : ((s.setRbit (hifCtrl p) 0 false).hifDrop p 0).portCtxs p = [] := (State.portCtxs_hifDrop ..).trans hnone
  have hlow : ((s.setRbit (hifCtrl p) 0 false).hifDrop p 0).rbit (hifCtrl p) 0 = false := by
    rw [State.rbit, State.reg_hifCtrl_hifDrop]
    exact State.rbit_setRbit_same _ _ _ _ (by decide)
  have hport : (((s.setRbit (hifCtrl p) 0 false).hifDrop p 0).hifP p).link = 0 := congrArg HifPort.link (State.hifP_hifDrop ..)
  have hnext : exec (.hifPortEn p false) s = .next ((((s.setRbit (hifCtrl p) 0 false).hifDrop p 0).assocEnd p).setHif p
      { (((s.setRbit (hifCtrl p) 0 false).hifDrop p 0).assocEnd p).hifP p with discovery := 0 }) := by
    change Host.Outcome.next (s.hifPortEn p false) = _
    rw [State.hifPortEn, if_neg (by simp [hon]), if_neg Bool.false_ne_true]
  generalize (s.setRbit (hifCtrl p) 0 false).hifDrop p 0 = u at *
  have hctrl := State.reg_hifCtrl_assocEnd hdropped
  obtain ⟨hlink, hassoc, hstatus, -⟩ := State.assocEnd_leaves hdropped
  generalize u.assocEnd p = w at *
  refine ⟨_, hnext, ?_, ?_, ?_, hstatus⟩
  · exact (congrArg (bitAt · 0) hctrl).trans hlow
  · rw [State.hifP_setHif, if_pos rfl]
    exact hlink.trans hport
  · rw [State.hifP_setHif, if_pos rfl]
    exact hassoc

theorem exec_hifRestartAn_of_enabled (hon : s.rbit (hifCtrl p) 0 = true) : Completes (.hifRestartAn p) s fun t => (t.hifP p).link = 1 ∧
    t.rfld (hifStatus p) 0 6 = 0 ∧ RegsBut [hifStatus p, hifInt p] s t :=
  ⟨_, congrArg Host.Outcome.next (if_pos hon), congrArg HifPort.link (s.hifP_hifDrop p 1), s.status_hifDrop p 1, (s.hifDrop_only p 1).1⟩

theorem exec_hifModeWrite_of_disabled (v : W) (hoff : s.rbit (hifCtrl p) 0 = false) : Completes (.hifModeWrite p false v) s fun t =>
    t.reg (hifMode p) = v &&& 0x1F ∧ Only [] [hifMode p] s t :=
  ⟨_, congrArg Host.Outcome.next (if_neg (by simp [hoff])), (State.reg_setReg ..).trans (if_pos rfl), (Only.refl _ _ s).setReg _⟩

theorem exec_hifQlimitWrite_of_fits {v : W}
    (hfits : (((upto 4).filter fun q => q != p.val).map fun q => s.rfld (hifQlimit q) 0 11).sum + fld v 0 11 ≤ 1024) :
    Completes (.hifQlimitWrite p v) s fun t => t.reg (hifQlimit p) = v &&& 0x7FF ∧ Only [] [hifQlimit p] s t :=
  ⟨_, congrArg Host.Outcome.next (if_neg (Nat.not_lt.mpr hfits)), (State.reg_setReg ..).trans (if_pos rfl), (Only.refl _ _ s).setReg _⟩

/-- A field inside one that starts at bit 0 is that part of its value. -/
theorem fld_two_four_of_low (w : W) : fld w 2 4 = fld w 0 6 / 4 := by
  simp only [fld, Nat.shiftRight_eq_div_pow]
  omega

theorem exec_anAttemptDone_of_mode {m : Fin 16} (hlink : (s.hifP p).link = 1) (hmode : s.modeAllowed p m = true) :
    Completes (.anAttemptDone p (some m)) s fun t => (t.hifP p).link = 2 ∧ t.rbit (hifStatus p) 0 ∧ t.rfld (hifStatus p) 2 4 = m.val ∧
      t.rbit (hifInt p) 0 ∧ RegsBut [hifStatus p, hifInt p] s t := by
  let an := if s.rbit (hifCtrl p) 1 then 2 else 0
  have han : an = 0 ∨ an = 2 := by
    simp only [an]
    split
    · exact .inr rfl
    · exact .inl rfl
  let u := (s.setHif p { s.hifP p with link := 2 }).setRfld (hifStatus p) 0 6 (1 + an + 4 * m)
  have hnext : exec (.anAttemptDone p (some m)) s = .next (u.raise (hifInt p) 0) :=
    congrArg Host.Outcome.next ((if_neg (not_not.mpr hlink)).trans (if_neg (by simp [hmode])))
  have hne : hifStatus p ≠ hifInt p := by simp [hifStatus, hifInt]
  have hstatus : (u.raise (hifInt p) 0).reg (hifStatus p) = setFld (s.reg (hifStatus p)) 0 6 (1 + an + 4 * m) := by simp [u, hne]
  refine ⟨_, hnext, ?_, ?_, ?_, State.rbit_raise_same _ _ _ (by decide), (((RegsBut.refl _ s).step (s.setHif_puts _ _)).setReg _).setReg _⟩
  · exact congrArg HifPort.link ((State.hifP_setHif s p p { s.hifP p with link := 2 }).trans (if_pos rfl))
  · rw [State.rbit, hstatus, bitAt_setFld _ _ _ _ _ (by decide), if_pos (by decide)]
    rcases han with h | h <;> simp [h, Nat.testBit_zero] <;> omega
  · rw [State.rfld, hstatus, fld_two_four_of_low, fld_setFld_same _ _ _ _ (by decide)]
    omega

theorem exec_anAttemptDone_of_none (hlink : (s.hifP p).link = 1) : Completes (.anAttemptDone p none) s fun t => (t.hifP p).link = 3 ∧
    t.rbit (hifInt p) 2 ∧ RegsBut [hifInt p] s t :=
  ⟨_, congrArg Host.Outcome.next (if_neg (not_not.mpr hlink)),
    congrArg HifPort.link ((State.hifP_setHif s p p { s.hifP p with link := 3 }).trans (if_pos rfl)), State.rbit_raise_same _ _ _ (by decide),
    ((RegsBut.refl _ s).step (s.setHif_puts _ _)).setReg _⟩

theorem exec_anRetryTimer_of_failed (hlink : (s.hifP p).link = 3) : Completes (.anRetryTimer p) s fun t =>
    t.hifP p = { s.hifP p with link := 1 } ∧ SameBut [.hif] s t :=
  ⟨_, congrArg Host.Outcome.next (if_pos hlink), (State.hifP_setHif s p p _).trans (if_pos rfl), (SameBut.refl _ s).step (s.setHif_puts _ _)⟩

theorem exec_hifLinkDown_leaves (hup : (s.hifP p).link = 2) : Completes (.hifLinkDown p) s fun t =>
    t.hifP p = { s.hifP p with link := 1 } ∧ t.rfld (hifStatus p) 0 6 = 0 ∧ t.rbit (hifInt p) 1 ∧ RegsBut [hifStatus p, hifInt p] s t :=
  ⟨_, exec_hifLinkDown_of_up hup, s.hifP_hifDrop p 1, s.status_hifDrop p 1, State.linkDown_hifDrop hup 1, (s.hifDrop_only p 1).1⟩

/-- A frame without a FEC finding changes nothing before its FCS is looked at. -/
theorem exec_ethFrameRx_of_clean {f : EthFrame} (hup : (s.hifP p).link = 2) (hcorr : f.fecCorr = 0) (huncorr : f.fecUncorr = 0) :
    exec (.ethFrameRx p f) s = .next (if !f.fcsOk then s.count (hifCtr p 2) else if !s.frameAccepted p f then s.count (hifCtr p 3) else
      s.framePay p f) := by
  have hzero : s.countBy (hifCtr p 0) 0 = s := by simp [State.countBy, State.bumpBy]
  refine congrArg Host.Outcome.next ((if_neg (not_not.mpr hup)).trans ?_)
  rw [hcorr, huncorr, hzero]
  rfl

theorem exec_ethFrameRx_roceConnect {f : EthFrame} {qp : Nat} (hup : (s.hifP p).link = 2) (hcorr : f.fecCorr = 0) (huncorr : f.fecUncorr = 0)
    (hfcs : f.fcsOk = true) (haccepted : s.frameAccepted p f = true) (hpay : f.pay = .roceConnect qp) (hfab : s.fabOn = true)
    (hroce : s.rbit (hifCtrl p) 4 = true) : Completes (.ethFrameRx p f) s fun t =>
      ((t.hifP p).conns.any fun c => c.rdma && c.id == qp && !c.ended) ∧ SameBut [.hif] s t := by
  let x : HifPort := { s.hifP p with conns := ((s.hifP p).conns.filter fun c => c.id != qp || !c.rdma) ++ [{ id := qp, rdma := true }] }
  have hpaid : s.framePay p f = s.setHif p x := by
    unfold State.framePay
    rw [hpay]
    exact if_pos (by simp [hfab, hroce])
  have hnext : exec (.ethFrameRx p f) s = .next (s.setHif p x) :=
    (exec_ethFrameRx_of_clean hup hcorr huncorr).trans (congrArg Host.Outcome.next (by simp [hfcs, haccepted, hpaid]))
  exact ⟨_, hnext, by simp [x], (SameBut.refl _ s).step (s.setHif_puts _ _)⟩

theorem exec_ethFrameRx_badFcs {f : EthFrame} (hup : (s.hifP p).link = 2) (hcorr : f.fecCorr = 0) (huncorr : f.fecUncorr = 0)
    (hfcs : f.fcsOk = false) (hroom : (s.reg (hifCtr p 2).addr).toNat + 1 < 2 ^ (hifCtr p 2).width - 1) : Completes (.ethFrameRx p f) s fun t =>
      (t.reg (hifCtr p 2).addr).toNat = (s.reg (hifCtr p 2).addr).toNat + 1 ∧ Only [] [(hifCtr p 2).addr] s t := by
  let v := (s.reg (hifCtr p 2).addr).toNat
  have hcount : s.count (hifCtr p 2) = s.setReg (hifCtr p 2).addr (BitVec.ofNat 32 (v + 1)) := by
    have hbump : s.bump (hifCtr p 2) = (s.setReg (hifCtr p 2).addr (BitVec.ofNat 32 (v + 1)), false) :=
      (if_neg (by omega)).trans (if_neg (by omega))
    rw [State.count, hbump]
    rfl
  have hnext : exec (.ethFrameRx p f) s = .next (s.setReg (hifCtr p 2).addr (BitVec.ofNat 32 (v + 1))) :=
    (exec_ethFrameRx_of_clean hup hcorr huncorr).trans (congrArg Host.Outcome.next (by simp [hfcs, hcount]))
  have hlt : v + 1 < 2 ^ 32 - 1 := hroom
  refine ⟨_, hnext, ?_, (Only.refl _ _ s).setReg _⟩
  rw [State.reg_setReg, if_pos rfl, BitVec.toNat_ofNat]
  exact Nat.mod_eq_of_lt (by omega)

theorem exec_tcpConnectionOpen_tls {conn : Nat} (hup : (s.hifP p).link = 2) (htcp : s.rbit (hifCtrl p) 3 = true) :
    Completes (.tcpConnectionOpen p conn true true) s fun t => ((t.hifP p).conns.any fun c => !c.rdma && c.id == conn && c.tls && !c.ended) ∧
      SameBut [.hif] s t := by
  have hnext : exec (.tcpConnectionOpen p conn true true) s = .next (s.setHif p { s.hifP p with
      conns := ((s.hifP p).conns.filter fun c => c.id != conn || c.rdma) ++ [{ id := conn, tls := true }] }) :=
    congrArg Host.Outcome.next (if_neg (by simp [hup, htcp]))
  exact ⟨_, hnext, by simp, (SameBut.refl _ s).step (s.setHif_puts _ _)⟩

theorem exec_keepAliveExpiry_leaves {k : Ctrl} (hk : (s.hifP p).ctrl = some k) (hdue : k.kaAt + 1000000 * k.kato ≤ s.vgl.wall)
    (hlevel : s.level < 4) (hrun : s.pwr.kaStop = false) (hnone : s.portCtxs p = []) : Completes (.keepAliveExpiry p) s fun t =>
      (t.hifP p).ctrl = none ∧ t.rbit (hifStatus p) 6 = false := by
  obtain ⟨-, hassoc, hstatus, -⟩ := State.assocEnd_leaves hnone
  exact ⟨_, exec_keepAliveExpiry_of_due hk hdue hlevel hrun, hassoc, hstatus⟩

end

/-! ## What O12 turns on -/

/-- The SRAM code takes no word for good whose data was stored wrong, whatever the test mode's masks. -/
def NoSilentWord : Prop := ∀ dm cm flip, dm < 2 ^ 64 → cm < 2 ^ 8 → sramSilent dm cm flip = 0

/-- No bit of a number is set. -/
theorem eq_zero_of_popCount {k : Nat} : ∀ {m : Nat}, m < 2 ^ k → popCount k m = 0 → m = 0 := by
  induction k with
  | zero => exact fun hlt _ => Nat.lt_one_iff.mp hlt
  | succ k ih =>
    intro m hlt hzero
    rw [popCount] at hzero
    have hhalf : m / 2 = 0 := ih (by omega) (by omega)
    omega

/-- A check matrix of which no wrong word's syndrome is a column or zero makes it so. -/
theorem noSilentWord_of_detecting (hcolumn : ∀ dm cm flip, Config.sramColumn dm cm flip = none)
    (hzero : ∀ dm cm flip, Config.sramZero dm cm flip = false) : NoSilentWord := by
  intro dm cm flip hdm _
  by_cases hone : (decide (popCount 64 dm + popCount 8 cm = 1) && !flip) = true
  · exact if_pos hone
  · by_cases hnone : popCount 64 dm + popCount 8 cm = 0
    · obtain rfl : dm = 0 := eq_zero_of_popCount hdm (by omega)
      cases flip
      · simp [sramSilent, sramBadFind, hnone]
      · simp [sramSilent, sramBadFind, hnone]
    · have hfind : sramBadFind dm cm flip = .uncorrectable := by
        unfold sramBadFind
        dsimp only
        rw [if_neg hnone, if_neg hone, hcolumn, hzero, Bool.and_false]
        split
        · rfl
        · rfl
      rw [sramSilent, hfind]
      exact if_neg hone

/-- A check matrix by which two wrong data bits beside the address bit have the syndrome zero makes it not so. -/
theorem not_noSilentWord_of_zero (hzero : Config.sramZero 3 0 true = true) : ¬ NoSilentWord := by
  intro h
  have hsilent : sramSilent 3 0 true = 3 := by simp [sramSilent, sramBadFind, popCount, hzero]
  exact absurd (hsilent.symm.trans (h 3 0 true (by decide) (by decide))) (by decide)

/-- A corruption with these masks is armed on a word of the Vigil bank. -/
def armedBank (w dm cm : Nat) (flip : Bool) : State :=
  (((State.reset.setReg (regAddr bBUF 0x14) (BitVec.ofNat 32 (29 + 32 + (if flip then 64 else 0) + 256 * cm))).setReg (regAddr bBUF 0x18)
    (BitVec.ofNat 32 w)).setReg (regAddr bBUF 0x1C) (BitVec.ofNat 32 dm)).setReg (regAddr bBUF 0x20) (BitVec.ofNat 32 (dm / 2 ^ 32))

theorem sramFlip_armedBank {w dm cm : Nat} (flip : Bool) (hw : w < 512) (hdm : dm < 2 ^ 64) (hcm : cm < 2 ^ 8) :
    (armedBank w dm cm flip).sramFlip 29 w = sramSilent dm cm flip := by
  let v := 29 + 32 + (if flip then 64 else 0) + 256 * cm
  have htest : (armedBank w dm cm flip).reg (regAddr bBUF 0x14) = BitVec.ofNat 32 v := by simp [armedBank, v]
  have hword : (armedBank w dm cm flip).rfld (regAddr bBUF 0x18) 0 20 = w := by
    simp [armedBank, State.rfld, fld]
    omega
  have hlow : (armedBank w dm cm flip).reg (regAddr bBUF 0x1C) = BitVec.ofNat 32 dm := by simp [armedBank]
  have hhigh : (armedBank w dm cm flip).reg (regAddr bBUF 0x20) = BitVec.ofNat 32 (dm / 2 ^ 32) := by simp [armedBank]
  have hmask : (BitVec.ofNat 32 dm).toNat + 2 ^ 32 * (BitVec.ofNat 32 (dm / 2 ^ 32)).toNat = dm := by
    simp only [BitVec.toNat_ofNat]
    omega
  have hfields : fld (BitVec.ofNat 32 v) 0 5 = 29 ∧ fld (BitVec.ofNat 32 v) 8 8 = cm := by
    simp only [fld, Nat.shiftRight_eq_div_pow, BitVec.toNat_ofNat, v]
    cases flip <;> simp <;> omega
  have hbits : bitAt (BitVec.ofNat 32 v) 5 = true ∧ bitAt (BitVec.ofNat 32 v) 6 = flip := by
    simp only [bitAt, BitVec.getLsbD_ofNat, Nat.testBit_eq_decide_div_mod_eq, v]
    cases flip <;> simp <;> omega
  obtain ⟨hgroup, hcheck⟩ := hfields
  obtain ⟨harm, hflip⟩ := hbits
  have harmed : (armedBank w dm cm flip).sramArmed 29 w = some (dm, cm, flip) := by
    unfold State.sramArmed State.rbit State.rfld at *
    dsimp only
    rw [htest, hlow, hhigh, hmask, hgroup, hcheck, harm, hflip, hword]
    simp
  rw [State.sramFlip, harmed]

/-- Where the code takes no wrong word for good, an armed corruption stores no difference unnoticed. -/
theorem NoSilentWord.sramFlip (h : NoSilentWord) (s : State) (g w : Nat) : s.sramFlip g w = 0 := by
  unfold State.sramFlip State.sramArmed
  dsimp only
  split
  next dm cm flip harmed =>
    split at harmed
    · obtain ⟨rfl, rfl, rfl⟩ := harmed
      refine h _ _ _ ?_ (Nat.mod_lt _ (by decide))
      have h1 := (s.reg (regAddr bBUF 0x1C)).isLt
      have h2 := (s.reg (regAddr bBUF 0x20)).isLt
      omega
    · exact absurd harmed (by simp)
  next => rfl

theorem sramSilent_lt {dm : Nat} (cm : Nat) (flip : Bool) (hdm : dm < 2 ^ 64) : sramSilent dm cm flip < 2 ^ 64 := by
  unfold sramSilent
  dsimp only
  split
  · decide
  · split
    · exact hdm
    · refine Nat.xor_lt_two_pow hdm ?_
      split
      · split
        next hi => exact Nat.pow_lt_pow_right (by decide) hi
        next => decide
      · decide
    · decide
    · decide

/-- O12 holds exactly where the SRAM code takes no wrong word for good, which the model leaves open. -/
theorem hostPortCommandsComplete_iff : Obligations.HostPortCommandsComplete ↔ NoSilentWord := by
  constructor
  · intro h dm cm flip hdm hcm
    have hlattol (p : Fin 4) : BitVec.ofNat 32 (if (17 + 3 * p.val) % 2 = 0 then sramSilent dm cm flip else sramSilent dm cm flip / 2 ^ 32) = 0 := by
      obtain ⟨-, -, -, -, -, -, hwrite, -⟩ := h p (armedBank ((17 + 3 * p) / 2) dm cm flip)
      have hstored := (exec_hifLattolWrite p 0 (armedBank ((17 + 3 * p) / 2) dm cm flip)).of_execNext
      rw [sramFlip_armedBank flip (by omega) hdm hcm, (hwrite 0).of_execNext] at hstored
      simpa using hstored.symm
    have hlow := congrArg BitVec.toNat (hlattol 1)
    have hhigh := congrArg BitVec.toNat (hlattol 0)
    have hlt := sramSilent_lt cm flip hdm
    simp at hlow hhigh
    omega
  · intro hsilent p s
    refine ⟨exec_hifPortEn_on, exec_hifPortEn_off, exec_hifRestartAn_of_enabled, exec_hifModeWrite_of_disabled, fun lane v hon => ?_,
      fun v => exec_hifQlimitWrite_of_fits, fun v => ?_, fun m => exec_anAttemptDone_of_mode, exec_anAttemptDone_of_none,
      exec_anRetryTimer_of_failed, exec_hifLinkDown_leaves, fun f qp => exec_ethFrameRx_roceConnect, fun f => exec_ethFrameRx_badFcs,
      fun conn => exec_tcpConnectionOpen_tls, fun k => exec_keepAliveExpiry_leaves⟩
    · exact ⟨_, exec_hifModeWrite_of_enabled hon lane v, State.rbit_raise_same _ _ _ (by decide), (Only.refl _ _ s).setReg _⟩
    · obtain ⟨t, hnext, hstored⟩ := exec_hifLattolWrite p v s
      refine ⟨t, hnext, hstored.trans ?_⟩
      simp [hsilent.sramFlip]

end Sys2Proof.Machine
end
